-- ==== Sys2Proof/Word.lean ====
section
/-! DEFINITION. The word types of the EVL-4144 (R7, R8): fields are bit vectors of the width the spec gives them, bytes are the unit of every payload, message and memory. -/

namespace Sys2Proof

/-- One byte of a payload, a packet or a memory. -/
abbrev Byte := BitVec 8

/-- A 16-bit field. -/
abbrev Half := BitVec 16

/-- A 32-bit field. -/
abbrev Word := BitVec 32

/-- A 64-bit field. -/
abbrev Dword := BitVec 64

/-- Nanoseconds in a second, the modulus of R129. -/
abbrev billion : Nat := 1000000000

end Sys2Proof
end

