-- ==== Sys2Proof/Config.lean ====
section
/-! DEFINITION. What the spec leaves open: per-unit and per-firmware values, verdicts of cryptography whose keys the spec does not give, and free values. Every constant here is opaque: no proof can see a value of it. -/

namespace Sys2Proof.Config

open Sys2Proof

/-- The verdict of R60 on a stored firmware image. -/
inductive ImageVerdict where
  | good | signatureFailed | versionTooLow | lengthInvalid
deriving DecidableEq, Repr, Inhabited

/-- The unit serial number, 24 characters (Table 0.2, "per unit"). -/
opaque serial : Nat → Byte

/-- The management MAC address (Table 3.10, "per unit"). -/
opaque mgmtMac : BitVec 48

/-- The default MAC address of a port (Table 7.7, "per unit"). -/
opaque portMac : Nat → BitVec 48

/-- The number of object IDs served (Table 3.10, "per firmware"). -/
opaque objectCount : BitVec 32

/-- Verdict on an image under R60: the signing key, the fused digest and the header layout are not given. -/
opaque imageVerdict : List Byte → ImageVerdict

/-- Random nonces and other values the spec leaves free, by the state's counter of free values used so far. -/
opaque freeBits : Nat → BitVec 128

/-- A free choice among n possibilities (page order and the like), by the counter of free values. -/
opaque freeChoice : Nat → Nat → Nat

/-- What a byte of memory that nothing has written since power-up reads as (R344, R36), by power-up epoch and address. -/
opaque unwritten : Nat → Nat → Byte

/-- A free 64-bit result for operands on which the spec states no value, by the counter of free values. -/
opaque freeValue : Nat → BitVec 64

/-- The quotient of a division by 0 in bit-exact pseudocode, by its dividend: R13 states none. -/
opaque divByZero : Int → Int

/-- The remainder of such a division. -/
opaque modByZero : Int → Int

/-- The check bits an underback stage holds for its 32 data bytes: R260 gives their number and what they detect, not the code. -/
opaque underbackCode : List Byte → BitVec 10

/-- The device's own clock accuracy and offsetScaledLogVariance, which the spec does not state (Table 4.3). -/
opaque ptpQuality : BitVec 24

end Sys2Proof.Config
end

