-- ==== Sys2Proof/Syntax.lean ====
section
/-! DEFINITION. The commands of the block: one constructor of `Instr` per row of spec/opcode_table.json, in the table's order, with the operands the row's rules give it. A row that writes one object carries the requester (`Via`) and the value; the general dictionary rows carry the request as its transport delivers it. -/

namespace Sys2Proof

/-! Numbered resources (Table 0.1). -/

/-- A serial lane, L0 to L63. -/
abbrev Lane := Fin 64
/-- A quad, Q0 to Q15. -/
abbrev Quad := Fin 16
/-- A port index, 0 to 63 (R227). -/
abbrev Port := Fin 64
/-- A receive flow context. -/
abbrev Flow := Fin 4096
/-- A transmit flow context. -/
abbrev TxFlow := Fin 1024
/-- A delivery ring or tap host ring. -/
abbrev Ring := Fin 1024
/-- A completion queue. -/
abbrev Cq := Fin 256
/-- An event channel. -/
abbrev Chan := Fin 256
/-- A physical pseudo-channel. -/
abbrev Pc := Fin 128
/-- An encoder channel. -/
abbrev Enc := Fin 8
/-- A position compare unit. -/
abbrev CmpUnit := Fin 32
/-- A lamp channel. -/
abbrev Lamp := Fin 16

/-- A TIME96 value (R14, Table 3.1). -/
structure Time96 where
  sec  : BitVec 48
  ns   : BitVec 32
  frac : BitVec 16
deriving DecidableEq, Repr, Inhabited

/-- Where a Linob message comes from or goes to (R113, R116). -/
inductive Endpoint where
  /-- an address and UDP port on the management port -/
  | mgmt (ip : BitVec 128) (udp : BitVec 16)
  /-- a member of the brewhouse, over a cascade link -/
  | member (addr : BitVec 10)
deriving DecidableEq, Repr, Inhabited

/-- A request as its transport delivers it (R99, R106, R115, R116). -/
inductive Transport where
  /-- the four words and the payload area the host wrote before its doorbell -/
  | mailbox (m : Fin 4) (cmd obj len : Word) (req : List Byte)
  /-- one UDP datagram to port 19522 of the management port, from an address and UDP port -/
  | mgmt (ip : BitVec 128) (udp : BitVec 16) (datagram : List Byte)
  /-- one Linob message in a cascade frame addressed to this device -/
  | cascade (q : Quad) (src : BitVec 10) (hops : Byte) (datagram : List Byte)
  /-- a message marked broadcast in its cascade framing -/
  | broadcast (q : Quad) (src : BitVec 10) (seq : Word) (hops : Byte) (datagram : List Byte)
  /-- a request the firmware posts -/
  | firmware (opcode flags : Byte) (obj : BitVec 24) (payload : List Byte)
  /-- a request on which the server itself faults (INTERNAL of Table 3.9, device cause 7 of Table 17.2) -/
  | faulted (q : Transport)
deriving DecidableEq, Repr

/-- Who makes the write of a row that names one object: a transport whose own checks have passed. -/
inductive Via where
  | mailbox (m : Fin 4) (seq : BitVec 16)
  | session (n : BitVec 16) (seq : BitVec 32)
  | broadcast (seq : BitVec 32)
  | firmware
deriving DecidableEq, Repr

/-- The two plans (R118, Table 3.4). -/
inductive PlanId where
  | a | b
deriving DecidableEq, Repr, Inhabited

/-- What drove the device into Cold (R53, Table 2.7). -/
inductive ColdCause where
  | powerOn | resetN | supplyGood
deriving DecidableEq, Repr, Inhabited

/-- A received PTP message's content (Table 4.3): what the firmware servo takes from each type. -/
inductive PtpBody where
  | sync (twoStep : Bool) (origin : Time96)
  | followUp (origin : Time96)
  | delayReq
  | delayResp (receive : Time96)
  | announce (gm : BitVec 64) (priority1 clockClass accuracy : Byte) (variance : BitVec 16) (priority2 : Byte)
      (utcOffset : BitVec 16) (tlvUtc : Option (BitVec 16))
  | management
  | signaling
  | unsupported
deriving DecidableEq, Repr

/-- A received PTP message: domain, correction field in 2^-16 ns, and body (R142 to R144). -/
structure PtpMessage where
  domain     : Byte
  correction : BitVec 64
  body       : PtpBody
deriving DecidableEq, Repr

/-- What the PTP port sends at a log interval (R143). -/
inductive PtpSend where
  | sync | announce | delayReq
deriving DecidableEq, Repr

/-- A cascade frame as it came in: its quad, and the hops its header carries (R249). -/
structure BhFrom where
  quad : Quad
  hops : Byte
deriving DecidableEq, Repr

/-- A beacon as received (R147). -/
structure BeaconBody where
  time   : Time96
  level  : Byte
  root   : BitVec 10
  locked : Bool
deriving DecidableEq, Repr

/-- An address announcement: this member's own, or one received on a quad with the fields of its frame's header (R153, Table 7.6). -/
inductive Announce where
  | own
  | received (q : Quad) (src : BitVec 10) (seq : Word) (hops : Byte) (addrs : List (BitVec 10))
deriving DecidableEq, Repr

/-- A software fire of one channel: FIRE[c] of BAR0, or `events.fire` (R169). -/
inductive FireBy where
  | bar0 (c : Chan) (trig : Word)
  | dict (via : Via) (c : Chan) (trig : Word)
deriving DecidableEq, Repr

/-- A software fire of a mask: FIRE_MASK[w] of BAR0, or `events.fire_mask` (R169). -/
inductive FireMaskBy where
  | bar0 (w : Fin 8) (mask : Word)
  | dict (via : Via) (i : Fin 4) (mask : Dword)
deriving DecidableEq, Repr

/-- A compare target written: TIME96 or short time (R155). -/
inductive CmpTarget where
  | time (t : Time96)
  | short (v : Word)
deriving DecidableEq, Repr
/-- The grist objects (R172). -/
inductive GristItem where
  | lut | inputMode | register | dSelect | filter | edge | q
deriving DecidableEq, Repr
/-- The objects whose write restarts a running lane (R224). -/
inductive LaneItem where
  | txPre | txMain | txPost | txSwing | rxInvert | txInvert | enable
deriving DecidableEq, Repr
/-- Where a Linob message arrives (R114): the management port, with the client's address and UDP port, or a cascade link, with the fields of the frame's header. -/
inductive LinkPort where
  | mgmt (ip : BitVec 128) (udp : BitVec 16)
  | quad (q : Quad) (src : BitVec 10) (seq : Word) (hops : Byte)
deriving DecidableEq, Repr
/-- The alignment marker found on a physical lane: a clause 82 marker of a logical lane, or the bytes M0 to M7 of a cascade marker (R198, R248). -/
inductive MarkBody where
  | clause82 (lane : Fin 4)
  | cascade (bytes : List Byte)
deriving DecidableEq, Repr
/-- A marker and its arrival, in picoseconds from any common instant (R198). -/
structure LaneMark where
  body : MarkBody
  at_  : Word
deriving DecidableEq, Repr
/-- A port and the markers its lanes have locked to, none where the port is one lane (R198). -/
structure Alignment where
  port  : Port
  marks : List LaneMark
deriving DecidableEq, Repr
/-- What the crossing's check of a word found (R264). -/
inductive WordCheck where
  | clean | corrected | uncorrectable | parity
deriving DecidableEq, Repr
/-- What one HBM read reports: the cellar's check, with the on-die severity 0 to 3 (R336). -/
inductive HbmRead where
  | clean (severity : Fin 4)
  | corrected (severity : Fin 4)
  | uncorrectable (severity : Fin 4)
deriving DecidableEq, Repr
/-- The objects of an armed compare unit that R457 names. -/
inductive CmpItem where
  | target | period | sense
deriving DecidableEq, Repr
/-- What a poll of a head bus finds (R469, R475). -/
inductive HeadReply where
  | noAck
  | memory (bytes : List Byte)
deriving DecidableEq, Repr
/-- The host resets of R500. -/
inductive HostResetKind where
  | flr | hotReset | dlDown | perst
deriving DecidableEq, Repr
/-- What the host has set in configuration space when it enables bus mastering (R363, R482, R486, R487): Max Payload Size and Max Read Request Size as powers of two above 128 bytes. -/
structure HostConfig where
  busMaster  : Bool
  memSpace   : Bool
  relaxed    : Bool
  maxPayload : Fin 3
  maxRead    : Fin 6
  extTag     : Bool
  tag10      : Bool
  tag14      : Bool
  cplSel     : BitVec 4
  aspmL1     : Bool
deriving DecidableEq, Repr
/-- The interrupt form the host selects (R498); MSI with 2^k vectors enabled and a mask bit for each (Table 16.3). -/
inductive IntSelect where
  | intx
  | msi (k : Fin 6) (mask : Word)
  | msix
deriving DecidableEq, Repr
/-- An access to BAR2 (R494, R496), by BAR2 offset. -/
inductive Bar2Op where
  | read (offset : BitVec 38) (len : BitVec 13)
  | write (offset : BitVec 38) (data : List Byte) (poisoned : Bool)
deriving DecidableEq, Repr


/-- The commands, one per row of spec/opcode_table.json. -/
inductive Instr where
  /-- COLD_RESET (R529): RESET_N low or SUPPLY_GOOD low for 1 µs or more puts the device in Cold and resets all logic, including the kiln domain. -/
  | coldReset (cause : ColdCause)
  /-- COLD_EXIT (R529): The later of RESET_N and SUPPLY_GOOD rising starts kiln PLL lock; the kiln logic leaves reset, Boot is entered and the timekeeper starts at 0 s. -/
  | coldExit
  /-- KILN_BROWN_OUT (R530): VDD_KILN below 0.68 V for 1 µs enters Cold whatever SUPPLY_GOOD shows. -/
  | kilnBrownOut
  /-- BOOT_IMAGE_LOAD (R60): The boot ROM loads and authenticates the image of the preferred slot, then of the other slot, and records each result in modes.boot_status. -/
  | bootImageLoad
  /-- BOOT_BIST (R63): Firmware start runs kiln, core and staging SRAM BIST; a kiln or core failure leads to Halt and a staging failure is recorded. -/
  | bootBist (kilnOk coreOk stagingOk : Bool)
  /-- HBM_TRAINING (R344): The cellar trains all 128 PCs and, after a cold reset, runs the quick pattern test, retiring and replacing PCs that fail. -/
  | hbmTraining (trainFailed testFailed : List Pc)
  /-- BOOT_COMPLETE (R55): Persistent objects, the retirement list and the plans are applied and the device moves to modes.boot_target, or to Limp or Halt. -/
  | bootComplete (micros : BitVec 32)
  /-- WARM_RESET (R54): A write of the key to modes.reset, once outstanding persistent stores have ended, re-enters Boot with the kiln domain running and counters kept. -/
  | warmReset (via : Via) (value : Word)
  /-- FW_IMAGE_WRITE (R62): A write of modes.fw_image stores an image in the slot not running, or in recovery in the slot that was not preferred. -/
  | fwImageWrite (via : Via) (image : List Byte)
  /-- FW_COMMIT (R62): The commit key verifies the stored image, sets the preferred slot and reports the result, with a warm reset when in recovery. -/
  | fwCommit (via : Via) (value : BitVec 32)
  /-- MODE_REQUEST (R45): A write of modes.request is checked against Table 2.3 and starts a transition, is held pending, or fails with MODE_CONFLICT. -/
  | modeRequest (via : Via) (value : BitVec 16)
  /-- TRANSITION_COMPLETE (R47): A mode transition ends, modes.last_change is recorded, source 0x04C fires, and any pending request is checked and acted on. -/
  | transitionComplete
  /-- DRAIN_COMPLETE (R48): On leaving for Ready with drain_on_stop set, the last committed cask is delivered and modes.transition returns to 0. -/
  | drainComplete
  /-- TRANSMIT_CUT_TIMEOUT (R49): A transmit flow whose frame has not ended 100 ms after the stop request is cut at a packet boundary and the cut is counted. -/
  | transmitCutTimeout (t : TxFlow)
  /-- FIRMWARE_WATCHDOG (R68): Firmware not serviced for 250 ms is a Limp cause, or a Halt cause when already in Limp. -/
  | firmwareWatchdog
  /-- LIMP_CAUSE (R69): A Limp cause releases undelivered casks, places HBM in self-refresh and enters Limp within 1 ms, after the watchdog grace where it applies. -/
  | limpCause (cause : Fin 4)
  /-- WATCHDOG_GRACE_END (R69): After a watchdog cause, the 100 ms of continued delivery ends and the device goes on into Limp. -/
  | watchdogGraceEnd
  /-- HALT_CAUSE (R73): A Halt cause drives every output to its Halt level within 1 µs, writes back lamp counts and enters Halt. -/
  | haltCause (cause : Fin 7)
  /-- SHUTDOWN (R76): The shutdown key writes back lamp counts, completes persistent writes, enters Dormant and sets modes.shutdown_done. -/
  | shutdown (via : Via) (value : BitVec 32)
  /-- WAKE_COMPARE (R65): TIME96 reaching modes.wake_at with the wake compare enabled starts Dormant to Ready. -/
  | wakeCompare
  /-- WAKE_AHEAD (R66): At T minus the wake lead before a pitch scheduled while Dormant, the device starts its wake. -/
  | wakeAhead
  /-- WAKE_AT_WRITE (R67): A write of modes.wake_at with a time already passed while the compare is enabled starts the wake at once and sets late. -/
  | wakeAtWrite (via : Via) (t : Time96)
  /-- READ (R93): A READ returns the live value of an object, or the staged value of a plan, after the checks of R87. -/
  | read (q : Transport)
  /-- WRITE (R118): A WRITE, masked or not, sets a live object or stages a value in a plan, after the checks of R87. -/
  | write (q : Transport)
  /-- READ_BLOCK (R94): READ_BLOCK returns up to count bytes of a STRING or BLOB from an offset. -/
  | readBlock (q : Transport)
  /-- WRITE_BLOCK (R94): WRITE_BLOCK appends a block to a transfer; the object takes its new value atomically when the final block is accepted. -/
  | writeBlock (q : Transport)
  /-- SUBSCRIBE (R96): SUBSCRIBE registers, replaces or cancels an on-change or periodic subscription of a Linob session. -/
  | subscribe (q : Transport)
  /-- NOTIFY (R97): The once-per-millisecond sampling of a subscribed object sends a NOTIFY when its interval or period is due. -/
  | notify (k : Fin 256)
  /-- SESSION_OPEN (R112): SESSION_OPEN on session 0 names a key slot and nonce and returns a new half-open session and a device nonce. -/
  | sessionOpen (q : Transport)
  /-- SESSION_PROOF (R112): SESSION_PROOF checks the client proof, opens the session and returns the device proof, or frees the session with PROOF_FAILED. -/
  | sessionProof (q : Transport)
  /-- PITCH (R121): PITCH checks a sealed plan, schedules it and starts arming its values into the block shadow registers. -/
  | pitch (q : Transport)
  /-- ABORT (R125): ABORT returns a scheduled plan to sealed, or discards the block transfer open on a BLOB object. -/
  | abort (q : Transport)
  /-- MAILBOX_OVERRUN (R101): A doorbell write made while the mailbox is busy is discarded and counted in dict.mb_overruns. -/
  | mailboxOverrun (m : Fin 4) (value : BitVec 32)
  /-- LINOB_FORWARD (R114): A Linob message addressed to another member is forwarded unchanged along the cascade tree, and its answer is returned to the client. -/
  | linobForward (inp : LinkPort) (dest : BitVec 10) (msg : List Byte)
  /-- BLOCK_TRANSFER_TIMEOUT (R95): A block transfer with no block for 10 s is discarded and the object is left unchanged. -/
  | blockTransferTimeout (id : BitVec 24) (index : BitVec 16)
  /-- HALF_OPEN_TIMEOUT (R112): A half-open session that receives no proof within 5 s is freed. -/
  | halfOpenTimeout (n : BitVec 16)
  /-- SESSION_TIMEOUT (R113): A session with no message for dict.session_timeout closes, and its subscriptions and transfers end. -/
  | sessionTimeout (n : BitVec 16)
  /-- PERSIST_STORE (R89): An outstanding persistent store ends within 200 ms, or fails, which sets dict.persist_status and raises the persistence fault. -/
  | persistStore (ok : Bool)
  /-- PERSIST_CLEAR (R91): The key written to dict.persist_clear erases all stored values and plans at the next reset. -/
  | persistClear (via : Via) (value : BitVec 32)
  /-- PLANS_SEAL (R120): A write of 1 to plans.seal checks an open plan as a whole and seals it, or fails with CONSISTENCY and records the failure. -/
  | plansSeal (via : Via) (p : PlanId) (value : Byte)
  /-- PLANS_CLEAR (R120): A write of 1 to plans.clear empties a plan that is not scheduled or active. -/
  | plansClear (via : Via) (p : PlanId) (value : Byte)
  /-- PLANS_SAVE (R120): A write of 1 to plans.save stores a sealed, scheduled or active plan in the persistent store. -/
  | plansSave (via : Via) (p : PlanId) (value : Byte)
  /-- ARMING_END (R121): Arming of a scheduled plan ends and the PITCH response is sent. -/
  | armingEnd
  /-- PITCH_TAKES_PLACE (R122): At the first kiln tick with arming ended and the when condition met, every staged value goes live and a staged mode request applies last. -/
  | pitchTakesPlace
  /-- BOUNDARY_TIMEOUT (R124): No frame start of the named flow within plans.boundary_timeout returns the plan to sealed and sets the timeout status. -/
  | boundaryTimeout
  /-- TIME_INCREMENT_WRITE (R130): A write of time.increment takes effect from the next tick. -/
  | timeIncrementWrite (via : Via) (value : BitVec 64)
  /-- TIME_STEP (R135): A write of time.step adds a signed offset to the pending step, which is applied at the next tick. -/
  | timeStep (via : Via) (value : BitVec 64)
  /-- TIME_SET (R136): A write of time.set replaces the pending steps with a set to the given TIME96 at the next tick. -/
  | timeSet (via : Via) (t : Time96)
  /-- STEP_APPLY (R137): At step 2 of a tick the combined pending step is applied, and compares passed are fired late and PPS_OUT pulses as required. -/
  | stepApply
  /-- TK_LATCH (R133): A read of TK_LATCH copies the present time into the other three timekeeper words. -/
  | tkLatch (pos : Half)
  /-- PTP_MESSAGE (R142): A PTP message on the PTP port reaches the firmware servo, which steps or adjusts the increment and updates the lock state. -/
  | ptpMessage (port : Port) (m : PtpMessage) (stamp : Time96)
  /-- HOLDOVER_LIMIT (R141): No servo update for time.holdover_limit loses lock and sets time.status bit 2. -/
  | holdoverLimit
  /-- PPS_OUT_PULSE (R145): The tick time passing the PPS offset starts a PPS_OUT pulse and fires source 0x041. -/
  | ppsOutPulse
  /-- PPS_OUT_PULSE_END (R145): PPS_OUT returns inactive when time.pps_out_width has passed. -/
  | ppsOutPulseEnd
  /-- PPS_IN_EDGE (R146): A PPS_IN edge is timestamped and raises source 0x040, or is counted as extra when it comes within 0.9 s. -/
  | ppsInEdge (rising : Bool) (t : Time96)
  /-- PPS_IN_MISSING (R146): No PPS_IN edge for 1.1 s while enabled sets time.status bit 3. -/
  | ppsInMissing
  /-- BH_UPSTREAM_WRITE (R140): A write of time.bh_upstream switches time.source to 3, or back to 0, and reassigns the cascade quads. -/
  | bhUpstreamWrite (via : Via) (value : BitVec 16)
  /-- BEACON_SEND (R147): Every 128 kiln ticks the parent sends a beacon with its TIME96, level, root address and lock state. -/
  | beaconSend
  /-- BEACON (R149): A received beacon gives an offset that steers the follower's increment, steps it, and updates its level and lock. -/
  | beacon (link : BhFrom) (b : BeaconBody) (arrival : Time96)
  /-- PROBE_SEND (R147): Every 1 ms the child sends a probe upstream. -/
  | probeSend (departure : Time96)
  /-- PROBE (R250): A received probe is answered with a probe reply carrying its arrival and departure times. -/
  | probe (link : BhFrom) (arrival departure : Time96)
  /-- PROBE_REPLY (R148): A received probe reply gives a hop delay that updates the mean of the last 16 probes, or is discarded as an outlier. -/
  | probeReply (link : BhFrom) (t2 t3 t4 : Time96)
  /-- BEACON_LOSS (R152): No beacon on a configured link for 10 µs clears brewhouse lock and raises the cascade topology fault. -/
  | beaconLoss (q : Quad)
  /-- ADDRESS_ANNOUNCE (R153): Once a second each member announces its address up the tree, and each receiver updates its routing table and detects duplicates. -/
  | addressAnnounce (m : Announce)
  /-- TRIGGER (R181): A received trigger message is forwarded and schedules a fire of its channel at T, or fires at once when late. -/
  | trigger (q : Quad) (src : BitVec 10) (seq : Word) (hops : Byte) (rep : Bool) (chan : Half) (trig : Word) (t : Time96)
  /-- SCHEDULED_FIRE (R181): At the first tick at or after T, a scheduled brewhouse fire fires its channel with due time T. -/
  | scheduledFire
  /-- CMP_MODE_WRITE (R154): A write of a non-zero time.cmp_mode arms the compare unit against its target. -/
  | cmpModeWrite (via : Via) (u : Fin 64) (value : BitVec 16)
  /-- CMP_TARGET_WRITE (R155): A write of a compare target re-arms an armed unit, or stores the target of a disarmed one. -/
  | cmpTargetWrite (via : Via) (u : Fin 64) (t : CmpTarget)
  /-- TIME_COMPARE (R154): An armed time compare whose target is reached fires its source, disarms or advances its period, and catches up skipped periods. -/
  | timeCompare (u : Fin 64)
  /-- SNAPSHOT_AT_WRITE (R158): A write of counters.snapshot_at arms or replaces a snapshot. -/
  | snapshotAtWrite (via : Via) (t : Time96)
  /-- SNAPSHOT_NOW (R157): A write of 1 to counters.snapshot_now gives a snapshot at the next tick. -/
  | snapshotNow (via : Via) (value : Byte)
  /-- SNAPSHOT (R156): At the snapshot tick every counter copies into its shadow, and the generation and time are recorded. -/
  | snapshot
  /-- OCCURRENCE_DELIVERY (R162): An occurrence published on a channel is merged, checked by the storm guard and delivered to the channel's consumer in the next tick, or held pending or dropped. -/
  | occurrenceDelivery (c : Chan)
  /-- PENDING_DELIVERY (R168): A pending occurrence is delivered in the tick after its busy consumer becomes free. -/
  | pendingDelivery (c : Chan)
  /-- FIRE (R169): A write to FIRE[c] or events.fire fires channel c with the written trigger_id when the owner allows it. -/
  | fire (f : FireBy)
  /-- FIRE_MASK (R169): A write to FIRE_MASK or events.fire_mask fires every channel whose bit is set, in one tick. -/
  | fireMask (f : FireMaskBy)
  /-- GRIST_CELL_FIRE (R171): A grist cell whose register produced fire_next fires its source in the next tick. -/
  | gristCellFire (g : Fin 64)
  /-- GRIST_WRITE (R172): A write to a grist object clears the cell's state in the next tick, or sets q for events.grist_q. -/
  | gristWrite (via : Via) (item : GristItem) (g : Fin 64) (value : BitVec 32)
  /-- TRIG_IN_EDGE (R175): A TRIG_IN edge held through the filter ticks is accepted and fires source 0x050 + n, unless the minimum interval or a stuck state refuses it. -/
  | trigInEdge (n : Fin 16) (rising : Bool) (t : Time96)
  /-- TRIG_IN_STUCK (R177): A pin kept at its active level for events.trig_in_stuck ms raises the stuck fault and blocks further edges. -/
  | trigInStuck (n : Fin 16)
  /-- TRIG_OUT_PULSE_END (R178): A pulse-mode TRIG_OUT returns inactive after events.trig_out_width. -/
  | trigOutPulseEnd (n : Fin 16)
  /-- VECTOR_TIMER (R184): events.vec_time after the first counted fire sends the vector's interrupt message. -/
  | vectorTimer (v : Fin 2048)
  /-- QUAD_MODE_WRITE (R224): A write of quad.mode restarts every lane of the quad from state 1. -/
  | quadModeWrite (via : Via) (q : Quad) (value : BitVec 16)
  /-- LANE_CONFIG_WRITE (R224): A write of an RWD lane object or lane.enable restarts a running lane from state 2 without a fault. -/
  | laneConfigWrite (via : Via) (n : Lane) (item : LaneItem) (value : Byte)
  /-- QUAD_PLL_LOCK (R200): The quad PLL locks, the transmitters start sending and the lanes enter self-check. -/
  | quadPllLock (q : Quad) (ref : Word)
  /-- PLL_LOCK_TIMEOUT (R223): A PLL not locked 1 ms after start with its reference present retires every enabled lane with cause 7. -/
  | pllLockTimeout (q : Quad)
  /-- REFERENCE_LOST (R223): A reference absent or out of range sets quad.status bit 1 and records cause 8 on each running lane, which waits in state 1. -/
  | referenceLost (r : Fin 17)
  /-- REFERENCE_RETURN (R223): The return of a lost reference lets the waiting lanes leave state 1. -/
  | referenceReturn (r : Fin 17)
  /-- SELF_CHECK_DONE (R218): 2^20 self-check bits pass and the lane waits for signal, or one error records permanent cause 6. -/
  | selfCheckDone (n : Lane) (pass : Bool)
  /-- SIGNAL_DETECT (R206): Amplitude above 90 mVppd for 10 µs clears loss of signal and starts CDR acquisition. -/
  | signalDetect (n : Lane)
  /-- LOSS_OF_SIGNAL (R208): Amplitude below 60 mVppd for 2 µs records one fault and sends the lane to state 3. -/
  | lossOfSignal (n : Lane)
  /-- CDR_LOCK (R200): Clock recovery locks and the lane starts adaptation. -/
  | cdrLock (n : Lane)
  /-- CDR_LOCK_LOST (R207): A frequency offset beyond the limit, or a saturated phase detector for 1 µs, loses CDR lock and records a fault. -/
  | cdrLockLost (n : Lane)
  /-- ADAPTATION_DONE (R203): The CTLE is chosen and the DFE has converged, and the lane starts its block hunt. -/
  | adaptationDone (n : Lane) (figures : List Byte) (taps : List Int)
  /-- BLOCK_LOCK (R196): 64 valid headers in a row give block lock. -/
  | blockLock (n : Lane) (bits : List Bool)
  /-- BLOCK_LOCK_LOST (R196): 16 invalid headers within 64 blocks lose block lock and record a fault. -/
  | blockLockLost (n : Lane) (bits : List Bool)
  /-- HUNT_TIMEOUT (R197): A hunt not locked 1 ms after it started records a block lock fault. -/
  | huntTimeout (n : Lane)
  /-- ALIGNMENT_LOCK (R198): Alignment markers lock and the bonded lanes are deskewed, so the port can come up. -/
  | alignmentLock (a : Alignment)
  /-- EFOM_WINDOW (R204): At the end of each 2^24 UI window the eye monitor updates lane.efom and lane.eye_width. -/
  | efomWindow (n : Lane) (fom : Byte) (width : Fin 65) (taps : List Int)
  /-- EYE_FAULT (R205): lane.efom below lane.efom_min for lane.efom_time in state 7 records an eye fault. -/
  | eyeFault (n : Lane)
  /-- RELOCK_TIMEOUT (R218): A re-lock that has not reached state 7 10 ms after leaving state 3 records cause 5 and restarts from state 2. -/
  | relockTimeout (n : Lane)
  /-- LANE_REINSTATE (R222): A write of 1 to lane.reinstate clears the retirement and restarts the lane from state 1. -/
  | laneReinstate (via : Via) (n : Lane) (value : Byte)
  /-- PRBS_INJECT (R215): A write of 1 to lane.prbs_inject inverts one generator bit. -/
  | prbsInject (via : Via) (n : Lane) (value : Byte)
  /-- PRBS_CLEAR (R216): A write of 1 to lane.prbs_clear zeroes the PRBS bit, error and injection counts. -/
  | prbsClear (via : Via) (n : Lane) (value : Byte)
  /-- PRBS_CHECKER_LOCK (R214): The checker locks after 64 correct predictions, or loses lock beyond 1,024 errors in 4,096 bits and seeds again. -/
  | prbsCheckerLock (n : Lane) (bits : List Bool)
  /-- PORT_FAULT (R231): hi_ber, FEC lock loss or remote fault for 10 ms records a port fault and restarts alignment or retires the port. -/
  | portFault (p : Port) (cause : Fin 3)
  /-- PORT_REINSTATE (R231): A write of 1 to port.reinstate returns a retired port to service. -/
  | portReinstate (via : Via) (p : Port) (value : Byte)
  /-- FRAME_RECEIVE (R233): A frame received by the MAC is checked, filtered by destination and classified to a flow, firmware, the exception ring or MAC control. -/
  | frameReceive (p : Port) (frame : List Byte) (fecCorrected fecBad : Half) (stamp : Time96)
  /-- PAUSE_RECEIVE (R246): A received PAUSE or PFC frame stops transmission of the named priorities for its quanta. -/
  | pauseReceive (p : Port) (frame : List Byte)
  /-- PAUSE_STOP_END (R397): The received quanta expire and held paced packets are released or discarded. -/
  | pauseStopEnd (p : Port) (prio : Fin 8)
  /-- PAUSE_REQUEST (R245): A requester that asserts or releases a priority sends a PAUSE or PFC frame, or quanta 0, at the next frame boundary. -/
  | pauseRequest (p : Port)
  /-- PAUSE_REFRESH (R245): Half the quanta time after the last PAUSE frame, the port repeats it while the priority is held. -/
  | pauseRefresh (p : Port)
  /-- MULTICAST_JOIN (R241): Enabling or disabling a flow with rx_join makes the firmware send IGMPv3 or MLDv2 reports or leaves. -/
  | multicastJoin (f : Flow)
  /-- RAW_FRAME (R408): A write of tap.raw_frame sends one Ethernet frame as a firmware frame on the port. -/
  | rawFrame (via : Via) (p : Port) (frame : List Byte)
  /-- CASCADE_FRAME_DISCARD (R252): A cascade frame with a bad CRC, unknown type or excess length is discarded and counted. -/
  | cascadeFrameDiscard (q : Quad)
  /-- PACKET_COMMIT (R262): The last word of a good packet is written to the underback with its descriptor and the packet becomes visible. -/
  | packetCommit (n : Lane)
  /-- PACKET_REWIND (R263): A packet found bad at its last word or by loss of the lane is rewound and a rewind notice is passed. -/
  | packetRewind (n : Lane)
  /-- CHAIN_FULL_CUT (R266): A word that arrives while the chain is full cuts its packet, writes or extends a gap marker and passes a gap notice. -/
  | chainFullCut (n : Lane)
  /-- CROSSING_READ (R269): The crossing reads a word or gap marker from the underback and corrects or counts errors. -/
  | crossingRead (n : Lane) (chk : WordCheck)
  /-- UNDERBACK_FLUSH (R275): A write of 1 to underback.flush discards every packet, marker and partial packet of the lane and passes rewind notices. -/
  | underbackFlush (via : Via) (n : Lane) (value : Byte)
  /-- PACKET_PLACE (R287): The lauter engine parses a committed packet, opens or matches its frame and issues its placements. -/
  | packetPlace (n : Lane)
  /-- PLACEMENT_COMPLETE (R330): The cellar reports a placement write performed and the placement leaves the in-flight count. -/
  | placementComplete (k : Fin 16384)
  /-- REWIND_NOTICE (R18): A rewind or gap notice adds to the count of the frame open on the flow and discards provisional words. -/
  | rewindNotice
  /-- STRAGGLE_TIMEOUT (R292): lauter.straggle_us after the end marker with bytes missing and no resend outstanding closes the frame for cause 2. -/
  | straggleTimeout (f : Flow)
  /-- FRAME_IDLE_TIMEOUT (R292): No packet for lauter.frame_idle closes the frame for cause 3. -/
  | frameIdleTimeout (f : Flow)
  /-- FRAME_COMMIT (R293): With every placement complete and the statistics closed, the tag commits and the cask enters committed or held. -/
  | frameCommit (f : Flow)
  /-- RESEND_REQUEST (R297): A missing GVSP packet ID not arrived after lauter.resend_delay_us, or at the trailer, makes the firmware send a PACKETRESEND. -/
  | resendRequest (f : Flow) (block : Dword) (id : Word)
  /-- STAMP_CLEAR (R299): A write of 1 to lauter.stamp_clear clears the trigger's stamp queue. -/
  | stampClear (via : Via) (k : Fin 32) (value : Byte)
  /-- CASK_RELEASE (R312): A cask's pages and ID return to the allocator, and its frame is counted lost unless it was delivered or replayed. -/
  | caskRelease (id : Half) (cause : Fin 7)
  /-- REFRESH_DUE (R331): A refresh group falls due and is refreshed, or deferred under boil-over. -/
  | refreshDue (p : Pc) (g : Fin 8)
  /-- FORCED_REFRESH (R334): A refresh owed for 4 tREFI is issued in the next slot whatever boil-over holds. -/
  | forcedRefresh (p : Pc) (g : Fin 8)
  /-- REFRESH_REPAYMENT (R335): After boil-over clears, a group with debt is refreshed every tREFI/2 until the debt is 0. -/
  | refreshRepayment (p : Pc) (g : Fin 8)
  /-- STACK_TEMP_READ (R332): Every 1 ms each stack's temperature is read and refresh is doubled or returned to normal. -/
  | stackTempRead (k : Fin 4) (celsius : Word)
  /-- UNCORRECTABLE_READ (R338): An uncorrectable read is re-issued once and recorded as a transient fault, then returned clean or poisoned. -/
  | uncorrectableRead (p : Pc) (unit : Fin 37748736) (first second : HbmRead)
  /-- CE_THRESHOLD (R337): Corrected reads reaching cellar.ce_threshold in a 1 s window fire source 0x172. -/
  | ceThreshold (p : Pc) (n : Word)
  /-- ROW_REPAIR (R339): The cellar reads, soft-repairs and writes back a row that gave repeated corrected errors or was marked. -/
  | rowRepair (p : Pc) (row : Fin 1179648) (bank : Fin 48) (corrected : Bool)
  /-- PC_RETIRE (R340): A PC is retired, its accesses in flight complete as discarded or poisoned, and casks in it are invalidated. -/
  | pcRetire (p : Pc) (cause : Fin 6)
  /-- SPARE_FILL_COMPLETE (R341): A reference spare finishes zero-fill or a control spare finishes its copy from the mirror. -/
  | spareFillComplete (p : Pc)
  /-- CELLAR_REINSTATE (R342): A write of 1 to cellar.reinstate retrains and tests a retired PC, which becomes an idle spare when it passes. -/
  | cellarReinstate (via : Via) (p : Pc) (value : Byte) (pass : Bool)
  /-- SCRUB (R343): Scrub reads each unit of the reference and control partitions once per cellar.scrub_hours, writing back corrected units. -/
  | scrub (p : Pc) (unit : Fin 37748736) (first second : HbmRead) (progress : Fin 1001)
  /-- READ_RECALIBRATION (R344): Every 100 ms per PC the cellar recalibrates read timing within CT slots. -/
  | readRecalibration (p : Pc)
  /-- CELLAR_TEST_START (R346): A write of 1 to cellar.test_start in Diagnostic runs the selected pattern on the selected PCs. -/
  | cellarTestStart (via : Via) (value : Byte)
  /-- CELLAR_TEST_DONE (R346): The cellar test ends and cellar.test_state reads passed or failed. -/
  | cellarTestDone (errs : List (Pc × Word))
  /-- RING_POST (R357): A write to RING_POST gives the engine further slots, or faults the ring with code 5 on overrun. -/
  | ringPost (r : Ring) (value : Word)
  /-- RING_ENABLE (R358): A write of 1 to racking.ring_enable checks and enables the ring, first writing type 3 entries for abandoned slots. -/
  | ringEnable (via : Via) (r : Ring)
  /-- RING_DISABLE (R358): A write of 0 to racking.ring_enable stops new deliveries on the ring. -/
  | ringDisable (via : Via) (r : Ring)
  /-- CQ_ENABLE (R365): A write of 1 to racking.cq_enable enables a completion queue with its objects as they stand. -/
  | cqEnable (via : Via) (c : Cq) (value : Byte)
  /-- CQ_HEAD (R366): A write to CQ_HEAD frees entries, or faults the queue when it would make the difference negative. -/
  | cqHead (c : Cq) (value : Word)
  /-- DELIVERY_START (R359): An eligible ring starts delivering a committed cask by deficit round robin, taking a slot and reserving an entry. -/
  | deliveryStart
  /-- DELIVERY_DATA_DONE (R360): The frame data, records and tag of a delivery have been written, and the zero-length read is issued where needed. -/
  | deliveryDataDone (k : Fin 64)
  /-- COMPLETION_ENTRY (R363): After the data is visible, the completion entry is written, source 0x180 + c fires and the cask is released. -/
  | completionEntry (k : Fin 64)
  /-- WALK_READ_COMPLETE (R354): A page-list walk read completes and fills the translation cache, or faults the ring. -/
  | walkReadComplete (tag : Fin 16384) (data : List Byte)
  /-- RING_FAULT (R381): A ring fault stops the delivery, abandons its slot and writes a type 4 entry. -/
  | ringFault (r : Ring) (code : Fin 7)
  /-- EXCEPTION_ENTRY (R380): An exception frame is written to the exception ring with its header, or discarded and counted. -/
  | exceptionEntry
  /-- EXC_ENABLE (R379): A write of racking.exc_enable enables or disables the exception ring under the rules of R358. -/
  | excEnable (via : Via) (value : Byte)
  /-- RACKING_RESUME (R382): A write of 1 to racking.resume with Bus Master Enable set restarts the engine after writing type 3 entries for abandoned slots. -/
  | rackingResume (via : Via) (value : Byte)
  /-- TAP_ENTRY (R390): A transmit flow meeting R387 computes t_0 for its start mode and becomes armed. -/
  | tapEntry (t : TxFlow)
  /-- TAP_FRAME_START (R389): The grid instant of frame k starts the frame, takes its source and writes the pairing entry. -/
  | tapFrameStart (t : TxFlow)
  /-- PACKET_DUE (R396): A paced packet falls due and leaves at the next free lane word boundary, or underruns, is held or is dropped. -/
  | packetDue (p : Port) (t : Time96)
  /-- TAP_FETCH_COMPLETE (R399): Fetched frame bytes reach the tap buffer, and boil-over requests are raised or dropped by level. -/
  | tapFetchComplete (t : TxFlow) (n : Word)
  /-- TX_POST (R404): A write to TX_POST gives the tap further host slots, or faults the ring with code 5. -/
  | txPost (t : TxFlow) (value : Word)
  /-- TAP_HOST_ENABLE (R404): A write of tap.host_enable enables or disables a tap host ring. -/
  | tapHostEnable (via : Via) (t : TxFlow) (value : Byte)
  /-- TAP_STOP (R392): A flow reaching tap.stop_at or tap.frame_count stops after its last frame. -/
  | tapStop (t : TxFlow)
  /-- TAP_TRIGGER (R407): A flow trigger occurrence for a transmit flow starts one frame or one line after tap.trigger_delay_ns. -/
  | tapTrigger (t : TxFlow)
  /-- REPLAY_CASK_DONE (R403): The last byte of a replayed cask is fetched and the cask is released as delivered. -/
  | replayCaskDone (t : TxFlow)
  /-- PATTERN_SELFTEST (R539): A write of 1 to pattern.selftest in Diagnostic checks both evaluation ports. -/
  | patternSelftest (via : Via) (value : Half)
  /-- SELFTEST_DONE (R539): A self-test ends within 10 ms and reads passed or failed. -/
  | selftestDone (hydro pass : Bool)
  /-- HYDRO_COMPARE (R420): A placement copy is split into samples, compared with expected values and added to the region statistics and bitmap. -/
  | hydroCompare (f : Flow)
  /-- GOLDEN_READ_RETURN (R425): A golden read returns data for comparison, or fails as poisoned. -/
  | goldenReadReturn (f : Flow)
  /-- GOLDEN_DEADLINE (R425): A golden read not returned within hydro.golden_deadline_us fails and the frame takes verdict 6. -/
  | goldenDeadline (f : Flow)
  /-- HYDRO_CLOSE (R424): The hydrometer closes a frame's statistics, timing and CRCs, sets its verdict and writes its tag fields. -/
  | hydroClose (f : Flow)
  /-- HYDRO_SELFTEST (R539): A write of 1 to hydro.selftest in Diagnostic checks the comparison, statistics and CRC datapaths. -/
  | hydroSelftest (via : Via) (value : Half)
  /-- ENCODER_SAMPLE (R438): Each 100 ns sample is corrected, converted to phase and unwrapped into the position, with crossings, marks and faults found. -/
  | encoderSample (n : Enc) (sine cosine ref : BitVec 14) (half : Bool)
  /-- POSITION_COMPARE (R453): When a sample's position becomes available, each armed compare unit is evaluated and fires, advances or disarms. -/
  | positionCompare (n : Enc)
  /-- SPEED_UPDATE (R446): Every 10 µs the count method or the elapsed period method recomputes pos.speed and may switch method. -/
  | speedUpdate (n : Enc)
  /-- STANDSTILL_TIMEOUT (R447): No crossing for pos.standstill_ms sets speed 0 and not valid. -/
  | standstillTimeout (n : Enc)
  /-- POSITION_WRITE (R440): A write of pos.position jumps the position of the next sample and sets it valid. -/
  | positionWrite (via : Via) (n : Enc) (value : Dword)
  /-- QUERY_AT (R444): A write of pos.query_at computes the position at that time once the needed sample is available. -/
  | queryAt (via : Via) (n : Enc) (t : Time96)
  /-- CMP_ARM (R451): A write of a non-zero pos.cmp_mode or a start occurrence arms a position compare unit, or sets it waiting for start. -/
  | cmpArm (via : Via) (u : CmpUnit) (value : Half)
  /-- POS_CMP_TARGET_WRITE (R457): A write of the target, period or sense of an armed unit takes effect from the next sample and is checked for behind. -/
  | posCmpTargetWrite (via : Via) (u : CmpUnit) (item : CmpItem) (value : Dword)
  /-- QUAD_OUTPUT_EDGE (R450): The quadrature output count steps one edge toward its target once pos.quad_min_ns has passed. -/
  | quadOutputEdge (n : Enc)
  /-- POS_REINSTATE (R459): A write of 1 to pos.reinstate clears an encoder channel's retirement. -/
  | posReinstate (via : Via) (n : Enc) (value : Byte)
  /-- STROBE_DELIVERY (R464): A strobe occurrence starts a pulse on a ready channel, counts a flash and fires source 0x090 + n, or is refused. -/
  | strobeDelivery (n : Lamp)
  /-- PULSE_END (R465): A strobe pulse ends after its width and the peak current is checked for an open lamp. -/
  | pulseEnd (n : Lamp) (mv : Half)
  /-- STROBE_GAP_END (R466): The duty gap after a pulse ends and the strobe consumer becomes free. -/
  | strobeGapEnd (n : Lamp)
  /-- WRITEBACK_COMPLETE (R469): A life record write is read back and confirmed, or fails and is retried after 10 ms. -/
  | writebackComplete (n : Lamp) (ok : Bool)
  /-- HEAD_POLL (R475): Every 100 ms the head bus is polled and the memory is read, taking a new head or marking an absent one. -/
  | headPoll (n : Lamp) (r : HeadReply)
  /-- INTERLOCK_FALL (R472): A falling INTLK_N forces the group's strobes off within 40 ns. -/
  | interlockFall (g : Fin 4)
  /-- INTERLOCK_PERMIT (R472): INTLK_N high for 1 µs permits firing of the group again. -/
  | interlockPermit (g : Fin 4)
  /-- OVERCURRENT (R473): Current above the limit for 200 ns turns the strobe off and records a fault of cause 4. -/
  | overcurrent (n : Lamp) (mv : Half)
  /-- LIFE_OVERRIDE (R471): A write of 1 to lamp.life_override returns a life-stopped channel to ready. -/
  | lifeOverride (via : Via) (n : Lamp) (value : Byte)
  /-- LAMP_REINSTATE (R474): A write of 1 to lamp.reinstate clears a lamp channel's retirement. -/
  | lampReinstate (via : Via) (n : Lamp) (value : Byte)
  /-- HEAD_USER_WRITE (R468): A write of lamp.head_user writes the 96-byte user area to the head. -/
  | headUserWrite (via : Via) (n : Lamp) (data : List Byte)
  /-- FAULTS_REINSTATE (R507): A write of a resource ID to faults.reinstate reinstates that resource. -/
  | faultsReinstate (via : Via) (res : Half) (pass : Bool)
  /-- LIST_CLEAR (R509): The key written to faults.list_clear reinstates every listed resource and empties the list. -/
  | listClear (via : Via) (value : Word) (failed : List Pc)
  /-- SUPPLY_SAG (R514): VDD_CORE below a sag threshold steps the core and control clocks down and fires source 0x0BC. -/
  | supplySag (mv : Half)
  /-- GOVERNOR_STEP_END (R515): After a 1 µs hold with the supply recovered, the governor steps up one step. -/
  | governorStepEnd (mv : Half)
  /-- CORE_RAIL_FAULT (R516): A step lasting 2 µs, or VDD_CORE out of range for 1 µs, logs a core rail fault and is a Limp cause. -/
  | coreRailFault
  /-- THERMAL_READING (R517): Every 100 µs the die sensors are read and warning, critical or halt limits act on two consecutive readings. -/
  | thermalReading (temps : List Word)
  /-- PERST_DEASSERT (R56): PERST_N deassertion starts PCIe link training within 20 ms. -/
  | perstDeassert
  /-- LINK_UP (R479): The PCIe link completes training at its negotiated speed, width and flit mode. -/
  | linkUp (speed : Fin 6) (width : Fin 5) (partnerFlit : Bool)
  /-- HOST_RESET (R500): FLR, Hot Reset, DL_Down or PERST_N after Boot quarantines tags and stops mailboxes, racking, tap host rings and interrupts. -/
  | hostReset (kind : HostResetKind)
  /-- BUS_MASTER_DISABLE (R499): Clearing Bus Master Enable or entering D3hot stops all device requests and holds interrupt messages. -/
  | busMasterDisable (d3hot : Bool)
  /-- BUS_MASTER_ENABLE (R499): Setting Bus Master Enable again in D0 sends held messages and resumes tap fetching. -/
  | busMasterEnable (c : HostConfig)
  /-- L1_ENTRY (R482): In Dormant with ASPM L1 enabled, 10 µs with no TLP makes the device request L1. -/
  | l1Entry
  /-- L1_EXIT (R482): A BAR access, an interrupt message or the exit from Dormant takes the link out of L1. -/
  | l1Exit
  /-- NP_COMPLETION (R486): A completion for an outstanding non-posted request returns data to its block and frees its tag. -/
  | npCompletion (tag : Fin 16384) (data : List Byte)
  /-- COMPLETION_TIMEOUT (R487): A request with no completion by its timeout quarantines its tag, logs the error and fails the request. -/
  | completionTimeout (tag : Fin 16384)
  /-- LATE_COMPLETION (R488): A completion for a quarantined tag is discarded, counted and returns the tag. -/
  | lateCompletion (tag : Fin 16384) (last : Bool)
  /-- QUARANTINE_EXPIRY (R488): 4 × the timeout after its timeout, a quarantined tag returns to the pool. -/
  | quarantineExpiry (tag : Fin 16384)
  /-- POISONED_COMPLETION (R489): A poisoned or failed-status completion fails its request and frees its tag at once. -/
  | poisonedCompletion (tag : Fin 16384)
  /-- BAR2_ACCESS (R494): A BAR2 access is translated through its window and served, or refused under R35. -/
  | bar2Access (op : Bar2Op)
  /-- BAR0_PARTIAL_WRITE (R491): A BAR0 write word without all byte enables is discarded and counted. -/
  | bar0PartialWrite
  /-- WIN_ATTR_WRITE (R495): Bit 0 of hostlink.win_attr changing to 1 latches the window's target and size. -/
  | winAttrWrite (via : Via) (w : Fin 64) (value : Half)
  /-- INTERRUPT_FORM_CHANGE (R498): A change between MSI-X, MSI and INTx takes effect at the next message. -/
  | interruptFormChange (form : IntSelect) (disable : Bool)
  /-- OBJECT_WRITE (R118): A write of any object that has no row of its own stores the value, which takes effect as R24 states. -/
  | objectWrite (via : Via) (obj : BitVec 24) (index : Half) (data : List Byte)
  /-- KILN_TICK (R129): On every kiln tick the timekeeper accumulates its increment, publishes the tick time and evaluates compares, and the grist cells update their state. -/
  | kilnTick
  /-- LOCAL_OR_REMOTE_FAULT (R230): The start or end of local or remote fault reception changes the port's up state, its transmitted fault signalling and fires source 0x140 + q. -/
  | localOrRemoteFault (p : Port) (loc rem : Bool)
  /-- MSIX_VECTOR_UNMASK (R184): Unmasking an MSI-X or MSI vector sends the message whose pending bit was set while it was masked. -/
  | msixVectorUnmask (v : Fin 2048)
  /-- SRC_STATUS_WRITE (R186): A write of 1s to SRC_STATUS clears source bits and, in INTx mode, deasserts INTA once every mapped bit is clear. -/
  | srcStatusWrite (w : Fin 40) (value : Word)
  /-- EXC_HEAD (R356): A write to EXC_HEAD frees exception ring entries for further exception frames. -/
  | excHead (value : Word)
  /-- MANAGEMENT_PORT_FRAME (R105): A frame on the management port other than Linob is answered (ARP, neighbour solicitation, ICMP echo) or discarded and counted. -/
  | managementPortFrame (frame : List Byte)
  /-- PTP_ANNOUNCE_TIMEOUT (R143): No Announce from the master within the announce receipt timeout leaves the servo without a master, so the timekeeper enters holdover and the BMCA runs again. -/
  | ptpAnnounceTimeout
  /-- PTP_MESSAGE_INTERVAL (R143): At each configured log interval the PTP port sends its Sync, Announce with the ST 2059-2 TLV, or Delay_Req message. -/
  | ptpMessageInterval (m : PtpSend) (departure : Time96)
deriving DecidableEq, Repr

end Sys2Proof
end

