-- ==== Sys2Proof/Machine/Bits.lean ====
section
/-! DEFINITION. Bit-field and byte-order helpers (R7), two's complement, CRC-32C (Table 0.4, R300), and HMAC-SHA-256 (R107). Everything is structural recursion over lists or Nat arithmetic. -/

namespace Sys2Proof.Machine

open Sys2Proof

/-- The n low bytes of v, least significant first. -/
def leBytes : Nat → Nat → List Byte
  | 0, _ => []
  | n + 1, v => BitVec.ofNat 8 (v % 256) :: leBytes n (v / 256)

/-- The n low bytes of v, most significant first (network order). -/
def beBytes (n v : Nat) : List Byte := (leBytes n v).reverse

/-- The number a little-endian byte list spells. -/
def leNat : List Byte → Nat
  | [] => 0
  | b :: t => b.toNat + 256 * leNat t

/-- The number a network-order byte list spells. -/
def beNat (bs : List Byte) : Nat := leNat bs.reverse

/-- Bits [hi:lo] of v. -/
def bits (v hi lo : Nat) : Nat := (v / 2 ^ lo) % 2 ^ (hi + 1 - lo)

/-- Bit n of v. -/
def bit (v n : Nat) : Bool := v.testBit n

/-- v with bit n set. -/
def setBit (v n : Nat) : Nat := v ||| 2 ^ n

/-- v with bit n clear. -/
def clrBit (v n : Nat) : Nat := if v.testBit n then v - 2 ^ n else v

/-- The signed number an n-bit pattern stands for (R13). -/
def toSigned (n v : Nat) : Int := if v % 2 ^ n < 2 ^ (n - 1) then ((v % 2 ^ n : Nat) : Int) else ((v % 2 ^ n : Nat) : Int) - ((2 ^ n : Nat) : Int)

/-- The n-bit pattern of a signed number (R13). -/
def ofSigned (n : Nat) (v : Int) : Nat := (v % ((2 ^ n : Nat) : Int)).toNat

/-- 1 for true. -/
def b2n (b : Bool) : Nat := if b then 1 else 0

/-- Division and remainder of signed operands as R13 has them, truncated toward zero; by 0 the result is open (entry 151). -/
def truncDiv (a b : Int) : Int := if b = 0 then Config.divByZero a else Int.tdiv a b
def truncMod (a b : Int) : Int := if b = 0 then Config.modByZero a else Int.tmod a b

/-- n bytes of v, v padded with zero bytes. -/
def padTo (n : Nat) (v : List Byte) : List Byte := (v ++ List.replicate (n - v.length) 0).take n

/-- The bytes from offset o, at most n of them. -/
def slice (o n : Nat) (v : List Byte) : List Byte := (v.drop o).take n

/-- The byte at offset o, 0 beyond the end. -/
def byteAt (v : List Byte) (o : Nat) : Nat := (v.getD o 0).toNat

/-- The network-order 16-bit field at offset o. -/
def be16 (v : List Byte) (o : Nat) : Nat := beNat (padTo 2 (slice o 2 v))

/-- The network-order 32-bit field at offset o. -/
def be32 (v : List Byte) (o : Nat) : Nat := beNat (padTo 4 (slice o 4 v))

/-- One bit step of a reflected CRC with polynomial p. -/
def crcBit (p c : Nat) : Nat := if c % 2 = 1 then (c / 2) ^^^ p else c / 2

/-- One byte of a reflected CRC. -/
def crcByte (p c b : Nat) : Nat :=
  crcBit p (crcBit p (crcBit p (crcBit p (crcBit p (crcBit p (crcBit p (crcBit p (c ^^^ b))))))))

/-- CRC-32C, polynomial 0x1EDC_6F41 in reflected form 0x82F6_3B78, initial value and final inversion all ones. -/
def crc32c (bs : List Byte) : Nat :=
  (bs.foldl (fun c b => crcByte 0x82F63B78 c b.toNat) 0xFFFFFFFF) ^^^ 0xFFFFFFFF

/-! SHA-256 and HMAC. PRESUMED: FIPS 180-4 and RFC 2104, which the spec names but does not restate (R107). The standard's constants are computed from what defines them: the first fraction bits of roots of the first primes. -/

/-- No number from 2 to 17 divides n, but n itself: a prime test for n below 324. -/
def smallPrime (n : Nat) : Bool := 2 ≤ n && (List.range 16).all (fun d => n ≤ d + 2 || n % (d + 2) != 0)

/-- The first 64 primes. -/
def shaPrimes : List Nat := (List.range 312).filter smallPrime

/-- The largest number whose k-th power is at most v, found bit by bit from x on, the highest of m bits first. -/
def rootFrom (k v : Nat) : Nat → Nat → Nat
  | 0, x => x
  | m + 1, x => rootFrom k v m (if (x + 2 ^ m) ^ k ≤ v then x + 2 ^ m else x)

/-- The first 32 bits of the fraction of the k-th root of p. -/
def rootFraction (k p : Nat) : Word := BitVec.ofNat 32 (rootFrom k (p * 2 ^ (32 * k)) 38 0)

/-- A sum of two rotations of a word and a third rotation or shift of it. -/
def shaMix (i j : Nat) (z x : Word) : Word := x.rotateRight i ^^^ x.rotateRight j ^^^ z

/-- One round on a pair: the next sixteen schedule words, and the eight working words a to h. -/
def shaRound (p : List Word × List Word) (k : Word) : List Word × List Word :=
  let m : Nat → Word := fun i => p.1.getD i 0
  let v : Nat → Word := fun i => p.2.getD i 0
  let up := v 7 + shaMix 6 11 ((v 4).rotateRight 25) (v 4) + (v 6 ^^^ (v 4 &&& (v 5 ^^^ v 6))) + k + m 0
  let top := shaMix 2 13 ((v 0).rotateRight 22) (v 0) + ((v 0 &&& (v 1 ||| v 2)) ||| (v 1 &&& v 2))
  (p.1.drop 1 ++ [m 0 + shaMix 7 18 (m 1 >>> 3) (m 1) + m 9 + shaMix 17 19 (m 14 >>> 10) (m 14)],
    (up + top) :: p.2.take 3 ++ (v 3 + up) :: (p.2.drop 4).take 3)

/-- n bytes at a time, as network-order numbers. -/
def beChunks (n : Nat) : Nat → List Byte → List Nat
  | 0, _ => []
  | m + 1, bs => beNat (bs.take n) :: beChunks n m (bs.drop n)

/-- A hash value with one 64-byte block compressed into it. -/
def shaCompress (h : List Word) (block : List Byte) : List Word :=
  List.zipWith (fun x y => x + y) h
    ((shaPrimes.map (rootFraction 3)).foldl shaRound ((beChunks 4 16 block).map (BitVec.ofNat 32), h)).2

/-- The blocks of a padded message of 64 m bytes, each compressed into the hash value. -/
def shaAbsorb (h : List Word) : Nat → List Byte → List Word
  | 0, _ => h
  | m + 1, bs => shaAbsorb (shaCompress h (bs.take 64)) m (bs.drop 64)

/-- SHA-256 of a byte string: a 1 bit, zero bits to a whole number of blocks, and the length in bits. -/
def sha256 (m : List Byte) : List Byte :=
  let blocks := (m.length + 72) / 64
  let padded := m ++ 0x80#8 :: List.replicate (64 * blocks - m.length - 9) 0 ++ beBytes 8 (8 * m.length)
  (shaAbsorb ((shaPrimes.take 8).map (rootFraction 2)) blocks padded).flatMap (fun w => beBytes 4 w.toNat)

/-- A key of at most 64 bytes, filled up to a block and masked with a byte. -/
def hmacPad (key : List Byte) (mask : Byte) : List Byte := (padTo 64 key).map (mask ^^^ ·)

/-- HMAC-SHA-256 with a key of at most 64 bytes (R107, R112). -/
def hmacSha256 (key msg : List Byte) : List Byte :=
  sha256 (hmacPad key 0x5c ++ sha256 (hmacPad key 0x36 ++ msg))

end Sys2Proof.Machine
end

