-- ==== Sys2Proof/Objects.lean ====
section
/-! DEFINITION. The shape of one row of the object dictionary: types (R81, Table 3.1), access rights (R85, Table 3.2), the limits a value is held to (R538, R11), and the row itself. The rows are in Machine/ObjTable.lean. -/

namespace Sys2Proof

/-- Object types, Table 3.1. `bitset w` is a BITSET of w bytes, `str n` a STRING[n], `blob n` a BLOB of at most n bytes. -/
inductive ValType where
  | bool | u8 | u16 | u32 | u64 | i32 | i64 | q32 | time96 | enum | ref
  | bitset (bytes : Nat)
  | str (n : Nat)
  | blob (maxBytes : Nat)
deriving DecidableEq, Repr

/-- The base access right of Table 3.2. -/
inductive Right where
  | ro | rw | wo | rwp | rwd
deriving DecidableEq, Repr

/-- The access column: a base right, with SEC and P added (R85). -/
structure Access where
  right   : Right
  sec     : Bool
  persist : Bool
deriving DecidableEq, Repr

/-- The limits an object's meaning states for a value alone (R538). A value outside `codes`, `codeRange`, `mask` or the defined bits of `bits` fails with RESERVED_VALUE; outside the others it fails with RANGE (`key`: KEY_VALUE). -/
inductive Limit where
  /-- no limit beyond the type's -/
  | any
  /-- lo to hi, or one of the extra values -/
  | range (lo hi : Int) (extras : List Int)
  /-- listed codes, then codes listed but declared not writable (RANGE) -/
  | codes (ok refused : List Int)
  /-- codes lo to hi and the extra codes -/
  | codeRange (lo hi : Int) (extras : List Int)
  /-- one value only -/
  | only (v : Int)
  /-- a key object: one value only, KEY_VALUE otherwise (R78) -/
  | key (v : Int)
  /-- defined bits, and which of them are sticky (R83) -/
  | bits (defined sticky : Nat)
  /-- defined bits of a number with reserved fields (R11) -/
  | mask (defined : Nat)
  /-- `count` fields of two bits, none of which may hold `bad` -/
  | fields (bad count : Nat)
  /-- a multiple of m from lo to hi -/
  | mult (m lo hi : Int)
  /-- a power of two from lo to hi -/
  | pow2 (lo hi : Int)
deriving DecidableEq, Repr

/-- One row of an object table: packed ID (R9), type, access, number of indices (0 when not indexed, R80), the default after reset (R10), the limit, and whether the object is a counter of R54. -/
structure ObjRow where
  id      : Nat
  type    : ValType
  access  : Access
  indices : Nat
  default : Nat
  limit   : Limit
  counter : Bool
deriving DecidableEq, Repr

end Sys2Proof
end

