-- ==== Sys2Proof/Machine/ObjTable.lean ====
section
/-! DEFINITION. The object dictionary, row by row from the object tables of the spec (R10, R79): every object the manual lists, with its type, access, index count, default and the limit its meaning states. The rows of quad q at group 0x10 + q are written once, for q = 0, and moved by `quadRow`. Defaults "per unit", "per firmware" or given by another table are filled by `Machine.objDefault`. -/

namespace Sys2Proof.Machine

open Sys2Proof

/-- Access column of Table 3.2. -/
abbrev accRo : Access := ⟨.ro, false, false⟩
/-- Access column of Table 3.2. -/
abbrev accRw : Access := ⟨.rw, false, false⟩
/-- Access column of Table 3.2. -/
abbrev accRwP : Access := ⟨.rw, false, true⟩
/-- Access column of Table 3.2. -/
abbrev accRwS : Access := ⟨.rw, true, false⟩
/-- Access column of Table 3.2. -/
abbrev accRwSP : Access := ⟨.rw, true, true⟩
/-- Access column of Table 3.2. -/
abbrev accRwdP : Access := ⟨.rwd, false, true⟩
/-- Access column of Table 3.2. -/
abbrev accRwp : Access := ⟨.rwp, false, false⟩
/-- Access column of Table 3.2. -/
abbrev accWo : Access := ⟨.wo, false, false⟩
/-- Access column of Table 3.2. -/
abbrev accWoSP : Access := ⟨.wo, true, true⟩

/-! Object IDs by name (R9, R10); an object with elements is named by its element 0. -/
namespace Oid

/-- `identity.vendor`, 00 R2. -/
abbrev identityVendor : Nat := 0x000000
/-- `identity.part`, 00 R2. -/
abbrev identityPart : Nat := 0x000010
/-- `identity.stepping`, 00 R2. -/
abbrev identityStepping : Nat := 0x000020
/-- `identity.serial`, 00 R2. -/
abbrev identitySerial : Nat := 0x000030
/-- `modes.domains_running`, 01 R29. -/
abbrev modesDomainsRunning : Nat := 0x010100
/-- `power.clock_step`, 01 R29. -/
abbrev powerClockStep : Nat := 0x740100
/-- `modes.current`, 02 R78. -/
abbrev modesCurrent : Nat := 0x010000
/-- `modes.request`, 02 R78. -/
abbrev modesRequest : Nat := 0x010010
/-- `modes.transition`, 02 R78. -/
abbrev modesTransition : Nat := 0x010020
/-- `modes.boot_target`, 02 R78. -/
abbrev modesBootTarget : Nat := 0x010030
/-- `modes.lanes_warm`, 02 R78. -/
abbrev modesLanesWarm : Nat := 0x010040
/-- `modes.dormant_hbm`, 02 R78. -/
abbrev modesDormantHbm : Nat := 0x010050
/-- `modes.drain_on_stop`, 02 R78. -/
abbrev modesDrainOnStop : Nat := 0x010060
/-- `modes.reset`, 02 R78. -/
abbrev modesReset : Nat := 0x010070
/-- `modes.shutdown`, 02 R78. -/
abbrev modesShutdown : Nat := 0x010080
/-- `modes.shutdown_done`, 02 R78. -/
abbrev modesShutdownDone : Nat := 0x010090
/-- `modes.last_change`, 02 R78. -/
abbrev modesLastChange : Nat := 0x0100A0
/-- `modes.reset_cause`, 02 R78. -/
abbrev modesResetCause : Nat := 0x0100B0
/-- `modes.limp_cause`, 02 R78. -/
abbrev modesLimpCause : Nat := 0x0100C0
/-- `modes.halt_cause`, 02 R78. -/
abbrev modesHaltCause : Nat := 0x0100D0
/-- `modes.wake_sources`, 02 R78. -/
abbrev modesWakeSources : Nat := 0x0100E0
/-- `modes.wake_at`, 02 R78. -/
abbrev modesWakeAt : Nat := 0x010200
/-- `modes.wake_enable`, 02 R78. -/
abbrev modesWakeEnable : Nat := 0x010210
/-- `modes.wake_status`, 02 R78. -/
abbrev modesWakeStatus : Nat := 0x010220
/-- `modes.boot_status`, 02 R78. -/
abbrev modesBootStatus : Nat := 0x010300
/-- `modes.boot_slot`, 02 R78. -/
abbrev modesBootSlot : Nat := 0x010310
/-- `modes.preferred_slot`, 02 R78. -/
abbrev modesPreferredSlot : Nat := 0x010320
/-- `modes.boot_time`, 02 R78. -/
abbrev modesBootTime : Nat := 0x010330
/-- `modes.fw_image`, 02 R78. -/
abbrev modesFwImage : Nat := 0x010400
/-- `modes.fw_commit`, 02 R78. -/
abbrev modesFwCommit : Nat := 0x010410
/-- `modes.fw_update_status`, 02 R78. -/
abbrev modesFwUpdateStatus : Nat := 0x010420
/-- `dict.version`, 03 R128. -/
abbrev dictVersion : Nat := 0x020000
/-- `dict.object_count`, 03 R128. -/
abbrev dictObjectCount : Nat := 0x020010
/-- `dict.mb_overruns`, 03 R128. -/
abbrev dictMbOverruns : Nat := 0x020120
/-- `dict.mgmt_ipv4`, 03 R128. -/
abbrev dictMgmtIpv4 : Nat := 0x020300
/-- `dict.mgmt_netmask`, 03 R128. -/
abbrev dictMgmtNetmask : Nat := 0x020310
/-- `dict.mgmt_mac`, 03 R128. -/
abbrev dictMgmtMac : Nat := 0x020320
/-- `dict.session_timeout`, 03 R128. -/
abbrev dictSessionTimeout : Nat := 0x020400
/-- `dict.sessions_open`, 03 R128. -/
abbrev dictSessionsOpen : Nat := 0x020410
/-- `dict.key`, 03 R128. -/
abbrev dictKey : Nat := 0x020500
/-- `dict.key_class`, 03 R128. -/
abbrev dictKeyClass : Nat := 0x020510
/-- `dict.key_lock`, 03 R128. -/
abbrev dictKeyLock : Nat := 0x020520
/-- `dict.auth_failures`, 03 R128. -/
abbrev dictAuthFailures : Nat := 0x020600
/-- `dict.replays`, 03 R128. -/
abbrev dictReplays : Nat := 0x020610
/-- `dict.linob_malformed`, 03 R128. -/
abbrev dictLinobMalformed : Nat := 0x020620
/-- `dict.subs_active`, 03 R128. -/
abbrev dictSubsActive : Nat := 0x020630
/-- `dict.bcast_status`, 03 R128. -/
abbrev dictBcastStatus : Nat := 0x020700
/-- `dict.persist_pending`, 03 R128. -/
abbrev dictPersistPending : Nat := 0x020800
/-- `dict.persist_clear`, 03 R128. -/
abbrev dictPersistClear : Nat := 0x020810
/-- `dict.persist_writes`, 03 R128. -/
abbrev dictPersistWrites : Nat := 0x020820
/-- `dict.persist_status`, 03 R128. -/
abbrev dictPersistStatus : Nat := 0x020830
/-- `plans.active`, 03 R128. -/
abbrev plansActive : Nat := 0x7C0000
/-- `plans.state`, 03 R128. -/
abbrev plansState : Nat := 0x7C0010
/-- `plans.seal`, 03 R128. -/
abbrev plansSeal : Nat := 0x7C0100
/-- `plans.clear`, 03 R128. -/
abbrev plansClear : Nat := 0x7C0110
/-- `plans.entries`, 03 R128. -/
abbrev plansEntries : Nat := 0x7C0120
/-- `plans.bytes`, 03 R128. -/
abbrev plansBytes : Nat := 0x7C0130
/-- `plans.fail_object`, 03 R128. -/
abbrev plansFailObject : Nat := 0x7C0140
/-- `plans.fail_code`, 03 R128. -/
abbrev plansFailCode : Nat := 0x7C0150
/-- `plans.save`, 03 R128. -/
abbrev plansSave : Nat := 0x7C0160
/-- `plans.status`, 03 R128. -/
abbrev plansStatus : Nat := 0x7C0200
/-- `plans.boundary_timeout`, 03 R128. -/
abbrev plansBoundaryTimeout : Nat := 0x7C0210
/-- `plans.last_pitch`, 03 R128. -/
abbrev plansLastPitch : Nat := 0x7C0220
/-- `plans.pitch_count`, 03 R128. -/
abbrev plansPitchCount : Nat := 0x7C0230
/-- `plans.late_pitches`, 03 R128. -/
abbrev plansLatePitches : Nat := 0x7C0240
/-- `plans.boot_pitch`, 03 R128. -/
abbrev plansBootPitch : Nat := 0x7C0250
/-- `time.now`, 04 R159. -/
abbrev timeNow : Nat := 0x080000
/-- `time.short_now`, 04 R159. -/
abbrev timeShortNow : Nat := 0x080010
/-- `time.increment`, 04 R159. -/
abbrev timeIncrement : Nat := 0x080020
/-- `time.step`, 04 R159. -/
abbrev timeStep : Nat := 0x080030
/-- `time.set`, 04 R159. -/
abbrev timeSet : Nat := 0x080040
/-- `time.step_count`, 04 R159. -/
abbrev timeStepCount : Nat := 0x080060
/-- `time.status`, 04 R159. -/
abbrev timeStatus : Nat := 0x080070
/-- `time.source`, 04 R159. -/
abbrev timeSource : Nat := 0x080080
/-- `time.locked`, 04 R159. -/
abbrev timeLocked : Nat := 0x080090
/-- `time.offset`, 04 R159. -/
abbrev timeOffset : Nat := 0x0800A0
/-- `time.utc_offset`, 04 R159. -/
abbrev timeUtcOffset : Nat := 0x0800B0
/-- `time.last_step`, 04 R159. -/
abbrev timeLastStep : Nat := 0x0800C0
/-- `time.ptp_port`, 04 R159. -/
abbrev timePtpPort : Nat := 0x080100
/-- `time.ptp_profile`, 04 R159. -/
abbrev timePtpProfile : Nat := 0x080110
/-- `time.ptp_role`, 04 R159. -/
abbrev timePtpRole : Nat := 0x080120
/-- `time.ptp_domain`, 04 R159. -/
abbrev timePtpDomain : Nat := 0x080130
/-- `time.ptp_step_mode`, 04 R159. -/
abbrev timePtpStepMode : Nat := 0x080140
/-- `time.ptp_transport`, 04 R159. -/
abbrev timePtpTransport : Nat := 0x080150
/-- `time.ptp_priority1`, 04 R159. -/
abbrev timePtpPriority1 : Nat := 0x080160
/-- `time.ptp_priority2`, 04 R159. -/
abbrev timePtpPriority2 : Nat := 0x080170
/-- `time.ptp_log_sync`, 04 R159. -/
abbrev timePtpLogSync : Nat := 0x080180
/-- `time.ptp_log_announce`, 04 R159. -/
abbrev timePtpLogAnnounce : Nat := 0x080190
/-- `time.ptp_announce_timeout`, 04 R159. -/
abbrev timePtpAnnounceTimeout : Nat := 0x0801A0
/-- `time.ptp_log_delay_req`, 04 R159. -/
abbrev timePtpLogDelayReq : Nat := 0x0801B0
/-- `time.ptp_state`, 04 R159. -/
abbrev timePtpState : Nat := 0x0801C0
/-- `time.ptp_mean_delay`, 04 R159. -/
abbrev timePtpMeanDelay : Nat := 0x0801D0
/-- `time.ptp_asymmetry`, 04 R159. -/
abbrev timePtpAsymmetry : Nat := 0x0801E0
/-- `time.step_threshold`, 04 R159. -/
abbrev timeStepThreshold : Nat := 0x0801F0
/-- `time.lock_threshold`, 04 R159. -/
abbrev timeLockThreshold : Nat := 0x080200
/-- `time.holdover_limit`, 04 R159. -/
abbrev timeHoldoverLimit : Nat := 0x080210
/-- `time.ptp_clock_class`, 04 R159. -/
abbrev timePtpClockClass : Nat := 0x080220
/-- `time.ptp_exceptions`, 04 R159. -/
abbrev timePtpExceptions : Nat := 0x080230
/-- `time.pps_out_enable`, 04 R159. -/
abbrev timePpsOutEnable : Nat := 0x080300
/-- `time.pps_out_width`, 04 R159. -/
abbrev timePpsOutWidth : Nat := 0x080310
/-- `time.pps_out_offset`, 04 R159. -/
abbrev timePpsOutOffset : Nat := 0x080320
/-- `time.pps_out_polarity`, 04 R159. -/
abbrev timePpsOutPolarity : Nat := 0x080330
/-- `time.pps_in_edge`, 04 R159. -/
abbrev timePpsInEdge : Nat := 0x080340
/-- `time.pps_in_last`, 04 R159. -/
abbrev timePpsInLast : Nat := 0x080350
/-- `time.pps_in_extra`, 04 R159. -/
abbrev timePpsInExtra : Nat := 0x080360
/-- `time.bh_address`, 04 R159. -/
abbrev timeBhAddress : Nat := 0x080400
/-- `time.bh_upstream`, 04 R159. -/
abbrev timeBhUpstream : Nat := 0x080410
/-- `time.bh_downstream`, 04 R159. -/
abbrev timeBhDownstream : Nat := 0x080420
/-- `time.bh_level`, 04 R159. -/
abbrev timeBhLevel : Nat := 0x080430
/-- `time.bh_hop_delay`, 04 R159. -/
abbrev timeBhHopDelay : Nat := 0x080440
/-- `time.bh_asymmetry`, 04 R159. -/
abbrev timeBhAsymmetry : Nat := 0x080450
/-- `time.bh_locked`, 04 R159. -/
abbrev timeBhLocked : Nat := 0x080460
/-- `time.bh_offset`, 04 R159. -/
abbrev timeBhOffset : Nat := 0x080470
/-- `time.bh_members`, 04 R159. -/
abbrev timeBhMembers : Nat := 0x080480
/-- `time.cmp_mode`, 04 R159. -/
abbrev timeCmpMode : Nat := 0x080500
/-- `time.cmp_target`, 04 R159. -/
abbrev timeCmpTarget : Nat := 0x080510
/-- `time.cmp_short`, 04 R159. -/
abbrev timeCmpShort : Nat := 0x080520
/-- `time.cmp_period`, 04 R159. -/
abbrev timeCmpPeriod : Nat := 0x080530
/-- `time.cmp_status`, 04 R159. -/
abbrev timeCmpStatus : Nat := 0x080540
/-- `time.cmp_catchup`, 04 R159. -/
abbrev timeCmpCatchup : Nat := 0x080550
/-- `counters.snapshot_at`, 04 R159. -/
abbrev countersSnapshotAt : Nat := 0x780000
/-- `counters.snapshot_gen`, 04 R159. -/
abbrev countersSnapshotGen : Nat := 0x780010
/-- `counters.snapshot_time`, 04 R159. -/
abbrev countersSnapshotTime : Nat := 0x780020
/-- `counters.snapshot_period`, 04 R159. -/
abbrev countersSnapshotPeriod : Nat := 0x780030
/-- `counters.snapshot_status`, 04 R159. -/
abbrev countersSnapshotStatus : Nat := 0x780040
/-- `counters.snapshot_now`, 04 R159. -/
abbrev countersSnapshotNow : Nat := 0x780050
/-- `events.src_channel`, 05 R189. -/
abbrev eventsSrcChannel : Nat := 0x0C0000
/-- `events.src_vector`, 05 R189. -/
abbrev eventsSrcVector : Nat := 0x0C0010
/-- `events.src_count`, 05 R189. -/
abbrev eventsSrcCount : Nat := 0x0C0030
/-- `events.ch_consumer`, 05 R189. -/
abbrev eventsChConsumer : Nat := 0x0C0100
/-- `events.ch_owner`, 05 R189. -/
abbrev eventsChOwner : Nat := 0x0C0110
/-- `events.ch_secure`, 05 R189. -/
abbrev eventsChSecure : Nat := 0x0C0120
/-- `events.ch_enable`, 05 R189. -/
abbrev eventsChEnable : Nat := 0x0C0130
/-- `events.ch_storm_limit`, 05 R189. -/
abbrev eventsChStormLimit : Nat := 0x0C0140
/-- `events.ch_status`, 05 R189. -/
abbrev eventsChStatus : Nat := 0x0C0150
/-- `events.ch_count`, 05 R189. -/
abbrev eventsChCount : Nat := 0x0C0160
/-- `events.ch_coincidence`, 05 R189. -/
abbrev eventsChCoincidence : Nat := 0x0C0170
/-- `events.ch_overflow`, 05 R189. -/
abbrev eventsChOverflow : Nat := 0x0C0180
/-- `events.ch_last_time`, 05 R189. -/
abbrev eventsChLastTime : Nat := 0x0C0190
/-- `events.ch_disabled_drops`, 05 R189. -/
abbrev eventsChDisabledDrops : Nat := 0x0C01A0
/-- `events.fire`, 05 R189. -/
abbrev eventsFire : Nat := 0x0C0200
/-- `events.fire_mask`, 05 R189. -/
abbrev eventsFireMask : Nat := 0x0C0210
/-- `events.fire_refused`, 05 R189. -/
abbrev eventsFireRefused : Nat := 0x0C0220
/-- `events.grist_lut`, 05 R189. -/
abbrev eventsGristLut : Nat := 0x0C0300
/-- `events.grist_input_mode`, 05 R189. -/
abbrev eventsGristInputMode : Nat := 0x0C0310
/-- `events.grist_register`, 05 R189. -/
abbrev eventsGristRegister : Nat := 0x0C0320
/-- `events.grist_d_select`, 05 R189. -/
abbrev eventsGristDSelect : Nat := 0x0C0330
/-- `events.grist_filter`, 05 R189. -/
abbrev eventsGristFilter : Nat := 0x0C0340
/-- `events.grist_edge`, 05 R189. -/
abbrev eventsGristEdge : Nat := 0x0C0350
/-- `events.grist_q`, 05 R189. -/
abbrev eventsGristQ : Nat := 0x0C0360
/-- `events.trig_in_edge`, 05 R189. -/
abbrev eventsTrigInEdge : Nat := 0x0C0400
/-- `events.trig_in_filter`, 05 R189. -/
abbrev eventsTrigInFilter : Nat := 0x0C0410
/-- `events.trig_in_min_interval`, 05 R189. -/
abbrev eventsTrigInMinInterval : Nat := 0x0C0420
/-- `events.trig_in_stuck`, 05 R189. -/
abbrev eventsTrigInStuck : Nat := 0x0C0430
/-- `events.trig_in_excess`, 05 R189. -/
abbrev eventsTrigInExcess : Nat := 0x0C0440
/-- `events.trig_in_status`, 05 R189. -/
abbrev eventsTrigInStatus : Nat := 0x0C0450
/-- `events.trig_in_level`, 05 R189. -/
abbrev eventsTrigInLevel : Nat := 0x0C0460
/-- `events.trig_out_mode`, 05 R189. -/
abbrev eventsTrigOutMode : Nat := 0x0C0480
/-- `events.trig_out_width`, 05 R189. -/
abbrev eventsTrigOutWidth : Nat := 0x0C0490
/-- `events.trig_out_polarity`, 05 R189. -/
abbrev eventsTrigOutPolarity : Nat := 0x0C04A0
/-- `events.pin_latency`, 05 R189. -/
abbrev eventsPinLatency : Nat := 0x0C04C0
/-- `events.export_channel`, 05 R189. -/
abbrev eventsExportChannel : Nat := 0x0C0500
/-- `events.export_lead`, 05 R189. -/
abbrev eventsExportLead : Nat := 0x0C0510
/-- `events.late_triggers`, 05 R189. -/
abbrev eventsLateTriggers : Nat := 0x0C0530
/-- `events.triggers_scheduled`, 05 R189. -/
abbrev eventsTriggersScheduled : Nat := 0x0C0540
/-- `events.capture_time`, 05 R189. -/
abbrev eventsCaptureTime : Nat := 0x0C0580
/-- `events.capture_count`, 05 R189. -/
abbrev eventsCaptureCount : Nat := 0x0C0590
/-- `events.flow_signal_sel`, 05 R189. -/
abbrev eventsFlowSignalSel : Nat := 0x0C0600
/-- `events.flow_trigger_sel`, 05 R189. -/
abbrev eventsFlowTriggerSel : Nat := 0x0C0610
/-- `events.vec_count`, 05 R189. -/
abbrev eventsVecCount : Nat := 0x0C0700
/-- `events.vec_time`, 05 R189. -/
abbrev eventsVecTime : Nat := 0x0C0710
/-- `events.vec_sent`, 05 R189. -/
abbrev eventsVecSent : Nat := 0x0C0720
/-- `events.status`, 05 R189. -/
abbrev eventsStatus : Nat := 0x0C0800
/-- `quad.mode`, 06 R226. -/
abbrev quadMode : Nat := 0x100000
/-- `quad.mode_active`, 06 R226. -/
abbrev quadModeActive : Nat := 0x100010
/-- `quad.diag_rate`, 06 R226. -/
abbrev quadDiagRate : Nat := 0x100020
/-- `quad.rate_actual`, 06 R226. -/
abbrev quadRateActual : Nat := 0x100030
/-- `quad.pll_locked`, 06 R226. -/
abbrev quadPllLocked : Nat := 0x100040
/-- `quad.ref_present`, 06 R226. -/
abbrev quadRefPresent : Nat := 0x100050
/-- `quad.status`, 06 R226. -/
abbrev quadStatus : Nat := 0x100060
/-- `lane.state`, 06 R226. -/
abbrev laneState : Nat := 0x100100
/-- `lane.status`, 06 R226. -/
abbrev laneStatus : Nat := 0x100110
/-- `lane.signal`, 06 R226. -/
abbrev laneSignal : Nat := 0x100120
/-- `lane.block_lock`, 06 R226. -/
abbrev laneBlockLock : Nat := 0x100130
/-- `lane.efom`, 06 R226. -/
abbrev laneEfom : Nat := 0x100140
/-- `lane.eye_width`, 06 R226. -/
abbrev laneEyeWidth : Nat := 0x100150
/-- `lane.efom_min`, 06 R226. -/
abbrev laneEfomMin : Nat := 0x100160
/-- `lane.efom_time`, 06 R226. -/
abbrev laneEfomTime : Nat := 0x100170
/-- `lane.dfe_freeze`, 06 R226. -/
abbrev laneDfeFreeze : Nat := 0x100180
/-- `lane.ctle`, 06 R226. -/
abbrev laneCtle : Nat := 0x100190
/-- `lane.dfe_tap`, 06 R226. -/
abbrev laneDfeTap : Nat := 0x100200
/-- `lane.tx_pre`, 06 R226. -/
abbrev laneTxPre : Nat := 0x100300
/-- `lane.tx_main`, 06 R226. -/
abbrev laneTxMain : Nat := 0x100310
/-- `lane.tx_post`, 06 R226. -/
abbrev laneTxPost : Nat := 0x100320
/-- `lane.tx_swing`, 06 R226. -/
abbrev laneTxSwing : Nat := 0x100330
/-- `lane.rx_invert`, 06 R226. -/
abbrev laneRxInvert : Nat := 0x100340
/-- `lane.tx_invert`, 06 R226. -/
abbrev laneTxInvert : Nat := 0x100350
/-- `lane.enable`, 06 R226. -/
abbrev laneEnable : Nat := 0x100360
/-- `lane.loopback`, 06 R226. -/
abbrev laneLoopback : Nat := 0x100400
/-- `lane.prbs_gen`, 06 R226. -/
abbrev lanePrbsGen : Nat := 0x100410
/-- `lane.prbs_chk`, 06 R226. -/
abbrev lanePrbsChk : Nat := 0x100420
/-- `lane.prbs_invert`, 06 R226. -/
abbrev lanePrbsInvert : Nat := 0x100430
/-- `lane.prbs_lock`, 06 R226. -/
abbrev lanePrbsLock : Nat := 0x100440
/-- `lane.prbs_bits`, 06 R226. -/
abbrev lanePrbsBits : Nat := 0x100450
/-- `lane.prbs_errors`, 06 R226. -/
abbrev lanePrbsErrors : Nat := 0x100460
/-- `lane.prbs_inject`, 06 R226. -/
abbrev lanePrbsInject : Nat := 0x100470
/-- `lane.prbs_inject_rate`, 06 R226. -/
abbrev lanePrbsInjectRate : Nat := 0x100480
/-- `lane.prbs_injected`, 06 R226. -/
abbrev lanePrbsInjected : Nat := 0x100490
/-- `lane.prbs_clear`, 06 R226. -/
abbrev lanePrbsClear : Nat := 0x1004A0
/-- `lane.faults`, 06 R226. -/
abbrev laneFaults : Nat := 0x100500
/-- `lane.fault_cause`, 06 R226. -/
abbrev laneFaultCause : Nat := 0x100510
/-- `lane.relocks`, 06 R226. -/
abbrev laneRelocks : Nat := 0x100520
/-- `lane.retired`, 06 R226. -/
abbrev laneRetired : Nat := 0x100530
/-- `lane.reinstate`, 06 R226. -/
abbrev laneReinstate : Nat := 0x100540
/-- `lane.link_ups`, 06 R226. -/
abbrev laneLinkUps : Nat := 0x100550
/-- `lane.invalid_headers`, 06 R226. -/
abbrev laneInvalidHeaders : Nat := 0x100560
/-- `lane.los_count`, 06 R226. -/
abbrev laneLosCount : Nat := 0x100570
/-- `lane.retire_cause`, 06 R226. -/
abbrev laneRetireCause : Nat := 0x100580
/-- `port.status`, 07 R256. -/
abbrev portStatus : Nat := 0x200000
/-- `port.fec`, 07 R256. -/
abbrev portFec : Nat := 0x200010
/-- `port.mac_addr`, 07 R256. -/
abbrev portMacAddr : Nat := 0x200020
/-- `port.ipv4`, 07 R256. -/
abbrev portIpv4 : Nat := 0x200030
/-- `port.ipv4_mask`, 07 R256. -/
abbrev portIpv4Mask : Nat := 0x200040
/-- `port.ipv6`, 07 R256. -/
abbrev portIpv6 : Nat := 0x200050
/-- `port.vlan`, 07 R256. -/
abbrev portVlan : Nat := 0x200060
/-- `port.max_frame`, 07 R256. -/
abbrev portMaxFrame : Nat := 0x200080
/-- `port.promiscuous`, 07 R256. -/
abbrev portPromiscuous : Nat := 0x200090
/-- `port.flow_ctrl`, 07 R256. -/
abbrev portFlowCtrl : Nat := 0x200100
/-- `port.pause_quanta`, 07 R256. -/
abbrev portPauseQuanta : Nat := 0x200110
/-- `port.pause_honour`, 07 R256. -/
abbrev portPauseHonour : Nat := 0x200120
/-- `port.pause_state`, 07 R256. -/
abbrev portPauseState : Nat := 0x200130
/-- `port.exc_rate`, 07 R256. -/
abbrev portExcRate : Nat := 0x200150
/-- `port.resend_udp`, 07 R256. -/
abbrev portResendUdp : Nat := 0x200160
/-- `port.rx_frames`, 07 R256. -/
abbrev portRxFrames : Nat := 0x200200
/-- `port.rx_bytes`, 07 R256. -/
abbrev portRxBytes : Nat := 0x200210
/-- `port.rx_fcs_errors`, 07 R256. -/
abbrev portRxFcsErrors : Nat := 0x200220
/-- `port.rx_undersize`, 07 R256. -/
abbrev portRxUndersize : Nat := 0x200230
/-- `port.rx_oversize`, 07 R256. -/
abbrev portRxOversize : Nat := 0x200240
/-- `port.rx_dmac_drops`, 07 R256. -/
abbrev portRxDmacDrops : Nat := 0x200250
/-- `port.rx_exceptions`, 07 R256. -/
abbrev portRxExceptions : Nat := 0x200260
/-- `port.rx_exc_dropped`, 07 R256. -/
abbrev portRxExcDropped : Nat := 0x200270
/-- `port.rx_ip_errors`, 07 R256. -/
abbrev portRxIpErrors : Nat := 0x200280
/-- `port.rx_pause_frames`, 07 R256. -/
abbrev portRxPauseFrames : Nat := 0x200290
/-- `port.tx_frames`, 07 R256. -/
abbrev portTxFrames : Nat := 0x2002A0
/-- `port.tx_bytes`, 07 R256. -/
abbrev portTxBytes : Nat := 0x2002B0
/-- `port.tx_pause_frames`, 07 R256. -/
abbrev portTxPauseFrames : Nat := 0x2002C0
/-- `port.fec_corrected`, 07 R256. -/
abbrev portFecCorrected : Nat := 0x2002D0
/-- `port.fec_uncorrected`, 07 R256. -/
abbrev portFecUncorrected : Nat := 0x2002E0
/-- `port.faults`, 07 R256. -/
abbrev portFaults : Nat := 0x200300
/-- `port.fault_cause`, 07 R256. -/
abbrev portFaultCause : Nat := 0x200310
/-- `port.retired`, 07 R256. -/
abbrev portRetired : Nat := 0x200320
/-- `port.reinstate`, 07 R256. -/
abbrev portReinstate : Nat := 0x200330
/-- `port.bh_frames`, 07 R256. -/
abbrev portBhFrames : Nat := 0x200400
/-- `port.bh_discards`, 07 R256. -/
abbrev portBhDiscards : Nat := 0x200410
/-- `flow.rx_type`, 07 R257. -/
abbrev flowRxType : Nat := 0x240000
/-- `flow.rx_port`, 07 R257. -/
abbrev flowRxPort : Nat := 0x240010
/-- `flow.rx_dst_addr`, 07 R257. -/
abbrev flowRxDstAddr : Nat := 0x240020
/-- `flow.rx_dst_port`, 07 R257. -/
abbrev flowRxDstPort : Nat := 0x240030
/-- `flow.rx_src_addr`, 07 R257. -/
abbrev flowRxSrcAddr : Nat := 0x240040
/-- `flow.rx_src_port`, 07 R257. -/
abbrev flowRxSrcPort : Nat := 0x240050
/-- `flow.rx_vlan`, 07 R257. -/
abbrev flowRxVlan : Nat := 0x240060
/-- `flow.rx_rtp_pt`, 07 R257. -/
abbrev flowRxRtpPt : Nat := 0x240070
/-- `flow.rx_join`, 07 R257. -/
abbrev flowRxJoin : Nat := 0x240090
/-- `flow.rx_resend`, 07 R257. -/
abbrev flowRxResend : Nat := 0x2400A0
/-- `flow.rx_pause`, 07 R257. -/
abbrev flowRxPause : Nat := 0x2400B0
/-- `flow.rx_pfc_priority`, 07 R257. -/
abbrev flowRxPfcPriority : Nat := 0x2400C0
/-- `flow.rx_packets`, 07 R257. -/
abbrev flowRxPackets : Nat := 0x240100
/-- `flow.rx_header_errors`, 07 R257. -/
abbrev flowRxHeaderErrors : Nat := 0x240110
/-- `flow.tx_type`, 07 R257. -/
abbrev flowTxType : Nat := 0x241000
/-- `flow.tx_port`, 07 R257. -/
abbrev flowTxPort : Nat := 0x241010
/-- `flow.tx_dst_mac`, 07 R257. -/
abbrev flowTxDstMac : Nat := 0x241020
/-- `flow.tx_dst_addr`, 07 R257. -/
abbrev flowTxDstAddr : Nat := 0x241030
/-- `flow.tx_dst_port`, 07 R257. -/
abbrev flowTxDstPort : Nat := 0x241040
/-- `flow.tx_src_port`, 07 R257. -/
abbrev flowTxSrcPort : Nat := 0x241050
/-- `flow.tx_vlan`, 07 R257. -/
abbrev flowTxVlan : Nat := 0x241060
/-- `flow.tx_dscp`, 07 R257. -/
abbrev flowTxDscp : Nat := 0x241070
/-- `flow.tx_ttl`, 07 R257. -/
abbrev flowTxTtl : Nat := 0x241080
/-- `flow.tx_rtp_pt`, 07 R257. -/
abbrev flowTxRtpPt : Nat := 0x241090
/-- `flow.tx_ssrc`, 07 R257. -/
abbrev flowTxSsrc : Nat := 0x2410A0
/-- `flow.tx_packets`, 07 R257. -/
abbrev flowTxPackets : Nat := 0x2410B0
/-- `underback.occupancy`, 08 R282. -/
abbrev underbackOccupancy : Nat := 0x280000
/-- `underback.status`, 08 R282. -/
abbrev underbackStatus : Nat := 0x280010
/-- `underback.high`, 08 R282. -/
abbrev underbackHigh : Nat := 0x280020
/-- `underback.low`, 08 R282. -/
abbrev underbackLow : Nat := 0x280030
/-- `underback.pause_enable`, 08 R282. -/
abbrev underbackPauseEnable : Nat := 0x280040
/-- `underback.fc_active`, 08 R282. -/
abbrev underbackFcActive : Nat := 0x280050
/-- `underback.flush`, 08 R282. -/
abbrev underbackFlush : Nat := 0x280060
/-- `underback.empty`, 08 R282. -/
abbrev underbackEmpty : Nat := 0x280070
/-- `underback.marker_held`, 08 R282. -/
abbrev underbackMarkerHeld : Nat := 0x280080
/-- `underback.packets`, 08 R282. -/
abbrev underbackPackets : Nat := 0x280100
/-- `underback.rewound`, 08 R282. -/
abbrev underbackRewound : Nat := 0x280110
/-- `underback.cut_packets`, 08 R282. -/
abbrev underbackCutPackets : Nat := 0x280120
/-- `underback.words_dropped`, 08 R282. -/
abbrev underbackWordsDropped : Nat := 0x280130
/-- `underback.gap_markers`, 08 R282. -/
abbrev underbackGapMarkers : Nat := 0x280140
/-- `underback.flushed_packets`, 08 R282. -/
abbrev underbackFlushedPackets : Nat := 0x280150
/-- `underback.ecc_corrected`, 08 R282. -/
abbrev underbackEccCorrected : Nat := 0x280160
/-- `underback.ecc_uncorrected`, 08 R282. -/
abbrev underbackEccUncorrected : Nat := 0x280170
/-- `underback.underruns`, 08 R282. -/
abbrev underbackUnderruns : Nat := 0x280180
/-- `underback.high_crossings`, 08 R282. -/
abbrev underbackHighCrossings : Nat := 0x280190
/-- `underback.peak`, 08 R282. -/
abbrev underbackPeak : Nat := 0x2801A0
/-- `underback.parity_errors`, 08 R282. -/
abbrev underbackParityErrors : Nat := 0x2801B0
/-- `underback.fc_polarity`, 08 R282. -/
abbrev underbackFcPolarity : Nat := 0x280200
/-- `underback.fc_force`, 08 R282. -/
abbrev underbackFcForce : Nat := 0x280210
/-- `lauter.status`, 09 R319. -/
abbrev lauterStatus : Nat := 0x300000
/-- `lauter.scan`, 09 R319. -/
abbrev lauterScan : Nat := 0x300010
/-- `lauter.width`, 09 R319. -/
abbrev lauterWidth : Nat := 0x300020
/-- `lauter.height`, 09 R319. -/
abbrev lauterHeight : Nat := 0x300030
/-- `lauter.pixel_format`, 09 R319. -/
abbrev lauterPixelFormat : Nat := 0x300040
/-- `lauter.missing_policy`, 09 R319. -/
abbrev lauterMissingPolicy : Nat := 0x300050
/-- `lauter.straggle_us`, 09 R319. -/
abbrev lauterStraggleUs : Nat := 0x300060
/-- `lauter.frame_idle`, 09 R319. -/
abbrev lauterFrameIdle : Nat := 0x300070
/-- `lauter.side_records`, 09 R319. -/
abbrev lauterSideRecords : Nat := 0x300080
/-- `lauter.stamp_source`, 09 R319. -/
abbrev lauterStampSource : Nat := 0x300090
/-- `lauter.stamp_clear`, 09 R319. -/
abbrev lauterStampClear : Nat := 0x3000A0
/-- `lauter.encoder`, 09 R319. -/
abbrev lauterEncoder : Nat := 0x3000B0
/-- `lauter.exposure_ns`, 09 R319. -/
abbrev lauterExposureNs : Nat := 0x3000C0
/-- `lauter.gvsp_packet_bytes`, 09 R319. -/
abbrev lauterGvspPacketBytes : Nat := 0x3000D0
/-- `lauter.block_lines`, 09 R319. -/
abbrev lauterBlockLines : Nat := 0x3000E0
/-- `lauter.unit_blocks`, 09 R319. -/
abbrev lauterUnitBlocks : Nat := 0x3000F0
/-- `lauter.staging_high`, 09 R319. -/
abbrev lauterStagingHigh : Nat := 0x300110
/-- `lauter.staging_low`, 09 R319. -/
abbrev lauterStagingLow : Nat := 0x300120
/-- `lauter.staging_level`, 09 R319. -/
abbrev lauterStagingLevel : Nat := 0x300130
/-- `lauter.placements_in_flight`, 09 R319. -/
abbrev lauterPlacementsInFlight : Nat := 0x300140
/-- `lauter.placements_peak`, 09 R319. -/
abbrev lauterPlacementsPeak : Nat := 0x300150
/-- `lauter.resend_delay_us`, 09 R319. -/
abbrev lauterResendDelayUs : Nat := 0x300180
/-- `lauter.resend_max`, 09 R319. -/
abbrev lauterResendMax : Nat := 0x300190
/-- `lauter.frame_seq`, 09 R319. -/
abbrev lauterFrameSeq : Nat := 0x300200
/-- `lauter.frames_committed`, 09 R319. -/
abbrev lauterFramesCommitted : Nat := 0x300210
/-- `lauter.frames_truncated`, 09 R319. -/
abbrev lauterFramesTruncated : Nat := 0x300220
/-- `lauter.frames_lost`, 09 R319. -/
abbrev lauterFramesLost : Nat := 0x300230
/-- `lauter.stale_packets`, 09 R319. -/
abbrev lauterStalePackets : Nat := 0x300240
/-- `lauter.duplicates`, 09 R319. -/
abbrev lauterDuplicates : Nat := 0x300250
/-- `lauter.lost_by_cause`, 09 R319. -/
abbrev lauterLostByCause : Nat := 0x300260
/-- `lauter.no_leader`, 09 R319. -/
abbrev lauterNoLeader : Nat := 0x300270
/-- `lauter.resends_requested`, 09 R319. -/
abbrev lauterResendsRequested : Nat := 0x300280
/-- `lauter.refused_packets`, 09 R319. -/
abbrev lauterRefusedPackets : Nat := 0x300290
/-- `lauter.stamps_discarded`, 09 R319. -/
abbrev lauterStampsDiscarded : Nat := 0x3002A0
/-- `lauter.stamps_missing`, 09 R319. -/
abbrev lauterStampsMissing : Nat := 0x3002B0
/-- `lauter.open_frames`, 09 R319. -/
abbrev lauterOpenFrames : Nat := 0x3002C0
/-- `casks.pages_free`, 09 R320. -/
abbrev casksPagesFree : Nat := 0x340000
/-- `casks.pages_reserved`, 09 R320. -/
abbrev casksPagesReserved : Nat := 0x340010
/-- `casks.pages_held`, 09 R320. -/
abbrev casksPagesHeld : Nat := 0x340020
/-- `casks.live`, 09 R320. -/
abbrev casksLive : Nat := 0x340030
/-- `casks.global_high`, 09 R320. -/
abbrev casksGlobalHigh : Nat := 0x340040
/-- `casks.global_low`, 09 R320. -/
abbrev casksGlobalLow : Nat := 0x340050
/-- `casks.flow_quota`, 09 R320. -/
abbrev casksFlowQuota : Nat := 0x340060
/-- `casks.flow_high`, 09 R320. -/
abbrev casksFlowHigh : Nat := 0x340070
/-- `casks.flow_low`, 09 R320. -/
abbrev casksFlowLow : Nat := 0x340080
/-- `casks.flow_level`, 09 R320. -/
abbrev casksFlowLevel : Nat := 0x340090
/-- `casks.status`, 09 R320. -/
abbrev casksStatus : Nat := 0x3400A0
/-- `casks.refused`, 09 R320. -/
abbrev casksRefused : Nat := 0x3400B0
/-- `casks.cask_state`, 09 R320. -/
abbrev casksCaskState : Nat := 0x3400C0
/-- `casks.cask_flow`, 09 R320. -/
abbrev casksCaskFlow : Nat := 0x3400D0
/-- `casks.cask_seq`, 09 R320. -/
abbrev casksCaskSeq : Nat := 0x3400E0
/-- `casks.cask_pages`, 09 R320. -/
abbrev casksCaskPages : Nat := 0x3400F0
/-- `casks.invalidated`, 09 R320. -/
abbrev casksInvalidated : Nat := 0x340100
/-- `cellar.status`, 10 R348. -/
abbrev cellarStatus : Nat := 0x380000
/-- `cellar.pc_state`, 10 R348. -/
abbrev cellarPcState : Nat := 0x380010
/-- `cellar.spares_free`, 10 R348. -/
abbrev cellarSparesFree : Nat := 0x380020
/-- `cellar.pc_partition`, 10 R348. -/
abbrev cellarPcPartition : Nat := 0x380030
/-- `cellar.pc_slot`, 10 R348. -/
abbrev cellarPcSlot : Nat := 0x380040
/-- `cellar.share`, 10 R348. -/
abbrev cellarShare : Nat := 0x380100
/-- `cellar.boilover`, 10 R348. -/
abbrev cellarBoilover : Nat := 0x380200
/-- `cellar.forced_refreshes`, 10 R348. -/
abbrev cellarForcedRefreshes : Nat := 0x380210
/-- `cellar.debt_peak`, 10 R348. -/
abbrev cellarDebtPeak : Nat := 0x380220
/-- `cellar.boilover_count`, 10 R348. -/
abbrev cellarBoiloverCount : Nat := 0x380230
/-- `cellar.temp`, 10 R348. -/
abbrev cellarTemp : Nat := 0x380300
/-- `cellar.refresh_doubled`, 10 R348. -/
abbrev cellarRefreshDoubled : Nat := 0x380310
/-- `cellar.ce_count`, 10 R348. -/
abbrev cellarCeCount : Nat := 0x380400
/-- `cellar.ue_count`, 10 R348. -/
abbrev cellarUeCount : Nat := 0x380410
/-- `cellar.sev_count`, 10 R348. -/
abbrev cellarSevCount : Nat := 0x380420
/-- `cellar.ce_threshold`, 10 R348. -/
abbrev cellarCeThreshold : Nat := 0x380430
/-- `cellar.repairs`, 10 R348. -/
abbrev cellarRepairs : Nat := 0x380440
/-- `cellar.repairs_left`, 10 R348. -/
abbrev cellarRepairsLeft : Nat := 0x380450
/-- `cellar.reinstate`, 10 R348. -/
abbrev cellarReinstate : Nat := 0x380460
/-- `cellar.faults`, 10 R348. -/
abbrev cellarFaults : Nat := 0x380470
/-- `cellar.scrub_hours`, 10 R348. -/
abbrev cellarScrubHours : Nat := 0x380500
/-- `cellar.scrub_progress`, 10 R348. -/
abbrev cellarScrubProgress : Nat := 0x380510
/-- `cellar.test_select`, 10 R348. -/
abbrev cellarTestSelect : Nat := 0x380600
/-- `cellar.test_pattern`, 10 R348. -/
abbrev cellarTestPattern : Nat := 0x380610
/-- `cellar.test_start`, 10 R348. -/
abbrev cellarTestStart : Nat := 0x380620
/-- `cellar.test_state`, 10 R348. -/
abbrev cellarTestState : Nat := 0x380630
/-- `cellar.test_errors`, 10 R348. -/
abbrev cellarTestErrors : Nat := 0x380640
/-- `racking.status`, 11 R386. -/
abbrev rackingStatus : Nat := 0x400000
/-- `racking.state`, 11 R386. -/
abbrev rackingState : Nat := 0x400010
/-- `racking.resume`, 11 R386. -/
abbrev rackingResume : Nat := 0x400020
/-- `racking.backlog_pages`, 11 R386. -/
abbrev rackingBacklogPages : Nat := 0x400030
/-- `racking.ratio_1s`, 11 R386. -/
abbrev rackingRatio1s : Nat := 0x400040
/-- `racking.alf_in_bytes`, 11 R386. -/
abbrev rackingAlfInBytes : Nat := 0x400050
/-- `racking.out_bytes`, 11 R386. -/
abbrev rackingOutBytes : Nat := 0x400060
/-- `racking.tlb_hits`, 11 R386. -/
abbrev rackingTlbHits : Nat := 0x400070
/-- `racking.tlb_misses`, 11 R386. -/
abbrev rackingTlbMisses : Nat := 0x400080
/-- `racking.walk_reads`, 11 R386. -/
abbrev rackingWalkReads : Nat := 0x4000A0
/-- `racking.notices_dropped`, 11 R386. -/
abbrev rackingNoticesDropped : Nat := 0x4000B0
/-- `racking.flow_ring`, 11 R386. -/
abbrev rackingFlowRing : Nat := 0x400100
/-- `racking.flow_compress`, 11 R386. -/
abbrev rackingFlowCompress : Nat := 0x400110
/-- `racking.flow_policy`, 11 R386. -/
abbrev rackingFlowPolicy : Nat := 0x400120
/-- `racking.flow_replay_host`, 11 R386. -/
abbrev rackingFlowReplayHost : Nat := 0x400130
/-- `racking.flow_delivered`, 11 R386. -/
abbrev rackingFlowDelivered : Nat := 0x400140
/-- `racking.flow_in_bytes`, 11 R386. -/
abbrev rackingFlowInBytes : Nat := 0x400150
/-- `racking.flow_out_bytes`, 11 R386. -/
abbrev rackingFlowOutBytes : Nat := 0x400160
/-- `racking.flow_dropped_oldest`, 11 R386. -/
abbrev rackingFlowDroppedOldest : Nat := 0x400170
/-- `racking.ring_enable`, 11 R386. -/
abbrev rackingRingEnable : Nat := 0x400200
/-- `racking.ring_dir`, 11 R386. -/
abbrev rackingRingDir : Nat := 0x400210
/-- `racking.ring_dir_entries`, 11 R386. -/
abbrev rackingRingDirEntries : Nat := 0x400220
/-- `racking.ring_page`, 11 R386. -/
abbrev rackingRingPage : Nat := 0x400230
/-- `racking.ring_slots`, 11 R386. -/
abbrev rackingRingSlots : Nat := 0x400240
/-- `racking.ring_slot_bytes`, 11 R386. -/
abbrev rackingRingSlotBytes : Nat := 0x400250
/-- `racking.ring_cq`, 11 R386. -/
abbrev rackingRingCq : Nat := 0x400260
/-- `racking.ring_order`, 11 R386. -/
abbrev rackingRingOrder : Nat := 0x400270
/-- `racking.ring_weight`, 11 R386. -/
abbrev rackingRingWeight : Nat := 0x400280
/-- `racking.ring_high`, 11 R386. -/
abbrev rackingRingHigh : Nat := 0x400290
/-- `racking.ring_low`, 11 R386. -/
abbrev rackingRingLow : Nat := 0x4002A0
/-- `racking.ring_level`, 11 R386. -/
abbrev rackingRingLevel : Nat := 0x4002B0
/-- `racking.ring_state`, 11 R386. -/
abbrev rackingRingState : Nat := 0x4002C0
/-- `racking.ring_fault`, 11 R386. -/
abbrev rackingRingFault : Nat := 0x4002D0
/-- `racking.ring_lost_notices`, 11 R386. -/
abbrev rackingRingLostNotices : Nat := 0x4002E0
/-- `racking.ring_delivered`, 11 R386. -/
abbrev rackingRingDelivered : Nat := 0x4002F0
/-- `racking.cq_base`, 11 R386. -/
abbrev rackingCqBase : Nat := 0x400400
/-- `racking.cq_entries`, 11 R386. -/
abbrev rackingCqEntries : Nat := 0x400410
/-- `racking.cq_enable`, 11 R386. -/
abbrev rackingCqEnable : Nat := 0x400420
/-- `racking.cq_state`, 11 R386. -/
abbrev rackingCqState : Nat := 0x400430
/-- `racking.cq_full_stalls`, 11 R386. -/
abbrev rackingCqFullStalls : Nat := 0x400440
/-- `racking.exc_dir`, 11 R386. -/
abbrev rackingExcDir : Nat := 0x400500
/-- `racking.exc_dir_entries`, 11 R386. -/
abbrev rackingExcDirEntries : Nat := 0x400510
/-- `racking.exc_page`, 11 R386. -/
abbrev rackingExcPage : Nat := 0x400520
/-- `racking.exc_entries`, 11 R386. -/
abbrev rackingExcEntries : Nat := 0x400530
/-- `racking.exc_entry_bytes`, 11 R386. -/
abbrev rackingExcEntryBytes : Nat := 0x400540
/-- `racking.exc_enable`, 11 R386. -/
abbrev rackingExcEnable : Nat := 0x400550
/-- `racking.exc_state`, 11 R386. -/
abbrev rackingExcState : Nat := 0x400560
/-- `racking.exc_dropped`, 11 R386. -/
abbrev rackingExcDropped : Nat := 0x400570
/-- `racking.exc_written`, 11 R386. -/
abbrev rackingExcWritten : Nat := 0x400580
/-- `tap.status`, 12 R412. -/
abbrev tapStatus : Nat := 0x480000
/-- `tap.state`, 12 R412. -/
abbrev tapState : Nat := 0x480010
/-- `tap.source`, 12 R412. -/
abbrev tapSource : Nat := 0x480020
/-- `tap.width`, 12 R412. -/
abbrev tapWidth : Nat := 0x480030
/-- `tap.height`, 12 R412. -/
abbrev tapHeight : Nat := 0x480040
/-- `tap.pixel_format`, 12 R412. -/
abbrev tapPixelFormat : Nat := 0x480050
/-- `tap.rate_num`, 12 R412. -/
abbrev tapRateNum : Nat := 0x480060
/-- `tap.rate_den`, 12 R412. -/
abbrev tapRateDen : Nat := 0x480070
/-- `tap.pattern_block`, 12 R412. -/
abbrev tapPatternBlock : Nat := 0x480080
/-- `tap.ref_addr`, 12 R412. -/
abbrev tapRefAddr : Nat := 0x480090
/-- `tap.ref_frames`, 12 R412. -/
abbrev tapRefFrames : Nat := 0x4800A0
/-- `tap.ref_frame_bytes`, 12 R412. -/
abbrev tapRefFrameBytes : Nat := 0x4800B0
/-- `tap.src_flow`, 12 R412. -/
abbrev tapSrcFlow : Nat := 0x4800C0
/-- `tap.replay_loop`, 12 R412. -/
abbrev tapReplayLoop : Nat := 0x4800D0
/-- `tap.model`, 12 R412. -/
abbrev tapModel : Nat := 0x480100
/-- `tap.active_num`, 12 R412. -/
abbrev tapActiveNum : Nat := 0x480110
/-- `tap.active_den`, 12 R412. -/
abbrev tapActiveDen : Nat := 0x480120
/-- `tap.tr_offset_ns`, 12 R412. -/
abbrev tapTrOffsetNs : Nat := 0x480130
/-- `tap.packing`, 12 R412. -/
abbrev tapPacking : Nat := 0x480140
/-- `tap.payload_bytes`, 12 R412. -/
abbrev tapPayloadBytes : Nat := 0x480150
/-- `tap.gvsp_packet_bytes`, 12 R412. -/
abbrev tapGvspPacketBytes : Nat := 0x480160
/-- `tap.gvsp_ext_id`, 12 R412. -/
abbrev tapGvspExtId : Nat := 0x480170
/-- `tap.bayer_order`, 12 R412. -/
abbrev tapBayerOrder : Nat := 0x480180
/-- `tap.late_limit_ns`, 12 R412. -/
abbrev tapLateLimitNs : Nat := 0x480190
/-- `tap.gvsp_gap_ns`, 12 R412. -/
abbrev tapGvspGapNs : Nat := 0x4801A0
/-- `tap.start_mode`, 12 R412. -/
abbrev tapStartMode : Nat := 0x480200
/-- `tap.start_at`, 12 R412. -/
abbrev tapStartAt : Nat := 0x480210
/-- `tap.stop_at`, 12 R412. -/
abbrev tapStopAt : Nat := 0x480220
/-- `tap.frame_count`, 12 R412. -/
abbrev tapFrameCount : Nat := 0x480230
/-- `tap.trigger_delay_ns`, 12 R412. -/
abbrev tapTriggerDelayNs : Nat := 0x480240
/-- `tap.block_lines`, 12 R412. -/
abbrev tapBlockLines : Nat := 0x480250
/-- `tap.loopback`, 12 R412. -/
abbrev tapLoopback : Nat := 0x480260
/-- `tap.underrun_action`, 12 R412. -/
abbrev tapUnderrunAction : Nat := 0x480270
/-- `tap.host_empty`, 12 R412. -/
abbrev tapHostEmpty : Nat := 0x480280
/-- `tap.buffer_kib`, 12 R412. -/
abbrev tapBufferKib : Nat := 0x480300
/-- `tap.low_kib`, 12 R412. -/
abbrev tapLowKib : Nat := 0x480310
/-- `tap.high_kib`, 12 R412. -/
abbrev tapHighKib : Nat := 0x480320
/-- `tap.level_bytes`, 12 R412. -/
abbrev tapLevelBytes : Nat := 0x480330
/-- `tap.host_dir`, 12 R412. -/
abbrev tapHostDir : Nat := 0x480400
/-- `tap.host_dir_entries`, 12 R412. -/
abbrev tapHostDirEntries : Nat := 0x480410
/-- `tap.host_page`, 12 R412. -/
abbrev tapHostPage : Nat := 0x480420
/-- `tap.host_slots`, 12 R412. -/
abbrev tapHostSlots : Nat := 0x480430
/-- `tap.host_slot_bytes`, 12 R412. -/
abbrev tapHostSlotBytes : Nat := 0x480440
/-- `tap.host_enable`, 12 R412. -/
abbrev tapHostEnable : Nat := 0x480450
/-- `tap.frames_sent`, 12 R412. -/
abbrev tapFramesSent : Nat := 0x480500
/-- `tap.frame_number`, 12 R412. -/
abbrev tapFrameNumber : Nat := 0x480510
/-- `tap.late_packets`, 12 R412. -/
abbrev tapLatePackets : Nat := 0x480520
/-- `tap.underruns`, 12 R412. -/
abbrev tapUnderruns : Nat := 0x480530
/-- `tap.frames_skipped`, 12 R412. -/
abbrev tapFramesSkipped : Nat := 0x480540
/-- `tap.cut_frames`, 12 R412. -/
abbrev tapCutFrames : Nat := 0x480550
/-- `tap.paused_drops`, 12 R412. -/
abbrev tapPausedDrops : Nat := 0x480560
/-- `tap.down_drops`, 12 R412. -/
abbrev tapDownDrops : Nat := 0x480570
/-- `tap.poisoned_units`, 12 R412. -/
abbrev tapPoisonedUnits : Nat := 0x480580
/-- `tap.replay_mismatch`, 12 R412. -/
abbrev tapReplayMismatch : Nat := 0x480590
/-- `tap.raw_frame`, 12 R412. -/
abbrev tapRawFrame : Nat := 0x480F00
/-- `pattern.offset`, 12 R413. -/
abbrev patternOffset : Nat := 0x4C0000
/-- `pattern.cfa`, 12 R413. -/
abbrev patternCfa : Nat := 0x4C0010
/-- `pattern.kind`, 12 R413. -/
abbrev patternKind : Nat := 0x4C0100
/-- `pattern.amp`, 12 R413. -/
abbrev patternAmp : Nat := 0x4C0110
/-- `pattern.param`, 12 R413. -/
abbrev patternParam : Nat := 0x4C0120
/-- `pattern.selftest`, 12 R413. -/
abbrev patternSelftest : Nat := 0x4C0200
/-- `hydro.status`, 13 R434. -/
abbrev hydroStatus : Nat := 0x500000
/-- `hydro.flow_set`, 13 R434. -/
abbrev hydroFlowSet : Nat := 0x500010
/-- `hydro.golden_deadline_us`, 13 R434. -/
abbrev hydroGoldenDeadlineUs : Nat := 0x500020
/-- `hydro.selftest`, 13 R434. -/
abbrev hydroSelftest : Nat := 0x500030
/-- `hydro.overloads`, 13 R434. -/
abbrev hydroOverloads : Nat := 0x500040
/-- `hydro.golden_late`, 13 R434. -/
abbrev hydroGoldenLate : Nat := 0x500050
/-- `hydro.golden_errors`, 13 R434. -/
abbrev hydroGoldenErrors : Nat := 0x500060
/-- `hydro.ref`, 13 R434. -/
abbrev hydroRef : Nat := 0x500100
/-- `hydro.align`, 13 R434. -/
abbrev hydroAlign : Nat := 0x500110
/-- `hydro.f_offset`, 13 R434. -/
abbrev hydroFOffset : Nat := 0x500120
/-- `hydro.pair_tx`, 13 R434. -/
abbrev hydroPairTx : Nat := 0x500130
/-- `hydro.pattern_block`, 13 R434. -/
abbrev hydroPatternBlock : Nat := 0x500140
/-- `hydro.golden_addr`, 13 R434. -/
abbrev hydroGoldenAddr : Nat := 0x500150
/-- `hydro.golden_frames`, 13 R434. -/
abbrev hydroGoldenFrames : Nat := 0x500160
/-- `hydro.golden_frame_bytes`, 13 R434. -/
abbrev hydroGoldenFrameBytes : Nat := 0x500170
/-- `hydro.width`, 13 R434. -/
abbrev hydroWidth : Nat := 0x500180
/-- `hydro.height`, 13 R434. -/
abbrev hydroHeight : Nat := 0x500190
/-- `hydro.pixel_format`, 13 R434. -/
abbrev hydroPixelFormat : Nat := 0x5001A0
/-- `hydro.rate_num`, 13 R434. -/
abbrev hydroRateNum : Nat := 0x5001B0
/-- `hydro.rate_den`, 13 R434. -/
abbrev hydroRateDen : Nat := 0x5001C0
/-- `hydro.crc_check`, 13 R434. -/
abbrev hydroCrcCheck : Nat := 0x5001D0
/-- `hydro.crc_value`, 13 R434. -/
abbrev hydroCrcValue : Nat := 0x5001E0
/-- `hydro.bitmap_thr`, 13 R434. -/
abbrev hydroBitmapThr : Nat := 0x5001F0
/-- `hydro.reg_enable`, 13 R434. -/
abbrev hydroRegEnable : Nat := 0x500300
/-- `hydro.reg_rect`, 13 R434. -/
abbrev hydroRegRect : Nat := 0x500310
/-- `hydro.reg_components`, 13 R434. -/
abbrev hydroRegComponents : Nat := 0x500320
/-- `hydro.reg_threshold`, 13 R434. -/
abbrev hydroRegThreshold : Nat := 0x500330
/-- `hydro.reg_allow`, 13 R434. -/
abbrev hydroRegAllow : Nat := 0x500340
/-- `hydro.reg_mse_max`, 13 R434. -/
abbrev hydroRegMseMax : Nat := 0x500350
/-- `hydro.reg_mean_max`, 13 R434. -/
abbrev hydroRegMeanMax : Nat := 0x500360
/-- `hydro.timing`, 13 R434. -/
abbrev hydroTiming : Nat := 0x500400
/-- `hydro.timing_model`, 13 R434. -/
abbrev hydroTimingModel : Nat := 0x500410
/-- `hydro.timing_active_num`, 13 R434. -/
abbrev hydroTimingActiveNum : Nat := 0x500420
/-- `hydro.timing_active_den`, 13 R434. -/
abbrev hydroTimingActiveDen : Nat := 0x500430
/-- `hydro.timing_tr_offset_ns`, 13 R434. -/
abbrev hydroTimingTrOffsetNs : Nat := 0x500440
/-- `hydro.cmax`, 13 R434. -/
abbrev hydroCmax : Nat := 0x500450
/-- `hydro.vrx_full`, 13 R434. -/
abbrev hydroVrxFull : Nat := 0x500460
/-- `hydro.result`, 13 R434. -/
abbrev hydroResult : Nat := 0x500500
/-- `hydro.result_next`, 13 R434. -/
abbrev hydroResultNext : Nat := 0x500510
/-- `hydro.bitmap`, 13 R434. -/
abbrev hydroBitmap : Nat := 0x500520
/-- `hydro.line_crc`, 13 R434. -/
abbrev hydroLineCrc : Nat := 0x500530
/-- `hydro.frames_judged`, 13 R434. -/
abbrev hydroFramesJudged : Nat := 0x500600
/-- `hydro.frames_failed`, 13 R434. -/
abbrev hydroFramesFailed : Nat := 0x500610
/-- `hydro.frames_not_judged`, 13 R434. -/
abbrev hydroFramesNotJudged : Nat := 0x500620
/-- `hydro.timing_failures`, 13 R434. -/
abbrev hydroTimingFailures : Nat := 0x500630
/-- `hydro.frames_partial`, 13 R434. -/
abbrev hydroFramesPartial : Nat := 0x500640
/-- `pos.status`, 14 R462. -/
abbrev posStatus : Nat := 0x580000
/-- `pos.enable`, 14 R462. -/
abbrev posEnable : Nat := 0x580010
/-- `pos.interp`, 14 R462. -/
abbrev posInterp : Nat := 0x580020
/-- `pos.invert`, 14 R462. -/
abbrev posInvert : Nat := 0x580030
/-- `pos.off_s`, 14 R462. -/
abbrev posOffS : Nat := 0x580040
/-- `pos.off_c`, 14 R462. -/
abbrev posOffC : Nat := 0x580050
/-- `pos.gain`, 14 R462. -/
abbrev posGain : Nat := 0x580060
/-- `pos.quad`, 14 R462. -/
abbrev posQuad : Nat := 0x580070
/-- `pos.autocal`, 14 R462. -/
abbrev posAutocal : Nat := 0x580080
/-- `pos.amp_min`, 14 R462. -/
abbrev posAmpMin : Nat := 0x580090
/-- `pos.amp_max`, 14 R462. -/
abbrev posAmpMax : Nat := 0x5800A0
/-- `pos.termination`, 14 R462. -/
abbrev posTermination : Nat := 0x5800B0
/-- `pos.latency_ns`, 14 R462. -/
abbrev posLatencyNs : Nat := 0x5800C0
/-- `pos.position`, 14 R462. -/
abbrev posPosition : Nat := 0x580100
/-- `pos.position_valid`, 14 R462. -/
abbrev posPositionValid : Nat := 0x580110
/-- `pos.phase`, 14 R462. -/
abbrev posPhase : Nat := 0x580120
/-- `pos.amplitude`, 14 R462. -/
abbrev posAmplitude : Nat := 0x580130
/-- `pos.speed`, 14 R462. -/
abbrev posSpeed : Nat := 0x580140
/-- `pos.speed_valid`, 14 R462. -/
abbrev posSpeedValid : Nat := 0x580150
/-- `pos.dir`, 14 R462. -/
abbrev posDir : Nat := 0x580160
/-- `pos.speed_method`, 14 R462. -/
abbrev posSpeedMethod : Nat := 0x580170
/-- `pos.speed_switch_ns`, 14 R462. -/
abbrev posSpeedSwitchNs : Nat := 0x580180
/-- `pos.count_window_us`, 14 R462. -/
abbrev posCountWindowUs : Nat := 0x580190
/-- `pos.standstill_ms`, 14 R462. -/
abbrev posStandstillMs : Nat := 0x5801A0
/-- `pos.crossings`, 14 R462. -/
abbrev posCrossings : Nat := 0x5801B0
/-- `pos.reversals`, 14 R462. -/
abbrev posReversals : Nat := 0x5801C0
/-- `pos.ref_mode`, 14 R462. -/
abbrev posRefMode : Nat := 0x580200
/-- `pos.ref_threshold`, 14 R462. -/
abbrev posRefThreshold : Nat := 0x580210
/-- `pos.ref_gate`, 14 R462. -/
abbrev posRefGate : Nat := 0x580220
/-- `pos.ref_preset`, 14 R462. -/
abbrev posRefPreset : Nat := 0x580230
/-- `pos.ref_position`, 14 R462. -/
abbrev posRefPosition : Nat := 0x580240
/-- `pos.ref_time`, 14 R462. -/
abbrev posRefTime : Nat := 0x580250
/-- `pos.ref_count`, 14 R462. -/
abbrev posRefCount : Nat := 0x580260
/-- `pos.quad_enable`, 14 R462. -/
abbrev posQuadEnable : Nat := 0x580300
/-- `pos.quad_edges`, 14 R462. -/
abbrev posQuadEdges : Nat := 0x580310
/-- `pos.quad_min_ns`, 14 R462. -/
abbrev posQuadMinNs : Nat := 0x580320
/-- `pos.quad_lag`, 14 R462. -/
abbrev posQuadLag : Nat := 0x580330
/-- `pos.quad_z`, 14 R462. -/
abbrev posQuadZ : Nat := 0x580340
/-- `pos.query_at`, 14 R462. -/
abbrev posQueryAt : Nat := 0x580360
/-- `pos.query_position`, 14 R462. -/
abbrev posQueryPosition : Nat := 0x580370
/-- `pos.query_valid`, 14 R462. -/
abbrev posQueryValid : Nat := 0x580380
/-- `pos.faults`, 14 R462. -/
abbrev posFaults : Nat := 0x580400
/-- `pos.fault_cause`, 14 R462. -/
abbrev posFaultCause : Nat := 0x580410
/-- `pos.retired`, 14 R462. -/
abbrev posRetired : Nat := 0x580420
/-- `pos.reinstate`, 14 R462. -/
abbrev posReinstate : Nat := 0x580430
/-- `pos.cmp_mode`, 14 R463. -/
abbrev posCmpMode : Nat := 0x581000
/-- `pos.cmp_channel`, 14 R463. -/
abbrev posCmpChannel : Nat := 0x581010
/-- `pos.cmp_sense`, 14 R463. -/
abbrev posCmpSense : Nat := 0x581020
/-- `pos.cmp_target`, 14 R463. -/
abbrev posCmpTarget : Nat := 0x581030
/-- `pos.cmp_period`, 14 R463. -/
abbrev posCmpPeriod : Nat := 0x581040
/-- `pos.cmp_count`, 14 R463. -/
abbrev posCmpCount : Nat := 0x581050
/-- `pos.cmp_arm`, 14 R463. -/
abbrev posCmpArm : Nat := 0x581060
/-- `pos.cmp_fire_if_behind`, 14 R463. -/
abbrev posCmpFireIfBehind : Nat := 0x581070
/-- `pos.cmp_hyst`, 14 R463. -/
abbrev posCmpHyst : Nat := 0x581080
/-- `pos.cmp_list_base`, 14 R463. -/
abbrev posCmpListBase : Nat := 0x581090
/-- `pos.cmp_list_len`, 14 R463. -/
abbrev posCmpListLen : Nat := 0x5810A0
/-- `pos.cmp_list_loop`, 14 R463. -/
abbrev posCmpListLoop : Nat := 0x5810B0
/-- `pos.cmp_state`, 14 R463. -/
abbrev posCmpState : Nat := 0x5810C0
/-- `pos.cmp_status`, 14 R463. -/
abbrev posCmpStatus : Nat := 0x5810D0
/-- `pos.cmp_fires`, 14 R463. -/
abbrev posCmpFires : Nat := 0x5810E0
/-- `pos.cmp_catchup`, 14 R463. -/
abbrev posCmpCatchup : Nat := 0x5810F0
/-- `pos.cmp_index`, 14 R463. -/
abbrev posCmpIndex : Nat := 0x581100
/-- `pos.cmp_last_time`, 14 R463. -/
abbrev posCmpLastTime : Nat := 0x581110
/-- `pos.list`, 14 R463. -/
abbrev posList : Nat := 0x581F00
/-- `lamp.status`, 15 R478. -/
abbrev lampStatus : Nat := 0x600000
/-- `lamp.state`, 15 R478. -/
abbrev lampState : Nat := 0x600010
/-- `lamp.enable`, 15 R478. -/
abbrev lampEnable : Nat := 0x600020
/-- `lamp.width_ns`, 15 R478. -/
abbrev lampWidthNs : Nat := 0x600030
/-- `lamp.min_interval_ns`, 15 R478. -/
abbrev lampMinIntervalNs : Nat := 0x600040
/-- `lamp.require_head`, 15 R478. -/
abbrev lampRequireHead : Nat := 0x600060
/-- `lamp.life_override`, 15 R478. -/
abbrev lampLifeOverride : Nat := 0x600070
/-- `lamp.ilimit_ma`, 15 R478. -/
abbrev lampIlimitMa : Nat := 0x600080
/-- `lamp.isns_scale`, 15 R478. -/
abbrev lampIsnsScale : Nat := 0x600090
/-- `lamp.open_min_ma`, 15 R478. -/
abbrev lampOpenMinMa : Nat := 0x6000A0
/-- `lamp.flashes`, 15 R478. -/
abbrev lampFlashes : Nat := 0x600100
/-- `lamp.stored`, 15 R478. -/
abbrev lampStored : Nat := 0x600110
/-- `lamp.rated_life`, 15 R478. -/
abbrev lampRatedLife : Nat := 0x600120
/-- `lamp.head_max_width`, 15 R478. -/
abbrev lampHeadMaxWidth : Nat := 0x600130
/-- `lamp.head_max_duty`, 15 R478. -/
abbrev lampHeadMaxDuty : Nat := 0x600140
/-- `lamp.head_ilimit`, 15 R478. -/
abbrev lampHeadIlimit : Nat := 0x600150
/-- `lamp.head_vendor`, 15 R478. -/
abbrev lampHeadVendor : Nat := 0x600160
/-- `lamp.head_model`, 15 R478. -/
abbrev lampHeadModel : Nat := 0x600170
/-- `lamp.head_serial`, 15 R478. -/
abbrev lampHeadSerial : Nat := 0x600180
/-- `lamp.head_user`, 15 R478. -/
abbrev lampHeadUser : Nat := 0x600190
/-- `lamp.last_peak_ma`, 15 R478. -/
abbrev lampLastPeakMa : Nat := 0x600200
/-- `lamp.refused`, 15 R478. -/
abbrev lampRefused : Nat := 0x600210
/-- `lamp.writebacks`, 15 R478. -/
abbrev lampWritebacks : Nat := 0x600220
/-- `lamp.exchanges`, 15 R478. -/
abbrev lampExchanges : Nat := 0x600230
/-- `lamp.faults`, 15 R478. -/
abbrev lampFaults : Nat := 0x600240
/-- `lamp.fault_cause`, 15 R478. -/
abbrev lampFaultCause : Nat := 0x600250
/-- `lamp.retired`, 15 R478. -/
abbrev lampRetired : Nat := 0x600260
/-- `lamp.reinstate`, 15 R478. -/
abbrev lampReinstate : Nat := 0x600270
/-- `lamp.default_life`, 15 R478. -/
abbrev lampDefaultLife : Nat := 0x600280
/-- `lamp.intlk_level`, 15 R478. -/
abbrev lampIntlkLevel : Nat := 0x600300
/-- `lamp.intlk_changes`, 15 R478. -/
abbrev lampIntlkChanges : Nat := 0x600310
/-- `hostlink.status`, 16 R503. -/
abbrev hostlinkStatus : Nat := 0x680000
/-- `hostlink.link_speed`, 16 R503. -/
abbrev hostlinkLinkSpeed : Nat := 0x680010
/-- `hostlink.link_width`, 16 R503. -/
abbrev hostlinkLinkWidth : Nat := 0x680020
/-- `hostlink.flit_mode`, 16 R503. -/
abbrev hostlinkFlitMode : Nat := 0x680030
/-- `hostlink.max_speed`, 16 R503. -/
abbrev hostlinkMaxSpeed : Nat := 0x680040
/-- `hostlink.tags_available`, 16 R503. -/
abbrev hostlinkTagsAvailable : Nat := 0x680050
/-- `hostlink.tags_in_flight`, 16 R503. -/
abbrev hostlinkTagsInFlight : Nat := 0x680060
/-- `hostlink.tags_quarantined`, 16 R503. -/
abbrev hostlinkTagsQuarantined : Nat := 0x680070
/-- `hostlink.cpl_timeout_us`, 16 R503. -/
abbrev hostlinkCplTimeoutUs : Nat := 0x680080
/-- `hostlink.cpl_timeouts`, 16 R503. -/
abbrev hostlinkCplTimeouts : Nat := 0x680090
/-- `hostlink.late_completions`, 16 R503. -/
abbrev hostlinkLateCompletions : Nat := 0x6800A0
/-- `hostlink.discarded_completions`, 16 R503. -/
abbrev hostlinkDiscardedCompletions : Nat := 0x6800B0
/-- `hostlink.poisoned_completions`, 16 R503. -/
abbrev hostlinkPoisonedCompletions : Nat := 0x6800C0
/-- `hostlink.stopped`, 16 R503. -/
abbrev hostlinkStopped : Nat := 0x6800D0
/-- `hostlink.flr_count`, 16 R503. -/
abbrev hostlinkFlrCount : Nat := 0x6800E0
/-- `hostlink.link_downs`, 16 R503. -/
abbrev hostlinkLinkDowns : Nat := 0x6800F0
/-- `hostlink.bar2_size`, 16 R503. -/
abbrev hostlinkBar2Size : Nat := 0x680100
/-- `hostlink.bar2_size_active`, 16 R503. -/
abbrev hostlinkBar2SizeActive : Nat := 0x680110
/-- `hostlink.bar2_refused`, 16 R503. -/
abbrev hostlinkBar2Refused : Nat := 0x680120
/-- `hostlink.bar0_partial`, 16 R503. -/
abbrev hostlinkBar0Partial : Nat := 0x680130
/-- `hostlink.win_target`, 16 R503. -/
abbrev hostlinkWinTarget : Nat := 0x680200
/-- `hostlink.win_size`, 16 R503. -/
abbrev hostlinkWinSize : Nat := 0x680210
/-- `hostlink.win_attr`, 16 R503. -/
abbrev hostlinkWinAttr : Nat := 0x680220
/-- `hostlink.subsys_vendor`, 16 R503. -/
abbrev hostlinkSubsysVendor : Nat := 0x680300
/-- `hostlink.subsys_id`, 16 R503. -/
abbrev hostlinkSubsysId : Nat := 0x680310
/-- `hostlink.int_mode`, 16 R503. -/
abbrev hostlinkIntMode : Nat := 0x680400
/-- `hostlink.msi_vectors`, 16 R503. -/
abbrev hostlinkMsiVectors : Nat := 0x680410
/-- `faults.retry_limit`, 17 R522. -/
abbrev faultsRetryLimit : Nat := 0x700000
/-- `faults.retry_window`, 17 R522. -/
abbrev faultsRetryWindow : Nat := 0x700010
/-- `faults.retire_persist`, 17 R522. -/
abbrev faultsRetirePersist : Nat := 0x700020
/-- `faults.flow_retire`, 17 R522. -/
abbrev faultsFlowRetire : Nat := 0x700030
/-- `faults.reinstate`, 17 R522. -/
abbrev faultsReinstate : Nat := 0x700040
/-- `faults.list_clear`, 17 R522. -/
abbrev faultsListClear : Nat := 0x700050
/-- `faults.retired_list`, 17 R522. -/
abbrev faultsRetiredList : Nat := 0x700100
/-- `faults.retired_count`, 17 R522. -/
abbrev faultsRetiredCount : Nat := 0x700110
/-- `faults.log`, 17 R522. -/
abbrev faultsLog : Nat := 0x700200
/-- `faults.log_total`, 17 R522. -/
abbrev faultsLogTotal : Nat := 0x700210
/-- `faults.alert_mask`, 17 R522. -/
abbrev faultsAlertMask : Nat := 0x700300
/-- `faults.alert_status`, 17 R522. -/
abbrev faultsAlertStatus : Nat := 0x700310
/-- `power.status`, 17 R523. -/
abbrev powerStatus : Nat := 0x740000
/-- `power.die_temp`, 17 R523. -/
abbrev powerDieTemp : Nat := 0x740010
/-- `power.die_sensor`, 17 R523. -/
abbrev powerDieSensor : Nat := 0x740020
/-- `power.temp_warn`, 17 R523. -/
abbrev powerTempWarn : Nat := 0x740030
/-- `power.sag_count`, 17 R523. -/
abbrev powerSagCount : Nat := 0x740110
/-- `power.steps_half`, 17 R523. -/
abbrev powerStepsHalf : Nat := 0x740120
/-- `power.sag_mv`, 17 R523. -/
abbrev powerSagMv : Nat := 0x740130
/-- `power.sag_deep_mv`, 17 R523. -/
abbrev powerSagDeepMv : Nat := 0x740140
/-- `power.thermal_warnings`, 17 R523. -/
abbrev powerThermalWarnings : Nat := 0x740150

end Oid

/-- Rows of group 0x00, part 1. -/
def objRows00_0 : List ObjRow := [
  ⟨0x000000, (.str 32), accRo, 0, 0, .any, false⟩, -- identity.vendor
  ⟨0x000010, (.str 16), accRo, 0, 0, .any, false⟩, -- identity.part
  ⟨0x000020, .u8, accRo, 0, 177, .any, false⟩, -- identity.stepping
  ⟨0x000030, (.str 24), accRo, 0, 0, .any, false⟩ -- identity.serial
]

/-- The object table of group 0x00. -/
def objRows00 : List ObjRow := objRows00_0

/-- Rows of group 0x01, part 1. -/
def objRows01_0 : List ObjRow := [
  ⟨0x010100, (.bitset 2), accRo, 0, 0x19, .any, false⟩, -- modes.domains_running
  ⟨0x010000, .enum, accRo, 0, 1, .any, false⟩, -- modes.current
  ⟨0x010010, .enum, accRw, 0, 3, (.codes [0, 1, 2, 3, 4, 5, 6, 7, 8, 9, 10, 11] []), false⟩, -- modes.request
  ⟨0x010020, .enum, accRo, 0, 0, .any, false⟩, -- modes.transition
  ⟨0x010030, .enum, accRwP, 0, 3, (.codes [2, 3] []), false⟩, -- modes.boot_target
  ⟨0x010040, .bool, accRwP, 0, 0, (.range 0 1 []), false⟩, -- modes.lanes_warm
  ⟨0x010050, .enum, accRwP, 0, 0, (.codes [0, 1] []), false⟩, -- modes.dormant_hbm
  ⟨0x010060, .bool, accRw, 0, 1, (.range 0 1 []), false⟩, -- modes.drain_on_stop
  ⟨0x010070, .u32, accWo, 0, 0, (.key 1463898701), false⟩, -- modes.reset
  ⟨0x010080, .u32, accWo, 0, 0, (.key 1397249364), false⟩, -- modes.shutdown
  ⟨0x010090, .bool, accRo, 0, 0, .any, false⟩, -- modes.shutdown_done
  ⟨0x0100A0, .time96, accRo, 0, 0, .any, false⟩, -- modes.last_change
  ⟨0x0100B0, .enum, accRo, 0, 0, .any, false⟩, -- modes.reset_cause
  ⟨0x0100C0, (.bitset 2), accRo, 0, 0, .any, false⟩, -- modes.limp_cause
  ⟨0x0100D0, (.bitset 2), accRo, 0, 0, .any, false⟩, -- modes.halt_cause
  ⟨0x0100E0, (.bitset 2), accRwP, 0, 7, (.bits 7 0), false⟩ -- modes.wake_sources
]

/-- Rows of group 0x01, part 2. -/
def objRows01_1 : List ObjRow := [
  ⟨0x010200, .time96, accRw, 0, 0, .any, false⟩, -- modes.wake_at
  ⟨0x010210, .bool, accRw, 0, 0, (.range 0 1 []), false⟩, -- modes.wake_enable
  ⟨0x010220, (.bitset 2), accRw, 0, 0, (.bits 3 3), false⟩, -- modes.wake_status
  ⟨0x010300, (.bitset 2), accRo, 0, 0, .any, false⟩, -- modes.boot_status
  ⟨0x010310, .enum, accRo, 0, 0, .any, false⟩, -- modes.boot_slot
  ⟨0x010320, .enum, accRwP, 0, 0, (.codes [0, 1] []), false⟩, -- modes.preferred_slot
  ⟨0x010330, .u32, accRo, 0, 0, .any, false⟩, -- modes.boot_time
  ⟨0x010400, (.blob 16777216), accWo, 0, 0, .any, false⟩, -- modes.fw_image
  ⟨0x010410, .u32, accWo, 0, 0, (.key 1129270612), false⟩, -- modes.fw_commit
  ⟨0x010420, .enum, accRo, 0, 0, .any, false⟩ -- modes.fw_update_status
]

/-- The object table of group 0x01. -/
def objRows01 : List ObjRow := objRows01_0 ++ objRows01_1

/-- Rows of group 0x02, part 1. -/
def objRows02_0 : List ObjRow := [
  ⟨0x020000, .u16, accRo, 0, 1, .any, false⟩, -- dict.version
  ⟨0x020010, .u32, accRo, 0, 0, .any, false⟩, -- dict.object_count
  ⟨0x020120, .u32, accRo, 0, 0, .any, true⟩, -- dict.mb_overruns
  ⟨0x020300, .u32, accRwdP, 0, 3232235620, .any, false⟩, -- dict.mgmt_ipv4
  ⟨0x020310, .u32, accRwdP, 0, 4294967040, .any, false⟩, -- dict.mgmt_netmask
  ⟨0x020320, .u64, accRo, 0, 0, .any, false⟩, -- dict.mgmt_mac
  ⟨0x020400, .u32, accRwP, 0, 60000, (.range 1000 3600000 []), false⟩, -- dict.session_timeout
  ⟨0x020410, .u8, accRo, 0, 0, .any, false⟩, -- dict.sessions_open
  ⟨0x020500, (.blob 32), accWoSP, 8, 0, .any, false⟩, -- dict.key
  ⟨0x020510, .enum, accRwSP, 8, 0, (.codes [0, 1, 2] []), false⟩, -- dict.key_class
  ⟨0x020520, .bool, accRwSP, 0, 0, (.range 0 1 []), false⟩, -- dict.key_lock
  ⟨0x020600, .u64, accRo, 0, 0, .any, true⟩, -- dict.auth_failures
  ⟨0x020610, .u64, accRo, 0, 0, .any, true⟩, -- dict.replays
  ⟨0x020620, .u64, accRo, 0, 0, .any, true⟩, -- dict.linob_malformed
  ⟨0x020630, .u16, accRo, 0, 0, .any, false⟩, -- dict.subs_active
  ⟨0x020700, .u16, accRo, 0, 0, .any, false⟩ -- dict.bcast_status
]

/-- Rows of group 0x02, part 2. -/
def objRows02_1 : List ObjRow := [
  ⟨0x020800, .bool, accRo, 0, 0, .any, false⟩, -- dict.persist_pending
  ⟨0x020810, .u32, accWo, 0, 0, (.key 1129075280), false⟩, -- dict.persist_clear
  ⟨0x020820, .u64, accRo, 0, 0, .any, true⟩, -- dict.persist_writes
  ⟨0x020830, (.bitset 2), accRw, 0, 0, (.bits 1 1), false⟩ -- dict.persist_status
]

/-- The object table of group 0x02. -/
def objRows02 : List ObjRow := objRows02_0 ++ objRows02_1

/-- Rows of group 0x08, part 1. -/
def objRows08_0 : List ObjRow := [
  ⟨0x080000, .time96, accRo, 0, 0, .any, false⟩, -- time.now
  ⟨0x080010, .u32, accRo, 0, 0, .any, false⟩, -- time.short_now
  ⟨0x080020, .u64, accRw, 0, 34359738368, (.range 34187939676 34531537060 []), false⟩, -- time.increment
  ⟨0x080030, .q32, accWo, 0, 0, (.range (-9223372036854775808) 9223372036854775808 []), false⟩, -- time.step
  ⟨0x080040, .time96, accWo, 0, 0, .any, false⟩, -- time.set
  ⟨0x080060, .u32, accRo, 0, 0, .any, true⟩, -- time.step_count
  ⟨0x080070, (.bitset 2), accRw, 0, 0, (.bits 63 63), false⟩, -- time.status
  ⟨0x080080, .enum, accRwP, 0, 0, (.codes [0, 1, 2, 3] []), false⟩, -- time.source
  ⟨0x080090, .bool, accRo, 0, 0, .any, false⟩, -- time.locked
  ⟨0x0800A0, .q32, accRo, 0, 0, .any, false⟩, -- time.offset
  ⟨0x0800B0, .i32, accRw, 0, 37, (.range (-1000) 1000 []), false⟩, -- time.utc_offset
  ⟨0x0800C0, .time96, accRo, 0, 0, .any, false⟩, -- time.last_step
  ⟨0x080100, .enum, accRwP, 0, 65535, (.codeRange 0 63 [65535]), false⟩, -- time.ptp_port
  ⟨0x080110, .enum, accRwP, 0, 0, (.codes [0, 1] []), false⟩, -- time.ptp_profile
  ⟨0x080120, .enum, accRwP, 0, 0, (.codes [0, 1, 2] []), false⟩, -- time.ptp_role
  ⟨0x080130, .u8, accRwP, 0, 0, (.range 0 127 []), false⟩ -- time.ptp_domain
]

/-- Rows of group 0x08, part 2. -/
def objRows08_1 : List ObjRow := [
  ⟨0x080140, .enum, accRwP, 0, 1, (.codes [0, 1] []), false⟩, -- time.ptp_step_mode
  ⟨0x080150, .enum, accRwP, 0, 0, (.codes [0, 1] []), false⟩, -- time.ptp_transport
  ⟨0x080160, .u8, accRwP, 0, 128, .any, false⟩, -- time.ptp_priority1
  ⟨0x080170, .u8, accRwP, 0, 128, .any, false⟩, -- time.ptp_priority2
  ⟨0x080180, .i32, accRwP, 0, 0, (.range (-7) 1 []), false⟩, -- time.ptp_log_sync
  ⟨0x080190, .i32, accRwP, 0, 1, (.range (-3) 4 []), false⟩, -- time.ptp_log_announce
  ⟨0x0801A0, .u8, accRwP, 0, 3, (.range 2 10 []), false⟩, -- time.ptp_announce_timeout
  ⟨0x0801B0, .i32, accRwP, 0, 0, (.range (-7) 5 []), false⟩, -- time.ptp_log_delay_req
  ⟨0x0801C0, .enum, accRo, 0, 3, .any, false⟩, -- time.ptp_state
  ⟨0x0801D0, .q32, accRo, 0, 0, .any, false⟩, -- time.ptp_mean_delay
  ⟨0x0801E0, .i32, accRwP, 0, 0, (.range (-1000000) 1000000 []), false⟩, -- time.ptp_asymmetry
  ⟨0x0801F0, .u32, accRwP, 0, 1000000, .any, false⟩, -- time.step_threshold
  ⟨0x080200, .u32, accRwP, 0, 100, (.range 1 1000000 []), false⟩, -- time.lock_threshold
  ⟨0x080210, .u32, accRwP, 0, 10000, (.range 100 3600000 []), false⟩, -- time.holdover_limit
  ⟨0x080220, .u8, accRwP, 0, 248, .any, false⟩, -- time.ptp_clock_class
  ⟨0x080230, .u64, accRo, 0, 0, .any, true⟩ -- time.ptp_exceptions
]

/-- Rows of group 0x08, part 3. -/
def objRows08_2 : List ObjRow := [
  ⟨0x080300, .bool, accRwP, 0, 0, (.range 0 1 []), false⟩, -- time.pps_out_enable
  ⟨0x080310, .u32, accRwP, 0, 100000, (.range 8 500000000 []), false⟩, -- time.pps_out_width
  ⟨0x080320, .i32, accRwP, 0, 0, (.range (-500000000) 500000000 []), false⟩, -- time.pps_out_offset
  ⟨0x080330, .enum, accRwP, 0, 0, (.codes [0, 1] []), false⟩, -- time.pps_out_polarity
  ⟨0x080340, .enum, accRwP, 0, 0, (.codes [0, 1, 2] []), false⟩, -- time.pps_in_edge
  ⟨0x080350, .time96, accRo, 0, 0, .any, false⟩, -- time.pps_in_last
  ⟨0x080360, .u32, accRo, 0, 0, .any, true⟩, -- time.pps_in_extra
  ⟨0x080400, .u16, accRwdP, 0, 0, (.range 0 1023 []), false⟩, -- time.bh_address
  ⟨0x080410, .enum, accRwdP, 0, 65535, (.codeRange 0 15 [65535]), false⟩, -- time.bh_upstream
  ⟨0x080420, (.bitset 2), accRwdP, 0, 0, (.bits 65535 0), false⟩, -- time.bh_downstream
  ⟨0x080430, .u8, accRo, 0, 255, .any, false⟩, -- time.bh_level
  ⟨0x080440, .q32, accRo, 16, 0, .any, false⟩, -- time.bh_hop_delay
  ⟨0x080450, .i32, accRwP, 16, 0, (.range (-100000) 100000 []), false⟩, -- time.bh_asymmetry
  ⟨0x080460, .bool, accRo, 0, 0, .any, false⟩, -- time.bh_locked
  ⟨0x080470, .q32, accRo, 0, 0, .any, false⟩, -- time.bh_offset
  ⟨0x080480, .u16, accRo, 0, 0, .any, false⟩ -- time.bh_members
]

/-- Rows of group 0x08, part 4. -/
def objRows08_3 : List ObjRow := [
  ⟨0x080500, .enum, accRw, 64, 0, (.codes [0, 1, 2, 3] []), false⟩, -- time.cmp_mode
  ⟨0x080510, .time96, accRw, 64, 0, .any, false⟩, -- time.cmp_target
  ⟨0x080520, .u32, accRw, 64, 0, .any, false⟩, -- time.cmp_short
  ⟨0x080530, .u64, accRw, 64, 1000000, (.range 8 1099511627776 []), false⟩, -- time.cmp_period
  ⟨0x080540, (.bitset 2), accRw, 64, 0, (.bits 3 3), false⟩, -- time.cmp_status
  ⟨0x080550, .u32, accRo, 64, 0, .any, true⟩ -- time.cmp_catchup
]

/-- The object table of group 0x08. -/
def objRows08 : List ObjRow := objRows08_0 ++ objRows08_1 ++ objRows08_2 ++ objRows08_3

/-- Rows of group 0x0C, part 1. -/
def objRows0C_0 : List ObjRow := [
  ⟨0x0C0000, .u16, accRw, 640, 65535, (.range 0 255 [65535]), false⟩, -- events.src_channel
  ⟨0x0C0010, .u16, accRw, 640, 65535, (.range 0 2047 [65535]), false⟩, -- events.src_vector
  ⟨0x0C0030, .u32, accRo, 640, 0, .any, true⟩, -- events.src_count
  ⟨0x0C0100, .u16, accRw, 256, 65535, (.range 0 401 [65535]), false⟩, -- events.ch_consumer
  ⟨0x0C0110, .enum, accRw, 256, 0, (.codes [0, 1, 2, 3] []), false⟩, -- events.ch_owner
  ⟨0x0C0120, .bool, accRwS, 256, 0, (.range 0 1 []), false⟩, -- events.ch_secure
  ⟨0x0C0130, .bool, accRw, 256, 1, (.range 0 1 []), false⟩, -- events.ch_enable
  ⟨0x0C0140, .u8, accRw, 256, 32, (.range 1 125 []), false⟩, -- events.ch_storm_limit
  ⟨0x0C0150, (.bitset 2), accRw, 256, 0, (.bits 31 31), false⟩, -- events.ch_status
  ⟨0x0C0160, .u64, accRo, 256, 0, .any, true⟩, -- events.ch_count
  ⟨0x0C0170, .u32, accRo, 256, 0, .any, true⟩, -- events.ch_coincidence
  ⟨0x0C0180, .u32, accRo, 256, 0, .any, true⟩, -- events.ch_overflow
  ⟨0x0C0190, .time96, accRo, 256, 0, .any, false⟩, -- events.ch_last_time
  ⟨0x0C01A0, .u32, accRo, 256, 0, .any, true⟩, -- events.ch_disabled_drops
  ⟨0x0C0200, .u32, accWo, 256, 0, .any, false⟩, -- events.fire
  ⟨0x0C0210, (.bitset 8), accWo, 4, 0, (.bits 18446744073709551615 0), false⟩ -- events.fire_mask
]

/-- Rows of group 0x0C, part 2. -/
def objRows0C_1 : List ObjRow := [
  ⟨0x0C0220, .u32, accRo, 0, 0, .any, true⟩, -- events.fire_refused
  ⟨0x0C0300, .u16, accRw, 64, 0, .any, false⟩, -- events.grist_lut
  ⟨0x0C0310, .u8, accRw, 64, 0, (.fields 3 4), false⟩, -- events.grist_input_mode
  ⟨0x0C0320, .enum, accRw, 64, 0, (.codes [0, 1] []), false⟩, -- events.grist_register
  ⟨0x0C0330, .bool, accRw, 64, 0, (.range 0 1 []), false⟩, -- events.grist_d_select
  ⟨0x0C0340, .u8, accRw, 64, 0, .any, false⟩, -- events.grist_filter
  ⟨0x0C0350, .enum, accRw, 64, 0, (.codes [0, 1, 2] []), false⟩, -- events.grist_edge
  ⟨0x0C0360, .bool, accRw, 64, 0, (.range 0 1 []), false⟩, -- events.grist_q
  ⟨0x0C0400, .enum, accRwP, 16, 0, (.codes [0, 1, 2, 3] []), false⟩, -- events.trig_in_edge
  ⟨0x0C0410, .u8, accRwP, 16, 2, .any, false⟩, -- events.trig_in_filter
  ⟨0x0C0420, .u32, accRwP, 16, 1, (.range 1 125000000 []), false⟩, -- events.trig_in_min_interval
  ⟨0x0C0430, .u32, accRwP, 16, 0, (.range 0 60000 []), false⟩, -- events.trig_in_stuck
  ⟨0x0C0440, .u32, accRo, 16, 0, .any, true⟩, -- events.trig_in_excess
  ⟨0x0C0450, (.bitset 2), accRw, 16, 0, (.bits 3 3), false⟩, -- events.trig_in_status
  ⟨0x0C0460, .bool, accRo, 16, 0, .any, false⟩, -- events.trig_in_level
  ⟨0x0C0480, .enum, accRwP, 16, 0, (.codes [0, 1, 2, 3] []), false⟩ -- events.trig_out_mode
]

/-- Rows of group 0x0C, part 3. -/
def objRows0C_2 : List ObjRow := [
  ⟨0x0C0490, .u32, accRwP, 16, 1000, (.range 8 1000000000 []), false⟩, -- events.trig_out_width
  ⟨0x0C04A0, .enum, accRwP, 16, 0, (.codes [0, 1] []), false⟩, -- events.trig_out_polarity
  ⟨0x0C04C0, .u32, accRo, 0, 32, .any, false⟩, -- events.pin_latency
  ⟨0x0C0500, .u16, accRw, 16, 65535, (.range 0 255 [65535]), false⟩, -- events.export_channel
  ⟨0x0C0510, .u32, accRw, 16, 20000, (.range 14000 1000000000 []), false⟩, -- events.export_lead
  ⟨0x0C0530, .u32, accRo, 0, 0, .any, true⟩, -- events.late_triggers
  ⟨0x0C0540, .u8, accRo, 0, 0, .any, false⟩, -- events.triggers_scheduled
  ⟨0x0C0580, .time96, accRo, 32, 0, .any, false⟩, -- events.capture_time
  ⟨0x0C0590, .u32, accRo, 32, 0, .any, true⟩, -- events.capture_count
  ⟨0x0C0600, .u32, accRw, 16, 0, (.mask 3221229567), false⟩, -- events.flow_signal_sel
  ⟨0x0C0610, .u32, accRw, 32, 0, (.mask 3221229567), false⟩, -- events.flow_trigger_sel
  ⟨0x0C0700, .u16, accRw, 2048, 1, (.range 1 65535 []), false⟩, -- events.vec_count
  ⟨0x0C0710, .u32, accRw, 2048, 0, (.range 0 1000000 []), false⟩, -- events.vec_time
  ⟨0x0C0720, .u64, accRo, 2048, 0, .any, true⟩, -- events.vec_sent
  ⟨0x0C0800, (.bitset 2), accRw, 0, 0, (.bits 15 15), false⟩ -- events.status
]

/-- The object table of group 0x0C. -/
def objRows0C : List ObjRow := objRows0C_0 ++ objRows0C_1 ++ objRows0C_2

/-- Rows of group 0x10, part 1. -/
def objRows10_0 : List ObjRow := [
  ⟨0x100000, .enum, accRwdP, 0, 0, (.codes [0, 1, 2, 3, 4, 6] [5]), false⟩, -- quad.mode
  ⟨0x100010, .enum, accRo, 0, 0, .any, false⟩, -- quad.mode_active
  ⟨0x100020, .u32, accRwdP, 0, 25781250, (.range 1250000 28125000 []), false⟩, -- quad.diag_rate
  ⟨0x100030, .u32, accRo, 0, 0, .any, false⟩, -- quad.rate_actual
  ⟨0x100040, .bool, accRo, 0, 0, .any, false⟩, -- quad.pll_locked
  ⟨0x100050, (.bitset 2), accRo, 0, 0, .any, false⟩, -- quad.ref_present
  ⟨0x100060, (.bitset 2), accRw, 0, 0, (.bits 7 7), false⟩, -- quad.status
  ⟨0x100100, .enum, accRo, 4, 0, .any, false⟩, -- lane.state
  ⟨0x100110, (.bitset 2), accRw, 4, 0, (.bits 127 127), false⟩, -- lane.status
  ⟨0x100120, .bool, accRo, 4, 0, .any, false⟩, -- lane.signal
  ⟨0x100130, .bool, accRo, 4, 0, .any, false⟩, -- lane.block_lock
  ⟨0x100140, .u8, accRo, 4, 0, .any, false⟩, -- lane.efom
  ⟨0x100150, .u8, accRo, 4, 0, .any, false⟩, -- lane.eye_width
  ⟨0x100160, .u8, accRwP, 4, 40, .any, false⟩, -- lane.efom_min
  ⟨0x100170, .u16, accRwP, 4, 10, (.range 1 10000 []), false⟩, -- lane.efom_time
  ⟨0x100180, .bool, accRw, 4, 0, (.range 0 1 []), false⟩ -- lane.dfe_freeze
]

/-- Rows of group 0x10, part 2. -/
def objRows10_1 : List ObjRow := [
  ⟨0x100190, .u8, accRo, 4, 0, .any, false⟩, -- lane.ctle
  ⟨0x100201, .i32, accRo, 4, 0, .any, false⟩, -- lane.dfe_tap
  ⟨0x100202, .i32, accRo, 4, 0, .any, false⟩, -- lane.dfe_tap
  ⟨0x100203, .i32, accRo, 4, 0, .any, false⟩, -- lane.dfe_tap
  ⟨0x100204, .i32, accRo, 4, 0, .any, false⟩, -- lane.dfe_tap
  ⟨0x100205, .i32, accRo, 4, 0, .any, false⟩, -- lane.dfe_tap
  ⟨0x100206, .i32, accRo, 4, 0, .any, false⟩, -- lane.dfe_tap
  ⟨0x100207, .i32, accRo, 4, 0, .any, false⟩, -- lane.dfe_tap
  ⟨0x100208, .i32, accRo, 4, 0, .any, false⟩, -- lane.dfe_tap
  ⟨0x100209, .i32, accRo, 4, 0, .any, false⟩, -- lane.dfe_tap
  ⟨0x10020A, .i32, accRo, 4, 0, .any, false⟩, -- lane.dfe_tap
  ⟨0x10020B, .i32, accRo, 4, 0, .any, false⟩, -- lane.dfe_tap
  ⟨0x10020C, .i32, accRo, 4, 0, .any, false⟩, -- lane.dfe_tap
  ⟨0x100300, .u8, accRwdP, 4, 4, (.range 0 16 []), false⟩, -- lane.tx_pre
  ⟨0x100310, .u8, accRwdP, 4, 51, (.range 24 63 []), false⟩, -- lane.tx_main
  ⟨0x100320, .u8, accRwdP, 4, 8, (.range 0 24 []), false⟩ -- lane.tx_post
]

/-- Rows of group 0x10, part 3. -/
def objRows10_2 : List ObjRow := [
  ⟨0x100330, .enum, accRwdP, 4, 2, (.codes [0, 1, 2, 3] []), false⟩, -- lane.tx_swing
  ⟨0x100340, .bool, accRwdP, 4, 0, (.range 0 1 []), false⟩, -- lane.rx_invert
  ⟨0x100350, .bool, accRwdP, 4, 0, (.range 0 1 []), false⟩, -- lane.tx_invert
  ⟨0x100360, .bool, accRwdP, 4, 1, (.range 0 1 []), false⟩, -- lane.enable
  ⟨0x100400, .enum, accRw, 4, 0, (.codes [0, 1, 2] []), false⟩, -- lane.loopback
  ⟨0x100410, .enum, accRw, 4, 0, (.codes [0, 1, 2, 3, 4, 5] []), false⟩, -- lane.prbs_gen
  ⟨0x100420, .enum, accRw, 4, 0, (.codes [0, 1, 2, 3, 4, 5] []), false⟩, -- lane.prbs_chk
  ⟨0x100430, .bool, accRw, 4, 0, (.range 0 1 []), false⟩, -- lane.prbs_invert
  ⟨0x100440, .bool, accRo, 4, 0, .any, false⟩, -- lane.prbs_lock
  ⟨0x100450, .u64, accRo, 4, 0, .any, true⟩, -- lane.prbs_bits
  ⟨0x100460, .u64, accRo, 4, 0, .any, true⟩, -- lane.prbs_errors
  ⟨0x100470, .u8, accWo, 4, 0, (.only 1), false⟩, -- lane.prbs_inject
  ⟨0x100480, .u8, accRw, 4, 0, (.range 8 40 [0]), false⟩, -- lane.prbs_inject_rate
  ⟨0x100490, .u64, accRo, 4, 0, .any, true⟩, -- lane.prbs_injected
  ⟨0x1004A0, .u8, accWo, 4, 0, (.only 1), false⟩, -- lane.prbs_clear
  ⟨0x100500, .u32, accRo, 4, 0, .any, true⟩ -- lane.faults
]

/-- Rows of group 0x10, part 4. -/
def objRows10_3 : List ObjRow := [
  ⟨0x100510, .enum, accRo, 4, 0, .any, false⟩, -- lane.fault_cause
  ⟨0x100520, .u32, accRo, 4, 0, .any, true⟩, -- lane.relocks
  ⟨0x100530, .bool, accRo, 4, 0, .any, false⟩, -- lane.retired
  ⟨0x100540, .u8, accWo, 4, 0, (.only 1), false⟩, -- lane.reinstate
  ⟨0x100550, .u32, accRo, 4, 0, .any, true⟩, -- lane.link_ups
  ⟨0x100560, .u64, accRo, 4, 0, .any, true⟩, -- lane.invalid_headers
  ⟨0x100570, .u32, accRo, 4, 0, .any, true⟩, -- lane.los_count
  ⟨0x100580, .enum, accRo, 4, 0, .any, false⟩ -- lane.retire_cause
]

/-- The object table of group 0x10. -/
def objRows10 : List ObjRow := objRows10_0 ++ objRows10_1 ++ objRows10_2 ++ objRows10_3

/-- Rows of group 0x20, part 1. -/
def objRows20_0 : List ObjRow := [
  ⟨0x200000, (.bitset 2), accRw, 64, 0, (.bits 63 32), false⟩, -- port.status
  ⟨0x200010, .enum, accRwdP, 64, 0, (.codes [0, 1, 2] []), false⟩, -- port.fec
  ⟨0x200020, .u64, accRwdP, 64, 0, (.range 0 281474976710655 []), false⟩, -- port.mac_addr
  ⟨0x200030, .u32, accRwdP, 64, 0, .any, false⟩, -- port.ipv4
  ⟨0x200040, .u32, accRwdP, 64, 4294967040, .any, false⟩, -- port.ipv4_mask
  ⟨0x200050, .u64, accRwdP, 64, 0, .any, false⟩, -- port.ipv6
  ⟨0x200051, .u64, accRwdP, 64, 0, .any, false⟩, -- port.ipv6
  ⟨0x200060, .u16, accRwdP, 64, 65535, .any, false⟩, -- port.vlan
  ⟨0x200080, .u16, accRwdP, 64, 9216, (.range 1518 9216 []), false⟩, -- port.max_frame
  ⟨0x200090, .bool, accRw, 64, 0, (.range 0 1 []), false⟩, -- port.promiscuous
  ⟨0x200100, .enum, accRwdP, 64, 0, (.codes [0, 1, 2] []), false⟩, -- port.flow_ctrl
  ⟨0x200110, .u16, accRwP, 64, 65535, (.range 2 65535 []), false⟩, -- port.pause_quanta
  ⟨0x200120, .bool, accRwP, 64, 1, (.range 0 1 []), false⟩, -- port.pause_honour
  ⟨0x200130, (.bitset 2), accRo, 64, 0, .any, false⟩, -- port.pause_state
  ⟨0x200150, .u32, accRwP, 64, 100000, (.range 1 1000000 []), false⟩, -- port.exc_rate
  ⟨0x200160, .u16, accRwdP, 64, 49152, (.range 1024 65535 []), false⟩ -- port.resend_udp
]

/-- Rows of group 0x20, part 2. -/
def objRows20_1 : List ObjRow := [
  ⟨0x200200, .u64, accRo, 64, 0, .any, true⟩, -- port.rx_frames
  ⟨0x200210, .u64, accRo, 64, 0, .any, true⟩, -- port.rx_bytes
  ⟨0x200220, .u64, accRo, 64, 0, .any, true⟩, -- port.rx_fcs_errors
  ⟨0x200230, .u64, accRo, 64, 0, .any, true⟩, -- port.rx_undersize
  ⟨0x200240, .u64, accRo, 64, 0, .any, true⟩, -- port.rx_oversize
  ⟨0x200250, .u64, accRo, 64, 0, .any, true⟩, -- port.rx_dmac_drops
  ⟨0x200260, .u64, accRo, 64, 0, .any, true⟩, -- port.rx_exceptions
  ⟨0x200270, .u64, accRo, 64, 0, .any, true⟩, -- port.rx_exc_dropped
  ⟨0x200280, .u64, accRo, 64, 0, .any, true⟩, -- port.rx_ip_errors
  ⟨0x200290, .u64, accRo, 64, 0, .any, true⟩, -- port.rx_pause_frames
  ⟨0x2002A0, .u64, accRo, 64, 0, .any, true⟩, -- port.tx_frames
  ⟨0x2002B0, .u64, accRo, 64, 0, .any, true⟩, -- port.tx_bytes
  ⟨0x2002C0, .u64, accRo, 64, 0, .any, true⟩, -- port.tx_pause_frames
  ⟨0x2002D0, .u64, accRo, 64, 0, .any, true⟩, -- port.fec_corrected
  ⟨0x2002E0, .u64, accRo, 64, 0, .any, true⟩, -- port.fec_uncorrected
  ⟨0x200300, .u32, accRo, 64, 0, .any, true⟩ -- port.faults
]

/-- Rows of group 0x20, part 3. -/
def objRows20_2 : List ObjRow := [
  ⟨0x200310, .enum, accRo, 64, 0, .any, false⟩, -- port.fault_cause
  ⟨0x200320, .bool, accRo, 64, 0, .any, false⟩, -- port.retired
  ⟨0x200330, .u8, accWo, 64, 0, (.only 1), false⟩, -- port.reinstate
  ⟨0x200400, .u64, accRo, 16, 0, .any, true⟩, -- port.bh_frames
  ⟨0x200410, .u64, accRo, 16, 0, .any, true⟩ -- port.bh_discards
]

/-- The object table of group 0x20. -/
def objRows20 : List ObjRow := objRows20_0 ++ objRows20_1 ++ objRows20_2

/-- Rows of group 0x24, part 1. -/
def objRows24_0 : List ObjRow := [
  ⟨0x240000, .enum, accRwp, 4096, 0, (.codes [0, 1, 2] []), false⟩, -- flow.rx_type
  ⟨0x240010, .u8, accRwp, 4096, 0, (.range 0 63 []), false⟩, -- flow.rx_port
  ⟨0x240020, .u64, accRwp, 4096, 0, .any, false⟩, -- flow.rx_dst_addr
  ⟨0x240021, .u64, accRwp, 4096, 0, .any, false⟩, -- flow.rx_dst_addr
  ⟨0x240030, .u16, accRwp, 4096, 0, .any, false⟩, -- flow.rx_dst_port
  ⟨0x240040, .u64, accRwp, 4096, 0, .any, false⟩, -- flow.rx_src_addr
  ⟨0x240041, .u64, accRwp, 4096, 0, .any, false⟩, -- flow.rx_src_addr
  ⟨0x240050, .u16, accRwp, 4096, 0, .any, false⟩, -- flow.rx_src_port
  ⟨0x240060, .u16, accRwp, 4096, 65535, (.range 0 4095 [65534, 65535]), false⟩, -- flow.rx_vlan
  ⟨0x240070, .u8, accRwp, 4096, 255, (.range 0 127 [255]), false⟩, -- flow.rx_rtp_pt
  ⟨0x240090, .enum, accRwp, 4096, 0, (.codes [0, 1, 2] []), false⟩, -- flow.rx_join
  ⟨0x2400A0, .bool, accRwp, 4096, 0, (.range 0 1 []), false⟩, -- flow.rx_resend
  ⟨0x2400B0, .enum, accRwp, 4096, 0, (.codes [0, 1, 2] []), false⟩, -- flow.rx_pause
  ⟨0x2400C0, .u8, accRwp, 4096, 0, (.range 0 7 []), false⟩, -- flow.rx_pfc_priority
  ⟨0x240100, .u64, accRo, 4096, 0, .any, true⟩, -- flow.rx_packets
  ⟨0x240110, .u64, accRo, 4096, 0, .any, true⟩ -- flow.rx_header_errors
]

/-- Rows of group 0x24, part 2. -/
def objRows24_1 : List ObjRow := [
  ⟨0x241000, .enum, accRwp, 1024, 0, (.codes [0, 1, 2] []), false⟩, -- flow.tx_type
  ⟨0x241010, .u8, accRwp, 1024, 0, (.range 0 63 []), false⟩, -- flow.tx_port
  ⟨0x241020, .u64, accRwp, 1024, 0, .any, false⟩, -- flow.tx_dst_mac
  ⟨0x241030, .u64, accRwp, 1024, 0, .any, false⟩, -- flow.tx_dst_addr
  ⟨0x241031, .u64, accRwp, 1024, 0, .any, false⟩, -- flow.tx_dst_addr
  ⟨0x241040, .u16, accRwp, 1024, 5004, .any, false⟩, -- flow.tx_dst_port
  ⟨0x241050, .u16, accRwp, 1024, 5004, .any, false⟩, -- flow.tx_src_port
  ⟨0x241060, .u32, accRwp, 1024, 0, (.mask 131071), false⟩, -- flow.tx_vlan
  ⟨0x241070, .u8, accRwp, 1024, 34, (.range 0 63 []), false⟩, -- flow.tx_dscp
  ⟨0x241080, .u8, accRwp, 1024, 64, (.range 1 255 []), false⟩, -- flow.tx_ttl
  ⟨0x241090, .u8, accRwp, 1024, 96, (.range 96 127 []), false⟩, -- flow.tx_rtp_pt
  ⟨0x2410A0, .u32, accRwp, 1024, 0, .any, false⟩, -- flow.tx_ssrc
  ⟨0x2410B0, .u64, accRo, 1024, 0, .any, true⟩ -- flow.tx_packets
]

/-- The object table of group 0x24. -/
def objRows24 : List ObjRow := objRows24_0 ++ objRows24_1

/-- Rows of group 0x28, part 1. -/
def objRows28_0 : List ObjRow := [
  ⟨0x280000, .u8, accRo, 64, 0, .any, false⟩, -- underback.occupancy
  ⟨0x280010, (.bitset 2), accRw, 64, 0, (.bits 63 63), false⟩, -- underback.status
  ⟨0x280020, .u8, accRwP, 64, 48, (.range 0 62 []), false⟩, -- underback.high
  ⟨0x280030, .u8, accRwP, 64, 16, .any, false⟩, -- underback.low
  ⟨0x280040, .bool, accRwP, 64, 0, (.range 0 1 []), false⟩, -- underback.pause_enable
  ⟨0x280050, .bool, accRo, 64, 0, .any, false⟩, -- underback.fc_active
  ⟨0x280060, .u8, accWo, 64, 0, (.only 1), false⟩, -- underback.flush
  ⟨0x280070, .bool, accRo, 64, 1, .any, false⟩, -- underback.empty
  ⟨0x280080, .bool, accRo, 64, 0, .any, false⟩, -- underback.marker_held
  ⟨0x280100, .u64, accRo, 64, 0, .any, true⟩, -- underback.packets
  ⟨0x280110, .u64, accRo, 64, 0, .any, true⟩, -- underback.rewound
  ⟨0x280120, .u64, accRo, 64, 0, .any, true⟩, -- underback.cut_packets
  ⟨0x280130, .u64, accRo, 64, 0, .any, true⟩, -- underback.words_dropped
  ⟨0x280140, .u32, accRo, 64, 0, .any, true⟩, -- underback.gap_markers
  ⟨0x280150, .u64, accRo, 64, 0, .any, true⟩, -- underback.flushed_packets
  ⟨0x280160, .u64, accRo, 64, 0, .any, true⟩ -- underback.ecc_corrected
]

/-- Rows of group 0x28, part 2. -/
def objRows28_1 : List ObjRow := [
  ⟨0x280170, .u64, accRo, 64, 0, .any, true⟩, -- underback.ecc_uncorrected
  ⟨0x280180, .u32, accRo, 64, 0, .any, true⟩, -- underback.underruns
  ⟨0x280190, .u32, accRo, 64, 0, .any, true⟩, -- underback.high_crossings
  ⟨0x2801A0, .u8, accRw, 64, 0, (.only 0), false⟩, -- underback.peak
  ⟨0x2801B0, .u32, accRo, 64, 0, .any, true⟩, -- underback.parity_errors
  ⟨0x280200, .enum, accRwP, 16, 0, (.codes [0, 1] []), false⟩, -- underback.fc_polarity
  ⟨0x280210, .enum, accRw, 16, 0, (.codes [0, 1, 2] []), false⟩ -- underback.fc_force
]

/-- The object table of group 0x28. -/
def objRows28 : List ObjRow := objRows28_0 ++ objRows28_1

/-- Rows of group 0x30, part 1. -/
def objRows30_0 : List ObjRow := [
  ⟨0x300000, (.bitset 2), accRw, 0, 0, (.bits 31 31), false⟩, -- lauter.status
  ⟨0x300010, .enum, accRwp, 4096, 0, (.codes [0, 1] []), false⟩, -- lauter.scan
  ⟨0x300020, .u32, accRwp, 4096, 1920, (.range 1 65536 []), false⟩, -- lauter.width
  ⟨0x300030, .u32, accRwp, 4096, 1080, (.range 1 1048576 []), false⟩, -- lauter.height
  ⟨0x300040, .enum, accRwp, 4096, 48, (.codes [1, 2, 3, 4, 16, 17, 18, 32, 33, 48, 49] []), false⟩, -- lauter.pixel_format
  ⟨0x300050, .enum, accRwp, 4096, 0, (.codes [0, 1] []), false⟩, -- lauter.missing_policy
  ⟨0x300060, .u32, accRw, 4096, 50, (.range 0 1000000 []), false⟩, -- lauter.straggle_us
  ⟨0x300070, .u32, accRw, 4096, 100, (.range 1 60000 []), false⟩, -- lauter.frame_idle
  ⟨0x300080, .bool, accRwp, 4096, 0, (.range 0 1 []), false⟩, -- lauter.side_records
  ⟨0x300090, .enum, accRwp, 4096, 0, (.codes [0, 1] []), false⟩, -- lauter.stamp_source
  ⟨0x3000A0, .u8, accWo, 32, 0, (.only 1), false⟩, -- lauter.stamp_clear
  ⟨0x3000B0, .u8, accRwp, 4096, 255, (.range 0 7 [255]), false⟩, -- lauter.encoder
  ⟨0x3000C0, .u32, accRw, 4096, 0, .any, false⟩, -- lauter.exposure_ns
  ⟨0x3000D0, .u16, accRwp, 4096, 8192, (.mult 4 64 9000), false⟩, -- lauter.gvsp_packet_bytes
  ⟨0x3000E0, .u32, accRwp, 4096, 256, (.range 1 1048576 []), false⟩, -- lauter.block_lines
  ⟨0x3000F0, .u16, accRwp, 4096, 16, .any, false⟩ -- lauter.unit_blocks
]

/-- Rows of group 0x30, part 2. -/
def objRows30_1 : List ObjRow := [
  ⟨0x300110, .u16, accRwP, 0, 768, (.range 2 1024 []), false⟩, -- lauter.staging_high
  ⟨0x300120, .u16, accRwP, 0, 256, .any, false⟩, -- lauter.staging_low
  ⟨0x300130, .u16, accRo, 64, 0, .any, false⟩, -- lauter.staging_level
  ⟨0x300140, .u16, accRo, 0, 0, .any, false⟩, -- lauter.placements_in_flight
  ⟨0x300150, .u16, accRw, 0, 0, (.only 0), false⟩, -- lauter.placements_peak
  ⟨0x300180, .u32, accRw, 4096, 20, (.range 1 100000 []), false⟩, -- lauter.resend_delay_us
  ⟨0x300190, .u8, accRw, 4096, 2, (.range 0 8 []), false⟩, -- lauter.resend_max
  ⟨0x300200, .u32, accRo, 4096, 0, .any, false⟩, -- lauter.frame_seq
  ⟨0x300210, .u64, accRo, 4096, 0, .any, true⟩, -- lauter.frames_committed
  ⟨0x300220, .u64, accRo, 4096, 0, .any, true⟩, -- lauter.frames_truncated
  ⟨0x300230, .u64, accRo, 4096, 0, .any, true⟩, -- lauter.frames_lost
  ⟨0x300240, .u64, accRo, 4096, 0, .any, true⟩, -- lauter.stale_packets
  ⟨0x300250, .u64, accRo, 4096, 0, .any, true⟩, -- lauter.duplicates
  ⟨0x300260, .u64, accRo, 8, 0, .any, true⟩, -- lauter.lost_by_cause
  ⟨0x300270, .u64, accRo, 4096, 0, .any, true⟩, -- lauter.no_leader
  ⟨0x300280, .u64, accRo, 4096, 0, .any, true⟩ -- lauter.resends_requested
]

/-- Rows of group 0x30, part 3. -/
def objRows30_2 : List ObjRow := [
  ⟨0x300290, .u64, accRo, 4096, 0, .any, true⟩, -- lauter.refused_packets
  ⟨0x3002A0, .u64, accRo, 4096, 0, .any, true⟩, -- lauter.stamps_discarded
  ⟨0x3002B0, .u64, accRo, 4096, 0, .any, true⟩, -- lauter.stamps_missing
  ⟨0x3002C0, .u8, accRo, 4096, 0, .any, false⟩ -- lauter.open_frames
]

/-- The object table of group 0x30. -/
def objRows30 : List ObjRow := objRows30_0 ++ objRows30_1 ++ objRows30_2

/-- Rows of group 0x34, part 1. -/
def objRows34_0 : List ObjRow := [
  ⟨0x340000, .u32, accRo, 0, 1474560, .any, false⟩, -- casks.pages_free
  ⟨0x340010, .u32, accRo, 0, 0, .any, false⟩, -- casks.pages_reserved
  ⟨0x340020, .u32, accRo, 0, 0, .any, false⟩, -- casks.pages_held
  ⟨0x340030, .u32, accRo, 0, 0, .any, false⟩, -- casks.live
  ⟨0x340040, .u32, accRwP, 0, 1327104, .any, false⟩, -- casks.global_high
  ⟨0x340050, .u32, accRwP, 0, 1179648, .any, false⟩, -- casks.global_low
  ⟨0x340060, .u32, accRwp, 4096, 16384, (.range 1 1474560 []), false⟩, -- casks.flow_quota
  ⟨0x340070, .u8, accRwp, 4096, 75, (.range 1 100 []), false⟩, -- casks.flow_high
  ⟨0x340080, .u8, accRwp, 4096, 50, (.range 0 99 []), false⟩, -- casks.flow_low
  ⟨0x340090, .u32, accRo, 4096, 0, .any, false⟩, -- casks.flow_level
  ⟨0x3400A0, (.bitset 2), accRw, 0, 0, (.bits 7 7), false⟩, -- casks.status
  ⟨0x3400B0, .u64, accRo, 0, 0, .any, true⟩, -- casks.refused
  ⟨0x3400C0, .enum, accRo, 65536, 0, .any, false⟩, -- casks.cask_state
  ⟨0x3400D0, .u16, accRo, 65536, 0, .any, false⟩, -- casks.cask_flow
  ⟨0x3400E0, .u32, accRo, 65536, 0, .any, false⟩, -- casks.cask_seq
  ⟨0x3400F0, .u32, accRo, 65536, 0, .any, false⟩ -- casks.cask_pages
]

/-- Rows of group 0x34, part 2. -/
def objRows34_1 : List ObjRow := [
  ⟨0x340100, .u64, accRo, 0, 0, .any, true⟩ -- casks.invalidated
]

/-- The object table of group 0x34. -/
def objRows34 : List ObjRow := objRows34_0 ++ objRows34_1

/-- Rows of group 0x38, part 1. -/
def objRows38_0 : List ObjRow := [
  ⟨0x380000, (.bitset 2), accRw, 0, 0, (.bits 63 63), false⟩, -- cellar.status
  ⟨0x380010, .enum, accRo, 128, 0, .any, false⟩, -- cellar.pc_state
  ⟨0x380020, .u8, accRo, 0, 8, .any, false⟩, -- cellar.spares_free
  ⟨0x380030, .enum, accRo, 128, 0, .any, false⟩, -- cellar.pc_partition
  ⟨0x380040, .u8, accRo, 128, 0, .any, false⟩, -- cellar.pc_slot
  ⟨0x380100, .u16, accRwdP, 0, 0, (.range 0 280 []), false⟩, -- cellar.share
  ⟨0x380101, .u16, accRwdP, 0, 0, (.range 0 280 []), false⟩, -- cellar.share
  ⟨0x380102, .u16, accRwdP, 0, 0, (.range 0 280 []), false⟩, -- cellar.share
  ⟨0x380200, (.bitset 2), accRo, 3, 0, .any, false⟩, -- cellar.boilover
  ⟨0x380210, .u64, accRo, 128, 0, .any, true⟩, -- cellar.forced_refreshes
  ⟨0x380220, .u8, accRw, 128, 0, (.only 0), false⟩, -- cellar.debt_peak
  ⟨0x380230, .u64, accRo, 3, 0, .any, true⟩, -- cellar.boilover_count
  ⟨0x380300, .i32, accRo, 4, 0, .any, false⟩, -- cellar.temp
  ⟨0x380310, .bool, accRo, 4, 0, .any, false⟩, -- cellar.refresh_doubled
  ⟨0x380400, .u64, accRo, 128, 0, .any, true⟩, -- cellar.ce_count
  ⟨0x380410, .u64, accRo, 128, 0, .any, true⟩ -- cellar.ue_count
]

/-- Rows of group 0x38, part 2. -/
def objRows38_1 : List ObjRow := [
  ⟨0x380421, .u64, accRo, 128, 0, .any, true⟩, -- cellar.sev_count
  ⟨0x380422, .u64, accRo, 128, 0, .any, true⟩, -- cellar.sev_count
  ⟨0x380423, .u64, accRo, 128, 0, .any, true⟩, -- cellar.sev_count
  ⟨0x380430, .u32, accRwP, 128, 1000, (.range 1 1000000 []), false⟩, -- cellar.ce_threshold
  ⟨0x380440, .u32, accRo, 128, 0, .any, true⟩, -- cellar.repairs
  ⟨0x380450, .u8, accRo, 128, 4, .any, false⟩, -- cellar.repairs_left
  ⟨0x380460, .u8, accWo, 128, 0, (.only 1), false⟩, -- cellar.reinstate
  ⟨0x380470, .u32, accRo, 128, 0, .any, true⟩, -- cellar.faults
  ⟨0x380500, .u16, accRwP, 0, 24, (.range 0 720 []), false⟩, -- cellar.scrub_hours
  ⟨0x380510, .u32, accRo, 0, 0, .any, false⟩, -- cellar.scrub_progress
  ⟨0x380600, .bool, accRw, 128, 0, (.range 0 1 []), false⟩, -- cellar.test_select
  ⟨0x380610, .enum, accRw, 0, 0, (.codes [0, 1, 2] []), false⟩, -- cellar.test_pattern
  ⟨0x380620, .u8, accWo, 0, 0, (.only 1), false⟩, -- cellar.test_start
  ⟨0x380630, .enum, accRo, 0, 0, .any, false⟩, -- cellar.test_state
  ⟨0x380640, .u64, accRo, 128, 0, .any, true⟩ -- cellar.test_errors
]

/-- The object table of group 0x38. -/
def objRows38 : List ObjRow := objRows38_0 ++ objRows38_1

/-- Rows of group 0x40, part 1. -/
def objRows40_0 : List ObjRow := [
  ⟨0x400000, (.bitset 2), accRw, 0, 0, (.bits 125 125), false⟩, -- racking.status
  ⟨0x400010, .enum, accRo, 0, 0, .any, false⟩, -- racking.state
  ⟨0x400020, .u8, accWo, 0, 0, (.only 1), false⟩, -- racking.resume
  ⟨0x400030, .u32, accRo, 0, 0, .any, false⟩, -- racking.backlog_pages
  ⟨0x400040, .u16, accRo, 0, 0, .any, false⟩, -- racking.ratio_1s
  ⟨0x400050, .u64, accRo, 0, 0, .any, true⟩, -- racking.alf_in_bytes
  ⟨0x400060, .u64, accRo, 0, 0, .any, true⟩, -- racking.out_bytes
  ⟨0x400070, .u64, accRo, 0, 0, .any, true⟩, -- racking.tlb_hits
  ⟨0x400080, .u64, accRo, 0, 0, .any, true⟩, -- racking.tlb_misses
  ⟨0x4000A0, .u64, accRo, 0, 0, .any, true⟩, -- racking.walk_reads
  ⟨0x4000B0, .u64, accRo, 0, 0, .any, true⟩, -- racking.notices_dropped
  ⟨0x400100, .u16, accRwp, 4096, 0, (.range 0 1023 []), false⟩, -- racking.flow_ring
  ⟨0x400110, .enum, accRwp, 4096, 1, (.codes [0, 1] []), false⟩, -- racking.flow_compress
  ⟨0x400120, .enum, accRwp, 4096, 0, (.codes [0, 1, 2] []), false⟩, -- racking.flow_policy
  ⟨0x400130, .bool, accRwp, 4096, 0, (.range 0 1 []), false⟩, -- racking.flow_replay_host
  ⟨0x400140, .u64, accRo, 4096, 0, .any, true⟩ -- racking.flow_delivered
]

/-- Rows of group 0x40, part 2. -/
def objRows40_1 : List ObjRow := [
  ⟨0x400150, .u64, accRo, 4096, 0, .any, true⟩, -- racking.flow_in_bytes
  ⟨0x400160, .u64, accRo, 4096, 0, .any, true⟩, -- racking.flow_out_bytes
  ⟨0x400170, .u64, accRo, 4096, 0, .any, true⟩, -- racking.flow_dropped_oldest
  ⟨0x400200, .bool, accRw, 1024, 0, (.range 0 1 []), false⟩, -- racking.ring_enable
  ⟨0x400210, .u64, accRw, 1024, 0, (.mult 4096 0 18446744073709551615), false⟩, -- racking.ring_dir
  ⟨0x400220, .u16, accRw, 1024, 1, (.range 1 8192 []), false⟩, -- racking.ring_dir_entries
  ⟨0x400230, .enum, accRw, 1024, 0, (.codes [0, 1] []), false⟩, -- racking.ring_page
  ⟨0x400240, .u32, accRw, 1024, 64, (.pow2 1 65536), false⟩, -- racking.ring_slots
  ⟨0x400250, .u64, accRw, 1024, 8192, (.mult 4096 8192 8589934592), false⟩, -- racking.ring_slot_bytes
  ⟨0x400260, .u16, accRw, 1024, 0, (.range 0 255 []), false⟩, -- racking.ring_cq
  ⟨0x400270, .enum, accRw, 1024, 0, (.codes [0, 1] []), false⟩, -- racking.ring_order
  ⟨0x400280, .u8, accRw, 1024, 1, (.range 1 16 []), false⟩, -- racking.ring_weight
  ⟨0x400290, .u32, accRw, 1024, 1179648, .any, false⟩, -- racking.ring_high
  ⟨0x4002A0, .u32, accRw, 1024, 884736, .any, false⟩, -- racking.ring_low
  ⟨0x4002B0, .u32, accRo, 1024, 0, .any, false⟩, -- racking.ring_level
  ⟨0x4002C0, .enum, accRo, 1024, 0, .any, false⟩ -- racking.ring_state
]

/-- Rows of group 0x40, part 3. -/
def objRows40_2 : List ObjRow := [
  ⟨0x4002D0, .enum, accRo, 1024, 0, .any, false⟩, -- racking.ring_fault
  ⟨0x4002E0, .bool, accRw, 1024, 0, (.range 0 1 []), false⟩, -- racking.ring_lost_notices
  ⟨0x4002F0, .u64, accRo, 1024, 0, .any, true⟩, -- racking.ring_delivered
  ⟨0x400400, .u64, accRw, 256, 0, (.mult 4096 0 18446744073709551615), false⟩, -- racking.cq_base
  ⟨0x400410, .u32, accRw, 256, 1024, (.pow2 64 65536), false⟩, -- racking.cq_entries
  ⟨0x400420, .bool, accRw, 256, 0, (.range 0 1 []), false⟩, -- racking.cq_enable
  ⟨0x400430, .enum, accRo, 256, 0, .any, false⟩, -- racking.cq_state
  ⟨0x400440, .u64, accRo, 256, 0, .any, true⟩, -- racking.cq_full_stalls
  ⟨0x400500, .u64, accRw, 0, 0, (.mult 4096 0 18446744073709551615), false⟩, -- racking.exc_dir
  ⟨0x400510, .u16, accRw, 0, 1, (.range 1 8192 []), false⟩, -- racking.exc_dir_entries
  ⟨0x400520, .enum, accRw, 0, 0, (.codes [0, 1] []), false⟩, -- racking.exc_page
  ⟨0x400530, .u32, accRw, 0, 1024, (.pow2 16 65536), false⟩, -- racking.exc_entries
  ⟨0x400540, .u32, accRw, 0, 2112, (.mult 64 128 9280), false⟩, -- racking.exc_entry_bytes
  ⟨0x400550, .bool, accRw, 0, 0, (.range 0 1 []), false⟩, -- racking.exc_enable
  ⟨0x400560, .enum, accRo, 0, 0, .any, false⟩, -- racking.exc_state
  ⟨0x400570, .u64, accRo, 0, 0, .any, true⟩ -- racking.exc_dropped
]

/-- Rows of group 0x40, part 4. -/
def objRows40_3 : List ObjRow := [
  ⟨0x400580, .u64, accRo, 0, 0, .any, true⟩ -- racking.exc_written
]

/-- The object table of group 0x40. -/
def objRows40 : List ObjRow := objRows40_0 ++ objRows40_1 ++ objRows40_2 ++ objRows40_3

/-- Rows of group 0x48, part 1. -/
def objRows48_0 : List ObjRow := [
  ⟨0x480000, (.bitset 2), accRw, 1024, 0, (.bits 127 127), false⟩, -- tap.status
  ⟨0x480010, .enum, accRo, 1024, 0, .any, false⟩, -- tap.state
  ⟨0x480020, .enum, accRwp, 1024, 0, (.codes [0, 1, 2, 3] []), false⟩, -- tap.source
  ⟨0x480030, .u32, accRwp, 1024, 1920, (.range 1 65536 []), false⟩, -- tap.width
  ⟨0x480040, .u32, accRwp, 1024, 1080, (.range 1 1048576 []), false⟩, -- tap.height
  ⟨0x480050, .enum, accRwp, 1024, 48, (.codes [1, 2, 3, 4, 16, 17, 18, 32, 33, 48, 49] []), false⟩, -- tap.pixel_format
  ⟨0x480060, .u32, accRwp, 1024, 60000, (.range 1 4000000 []), false⟩, -- tap.rate_num
  ⟨0x480070, .u32, accRwp, 1024, 1001, (.range 1 65535 []), false⟩, -- tap.rate_den
  ⟨0x480080, .u8, accRwp, 1024, 0, (.range 0 63 []), false⟩, -- tap.pattern_block
  ⟨0x480090, .u64, accRwp, 1024, 96636764160, .any, false⟩, -- tap.ref_addr
  ⟨0x4800A0, .u16, accRwp, 1024, 1, (.range 1 65535 []), false⟩, -- tap.ref_frames
  ⟨0x4800B0, .u64, accRwp, 1024, 0, .any, false⟩, -- tap.ref_frame_bytes
  ⟨0x4800C0, .u16, accRwp, 1024, 0, (.range 0 4095 []), false⟩, -- tap.src_flow
  ⟨0x4800D0, .bool, accRwp, 1024, 0, (.range 0 1 []), false⟩, -- tap.replay_loop
  ⟨0x480100, .enum, accRwp, 1024, 0, (.codes [0, 1, 2] []), false⟩, -- tap.model
  ⟨0x480110, .u16, accRwp, 1024, 1080, (.range 1 4095 []), false⟩ -- tap.active_num
]

/-- Rows of group 0x48, part 2. -/
def objRows48_1 : List ObjRow := [
  ⟨0x480120, .u16, accRwp, 1024, 1125, (.range 1 4095 []), false⟩, -- tap.active_den
  ⟨0x480130, .u32, accRwp, 1024, 0, .any, false⟩, -- tap.tr_offset_ns
  ⟨0x480140, .enum, accRwp, 1024, 0, (.codes [0, 1] []), false⟩, -- tap.packing
  ⟨0x480150, .u16, accRwp, 1024, 1200, (.range 180 8952 []), false⟩, -- tap.payload_bytes
  ⟨0x480160, .u16, accRwp, 1024, 8192, (.mult 4 64 9000), false⟩, -- tap.gvsp_packet_bytes
  ⟨0x480170, .bool, accRwp, 1024, 0, (.range 0 1 []), false⟩, -- tap.gvsp_ext_id
  ⟨0x480180, .u8, accRwp, 1024, 1, (.range 0 3 []), false⟩, -- tap.bayer_order
  ⟨0x480190, .u32, accRw, 1024, 1000, (.range 0 1000000000 []), false⟩, -- tap.late_limit_ns
  ⟨0x4801A0, .u32, accRwp, 1024, 0, .any, false⟩, -- tap.gvsp_gap_ns
  ⟨0x480200, .enum, accRwp, 1024, 0, (.codes [0, 1, 2, 3, 4] []), false⟩, -- tap.start_mode
  ⟨0x480210, .time96, accRwp, 1024, 0, .any, false⟩, -- tap.start_at
  ⟨0x480220, .time96, accRw, 1024, 0, .any, false⟩, -- tap.stop_at
  ⟨0x480230, .u32, accRw, 1024, 0, .any, false⟩, -- tap.frame_count
  ⟨0x480240, .u32, accRwp, 1024, 0, .any, false⟩, -- tap.trigger_delay_ns
  ⟨0x480250, .u32, accRwp, 1024, 256, (.range 1 1048576 []), false⟩, -- tap.block_lines
  ⟨0x480260, .bool, accRwp, 1024, 0, (.range 0 1 []), false⟩ -- tap.loopback
]

/-- Rows of group 0x48, part 3. -/
def objRows48_2 : List ObjRow := [
  ⟨0x480270, .enum, accRwp, 1024, 0, (.codes [0, 1] []), false⟩, -- tap.underrun_action
  ⟨0x480280, .enum, accRwp, 1024, 0, (.codes [0, 1] []), false⟩, -- tap.host_empty
  ⟨0x480300, .u16, accRwp, 1024, 16, (.range 4 1024 []), false⟩, -- tap.buffer_kib
  ⟨0x480310, .u16, accRwp, 1024, 4, .any, false⟩, -- tap.low_kib
  ⟨0x480320, .u16, accRwp, 1024, 12, .any, false⟩, -- tap.high_kib
  ⟨0x480330, .u32, accRo, 1024, 0, .any, false⟩, -- tap.level_bytes
  ⟨0x480400, .u64, accRw, 1024, 0, (.mult 4096 0 18446744073709551615), false⟩, -- tap.host_dir
  ⟨0x480410, .u16, accRw, 1024, 1, (.range 1 8192 []), false⟩, -- tap.host_dir_entries
  ⟨0x480420, .enum, accRw, 1024, 0, (.codes [0, 1] []), false⟩, -- tap.host_page
  ⟨0x480430, .u32, accRw, 1024, 64, (.pow2 1 65536), false⟩, -- tap.host_slots
  ⟨0x480440, .u64, accRw, 1024, 8192, (.mult 4096 0 18446744073709551615), false⟩, -- tap.host_slot_bytes
  ⟨0x480450, .bool, accRw, 1024, 0, (.range 0 1 []), false⟩, -- tap.host_enable
  ⟨0x480500, .u64, accRo, 1024, 0, .any, true⟩, -- tap.frames_sent
  ⟨0x480510, .u32, accRo, 1024, 0, .any, false⟩, -- tap.frame_number
  ⟨0x480520, .u64, accRo, 1024, 0, .any, true⟩, -- tap.late_packets
  ⟨0x480530, .u64, accRo, 1024, 0, .any, true⟩ -- tap.underruns
]

/-- Rows of group 0x48, part 4. -/
def objRows48_3 : List ObjRow := [
  ⟨0x480540, .u64, accRo, 1024, 0, .any, true⟩, -- tap.frames_skipped
  ⟨0x480550, .u32, accRo, 1024, 0, .any, true⟩, -- tap.cut_frames
  ⟨0x480560, .u64, accRo, 1024, 0, .any, true⟩, -- tap.paused_drops
  ⟨0x480570, .u64, accRo, 1024, 0, .any, true⟩, -- tap.down_drops
  ⟨0x480580, .u64, accRo, 1024, 0, .any, true⟩, -- tap.poisoned_units
  ⟨0x480590, .u32, accRo, 1024, 0, .any, true⟩, -- tap.replay_mismatch
  ⟨0x480F00, (.blob 9216), accWo, 64, 0, .any, false⟩ -- tap.raw_frame
]

/-- The object table of group 0x48. -/
def objRows48 : List ObjRow := objRows48_0 ++ objRows48_1 ++ objRows48_2 ++ objRows48_3

/-- Rows of group 0x4C, part 1. -/
def objRows4C_0 : List ObjRow := [
  ⟨0x4C0000, .i32, accRwp, 64, 0, (.range (-131071) 131071 []), false⟩, -- pattern.offset
  ⟨0x4C0001, .i32, accRwp, 64, 0, (.range (-131071) 131071 []), false⟩, -- pattern.offset
  ⟨0x4C0002, .i32, accRwp, 64, 0, (.range (-131071) 131071 []), false⟩, -- pattern.offset
  ⟨0x4C0010, .u8, accRwp, 64, 148, (.fields 3 4), false⟩, -- pattern.cfa
  ⟨0x4C0100, .enum, accRwp, 256, 0, (.codes [0, 1, 2, 3, 4, 5, 6] []), false⟩, -- pattern.kind
  ⟨0x4C0110, .i32, accRwp, 256, 0, (.range (-131071) 131071 []), false⟩, -- pattern.amp
  ⟨0x4C0111, .i32, accRwp, 256, 0, (.range (-131071) 131071 []), false⟩, -- pattern.amp
  ⟨0x4C0112, .i32, accRwp, 256, 0, (.range (-131071) 131071 []), false⟩, -- pattern.amp
  ⟨0x4C0120, .i32, accRwp, 256, 0, .any, false⟩, -- pattern.param
  ⟨0x4C0121, .i32, accRwp, 256, 0, .any, false⟩, -- pattern.param
  ⟨0x4C0122, .i32, accRwp, 256, 0, .any, false⟩, -- pattern.param
  ⟨0x4C0123, .i32, accRwp, 256, 0, .any, false⟩, -- pattern.param
  ⟨0x4C0200, .enum, accRw, 0, 0, (.only 1), false⟩ -- pattern.selftest
]

/-- The object table of group 0x4C. -/
def objRows4C : List ObjRow := objRows4C_0

/-- Rows of group 0x50, part 1. -/
def objRows50_0 : List ObjRow := [
  ⟨0x500000, (.bitset 2), accRw, 0, 0, (.bits 127 127), false⟩, -- hydro.status
  ⟨0x500010, .u8, accRwp, 4096, 255, (.range 0 63 [255]), false⟩, -- hydro.flow_set
  ⟨0x500020, .u16, accRwP, 0, 20, (.range 2 500 []), false⟩, -- hydro.golden_deadline_us
  ⟨0x500030, .enum, accRw, 0, 0, (.only 1), false⟩, -- hydro.selftest
  ⟨0x500040, .u64, accRo, 0, 0, .any, true⟩, -- hydro.overloads
  ⟨0x500050, .u64, accRo, 0, 0, .any, true⟩, -- hydro.golden_late
  ⟨0x500060, .u64, accRo, 0, 0, .any, true⟩, -- hydro.golden_errors
  ⟨0x500100, .enum, accRwp, 64, 0, (.codes [0, 1, 2] []), false⟩, -- hydro.ref
  ⟨0x500110, .enum, accRwp, 64, 0, (.codes [0, 1, 2] []), false⟩, -- hydro.align
  ⟨0x500120, .u32, accRwp, 64, 0, .any, false⟩, -- hydro.f_offset
  ⟨0x500130, .u16, accRwp, 64, 0, (.range 0 1023 []), false⟩, -- hydro.pair_tx
  ⟨0x500140, .u8, accRwp, 64, 0, (.range 0 63 []), false⟩, -- hydro.pattern_block
  ⟨0x500150, .u64, accRwp, 64, 96636764160, .any, false⟩, -- hydro.golden_addr
  ⟨0x500160, .u16, accRwp, 64, 1, (.range 1 65535 []), false⟩, -- hydro.golden_frames
  ⟨0x500170, .u64, accRwp, 64, 0, .any, false⟩, -- hydro.golden_frame_bytes
  ⟨0x500180, .u32, accRwp, 64, 1920, (.range 1 65536 []), false⟩ -- hydro.width
]

/-- Rows of group 0x50, part 2. -/
def objRows50_1 : List ObjRow := [
  ⟨0x500190, .u32, accRwp, 64, 1080, (.range 1 1048576 []), false⟩, -- hydro.height
  ⟨0x5001A0, .enum, accRwp, 64, 48, (.codes [1, 2, 3, 4, 16, 17, 18, 32, 33, 48, 49] []), false⟩, -- hydro.pixel_format
  ⟨0x5001B0, .u32, accRwp, 64, 60000, (.range 1 4000000 []), false⟩, -- hydro.rate_num
  ⟨0x5001C0, .u32, accRwp, 64, 1001, (.range 1 65535 []), false⟩, -- hydro.rate_den
  ⟨0x5001D0, .enum, accRwp, 64, 0, (.codes [0, 1, 2] []), false⟩, -- hydro.crc_check
  ⟨0x5001E0, .u32, accRwp, 64, 0, .any, false⟩, -- hydro.crc_value
  ⟨0x5001F0, .u16, accRwp, 64, 0, .any, false⟩, -- hydro.bitmap_thr
  ⟨0x500300, .bool, accRwp, 16384, 0, (.range 0 1 []), false⟩, -- hydro.reg_enable
  ⟨0x500310, .u32, accRwp, 16384, 0, .any, false⟩, -- hydro.reg_rect
  ⟨0x500311, .u32, accRwp, 16384, 0, .any, false⟩, -- hydro.reg_rect
  ⟨0x500312, .u32, accRwp, 16384, 65536, (.range 1 4294967295 []), false⟩, -- hydro.reg_rect
  ⟨0x500313, .u32, accRwp, 16384, 1048576, (.range 1 4294967295 []), false⟩, -- hydro.reg_rect
  ⟨0x500320, .u8, accRwp, 16384, 7, (.mask 7), false⟩, -- hydro.reg_components
  ⟨0x500330, .u16, accRwp, 16384, 0, .any, false⟩, -- hydro.reg_threshold
  ⟨0x500340, .u64, accRwp, 16384, 0, .any, false⟩, -- hydro.reg_allow
  ⟨0x500350, .u32, accRwp, 16384, 4294967295, .any, false⟩ -- hydro.reg_mse_max
]

/-- Rows of group 0x50, part 3. -/
def objRows50_2 : List ObjRow := [
  ⟨0x500360, .u32, accRwp, 16384, 4294967295, .any, false⟩, -- hydro.reg_mean_max
  ⟨0x500400, .enum, accRwp, 64, 0, (.codes [0, 1, 2] []), false⟩, -- hydro.timing
  ⟨0x500410, .enum, accRwp, 64, 0, (.codes [0, 1, 2] []), false⟩, -- hydro.timing_model
  ⟨0x500420, .u16, accRwp, 64, 1080, (.range 1 4095 []), false⟩, -- hydro.timing_active_num
  ⟨0x500430, .u16, accRwp, 64, 1125, (.range 1 4095 []), false⟩, -- hydro.timing_active_den
  ⟨0x500440, .u32, accRwp, 64, 0, .any, false⟩, -- hydro.timing_tr_offset_ns
  ⟨0x500450, .u16, accRwp, 64, 4, (.range 1 65535 []), false⟩, -- hydro.cmax
  ⟨0x500460, .u16, accRwp, 64, 8, (.range 1 65535 []), false⟩, -- hydro.vrx_full
  ⟨0x500500, (.blob 16777216), accRo, 64, 0, .any, false⟩, -- hydro.result
  ⟨0x500501, (.blob 16777216), accRo, 64, 0, .any, false⟩, -- hydro.result
  ⟨0x500502, (.blob 16777216), accRo, 64, 0, .any, false⟩, -- hydro.result
  ⟨0x500503, (.blob 16777216), accRo, 64, 0, .any, false⟩, -- hydro.result
  ⟨0x500504, (.blob 16777216), accRo, 64, 0, .any, false⟩, -- hydro.result
  ⟨0x500505, (.blob 16777216), accRo, 64, 0, .any, false⟩, -- hydro.result
  ⟨0x500506, (.blob 16777216), accRo, 64, 0, .any, false⟩, -- hydro.result
  ⟨0x500507, (.blob 16777216), accRo, 64, 0, .any, false⟩ -- hydro.result
]

/-- Rows of group 0x50, part 4. -/
def objRows50_3 : List ObjRow := [
  ⟨0x500508, (.blob 16777216), accRo, 64, 0, .any, false⟩, -- hydro.result
  ⟨0x500509, (.blob 16777216), accRo, 64, 0, .any, false⟩, -- hydro.result
  ⟨0x50050A, (.blob 16777216), accRo, 64, 0, .any, false⟩, -- hydro.result
  ⟨0x50050B, (.blob 16777216), accRo, 64, 0, .any, false⟩, -- hydro.result
  ⟨0x50050C, (.blob 16777216), accRo, 64, 0, .any, false⟩, -- hydro.result
  ⟨0x50050D, (.blob 16777216), accRo, 64, 0, .any, false⟩, -- hydro.result
  ⟨0x50050E, (.blob 16777216), accRo, 64, 0, .any, false⟩, -- hydro.result
  ⟨0x50050F, (.blob 16777216), accRo, 64, 0, .any, false⟩, -- hydro.result
  ⟨0x500510, .u8, accRo, 64, 0, .any, false⟩, -- hydro.result_next
  ⟨0x500520, (.blob 16777216), accRo, 64, 0, .any, false⟩, -- hydro.bitmap
  ⟨0x500521, (.blob 16777216), accRo, 64, 0, .any, false⟩, -- hydro.bitmap
  ⟨0x500530, (.blob 16777216), accRo, 64, 0, .any, false⟩, -- hydro.line_crc
  ⟨0x500600, .u64, accRo, 64, 0, .any, true⟩, -- hydro.frames_judged
  ⟨0x500610, .u64, accRo, 64, 0, .any, true⟩, -- hydro.frames_failed
  ⟨0x500620, .u64, accRo, 64, 0, .any, true⟩, -- hydro.frames_not_judged
  ⟨0x500630, .u64, accRo, 64, 0, .any, true⟩ -- hydro.timing_failures
]

/-- Rows of group 0x50, part 5. -/
def objRows50_4 : List ObjRow := [
  ⟨0x500640, .u64, accRo, 64, 0, .any, true⟩ -- hydro.frames_partial
]

/-- The object table of group 0x50. -/
def objRows50 : List ObjRow := objRows50_0 ++ objRows50_1 ++ objRows50_2 ++ objRows50_3 ++ objRows50_4

/-- Rows of group 0x58, part 1. -/
def objRows58_0 : List ObjRow := [
  ⟨0x580000, (.bitset 2), accRw, 8, 0, (.bits 255 255), false⟩, -- pos.status
  ⟨0x580010, .bool, accRwP, 8, 0, (.range 0 1 []), false⟩, -- pos.enable
  ⟨0x580020, .u16, accRwdP, 8, 1024, (.pow2 4 4096), false⟩, -- pos.interp
  ⟨0x580030, .bool, accRwdP, 8, 0, (.range 0 1 []), false⟩, -- pos.invert
  ⟨0x580040, .i32, accRwP, 8, 0, (.range (-2048) 2048 []), false⟩, -- pos.off_s
  ⟨0x580050, .i32, accRwP, 8, 0, (.range (-2048) 2048 []), false⟩, -- pos.off_c
  ⟨0x580060, .u16, accRwP, 8, 16384, (.range 8192 32767 []), false⟩, -- pos.gain
  ⟨0x580070, .i32, accRwP, 8, 0, (.range (-4096) 4096 []), false⟩, -- pos.quad
  ⟨0x580080, .bool, accRwP, 8, 0, (.range 0 1 []), false⟩, -- pos.autocal
  ⟨0x580090, .u16, accRwP, 8, 1536, .any, false⟩, -- pos.amp_min
  ⟨0x5800A0, .u16, accRwP, 8, 7936, (.range 0 8191 []), false⟩, -- pos.amp_max
  ⟨0x5800B0, .bool, accRwdP, 8, 1, (.range 0 1 []), false⟩, -- pos.termination
  ⟨0x5800C0, .u16, accRo, 8, 200, .any, false⟩, -- pos.latency_ns
  ⟨0x580100, .i64, accRw, 8, 0, (.range (-140737488355328) 140737488355327 []), false⟩, -- pos.position
  ⟨0x580110, .bool, accRo, 8, 0, .any, false⟩, -- pos.position_valid
  ⟨0x580120, .u16, accRo, 8, 0, .any, false⟩ -- pos.phase
]

/-- Rows of group 0x58, part 2. -/
def objRows58_1 : List ObjRow := [
  ⟨0x580130, .u16, accRo, 8, 0, .any, false⟩, -- pos.amplitude
  ⟨0x580140, .i64, accRo, 8, 0, .any, false⟩, -- pos.speed
  ⟨0x580150, .bool, accRo, 8, 0, .any, false⟩, -- pos.speed_valid
  ⟨0x580160, .enum, accRo, 8, 0, .any, false⟩, -- pos.dir
  ⟨0x580170, .enum, accRo, 8, 0, .any, false⟩, -- pos.speed_method
  ⟨0x580180, .u32, accRwP, 8, 10000, (.range 1000 1000000 []), false⟩, -- pos.speed_switch_ns
  ⟨0x580190, .u16, accRwP, 8, 100, (.mult 10 10 1000), false⟩, -- pos.count_window_us
  ⟨0x5801A0, .u32, accRwP, 8, 100, (.range 1 60000 []), false⟩, -- pos.standstill_ms
  ⟨0x5801B0, .u64, accRo, 8, 0, .any, true⟩, -- pos.crossings
  ⟨0x5801C0, .u32, accRo, 8, 0, .any, true⟩, -- pos.reversals
  ⟨0x580200, .enum, accRw, 8, 1, (.codes [0, 1, 2, 3] []), false⟩, -- pos.ref_mode
  ⟨0x580210, .i32, accRwP, 8, 2560, (.range (-8191) 8191 []), false⟩, -- pos.ref_threshold
  ⟨0x580220, .enum, accRwP, 8, 4, (.codes [0, 1, 2, 3, 4] []), false⟩, -- pos.ref_gate
  ⟨0x580230, .i64, accRwP, 8, 0, (.range (-140737488355328) 140737488355327 []), false⟩, -- pos.ref_preset
  ⟨0x580240, .i64, accRo, 8, 0, .any, false⟩, -- pos.ref_position
  ⟨0x580250, .time96, accRo, 8, 0, .any, false⟩ -- pos.ref_time
]

/-- Rows of group 0x58, part 3. -/
def objRows58_2 : List ObjRow := [
  ⟨0x580260, .u32, accRo, 8, 0, .any, true⟩, -- pos.ref_count
  ⟨0x580300, .bool, accRwP, 8, 0, (.range 0 1 []), false⟩, -- pos.quad_enable
  ⟨0x580310, .u16, accRwP, 8, 1024, (.pow2 4 4096), false⟩, -- pos.quad_edges
  ⟨0x580320, .u8, accRwP, 8, 20, (.range 8 255 []), false⟩, -- pos.quad_min_ns
  ⟨0x580330, .u32, accRo, 8, 0, .any, false⟩, -- pos.quad_lag
  ⟨0x580340, .enum, accRwP, 8, 1, (.codes [0, 1, 2] []), false⟩, -- pos.quad_z
  ⟨0x580360, .time96, accRw, 8, 0, .any, false⟩, -- pos.query_at
  ⟨0x580370, .i64, accRo, 8, 0, .any, false⟩, -- pos.query_position
  ⟨0x580380, .bool, accRo, 8, 0, .any, false⟩, -- pos.query_valid
  ⟨0x580400, .u32, accRo, 8, 0, .any, true⟩, -- pos.faults
  ⟨0x580410, .enum, accRo, 8, 0, .any, false⟩, -- pos.fault_cause
  ⟨0x580420, .bool, accRo, 8, 0, .any, false⟩, -- pos.retired
  ⟨0x580430, .u8, accWo, 8, 0, (.only 1), false⟩, -- pos.reinstate
  ⟨0x581000, .enum, accRw, 32, 0, (.codes [0, 1, 2, 3] []), false⟩, -- pos.cmp_mode
  ⟨0x581010, .u8, accRw, 32, 0, (.range 0 7 []), false⟩, -- pos.cmp_channel
  ⟨0x581020, .enum, accRw, 32, 0, (.codes [0, 1, 2] []), false⟩ -- pos.cmp_sense
]

/-- Rows of group 0x58, part 4. -/
def objRows58_3 : List ObjRow := [
  ⟨0x581030, .i64, accRw, 32, 0, (.range (-140737488355328) 140737488355327 []), false⟩, -- pos.cmp_target
  ⟨0x581040, .u64, accRw, 32, 1024, (.range 1 140737488355327 []), false⟩, -- pos.cmp_period
  ⟨0x581050, .u32, accRw, 32, 0, .any, false⟩, -- pos.cmp_count
  ⟨0x581060, .enum, accRw, 32, 0, (.codes [0, 1] []), false⟩, -- pos.cmp_arm
  ⟨0x581070, .bool, accRw, 32, 0, (.range 0 1 []), false⟩, -- pos.cmp_fire_if_behind
  ⟨0x581080, .u16, accRw, 32, 4, .any, false⟩, -- pos.cmp_hyst
  ⟨0x581090, .u32, accRw, 32, 0, (.range 0 65535 []), false⟩, -- pos.cmp_list_base
  ⟨0x5810A0, .u32, accRw, 32, 1, (.range 1 65536 []), false⟩, -- pos.cmp_list_len
  ⟨0x5810B0, .bool, accRw, 32, 0, (.range 0 1 []), false⟩, -- pos.cmp_list_loop
  ⟨0x5810C0, .enum, accRo, 32, 0, .any, false⟩, -- pos.cmp_state
  ⟨0x5810D0, (.bitset 2), accRw, 32, 0, (.bits 7 7), false⟩, -- pos.cmp_status
  ⟨0x5810E0, .u64, accRo, 32, 0, .any, true⟩, -- pos.cmp_fires
  ⟨0x5810F0, .u32, accRo, 32, 0, .any, true⟩, -- pos.cmp_catchup
  ⟨0x581100, .u32, accRo, 32, 0, .any, false⟩, -- pos.cmp_index
  ⟨0x581110, .time96, accRo, 32, 0, .any, false⟩, -- pos.cmp_last_time
  ⟨0x581F00, (.blob 524288), accRw, 0, 0, .any, false⟩ -- pos.list
]

/-- The object table of group 0x58. -/
def objRows58 : List ObjRow := objRows58_0 ++ objRows58_1 ++ objRows58_2 ++ objRows58_3

/-- Rows of group 0x60, part 1. -/
def objRows60_0 : List ObjRow := [
  ⟨0x600000, (.bitset 2), accRw, 16, 0, (.bits 1023 1023), false⟩, -- lamp.status
  ⟨0x600010, .enum, accRo, 16, 0, .any, false⟩, -- lamp.state
  ⟨0x600020, .bool, accRwP, 16, 0, (.range 0 1 []), false⟩, -- lamp.enable
  ⟨0x600030, .u32, accRwP, 16, 10000, (.range 100 10000000 []), false⟩, -- lamp.width_ns
  ⟨0x600040, .u32, accRwP, 16, 0, (.range 0 1000000000 []), false⟩, -- lamp.min_interval_ns
  ⟨0x600060, .bool, accRwP, 16, 1, (.range 0 1 []), false⟩, -- lamp.require_head
  ⟨0x600070, .bool, accRw, 16, 0, (.range 0 1 []), false⟩, -- lamp.life_override
  ⟨0x600080, .u16, accRwP, 16, 0, .any, false⟩, -- lamp.ilimit_ma
  ⟨0x600090, .u16, accRwP, 16, 10000, (.range 1 65535 []), false⟩, -- lamp.isns_scale
  ⟨0x6000A0, .u16, accRwP, 16, 0, .any, false⟩, -- lamp.open_min_ma
  ⟨0x600100, .u64, accRo, 16, 0, .any, true⟩, -- lamp.flashes
  ⟨0x600110, .u64, accRo, 16, 0, .any, false⟩, -- lamp.stored
  ⟨0x600120, .u64, accRo, 16, 100000000, .any, false⟩, -- lamp.rated_life
  ⟨0x600130, .u32, accRo, 16, 10000000, .any, false⟩, -- lamp.head_max_width
  ⟨0x600140, .u16, accRo, 16, 1000, .any, false⟩, -- lamp.head_max_duty
  ⟨0x600150, .u16, accRo, 16, 0, .any, false⟩ -- lamp.head_ilimit
]

/-- Rows of group 0x60, part 2. -/
def objRows60_1 : List ObjRow := [
  ⟨0x600160, (.str 16), accRo, 16, 0, .any, false⟩, -- lamp.head_vendor
  ⟨0x600170, (.str 16), accRo, 16, 0, .any, false⟩, -- lamp.head_model
  ⟨0x600180, (.str 16), accRo, 16, 0, .any, false⟩, -- lamp.head_serial
  ⟨0x600190, (.blob 96), accRw, 16, 0, .any, false⟩, -- lamp.head_user
  ⟨0x600200, .u16, accRo, 16, 0, .any, false⟩, -- lamp.last_peak_ma
  ⟨0x600210, .u64, accRo, 16, 0, .any, true⟩, -- lamp.refused
  ⟨0x600220, .u32, accRo, 16, 0, .any, true⟩, -- lamp.writebacks
  ⟨0x600230, .u32, accRo, 16, 0, .any, true⟩, -- lamp.exchanges
  ⟨0x600240, .u32, accRo, 16, 0, .any, true⟩, -- lamp.faults
  ⟨0x600250, .enum, accRo, 16, 0, .any, false⟩, -- lamp.fault_cause
  ⟨0x600260, .bool, accRo, 16, 0, .any, false⟩, -- lamp.retired
  ⟨0x600270, .u8, accWo, 16, 0, (.only 1), false⟩, -- lamp.reinstate
  ⟨0x600280, .u64, accRwP, 16, 100000000, (.range 1 1099511627776 []), false⟩, -- lamp.default_life
  ⟨0x600300, (.bitset 2), accRo, 0, 0, .any, false⟩, -- lamp.intlk_level
  ⟨0x600310, .u32, accRo, 4, 0, .any, true⟩ -- lamp.intlk_changes
]

/-- The object table of group 0x60. -/
def objRows60 : List ObjRow := objRows60_0 ++ objRows60_1

/-- Rows of group 0x68, part 1. -/
def objRows68_0 : List ObjRow := [
  ⟨0x680000, (.bitset 2), accRw, 0, 0, (.bits 223 223), false⟩, -- hostlink.status
  ⟨0x680010, .enum, accRo, 0, 0, .any, false⟩, -- hostlink.link_speed
  ⟨0x680020, .u8, accRo, 0, 0, .any, false⟩, -- hostlink.link_width
  ⟨0x680030, .bool, accRo, 0, 0, .any, false⟩, -- hostlink.flit_mode
  ⟨0x680040, .enum, accRwP, 0, 6, (.codeRange 1 6 []), false⟩, -- hostlink.max_speed
  ⟨0x680050, .u16, accRo, 0, 0, .any, false⟩, -- hostlink.tags_available
  ⟨0x680060, .u16, accRo, 0, 0, .any, false⟩, -- hostlink.tags_in_flight
  ⟨0x680070, .u16, accRo, 0, 0, .any, false⟩, -- hostlink.tags_quarantined
  ⟨0x680080, .u32, accRo, 0, 30000, .any, false⟩, -- hostlink.cpl_timeout_us
  ⟨0x680090, .u64, accRo, 0, 0, .any, true⟩, -- hostlink.cpl_timeouts
  ⟨0x6800A0, .u64, accRo, 0, 0, .any, true⟩, -- hostlink.late_completions
  ⟨0x6800B0, .u64, accRo, 0, 0, .any, true⟩, -- hostlink.discarded_completions
  ⟨0x6800C0, .u64, accRo, 0, 0, .any, true⟩, -- hostlink.poisoned_completions
  ⟨0x6800D0, (.bitset 2), accRo, 0, 0, .any, false⟩, -- hostlink.stopped
  ⟨0x6800E0, .u32, accRo, 0, 0, .any, true⟩, -- hostlink.flr_count
  ⟨0x6800F0, .u32, accRo, 0, 0, .any, true⟩ -- hostlink.link_downs
]

/-- Rows of group 0x68, part 2. -/
def objRows68_1 : List ObjRow := [
  ⟨0x680100, .enum, accRwP, 0, 4, (.codeRange 0 8 []), false⟩, -- hostlink.bar2_size
  ⟨0x680110, .enum, accRo, 0, 4, .any, false⟩, -- hostlink.bar2_size_active
  ⟨0x680120, .u64, accRo, 0, 0, .any, true⟩, -- hostlink.bar2_refused
  ⟨0x680130, .u64, accRo, 0, 0, .any, true⟩, -- hostlink.bar0_partial
  ⟨0x680200, .u64, accRw, 64, 0, (.mult 65536 0 281474976710655), false⟩, -- hostlink.win_target
  ⟨0x680210, .u64, accRw, 64, 0, (.mult 65536 0 18446744073709551615), false⟩, -- hostlink.win_size
  ⟨0x680220, (.bitset 2), accRw, 64, 0, (.bits 3 0), false⟩, -- hostlink.win_attr
  ⟨0x680300, .u16, accRwdP, 0, 7547, .any, false⟩, -- hostlink.subsys_vendor
  ⟨0x680310, .u16, accRwdP, 0, 1, .any, false⟩, -- hostlink.subsys_id
  ⟨0x680400, .enum, accRo, 0, 0, .any, false⟩, -- hostlink.int_mode
  ⟨0x680410, .u8, accRo, 0, 0, .any, false⟩ -- hostlink.msi_vectors
]

/-- The object table of group 0x68. -/
def objRows68 : List ObjRow := objRows68_0 ++ objRows68_1

/-- Rows of group 0x70, part 1. -/
def objRows70_0 : List ObjRow := [
  ⟨0x700000, .u8, accRwP, 0, 3, (.range 1 255 []), false⟩, -- faults.retry_limit
  ⟨0x700010, .u32, accRwP, 0, 1000, (.range 10 3600000 []), false⟩, -- faults.retry_window
  ⟨0x700020, .bool, accRwP, 0, 0, (.range 0 1 []), false⟩, -- faults.retire_persist
  ⟨0x700030, .bool, accRwP, 0, 0, (.range 0 1 []), false⟩, -- faults.flow_retire
  ⟨0x700040, .u16, accWo, 0, 0, .any, false⟩, -- faults.reinstate
  ⟨0x700050, .u32, accWo, 0, 0, (.key 1129075284), false⟩, -- faults.list_clear
  ⟨0x700100, (.blob 16777216), accRo, 0, 0, .any, false⟩, -- faults.retired_list
  ⟨0x700110, .u16, accRo, 0, 0, .any, false⟩, -- faults.retired_count
  ⟨0x700200, (.blob 8192), accRo, 0, 0, .any, false⟩, -- faults.log
  ⟨0x700210, .u64, accRo, 0, 0, .any, true⟩, -- faults.log_total
  ⟨0x700300, (.bitset 2), accRwP, 0, 0xb7, (.bits 511 0), false⟩, -- faults.alert_mask
  ⟨0x700310, (.bitset 2), accRw, 0, 0, (.bits 511 511), false⟩ -- faults.alert_status
]

/-- The object table of group 0x70. -/
def objRows70 : List ObjRow := objRows70_0

/-- Rows of group 0x74, part 1. -/
def objRows74_0 : List ObjRow := [
  ⟨0x740100, .enum, accRo, 0, 0, .any, false⟩, -- power.clock_step
  ⟨0x740000, (.bitset 2), accRw, 0, 0, (.bits 31 31), false⟩, -- power.status
  ⟨0x740010, .i32, accRo, 0, 0, .any, false⟩, -- power.die_temp
  ⟨0x740020, .i32, accRo, 16, 0, .any, false⟩, -- power.die_sensor
  ⟨0x740030, .i32, accRwP, 0, 100, (.range 60 104 []), false⟩, -- power.temp_warn
  ⟨0x740110, .u64, accRo, 0, 0, .any, true⟩, -- power.sag_count
  ⟨0x740120, .u64, accRo, 0, 0, .any, true⟩, -- power.steps_half
  ⟨0x740130, .u16, accRwP, 0, 700, (.range 680 730 []), false⟩, -- power.sag_mv
  ⟨0x740140, .u16, accRwP, 0, 685, (.range 670 65535 []), false⟩, -- power.sag_deep_mv
  ⟨0x740150, .u32, accRo, 0, 0, .any, true⟩ -- power.thermal_warnings
]

/-- The object table of group 0x74. -/
def objRows74 : List ObjRow := objRows74_0

/-- Rows of group 0x78, part 1. -/
def objRows78_0 : List ObjRow := [
  ⟨0x780000, .time96, accRw, 0, 0, .any, false⟩, -- counters.snapshot_at
  ⟨0x780010, .u32, accRo, 0, 0, .any, false⟩, -- counters.snapshot_gen
  ⟨0x780020, .time96, accRo, 0, 0, .any, false⟩, -- counters.snapshot_time
  ⟨0x780030, .u32, accRw, 0, 0, (.range 10 4000000000 [0]), false⟩, -- counters.snapshot_period
  ⟨0x780040, (.bitset 2), accRw, 0, 0, (.bits 3 3), false⟩, -- counters.snapshot_status
  ⟨0x780050, .u8, accWo, 0, 0, (.only 1), false⟩ -- counters.snapshot_now
]

/-- The object table of group 0x78. -/
def objRows78 : List ObjRow := objRows78_0

/-- Rows of group 0x7C, part 1. -/
def objRows7C_0 : List ObjRow := [
  ⟨0x7C0000, .enum, accRo, 0, 0, .any, false⟩, -- plans.active
  ⟨0x7C0010, .enum, accRo, 0, 0, .any, false⟩, -- plans.state
  ⟨0x7C0011, .enum, accRo, 0, 0, .any, false⟩, -- plans.state
  ⟨0x7C0100, .u8, accWo, 0, 0, (.only 1), false⟩, -- plans.seal
  ⟨0x7C0101, .u8, accWo, 0, 0, (.only 1), false⟩, -- plans.seal
  ⟨0x7C0110, .u8, accWo, 0, 0, (.only 1), false⟩, -- plans.clear
  ⟨0x7C0111, .u8, accWo, 0, 0, (.only 1), false⟩, -- plans.clear
  ⟨0x7C0120, .u32, accRo, 0, 0, .any, false⟩, -- plans.entries
  ⟨0x7C0121, .u32, accRo, 0, 0, .any, false⟩, -- plans.entries
  ⟨0x7C0130, .u32, accRo, 0, 0, .any, false⟩, -- plans.bytes
  ⟨0x7C0131, .u32, accRo, 0, 0, .any, false⟩, -- plans.bytes
  ⟨0x7C0140, .ref, accRo, 0, 0, .any, false⟩, -- plans.fail_object
  ⟨0x7C0141, .ref, accRo, 0, 0, .any, false⟩, -- plans.fail_object
  ⟨0x7C0150, .u8, accRo, 0, 0, .any, false⟩, -- plans.fail_code
  ⟨0x7C0151, .u8, accRo, 0, 0, .any, false⟩, -- plans.fail_code
  ⟨0x7C0160, .u8, accWo, 0, 0, (.only 1), false⟩ -- plans.save
]

/-- Rows of group 0x7C, part 2. -/
def objRows7C_1 : List ObjRow := [
  ⟨0x7C0161, .u8, accWo, 0, 0, (.only 1), false⟩, -- plans.save
  ⟨0x7C0200, (.bitset 2), accRw, 0, 0, (.bits 7 7), false⟩, -- plans.status
  ⟨0x7C0210, .u32, accRw, 0, 1000, (.range 1 60000 []), false⟩, -- plans.boundary_timeout
  ⟨0x7C0220, .time96, accRo, 0, 0, .any, false⟩, -- plans.last_pitch
  ⟨0x7C0230, .u32, accRo, 0, 0, .any, true⟩, -- plans.pitch_count
  ⟨0x7C0240, .u32, accRo, 0, 0, .any, true⟩, -- plans.late_pitches
  ⟨0x7C0250, .enum, accRwP, 0, 0, (.codes [0, 1, 2] []), false⟩ -- plans.boot_pitch
]

/-- The object table of group 0x7C. -/
def objRows7C : List ObjRow := objRows7C_0 ++ objRows7C_1

/-- The group table of Table 3.3 (group 0x10 stands for every quad group). -/
def objGroup (g : Nat) : List ObjRow :=
  match g with
  | 0x00 => objRows00
  | 0x01 => objRows01
  | 0x02 => objRows02
  | 0x08 => objRows08
  | 0x0C => objRows0C
  | 0x10 => objRows10
  | 0x20 => objRows20
  | 0x24 => objRows24
  | 0x28 => objRows28
  | 0x30 => objRows30
  | 0x34 => objRows34
  | 0x38 => objRows38
  | 0x40 => objRows40
  | 0x48 => objRows48
  | 0x4C => objRows4C
  | 0x50 => objRows50
  | 0x58 => objRows58
  | 0x60 => objRows60
  | 0x68 => objRows68
  | 0x70 => objRows70
  | 0x74 => objRows74
  | 0x78 => objRows78
  | 0x7C => objRows7C
  | _ => []

/-- Quad groups 0x10 to 0x1F (Table 3.3). -/
abbrev isQuadGroup (g : Nat) : Bool := decide (0x10 ≤ g) && decide (g ≤ 0x1F)

/-- The row of an object ID, if a table of the manual lists it (R79). -/
def objRow? (id : Nat) : Option ObjRow :=
  let g := id / 65536
  if isQuadGroup g then
    ((objGroup 0x10).find? (fun r => r.id == id - (g - 0x10) * 65536)).map (fun r => { r with id := id })
  else (objGroup g).find? (fun r => r.id == id)

/-- Every row, the quad groups at q = 0. -/
def allRows : List ObjRow :=
  objRows00 ++ objRows01 ++ objRows02 ++ objRows08 ++ objRows0C ++ objRows10 ++ objRows20 ++ objRows24 ++ objRows28 ++ objRows30 ++ objRows34 ++ objRows38 ++ objRows40 ++ objRows48 ++ objRows4C ++ objRows50 ++ objRows58 ++ objRows60 ++ objRows68 ++ objRows70 ++ objRows74 ++ objRows78 ++ objRows7C

end Sys2Proof.Machine
end

