-- ==== Sys2Proof/Machine/Tab.lean ====
section
/-! DEFINITION. Indexed state as plain data: a table is a list of (key, value) pairs in one canonical form, keys strictly rising and no entry equal to the value an unlisted key reads as. -/

namespace Sys2Proof.Machine

open Sys2Proof

/-- A table of values by key; an unlisted key reads as the default its reader names. -/
abbrev Tab (α : Type) := List (Nat × α)

/-- The value at key k, or d where the table lists none. -/
def tabGet {α : Type} (d : α) (k : Nat) : List (Nat × α) → α
  | [] => d
  | (j, v) :: t => if j = k then v else tabGet d k t

/-- The entry at key k, if the table lists one. -/
def tabFind {α : Type} (k : Nat) : List (Nat × α) → Option α
  | [] => none
  | (j, v) :: t => if j = k then some v else tabFind k t

/-- Remove whatever is listed at key k. -/
def tabErase {α : Type} (k : Nat) : List (Nat × α) → List (Nat × α)
  | [] => []
  | (j, v) :: t => if j = k then tabErase k t else (j, v) :: tabErase k t

/-- Put v at key k, keys rising, whatever v is. -/
def tabInsert {α : Type} (k : Nat) (v : α) : List (Nat × α) → List (Nat × α)
  | [] => [(k, v)]
  | (j, w) :: t =>
    if k < j then (k, v) :: (j, w) :: t
    else if k = j then (k, v) :: t
    else (j, w) :: tabInsert k v t

/-- Put v at key k; the default value is kept by listing nothing. -/
def tabPut {α : Type} [DecidableEq α] (d : α) (k : Nat) (v : α) (t : List (Nat × α)) : List (Nat × α) :=
  if v = d then tabErase k t else tabInsert k v t

/-- Keys strictly rising. -/
def tabSorted {α : Type} : List (Nat × α) → Bool
  | [] => true
  | [_] => true
  | (j, _) :: (k, w) :: t => decide (j < k) && tabSorted ((k, w) :: t)

/-- Put an element into a list that a key orders, after those of equal key. -/
def insertBy {α : Type} (key : α → Nat) (x : α) : List α → List α
  | [] => [x]
  | y :: t => if key x < key y then x :: y :: t else y :: insertBy key x t

/-- Order a list by a key, equal keys in their order of arrival. -/
def sortBy {α : Type} (key : α → Nat) (l : List α) : List α := l.foldl (fun acc x => insertBy key x acc) []

end Sys2Proof.Machine
end

