-- ==== Sys2Proof/Machine/State.lean ====
section
/-! DEFINITION. The state of the block: every register, queue, buffer, mode and pin the spec gives it, as plain data. Objects of the dictionary whose value nothing else determines live in `objs` (and `blobs`) by packed ID and index; everything else has its own field. -/

namespace Sys2Proof.Machine

open Sys2Proof

/-- Why a step stops with a fault. No command of the table does: the type is closed and `unreachable` is raised by no meaning (safe). -/
inductive Fault where
  /-- raised by nobody: every command of the table has a next state -/
  | unreachable
deriving DecidableEq, Repr

/-- Why a command is refused. -/
inductive Refusal where
  /-- a command whose meaning is not written yet; raised by the dispatch only (safe: the model stops) -/
  | notModelled (mnemonic : String)
deriving DecidableEq, Repr

/-! ### Modes (02_modes) -/

/-- The operating modes of Table 2.1. -/
inductive Mode where
  | cold | boot | dormant | ready | capture | burst | generate | analyse | replay | diagnostic | limp | halt
deriving DecidableEq, Repr, Inhabited

/-- How HBM stands (R64, R69, R344). -/
inductive HbmState where
  | poweredDown | selfRefresh | running
deriving DecidableEq, Repr, Inhabited

/-- What a Boot in progress has passed (Table 2.4). -/
inductive BootStep where
  | kilnReset | imageLoaded | firmwareStarted | trained | recovery | done
deriving DecidableEq, Repr, Inhabited

/-- Mode controller state beside the mode objects. -/
structure ModeState where
  current     : Mode := .boot            -- R42
  target      : Option Mode := none      -- R47: the transition in progress
  draining    : Bool := false            -- R48: modes.transition reads 2
  pendingReq  : Option Mode := none      -- R47: the pending request
  step        : BootStep := .kilnReset   -- Table 2.4
  bootCold    : Bool := true             -- R55: whether this Boot came from a cold reset
  warmWait    : Option Nat := none       -- R54: a warm reset waiting for stores (the reset_cause it will record)
  grace       : Bool := false            -- R69: continued delivery after a watchdog cause
  hbm         : HbmState := .poweredDown -- R64
  hbmEpoch    : Nat := 0                 -- R64, R344: power-ups of HBM whose contents are unspecified
  wakeTarget  : Option Nat := none       -- R52, R66: the time the wake in progress was to meet (TIME96)
  wakeQueued  : Bool := false            -- R52: a wake source fired during Ready to Dormant
  wakeAtPassed : Bool := false           -- R137: a step has carried the time past the enabled wake time
  shutdown    : Bool := false            -- R76: an orderly shutdown is under way
  causeTick : Option Nat := none         -- R51: the tick of the last Limp or Halt cause
  limpWant : Nat := 0                    -- R68: causes found in this command, not yet acted on
  haltWant : Nat := 0                    -- R73
  bootEnd  : Nat := 0                    -- R337: the kiln tick at which Boot ended
deriving DecidableEq, Repr

/-! ### The dictionary, plans and Linob (03_dictionary) -/

/-- MB_STATE [1:0] (R99). -/
inductive MbPhase where
  | idle | busy | done
deriving DecidableEq, Repr, Inhabited

/-- One mailbox of BAR0 (Table 3.5). -/
structure Mailbox where
  cmd    : Word := 0
  obj    : Word := 0
  len    : Word := 0
  req    : List Byte := []
  phase  : MbPhase := .idle
  seq    : Half := 0
  status : Byte := 0
  rsp    : List Byte := []
deriving DecidableEq, Repr

/-- A Linob session (R112, R113). -/
structure Session where
  num     : Nat
  half    : Bool
  slot    : Nat
  secure  : Bool
  src     : Endpoint
  cn      : List Byte
  dn      : List Byte
  key     : List Byte
  highest : Nat
  stored  : List Byte
  devSeq  : Nat
deriving DecidableEq, Repr

/-- The value of an object: a number of the type's width, or bytes of a STRING or BLOB. -/
inductive PVal where
  | num (n : Nat)
  | bytes (b : List Byte)
deriving DecidableEq, Repr, Inhabited

/-- A subscription (R96, R97). -/
structure Sub where
  session : Nat
  id      : Nat
  index   : Nat
  mode    : Nat
  minMs   : Nat
  periodMs : Nat
  last    : Option PVal
  changes : Nat
  sinceMs : Nat
deriving DecidableEq, Repr

/-- Who a request is from, once its transport has accepted it (R86, R98, R116). -/
inductive Initiator where
  | mailbox (m : Nat)
  | mgmt (session : Nat)
  | cascade (session : Nat)
  | bcast
  | firmware
deriving DecidableEq, Repr, Inhabited

/-- A block transfer in progress (R94, R95). -/
structure Transfer where
  id    : Nat
  index : Nat
  who   : Initiator
  plan  : Option PlanId
  data  : List Byte
deriving DecidableEq, Repr

/-- Plan states, Table 3.8. -/
inductive PlanState where
  | empty | opened | sealed | scheduled | active
deriving DecidableEq, Repr, Inhabited

/-- One staged entry: object ID, index, value. -/
structure PlanEntry where
  id    : Nat
  index : Nat
  value : PVal
  secure : Bool
deriving DecidableEq, Repr

/-- A plan (R118, R119). -/
structure Plan where
  state   : PlanState := .empty
  entries : List PlanEntry := []
deriving DecidableEq, Repr

/-- How the response to a request in arming is to be sent (R121). -/
inductive Reply where
  | none
  | mailbox (m : Nat) (seq : Half)
  | linob (src : Endpoint) (n seq obj : Nat)
  | bcast
deriving DecidableEq, Repr

/-- The scheduled pitch (R121, R122). -/
structure Pitch where
  plan    : PlanId
  when_   : Nat
  flow    : Nat
  time    : Nat
  armed   : Bool
  secure  : Bool                          -- R46: whether its initiator is secure
  late    : Bool
  reply   : Reply
  armedAt : Nat := 0                      -- R122: the tick in which arming ended
deriving DecidableEq, Repr

/-- One of the two copies of the persistent store (R90): object values, the two saved plans, the retirement list. -/
structure StoreCopy where
  seq     : Nat := 0                      -- which copy is the newer
  good    : Bool := true                  -- its check passes
  objs    : List (Nat × PVal) := []
  planA   : Option (List PlanEntry) := none
  planB   : Option (List PlanEntry) := none
  retired : List (List Byte) := []
deriving DecidableEq, Repr

/-- What the SPI flash holds (the table of R59's section, R89, R90): two image slots, and the two copies of the persistent store. -/
structure Flash where
  first   : StoreCopy := {}
  second  : StoreCopy := {}
  imageA  : List Byte := []
  imageB  : List Byte := []
  clearPending : Bool := false            -- R91
  writes  : Nat := 0                      -- `dict.persist_writes`: store writes since manufacture
deriving DecidableEq, Repr

/-- The second copy is the one in use: its check passes, and it is the newer or the first copy's fails (R90). -/
def Flash.useSecond (f : Flash) : Bool := f.second.good && (!f.first.good || decide (f.first.seq < f.second.seq))

/-- The copy of the store in use: the newest whose check passes (R90). -/
def Flash.store (f : Flash) : StoreCopy := if f.useSecond then f.second else f.first

/-- Write the copy not in use with new contents, which makes it the newest (R90). -/
def Flash.putStore (c : StoreCopy) (f : Flash) : Flash :=
  let n := { c with seq := f.store.seq + 1, good := true }
  if f.useSecond then { f with first := n } else { f with second := n }

/-- A write of the copy not in use that does not end: its check fails from then on (R89, R90). -/
def Flash.spoil (f : Flash) : Flash :=
  if f.useSecond then { f with first := { f.first with good := false } } else { f with second := { f.second with good := false } }

/-- What an outstanding persistent store will write (R89). -/
inductive StoreItem where
  | object (key : Nat)
  | plan (p : PlanId) (entries : List PlanEntry)
  | retiredList
  /-- the count of a lamp channel without head memory (R469) -/
  | lampCount (n v : Nat)
deriving DecidableEq, Repr

/-- A client of the management port whose message was forwarded: the member, session and sequence it named (R114). -/
structure Client where
  member  : Nat
  session : Nat
  seq     : Nat
  src     : Endpoint
deriving DecidableEq, Repr

/-- Dictionary service state beside its objects. -/
structure DictState where
  mbox     : List (Nat × Mailbox) := []
  sessions : List Session := []
  subs     : List Sub := []
  transfers : List Transfer := []
  bcastSeq : Nat := 0                     -- R115
  planA    : Plan := {}
  planB    : Plan := {}
  pitch    : Option Pitch := none
  waiting  : List StoreItem := []         -- R89: stores outstanding
  flash    : Flash := {}
  routes   : List (Nat × Nat) := []       -- R153: device address to quad
  clients  : List Client := []            -- R114: newest first
  mgmtDrop : Nat := 0                     -- R105: packets of the management port discarded
deriving DecidableEq, Repr

/-! ### The timekeeper (04_timekeeper) -/

/-- A pending step or set (R136): a set to a TIME96, then offsets in Q32.32 ns. -/
structure PendStep where
  set : Option Nat := none
  add : Int := 0
deriving DecidableEq, Repr

/-- Timekeeper state (R129 to R158). -/
structure TimeState where
  sec   : Nat := 0                        -- R129
  ns    : Nat := 0                        -- R129
  frac  : Nat := 0                        -- R129
  inc   : Nat := 0x0800000000             -- R129: increment in force
  incNext : Option Nat := none            -- R130: written since the last tick
  step  : Option PendStep := none         -- R135, R136: pending step
  ticks : Nat := 0                        -- R174: kiln ticks since kiln reset
  latchNs : Nat := 0                      -- R133: TK_LATCH
  latchSecLo : Nat := 0                   -- R133: TK_SEC_LO
  latchSecHi : Nat := 0                   -- R133: TK_SEC_HI
  latchShort : Nat := 0                   -- R133: TK_SHORT
  cmpArmed : List (Nat × Nat) := []       -- R154: 0 disarmed, 1 armed, 2 armed with its target already reached; 3 and 4 the same two from the next tick on
  snapArmed : Option Nat := none          -- R156: the armed snapshot's time
  snapLate  : Bool := false               -- R157, R137: the armed time had passed
  snapTick  : Nat := 0                    -- R157: the tick in which it was armed
  snapNow   : Bool := false               -- R157: a snapshot asked for at the next tick
  snapDue   : Bool := false               -- R157: a snapshot asked for in the tick before
  shadow    : List (Nat × Nat) := []      -- R512: counters at the last snapshot, by window offset
  snapUnlocked : Bool := false            -- R158: bit 31 of SNAP_NS
  goodRun   : Nat := 0                    -- R141: consecutive servo updates within the threshold
  ptpMaster : Option Nat := none          -- R143: data set of the present master, none in holdover
  ptpT1     : Option Nat := none          -- R142: departure of the last Sync
  ptpT2     : Option Nat := none          -- R142: arrival of the last Sync
  ptpT3     : Option Nat := none          -- R142: departure of the last Delay_Req
  probes    : List (Nat × List Int) := [] -- R148: last 16 hop delays per quad, newest first, in 2^-16 ns
  probeT1   : List (Nat × Nat) := []      -- R148: departure of the outstanding probe per quad
  probeDrop : Nat := 0                    -- R148: probes discarded as outliers
  beaconOff : List Int := []              -- R149: offsets of the last 64 beacons, newest first, in 2^-16 ns
  beaconRun : Nat := 0                    -- R149: consecutive beacons within 1 ns
  beaconMean : Nat := 0                   -- R149: beacons since the increment was last adjusted from the mean
  parentLock : Bool := false              -- R149: the parent reports lock
  holding   : Bool := false               -- R41: the parent has lost the lock it reported, so the increment is kept
  cutOff    : Bool := false               -- R41: outside the brewhouse time domain since the upstream quad was retired
  rootAddr  : Nat := 0                    -- R147: root address of the last beacon
  bhSeq     : List (Nat × Nat) := []      -- Table 7.6: next sequence number per cascade frame type
  refused   : List (Nat × Bool) := []     -- R152: links refused
  ppsDue    : Option Nat := none          -- R145: the tick time has passed the PPS offset, with the instant of the edge
  ppsActive : Bool := false               -- R145: a pulse is on
  ppsEnds   : Nat := 0                    -- R145: when it ends
  announced : List (Nat × List Nat) := [] -- R153: paths each address was announced on in this second
  announcedBefore : List (Nat × List Nat) := [] -- R153: the same of the second before
  dupDrop   : Nat := 0                    -- R153: Linob messages discarded for a duplicate address
deriving DecidableEq, Repr

/-! ### The event fabric (05_event_fabric) -/

/-- Where an arrival came from, in the order of R167. -/
inductive Origin where
  | source (n : Nat)
  | host | mgmt | cascade | firmware
deriving DecidableEq, Repr

/-- An occurrence on its way to a channel's consumer (R162). -/
structure Arrival where
  chan : Nat
  tick : Nat
  ts   : Nat
  due  : Nat
  trig : Option Nat
  orig : Origin
  late : Bool
deriving DecidableEq, Repr

/-- A merged occurrence (R167). -/
structure Occ where
  ts   : Nat
  due  : Nat
  trig : Nat
  late : Bool
deriving DecidableEq, Repr, Inhabited

/-- Storm guard window of a channel (R174). -/
structure Storm where
  window : Nat := 0
  count  : Nat := 0
deriving DecidableEq, Repr

/-- A grist cell's own state (R171); q is the object `events.grist_q`. -/
structure Grist where
  arrived : List (Nat × Bool) := []
  tog     : List (Nat × Bool) := []
  held    : List (Nat × Bool) := []
  acc     : Bool := false
  lastR   : Bool := false
  run     : Nat := 0
  fireNext : Bool := false
  clear   : Bool := false                 -- R172: a write clears in the next tick
deriving DecidableEq, Repr

/-- A scheduled brewhouse fire (R181). -/
structure SchedFire where
  chan : Nat
  t    : Nat
  trig : Nat
deriving DecidableEq, Repr

/-- A trigger input pin (R175 to R177). -/
structure TrigIn where
  level  : Bool := false                  -- the pin level
  edge   : Option (Nat × Nat) := none     -- an edge not yet accepted: the tick it belongs to, its timestamp
  lastTick : Option Nat := none           -- the tick of the accepted edge
  stuck  : Bool := false
deriving DecidableEq, Repr

/-- A trigger output pin (R178); `active` is relative to its polarity. -/
structure TrigOut where
  active  : Bool := false
  pulsing : Bool := false
  ends    : Nat := 0                      -- the instant the pulse in progress ends
deriving DecidableEq, Repr

/-- An event of a mash domain on its way into the fabric (R27): its source, its timestamp, and whether the second of the next two ticks takes it. -/
structure Crossing where
  src  : Nat
  ts   : Nat
  wait : Bool
deriving DecidableEq, Repr

/-- Interrupt coalescing of a vector (R184). -/
structure Vec where
  count : Nat := 0
  timer : Bool := false
deriving DecidableEq, Repr

/-- Event fabric state beside its objects. -/
structure FabState where
  arrivals : List Arrival := []
  cross    : List Crossing := []             -- R27
  pend     : List (Nat × Option Occ) := []   -- R168
  storm    : List (Nat × Storm) := []
  grist    : List (Nat × Grist) := []
  sched    : List SchedFire := []            -- R181: scheduled fires held
  trigSeen : List (Nat × Nat) := []          -- R251: source and sequence of trigger frames acted on, newest first
  srcStatus : List (Nat × Bool) := []        -- Table 5.4
  vec      : List (Nat × Vec) := []
  pba      : List (Nat × Bool) := []         -- R184
  unmasked : List (Nat × Bool) := []         -- R497: every vector is masked after reset
  intx     : Bool := false                   -- R186
  trigIn   : List (Nat × TrigIn) := []
  trigOut  : List (Nat × TrigOut) := []
  flowTrig : List (Nat × Option Occ) := []   -- Table 5.2: an occurrence not yet taken by the flow
  prev     : List (Nat × Nat) := []          -- R164: values this tick still uses
deriving DecidableEq, Repr

/-! ### What the block sends out -/

/-- Everything the block sends, in the order it sends it (the model's own record of its outputs). -/
inductive Emission where
  /-- a Linob message to a client or member -/
  | linob (dst : Endpoint) (bytes : List Byte)
  /-- a cascade frame on quad q, header to CRC (R249, Table 7.6) -/
  | cascade (q : Nat) (bytes : List Byte)
  /-- bits that a lane under test sends in Diagnostic: its generator's, or in far-end loopback the recovered data (R213, R215, R216) -/
  | lineBits (n : Nat) (bits : List Bool)
  /-- the alignment markers of a cascade quad, M0 to M7 of lanes 0 to 3 in one block period, with sync header 10 and not scrambled (R248) -/
  | alignMarkers (q : Nat) (markers : List (List Byte))
  /-- an ordered set change on a port: 0 normal, 1 remote fault, 2 idle only, 3 local fault (R230, R231) -/
  | faultSignal (port : Nat) (code : Nat)
  /-- interrupt messages (R184, R186) -/
  | msix (v : Nat)
  | msi (n : Nat)
  | intx (asserted : Bool)
  /-- memory requests to the host (R360, R486); a read of length 0 is of one doubleword with no byte enabled (R363) -/
  | memWrite (addr : Nat) (bytes : List Byte)
  | memRead (tag addr len : Nat)
  /-- a completion to the host: its data and poisoned attribute, or Unsupported Request (R35, R483, R496) -/
  | completion (data : List Byte) (poisoned : Bool)
  | unsupportedRequest
  /-- an Ethernet frame on a port, with its FCS, from the firmware's queue -/
  | fwFrame (port : Nat) (bytes : List Byte)
  /-- a paced stream packet on a port, with its FCS -/
  | packet (port : Nat) (flow : Nat) (bytes : List Byte)
  /-- a MAC control frame, PAUSE or PFC, with its FCS (R245) -/
  | macControl (port : Nat) (bytes : List Byte)
  /-- a frame on the management port, with its FCS -/
  | mgmtFrame (bytes : List Byte)
  /-- PTP messages sent: Sync, Follow_Up, Delay_Req, Delay_Resp, Announce with the ST 2059-2 TLV (R143, Table 4.3) -/
  | ptpSync (port : Nat) (twoStep : Bool) (origin : Nat)
  | ptpFollowUp (port : Nat) (origin : Nat)
  | ptpDelayReq (port : Nat)
  | ptpDelayResp (port : Nat) (receive : Nat)
  | ptpAnnounce (port : Nat) (domain priority1 clockClass priority2 : Nat) (utc : Nat)
  /-- pin edges: time of the edge and level -/
  | trigOut (n : Nat) (t : Nat) (level : Bool)
  | strobe (n : Nat) (t : Nat) (on : Bool)
  | pps (t : Nat) (level : Bool)
  | quadEdge (n : Nat) (a b z : Bool)
  | wakeN
  /-- the lamp head bus (R468, R469) -/
  | headWrite (n : Nat) (addr : Nat) (bytes : List Byte)
  /-- the warm reset takes the link down (R54) -/
  | linkDown
deriving DecidableEq, Repr

/-! ### Lanes, quads and ports (06_lanes, 07_ports_flows) -/

/-- A 64b/66b block as a lane passes it to the PCS (R195): control (10) or data (01), and the 64 descrambled payload bits, bit 0 first. -/
structure RxBlock where
  control : Bool
  payload : Nat
deriving DecidableEq, Repr

/-- A lane's own state beside its objects. -/
structure LaneX where
  relock  : Bool := false                 -- R218: a re-lock is in progress
  pulled  : Option Nat := none            -- R221: the tick in which another lane's fault made it re-lock
  waitRef : Bool := false                 -- R223: waiting in state 1 for its reference
  held    : Bool := false                 -- R201, R203: CTLE setting and taps are held for a warm resume
  cdr     : Bool := false                 -- R202, R207: CDR lock
  slip    : Bool := false                 -- R196: the next bit is passed over, which slips the candidate position
  fill    : Nat := 0                      -- R196: bits of the block at the candidate position received so far
  head    : Bool := false                 -- R195: its first header bit
  control : Bool := false                 -- R195: its header is 10
  valid   : Bool := false                 -- R196: its header is 01 or 10
  payload : Nat := 0                      -- R195: its payload as received, bit 0 first
  descr   : Nat := 0                      -- R195: the descrambler's last 58 payload bits, newest lowest
  block   : Option RxBlock := none        -- R196: the last block passed to the PCS
  good    : Nat := 0                      -- R196
  bad     : Nat := 0                      -- R196
  seen    : Nat := 0                      -- R196
  reg     : List Bool := []               -- R214: the checker's register, newest bit first
  run     : Nat := 0                      -- R214: bits predicted in a row
  win     : Nat := 0                      -- R214: bits of the present window
  winErr  : Nat := 0                      -- R214: errors of the present window
  gen     : List Bool := []               -- R213: the generator's register, newest bit first; empty: not seeded
  genBits : Nat := 0                      -- R215: bits the generator has sent
  injPend : Bool := false                 -- R215: the next generator bit has a single injection, counted already
deriving DecidableEq, Repr

/-- A port's own state beside its objects. -/
structure PortX where
  aligned : Bool := false                 -- R230, R231: PCS and FEC alignment held
  order   : List Nat := []                -- R198: the logical lane each physical lane carries
  hiBer   : Bool := false                 -- R230
  localF  : Bool := false                 -- R230: local fault received
  remoteF : Bool := false                 -- R230: remote fault received
  up      : Bool := false                 -- R230: the up state last signalled
  signal  : Nat := 0                      -- R230: fault signalling transmitted
  held    : Nat := 0                      -- R245: priorities held by requesters, as last sent
  stopped : List (Nat × Nat) := []        -- R246: quanta received per priority stopped
  waiting : List (Nat × Emission) := []   -- R246: firmware frames a stop holds back, with their bytes, oldest first
  igmp1   : Nat := 0                      -- R241: the second until which IGMPv1 is spoken
  igmp2   : Nat := 0                      -- R241: the second until which IGMPv2 is spoken
  mld1    : Nat := 0                      -- R241: the second until which MLDv1 is spoken
  excSec  : Nat := 0                      -- R239: the second the exception count belongs to
  excCount : Nat := 0                     -- R239: exception frames sent in it
deriving DecidableEq, Repr

/-- A group a flow has joined: where, which, and its source, 0 for any (R241). -/
structure Member where
  port  : Nat
  group : Nat
  src   : Nat
deriving DecidableEq, Repr

/-- A frame pending on a cascade link (R249, R253): its rank in the order of R253, its header, and its payload, into which the departure time goes as it leaves where `stamped` says so (R250). -/
structure BhFrame where
  rank    : Nat
  typ     : Nat
  flags   : Nat
  dest    : Nat
  src     : Nat
  hops    : Nat
  seq     : Nat
  pre     : List Byte
  stamped : Bool
  post    : List Byte
  exp     : Option Nat := none            -- Table 5.2: the cascade export whose message it is
deriving DecidableEq, Repr

/-- The transmit side of a cascade link (R248, R253): bytes of the frame being sent still to go, the frames behind it, and eighths of a block since the last alignment marker. -/
structure BhLink where
  left   : Nat := 0
  queue  : List BhFrame := []
  blocks : Nat := 0
deriving DecidableEq, Repr

/-- Lane, quad and port state. -/
structure LanePort where
  bh    : List (Nat × BhLink) := []       -- by quad
  lanes : List (Nat × LaneX) := []
  ports : List (Nat × PortX) := []
  refLost : List (Nat × Bool) := []       -- R223: references lost: 0 to 15 QREF_P/N, 16 BH_REFCLK_P/N
  refSeen : List (Nat × Bool) := []       -- Table 6.7: references found in range
  joined : List (Nat × Option Member) := []  -- R241: the group each flow has joined
deriving DecidableEq, Repr

/-! ### The underback and the lane staging (08_underback, 09_lauter_casks) -/

/-- Where the classifier sends a packet (R261). -/
inductive Dest where
  | flow (f : Nat)
  | firmware
  | exception (reason : Nat)
deriving DecidableEq, Repr, Inhabited

/-- One word of the chain with its sideband (R260, Table 8.2). -/
structure UbWord where
  kind : Nat := 0
  last : Nat := 0
  data : List Byte := []
  check : BitVec 10 := 0                  -- R260: the check bits of the data
  parity : Bool := false                  -- Table 8.2 bit 0
  pkt  : Nat := 0
deriving DecidableEq, Repr, Inhabited

/-- A descriptor (R261). -/
structure UbDesc where
  pkt  : Nat
  dest : Dest
  ts   : Nat
  len  : Nat
  loop : Bool
  pri  : Nat
  corrected : Nat := 0                    -- corrected errors in its words
deriving DecidableEq, Repr

/-- The packet arriving at the MAC side: the words still to come, whether it is bad or being dropped (R262, R263, R266). -/
structure UbCur where
  desc : UbDesc
  todo : List (List Byte)
  bad  : Bool
  drop : Bool
deriving DecidableEq, Repr

/-- A gap marker (Table 8.3), with the first packet it stands for. -/
structure Marker where
  pkt   : Nat
  flowValid : Bool
  flow  : Nat
  words : Nat
  cuts  : Nat
  time  : Nat
deriving DecidableEq, Repr

/-- One underback, or the combined FIFO of a bonded quad at its lane 4q (R258, R278). -/
structure Ub where
  chain  : List UbWord := []              -- front first; the marker is among them as a word of kind 2
  descs  : List UbDesc := []              -- R261
  cur    : Option UbCur := none           -- the packet in progress
  marker : Option Marker := none          -- R267: the reserved stage
  lastRead : UbWord := {}                 -- R270: what a read of the empty chain returns
  nextPkt : Nat := 0
deriving DecidableEq, Repr

/-- A packet in a lane region of the staging SRAM (R262, R290). -/
structure Staged where
  desc : UbDesc
  data : List Byte
  ready : Bool
deriving DecidableEq, Repr

/-- A rewind or gap notice on its way to the lauter engine (R18, R263, R268). -/
structure Notice where
  gap  : Bool
  flow : Option Nat
  lane : Nat
  pkt  : Nat
deriving DecidableEq, Repr

/-- One placement (R288): its cask and cask offset, the internal address, the bytes, and whether its cask is still the one it was issued for (R314). -/
structure Placement where
  cask : Nat
  off  : Nat
  addr : Nat
  data : List Byte
  live : Bool := true
  pkt  : Nat := 0                         -- R290: the packet of its region that it belongs to
deriving DecidableEq, Repr

/-- A lane region (R290). -/
structure Region where
  packets : List Staged := []
  waiting : List Placement := []
  owed    : List (Nat × Nat) := []        -- R290: packets with placements still to be issued, and the bytes they hold
  markers : List (Nat × List Byte) := []  -- R269: gap markers read, behind the packet each names, oldest first
deriving DecidableEq, Repr

/-! ### The hydrometer's view of a frame (13_hydrometer) -/

/-- Statistics of one region (R420). -/
structure RegAcc where
  n   : Nat := 0
  sum : Int := 0
  sq  : Nat := 0
  mn  : Int := 0x7FFFFFFF
  mx  : Int := -0x80000000
  sat : Bool := false                     -- R420: sq has saturated
deriving DecidableEq, Repr

/-- A placement copy (R426): cask offset and bytes. -/
structure HydroCopy where
  off  : Nat
  data : List Byte
  bad  : Bool := false                    -- R340: its golden read was in flight to a PC that has been retired
deriving DecidableEq, Repr

/-- The result of timing one frame (R428). -/
structure Timing where
  trOffset : Int := 0
  cpk  : Nat := 0
  vpk  : Nat := 0
  late : Nat := 0
  npk  : Nat := 0
deriving DecidableEq, Repr

/-- What the hydrometer holds of an open or closing frame. -/
structure HydroFrame where
  set     : Nat
  cfg     : List (Nat × Nat)              -- R431: hydrometer and pattern objects as at the opening
  f       : Nat := 0                      -- R417
  aligned : Bool := true                  -- R418: false gives verdict 5
  geom    : Bool := false                 -- R416: verdict 8
  refBad  : Bool := false                 -- R425: verdict 6
  overload : Bool := false                -- R426: verdict 7
  queue   : List HydroCopy := []          -- copies awaiting comparison
  reads   : List HydroCopy := []          -- golden reads outstanding, oldest first
  got     : List (Nat × Byte) := []       -- image bytes placed, by image byte index
  regs    : List (Nat × RegAcc) := []     -- by region of the set
  marks   : List (Nat × Nat × Nat) := []  -- R420: region, x and y of marked pixels
  tiles   : List Nat := []                -- R423: tile_y × 65,536 + tile_x
  tk      : Option Nat := none            -- R427: the grid instant, when paired
  packets : List Nat := []                -- R427: arrival times, newest first
  closed  : Bool := false                 -- R424
  verdict : Nat := 0
  failed  : Nat := 0
  valid   : Bool := false
  timing  : Option Timing := none         -- R428, once closed
  badLines : List Nat := []               -- R422: lines failing the check of code 1, once closed
deriving DecidableEq, Repr

/-! ### The lauter engine and the casks (09_lauter_casks) -/

/-- The settings a frame keeps from its opening (R24, R315). -/
structure FrameCfg where
  gvsp    : Bool
  line    : Bool
  width   : Nat
  lines   : Nat
  format  : Nat
  lineBytes : Nat
  stride  : Nat
  pktBytes : Nat
  blockLines : Nat
  unitBlocks : Nat
  policy  : Nat
  side    : Bool
  stamped : Bool
  encoder : Nat
  exposure : Nat
  straggle : Nat
  resend  : Bool
  ring    : Nat                           -- R349: fixed at opening
  compress : Bool                         -- R349
  rpolicy : Nat                           -- R349: `racking.flow_policy`
  rtpPt   : Nat := 0xFF                   -- Table 7.4
  resendMax : Nat := 0                    -- R297
  resendDelay : Nat := 0                  -- R297, µs
  maxWidth : Nat := 0                     -- R289: the flow's own width and height
  maxLines : Nat := 0
  vary    : Bool := false                 -- Table 7.5: the leader gave height 0, and no trailer has given it yet
deriving DecidableEq, Repr

/-- The stamp of a frame or a line (R298 to R300). -/
structure Stamp where
  time  : Nat
  trig  : Nat
  late  : Bool
  pos   : Nat
  valid : Bool
  enc   : Nat
  fromTrigger : Bool
deriving DecidableEq, Repr

/-- A frame the engine has open or is closing (R284, R292). -/
structure Frame where
  flow    : Nat
  seq     : Nat
  key     : Nat                           -- RTP timestamp, or first block ID
  ext     : Bool                          -- extended GVSP block IDs
  cfg     : FrameCfg
  cask    : Option Nat                    -- none: refused at opening (R307)
  opened  : Nat
  locked  : Bool                          -- flag 6
  first   : Option Nat                    -- arrival of the first packet
  last    : Nat                           -- arrival of the last packet placed
  placed  : Nat                           -- bytes placed
  byLine  : List (Nat × Nat)              -- bytes placed per line
  lineAt  : List (Nat × Nat)              -- arrival that first carried a byte of the line
  maxLine : Nat
  leaders : List Nat                      -- GVSP: blocks whose leader has been accepted
  trailers : List Nat
  ids     : List (Nat × Nat)              -- GVSP: block and packet ID placed (R285)
  ended   : Bool                          -- end marker received
  endAt   : Nat
  rewound : Nat
  gaps    : Nat
  ecc     : Bool
  loop    : Bool
  resends : List (Nat × Nat × Nat)        -- R297: packet ID (block × 2^32 + ID) to requests made and the time of the last
  accepted : Nat                          -- Table 9.3: the time the last packet was accepted, at first the opening
  cause   : Option Nat                    -- Table 9.3, once closed
  hydro   : Option HydroFrame             -- R414: none, not judged
  npackets : Nat := 0                     -- R427: packets accepted
deriving DecidableEq, Repr

/-- A cask that is not free (Table 9.7). -/
structure Cask where
  state    : Nat
  flow     : Nat
  seq      : Nat
  reserved : Nat
  pages    : List (Nat × Nat) := []       -- page index to physical page (R308)
  tag      : List Nat := []               -- frame tag words as known so far
  cfg      : Option FrameCfg := none
  placed   : Nat := 0                     -- bytes placed, for word 11
  committed : Nat := 0                    -- order of commit, for oldest first
  replay   : Bool := false                -- being replayed by the tap
  poisoned : Bool := false                -- invalidated while delivering (R314)
  inHbm    : Bool := true                 -- false: in the staging SRAM (R318)
deriving DecidableEq, Repr

/-- A stamp queue entry with its count since the last clearing (R298, R299). -/
structure StampEntry where
  n     : Nat
  stamp : Stamp
deriving DecidableEq, Repr

/-- The stamp queue of a flow trigger. -/
structure StampQueue where
  next  : Nat := 0                        -- stamps since the last clearing
  base  : Nat := 0                        -- frame_seq that the first stamp belongs to
  queue : List StampEntry := []
deriving DecidableEq, Repr

/-- Per-flow state of the engine. -/
structure FlowX where
  rewound : Nat := 0                      -- R18: notices waiting for the next frame
  gaps    : Nat := 0
  lastBlock : Option Nat := none          -- R295
  seen    : List Nat := []                -- R285: extended sequence numbers seen, newest first
  refused : List (Nat × Nat) := []        -- R307: frames refused: key and blocks, newest first
  unitStart : Option Nat := none          -- Table 9.1: first block ID of the unit in progress
  lastPackets : Nat := 0                  -- R427: packets of the previous committed frame
  alignFresh : Bool := true               -- R417: the next frame is the first after its set is applied
  idLast  : Nat := 0                      -- R417
  fLast   : Nat := 0
  rtpLast : Nat := 0
  above   : Bool := false                 -- R309: above its watermark
  pausing : Bool := false                 -- R310
deriving DecidableEq, Repr

/-- Underback, lauter and cask state. -/
structure LauterState where
  ub      : List (Nat × Ub) := []
  regions : List (Nat × Region) := []     -- R290: by governing lane
  boil    : Bool := false                 -- R291
  notices : List Notice := []             -- R18: notices not yet taken by the engine
  frames  : List Frame := []              -- open and closing frames, oldest first
  casks   : List (Nat × Option Cask) := []
  flight  : List Placement := []          -- R290: placements in flight
  flows   : List (Nat × FlowX) := []
  stamps  : List (Nat × StampQueue) := [] -- by flow trigger
  above   : Bool := false                 -- R309: the global watermark has fired
  pauseAll : Bool := false                -- R310: global level above its high watermark
  commits : Nat := 0                      -- commits so far, for oldest first
  rotate  : Nat := 0                      -- R313: the lane after the one first served
  released : List (Nat × Cask) := []      -- R312: casks released since the last kiln tick, still shown
  limpPool : Bool := false                -- R318: the pool is the staging SRAM
deriving DecidableEq, Repr

/-! ### Position feedback (14_position) -/

/-- A sample kept for R443. -/
structure EncSample where
  t     : Nat
  p     : Nat
  valid : Bool
  jump  : Bool
deriving DecidableEq, Repr

/-- One sample as it becomes available (R437): the interval of R453, the crossing it makes, and the position a jump gives it after that. -/
structure EncInterval where
  pPrev  : Nat
  p      : Nat
  tPrev  : Nat
  t      : Nat
  valid  : Bool
  after  : Nat := 0                       -- the position the sample reads
  jumped : Bool := false                  -- R440: `after` is the result of a jump
  cross  : Option (Int × Bool) := none    -- R445: instant in ns, and whether it fell
deriving DecidableEq, Repr

/-- An encoder channel beside its objects. -/
structure EncX where
  sampling : Bool := false                -- R438, R458: ph_last belongs to the sample before
  canAuto  : Bool := true                 -- R442: the first enable since the cold reset has not been spent
  phLast   : Nat := 0                     -- R438
  fine     : Int := 0                     -- R438
  offset   : Int := 0                     -- R438: pos_offset
  samples  : List EncSample := []         -- R443: the last 64, newest first
  jumpTo   : Option Int := none           -- R440
  rHigh    : Bool := false                -- R441
  lowRun   : Nat := 0                     -- Table 14.5: consecutive samples of each condition
  highRun  : Nat := 0
  stuckS   : Nat := 0
  stuckC   : Nat := 0
  stuckR   : Nat := 0
  held     : Option Nat := none           -- R458: the fault whose condition still holds
  lastX    : Option Int := none           -- R445: instant of the last crossing, ns
  lastDt   : Int := 0                     -- R446
  shown    : Nat := 0                     -- R437: the position of the last sample available to the compares
  consec   : Nat := 0                     -- R447: crossings in a row in one direction
  log      : List (Nat × Nat) := []       -- R446: instants and positions every 10 µs, newest first
  perStart : Nat := 0                     -- R439
  perDir   : Option Bool := none
  broken   : Bool := false
  hiA      : Int := 0
  loA      : Int := 0
  hiB      : Int := 0
  loB      : Int := 0
  out      : Int := 0                     -- R450: output count o
  markE    : Option Int := none           -- R450: e of the last mark's sample
  edgeAt   : Option Nat := none           -- R450: the tick of the last edge, ns
  pend     : List EncInterval := []       -- R437: samples whose position is not yet available
  asked    : List Nat := []               -- R443: times asked for and not yet answered
  answers  : List (Nat × Nat × Bool) := [] -- R443: answers given, by time
  query    : Option Nat := none           -- R444: the software query not yet answered
deriving DecidableEq, Repr

/-- A compare unit beside its objects. -/
structure CmpX where
  target : Int := 0                       -- R456: the armed entry, or the target taken at arming
  idx    : Nat := 0                       -- the list entry
  fires  : Nat := 0                       -- the periodic fire count
  lastG  : Option Int := none             -- R453
  away   : Bool := false
  behind : Bool := false                  -- R455: fires at the next sample
deriving DecidableEq, Repr

/-- Position state. -/
structure PosState where
  enc : List (Nat × EncX) := []
  cmp : List (Nat × CmpX) := []
  list : List (Nat × Nat) := []           -- R456: the pool; unlisted entries are 0
deriving DecidableEq, Repr

/-! ### The cellar (10_cellar) -/

/-- Cellar state beside its objects. -/
structure CellarState where
  debt     : List (Nat × Nat) := []       -- R334: by PC × 8 + refresh group
  window   : List (Nat × Nat × Nat) := [] -- R337: by PC: the present window and the corrected reads in it
  warned   : List (Nat × Nat) := []       -- R337: by PC: the window after the one that fired last
  poisoned : List Nat := []               -- R338: addresses of poisoned 32-byte units
  zeroSlots : List Nat := []              -- R36, R341: reference slots that read 0 until written
  marked   : List (Nat × Nat) := []       -- R338: rows to repair, PC and row
  repaired : List (Nat × Nat) := []       -- R339: rows repaired
  used     : List (Nat × Nat) := []       -- R339: spare rows used, by PC × 48 + bank
  testing  : List Nat := []               -- R346: PCs under test
deriving DecidableEq, Repr

/-! ### The tap (12_tap) -/

/-- An entry of the pairing table (R418): key, frame number and start time. -/
structure PairEntry where
  key  : Nat
  f    : Nat
  t    : Nat
deriving DecidableEq, Repr

/-- Where a transmit frame's bytes come from (Table 12.1). -/
inductive TxSrc where
  | pattern
  | mem (addr : Nat)
  | cask (id : Nat)
  | host (slot : Nat)
deriving DecidableEq, Repr, Inhabited

/-- A frame, or in start mode 4 a line, that a transmit flow sends or prefetches (R389, R399, R407). -/
structure TxFrame where
  k       : Nat                           -- R389: the frame, or R407: the occurrence
  start   : Nat                           -- t_k, ns since the epoch
  cfg     : List (Nat × Nat)              -- R24: tap, transmit flow and pattern objects as at its start
  src     : TxSrc
  pre     : Bool := false                 -- R399: fetched ahead of its start
  j       : Nat := 0                      -- the next packet
  off     : Nat := 0                      -- image byte at which its payload starts
  npk     : Nat := 0                      -- R393: N
  fetched : Nat := 0                      -- image bytes fetched
  buf     : List Byte := []               -- R399: image bytes fetched and not yet sent, from `off`
  unders  : Nat := 0                      -- R400: how many packets, from the next on, have underrun
  dead    : Bool := false                 -- R398: a packet was dropped for a port down
deriving DecidableEq, Repr

/-- A tap host ring (R404). -/
structure TapRing where
  enabled : Bool := false
  dir     : Nat := 0
  dirEntries : Nat := 1
  bigPage : Bool := false
  slots   : Nat := 64
  slotBytes : Nat := 8192
  post    : Nat := 0                      -- TX_POST
  taken   : Nat := 0                      -- TX_TAKEN
  full    : Nat := 0                      -- slots whose last byte has been fetched, a count as the others
  any     : Bool := false                 -- R404: a slot has been taken since the enable
  fault   : Nat := 0                      -- TX_STATE [15:8]
deriving DecidableEq, Repr

/-- A transmit flow beside its objects. -/
structure TxX where
  entered : Bool := false                 -- R390
  armed   : Bool := false                 -- R390: t_0 is still to come
  tNext   : Nat := 0                      -- R389: t of the next frame, ns
  rem     : Nat := 0                      -- R389
  k       : Nat := 0                      -- R389: the next frame; R407: occurrences taken
  count   : Nat := 0                      -- R392: frames started
  seq     : Nat := 0                      -- R393: extended sequence number
  stopping : Bool := false                -- R49
  stopped : Bool := false                 -- R392
  frames  : List TxFrame := []            -- oldest first; a prefetched frame is last
  boil    : Bool := false                 -- R399
  lastCommit : Option Nat := none         -- R403: commit order of the cask taken last
  ring    : TapRing := {}
deriving DecidableEq, Repr

/-! ### The racking engine (11_racking) -/

/-- A ring's objects as taken at its enable (R358). -/
structure RingCfg where
  dir     : Nat := 0
  dirEntries : Nat := 1
  bigPage : Bool := false
  slots   : Nat := 64
  slotBytes : Nat := 8192
  cq      : Nat := 0
  inOrder : Bool := false
deriving DecidableEq, Repr

/-- A slot abandoned and not yet reported (R381, R382). -/
structure Abandoned where
  count : Nat                            -- its assignment count
  slot  : Nat
  flow  : Nat
  cask  : Nat
  seq   : Nat
  image : Nat
  code  : Nat
deriving DecidableEq, Repr

/-- A delivery ring (R350, R356 to R359). -/
structure RingX where
  enabled : Bool := false
  disabling : Bool := false               -- R358: deliveries still to complete
  cfg     : RingCfg := {}
  post    : Nat := 0                      -- RING_POST
  assigned : Nat := 0                     -- RING_ASSIGNED
  done    : Nat := 0                      -- RING_DONE
  abandoned : List Abandoned := []        -- R381, R382: in assignment order
  above   : Bool := false                 -- R374: the high watermark has fired
  stalled : Bool := false                 -- Table 11.12: a delivery start is delayed for want of an entry
deriving DecidableEq, Repr

/-- A completion queue (R365, R366). -/
structure CqX where
  enabled : Bool := false
  base    : Nat := 0
  entries : Nat := 1024
  head    : Nat := 0                      -- CQ_HEAD
  tail    : Nat := 0                      -- CQ_TAIL
  reserved : Nat := 0                     -- R359
  faulted : Bool := false
deriving DecidableEq, Repr

/-- A delivery in progress (R359 to R364). -/
structure Delivery where
  ring    : Nat
  count   : Nat                           -- slot assignment count
  cask    : Nat
  payload : Option (List Byte) := none    -- the frame data once read from the cask (R360)
  raw     : Bool := true
  records : List Byte := []
  poisoned : Bool := false                -- flag 11 (R362)
  tag     : List Nat := []                -- tag words 0 to 14 once written
  pieces  : Nat := 0                      -- pieces of the slot written so far
  written : Bool := false                 -- data, records and tag written
  visible : Bool := false                 -- R363
deriving DecidableEq, Repr

/-- An exception frame on its way to the ring (R379, R380). -/
structure ExcFrame where
  reason : Nat
  port   : Nat
  time   : Nat
  data   : List Byte
  written : Bool := false                 -- R380: words 1 to 15 and the frame are written, word 0 is not
deriving DecidableEq, Repr

/-- The exception ring (R379, R380). -/
structure ExcX where
  enabled : Bool := false
  dir     : Nat := 0
  dirEntries : Nat := 1
  bigPage : Bool := false
  entries : Nat := 1024
  entryBytes : Nat := 2112
  head    : Nat := 0                      -- EXC_HEAD
  tail    : Nat := 0                      -- EXC_TAIL
  seq     : Nat := 0                      -- Table 11.9 word 5: exceptions since enable
  dropped : Nat := 0                      -- Table 11.9 word 6
  faulted : Bool := false
deriving DecidableEq, Repr

/-- A final translation of the cache (R354): ring, page and host page address. -/
structure TlbEntry where
  ring : Nat
  page : Nat
  host : Nat
deriving DecidableEq, Repr

/-- Hydrometer state: the result slots are BLOBs of the dictionary; the generation and next slot of each set. -/
structure HydroState where
  gen  : List (Nat × Nat) := []           -- R429: by set, 0 before the first record
deriving DecidableEq, Repr

/-- Tap state. -/
structure TapState where
  pairs : List (Nat × List PairEntry) := []  -- R418: by transmit flow, newest first, 64 at most
  tx    : List (Nat × TxX) := []          -- R387 to R407: by transmit flow
deriving DecidableEq, Repr

/-- Racking engine state. -/
structure RackState where
  rings   : List (Nat × RingX) := []
  cqs     : List (Nat × CqX) := []
  exc     : ExcX := {}
  excWait : List ExcFrame := []           -- exception frames to write
  tlb     : List TlbEntry := []           -- R354: most recently used first
  deliveries : List Delivery := []        -- in start order
  turn    : Nat := 0                      -- R359: the ring whose turn it is
  deficits : List (Nat × Nat) := []       -- R359: image bytes each ring has left
  stopped : Bool := false                 -- R382: stopped by host
  resetStop : Bool := false               -- R383: stopped by a host reset; runs again as soon as a ring is enabled
  sec     : Nat := 0                      -- R376: the present second
  inSec   : Nat := 0                      -- R376: bytes in and out of the present second
  outSec  : Nat := 0
deriving DecidableEq, Repr

/-! ### Lamp heads (15_lamp_heads) -/

/-- A lamp channel beside its objects. -/
structure LampX where
  occ     : Option (Nat × Occ) := none    -- R464: an occurrence delivered, with its channel
  lit     : Option (Nat × Nat × Nat) := none -- R465: rise, end and width of the pulse in progress
  length  : Nat := 0                      -- R465: its width, less where it was cut short
  peakDue : Bool := false                 -- R473: its peak has not been reported
  endTick : Option Nat := none            -- the tick in which the last pulse ended
  busy    : Bool := false                 -- R466
  free    : Nat := 0                      -- R466: the end of its gap
  present : Bool := false                 -- R469: a valid memory was found
  misses  : Nat := 0                      -- R475: polls in a row that found none, up to 3
  recB    : Bool := false                 -- R469: the stored count is in record B
  seq     : Nat := 0                      -- R469: its sequence
  wb      : Option Nat := none            -- R470: the count of an unconfirmed write-back
  wbNext  : Option Nat := none            -- R470: the count to write after it
  retryAt : Option Nat := none            -- R470: when a write-back that failed is written again
  hold    : Bool := false                 -- R470: reinstated, its exact count not yet confirmed
  warned  : Bool := false                 -- R471
  ended   : Bool := false                 -- R471: the stop limit has fired
deriving DecidableEq, Repr

/-- Lamp state. -/
structure LampState where
  ch : List (Nat × LampX) := []           -- by channel
deriving DecidableEq, Repr

/-! ### The host link (16_host_link) -/

/-- What an outstanding non-posted request is for (R486, R487). -/
inductive TagUse where
  /-- a page list read of a delivery ring (0 to 1,023) or the exception ring (1,024): directory or table level -/
  | walk (ring page : Nat) (table : Bool)
  /-- the zero-length read of a delivery (R363) -/
  | zero (ring count : Nat)
  /-- a page list read of a tap host ring -/
  | tapWalk (ring page : Nat) (table : Bool)
  /-- frame bytes for a transmit flow -/
  | tapData (flow offset len : Nat)
  /-- a request whose data is to be discarded: it was outstanding when the requests were stopped (R499) -/
  | discard
deriving DecidableEq, Repr

/-- An outstanding or quarantined tag (R486, R488). -/
structure TagEntry where
  tag  : Nat
  use  : TagUse
  addr : Nat
  len  : Nat
deriving DecidableEq, Repr

/-- The interrupt form the host has enabled (R498). -/
inductive IntForm where
  | none | intx | msi (n : Nat) | msix
deriving DecidableEq, Repr, Inhabited

/-- A BAR2 window entry as latched at its enable (R495). -/
structure Window where
  on     : Bool := false
  target : Nat := 0
  size   : Nat := 0
deriving DecidableEq, Repr

/-- The errors of Table 16.4 that the block itself logs. -/
inductive Aer where
  | advisoryNonFatal | completionTimeout | unexpectedCompletion | poisonedTlp | unsupportedRequest
deriving DecidableEq, Repr, Inhabited

/-- Host link state beside its objects. -/
structure LinkState where
  up       : Bool := false                 -- R479
  perst    : Bool := true                  -- PERST_N asserted (R58)
  bme      : Bool := false                 -- Bus Master Enable
  mse      : Bool := false                 -- Memory Space Enable (Tables 16.4 and 16.10)
  d3hot    : Bool := false                 -- R483
  l1       : Bool := false                 -- R482
  aspmL1   : Bool := false                 -- R482: enabled by the host
  form     : IntForm := .none              -- R498
  intDisable : Bool := false               -- R498
  msiMask  : Nat := 0                      -- Table 16.3: the per-vector mask of MSI
  tagPool  : Nat := 32                     -- R486
  cplSel   : Nat := 0                      -- Device Control 2 [3:0]
  maxPayload : Nat := 128
  relaxed  : Bool := true                  -- R363: Relaxed Ordering enabled
  maxRead  : Nat := 512                    -- Max Read Request Size
  l2       : Bool := false                 -- R187, R483: the link is in L2
  wake     : Bool := false                 -- R187, Table 2.6: a wake source has fired while the link was in L2
  subVendor : Nat := 0x1D7B                -- Table 16.2: the subsystem IDs taken at the last Boot
  subId    : Nat := 0x0001
  tags     : List TagEntry := []           -- outstanding
  quar     : List TagEntry := []           -- quarantined
  windows  : List (Nat × Window) := []
  aer      : List Aer := []                -- Table 16.4: errors logged in the sticky AER status, oldest first
deriving DecidableEq, Repr

/-! ### Faults, power and thermal (17_faults_power) -/

/-- One entry of the retirement list (R508). -/
structure Retired where
  res    : Nat
  cause  : Nat
  reason : Nat
  spare  : Nat
  time   : Nat
deriving DecidableEq, Repr

/-- Fault and power state beside the objects. -/
structure FaultState where
  history : List (Nat × List Nat) := []    -- R505: tick numbers of recorded faults, by resource ID
  retired : List Retired := []             -- R508
  overflowed : List Nat := []                 -- R508: retired with no room in the list
  log     : List (List Byte) := []         -- R510: the latest 256 entries, oldest first
  stepAt   : Nat := 0                      -- R515: the tick time at which the governor's present step began, ns
  hot      : List (Nat × Nat) := []        -- R517: consecutive readings, by sensor group × 8 + limit: group 4 the die, else the stack; 0 warning, 1 critical, 2 halt, 3 below the clearing point, 4 warned
deriving DecidableEq, Repr

/-- The whole machine. -/
structure State where
  modes   : ModeState := {}
  dict    : DictState := {}
  time    : TimeState := {}
  fab     : FabState := {}
  lp      : LanePort := {}
  lau     : LauterState := {}
  pos     : PosState := {}
  cel     : CellarState := {}
  hyd     : HydroState := {}
  tap     : TapState := {}
  lamp    : LampState := {}
  rk      : RackState := {}
  link    : LinkState := {}
  flt     : FaultState := {}
  /-- object values by ID × 65,536 + index; an unlisted key reads as the object table's default (R10) -/
  objs    : List (Nat × Nat) := []
  /-- STRING and BLOB values by the same key; unlisted: empty -/
  blobs   : List (Nat × List Byte) := []
  /-- HBM and staging SRAM by internal address; an unlisted byte has not been written (R344) -/
  mem     : List Host.Cell := []
  /-- what the block has sent, oldest first -/
  out     : List Emission := []
  /-- free values taken so far (the model's own; the spec leaves the values open) -/
  free    : Nat := 0
  /-- sticky bits that hardware has set in the present tick, by object key: a write of the tick does not clear them (R83) -/
  fresh   : List (Nat × Nat) := []
  /-- the commands waiting, first in, first out -/
  pending : List Instr := []
deriving DecidableEq, Repr

/-- The machine at Boot entry after a cold reset (R53, R55, R78): every object at its table's default, nothing listed in memory, no command waiting. -/
def State.reset : State := {}

end Sys2Proof.Machine
end

