-- ==== Sys2Proof/Machine/Ops.lean ====
section
/-! DEFINITION. The named operations every family shares: object access, sticky bits and counters, time, emissions, firing a source with its interrupt (R162 to R165, R183 to R187), recording a fault (R505 to R510), and memory. -/

namespace Sys2Proof.Machine

open Sys2Proof

/-! ### Objects -/

/-- The key of an object index; an index has 16 bits (R80). -/
def objKey (id idx : Nat) : Nat := id * 65536 + idx % 65536

/-- Bits of a value of an object's type; 0 for STRING and BLOB (Table 3.1). -/
def typeBits : ValType → Nat
  | .bool => 8 | .u8 => 8 | .u16 => 16 | .u32 => 32 | .u64 => 64 | .i32 => 32 | .i64 => 64
  | .q32 => 64 | .time96 => 96 | .enum => 16 | .ref => 32
  | .bitset n => 8 * n
  | .str _ => 0
  | .blob _ => 0

/-- The partition Table 10.1 gives a physical PC at Boot. -/
def bootPartition (pc : Nat) : Nat :=
  let l := pc % 32
  if l < 20 then 0 else if l < 28 then 1 else if l < 30 then 2 else 3

/-- The slot Table 10.1 gives a physical PC at Boot. -/
def bootSlot (pc : Nat) : Nat :=
  let l := pc % 32
  let b := if l < 20 then 0 else if l < 28 then 20 else if l < 30 then 28 else 30
  4 * (l - b) + pc / 32

/-- The shares of Table 10.2, by partition and activity code. -/
def bootShare (part act : Nat) : Nat :=
  match part, act with
  | 0, 0 => 48 | 0, 1 => 48 | 0, 3 => 56 | 0, 4 => 8
  | 1, 1 => 112 | 1, 2 => 112 | 1, 4 => 16
  | 2, 4 => 280
  | _, _ => 0

/-- The value after reset (R10): the table's default, or the value another table or the unit gives. -/
def objDefault (id idx : Nat) : Nat :=
  if id = Oid.cellarPcPartition then bootPartition idx
  else if id = Oid.cellarPcSlot then bootSlot idx
  else if id = Oid.cellarShare then bootShare 0 idx
  else if id = Oid.cellarShare + 1 then bootShare 1 idx
  else if id = Oid.cellarShare + 2 then bootShare 2 idx
  else if id = Oid.portMacAddr then (Config.portMac idx).toNat
  else if id = Oid.portFec then 0xFF
  else if id = Oid.dictMgmtMac then Config.mgmtMac.toNat
  else if id = Oid.dictObjectCount then Config.objectCount.toNat
  else match objRow? id with
    | some r => r.default
    | none => 0

/-- The value an object index holds. -/
def getObj (s : State) (id : Nat) (idx : Nat := 0) : Nat := tabGet (objDefault id idx) (objKey id idx) s.objs

/-- Give an object index a value. -/
def putObj (id idx v : Nat) (s : State) : State :=
  { s with objs := tabPut (objDefault id idx) (objKey id idx) v s.objs }

/-- The bytes a STRING or BLOB index holds. -/
def getBlob (s : State) (id : Nat) (idx : Nat := 0) : List Byte := tabGet [] (objKey id idx) s.blobs

/-- Give a STRING or BLOB index a value. -/
def putBlob (id idx : Nat) (v : List Byte) (s : State) : State :=
  { s with blobs := tabPut [] (objKey id idx) v s.blobs }

/-- Width of an object's value in bits. -/
def objBits (id : Nat) : Nat := match objRow? id with | some r => typeBits r.type | none => 0

/-- A signed object as the number it stands for. -/
def getInt (s : State) (id : Nat) (idx : Nat := 0) : Int := toSigned (objBits id) (getObj s id idx)

/-- Store a number in a signed object. -/
def putInt (id idx : Nat) (v : Int) (s : State) : State := putObj id idx (ofSigned (objBits id) v) s

/-- Add n to a counter, which wraps at its width. -/
def addObj (id idx n : Nat) (s : State) : State := putObj id idx ((getObj s id idx + n) % 2 ^ objBits id) s

/-- Count one happening. -/
def bump (id idx : Nat) (s : State) : State := addObj id idx 1 s

/-- Set bits of a BITSET; hardware sets win over a clear in the same tick, which `fresh` remembers (R83). -/
def setSticky (id idx mask : Nat) (s : State) : State :=
  putObj id idx (getObj s id idx ||| mask)
    { s with fresh := tabInsert (objKey id idx) (tabGet 0 (objKey id idx) s.fresh ||| mask) s.fresh }

/-- Whether a BOOL object index reads 1. -/
def isOn (s : State) (id : Nat) (idx : Nat := 0) : Bool := getObj s id idx = 1

/-- An ID in the group of quad q (Table 3.3). -/
def quadId (id q : Nat) : Nat := id + q * 65536

/-- An object of lane n: its quad's group, index n mod 4 (R80). -/
def getLane (s : State) (id n : Nat) : Nat := getObj s (quadId id (n / 4)) (n % 4)

/-- Give an object of lane n a value. -/
def putLane (id n v : Nat) (s : State) : State := putObj (quadId id (n / 4)) (n % 4) v s

/-- Count on a lane's counter. -/
def bumpLane (id n : Nat) (s : State) : State := bump (quadId id (n / 4)) (n % 4) s

/-- Set sticky bits of a lane's BITSET. -/
def stickyLane (id n mask : Nat) (s : State) : State := setSticky (quadId id (n / 4)) (n % 4) mask s

/-! ### Status codes (Table 3.9) -/
namespace St
abbrev ok : Nat := 0x00
abbrev noObject : Nat := 0x01
abbrev readOnly : Nat := 0x02
abbrev writeOnly : Nat := 0x03
abbrev length : Nat := 0x04
abbrev range : Nat := 0x05
abbrev reserved : Nat := 0x06
abbrev keyValue : Nat := 0x07
abbrev planLocked : Nat := 0x08
abbrev modeRestricted : Nat := 0x09
abbrev modeConflict : Nat := 0x0A
abbrev security : Nat := 0x0B
abbrev opcode : Nat := 0x0C
abbrev version : Nat := 0x0D
abbrev blockOffset : Nat := 0x0E
abbrev objectBusy : Nat := 0x0F
abbrev notStageable : Nat := 0x10
abbrev planState : Nat := 0x11
abbrev planFull : Nat := 0x12
abbrev notInPlan : Nat := 0x13
abbrev consistency : Nat := 0x14
abbrev pitchPending : Nat := 0x15
abbrev alreadyPitched : Nat := 0x16
abbrev pitchTimeout : Nat := 0x17
abbrev subLimit : Nat := 0x18
abbrev notSubscribable : Nat := 0x19
abbrev sessionLimit : Nat := 0x1A
abbrev keyEmpty : Nat := 0x1B
abbrev proofFailed : Nat := 0x1C
abbrev flash : Nat := 0x1D
abbrev internal : Nat := 0x1E
end St

/-! ### Time -/

/-- Whether the core domain runs in a mode (Table 1.3, Table 4.2). -/
def coreRunsCode : Mode → Bool
  | .cold => false
  | .dormant => false
  | .halt => false
  | _ => true

/-- Whether the core domain runs now: in Boot from step 5 of Table 2.4. -/
def coreRuns (s : State) : Bool :=
  coreRunsCode s.modes.current && (s.modes.current != .boot ||
    (s.modes.step = .firmwareStarted || s.modes.step = .trained || s.modes.step = .done))

/-- A TIME96 as one number whose order is the order of times: seconds, nanoseconds, fraction (R14). -/
def packTime (sec ns frac : Nat) : Nat := sec * 2 ^ 48 + ns * 2 ^ 16 + frac

/-- Pack an operand. -/
def Time96pack (t : Time96) : Nat := packTime t.sec.toNat t.ns.toNat t.frac.toNat

/-- Seconds of a packed time. -/
def tSec (t : Nat) : Nat := t / 2 ^ 48

/-- Nanoseconds of a packed time. -/
def tNs (t : Nat) : Nat := t / 2 ^ 16 % 2 ^ 32

/-- Fraction of a packed time. -/
def tFrac (t : Nat) : Nat := t % 2 ^ 16

/-- A packed time in units of 2^-16 ns since the epoch. -/
def tUnits (t : Nat) : Nat := (tSec t * billion + tNs t) * 65536 + tFrac t

/-- The packed time of a number of 2^-16 ns units. -/
def ofUnits (u : Nat) : Nat :=
  let ns := u / 65536
  packTime (ns / billion) (ns % billion) (u % 65536)

/-- A packed time in whole nanoseconds. -/
def tNanos (t : Nat) : Nat := tSec t * billion + tNs t

/-- A packed time advanced by nanoseconds. -/
def tAddNs (t : Nat) (ns : Int) : Nat := ofUnits ((tUnits t : Int) + ns * 65536).toNat

/-- The tick time (R129 step 3). -/
def now (s : State) : Nat := packTime s.time.sec s.time.ns (s.time.frac / 65536)

/-- A kiln-event timestamp taken now (R138, Table 4.2): 1 ns while the core domain runs, else the tick time. -/
def stampNow (s : State) : Nat :=
  if coreRuns s then packTime s.time.sec s.time.ns 0 else now s

/-- A lane timestamp: a time truncated to 0.25 ns (R138, Table 4.2). -/
def laneStamp (t : Nat) : Nat := ofUnits (tUnits t / 16384 * 16384)

/-- Step 1 of R129: accumulate the increment in force. -/
def accumulate (s : State) : State :=
  let f := s.time.frac + s.time.inc % 2 ^ 32
  let n := s.time.ns + s.time.inc / 2 ^ 32 + f / 2 ^ 32
  let carry := decide (billion ≤ n)
  { s with time := { s.time with
      frac := f % 2 ^ 32
      ns := if carry then n - billion else n
      sec := if carry then (s.time.sec + 1) % 2 ^ 64 else s.time.sec } }

/-- The time in units of 2^-32 ns since the epoch. -/
def timeUnits32 (s : State) : Int := (((s.time.sec * billion + s.time.ns) * 2 ^ 32 + s.time.frac : Nat) : Int)

/-- The pending step as one offset on the present time (R136): a set replaces what was pending before it. -/
def stepOffset (s : State) (p : PendStep) : Int :=
  match p.set with
  | none => p.add
  | some t => (((tSec t * billion + tNs t) * 2 ^ 32 + tFrac t * 65536 : Nat) : Int) + p.add - timeUnits32 s

/-- Step 2 of R129: the time moved by an offset in Q32.32 ns. -/
def moveTime (d : Int) (s : State) : State :=
  let u := (timeUnits32 s + d).toNat
  let ns := u / 2 ^ 32
  { s with time := { s.time with frac := u % 2 ^ 32, ns := ns % billion, sec := ns / billion } }

/-- The tick time of the next tick: accumulate, then the pending step (R129). -/
def nextTickTime (s : State) : Nat :=
  let a := accumulate s
  match a.time.step with
  | none => now a
  | some p => now (moveTime (stepOffset a p) a)

/-- A kiln-event timestamp of an instant (R138, Table 4.2): truncated to 1 ns while the core domain runs, else the tick time of the first tick at or after it, ticks of the past taken at the increment in force. -/
def kilnStamp (s : State) (t : Nat) : Nat :=
  if coreRuns s then packTime (tSec t) (tNs t) 0
  else if t ≤ now s then ofUnits ((timeUnits32 s - (timeUnits32 s - (tUnits t * 65536 : Nat)) / (s.time.inc : Int) * (s.time.inc : Int)).toNat / 65536)
  else nextTickTime s

/-- The instant at a position in the present tick, in 2^-16 of it. -/
def momentAt (s : State) (pos : Nat) : Nat := ofUnits ((timeUnits32 s + pos * s.time.inc / 2 ^ 16).toNat / 2 ^ 16)

/-- Short time (R129): the low 32 bits of the nanosecond count. -/
def shortNow (s : State) : Nat := (s.time.sec * billion + s.time.ns) % 2 ^ 32

/-- R132: a short-time compare is reached by the signed difference. -/
def shortReached (nowS target : Nat) : Bool := toSigned 32 ((nowS + 2 ^ 32 - target % 2 ^ 32) % 2 ^ 32) ≥ 0

/-- TIME96 on the wire and in a mailbox: seconds, nanoseconds, fraction, each in the transport's byte order (R81). -/
def timeBytes (le : Bool) (t : Nat) : List Byte :=
  if le then leBytes 6 (tSec t) ++ leBytes 4 (tNs t) ++ leBytes 2 (tFrac t)
  else beBytes 6 (tSec t) ++ beBytes 4 (tNs t) ++ beBytes 2 (tFrac t)

/-- Tag words 2 to 4 (Table 9.4): seconds[47:16]; seconds[15:0] above ns[29:16]; ns[15:0] above the fraction. -/
def timeTagWords (t : Nat) : List Nat :=
  [bits (tSec t) 47 16,
   bits (tSec t) 15 0 * 65536 + bits (tNs t) 29 16,
   bits (tNs t) 15 0 * 65536 + tFrac t]

/-- Words as little-endian bytes (R7). -/
def wordBytes (ws : List Nat) : List Byte := ws.flatMap (leBytes 4)

/-! ### Outputs and free values -/

/-- Send something. -/
def emit (e : Emission) (s : State) : State := { s with out := s.out ++ [e] }

/-- Send a list of things in order. -/
def emitAll (es : List Emission) (s : State) : State := { s with out := s.out ++ es }

/-- Take a free value: the n-th opaque constant, and the state that has used it. -/
def takeFree (s : State) : BitVec 128 × State := (Config.freeBits s.free, { s with free := s.free + 1 })

/-- Take a free number below n (0 when n is 0). -/
def takeChoice (n : Nat) (s : State) : Nat × State := (Config.freeChoice s.free n % (max n 1), { s with free := s.free + 1 })

/-! ### Modes -/

/-- The code of a mode, Table 2.1. -/
def modeCode : Mode → Nat
  | .cold => 0 | .boot => 1 | .dormant => 2 | .ready => 3 | .capture => 4 | .burst => 5 | .generate => 6
  | .analyse => 7 | .replay => 8 | .diagnostic => 9 | .limp => 10 | .halt => 11

/-- The mode of a code. -/
def modeOf : Nat → Option Mode
  | 0 => some .cold | 1 => some .boot | 2 => some .dormant | 3 => some .ready | 4 => some .capture | 5 => some .burst
  | 6 => some .generate | 7 => some .analyse | 8 => some .replay | 9 => some .diagnostic | 10 => some .limp
  | 11 => some .halt | _ => none

/-- The run modes are codes 4 to 8. -/
def isRun (m : Mode) : Bool := m = .capture || m = .burst || m = .generate || m = .analyse || m = .replay

/-- Modes in which streams are received (R48, Table 2.2). -/
def receives (m : Mode) : Bool := m = .capture || m = .burst || m = .analyse

/-- Modes in which the tap generates (R49, Table 2.2). -/
def generates (m : Mode) : Bool := m = .generate || m = .analyse || m = .replay

/-- Modes in which the cellar serves accesses (Table 2.2). -/
def cellarRuns (m : Mode) : Bool := m = .ready || isRun m || m = .diagnostic

/-! ### Interrupts and sources -/

/-- A fabric object as this tick uses it: a write made in the tick takes effect from the next (R164). -/
def fabObj (s : State) (id : Nat) (idx : Nat := 0) : Nat :=
  match tabFind (objKey id idx) s.fab.prev with
  | some v => v
  | none => getObj s id idx

/-- Whether INTA is to be asserted (R186, R498). -/
def intxWanted (s : State) : Bool :=
  s.link.form = .intx && !s.link.intDisable &&
    s.fab.srcStatus.any (fun p => p.2 && fabObj s Oid.eventsSrcVector p.1 != 0xFFFF)


/-- Requests by the device are stopped: Bus Master Enable clear or D3hot (R499). -/
def busStopped (s : State) : Bool := !s.link.bme || s.link.d3hot || !s.link.up

/-- A vector is masked: in MSI by the capability's mask bit of the MSI vector it is sent as (R186, Table 16.3), else by the MSI-X table of BAR4 (R497). -/
def vecMasked (s : State) (v : Nat) : Bool :=
  match s.link.form with
  | .msi n => s.link.msiMask.testBit (v % max n 1)
  | .msix => !(tabGet false v s.fab.unmasked)
  | .intx => !(tabGet false v s.fab.unmasked)
  | .none => !(tabGet false v s.fab.unmasked)

/-- A wake source fires, or a message is to be sent, while the link is in L2: WAKE_N is asserted (R187, Table 2.6). -/
def assertWake (s : State) : State :=
  if s.modes.current = .dormant && s.link.l2 && !s.link.wake then emit .wakeN { s with link := { s.link with wake := true } } else s

/-- Drive INTA to what R186 asks, with a message on a change: the link leaves L1 for it, and WAKE_N is asserted in L2 (R187). -/
def updateIntx (s : State) : State :=
  if intxWanted s = s.fab.intx then s
  else assertWake (emit (.intx (intxWanted s))
    { s with fab := { s.fab with intx := intxWanted s }, link := { s.link with l1 := false } })

/-- Send the message of vector v in the form in force (R184, R186, R498), or set its pending bit (R499). The link leaves L1 first, and WAKE_N is asserted in L2 (R187). -/
def sendVector (v : Nat) (s : State) : State :=
  let s := { s with fab := { s.fab with vec := tabPut {} v {} s.fab.vec } }
  match s.link.form with
  | .none => assertWake s
  | .intx => s
  | .msi n =>
    if vecMasked s v || busStopped s then { s with fab := { s.fab with pba := tabPut false v true s.fab.pba } }
    else bump Oid.eventsVecSent v (emit (.msi (v % max n 1)) { s with link := { s.link with l1 := false } })
  | .msix =>
    if vecMasked s v || busStopped s then { s with fab := { s.fab with pba := tabPut false v true s.fab.pba } }
    else bump Oid.eventsVecSent v (emit (.msix v) { s with link := { s.link with l1 := false } })

/-- Count a mapped fire on vector v (R184). -/
def countVector (v : Nat) (s : State) : State :=
  let c := (tabGet {} v s.fab.vec).count + 1
  if c ≥ fabObj s Oid.eventsVecCount v then sendVector v s
  else { s with fab := { s.fab with vec := tabPut {} v { count := c, timer := fabObj s Oid.eventsVecTime v != 0 } s.fab.vec } }

/-- Put an arrival on a channel for the next tick (R162). -/
def arrive (a : Arrival) (s : State) : State := { s with fab := { s.fab with arrivals := s.fab.arrivals ++ [a] } }

/-- Fire a source: its count, its SRC_STATUS bit, its interrupt, and an arrival on its channel (R160, R165, R183). -/
def fireAt (src ts due : Nat) (late : Bool) (s : State) : State :=
  let s := bump Oid.eventsSrcCount src s
  let s := { s with fab := { s.fab with srcStatus := tabPut false src true s.fab.srcStatus } }
  let v := fabObj s Oid.eventsSrcVector src
  let s := if v = 0xFFFF then s else countVector v s
  let s := updateIntx s
  let c := fabObj s Oid.eventsSrcChannel src
  if c = 0xFFFF then s
  else arrive { chan := c, tick := s.time.ticks, ts := ts, due := due, trig := none, orig := .source src, late := late } s

/-- Sources 0x100 to 0x27F arise in the mash domains: lanes, core, cellar and PCIe core (Tables 1.3 and 5.1). DEDUCED (entry 139): the spec gives no list of them. -/
def mashSource (src : Nat) : Bool := decide (0x100 ≤ src)

/-- An event of a mash domain enters the fabric at one of the next two ticks, which of them is free (R27, R162). -/
def crossFire (src ts : Nat) (s : State) : State :=
  let w := takeChoice 2 s
  { w.2 with fab := { w.2.fab with cross := w.2.fab.cross ++ [{ src := src, ts := ts, wait := w.1 = 1 }] } }

/-- A lane timestamp taken now (R138): an instant of the present tick, which the spec fixes no closer, to 0.25 ns. -/
def laneNow (s : State) : Nat × State := let r := takeChoice 65536 s; (laneStamp (momentAt s r.1), r.2)

/-- The timestamp of an event of a mash domain, taken where it arises in the present tick: in the lane domain (0x100 to 0x15F) at 0.25 ns, else at the kiln-event resolution (R27, R138). -/
def crossStamp (src pos : Nat) (s : State) : Nat :=
  if src < 0x160 then laneStamp (momentAt s pos) else kilnStamp s (momentAt s pos)

/-- Fire a source: a kiln-domain one at the tick time (R163); one of a mash domain through the crossing, stamped at the moment it arises, whose place in the tick is free (R27). -/
def fire (src : Nat) (s : State) : State :=
  if mashSource src then
    let p := takeChoice 65536 s
    crossFire src (crossStamp src p.1 p.2) p.2
  else fireAt src (stampNow s) (now s) false s

/-- A happening of a flow fires the flow signals among the first n that select it: 1 receive frame start, 2 receive frame committed, 3 transmit frame start (Table 5.1, `events.flow_signal_sel`). -/
def flowSignals (kind flow : Nat) : Nat → State → State
  | 0, s => s
  | n + 1, s =>
    let s := flowSignals kind flow n s
    let v := fabObj s Oid.eventsFlowSignalSel n
    if v / 2 ^ 30 = kind && v % 4096 = flow then fire (0x160 + n) s else s

/-- All sixteen flow signals. -/
def flowSignal (kind flow : Nat) (s : State) : State := flowSignals kind flow 16 s

/-- Fire a source with the timestamp its block took. -/
def fireStamped (src ts : Nat) (s : State) : State :=
  if mashSource src then crossFire src ts s else fireAt src ts (now s) false s

/-! ### Persistent stores (R89) -/

/-- Start a persistent store; stores of one item coalesce (R89). -/
def startStore (i : StoreItem) (s : State) : State :=
  if i ∈ s.dict.waiting then s
  else { s with dict := { s.dict with waiting := s.dict.waiting ++ [i] } }

/-! ### Faults -/

/-- Resource kinds of Table 17.1. -/
abbrev resLane (n : Nat) : Nat := 0x1000 + n
abbrev resPort (n : Nat) : Nat := 0x2000 + n
abbrev resRxFlow (n : Nat) : Nat := 0x3000 + n
abbrev resTxFlow (n : Nat) : Nat := 0x4000 + n
abbrev resPc (n : Nat) : Nat := 0x5000 + n
abbrev resLamp (n : Nat) : Nat := 0x6000 + n
abbrev resEnc (n : Nat) : Nat := 0x7000 + n
abbrev resCascade (n : Nat) : Nat := 0x8000 + n
abbrev resRing (n : Nat) : Nat := 0x9000 + n
abbrev resCq (n : Nat) : Nat := 0xA000 + n
abbrev resDevice : Nat := 0xB000

/-- What recording a fault leads to (R505, R510). -/
inductive Verdict where
  | counted | retry | retire | absorbed
deriving DecidableEq, Repr

/-- The action byte of a log entry (R510). -/
def verdictCode : Verdict → Nat
  | .counted => 0 | .retry => 1 | .retire => 2 | .absorbed => 0

/-- Whether a resource is retired (R505, R508). -/
def isRetired (s : State) (res : Nat) : Bool := s.flt.retired.any (fun r => r.res = res) || decide (res ∈ s.flt.overflowed)

/-- Add a fault log entry of 32 bytes (R510) and fire source 0x0BF. -/
def addLog (res cause cls action inWindow : Nat) (s : State) : State :=
  let s := bump Oid.faultsLogTotal 0 s
  let e := wordBytes (timeTagWords (now s)) ++ leBytes 2 res ++ leBytes 1 cause ++ leBytes 1 cls ++ leBytes 1 action
    ++ leBytes 1 (min inWindow 255) ++ leBytes 2 0 ++ leBytes 4 (getObj s Oid.faultsLogTotal % 2 ^ 32) ++ leBytes 8 0
  let l := s.flt.log ++ [e]
  let s := { s with flt := { s.flt with log := l.drop (l.length - 256) } }
  fire 0x0BF (setSticky Oid.faultsAlertStatus 0 0x40 s)

/-- Enter a resource in the retirement list (R508). -/
def addRetired (res cause reason : Nat) (s : State) : State :=
  let s := setSticky Oid.faultsAlertStatus 0 1 s
  let s :=
    if s.flt.retired.length < 1024 then
      { s with flt := { s.flt with
          retired := s.flt.retired ++ [{ res := res, cause := cause, reason := reason, spare := 0xFF, time := now s }] } }
    else setSticky Oid.faultsAlertStatus 0 0x100 { s with flt := { s.flt with overflowed := res :: s.flt.overflowed } }
  if isOn s Oid.faultsRetirePersist then startStore .retiredList s else s

/-- The faults of a resource still inside the window, newest first, by the tick times of their recording (R505). A window or limit written in this tick does not act yet (R521). -/
def recentFaults (s : State) (res : Nat) : List Nat :=
  (tabGet [] res s.flt.history).filter (fun t => (s.time.ticks - t) * 8 ≤ fabObj s Oid.faultsRetryWindow * 1000000)

/-- Correct the cause, class and action of the latest log entry of a resource (R224): bytes 14 to 16 of R510's layout. -/
def relabelLog (res cause cls action : Nat) (l : List (List Byte)) : List (List Byte) :=
  let rec go : List (List Byte) → List (List Byte)
    | [] => []
    | e :: t =>
      if leNat (slice 12 2 e) = res then
        (e.take 14 ++ [BitVec.ofNat 8 cause, BitVec.ofNat 8 cls, BitVec.ofNat 8 action] ++ e.drop 17) :: t
      else e :: go t
  (go l.reverse).reverse

/-- The latest log entry of a resource is named anew. -/
def relabelFault (res cause cls action : Nat) (s : State) : State :=
  { s with flt := { s.flt with log := relabelLog res cause cls action s.flt.log } }

/-- The resource has recorded a fault in this tick (R505). -/
def faultedTick (s : State) (res : Nat) : Bool := (tabGet [] res s.flt.history).head? = some s.time.ticks

/-- The resource is retired, and not by a fault of this tick: a reinstatement of the same tick comes before that fault, when it had nothing to do (R507, R521). -/
def standsRetired (s : State) (res : Nat) : Bool := isRetired s res && !s.flt.retired.any (fun r => r.res = res && r.time = now s)

/-- Record a fault of a tracked resource (kinds 1 to 8): log it, fire 0x0BF, and answer whether to retry or retire (R505, R506). Detections on one resource in one tick are one fault, which a permanent cause names before a transient one. -/
def recordFault (res cause : Nat) (permanent : Bool) (s : State) : State × Verdict :=
  let cls := if permanent then 1 else 0
  let kind := res / 4096
  if isRetired s res then (addLog res cause cls 0 (recentFaults s res).length s, .counted)
  else if faultedTick s res then
    if permanent then (addRetired res cause 2 (relabelFault res cause 1 2 s), .retire)
    else (s, .absorbed)
  else
    let recent := s.time.ticks :: recentFaults s res
    let s := { s with flt := { s.flt with history := tabPut [] res recent s.flt.history } }
    if (kind = 3 || kind = 4) && !isOn s Oid.faultsFlowRetire then (addLog res cause cls 0 recent.length s, .counted)
    else if permanent || recent.length > fabObj s Oid.faultsRetryLimit then
      (addRetired res cause (if permanent then 2 else 1) (addLog res cause cls 2 recent.length s), .retire)
    else (addLog res cause cls 1 recent.length s, .retry)

/-- Log an untracked fault of kinds 9 to 11 (R504): class 2, with the action it led to. -/
def logUntracked (res cause action : Nat) (s : State) : State := addLog res cause 2 action 0 s

/-- Remove a resource from the retirement list and clear its history (R507, R508). -/
def dropRetired (res : Nat) (s : State) : State :=
  let s := { s with flt := { s.flt with
    retired := s.flt.retired.filter (fun r => r.res ≠ res)
    overflowed := s.flt.overflowed.filter (fun r => r ≠ res)
    history := tabPut [] res [] s.flt.history } }
  if isOn s Oid.faultsRetirePersist then startStore .retiredList s else s

/-! ### Memory -/

/-- The byte at an internal address, if anything has written it. -/
def memFind (s : State) (a : Nat) : Option Byte := tabFind a s.mem

/-- First internal address of the reference partition, and of the control partition after it (Table 1.7). -/
abbrev refBase : Nat := 0x1680000000
abbrev ctlBase : Nat := 0x1F80000000

/-- The reference slot of an address (R323). -/
def refSlot (a : Nat) : Nat := (a - refBase) / 65536 % 32

/-- What a byte nothing has written reads as: 0 in a reference slot a spare has taken (R36, R341), else a free value of its address and of the power-up it belongs to (R344). -/
def unlistedByte (s : State) (a : Nat) : Byte :=
  if refBase ≤ a ∧ a < ctlBase ∧ refSlot a ∈ s.cel.zeroSlots then 0 else Config.unwritten s.modes.hbmEpoch a

/-- Read one byte. -/
def readByte (s : State) (a : Nat) : Byte := (memFind s a).getD (unlistedByte s a)

/-- Read n bytes from an address. -/
def readMem (s : State) (a : Nat) : Nat → List Byte
  | 0 => []
  | n + 1 => readByte s a :: readMem s (a + 1) n

/-- Write bytes from an address. -/
def writeMem (a : Nat) : List Byte → State → State
  | [], s => s
  | b :: bs, s => writeMem (a + 1) bs { s with mem := tabInsert a b s.mem }

/-- Remove every listed byte in a range: its contents are lost. -/
def loseMem (lo hi : Nat) (s : State) : State := { s with mem := s.mem.filter (fun c => c.1 < lo || hi ≤ c.1) }

/-- The memory list is in its canonical form: addresses strictly rising. -/
def memWf (s : State) : Bool := tabSorted s.mem

end Sys2Proof.Machine
end

