-- ==== Sys2Proof/Machine/Fabric.lean ====
section
/-! DEFINITION. The event fabric (05_event_fabric): software fires, merging and the storm guard, grist cells, trigger pins, brewhouse triggers and interrupt coalescing. What a consumer does with an occurrence is in Deliver.lean. -/

namespace Sys2Proof.Machine

open Sys2Proof

/-! ### Configuration writes (R164) -/

/-- Remember the value a fabric object has for the rest of this tick, then give it the new one (R164). -/
def putFab (id idx v : Nat) (s : State) : State :=
  let k := objKey id idx
  let s := match tabFind k s.fab.prev with
    | some _ => s
    | none => { s with fab := { s.fab with prev := tabInsert k (getObj s id idx) s.fab.prev } }
  putObj id idx v s

/-- Discard a channel's pending occurrence (R164, R174). -/
def dropPending (c : Nat) (s : State) : State :=
  { s with fab := { s.fab with pend := tabPut none c none s.fab.pend } }

/-! ### Software fires (R169, Table 5.3) -/

/-- Who makes a software fire. -/
inductive Firer where
  | bar0 | mailbox | mgmt | cascade | firmware
deriving DecidableEq, Repr

/-- The origin a firer gives its arrival (R167). -/
def firerOrigin : Firer → Origin
  | .bar0 => .host | .mailbox => .host | .mgmt => .mgmt | .cascade => .cascade | .firmware => .firmware

/-- Whether a channel's owner and security attribute accept a fire (Table 5.3). -/
def fireAllowed (s : State) (c : Nat) (f : Firer) (secure : Bool) : Bool :=
  let own := match f, fabObj s Oid.eventsChOwner c with
    | .bar0, 0 => true
    | .mailbox, 0 => true
    | .mgmt, 1 => true
    | .firmware, 2 => true
    | .cascade, 3 => true
    | _, _ => false
  own && (secure || fabObj s Oid.eventsChSecure c != 1)

/-- A software fire of channel c on its way to the next tick; trigger_id none asks for the channel's count (R163). -/
def softFire (c : Nat) (trig : Option Nat) (f : Firer) (s : State) : State :=
  arrive { chan := c, tick := s.time.ticks, ts := stampNow s, due := now s, trig := trig, orig := firerOrigin f, late := false } s

/-- A refused BAR0 fire, trigger message or local fire is discarded and counted (R169, R180, R181). -/
def refuseFire (c : Nat) (s : State) : State :=
  bump Oid.eventsFireRefused 0 (if c < 256 then setSticky Oid.eventsChStatus c 8 s else s)

/-- Requests to the BARs are served from the end of Boot or from recovery, once the host has set Memory Space Enable, with the link up and the function in D0 (R483, R502). -/
def bar0Served (s : State) : Bool :=
  s.link.up && s.link.mse && !s.link.d3hot && s.modes.current != .cold &&
    (s.modes.current != .boot || s.modes.step = .recovery)

/-- BAR0 writes are served as reads are, but in Halt only SRC_STATUS writes are (R502). -/
def bar0Writable (s : State) : Bool := bar0Served s && s.modes.current != .halt

/-- A BAR access takes the link out of L1 (R482). -/
def barAccess (s : State) : State := { s with link := { s.link with l1 := false } }

/-- Log an error in the AER status (Table 16.4). -/
def logAer (e : Aer) (s : State) : State :=
  if e ∈ s.link.aer then s else { s with link := { s.link with aer := s.link.aer ++ [e] } }

/-- A request to a BAR that is not served, in D3hot, with Memory Space Enable clear or before the BARs are served, is an Unsupported Request (Tables 16.4 and 16.10); with the link down none arrives. -/
def barRefused (isRead : Bool) (s : State) : State :=
  if !s.link.up then s
  else
    let s := logAer .unsupportedRequest (barAccess s)
    if isRead then emit .unsupportedRequest s else s

/-- A write to a word of BAR0 other than SRC_STATUS: refused, discarded in Halt, or of the effect given (R502). -/
def bar0Write (f : State → State) (s : State) : State :=
  if !bar0Served s then barRefused false s else if bar0Writable s then f (barAccess s) else barAccess s

/-- Channels of a 64-bit mask, from a first channel up. -/
def maskChans (mask base : Nat) : Nat → List Nat
  | 0 => []
  | n + 1 => maskChans mask base n ++ (if mask.testBit n then [base + n] else [])

/-- A BAR0 fire of one channel. -/
def bar0Fire (c : Nat) (trig : Option Nat) (s : State) : State :=
  if fireAllowed s c .bar0 false then softFire c trig .bar0 s else refuseFire c s

/-! ### Merging (R167) -/

/-- Arrivals of a channel from the earliest tick among them. -/
def firstArrivals (s : State) (c : Nat) : List Arrival :=
  let mine := s.fab.arrivals.filter (fun a => a.chan = c)
  match mine with
  | [] => []
  | a :: t =>
    let tick := t.foldl (fun m b => min m b.tick) a.tick
    mine.filter (fun b => b.tick = tick)

/-- Rank of an origin: hardware sources by number, then host, management, cascade, firmware (R167). -/
def originRank : Origin → Nat
  | .source n => n
  | .host => 1000 | .mgmt => 1001 | .cascade => 1002 | .firmware => 1003

/-- The arrival whose trigger_id the merged occurrence takes. -/
def leading : Arrival → List Arrival → Arrival
  | a, [] => a
  | a, b :: t => leading (if originRank b.orig < originRank a.orig then b else a) t

/-- The merged occurrence, given the channel's count after it (R163, R167). -/
def mergeOcc (a : Arrival) (t : List Arrival) (count : Nat) : Occ :=
  { ts := t.foldl (fun m b => min m b.ts) a.ts
    due := t.foldl (fun m b => min m b.due) a.due
    trig := ((leading a t).trig).getD (count % 2 ^ 32)
    late := a.late || t.any (fun b => b.late) }

/-- Count an occurrence in the channel's storm window; true when it would exceed the limit (R174). -/
def stormCount (c : Nat) (s : State) : State × Bool :=
  let w := s.time.ticks / 125
  let g := tabGet ({} : Storm) c s.fab.storm
  let n := if g.window = w then g.count + 1 else 1
  let limit := fabObj s Oid.eventsChStormLimit c
  ({ s with fab := { s.fab with storm := tabPut {} c { window := w, count := n } s.fab.storm } },
    decide (limit < n) && decide (limit < 125))

/-- The storm guard trips: the channel is disabled and the occurrence not delivered (R174). -/
def stormTrip (c : Nat) (s : State) : State :=
  let s := dropPending c (putFab Oid.eventsChEnable c 0 s)
  let s := bump Oid.eventsChDisabledDrops c s
  fire 0x0B4 (setSticky Oid.eventsStatus 0 1 (setSticky Oid.eventsChStatus c 4 s))

/-- An occurrence dropped at a busy consumer (R168). -/
def overflowDrop (c : Nat) (s : State) : State :=
  fire 0x0B6 (setSticky Oid.eventsStatus 0 2 (setSticky Oid.eventsChStatus c 2 (bump Oid.eventsChOverflow c s)))

/-! ### Grist cells (R171, R172) -/

/-- One input level of a cell by its mode. -/
def gristLevel (g : Grist) (mode k : Nat) : Bool × Grist :=
  let arr := tabGet false k g.arrived
  match mode with
  | 0 => (arr, g)
  | 1 =>
    let t := tabGet false k g.tog != arr
    (t, { g with tog := tabPut false k t g.tog })
  | _ =>
    let h := tabGet false k g.held || arr
    (h, { g with held := tabPut false k h g.held })

/-- Clear the holds of every input in hold mode after a one is taken. -/
def clearHolds (modes : Nat) (g : Grist) : Grist :=
  { g with held := g.held.filter (fun p => bits modes (2 * p.1 + 1) (2 * p.1) != 2) }

/-- `events.grist_q` of a cell after its tick; a write in that tick stands, for it acts from the next (R164, R172). -/
def putGristQ (n v : Nat) (s : State) : State :=
  if (tabFind (objKey Oid.eventsGristQ n) s.fab.prev).isSome then s else putObj Oid.eventsGristQ n v s

/-- The look-up result of a cell, and the cell after its inputs have taken what was delivered (R171). -/
def gristLook (n : Nat) (s : State) : Bool × Grist :=
  let md := fabObj s Oid.eventsGristInputMode n
  let a := gristLevel (tabGet ({} : Grist) n s.fab.grist) (bits md 1 0) 0
  let b := gristLevel a.2 (bits md 3 2) 1
  let c := gristLevel b.2 (bits md 5 4) 2
  let d := gristLevel c.2 (bits md 7 6) 3
  let l3 := if fabObj s Oid.eventsGristDSelect n = 1 then decide (fabObj s Oid.eventsGristQ n = 1) else d.1
  let idx := b2n l3 * 8 + b2n c.1 * 4 + b2n b.1 * 2 + b2n a.1
  ((fabObj s Oid.eventsGristLut n).testBit idx, d.2)

/-- The cell after its filter (R171). -/
def gristFilter (filter : Nat) (r : Bool) (g : Grist) : Grist :=
  let run := if r != g.lastR then 0 else if g.run < 255 then g.run + 1 else g.run
  { g with arrived := [], lastR := r, run := run, acc := if run ≥ filter then r else g.acc }

/-- The cell after its register, a pulse register (0) or a flip-flop with its edge; q is its level before (R171). -/
def gristRegister (modes register edge : Nat) (q : Bool) (g : Grist) : Grist :=
  let fireNext := if register = 0 then g.acc
    else (edge = 0 && !q && g.acc) || (edge = 1 && q && !g.acc) || (edge = 2 && q != g.acc)
  let took := if register = 0 then g.acc else !q && g.acc
  let g := { g with fireNext := fireNext }
  if took then clearHolds modes g else g

/-- The R171 evaluation of one cell over the tick that ends, with that tick's configuration. -/
def gristTick (n : Nat) (s : State) : State :=
  let l := gristLook n s
  let g := gristRegister (fabObj s Oid.eventsGristInputMode n) (fabObj s Oid.eventsGristRegister n) (fabObj s Oid.eventsGristEdge n)
    (decide (fabObj s Oid.eventsGristQ n = 1)) (gristFilter (fabObj s Oid.eventsGristFilter n) l.1 l.2)
  let u := { s with fab := { s.fab with grist := tabPut {} n g s.fab.grist } }
  if fabObj s Oid.eventsGristRegister n = 0 then u else putGristQ n (b2n g.acc) u

/-- Every cell once, all on the values of the same tick. -/
def gristTicks : Nat → State → State
  | 0, s => s
  | n + 1, s => gristTick n (gristTicks n s)

/-- The clear a write in the tick before asks for, without any fire (R172); a fire already due stays due. -/
def gristClear (n : Nat) (s : State) : State :=
  let g := tabGet ({} : Grist) n s.fab.grist
  if g.clear then
    putGristQ n 0 { s with fab := { s.fab with grist := tabPut {} n { fireNext := g.fireNext } s.fab.grist } }
  else s

/-- Every cell a write has marked, of the first n. -/
def gristClears : Nat → State → State
  | 0, s => s
  | n + 1, s => gristClear n (gristClears n s)

/-- A write to a grist object of cell n clears its state in the next tick; a write of `events.grist_q` sets q instead (R172). -/
def gristWritten (id n v : Nat) (s : State) : State :=
  let s := putFab id n v s
  if id = Oid.eventsGristQ then s
  else { s with fab := { s.fab with grist := tabPut {} n { tabGet ({} : Grist) n s.fab.grist with clear := true } s.fab.grist } }

/-! ### Trigger pins (R175 to R179) -/

/-- The pin consumers act in every mode but Cold; TRIG_OUT is inactive in Boot and Halt (R188, Table 2.6). -/
def trigOutLive (m : Mode) : Bool := m != .cold && m != .boot && m != .halt

/-- Round an instant up to the pin resolution: 1 ns while the core domain runs, else 8 ns (R179). -/
def pinRound (s : State) (t : Nat) : Nat :=
  let step := if coreRuns s then 65536 else 8 * 65536
  let u := tUnits t
  ofUnits ((u + step - 1) / step * step)

/-- The instant of the edge an occurrence causes, and whether it is late (R179). -/
def pinEdge (s : State) (due : Nat) : Nat × Bool :=
  let ideal := pinRound s (tAddNs due (getObj s Oid.eventsPinLatency))
  let least := tAddNs (now s) 8
  if ideal < least then (least, true) else (ideal, false)

/-- Drive TRIG_OUT[n] active or inactive at an instant; the level follows the polarity, and only a change of it is an edge (R178). -/
def driveTrigOut (n t : Nat) (active pulsing : Bool) (ends : Nat) (s : State) : State :=
  let was := (tabGet ({} : TrigOut) n s.fab.trigOut).active
  let s := { s with fab := { s.fab with
    trigOut := tabPut {} n { active := active, pulsing := pulsing, ends := ends } s.fab.trigOut } }
  if trigOutLive s.modes.current && was != active then
    emit (.trigOut n t (active != (fabObj s Oid.eventsTrigOutPolarity n = 1))) s
  else s

/-- The edge of an occurrence from channel c at TRIG_OUT[n], with the late status where it was placed late (R179). -/
def placeEdge (c : Nat) (o : Occ) (s : State) : State :=
  if (pinEdge s o.due).2 then setSticky Oid.eventsChStatus c 0x10 s else s

/-- An occurrence at TRIG_OUT[n] from channel c (R178, R179): in modes 2 and 3 it does nothing. -/
def trigOutOccurrence (c n : Nat) (o : Occ) (s : State) : State :=
  let t := (pinEdge s o.due).1
  match fabObj s Oid.eventsTrigOutMode n with
  | 0 => driveTrigOut n t true true (tAddNs t (fabObj s Oid.eventsTrigOutWidth n)) (placeEdge c o s)
  | 1 => driveTrigOut n t (!(tabGet ({} : TrigOut) n s.fab.trigOut).active) false 0 (placeEdge c o s)
  | _ => s

/-- Level of TRIG_OUT[n] for an active state and a polarity (R178). -/
def trigOutLevel (active : Bool) (polarity : Nat) : Bool := active != (polarity = 1)

/-- TRIG_OUT[n] in the tick in which writes of the tick before take effect, `prev` being what that tick used (R164, R178): a change of mode gives it a new state, a change of polarity inverts it. -/
def trigOutTick (prev : List (Nat × Nat)) (n : Nat) (s : State) : State :=
  let mode := getObj s Oid.eventsTrigOutMode n
  let pol := getObj s Oid.eventsTrigOutPolarity n
  let mode0 := (tabFind (objKey Oid.eventsTrigOutMode n) prev).getD mode
  let pol0 := (tabFind (objKey Oid.eventsTrigOutPolarity n) prev).getD pol
  let p0 := tabGet ({} : TrigOut) n s.fab.trigOut
  let p := if mode0 = mode then p0 else { active := decide (mode = 3), pulsing := false, ends := 0 }
  let s := { s with fab := { s.fab with trigOut := tabPut {} n p s.fab.trigOut } }
  if trigOutLive s.modes.current && trigOutLevel p0.active pol0 != trigOutLevel p.active pol then
    emit (.trigOut n (now s) (trigOutLevel p.active pol)) s
  else s

/-- The first n trigger output pins. -/
def trigOutTicks (prev : List (Nat × Nat)) : Nat → State → State
  | 0, s => s
  | n + 1, s => trigOutTick prev n (trigOutTicks prev n s)

/-- Whether an edge to level l is of the kind selected by code k (R175). -/
def edgeSelected (k : Nat) (l : Bool) : Bool := k = 3 || (k = 1 && l) || (k = 2 && !l)

/-- Whether level l is the active level of edge code k (R177). -/
def levelActive (k : Nat) (l : Bool) : Bool := k = 3 || (k = 1 && l) || (k = 2 && !l)

/-- Give trigger input pin n its state. -/
def putTrigIn (n : Nat) (p : TrigIn) (s : State) : State := { s with fab := { s.fab with trigIn := tabPut {} n p s.fab.trigIn } }

/-- An edge of TRIG_IN[n] that has kept its level through the filter, of tick `tick` and timestamp ts: it is accepted, or falls in the minimum interval and is counted (R175, R176). -/
def acceptEdge (n tick ts : Nat) (s : State) : State :=
  let p := tabGet ({} : TrigIn) n s.fab.trigIn
  let close := match p.lastTick with
    | some t => decide (tick - t < fabObj s Oid.eventsTrigInMinInterval n)
    | none => false
  if close then bump Oid.eventsTrigInExcess n (putTrigIn n { p with edge := none } s)
  else
    fireStamped (0x050 + n) ts (setSticky Oid.eventsTrigInStatus n 1 (putTrigIn n { p with edge := none, lastTick := some tick } s))

/-- Accept the edge of TRIG_IN[n] whose filter ticks have passed, if any (R175). -/
def trigInTick (n : Nat) (s : State) : State :=
  match (tabGet ({} : TrigIn) n s.fab.trigIn).edge with
  | none => s
  | some e => if e.1 + fabObj s Oid.eventsTrigInFilter n ≤ s.time.ticks then acceptEdge n e.1 e.2 s else s

/-- The first n trigger input pins. -/
def trigInTicks : Nat → State → State
  | 0, s => s
  | n + 1, s => trigInTick n (trigInTicks n s)

/-- The pin of TRIG_IN[n] changes to level l at an instant (R175, R177): an edge of the kind selected belongs to the first tick at or after it and is accepted in trigInTick; a change of level undoes an edge not yet accepted, and the edge by which a stuck pin returns is not accepted. -/
def trigInEdge (n : Nat) (l : Bool) (t : Nat) (s : State) : State :=
  let k := fabObj s Oid.eventsTrigInEdge n
  let p := tabGet ({} : TrigIn) n s.fab.trigIn
  if p.level = l then s
  else if p.stuck then putTrigIn n { p with level := l, edge := none, stuck := if k = 3 then false else levelActive k l } s
  else if !edgeSelected k l then putTrigIn n { p with level := l, edge := none } s
  else
    let tick := if t ≤ now s then s.time.ticks else s.time.ticks + 1
    trigInTick n (putTrigIn n { p with level := l, edge := some (tick, kilnStamp s t) } s)

/-! ### Brewhouse triggers (R180 to R182) -/

/-- The cascade quads: upstream, then downstream (R21, Table 4.6). -/
def cascadeQuads (s : State) : List Nat :=
  let up := getObj s Oid.timeBhUpstream
  (if up < 16 then [up] else []) ++ (List.range 16).filter (fun q => (getObj s Oid.timeBhDownstream).testBit q)

/-- The cascade links that carry traffic: not refused (R152), not retired (R506). -/
def openLinks (s : State) : List Nat :=
  (cascadeQuads s).filter (fun q => !tabGet false q s.time.refused && !isRetired s (resCascade q))

/-- A cascade frame: the 16-byte header of Table 7.6, the payload, and the CRC-32C over both (R249). -/
def cascadeFrame (typ flags dest src hops seq : Nat) (payload : List Byte) : List Byte :=
  let b := beBytes 1 typ ++ beBytes 1 flags ++ beBytes 2 (dest % 1024) ++ beBytes 2 (src % 1024) ++ beBytes 1 hops ++ beBytes 1 0
    ++ beBytes 2 payload.length ++ beBytes 4 seq ++ beBytes 2 0 ++ payload
  b ++ beBytes 4 (crc32c b)

/-- The next sequence number of a frame type (Table 7.6), counted per source and type. -/
def takeBhSeq (typ : Nat) (s : State) : Nat × State :=
  let n := tabGet 0 typ s.time.bhSeq
  (n, { s with time := { s.time with bhSeq := tabPut 0 typ ((n + 1) % 2 ^ 32) s.time.bhSeq } })

/-- The bytes of a pending frame that leaves at a departure time (R249, R250). -/
def bhBytes (f : BhFrame) (dep : Nat) : List Byte :=
  cascadeFrame f.typ f.flags f.dest f.src f.hops f.seq (f.pre ++ (if f.stamped then timeBytes false dep else []) ++ f.post)

/-- What quad q has to send on its cascade link. -/
def bhLink (s : State) (q : Nat) : BhLink := tabGet {} q s.lp.bh

/-- Give the cascade link of quad q its state. -/
def putBh (q : Nat) (l : BhLink) (s : State) : State := { s with lp := { s.lp with bh := tabPut {} q l s.lp.bh } }

/-- A frame takes its place among the pending ones: behind those of its rank and above, before those below (R253). -/
def bhInsert (f : BhFrame) : List BhFrame → List BhFrame
  | [] => [f]
  | g :: t => if f.rank < g.rank then f :: g :: t else g :: bhInsert f t

/-- A frame for the cascade link of quad q: it starts at once where nothing is being sent, leaving at `dep`; else it is pending (R253). -/
def queueBh (q dep : Nat) (f : BhFrame) (s : State) : State :=
  let l := bhLink s q
  if l.left = 0 && l.queue.isEmpty then
    let b := bhBytes f dep
    emit (.cascade q b) (putBh q { l with left := b.length } s)
  else putBh q { l with queue := bhInsert f l.queue } s

/-- Bytes a cascade link sends in a kiln tick: 100 Gb/s for 8 ns (R253). -/
abbrev bhBytesPerTick : Nat := 100

/-- A cascade link sends for what is left of a tick, `room` bytes: the rest of the frame started, which is never interrupted, then pending frames in order (R253). -/
def bhSend (q : Nat) : Nat → Nat → State → State
  | 0, _, s => s
  | fuel + 1, room, s =>
    let l := bhLink s q
    if room < l.left then putBh q { l with left := l.left - room } s
    else
      match l.queue with
      | [] => putBh q { l with left := 0 } s
      | f :: rest =>
        let used := bhBytesPerTick - (room - l.left)
        let b := bhBytes f (laneStamp (momentAt s (used * 65536 / bhBytesPerTick)))
        bhSend q fuel (room - l.left) (emit (.cascade q b) (putBh q { l with left := b.length, queue := rest } s))

/-- A cascade link that is gone loses what it held; a refused one keeps its time frames only (R152). -/
def bhPrune (q : Nat) (s : State) : State :=
  let l := bhLink s q
  if q ∈ cascadeQuads s ∧ !isRetired s (resCascade q) then
    (if tabGet false q s.time.refused then putBh q { l with queue := l.queue.filter (fun f => f.rank ≤ 2) } s else s)
  else putBh q { blocks := l.blocks } s

/-- Blocks of a lane from one alignment marker to the next (R248). -/
abbrev markerBlocks : Nat := 16384

/-- The alignment marker of a lane: M0 to M3, then their bitwise inverse (R248). -/
def markerBytesOf (lane : Nat) : List Byte :=
  let m := beBytes 1 0x5B ++ beBytes 1 0x4C ++ beBytes 1 0x4E ++ beBytes 1 lane
  m ++ m.map (fun b => ~~~b)

/-- Blocks of 66 bits on a lane of 25.781 25 Gb/s count 3.125 in a kiln tick; every 16,384 the four lanes of a sending cascade quad carry a marker (R248). -/
def bhMarkers (q : Nat) (s : State) : State :=
  if q ∈ cascadeQuads s ∧ getObj s (quadId Oid.quadPllLocked q) = 1 then
    let l := bhLink s q
    let n := l.blocks + 25
    if 8 * markerBlocks ≤ n then
      emit (.alignMarkers q ((List.range 4).map markerBytesOf)) (putBh q { l with blocks := n - 8 * markerBlocks } s)
    else putBh q { l with blocks := n } s
  else s

/-- The cascade links over one kiln tick. -/
def bhTicks : Nat → State → State
  | 0, s => s
  | n + 1, s => bhMarkers n (bhSend n 8 bhBytesPerTick (bhPrune n (bhTicks n s)))

/-- Originate one cascade frame on quad q (R249): rank in the order of R253, header, and payload around the departure time where it carries one. -/
def originateBh (q rank typ dest : Nat) (pre : List Byte) (stamped : Bool) (post : List Byte) (dep : Nat) (s : State) : State :=
  let n := takeBhSeq typ s
  queueBh q dep { rank := rank, typ := typ, flags := 0, dest := dest, src := getObj s Oid.timeBhAddress, hops := 12, seq := n.1,
                  pre := pre, stamped := stamped, post := post } n.2

/-- Originate a frame that carries no departure time. -/
def sendCascade (q rank typ dest : Nat) (payload : List Byte) (s : State) : State :=
  originateBh q rank typ dest payload false [] (now s) s

/-- The payload of a trigger frame (Table 7.7). -/
def triggerPayload (chan trig t : Nat) : List Byte :=
  timeBytes false t ++ beBytes 2 chan ++ beBytes 2 0 ++ beBytes 4 trig

/-- One copy of a trigger frame: broadcast, the second with the repeat flag (R251). -/
def triggerCopy (src hops seq : Nat) (rep : Bool) (pl : List Byte) (k : Option Nat) : BhFrame :=
  { rank := 3, typ := 4, flags := if rep then 0xC0 else 0x80, dest := 0, src := src, hops := hops, seq := seq,
    pre := pl, stamped := false, post := [], exp := k }

/-- Originate a trigger on every open link, for cascade export k: two copies in succession (R38, R251). -/
def sendTrigger (k chan trig t : Nat) (s : State) : State :=
  let n := takeBhSeq 4 s
  let src := getObj s Oid.timeBhAddress
  let pl := triggerPayload chan trig t
  (openLinks s).foldl (fun s q => queueBh q (now s) (triggerCopy src 12 n.1 true pl (some k))
    (queueBh q (now s) (triggerCopy src 12 n.1 false pl (some k)) s)) n.2

/-- A trigger message of cascade export k is still to be sent (Table 5.2). -/
def exportBusy (s : State) (k : Nat) : Bool := s.lp.bh.any (fun e => e.2.queue.any (fun f => f.exp = some k))

/-- Forward a copy of a trigger frame on every open link but the one it came by (R38, R251), one hop less. -/
def forwardTrigger (q src seq hops : Nat) (rep : Bool) (pl : List Byte) (s : State) : State :=
  ((openLinks s).filter (fun k => k ≠ q)).foldl (fun s k => queueBh k (now s) (triggerCopy src (hops - 1) seq rep pl none) s) s

/-- Take one of the 64 scheduled fires, or refuse (R180, R181). -/
def scheduleFire (f : SchedFire) (s : State) : State :=
  if s.fab.sched.length < 64 then { s with fab := { s.fab with sched := s.fab.sched ++ [f] } }
  else refuseFire f.chan s

/-- A cascade export occurrence (R180): a message on every link and the same fire locally; in Halt no message is originated, and the fire takes place all the same (R188). -/
def exportOccurrence (k : Nat) (o : Occ) (s : State) : State :=
  let ch := fabObj s Oid.eventsExportChannel k
  if ch = 0xFFFF then s
  else
    let t := tAddNs o.due (fabObj s Oid.eventsExportLead k)
    scheduleFire { chan := ch, t := t, trig := o.trig } (if s.modes.current = .halt then s else sendTrigger k ch o.trig t s)

/-- Fire a channel for a brewhouse trigger with due time T (R163, R181). -/
def brewFire (f : SchedFire) (late : Bool) (s : State) : State :=
  arrive { chan := f.chan, tick := s.time.ticks, ts := stampNow s, due := f.t, trig := some f.trig, orig := .cascade, late := late } s

/-- Act on a trigger message (R40, R181, R182). -/
def receiveTrigger (chan trig t : Nat) (s : State) : State :=
  let f : SchedFire := { chan := chan, t := t, trig := trig }
  if !fireAllowed s chan .cascade false then refuseFire chan s
  else if t < now s then
    fire 0x0B7 (bump Oid.eventsLateTriggers 0 (setSticky Oid.eventsStatus 0 8 (brewFire f true s)))
  else scheduleFire f s

/-- A trigger frame received on quad q: every copy is forwarded, the first of a source and sequence is acted on (R38, R251). DESIGN CHOICE (entry 141): the last 1,024 pairs of source and sequence are remembered, for the spec gives no number. A member outside the brewhouse time domain takes no trigger from its upstream link (R41). -/
def triggerFrame (q src seq hops : Nat) (rep : Bool) (chan trig t : Nat) (s : State) : State :=
  let s := bump Oid.portBhFrames q s
  if hops = 0 || (s.time.cutOff && getObj s Oid.timeBhUpstream = q) then s
  else
    let s := forwardTrigger q src seq hops rep (triggerPayload chan trig t) s
    if (src, seq) ∈ s.fab.trigSeen then s
    else receiveTrigger chan trig t { s with fab := { s.fab with trigSeen := ((src, seq) :: s.fab.trigSeen).take 1024 } }

/-- Fire every scheduled fire whose T is reached (R181). -/
def fireScheduled (s : State) : State :=
  let due := s.fab.sched.filter (fun f => f.t ≤ now s)
  due.foldl (fun s f => brewFire f false s)
    { s with fab := { s.fab with sched := s.fab.sched.filter (fun f => now s < f.t) } }

/-! ### Rows -/

/-- FIRE through BAR0, and FIRE_MASK: an accepted channel fires, a refused one is counted (R169, Table 5.4). -/
def bar0FireAll (cs : List Nat) (s : State) : State := cs.foldl (fun s c => bar0Fire c none s) s

/-- GRIST_CELL_FIRE (R171). -/
def execGristCellFire (g : Fin 64) (s : State) : Host.Outcome State Fault Refusal :=
  let c := tabGet ({} : Grist) g.val s.fab.grist
  if c.fireNext then
    .next (fire (0x0C0 + g.val) { s with fab := { s.fab with grist := tabPut {} g.val { c with fireNext := false } s.fab.grist } })
  else .next s

/-- TRIG_IN_EDGE (R175, R176): a change of the pin's level; its acceptance comes with the filter ticks that follow. -/
def execTrigInEdge (n : Fin 16) (rising : Bool) (t : Time96) (s : State) : Host.Outcome State Fault Refusal :=
  if s.modes.current = .cold then .next s else .next (trigInEdge n.val rising (Time96pack t) s)

/-- TRIG_IN_STUCK (R177). -/
def execTrigInStuck (n : Fin 16) (s : State) : Host.Outcome State Fault Refusal :=
  let k := fabObj s Oid.eventsTrigInEdge n.val
  let p := tabGet ({} : TrigIn) n.val s.fab.trigIn
  if fabObj s Oid.eventsTrigInStuck n.val = 0 || k = 0 || !levelActive k p.level || p.stuck then .next s
  else
    let s := { s with fab := { s.fab with trigIn := tabPut {} n.val { p with stuck := true, edge := none } s.fab.trigIn } }
    .next (fire 0x0B5 (setSticky Oid.eventsStatus 0 4 (setSticky Oid.eventsTrigInStatus n.val 2 s)))

/-- TRIG_OUT_PULSE_END (R178). -/
def execTrigOutPulseEnd (n : Fin 16) (s : State) : Host.Outcome State Fault Refusal :=
  let p := tabGet ({} : TrigOut) n.val s.fab.trigOut
  if p.pulsing then .next (driveTrigOut n.val p.ends false false 0 s) else .next s

/-- VECTOR_TIMER (R184). -/
def execVectorTimer (v : Fin 2048) (s : State) : Host.Outcome State Fault Refusal :=
  let c := tabGet ({} : Vec) v.val s.fab.vec
  if c.timer && decide (0 < c.count) then .next (sendVector v.val s) else .next s

/-- Unmask vector v: in MSI the mask bit of the MSI vector it is sent as, else its entry of the MSI-X table (R184, R186). -/
def unmaskVector (v : Nat) (s : State) : State :=
  match s.link.form with
  | .msi n => { s with link := { s.link with msiMask := s.link.msiMask - (s.link.msiMask &&& 2 ^ (v % max n 1)) } }
  | .none => { s with fab := { s.fab with unmasked := tabPut false v true s.fab.unmasked } }
  | .intx => { s with fab := { s.fab with unmasked := tabPut false v true s.fab.unmasked } }
  | .msix => { s with fab := { s.fab with unmasked := tabPut false v true s.fab.unmasked } }

/-- Vectors with a pending message that goes out with vector v. -/
def heldWith (s : State) (v : Nat) : List Nat :=
  (s.fab.pba.filter (fun p => p.2 && (match s.link.form with
    | .msi n => p.1 % max n 1 = v % max n 1
    | .msix => p.1 = v
    | .intx => p.1 = v
    | .none => false))).map (fun p => p.1)

/-- MSIX_VECTOR_UNMASK (R184): a message pending on the vector is sent. -/
def execMsixVectorUnmask (v : Fin 2048) (s : State) : Host.Outcome State Fault Refusal :=
  let s := unmaskVector v.val s
  if busStopped s then .next s
  else .next ((heldWith s v.val).foldl (fun s u =>
    sendVector u { s with fab := { s.fab with pba := tabPut false u false s.fab.pba } }) s)

/-- Clear the SRC_STATUS bits of word w that a write sets. -/
def clearSrcStatus (w mask : Nat) : Nat → State → State
  | 0, s => s
  | n + 1, s =>
    let s := clearSrcStatus w mask n s
    if mask.testBit n then { s with fab := { s.fab with srcStatus := tabPut false (16 * w + n) false s.fab.srcStatus } } else s

/-- SRC_STATUS_WRITE (Table 5.4, R186); served in Halt too (R502). -/
def execSrcStatusWrite (w : Fin 40) (value : Word) (s : State) : Host.Outcome State Fault Refusal :=
  if bar0Served s then .next (updateIntx (clearSrcStatus w.val value.toNat 16 (barAccess s))) else .next (barRefused false s)

/-- TRIGGER (R181): one copy of a trigger frame. -/
def execTrigger (q : Quad) (src : BitVec 10) (seq : Word) (hops : Byte) (rep : Bool) (chan : Half) (trig : Word) (t : Time96)
    (s : State) : Host.Outcome State Fault Refusal :=
  if q.val ∈ openLinks s && s.modes.current != .cold && s.modes.current != .boot then
    .next (triggerFrame q.val src.toNat seq.toNat hops.toNat rep chan.toNat trig.toNat (Time96pack t) s)
  else .next s

/-- SCHEDULED_FIRE (R181). -/
def execScheduledFire (s : State) : Host.Outcome State Fault Refusal := .next (fireScheduled s)

end Sys2Proof.Machine
end

