-- ==== Sys2Proof/Machine/Timekeeper.lean ====
section
/-! DEFINITION. The timekeeper (04_timekeeper): the tick of R129, steps and sets, compares, snapshots, PPS, the PTP servo, and time across the brewhouse. -/

namespace Sys2Proof.Machine

open Sys2Proof

/-! ### The tick (R129) -/

/-- Which PPS second a packed time lies in: the boundaries are at `time.pps_out_offset` modulo 10^9 (R145). -/
def ppsSecond (s : State) (t : Nat) : Int :=
  (((tSec t * billion + tNs t : Nat) : Int) - getInt s Oid.timePpsOutOffset) / (billion : Int)

/-- The level of PPS_OUT; Table 2.6 holds it low in Boot and Halt. -/
def ppsLive (m : Mode) : Bool := m != .cold && m != .boot && m != .halt

/-- A PPS_OUT pulse starts with its edge at an instant (R145); a pulse still on goes on. -/
def ppsStart (t : Nat) (s : State) : State :=
  let was := s.time.ppsActive
  let s : State := { s with time := { s.time with ppsActive := true, ppsEnds := tAddNs t (getObj s Oid.timePpsOutWidth) } }
  let s := if ppsLive s.modes.current && !was then emit (.pps t (getObj s Oid.timePpsOutPolarity != 1)) s else s
  fireStamped 0x041 (kilnStamp s t) s

/-- The pulse that the present tick asks for, if any, starts. -/
def ppsFlush (s : State) : State :=
  match s.time.ppsDue with
  | none => s
  | some t => ppsStart t { s with time := { s.time with ppsDue := none } }

/-- The instant of the boundary that a time has passed last (R145). -/
def ppsBoundary (s : State) (t : Nat) : Nat := ofUnits ((ppsSecond s t * (billion : Int) + getInt s Oid.timePpsOutOffset).toNat * 65536)

/-- A pulse is due when the published tick time has passed a boundary since the last, t0 (R145): its edge is at the boundary, or, after a step or without the core domain, at the tick (R137, Table 4.2). -/
def ppsTick (t0 : Nat) (stepped : Bool) (s : State) : State :=
  if isOn s Oid.timePpsOutEnable && decide (ppsSecond s t0 < ppsSecond s (now s)) then
    { s with time := { s.time with ppsDue := some (if stepped || !coreRuns s then now s else ppsBoundary s (now s)) } }
  else s

/-- A write of `time.pps_out_polarity`: a change of it inverts the pin (R145). -/
def ppsPolarityWritten (v : Nat) (s : State) : State :=
  let s1 := putObj Oid.timePpsOutPolarity 0 v s
  if getObj s Oid.timePpsOutPolarity = v || !ppsLive s.modes.current then s1
  else emit (.pps (now s) (s.time.ppsActive != (v = 1))) s1

/-! ### Compares (R132, R154, R155) -/

/-- Whether the target of unit u is reached at a time and short time (R132). -/
def cmpReached (s : State) (u t short : Nat) : Bool :=
  match getObj s Oid.timeCmpMode u with
  | 1 => decide (getObj s Oid.timeCmpTarget u ≤ t)
  | 2 => decide (getObj s Oid.timeCmpTarget u ≤ t)
  | 3 => shortReached short (getObj s Oid.timeCmpShort u)
  | _ => false

/-- Set the armed state of unit u: 0 disarmed, 1 armed, 2 armed late, 3 and 4 armed and armed late from the next tick on. -/
def setArmed (u a : Nat) (s : State) : State := { s with time := { s.time with cmpArmed := tabPut 0 u a s.time.cmpArmed } }

/-- Arm unit u against the target it holds (R154): where that is already reached it fires at the next tick, late. -/
def armCompare (u : Nat) (s : State) : State :=
  if getObj s Oid.timeCmpMode u = 0 then setArmed u 0 s
  else setArmed u (if cmpReached s u (now s) (shortNow s) then 4 else 1) s

/-- A periodic unit goes on with its next target (R154); one the tick time has just reached is met at the next tick. -/
def rearmCompare (u : Nat) (s : State) : State := setArmed u (if cmpReached s u (now s) (shortNow s) then 3 else 1) s

/-- The armed state of unit u in a new tick; a target that a backward step has put ahead again is waited for (R137). -/
def armedNext (s : State) (u a : Nat) : Nat :=
  if a = 3 then 1
  else if a = 4 || a = 2 then (if cmpReached s u (now s) (shortNow s) then 2 else 1)
  else a

/-- Every armed state in a new tick. -/
def promoteArmed (s : State) : State :=
  { s with time := { s.time with cmpArmed := s.time.cmpArmed.map (fun p => (p.1, armedNext s p.1 p.2)) } }

/-- How many periods on the first target after the tick time lies (R154): at least one. -/
def periodsOn (target period t : Nat) : Nat :=
  (tUnits t - tUnits target) / (max period 1 * 65536) + 1

/-- Fire compare unit u and disarm it, or advance its target (R154). -/
def fireCompare (u : Nat) (late : Bool) (s : State) : State :=
  let tgt := getObj s Oid.timeCmpTarget u
  let mode := getObj s Oid.timeCmpMode u
  let due := if mode = 3 then
      ofUnits (tUnits (now s) - ((shortNow s + 2 ^ 32 - getObj s Oid.timeCmpShort u % 2 ^ 32) % 2 ^ 32) * 65536)
    else tgt
  let s1 := setSticky Oid.timeCmpStatus u (if late then 3 else 1) s
  let s2 := fireAt u (stampNow s1) due late s1
  if mode = 2 then
    let period := getObj s Oid.timeCmpPeriod u
    let k := periodsOn tgt period (now s)
    if tUnits (now s) - tUnits tgt > period * 65536 then
      rearmCompare u (putObj Oid.timeCmpTarget u (tAddNs tgt (k * period))
        (addObj Oid.timeCmpCatchup u (k - 1) (setSticky Oid.timeCmpStatus u 2 s2)))
    else rearmCompare u (putObj Oid.timeCmpTarget u (tAddNs tgt period) s2)
  else setArmed u 0 s2

/-- Evaluate compare unit u at the tick time (R154). -/
def evalCompare (u : Nat) (s : State) : State :=
  let a := tabGet 0 u s.time.cmpArmed
  if a = 0 || decide (2 < a) || !cmpReached s u (now s) (shortNow s) then s else fireCompare u (decide (a = 2)) s

/-- Fire every armed unit among the first n whose target a step has carried the time past, late (R137). -/
def stepPastCompares (t0 short0 : Nat) : Nat → State → State
  | 0, s => s
  | n + 1, s =>
    let s := stepPastCompares t0 short0 n s
    if tabGet 0 n s.time.cmpArmed != 0 && cmpReached s n (now s) (shortNow s) && !cmpReached s n t0 short0 then fireCompare n true s
    else s

/-- Actions whose time a forward step from t0 has passed take place late at the step tick (R137). -/
def stepPast (t0 short0 : Nat) (s : State) : State :=
  let s := stepPastCompares t0 short0 64 s
  let s := match s.time.snapArmed with
    | some t => if t0 < t && t ≤ now s then { s with time := { s.time with snapLate := true } } else s
    | none => s
  let w := getObj s Oid.modesWakeAt
  let s := if isOn s Oid.modesWakeEnable && t0 < w && w ≤ now s then
      { s with modes := { s.modes with wakeAtPassed := true } } else s
  match s.dict.pitch with
  | some p => if p.when_ = 2 && t0 < p.time && p.time ≤ now s then
      { s with dict := { s.dict with pitch := some { p with late := true } } } else s
  | none => s

/-- Apply the pending step, if any, to the time that step 1 gave, and what a step does to compares (R135 to R137). -/
def applyStep (s : State) : State :=
  match s.time.step with
  | none => s
  | some p =>
    let t0 := now s
    let short0 := shortNow s
    let s := moveTime (stepOffset s p) { s with time := { s.time with step := none } }
    let s := putObj Oid.timeLastStep 0 (now s) (bump Oid.timeStepCount 0 (setSticky Oid.timeStatus 0 1 s))
    let s := fire 0x042 s
    if t0 < now s then stepPast t0 short0 s else s

/-- An increment written since the last tick comes into force (R129 step 4, R130). -/
def takeIncrement (s : State) : State :=
  match s.time.incNext with
  | none => s
  | some i => { s with time := { s.time with inc := i, incNext := none } }

/-- Fire each of the first n grist cells whose fire_next is still set as its tick ends: its source fires in that tick (R171). -/
def gristFires : Nat → State → State
  | 0, s => s
  | n + 1, s =>
    let s := gristFires n s
    let c := tabGet ({} : Grist) n s.fab.grist
    if c.fireNext then
      fire (0x0C0 + n) { s with fab := { s.fab with grist := tabPut {} n { c with fireNext := false } s.fab.grist } }
    else s

/-- Kiln ticks in a second. -/
abbrev ticksPerSecond : Nat := 125000000

/-- At the end of a second, `racking.ratio_1s` takes the ratio of it (R376); a ratio beyond 16 bits reads the largest. -/
def rollSecond (s : State) : State :=
  let n := s.time.ticks / ticksPerSecond
  if n = s.rk.sec then s
  else
    let r := if n = s.rk.sec + 1 && s.rk.outSec != 0 then min (s.rk.inSec * 1024 / s.rk.outSec) 65535 else 0
    putObj Oid.rackingRatio1s 0 r { s with rk := { s.rk with sec := n, inSec := 0, outSec := 0 } }

/-- The tick that ends: fires still due in it, then every grist cell over it (R171), then what its writes clear (R172). -/
def gristEnd (s : State) : State := gristClears 64 (gristTicks 64 (gristFires 64 s))

/-- A new tick begins: writes of the tick before take effect (R164, R521), and the bits hardware set in it are no longer spared (R83). -/
def openTick (s : State) : State :=
  { s with fab := { s.fab with prev := [] }, fresh := [], time := { s.time with ticks := s.time.ticks + 1 } }

/-- Events of mash domains that this tick takes (R27, R162). -/
def fireCrossings (s : State) : State :=
  (s.fab.cross.filter (fun c => !c.wait)).foldl (fun s c => fireAt c.src c.ts (now s) false s)
    { s with fab := { s.fab with cross := (s.fab.cross.filter (fun c => c.wait)).map (fun c => { c with wait := false }) } }

/-- What was asked for or armed in the tick before can now take place (R154, R157). -/
def promote (s : State) : State :=
  let s := promoteArmed s
  let ahead := match s.time.snapArmed with | some t => decide (now s < t) | none => true
  { s with time := { s.time with
      snapDue := s.time.snapDue || s.time.snapNow, snapNow := false, snapLate := s.time.snapLate && !ahead } }

/-- The publication of a tick (R129 step 3): the PPS boundary, armed units, trigger pins, events from the mash domains, cascade links. -/
def publish (t0 : Nat) (stepped : Bool) (prev : List (Nat × Nat)) (s : State) : State :=
  bhTicks 16 (fireCrossings (trigInTicks 16 (trigOutTicks prev 16 (updateIntx (promote (ppsTick t0 stepped s))))))

/-- One kiln tick (R129, R171): the tick that ends, then accumulate, apply a pending step, publish, and take a new increment. DEDUCED (entry 138): the next tick of R130 is the one that accumulates after the write, and the increment written is in force from its end, as step 4 says. -/
def kilnTick (s : State) : State :=
  let s := gristEnd (ppsFlush s)
  rollSecond (takeIncrement (publish (now s) s.time.step.isSome s.fab.prev (applyStep (accumulate (openTick s)))))

/-! ### Increment and servo (R134, R140 to R143) -/

/-- A new increment: the object reads it now, the tick uses it from the next (R130). -/
def setIncrement (v : Nat) (s : State) : State :=
  putObj Oid.timeIncrement 0 v { s with time := { s.time with incNext := some v } }

/-- Lower and upper servo limits: ±500 ppm of 8.0 ns (R134). -/
abbrev servoLow : Nat := 0x0800000000 - 17179869
abbrev servoHigh : Nat := 0x0800000000 + 17179869

/-- A servo sets the increment it wants, held to the limit of R134. -/
def setClamped (want : Int) (s : State) : State :=
  if want < (servoLow : Int) then setSticky Oid.timeStatus 0 2 (setIncrement servoLow s)
  else if (servoHigh : Int) < want then setSticky Oid.timeStatus 0 2 (setIncrement servoHigh s)
  else setIncrement want.toNat s

/-- The firmware servo adjusts the increment: by how much, the spec does not state; the value is free, held to the limit of R134. -/
def servoAdjust (s : State) : State :=
  setClamped ((Config.freeValue s.free).toNat : Int) { s with free := s.free + 1 }

/-- The follower adjusts its increment from the mean offset d (R149): a device that is ahead slows; by how much is free. -/
def servoToward (d : Int) (s : State) : State :=
  let w : Int := (((Config.freeValue s.free).toNat % 2 ^ 40 : Nat) : Int)
  let cur := (getObj s Oid.timeIncrement : Int)
  setClamped (if 0 < d then cur - w else if d < 0 then cur + w else cur) { s with free := s.free + 1 }

/-- The follower slews at the limit of R134 against an offset d (R151): status bit 1 is set, for it wants more than the limit. -/
def slew (d : Int) (s : State) : State :=
  setSticky Oid.timeStatus 0 2 (setIncrement (if 0 < d then servoLow else servoHigh) s)

/-- Add an offset to what is pending (R136). -/
def addStep (d : Int) (s : State) : State :=
  let p := s.time.step.getD {}
  { s with time := { s.time with step := some { p with add := p.add + d } } }

/-- A set replaces everything pending before it (R136). -/
def setTime (t : Nat) (s : State) : State := { s with time := { s.time with step := some { set := some t, add := 0 } } }

/-- Lock gained: source 0x043. -/
def gainLock (s : State) : State :=
  if isOn s Oid.timeLocked then s else fire 0x043 (putObj Oid.timeLocked 0 1 s)

/-- Lock lost: time.status bit 2 and source 0x044 (R141). -/
def loseLock (s : State) : State :=
  if isOn s Oid.timeLocked then
    fire 0x044 (setSticky Oid.timeStatus 0 4 (putObj Oid.timeLocked 0 0 s))
  else s

/-- An offset in 2^-16 ns as Q32.32 ns. -/
def offsetQ32 (d : Int) : Nat := ofSigned 64 (d * 65536)

/-- A servo update with the offset local minus source, in 2^-16 ns (R141, R142). -/
def servoUpdate (d : Int) (s : State) : State :=
  let s := putObj Oid.timeOffset 0 (offsetQ32 d) s
  let ns := d.natAbs
  let thr := getObj s Oid.timeLockThreshold * 65536
  let s :=
    if ns ≤ thr then
      let s := { s with time := { s.time with goodRun := s.time.goodRun + 1 } }
      if s.time.goodRun ≥ 16 then gainLock s else s
    else
      let s := { s with time := { s.time with goodRun := 0 } }
      if 10 * thr < ns then loseLock s else s
  let st := getObj s Oid.timeStepThreshold * 65536
  if st != 0 && decide (st < ns) then addStep (-(d * 65536)) s else servoAdjust s

/-- A change of source loses lock (R141); source 3 is locked while `time.bh_locked` is 1. -/
def setSource (v : Nat) (s : State) : State :=
  if getObj s Oid.timeSource = v then s
  else
    let s := loseLock (putObj Oid.timeSource 0 v { s with time := { s.time with goodRun := 0 } })
    if v = 3 && isOn s Oid.timeBhLocked then gainLock s else s

/-! ### The brewhouse (R147 to R153) -/

/-- `time.bh_locked` changes: source 0x049, and lock of a follower (R141, R149); with lock a member is inside the brewhouse time domain again (R41). -/
def setBhLocked (b : Bool) (s : State) : State :=
  if isOn s Oid.timeBhLocked = b then s
  else
    let s := fire 0x049 (putObj Oid.timeBhLocked 0 (b2n b) { s with time := { s.time with cutOff := s.time.cutOff && !b } })
    if getObj s Oid.timeSource = 3 then (if b then gainLock s else loseLock s) else s

/-- The level this member announces: 0 at the root (R152). -/
def ownLevel (s : State) : Nat := if getObj s Oid.timeBhUpstream = 0xFFFF then 0 else getObj s Oid.timeBhLevel

/-- `time.bh_level` (R152): 0 at the root, which has links down and none up; else as the parent's beacons or a topology fault left it. -/
def bhLevel (s : State) : Nat :=
  if getObj s Oid.timeBhUpstream = 0xFFFF && getObj s Oid.timeBhDownstream != 0 then 0 else getObj s Oid.timeBhLevel

/-- The topology fault of R152: level 0xFF, source 0x04A, a cascade fault of kind 8 (Table 17.1). -/
def topologyFault (q : Nat) (s : State) : State :=
  let s := fire 0x04A (putObj Oid.timeBhLevel 0 0xFF s)
  (recordFault (resCascade q) 1 false s).1

/-- Mean of a list of offsets, 0 when empty. -/
def meanInt (l : List Int) : Int := if l.isEmpty then 0 else l.foldl (· + ·) 0 / (l.length : Int)

/-- A beacon the member cannot follow: its link is refused (R152). -/
def refuseLink (q : Nat) (s : State) : State :=
  setBhLocked false (topologyFault q { s with time := { s.time with refused := tabPut false q true s.time.refused } })

/-- What a beacon of the parent tells: level, root, lock; a parent that loses the lock it reported leaves its child on its last increment (R41, R149, R152). DEDUCED (entry 142). -/
def takeBeacon (q : Nat) (b : BeaconBody) (s : State) : State :=
  putObj Oid.timeBhLevel 0 (b.level.toNat + 1) { s with time := { s.time with
    refused := tabPut false q false s.time.refused, rootAddr := b.root.toNat, parentLock := b.locked
    holding := !b.locked && (s.time.holding || s.time.parentLock) } }

/-- An offset joins the last 64; the mean, and the run that lock asks for (R149). -/
def takeOffset (off : Int) (s : State) : State :=
  let offs := (off :: s.time.beaconOff).take 64
  let run := if off.natAbs ≤ 65536 then s.time.beaconRun + 1 else 0
  let s := { s with time := { s.time with beaconOff := offs, beaconRun := run } }
  let s := putObj Oid.timeBhOffset 0 (offsetQ32 (meanInt offs)) s
  if !s.time.parentLock || decide (4 * 65536 < off.natAbs) then setBhLocked false s
  else if 1024 ≤ run then setBhLocked true s else s

/-- The follower acts on an offset (R149, R151): beyond 1 µs it steps, beyond the 4 ns of lock it slews at the limit of R134, else it adjusts once in 64 beacons from their mean. DEDUCED (entry 143): where slewing begins. -/
def follow (off : Int) (s : State) : State :=
  let s := putObj Oid.timeOffset 0 (offsetQ32 off) s
  if 1000 * 65536 < off.natAbs then addStep (-(off * 65536)) { s with time := { s.time with beaconMean := 0 } }
  else if s.time.holding then { s with time := { s.time with beaconMean := 0 } }
  else if 4 * 65536 < off.natAbs then slew off { s with time := { s.time with beaconMean := 0 } }
  else if s.time.beaconMean + 1 < 64 then { s with time := { s.time with beaconMean := s.time.beaconMean + 1 } }
  else servoToward (meanInt s.time.beaconOff) { s with time := { s.time with beaconMean := 0 } }

/-- A beacon from the parent (R149, R151, R152). -/
def beacon (q : Nat) (b : BeaconBody) (arrival : Nat) (s : State) : State :=
  if getObj s Oid.timeBhUpstream ≠ q || isRetired s (resCascade q) then s
  else if 6 < b.level.toNat + 1 || b.root.toNat = getObj s Oid.timeBhAddress then refuseLink q s
  else
    let hop := toSigned 64 (getObj s Oid.timeBhHopDelay q) / 65536
    let off := (tUnits arrival : Int) - ((tUnits (Time96pack b.time) : Int) + hop)
    let s := takeOffset off (takeBeacon q b s)
    if getObj s Oid.timeSource = 3 then follow off s else s

/-- A probe reply gives a hop delay (R148), in 2^-16 ns; t1 is the departure kept since the probe was sent. -/
def hopDelay (t1 t2 t3 t4 : Nat) (asym : Int) : Int :=
  (((tUnits t4 : Int) - (tUnits t1 : Int)) - ((tUnits t3 : Int) - (tUnits t2 : Int))) / 2 + asym * 65536 / 1000

/-- The mean of the last 16 probes, with a probe more than 2 ns from it discarded and counted (R148). -/
def probeReply (q t2 t3 t4 : Nat) (s : State) : State :=
  match tabFind q s.time.probeT1 with
  | none => s
  | some t1 =>
    let s := { s with time := { s.time with probeT1 := tabErase q s.time.probeT1 } }
    let d := hopDelay t1 t2 t3 t4 (getInt s Oid.timeBhAsymmetry q)
    let old := tabGet [] q s.time.probes
    if !old.isEmpty && decide (2 * 65536 < (d - meanInt old).natAbs) then
      { s with time := { s.time with probeDrop := s.time.probeDrop + 1 } }
    else
      let l := (d :: old).take 16
      putObj Oid.timeBhHopDelay q (offsetQ32 (meanInt l)) { s with time := { s.time with probes := tabPut [] q l s.time.probes } }

/-- The cascade quads run (Table 2.2). -/
def cascadeRuns (s : State) : Bool := s.modes.current != .cold && s.modes.current != .boot

/-- The paths an address was announced on in this second and the one before. -/
def pathsOf (s : State) (a : Nat) : List Nat :=
  let p := tabGet [] a s.time.announced
  p ++ (tabGet [] a s.time.announcedBefore).filter (fun k => decide (k ∉ p))

/-- Addresses announced in this second or the one before. -/
def announcedAddrs (s : State) : List Nat :=
  let l := s.time.announced.map (fun p => p.1)
  l ++ (s.time.announcedBefore.map (fun p => p.1)).filter (fun a => decide (a ∉ l))

/-- Addresses announced on more than one path (R153): the conflict stands until a second has passed without it. -/
def duplicates (s : State) : List Nat := (announcedAddrs s).filter (fun a => decide (1 < (pathsOf s a).length))

/-- An address arrives on a path (quads by number, 16 for the member itself); the root counts members and detects duplicates (R153). -/
def announceOn (path addr : Nat) (s : State) : State :=
  let had := (pathsOf s addr).length
  let was := tabGet [] addr s.time.announced
  let s := { s with time := { s.time with announced := tabPut [] addr (if path ∈ was then was else was ++ [path]) s.time.announced } }
  let s := if path < 16 then { s with dict := { s.dict with routes := tabInsert addr path s.dict.routes } } else s
  if getObj s Oid.timeBhUpstream < 16 then s
  else
    let s := putObj Oid.timeBhMembers 0 (announcedAddrs s).length s
    if had ≤ 1 && decide (1 < (pathsOf s addr).length) then fire 0x04B (setSticky Oid.timeStatus 0 0x20 s) else s

/-- The member's announcements begin a new second (R153). -/
def announceRoll (s : State) : State :=
  { s with time := { s.time with announcedBefore := s.time.announced, announced := [] } }

/-! ### Snapshots (R156 to R158, R512, R513) -/

/-- One block of the shadow catalogue: base, number of indices, objects in order (Table 17.3). -/
structure ShadowBlock where
  base : Nat
  n    : Nat
  ids  : List Nat
deriving DecidableEq, Repr

/-- Table 17.3, but for the lane block, whose objects lie in the quads' groups. -/
def shadowBlocks : List ShadowBlock := [
  ⟨0x1000, 1, [Oid.timeStepCount, Oid.timePtpExceptions, Oid.timePpsInExtra, Oid.eventsFireRefused, Oid.eventsLateTriggers,
    Oid.dictMbOverruns, Oid.dictAuthFailures, Oid.dictReplays, Oid.dictLinobMalformed, Oid.casksRefused, Oid.casksInvalidated,
    Oid.rackingAlfInBytes, Oid.rackingOutBytes, Oid.rackingTlbHits, Oid.rackingTlbMisses, Oid.rackingWalkReads,
    Oid.rackingNoticesDropped, Oid.rackingExcWritten, Oid.rackingExcDropped, Oid.hydroOverloads, Oid.hydroGoldenLate,
    Oid.hydroGoldenErrors, Oid.hostlinkCplTimeouts, Oid.hostlinkLateCompletions, Oid.hostlinkDiscardedCompletions,
    Oid.hostlinkPoisonedCompletions, Oid.hostlinkFlrCount, Oid.hostlinkLinkDowns, Oid.hostlinkBar2Refused,
    Oid.hostlinkBar0Partial, Oid.faultsLogTotal, Oid.powerSagCount, Oid.powerStepsHalf, Oid.powerThermalWarnings]⟩,
  ⟨0x1200, 8, [Oid.lauterLostByCause]⟩,
  ⟨0x1300, 3, [Oid.cellarBoiloverCount]⟩,
  ⟨0x2000, 640, [Oid.eventsSrcCount]⟩,
  ⟨0x4000, 256, [Oid.eventsChCount, Oid.eventsChCoincidence, Oid.eventsChOverflow, Oid.eventsChDisabledDrops]⟩,
  ⟨0x8000, 2048, [Oid.eventsVecSent]⟩,
  ⟨0x10000, 64, [Oid.portRxFrames, Oid.portRxFrames + 0x10, Oid.portRxFrames + 0x20, Oid.portRxFrames + 0x30,
    Oid.portRxFrames + 0x40, Oid.portRxFrames + 0x50, Oid.portRxFrames + 0x60, Oid.portRxFrames + 0x70,
    Oid.portRxFrames + 0x80, Oid.portRxFrames + 0x90, Oid.portRxFrames + 0xA0, Oid.portRxFrames + 0xB0,
    Oid.portRxFrames + 0xC0, Oid.portRxFrames + 0xD0, Oid.portRxFrames + 0xE0, Oid.portFaults]⟩,
  ⟨0x12000, 16, [Oid.portBhFrames, Oid.portBhDiscards]⟩,
  ⟨0x14000, 128, [Oid.cellarForcedRefreshes, Oid.cellarCeCount, Oid.cellarUeCount, Oid.cellarSevCount + 1, Oid.cellarSevCount + 2,
    Oid.cellarSevCount + 3, Oid.cellarRepairs, Oid.cellarFaults, Oid.cellarTestErrors]⟩,
  ⟨0x20000, 4096, [Oid.flowRxPackets, Oid.lauterFramesCommitted, Oid.lauterFramesLost, Oid.rackingFlowDelivered,
    Oid.rackingFlowInBytes, Oid.rackingFlowOutBytes]⟩,
  ⟨0x60000, 1024, [Oid.tapFramesSent, Oid.tapLatePackets, Oid.tapUnderruns, Oid.tapFramesSkipped, Oid.tapPausedDrops,
    Oid.tapDownDrops]⟩,
  ⟨0x70000, 64, [Oid.hydroFramesJudged, Oid.hydroFramesFailed, Oid.hydroFramesNotJudged, Oid.hydroTimingFailures,
    Oid.hydroFramesPartial]⟩,
  ⟨0x71000, 8, [Oid.posCrossings, Oid.posReversals, Oid.posRefCount, Oid.posFaults]⟩,
  ⟨0x71100, 32, [Oid.posCmpFires, Oid.posCmpCatchup]⟩,
  ⟨0x72000, 16, [Oid.lampFlashes, Oid.lampRefused, Oid.lampWritebacks, Oid.lampExchanges, Oid.lampFaults]⟩,
  ⟨0x72280, 4, [Oid.lampIntlkChanges]⟩]

/-- The lane block of Table 17.3: first the lane objects of the quad groups, then the underback objects. -/
def shadowLaneIds : List Nat := [Oid.laneFaults, Oid.laneRelocks, Oid.laneLinkUps, Oid.laneInvalidHeaders, Oid.laneLosCount,
  Oid.lanePrbsBits, Oid.lanePrbsErrors, Oid.lanePrbsInjected]
def shadowUnderIds : List Nat := [Oid.underbackPackets, Oid.underbackRewound, Oid.underbackCutPackets, Oid.underbackWordsDropped,
  Oid.underbackGapMarkers, Oid.underbackFlushedPackets, Oid.underbackEccCorrected, Oid.underbackEccUncorrected,
  Oid.underbackUnderruns, Oid.underbackHighCrossings, Oid.underbackParityErrors]

/-- Position of an ID in a list. -/
def posIn (id : Nat) : List Nat → Nat → Option Nat
  | [], _ => none
  | x :: t, n => if x = id then some n else posIn id t (n + 1)

/-- The window offset of a counter in one block (R513). -/
def blockOffset (id idx : Nat) (b : ShadowBlock) : Option Nat :=
  match posIn id b.ids 0 with
  | some j => if idx < b.n then some (b.base + 8 * (j * b.n + idx)) else none
  | none => none

/-- The window offset of a counter, if Table 17.3 lists it. -/
def shadowOffset (id idx : Nat) : Option Nat :=
  let g := id / 65536
  if isQuadGroup g then
    (posIn (id - (g - 0x10) * 65536) shadowLaneIds 0).map (fun j => 0xC000 + 8 * (j * 64 + 4 * (g - 0x10) + idx))
  else match posIn id shadowUnderIds 0 with
    | some j => some (0xC000 + 8 * ((8 + j) * 64 + idx))
    | none => shadowBlocks.findSome? (blockOffset id idx)

/-- Every counter of the catalogue, by window offset; counters at 0 are not listed. -/
def shadowCopy : List (Nat × Nat) → List (Nat × Nat)
  | [] => []
  | (k, v) :: t => match shadowOffset (k / 65536) (k % 65536) with
    | some o => tabInsert o v (shadowCopy t)
    | none => shadowCopy t

/-- The generation after g: 1 to 0xFFFF_FFFE, then 1 again (R157). -/
def nextGen (g : Nat) : Nat := if g ≥ 0xFFFFFFFE then 1 else g + 1

/-- The next time of a periodic snapshot, under the catch-up rule (R157). -/
def nextSnap (t period now : Nat) : Nat := tAddNs t (periodsOn t (period * 1000) now * (period * 1000))

/-- Take a counter snapshot (R156 to R158). -/
def takeSnapshot (late : Bool) (s : State) : State :=
  let unlocked := !isOn s Oid.timeLocked
  let armed := match s.time.snapArmed with
    | some t => if t ≤ now s then
        (if getObj s Oid.countersSnapshotPeriod = 0 then none
         else some (nextSnap t (getObj s Oid.countersSnapshotPeriod) (now s)))
      else some t
    | none => none
  let s := { s with time := { s.time with
      shadow := shadowCopy s.objs, snapUnlocked := unlocked, snapArmed := armed, snapLate := false, snapDue := false } }
  let s := putObj Oid.countersSnapshotGen 0 (nextGen (getObj s Oid.countersSnapshotGen)) s
  let s := putObj Oid.countersSnapshotTime 0 (now s) s
  let s := setSticky Oid.countersSnapshotStatus 0 ((if late then 1 else 0) + (if unlocked then 2 else 0)) s
  fire 0x045 s

/-- The snapshot due at this tick, if any (R156, R157). -/
def evalSnapshot (s : State) : State :=
  let due := match s.time.snapArmed with | some t => decide (t ≤ now s) && decide (s.time.snapTick < s.time.ticks) | none => false
  if due then takeSnapshot s.time.snapLate s
  else if s.time.snapDue then takeSnapshot false s else s

/-- Arm a snapshot; an armed one whose time is this tick stands first (R157, R158). -/
def armSnapshot (t : Nat) (s : State) : State :=
  let s := match s.time.snapArmed with | some u => if u ≤ now s then evalSnapshot s else s | none => s
  putObj Oid.countersSnapshotAt 0 t
    { s with time := { s.time with snapArmed := some t, snapLate := decide (t < now s), snapTick := s.time.ticks } }

/-! ### Rows -/

/-- A kiln-event time at a position in the tick, in 2^-16 of the tick (R138, Table 4.2): tick time plus position × increment, truncated to 1 ns; without the core domain, the tick time of the first tick at or after it. -/
def kilnEventTime (s : State) (pos : Half) : Nat :=
  if coreRuns s then
    let n := (timeUnits32 s + pos.toNat * s.time.inc / 2 ^ 16).toNat / 2 ^ 32
    packTime (n / billion) (n % billion) 0
  else if pos = 0 then now s else nextTickTime s

/-- TK_LATCH (R133): a read copies its time into the other three words. -/
def execTkLatch (pos : Half) (s : State) : Host.Outcome State Fault Refusal :=
  let t := kilnEventTime s pos
  if !bar0Served s then .next (barRefused true s)
  else .next { barAccess s with time := { s.time with
    latchNs := tNs t
    latchSecLo := tSec t % 2 ^ 32
    latchSecHi := tFrac t * 65536 + bits (tSec t) 47 32
    latchShort := (tSec t * billion + tNs t) % 2 ^ 32 } }

/-- TIME_COMPARE (R154). -/
def execTimeCompare (u : Fin 64) (s : State) : Host.Outcome State Fault Refusal := .next (evalCompare u.val s)

/-- SNAPSHOT (R156). -/
def execSnapshot (s : State) : Host.Outcome State Fault Refusal := .next (evalSnapshot s)

/-- HOLDOVER_LIMIT (R141). -/
def execHoldoverLimit (s : State) : Host.Outcome State Fault Refusal :=
  .next (loseLock { s with time := { s.time with goodRun := 0 } })

/-- PPS_OUT_PULSE (R145). -/
def execPpsOutPulse (s : State) : Host.Outcome State Fault Refusal :=
  .next (ppsFlush s)

/-- PPS_OUT_PULSE_END (R145). -/
def execPpsOutPulseEnd (s : State) : Host.Outcome State Fault Refusal :=
  if s.time.ppsActive then
    let s := { s with time := { s.time with ppsActive := false } }
    .next (if ppsLive s.modes.current then emit (.pps s.time.ppsEnds (getObj s Oid.timePpsOutPolarity = 1)) s else s)
  else .next s

/-- PPS_IN_EDGE (R146): every edge of the kind selected is stored and raises source 0x040; one within 0.9 s of the edge before is counted and the servo ignores it. -/
def execPpsInEdge (rising : Bool) (t : Time96) (s : State) : Host.Outcome State Fault Refusal :=
  let k := getObj s Oid.timePpsInEdge
  if s.modes.current = .cold || !((k = 1 && rising) || (k = 2 && !rising)) then .next s
  else
    let ts := kilnStamp s (Time96pack t)
    let last := getObj s Oid.timePpsInLast
    let s := fireStamped 0x040 ts (putObj Oid.timePpsInLast 0 ts s)
    if last != 0 && decide (tUnits ts < tUnits last + 900000000 * 65536) && decide (tUnits last ≤ tUnits ts) then
      .next (bump Oid.timePpsInExtra 0 s)
    else
      let ns := (tNs ts : Int)
      let d := (if 2 * ns < billion then ns else ns - billion) * 65536 + tFrac ts
      .next (if getObj s Oid.timeSource = 2 && s.modes.current != .dormant && s.modes.current != .boot && s.modes.current != .halt
        then servoUpdate d s else s)

/-- PPS_IN_MISSING (R146). -/
def execPpsInMissing (s : State) : Host.Outcome State Fault Refusal :=
  if getObj s Oid.timePpsInEdge = 0 || s.modes.current = .cold then .next s
  else .next (fire 0x048 (setSticky Oid.timeStatus 0 8 s))

/-- A cascade quad brings a frame with hops to go (Table 7.6): one that arrives with 0 is discarded. -/
def bhTakes (s : State) (q hops : Nat) : Bool := cascadeRuns s && decide (q ∈ cascadeQuads s) && hops != 0

/-- A beacon to the child on quad q, departing at an instant of the present tick that is free, at 0.25 ns (R138, R147, R250). -/
def beaconTo (post : List Byte) (q : Nat) (s : State) : State :=
  let t := laneNow s
  originateBh q 1 1 0 [] true post t.1 t.2

/-- BEACON_SEND (R147, R250): a beacon on every downstream link, with the time it leaves. -/
def execBeaconSend (s : State) : Host.Outcome State Fault Refusal :=
  if !cascadeRuns s then .next s
  else
    let up := getObj s Oid.timeBhUpstream
    let root := if up = 0xFFFF then getObj s Oid.timeBhAddress else s.time.rootAddr
    let post := beBytes 1 (ownLevel s) ++ beBytes 1 (getObj s Oid.timeLocked) ++ beBytes 2 root
    .next (((openLinks s).filter (fun q => q ≠ up)).foldl
      (fun s q => beaconTo post q s) s)

/-- PROBE_SEND (R147): the child sends a probe upstream. -/
def execProbeSend (departure : Time96) (s : State) : Host.Outcome State Fault Refusal :=
  let up := getObj s Oid.timeBhUpstream
  if up < 16 && cascadeRuns s then
    .next (sendCascade up 2 2 0 []
      { s with time := { s.time with probeT1 := tabInsert up (laneStamp (Time96pack departure)) s.time.probeT1 } })
  else .next s

/-- PROBE (R250): a probe is answered with its arrival time and the time the answer leaves. -/
def execProbe (link : BhFrom) (arrival departure : Time96) (s : State) : Host.Outcome State Fault Refusal :=
  if bhTakes s link.quad.val link.hops.toNat then
    .next (originateBh link.quad.val 1 3 0 (timeBytes false (laneStamp (Time96pack arrival))) true [] (laneStamp (Time96pack departure))
      (bump Oid.portBhFrames link.quad.val s))
  else .next s

/-- PROBE_REPLY (R148). -/
def execProbeReply (link : BhFrom) (t2 t3 t4 : Time96) (s : State) : Host.Outcome State Fault Refusal :=
  if bhTakes s link.quad.val link.hops.toNat then
    .next (probeReply link.quad.val (Time96pack t2) (Time96pack t3) (laneStamp (Time96pack t4)) (bump Oid.portBhFrames link.quad.val s))
  else .next s

/-- The payload of an address announce frame (Table 7.7). -/
def announcePayload (addrs : List Nat) : List Byte := beBytes 2 addrs.length ++ addrs.flatMap (beBytes 2)

/-- The link towards the root is open (R153); the root has none. -/
def upLink (s : State) : Option Nat :=
  if getObj s Oid.timeBhUpstream ∈ openLinks s then some (getObj s Oid.timeBhUpstream) else none

/-- Send this member's address towards the root (R153). -/
def announceUp (addr : Nat) (s : State) : State :=
  match upLink s with
  | some q => sendCascade q 4 5 0 (announcePayload [addr]) s
  | none => s

/-- Pass a received announcement on towards the root, one hop less (R153, Table 7.6). -/
def announceForward (src seq hops : Nat) (addrs : List Nat) (s : State) : State :=
  match upLink s with
  | some q => queueBh q (now s) { rank := 4, typ := 5, flags := 0, dest := 0, src := src, hops := hops - 1, seq := seq,
                                  pre := announcePayload addrs, stamped := false, post := [] } s
  | none => s

/-- ADDRESS_ANNOUNCE (R153): the member's own announcement starts a new second of the table; a received one is taken and passed up. -/
def execAddressAnnounce (m : Announce) (s : State) : Host.Outcome State Fault Refusal :=
  match m with
  | .own =>
    if !cascadeRuns s then .next s
    else .next (announceUp (getObj s Oid.timeBhAddress) (announceOn 16 (getObj s Oid.timeBhAddress) (announceRoll s)))
  | .received q src seq hops addrs =>
    if bhTakes s q.val hops.toNat && decide (q.val ∈ openLinks s) then
      let as := addrs.map BitVec.toNat
      .next (announceForward src.toNat seq.toNat hops.toNat as
        (as.foldl (fun s a => announceOn q.val a s) (bump Oid.portBhFrames q.val s)))
    else .next s

end Sys2Proof.Machine
end

