-- ==== Sys2Proof/Machine/Queues.lean ====
section
/-! DEFINITION. Writes to host memory and the completion queues of the racking engine (R365 to R368, R486): what every block that ends a frame's life needs. -/

namespace Sys2Proof.Machine

open Sys2Proof

/-! ### Writes to host memory (R486) -/

/-- Bytes of the next write at an address: up to the 4 KiB boundary and Max Payload Size. -/
def chunkLen (mps a n : Nat) : Nat := min n (min (max mps 1) (4096 - a % 4096))

/-- Split a write at 4 KiB boundaries and at Max Payload Size (R486); at most `fuel` pieces. -/
def splitWrite (mps : Nat) : Nat → Nat → List Byte → List Emission
  | 0, _, _ => []
  | fuel + 1, a, bs =>
    if bs.isEmpty then []
    else
      let k := chunkLen mps a bs.length
      .memWrite a (bs.take k) :: splitWrite mps fuel (a + k) (bs.drop k)

/-- Write bytes to host memory. -/
def hostWrite (a : Nat) (bs : List Byte) (s : State) : State := emitAll (splitWrite s.link.maxPayload (bs.length + 1) a bs) s

/-- The modes in which the device may issue memory requests (Table 16.10), while the host lets it (R499). -/
def hostWritable (s : State) : Bool :=
  !busStopped s && (s.modes.current = .ready || isRun s.modes.current || s.modes.current = .diagnostic || s.modes.current = .limp)

/-! ### Completion queues -/

/-- Modulus of every count shared with the driver (R356). -/
abbrev countMod : Nat := 2 ^ 31

/-- The difference of two such counts. -/
def countDiff (a b : Nat) : Nat := (a + countMod - b % countMod) % countMod

/-- Completion queue c. -/
def cqOf (s : State) (c : Nat) : CqX := tabGet {} c s.rk.cqs

/-- Replace completion queue c. -/
def putCq (c : Nat) (q : CqX) (s : State) : State := { s with rk := { s.rk with cqs := tabPut {} c q s.rk.cqs } }

/-- Entries neither written and unread nor reserved (R366). -/
def cqFree (q : CqX) : Nat := q.entries - countDiff q.tail q.head - q.reserved

/-- Delivery ring r. -/
def ringOf (s : State) (r : Nat) : RingX := tabGet {} r s.rk.rings

/-- Replace delivery ring r. -/
def putRing (r : Nat) (x : RingX) (s : State) : State := { s with rk := { s.rk with rings := tabPut {} r x s.rk.rings } }

/-- The fields of a completion entry (Table 11.4) but the phase. -/
structure Entry where
  type  : Nat
  flow  : Nat
  cask  : Nat
  flags : Nat
  ring  : Nat
  slot  : Nat
  seq   : Nat
  bytes : Nat
  records : Nat
  image : Nat
  status : Nat
deriving DecidableEq, Repr

/-- The eight words of an entry (Table 11.4). -/
def entryWords (e : Entry) (phase : Nat) : List Nat :=
  [e.type * 2 ^ 28 + e.flow * 65536 + e.cask, e.flags * 65536 + e.ring, e.slot, e.seq, e.bytes % 2 ^ 32, e.records,
   e.image % 2 ^ 32, phase * 2 ^ 31 + e.status]

/-- Write an entry at the tail of queue c (R365, R367) and fire its source (R185). -/
def writeEntry (c : Nat) (e : Entry) (s : State) : State :=
  let q := cqOf s c
  let phase := if q.tail / q.entries % 2 = 0 then 1 else 0
  let a := q.base + 32 * (q.tail % q.entries)
  let s := emit (.memWrite a (wordBytes (entryWords e phase))) s
  let s := putCq c { q with tail := (q.tail + 1) % countMod } s
  fire (0x180 + c) s

/-- A lost notice for a frame of a flow (R368): type 2, to the queue of the ring, or dropped and counted. -/
def lostNotice (ring flow cask seq image cause : Nat) (s : State) : State :=
  if getObj s Oid.rackingRingLostNotices ring ≠ 1 then s
  else
    let x := ringOf s ring
    let q := cqOf s x.cfg.cq
    if x.enabled && q.enabled && !q.faulted && decide (0 < cqFree q) && hostWritable s && !s.rk.stopped then
      writeEntry x.cfg.cq
        { type := 2, flow := flow, cask := cask, flags := 0, ring := ring, slot := 0xFFFFFFFF, seq := seq
          bytes := 0, records := 0, image := image, status := cause } s
    else bump Oid.rackingNoticesDropped 0 s

end Sys2Proof.Machine
end

