-- ==== Sys2Proof/Machine/Casks.lean ====
section
/-! DEFINITION. The cask allocator (09_lauter_casks, R306 to R314) over the page map of the cellar (10_cellar, R321 to R325): reservation, pages, release, levels and watermarks, and the accounting of lost frames (R296). -/

namespace Sys2Proof.Machine

open Sys2Proof

/-! ### Pages, slots and PCs (R321 to R323) -/

/-- The partition of a page number: 0 capture, 1 reference, 2 control, 3 spare or beyond. -/
def pagePartition (p : Nat) : Nat := if p < 0x168000 then 0 else if p < 0x1F8000 then 1 else if p < 0x21C000 then 2 else 3

/-- Base page and slots of a partition (Table 10.1). -/
def partBase : Nat → Nat
  | 0 => 0 | 1 => 0x168000 | 2 => 0x1F8000 | _ => 0x21C000
def partSlots : Nat → Nat
  | 0 => 80 | 1 => 32 | _ => 8

/-- The slot a page lies in (R323). -/
def pageSlot (p : Nat) : Nat := (p - partBase (pagePartition p)) % partSlots (pagePartition p)

/-- First address beyond the HBM pages that hold data. -/
abbrev hbmTop : Nat := 0x21C0000000

/-- The first address of the staging SRAM, and of the Limp cask pool in it (R318, Table 1.7). -/
abbrev sramBase : Nat := 0x10000000000
abbrev limpBase : Nat := 0x10000100000

/-- The physical PC that serves a slot, if one does. -/
def servingPc (s : State) (part slot : Nat) : Option Nat :=
  (List.range 128).find? (fun p => getObj s Oid.cellarPcPartition p = part && getObj s Oid.cellarPcSlot p = slot)

/-- No PC serves the slot of an HBM address (R340). -/
def slotDead (s : State) (a : Nat) : Bool :=
  decide (a < hbmTop) && (servingPc s (pagePartition (a / 65536)) (pageSlot (a / 65536))).isNone

/-- A read of the 32-byte unit of an address is returned poisoned (R338, R340). -/
def unitPoisoned (s : State) (a : Nat) : Bool := decide (a / 32 * 32 ∈ s.cel.poisoned) || slotDead s a

/-- A write performed in HBM or staging SRAM: discarded where no PC serves it; a unit written whole is poisoned no longer (R327, R340). -/
def writePerformed (a : Nat) (bs : List Byte) (s : State) : State :=
  if slotDead s a then s
  else writeMem a bs { s with cel := { s.cel with poisoned := s.cel.poisoned.filter (fun u => u < a || a + bs.length < u + 32) } }

/-! ### Casks -/

/-- The cask of an ID, if it is not free. -/
def caskOf (s : State) (id : Nat) : Option Cask := tabGet none id s.lau.casks

/-- Replace or free a cask. -/
def putCask (id : Nat) (c : Option Cask) (s : State) : State := { s with lau := { s.lau with casks := tabPut none id c s.lau.casks } }

/-- The casks that are not free, with their IDs. -/
def liveCasks (s : State) : List (Nat × Cask) := s.lau.casks.filterMap (fun p => p.2.map (fun c => (p.1, c)))

/-- Pages of the pool (Table 9.11, R318). -/
def poolPages (s : State) : Nat := if s.lau.limpPool then 1008 else 1474560

/-- Reserved plus held pages: what a reservation is checked against (R307). -/
def globalLevel (s : State) : Nat := ((liveCasks s).map (fun p => p.2.reserved)).sum

/-- Casks as the objects and the events of R309 show them: a release shows from the kiln tick after (R312). -/
def shownCasks (s : State) : List (Nat × Cask) := s.lau.released ++ liveCasks s

/-- The cask that `casks.cask_state` and its fellows show under an ID. -/
def shownCask (s : State) (id : Nat) : Option Cask := (caskOf s id).orElse (fun _ => tabFind id s.lau.released)

/-- `casks.pages_held`, and the global level that is shown. -/
def pagesHeld (s : State) : Nat := ((shownCasks s).map (fun p => p.2.pages.length)).sum
def shownLevel (s : State) : Nat := ((shownCasks s).map (fun p => p.2.reserved)).sum

/-- `casks.flow_level` (R309). -/
def shownFlowLevel (s : State) (f : Nat) : Nat := (((shownCasks s).filter (fun p => p.2.flow = f)).map (fun p => p.2.reserved)).sum

/-- Reserved plus held pages of a flow (R307). -/
def flowLevel (s : State) (f : Nat) : Nat := (((liveCasks s).filter (fun p => p.2.flow = f)).map (fun p => p.2.reserved)).sum

/-- Casks whose frames deliver to ring r and count in its level (R374). -/
def onRing (r : Nat) (c : Cask) : Bool :=
  (c.state = 3 || c.state = 5) && (match c.cfg with | some k => k.ring = r | none => false)

/-- `racking.ring_level` (R374). -/
def ringLevel (s : State) (r : Nat) : Nat := (((liveCasks s).filter (fun p => onRing r p.2)).map (fun p => p.2.pages.length)).sum

/-- `racking.backlog_pages` (R374). -/
def backlogPages (s : State) : Nat :=
  (((liveCasks s).filter (fun p => p.2.state = 3 || p.2.state = 5)).map (fun p => p.2.pages.length)).sum

/-- Per-flow engine state. -/
def flowOf (s : State) (f : Nat) : FlowX := tabGet {} f s.lau.flows
def putFlow (f : Nat) (x : FlowX) (s : State) : State := { s with lau := { s.lau with flows := tabPut {} f x s.lau.flows } }

/-! ### Levels (R309, R310, R374) -/

/-- The global watermark and the global pause state. -/
def updateGlobal (s : State) : State :=
  let l := shownLevel s
  let hi := getObj s Oid.casksGlobalHigh
  let lo := getObj s Oid.casksGlobalLow
  let s := { s with lau := { s.lau with pauseAll := if hi < l then true else if l ≤ lo then false else s.lau.pauseAll } }
  if !s.lau.above && decide (hi ≤ l) then fire 0x177 (setSticky Oid.casksStatus 0 1 { s with lau := { s.lau with above := true } })
  else if s.lau.above && decide (l ≤ lo) then { s with lau := { s.lau with above := false } }
  else s

/-- The watermark of one flow and its pause state. -/
def updateFlowLevel (f : Nat) (s : State) : State :=
  let l := shownFlowLevel s f * 100
  let hi := getObj s Oid.casksFlowHigh f * getObj s Oid.casksFlowQuota f
  let lo := getObj s Oid.casksFlowLow f * getObj s Oid.casksFlowQuota f
  let x := flowOf s f
  let x := { x with pausing := if hi < l then true else if l ≤ lo then false else x.pausing }
  if !x.above && decide (hi ≤ l) then fire 0x176 (setSticky Oid.casksStatus 0 2 (putFlow f { x with above := true } s))
  else if x.above && decide (l ≤ lo) then putFlow f { x with above := false } s
  else putFlow f x s

/-- The watermark of one ring (R374). -/
def updateRing (r : Nat) (s : State) : State :=
  let l := ringLevel s r
  let x := ringOf s r
  if !x.above && decide (getObj s Oid.rackingRingHigh r ≤ l) then
    fire 0x17A (setSticky Oid.rackingStatus 0 1 (putRing r { x with above := true } s))
  else if x.above && decide (l ≤ getObj s Oid.rackingRingLow r) then putRing r { x with above := false } s
  else s

/-- Every level a cask of flow f and ring r counts in. -/
def updateLevels (f r : Nat) (s : State) : State := updateRing r (updateFlowLevel f (updateGlobal s))

/-- The releases of the tick before show (R312). -/
def showReleases (s : State) : State :=
  let rs := s.lau.released
  if rs.isEmpty then s
  else ((rs.map (fun p => p.2.flow)).eraseDups).foldl (fun s f => updateFlowLevel f s)
    (updateGlobal { s with lau := { s.lau with released := [] } })

/-! ### Stamp queues (R298, R299) -/

/-- The difference of two 32-bit counts. -/
def diff32 (a b : Nat) : Int := toSigned 32 ((b + 2 ^ 32 - a % 2 ^ 32) % 2 ^ 32)

/-- The flow trigger that names receive flow f (R298). -/
def rxTrigger (s : State) (f : Nat) : Option Nat :=
  (List.range 32).find? (fun k => getObj s Oid.eventsFlowTriggerSel k / 2 ^ 30 = 1 && getObj s Oid.eventsFlowTriggerSel k % 4096 = f)

/-- Lines of a flow's delivery unit, 1 for area scan: stamps per frame. -/
def stampsPerFrame (s : State) (f : Nat) : Nat :=
  if getObj s Oid.flowRxType f = 2 && getObj s Oid.lauterScan f = 1 then max 1 (getObj s Oid.lauterUnitBlocks f * getObj s Oid.lauterBlockLines f) else 1

/-- The frame or line a stamp belongs to still lies ahead, or is held by an open or closing frame (R299). -/
def stampLive (s : State) (f : Nat) (q : StampQueue) (per : Nat) (e : StampEntry) : Bool :=
  let seq := (q.base + e.n / per) % 2 ^ 32
  decide (0 ≤ diff32 (getObj s Oid.lauterFrameSeq f) seq) || s.lau.frames.any (fun fr => fr.flow = f && fr.seq = seq)

/-- Discard and count the stamps of frames that are lost or have committed (R299). -/
def purgeStamps (f : Nat) (s : State) : State :=
  match rxTrigger s f with
  | none => s
  | some k =>
    let q := tabGet ({} : StampQueue) k s.lau.stamps
    let keep := q.queue.filter (stampLive s f q (stampsPerFrame s f))
    addObj Oid.lauterStampsDiscarded f (q.queue.length - keep.length)
      { s with lau := { s.lau with stamps := tabPut {} k { q with queue := keep } s.lau.stamps } }

/-! ### Lost frames (R296) -/

/-- Bytes of the image of a frame (Table 11.4 word 6). -/
def imageBytes (c : FrameCfg) : Nat := c.lines * c.lineBytes

/-- A frame is counted lost (R296), with its lost notice (R368); its stamps go (R299). -/
def countLost (f ring seq cask image cause : Nat) (s : State) : State :=
  let s := bump Oid.lauterLostByCause cause (bump Oid.lauterFramesLost f s)
  purgeStamps f (lostNotice ring f cask seq image cause (fire 0x178 s))

/-- A region without the placements of a cask; a packet that had no other to issue frees its space (R290). -/
def dropWaiting (id : Nat) (r : Region) : Region :=
  let w := r.waiting.filter (fun p => p.cask ≠ id)
  { r with waiting := w, owed := r.owed.filter (fun o => w.any (fun p => p.pkt = o.1)) }

/-- Release a cask (R312): pages and ID return, placements still to be issued go, those in flight are discarded as they complete; the levels show it from the next kiln tick. -/
def releaseCask (id : Nat) (s : State) : State :=
  match caskOf s id with
  | none => s
  | some c =>
    let ring := match c.cfg with | some k => k.ring | none => 0
    let s := { s with lau := { s.lau with
      flight := s.lau.flight.map (fun p => if p.cask = id then { p with live := false } else p)
      regions := s.lau.regions.map (fun r => (r.1, dropWaiting id r.2))
      released := s.lau.released ++ [(id, c)]
      frames := s.lau.frames.filter (fun f => f.cask ≠ some id) } }
    updateRing ring (putCask id none s)

/-- Release a cask whose frame is counted lost at a cause of R296. -/
def loseCask (id cause : Nat) (s : State) : State :=
  match caskOf s id with
  | none => s
  | some c =>
    let s := releaseCask id s
    match c.cfg with
    | some k => countLost c.flow k.ring c.seq id (imageBytes k) cause s
    | none => s

/-- Release every cask of a list, lost at one cause. -/
def loseCasks (cause : Nat) : List Nat → State → State
  | [], s => s
  | id :: t, s => loseCasks cause t (loseCask id cause s)

/-- Release every cask (R312). -/
def loseAllCasks (cause : Nat) (s : State) : State := loseCasks cause ((liveCasks s).map (fun p => p.1)) s

/-! ### Reservation and pages (R307, R308) -/

/-- The k-th number, from 0, that a rising list does not hold. -/
def nthFree (k : Nat) : List Nat → Nat
  | [] => k
  | u :: t => if u ≤ k then nthFree (k + 1) t else k

/-- Physical pages in use, rising. -/
def usedPages (s : State) : List Nat := sortBy id ((liveCasks s).flatMap (fun p => p.2.pages.map (fun q => q.2)))

/-- The conditions of R307: 0 the flow's quota, 1 the pool or the IDs, none when the reservation succeeds. -/
def reserveFails (s : State) (f pages : Nat) : Option Nat :=
  if getObj s Oid.casksFlowQuota f < flowLevel s f + pages then some 0
  else if poolPages s < globalLevel s + pages || decide (65536 ≤ (liveCasks s).length) then some 1
  else none

/-- Reserve a cask (R307); which free ID it takes, the spec leaves open. -/
def reserveCask (f seq pages : Nat) (cfg : FrameCfg) (s : State) : Nat × State :=
  let used := s.lau.casks.map (fun p => p.1)
  let r := takeChoice (65536 - used.length) s
  let id := nthFree r.1 used
  let c : Cask := { state := 1, flow := f, seq := seq, reserved := pages, cfg := some cfg, inHbm := !s.lau.limpPool }
  (id, updateLevels f cfg.ring (putCask id (some c) r.2))

/-- The physical page of a page index, given one the first time it is touched (R308); which one, the spec leaves open. -/
def touchPage (id idx : Nat) (s : State) : Nat × State :=
  match caskOf s id with
  | none => (0, s)
  | some c =>
    match tabFind idx c.pages with
    | some p => (p, s)
    | none =>
      let used := usedPages s
      let r := takeChoice (poolPages s - used.length) s
      let p := nthFree r.1 used
      (p, putCask id (some { c with pages := tabInsert idx p c.pages }) r.2)

/-- The internal address of an offset in a physical page of a cask. -/
def pageAddr (c : Cask) (page off : Nat) : Nat := (if c.inHbm then 0 else limpBase) + page * 65536 + off % 65536

/-- The internal address of a cask offset, if its page is held. -/
def caskAddr (c : Cask) (off : Nat) : Option Nat := (tabFind (off / 65536) c.pages).map (fun p => pageAddr c p off)

/-- A byte of a cask: 0 in a page not held (R294) and in a poisoned unit (R362). -/
def caskByte (s : State) (c : Cask) (off : Nat) : Byte :=
  match caskAddr c off with
  | none => 0
  | some a => if unitPoisoned s a then 0 else readByte s a

/-- Bytes of a cask from an offset. -/
def readCask (s : State) (c : Cask) (off : Nat) : Nat → List Byte
  | 0 => []
  | n + 1 => caskByte s c off :: readCask s c (off + 1) n

/-- Whether a range of a cask holds a poisoned unit. -/
def caskPoisoned (s : State) (c : Cask) (off n : Nat) : Bool :=
  (List.range n).any (fun k => match caskAddr c (off + k) with | some a => unitPoisoned s a | none => false)

/-- Write bytes of the engine's own to a cask, its pages taken as they are touched (R305). -/
def writeCask (id off : Nat) : List Byte → State → State
  | [], s => s
  | b :: t, s =>
    let r := touchPage id (off / 65536) s
    match caskOf r.2 id with
    | none => s
    | some c => writeCask id (off + 1) t (writePerformed (pageAddr c r.1 off) [b] r.2)

/-- Set the state of a cask. -/
def setCaskState (id st : Nat) (s : State) : State :=
  match caskOf s id with
  | none => s
  | some c =>
    let ring := match c.cfg with | some k => k.ring | none => 0
    updateRing ring (putCask id (some { c with state := st }) s)

/-! ### Frames that close (R292, R293) -/

/-- Replace the frame of the same flow and number. -/
def putFrame (fr : Frame) (s : State) : State :=
  { s with lau := { s.lau with frames := s.lau.frames.map (fun g => if g.flow = fr.flow && g.seq = fr.seq then fr else g) } }

/-- The open frames of a flow, oldest first. -/
def openFrames (s : State) (f : Nat) : List Frame := s.lau.frames.filter (fun fr => fr.flow = f && fr.cause.isNone)

/-- A frame closes for a cause (R292, R293): it goes on to commit, or is discarded and counted lost. -/
def closeFrame (fr : Frame) (cause : Nat) (s : State) : State :=
  match fr.cask with
  | none => s
  | some id =>
    if fr.placed = 0 || (cause != 1 && fr.cfg.policy = 1) then loseCask id 2 s
    else setCaskState id 2 (putFrame { fr with cause := some cause } s)

/-- Close the frames of a list. -/
def closeAll (cause : Nat) : List Frame → State → State
  | [], s => s
  | fr :: t, s => closeAll cause t (closeFrame fr cause s)

/-- Every open frame of a flow closes for cause 5 (R292). -/
def stopFlow (f : Nat) (s : State) : State := closeAll 5 (openFrames s f) s

/-- Every open frame closes for cause 5: the mode stops receiving (R48). -/
def stopReceiving (s : State) : State := closeAll 5 (s.lau.frames.filter (fun fr => fr.cause.isNone)) s

/-- Every open frame of a port's flows closes for cause 5: the port or its lane is retired (Table 9.3). -/
def stopPort (p : Nat) (s : State) : State :=
  closeAll 5 (s.lau.frames.filter (fun fr => fr.cause.isNone && getObj s Oid.flowRxPort fr.flow = p)) s

/-- Casks in a state, oldest commit first. -/
def casksIn (st : Nat) (s : State) : List (Nat × Cask) :=
  sortBy (fun p => p.2.committed) ((liveCasks s).filter (fun p => p.2.state = st))

/-! ### Invalidation (R314) -/

/-- A cask that holds a page in a capture slot. -/
def touchesSlot (slot : Nat) (c : Cask) : Bool := c.inHbm && c.pages.any (fun p => pageSlot p.2 = slot)

/-- The casks of a capture slot are invalidated: lost at index 3, or finished poisoned when delivering. -/
def invalidateSlot (slot : Nat) (s : State) : State :=
  ((liveCasks s).filter (fun p => touchesSlot slot p.2)).foldl (fun s p =>
    let s := bump Oid.casksInvalidated 0 s
    if p.2.state = 5 then
      { s with rk := { s.rk with deliveries := s.rk.deliveries.map (fun d => if d.cask = p.1 then { d with poisoned := true } else d) }
               lau := { s.lau with casks := tabPut none p.1 (some { p.2 with poisoned := true }) s.lau.casks } }
    else loseCask p.1 3 s) s

/-! ### Rows -/

/-- CASK_RELEASE (R312): a cask that is not being delivered is released; its frame is lost at the cause given, unless the tap has replayed it. -/
def execCaskRelease (id : Half) (cause : Fin 7) (s : State) : Host.Outcome State Fault Refusal :=
  match caskOf s id.toNat with
  | some c => if c.state = 5 then .next s else if c.replay then .next (releaseCask id.toNat s) else .next (loseCask id.toNat cause.val s)
  | none => .next s

end Sys2Proof.Machine
end

