-- ==== Sys2Proof/Machine/HydroAlign.lean ====
section
/-! DEFINITION. What the hydrometer does at a frame opening (13_hydrometer): its settings are kept, its frame number aligned (R417, R418), and its geometry held against the set's (R416). -/

namespace Sys2Proof.Machine

open Sys2Proof

/-- The settings a frame keeps: objects of groups 50 (hydrometer) and 4C (pattern) at its opening (R24, R431). -/
def hydroSettings (s : State) : List (Nat × Nat) :=
  s.objs.filter (fun p => p.1 / 65536 / 65536 = 0x50 || p.1 / 65536 / 65536 = 0x4C)

/-- A setting of a kept list. -/
def cfgGet (cfg : List (Nat × Nat)) (id : Nat) (idx : Nat := 0) : Nat := tabGet (objDefault id idx) (objKey id idx) cfg

/-- A signed setting of a kept list. -/
def cfgInt (cfg : List (Nat × Nat)) (id : Nat) (idx : Nat := 0) : Int := toSigned (objBits id) (cfgGet cfg id idx)

/-- R541: the signed difference from block ID a to b. -/
def blockDiff (ext : Bool) (a b : Nat) : Int :=
  if ext then toSigned 64 ((b + 2 ^ 64 - a) % 2 ^ 64)
  else
    let d := ((b : Int) - a) % 65535
    if 32768 ≤ d then d - 65535 else d

/-- The stride of R287: line bytes rounded up to 32. -/
def strideOf (lineBytes : Nat) : Nat := (lineBytes + 31) / 32 * 32

/-- Pixels and bytes per group of a pixel format (Table 9.2). -/
def pgOf : Nat → Nat × Nat
  | 0x01 => (1, 1) | 0x02 => (1, 2) | 0x03 => (1, 2) | 0x04 => (1, 2)
  | 0x10 => (1, 1) | 0x11 => (1, 2) | 0x12 => (1, 2)
  | 0x20 => (1, 3) | 0x21 => (4, 15) | 0x30 => (2, 5) | 0x31 => (4, 15)
  | _ => (1, 1)

/-- line_bytes of R287. -/
def lineBytesOf (format width : Nat) : Nat := (width + (pgOf format).1 - 1) / (pgOf format).1 * (pgOf format).2

/-- The frame number by R417; also the flow's alignment state after it. -/
def alignFrame (s : State) (x : FlowX) (cfg : List (Nat × Nat)) (set key : Nat) (ext gvsp line : Bool) (seq unit : Nat) :
    Nat × Bool × Option Nat × FlowX :=
  let off := cfgGet cfg Oid.hydroFOffset set
  match cfgGet cfg Oid.hydroAlign set with
  | 0 => ((if line then seq * unit + off else seq + off) % 2 ^ 32, true, none, x)
  | 1 =>
    if gvsp then
      if x.alignFresh then
        let f := (key + (2 ^ 32 - 1) + off) % 2 ^ 32
        (f, true, none, { x with alignFresh := false, idLast := key, fLast := f })
      else
        let d := blockDiff ext x.idLast key
        let f := ofSigned 32 ((x.fLast : Int) + d)
        (f, true, none, if 0 ≤ d then { x with idLast := key, fLast := f } else x)
    else if x.alignFresh then (off, true, none, { x with alignFresh := false, rtpLast := key, fLast := off })
    else
      let d := diff32 x.rtpLast key
      let num := cfgGet cfg Oid.hydroRateNum set
      let den := max 1 (cfgGet cfg Oid.hydroRateDen set)
      let q : Int := ((d.natAbs * num + 45000 * den) / (90000 * den) : Nat)
      let f := ofSigned 32 (if d < 0 then (x.fLast : Int) - q else (x.fLast : Int) + q)
      (f, true, none, if 0 ≤ d then { x with rtpLast := key, fLast := f } else x)
  | _ =>
    match (tabGet [] (cfgGet cfg Oid.hydroPairTx set) s.tap.pairs).find? (fun e => e.key = key) with
    | some e => (e.f, true, some e.t, x)
    | none => (0, false, none, x)

/-- The hydrometer runs in Capture, Burst and Analyse (Table 13.5). -/
def hydroRuns (m : Mode) : Bool := m = .capture || m = .burst || m = .analyse

/-- A golden set's geometry differs from the frame's (R416). -/
def goldenMismatch (cfg : List (Nat × Nat)) (set : Nat) (k : FrameCfg) : Bool :=
  cfgGet cfg Oid.hydroRef set = 1 &&
    (cfgGet cfg Oid.hydroPixelFormat set != k.format || cfgGet cfg Oid.hydroWidth set != k.width ||
      cfgGet cfg Oid.hydroHeight set != (if k.line then k.blockLines else k.lines))

/-- The hydrometer's part of a frame opening on flow f (R414, R416 to R418). The f that a frame which is not aligned shows in its record, the spec leaves open (entry 152). -/
def hydroOpen (f key : Nat) (ext : Bool) (seq : Nat) (k : FrameCfg) (s : State) : Option HydroFrame × State :=
  let set := getObj s Oid.hydroFlowSet f
  if set = 0xFF || !hydroRuns s.modes.current then (none, s)
  else
    let cfg := hydroSettings s
    let r := alignFrame s (flowOf s f) cfg set key ext k.gvsp k.line seq k.unitBlocks
    let o := if r.2.1 then (r.1, s) else takeChoice (2 ^ 32) s
    let s := o.2
    (some { set := set, cfg := cfg, f := o.1, aligned := r.2.1, geom := goldenMismatch cfg set k, tk := r.2.2.1 },
      putFlow f r.2.2.2 s)

/-- Bytes of placements awaiting comparison, over every frame (R426). -/
def hydroStore (s : State) : Nat :=
  (s.lau.frames.map (fun fr => match fr.hydro with
    | some h => (h.queue.map (fun c => c.data.length)).sum + (h.reads.map (fun c => c.data.length)).sum
    | none => 0)).sum

/-- Put placed bytes into the table of image bytes. -/
def addGot (i : Nat) : List Byte → List (Nat × Byte) → List (Nat × Byte)
  | [], t => t
  | b :: bs, t => addGot (i + 1) bs (tabInsert i b t)

/-- The image index of the byte at an offset of a frame's cask. -/
def imageIndex (k : FrameCfg) (off : Nat) : Nat := off / k.stride * k.lineBytes + off % k.stride

/-- A placement reaches the hydrometer: kept for comparison, or the store is full and it enters the image uncompared (R422, R426). -/
def hydroCopy (full : Bool) (k : FrameCfg) (off : Nat) (data : List Byte) (h : HydroFrame) : HydroFrame :=
  if full then { h with overload := true, got := addGot (imageIndex k off) data h.got } else { h with queue := h.queue ++ [{ off := off, data := data }] }

/-- A change of what alignment rests on starts it again for every flow of the set (R417). -/
def restartAlign (set : Nat) (s : State) : State :=
  { s with lau := { s.lau with flows := s.lau.flows.map (fun p =>
      if getObj s Oid.hydroFlowSet p.1 = set then (p.1, { p.2 with alignFresh := true }) else p) } }

end Sys2Proof.Machine
end

