-- ==== Sys2Proof/Machine/Pattern.lean ====
section
/-! DEFINITION. The analytic pattern engine (12_tap, R405, R406) and the samples of a pixel group (R371, R419): what both the tap and the hydrometer evaluate. -/

namespace Sys2Proof.Machine

open Sys2Proof

/-! ### The cosine table of R405 -/

/-- Entries 0 to 63 of cos16. -/
def cosPart0 : List Nat := [
  65536, 65535, 65531, 65525, 65516, 65505, 65492, 65476,
  65457, 65436, 65413, 65387, 65358, 65328, 65294, 65259,
  65220, 65180, 65137, 65091, 65043, 64993, 64940, 64884,
  64827, 64766, 64704, 64639, 64571, 64501, 64429, 64354,
  64277, 64197, 64115, 64031, 63944, 63854, 63763, 63668,
  63572, 63473, 63372, 63268, 63162, 63054, 62943, 62830,
  62714, 62596, 62476, 62353, 62228, 62101, 61971, 61839,
  61705, 61568, 61429, 61288, 61145, 60999, 60851, 60700]

/-- Entries 64 to 127 of cos16. -/
def cosPart1 : List Nat := [
  60547, 60392, 60235, 60075, 59914, 59750, 59583, 59415,
  59244, 59071, 58896, 58718, 58538, 58356, 58172, 57986,
  57798, 57607, 57414, 57219, 57022, 56823, 56621, 56418,
  56212, 56004, 55794, 55582, 55368, 55152, 54934, 54714,
  54491, 54267, 54040, 53812, 53581, 53349, 53114, 52878,
  52639, 52398, 52156, 51911, 51665, 51417, 51166, 50914,
  50660, 50404, 50146, 49886, 49624, 49361, 49095, 48828,
  48559, 48288, 48015, 47741, 47464, 47186, 46906, 46624]

/-- Entries 128 to 191 of cos16. -/
def cosPart2 : List Nat := [
  46341, 46056, 45769, 45480, 45190, 44898, 44604, 44308,
  44011, 43713, 43412, 43110, 42806, 42501, 42194, 41886,
  41576, 41264, 40951, 40636, 40320, 40002, 39683, 39362,
  39040, 38716, 38391, 38064, 37736, 37407, 37076, 36744,
  36410, 36075, 35738, 35401, 35062, 34721, 34380, 34037,
  33692, 33347, 33000, 32652, 32303, 31952, 31600, 31248,
  30893, 30538, 30182, 29824, 29466, 29106, 28745, 28383,
  28020, 27656, 27291, 26925, 26558, 26190, 25821, 25451]

/-- Entries 192 to 255 of cos16. -/
def cosPart3 : List Nat := [
  25080, 24708, 24335, 23961, 23586, 23210, 22834, 22457,
  22078, 21699, 21320, 20939, 20557, 20175, 19792, 19409,
  19024, 18639, 18253, 17867, 17479, 17091, 16703, 16314,
  15924, 15534, 15143, 14751, 14359, 13966, 13573, 13180,
  12785, 12391, 11996, 11600, 11204, 10808, 10411, 10014,
  9616, 9218, 8820, 8421, 8022, 7623, 7224, 6824,
  6424, 6023, 5623, 5222, 4821, 4420, 4019, 3617,
  3216, 2814, 2412, 2010, 1608, 1206, 804, 402]

/-- Entries 256 to 256 of cos16. -/
def cosPart4 : List Nat := [
  0]

/-- The first quarter of cos16, entries 0 to 256. -/
def cosQuarter : List Nat := cosPart0 ++ cosPart1 ++ cosPart2 ++ cosPart3 ++ cosPart4

/-- cos16[i]: 65,536 × cos(2πi / 1,024), rounded to the nearest integer (R405). -/
def cos16 (i : Nat) : Int :=
  let i := i % 1024
  if i ≤ 256 then cosQuarter.getD i 0
  else if i ≤ 512 then - (cosQuarter.getD (512 - i) 0 : Nat)
  else if i ≤ 768 then - (cosQuarter.getD (i - 512) 0 : Nat)
  else cosQuarter.getD (1024 - i) 0

/-! ### R405 -/

/-- Where a pattern block is evaluated: width of the line, column, line, frame number. -/
structure PatAt where
  width : Nat
  x : Nat
  y : Nat
  f : Nat
deriving DecidableEq, Repr

/-- A parameter of layer l, signed. -/
def layerParam (cfg : List (Nat × Nat)) (l k : Nat) : Int := cfgInt cfg (Oid.patternParam + k) l

/-- The PRBS hash of R405, in 32 bits. -/
def patHash (seed x y f c : Nat) : Nat :=
  let m := 2 ^ 32
  let h := seed % m ^^^ (x * 0x9E3779B1 % m) ^^^ (y * 0x85EBCA77 % m) ^^^ (f * 0xC2B2AE3D % m) ^^^ (c * 0x27D4EB2F % m)
  let h := h ^^^ (h / 2 ^ 16)
  let h := h * 0x85EBCA6B % m
  let h := h ^^^ (h / 2 ^ 13)
  let h := h * 0xC2B2AE35 % m
  let h := h ^^^ (h / 2 ^ 16)
  h / 2 ^ 16

/-- The weight w of layer l for component c (R405). -/
def layerWeight (cfg : List (Nat × Nat)) (l c : Nat) (a : PatAt) : Int :=
  let p0 := layerParam cfg l 0
  let p1 := layerParam cfg l 1
  let p2 := layerParam cfg l 2
  let p3 := layerParam cfg l 3
  match cfgGet cfg Oid.patternKind l with
  | 1 => 65536
  | 2 =>
    let k := a.x * ofSigned 64 p0 % 2 ^ 64 / a.width
    let code := 7 - k % 8
    let sel := if c = 0 then 1 else if c = 1 then 2 else 0
    ((code / 2 ^ sel % 2 : Nat) : Int) * 65536
  | 3 =>
    let pos := (if p0 = 0 then (a.x : Int) else if p0 = 1 then (a.y : Int) else (a.x : Int) + a.y) + p2 * a.f
    truncDiv (truncMod (truncMod pos p1 + p1) p1 * 65536) p1
  | 4 => ((truncDiv a.x p0 + truncDiv a.y p1 + p2 * a.f) % 2) * 65536
  | 5 =>
    let q3 := ofSigned 32 p3
    let dx := (a.x : Int) - (q3 % 65536 : Nat)
    let dy := (a.y : Int) - (q3 / 65536 : Nat)
    let ph := ofSigned 32 (p0 * (ofSigned 32 (dx * dx) : Nat) + p1 * (ofSigned 32 (dy * dy) : Nat) + p2 * a.f)
    cos16 (ph / 2 ^ 22)
  | 6 => patHash (ofSigned 32 p0) a.x a.y a.f c
  | _ => 0

/-- v[c] of block b, clamped once after its four layers (R405). -/
def patternValue (cfg : List (Nat × Nat)) (b c : Nat) (a : PatAt) : Nat :=
  let v := (List.range 4).foldl (fun v k =>
    v + (cfgInt cfg (Oid.patternAmp + c) (4 * b + k) * layerWeight cfg (4 * b + k) c a) / 65536)
    (cfgInt cfg (Oid.patternOffset + c) b)
  (min (max v 0) 65535).toNat

/-- Bits of a sample of a format (R405). -/
def depthOf : Nat → Nat
  | 0x01 => 8 | 0x10 => 8 | 0x20 => 8
  | 0x03 => 12 | 0x12 => 12
  | 0x04 => 16
  | _ => 10

/-- sample[c] of R405. -/
def patternSample (cfg : List (Nat × Nat)) (b fmt c : Nat) (a : PatAt) : Nat := patternValue cfg b c a / 2 ^ (16 - depthOf fmt)

/-! ### Pixel groups (Tables 9.2, 12.5 and 13.1) -/

/-- Bits a sample takes in a group: a byte, a 16-bit container, or ten bits of a stream. -/
def sampleBits : Nat → Nat
  | 0x01 => 8 | 0x10 => 8 | 0x20 => 8
  | 0x21 => 10 | 0x30 => 10 | 0x31 => 10
  | _ => 16

/-- The samples of a group in stream order: component and pixel of the group; component 3 stands for the Bayer choice of R406. -/
def groupLayout : Nat → List (Nat × Nat)
  | 0x10 => [(3, 0)] | 0x11 => [(3, 0)] | 0x12 => [(3, 0)]
  | 0x20 => [(0, 0), (1, 0), (2, 0)]
  | 0x21 => (List.range 4).flatMap (fun p => [(0, p), (1, p), (2, p)])
  | 0x30 => [(1, 0), (0, 0), (2, 0), (0, 1)]
  | 0x31 => (List.range 4).flatMap (fun p => [(1, p), (0, p), (2, p)])
  | _ => [(0, 0)]

/-- The component m of R406 for a Bayer pixel, from `pattern.cfa` of block b. -/
def bayerComp (cfg : List (Nat × Nat)) (b x y : Nat) : Nat :=
  let i := 2 * (y % 2) + x % 2
  bits (cfgGet cfg Oid.patternCfa b) (2 * i + 1) (2 * i)

/-- The component of a layout entry at a pixel. -/
def layoutComp (cfg : List (Nat × Nat)) (b c x y : Nat) : Nat := if c = 3 then bayerComp cfg b x y else c

/-- Samples as the bytes of a group: containers little-endian, ten-bit samples as one stream, first bit most significant (R371). -/
def packSamples (fmt : Nat) (vs : List Nat) : List Byte :=
  match sampleBits fmt with
  | 8 => vs.flatMap (leBytes 1)
  | 16 => vs.flatMap (leBytes 2)
  | _ => beBytes (vs.length * 10 / 8) (vs.foldl (fun a v => a * 1024 + v % 1024) 0)

/-- Sample i of the bytes of a group or a line (R371). -/
def sampleIn (fmt : Nat) (bs : List Byte) (i : Nat) : Nat :=
  match sampleBits fmt with
  | 8 => byteAt bs i
  | 16 => byteAt bs (2 * i) + 256 * byteAt bs (2 * i + 1)
  | _ =>
    let lo := 10 * i / 8
    let w := beNat (padTo 3 (slice lo 3 bs))
    w / 2 ^ (14 - 10 * i % 8) % 1024

/-- The bytes sample i lies in, first and last, within its group. -/
def sampleSpan (fmt i : Nat) : Nat × Nat :=
  match sampleBits fmt with
  | 8 => (i, i)
  | 16 => (2 * i, 2 * i + 1)
  | _ => (10 * i / 8, (10 * i + 9) / 8)

/-- The bytes of the pixel group whose first pixel is x0 of line y, evaluated for block b (R405, R406). -/
def patternGroup (cfg : List (Nat × Nat)) (b fmt width f x0 y : Nat) : List Byte :=
  packSamples fmt ((groupLayout fmt).map (fun q =>
    let x := x0 + q.2
    patternSample cfg b fmt (layoutComp cfg b q.1 x y) { width := width, x := x, y := y, f := f }))

/-- Bytes o to o + n − 1 of line y of the pattern. -/
def patternLine (cfg : List (Nat × Nat)) (b fmt width f y o n : Nat) : List Byte :=
  let px := (pgOf fmt).1
  let gb := (pgOf fmt).2
  let g0 := o / gb
  let g1 := (o + n + gb - 1) / gb
  slice (o - g0 * gb) n ((List.range (g1 - g0)).flatMap (fun k => patternGroup cfg b fmt width f ((g0 + k) * px) y))

end Sys2Proof.Machine
end

