-- ==== Sys2Proof/Machine/Alf.lean ====
section
/-! DEFINITION. The Attenuated Line Format (11_racking, R369 to R373): the encoder, bit for bit. -/

namespace Sys2Proof.Machine

open Sys2Proof

/-- Bits of an ALF sample (Table 11.7). -/
def alfBits (fmt : Nat) : Nat := sampleBits fmt

/-- Samples of a line (Table 11.7). -/
def alfCount (fmt lineBytes : Nat) : Nat :=
  match sampleBits fmt with
  | 8 => lineBytes
  | 16 => lineBytes / 2
  | _ => lineBytes * 4 / 5

/-- d(i) of Table 11.7. -/
def alfDist (fmt i : Nat) : Nat :=
  match fmt with
  | 0x10 => 2 | 0x11 => 2 | 0x12 => 2
  | 0x20 => 3 | 0x21 => 3 | 0x31 => 3
  | 0x30 => if i % 2 = 1 then 2 else 4
  | _ => 1

/-- u[i] of R372: the residual of sample i, folded to a natural number. -/
def alfFold (b s p : Nat) : Nat :=
  let t := (s + 2 ^ b - p) % 2 ^ b
  if t < 2 ^ (b - 1) then 2 * t else 2 * (2 ^ b - t) - 1

/-- The residuals of a line's samples. -/
def alfResiduals (fmt : Nat) (ss : List Nat) : List Nat :=
  let b := alfBits fmt
  (List.range ss.length).map (fun i =>
    let d := alfDist fmt i
    alfFold b (ss.getD i 0) (if d ≤ i then ss.getD (i - d) 0 else 0))

/-- Bits u takes at Rice parameter k. -/
def riceLen (b k u : Nat) : Nat := if u / 2 ^ k < 16 then u / 2 ^ k + 1 + k else 16 + b

/-- The search of R372 from parameter k down to 0: the last of equal lengths wins. -/
def riceSearch (b : Nat) (us : List Nat) : Nat → Nat × Nat → Nat × Nat
  | 0, best =>
    let l := (us.map (riceLen b 0)).sum
    if l ≤ best.1 then (l, 0) else best
  | k + 1, best =>
    let l := (us.map (riceLen b (k + 1))).sum
    riceSearch b us k (if l ≤ best.1 then (l, k + 1) else best)

/-- The code of a block (R372). -/
def blockCode (b : Nat) (us : List Nat) : Nat :=
  if us.all (fun u => u = 0) then 31 else (riceSearch b us b (us.length * b, 30)).2

/-- The w low bits of x, most significant first. -/
def putBits (x : Nat) : Nat → List Bool
  | 0 => []
  | w + 1 => x.testBit w :: putBits x w

/-- One residual at a code. -/
def putResidual (b code u : Nat) : List Bool :=
  if code = 31 then []
  else if code = 30 then putBits u b
  else
    let q := u / 2 ^ code
    if q < 16 then List.replicate q true ++ [false] ++ putBits u code else List.replicate 16 true ++ putBits u b

/-- The blocks of 32 samples of a line, coded; at most `fuel` of them. -/
def putBlocks (b : Nat) : Nat → List Nat → List Bool
  | 0, _ => []
  | fuel + 1, us =>
    if us.isEmpty then []
    else
      let blk := us.take 32
      let c := blockCode b blk
      putBits c 5 ++ blk.flatMap (putResidual b c) ++ putBlocks b fuel (us.drop 32)

/-- Eight bits as a byte, bit 7 first. -/
def byteOfBits (l : List Bool) : Byte := BitVec.ofNat 8 ((l.take 8 ++ List.replicate (8 - l.length) false).foldl (fun a x => 2 * a + b2n x) 0)

/-- n bytes of a bit list, padded with 0 bits. -/
def bytesOfBits : Nat → List Bool → List Byte
  | 0, _ => []
  | n + 1, l => byteOfBits l :: bytesOfBits n (l.drop 8)

/-- The record of one line (R370, R372): coded, or stored when that is not longer. -/
def alfLine (fmt : Nat) (line : List Byte) : List Byte :=
  let n := alfCount fmt line.length
  let us := alfResiduals fmt ((List.range n).map (sampleIn fmt line))
  let bs := putBlocks (alfBits fmt) us.length us
  let len := (bs.length + 31) / 32 * 4
  let stored := (line.length + 3) / 4 * 4
  if stored ≤ len then leBytes 4 (2 ^ 30 + stored) ++ padTo stored line
  else leBytes 4 len ++ bytesOfBits len bs

/-- Split an image into its lines. -/
def imageLines (lb : Nat) : Nat → List Byte → List (List Byte)
  | 0, _ => []
  | n + 1, b => b.take lb :: imageLines lb n (b.drop lb)

/-- An ALF stream of an image (R369). -/
def alfStream (fmt width lines lineBytes : Nat) (image : List Byte) : List Byte :=
  let recs := (imageLines lineBytes lines image).flatMap (alfLine fmt)
  let h := [0x41, 0x4C, 0x46, 0x31, 0x01] ++ leBytes 1 fmt ++ leBytes 2 0 ++ leBytes 4 width ++ leBytes 4 lines ++ leBytes 4 lineBytes
    ++ leBytes 4 (32 + recs.length) ++ leBytes 4 (crc32c image)
  h ++ leBytes 4 (crc32c h) ++ recs

/-- alf_bound of R351. -/
def alfBound (lines lineBytes : Nat) : Nat := 32 + lines * (4 + (lineBytes + 3) / 4 * 4)

end Sys2Proof.Machine
end

