-- ==== Sys2Proof/Machine/Hydro.lean ====
section
/-! DEFINITION. The hydrometer (13_hydrometer): comparison of placed samples, region statistics, CRC checks, the error bitmap, arrival timing, verdicts and result records (R419 to R430). -/

namespace Sys2Proof.Machine

open Sys2Proof

/-! ### Frames -/

/-- The first frame of flow f whose hydrometer part meets a condition, with that part. -/
def hydroFrame (f : Nat) (p : HydroFrame → Bool) (s : State) : Option (Frame × HydroFrame) :=
  s.lau.frames.findSome? (fun g => match g.hydro with
    | some h => if g.flow = f && p h then some (g, h) else none
    | none => none)

/-- Replace a frame's hydrometer part. -/
def putHydro (fr : Frame) (h : HydroFrame) (s : State) : State := putFrame { fr with hydro := some h } s

/-! ### Expected bytes (R415) -/

/-- Block of the unit and line within it: R415's exception for line scan. -/
def blockLine (k : FrameCfg) (y : Nat) : Nat × Nat :=
  if k.line then (y / max 1 k.blockLines, y % max 1 k.blockLines) else (0, y)

/-- The internal address of byte o of line y of the golden frame (R415). -/
def goldenAddr (h : HydroFrame) (k : FrameCfg) (y o : Nat) : Nat :=
  let b := blockLine k y
  let st := strideOf (lineBytesOf (cfgGet h.cfg Oid.hydroPixelFormat h.set) (cfgGet h.cfg Oid.hydroWidth h.set))
  cfgGet h.cfg Oid.hydroGoldenAddr h.set
    + ((h.f + b.1) % 2 ^ 32 % max 1 (cfgGet h.cfg Oid.hydroGoldenFrames h.set)) * cfgGet h.cfg Oid.hydroGoldenFrameBytes h.set
    + b.2 * st + o

/-- Expected bytes o to o + n − 1 of line y, by `hydro.ref`. -/
def expectedBytes (s : State) (h : HydroFrame) (k : FrameCfg) (y o n : Nat) : List Byte :=
  match cfgGet h.cfg Oid.hydroRef h.set with
  | 1 => readMem s (goldenAddr h k y o) n
  | 2 =>
    let b := blockLine k y
    patternLine h.cfg (cfgGet h.cfg Oid.hydroPatternBlock h.set) k.format k.width ((h.f + b.1) % 2 ^ 32) b.2 o n
  | _ => []

/-- The address and length of the golden read for a copy: the pixel groups it touches. -/
def goldenRange (h : HydroFrame) (k : FrameCfg) (c : HydroCopy) : Nat × Nat :=
  let gb := (pgOf k.format).2
  let o := c.off % k.stride / gb * gb
  (goldenAddr h k (c.off / k.stride) o, (c.off % k.stride + c.data.length + gb - 1) / gb * gb - o)

/-- Golden reads in flight to the addresses a condition names are returned poisoned (R340). -/
def spoilReads (bad : Nat → Bool) (s : State) : State :=
  { s with lau := { s.lau with frames := s.lau.frames.map (fun fr => { fr with hydro := fr.hydro.map (fun h =>
      { h with reads := h.reads.map (fun c =>
          let r := goldenRange h fr.cfg c
          { c with bad := c.bad || (List.range r.2).any (fun i => bad (r.1 + i)) }) }) }) } }

/-- How a golden read of a range fails (R425): returned poisoned, or in a page not yet filled since a spare took its slot. -/
def goldenPoisoned (s : State) (a n : Nat) : Bool := (List.range n).any (fun i => unitPoisoned s (a + i))

/-- A page of the reference partition whose spare is still being filled and that nothing has written since (R341). -/
def pageFilling (s : State) (a : Nat) : Bool :=
  decide (refBase ≤ a) && decide (a < ctlBase) && decide (refSlot a ∈ s.cel.zeroSlots) &&
    (match servingPc s 1 (pageSlot (a / 65536)) with
      | some p => getObj s Oid.cellarPcState p = 7
      | none => false) &&
    !s.mem.any (fun c => c.1 / 65536 = a / 65536)

/-- Whether a golden read lies in a page not yet filled (R425). While the fill runs, how far it has come is open (R341 gives the order and the limit only): a free choice (DESIGN CHOICE). -/
def goldenUnfilled (s : State) (a n : Nat) : Bool × State :=
  if (List.range n).any (fun i => pageFilling s (a + i)) then
    let c := takeChoice 2 s
    (decide (c.1 = 0), c.2)
  else (false, s)

/-! ### Statistics (R420, R423) -/

/-- Enabled regions of a set, in ascending number. -/
def enabledRegions (h : HydroFrame) : List Nat :=
  (List.range 256).filter (fun g => cfgGet h.cfg Oid.hydroRegEnable (256 * h.set + g) = 1)

/-- The initial accumulators of a region are those of R420. -/
def regAcc (h : HydroFrame) (g : Nat) : RegAcc := tabGet {} g h.regs

/-- The R420 update of one accumulator. -/
def accAdd (d : Int) (a : RegAcc) : RegAcc :=
  let q := a.sq + (d * d).toNat
  { n := (a.n + 1) % 2 ^ 64, sum := a.sum + d, sq := if q < 2 ^ 64 then q else 2 ^ 64 - 1
    mn := min a.mn d, mx := max a.mx d, sat := a.sat || decide (2 ^ 64 ≤ q) }

/-- Whether region g takes component c of pixel (x, y). DESIGN CHOICE (entry 146): R420 declares no type for x0 + w and y0 + h; the sums are taken whole, without wrapping at 2^32. -/
def regionTakes (h : HydroFrame) (g c x y : Nat) : Bool :=
  let i := 256 * h.set + g
  let x0 := cfgGet h.cfg Oid.hydroRegRect i
  let y0 := cfgGet h.cfg (Oid.hydroRegRect + 1) i
  decide (x0 ≤ x) && decide (x < x0 + cfgGet h.cfg (Oid.hydroRegRect + 2) i) &&
    decide (y0 ≤ y) && decide (y < y0 + cfgGet h.cfg (Oid.hydroRegRect + 3) i) && (cfgGet h.cfg Oid.hydroRegComponents i).testBit c

/-- One compared sample in one region. -/
def regionSample (c x y : Nat) (d : Int) (ref : Bool) (h : HydroFrame) (g : Nat) : HydroFrame :=
  if regionTakes h g c x y then
    let h := { h with regs := tabPut {} g (accAdd d (regAcc h g)) h.regs }
    if ref && decide (cfgGet h.cfg Oid.hydroRegThreshold (256 * h.set + g) < d.natAbs) && decide ((g, x, y) ∉ h.marks) then
      { h with marks := h.marks ++ [(g, x, y)] }
    else h
  else h

/-- One compared sample: every enabled region, and the tile of the error bitmap. -/
def compareSample (c x y r e : Nat) (h : HydroFrame) : HydroFrame :=
  let ref := cfgGet h.cfg Oid.hydroRef h.set ≠ 0
  let d : Int := if ref then (r : Int) - e else r
  let h := (enabledRegions h).foldl (regionSample c x y d ref) h
  let t := y / 16 * 65536 + x / 16
  if ref && decide (cfgGet h.cfg Oid.hydroBitmapThr h.set < d.natAbs) && decide (t ∉ h.tiles) then { h with tiles := h.tiles ++ [t] } else h

/-- Compare samples of group g of line y: those whose index of the group `use` accepts, of pixels within the line (R420). -/
def compareGroup (k : FrameCfg) (y g : Nat) (got want : List Byte) (use : Nat → Bool) (h : HydroFrame) : HydroFrame :=
  let lay := groupLayout k.format
  let x0 := g * (pgOf k.format).1
  (List.range lay.length).foldl (fun h i =>
    let q := lay.getD i (0, 0)
    let x := x0 + q.2
    if use i && decide (x < k.width) then
      let c := layoutComp h.cfg (cfgGet h.cfg Oid.hydroPatternBlock h.set) q.1 x (blockLine k y).2
      compareSample c x y (sampleIn k.format got i) (sampleIn k.format want i) h
    else h) h

/-- The placed bytes i to i + n − 1 of the image, if all of them have been placed. -/
def gotRun : Nat → Nat → List (Nat × Byte) → Option (List Byte)
  | _, 0, _ => some []
  | _, _ + 1, [] => none
  | i, n + 1, (j, b) :: t =>
    if j < i then gotRun i (n + 1) t else if j = i then (gotRun (i + 1) n t).map (fun l => b :: l) else none

/-- The bytes of a placement copy enter the image; every group of it that is whole is compared (R419, R420). -/
def compareCopy (s : State) (k : FrameCfg) (c : HydroCopy) (h : HydroFrame) : HydroFrame :=
  let gb := (pgOf k.format).2
  let y := c.off / k.stride
  let o := c.off % k.stride
  let h := { h with got := addGot (imageIndex k c.off) c.data h.got }
  if h.geom || !h.aligned then h
  else
    let g0 := o / gb
    let g1 := (o + c.data.length + gb - 1) / gb
    (List.range (g1 - g0)).foldl (fun h j =>
      match gotRun (y * k.lineBytes + (g0 + j) * gb) gb h.got with
      | none => h
      | some bs => compareGroup k y (g0 + j) bs (expectedBytes s h k y ((g0 + j) * gb) gb) (fun _ => true) h) h

/-- Groups of which a part was never placed, by line and group (R419). -/
def partGroups (k : FrameCfg) (got : List (Nat × Byte)) : List (Nat × Nat) :=
  let gb := (pgOf k.format).2
  let all := got.map (fun p => (p.1 / k.lineBytes, p.1 % k.lineBytes / gb))
  (all.eraseDups).filter (fun q => (gotRun (q.1 * k.lineBytes + q.2 * gb) gb got).isNone)

/-- The samples wholly placed of groups that were never whole, compared at the close (R419, R420). -/
def comparePartial (s : State) (k : FrameCfg) (h : HydroFrame) : HydroFrame :=
  if h.geom || !h.aligned then h
  else
    let gb := (pgOf k.format).2
    (partGroups k h.got).foldl (fun h q =>
      let i0 := q.1 * k.lineBytes + q.2 * gb
      let bs := (List.range gb).map (fun j => tabGet 0 (i0 + j) h.got)
      let use := fun i =>
        let sp := sampleSpan k.format i
        (List.range (sp.2 + 1 - sp.1)).all (fun j => (tabFind (i0 + sp.1 + j) h.got).isSome)
      compareGroup k q.1 q.2 bs (expectedBytes s h k q.1 (q.2 * gb) gb) use h) h

/-! ### CRC checks (R422) -/

/-- The CRC of line y, if every byte of it has been placed. -/
def lineCrc (k : FrameCfg) (h : HydroFrame) (y : Nat) : Option Nat := (gotRun (y * k.lineBytes) k.lineBytes h.got).map crc32c

/-- The frame CRC, if no line is incomplete. -/
def frameCrc (k : FrameCfg) (h : HydroFrame) : Option Nat := (gotRun 0 (k.lines * k.lineBytes) h.got).map crc32c

/-- A complete line fails the check of code 1, which needs a reference. -/
def lineFails (s : State) (k : FrameCfg) (h : HydroFrame) (y : Nat) : Bool :=
  cfgGet h.cfg Oid.hydroCrcCheck h.set = 1 && cfgGet h.cfg Oid.hydroRef h.set ≠ 0 &&
    (match lineCrc k h y with
     | some c => c != crc32c (expectedBytes s h k y 0 k.lineBytes)
     | none => false)

/-- Lines failing the check of code 1, in a frame that is judged. -/
def linesFailing (s : State) (k : FrameCfg) (h : HydroFrame) : List Nat :=
  if h.geom || !h.aligned || h.refBad || h.overload then [] else (List.range k.lines).filter (lineFails s k h)

/-- A complete frame fails the check of code 2. -/
def frameFails (k : FrameCfg) (h : HydroFrame) : Bool :=
  cfgGet h.cfg Oid.hydroCrcCheck h.set = 2 &&
    (match frameCrc k h with | some c => c != cfgGet h.cfg Oid.hydroCrcValue h.set | none => false)

/-! ### Regions (R421) -/

/-- Marked pixels of region g. -/
def mismOf (h : HydroFrame) (g : Nat) : Nat := (h.marks.filter (fun m => m.1 = g)).length

/-- R421. -/
def regionFails (h : HydroFrame) (g : Nat) : Bool :=
  let a := regAcc h g
  let i := 256 * h.set + g
  let mse := cfgGet h.cfg Oid.hydroRegMseMax i
  let mean := cfgGet h.cfg Oid.hydroRegMeanMax i
  cfgGet h.cfg Oid.hydroRef h.set ≠ 0 && decide (0 < a.n) &&
    (decide (cfgGet h.cfg Oid.hydroRegAllow i < mismOf h g) ||
      (mse != 0xFFFFFFFF && decide (mse < a.sq / a.n)) ||
      (mean != 0xFFFFFFFF && decide (mean < a.sum.natAbs / a.n)))

/-! ### Timing (R427, R428) -/

/-- The loop state of R428. -/
structure TimingRun where
  j    : Nat := 0
  c    : Nat := 0
  tdr  : Int := 0
  cpk  : Nat := 0
  late : Nat := 0
  vpk  : Nat := 0
deriving DecidableEq, Repr

/-- The drain loop of R428, at most c rounds. -/
def drain (trs a : Int) : Nat → Int → Nat × Int
  | 0, t => (0, t)
  | c + 1, t => if t + trs ≤ a then drain trs a c (t + trs) else (c + 1, t)

/-- One packet of R428. -/
def timingPacket (trs tro : Int) (r : TimingRun) (a : Int) : TimingRun :=
  let t0 := if r.j = 0 then a else r.tdr
  let q := drain trs a r.c t0
  let tdr := if q.1 = 0 then a else q.2
  let c := q.1 + 1
  let due := tro * 65536 + r.j * trs
  let k : Nat := if tro * 65536 ≤ a then (truncDiv (a - tro * 65536) trs).toNat + 1 else 0
  let vrx := (r.j + 1) - min (r.j + 1) k
  { j := r.j + 1, c := c, tdr := tdr, cpk := max r.cpk c % 65536
    late := if due < a then (r.late + 1) % 2 ^ 32 else r.late, vpk := max r.vpk vrx % 65536 }

/-- Frame period in 2^-16 ns (R395). -/
def period16 (num den : Nat) : Nat := den * 1000000000 * 65536 / num

/-- trs16 of R395. -/
def trs16 (num den model an ad npk : Nat) : Nat :=
  let p := period16 num den
  if model = 1 then p / npk else p * an / ad / npk

/-- The timing of a frame of the packets given in arrival order, or none where R427 does not time it. -/
def frameTiming (h : HydroFrame) (k : FrameCfg) (x : FlowX) : Option Timing :=
  let arr := h.packets.reverse
  if cfgGet h.cfg Oid.hydroTiming h.set = 0 || k.gvsp || !h.aligned || x.lastPackets = 0 then none
  else match arr with
  | [] => none
  | a0 :: _ =>
    let num := cfgGet h.cfg Oid.hydroRateNum h.set
    let den := cfgGet h.cfg Oid.hydroRateDen h.set
    let first := tUnits a0
    let ns := first / 65536
    let kk := ((ns + 1) * num - 1) / (den * 1000000000)
    let tk := (h.tk).getD (kk * den * 1000000000 / num * 65536)
    let trs := trs16 num den (cfgGet h.cfg Oid.hydroTimingModel h.set) (cfgGet h.cfg Oid.hydroTimingActiveNum h.set)
      (cfgGet h.cfg Oid.hydroTimingActiveDen h.set) x.lastPackets
    let tro := cfgGet h.cfg Oid.hydroTimingTrOffsetNs h.set
    let r := arr.foldl (fun r t => timingPacket trs tro r ((tUnits t : Int) - tk)) {}
    some { trOffset := toSigned 32 (ofSigned 32 (((first : Int) - tk) / 65536)), cpk := r.cpk, vpk := r.vpk, late := r.late, npk := x.lastPackets }

/-- A timing failure (R428). -/
def timingFails (h : HydroFrame) (t : Timing) : Bool :=
  decide (cfgGet h.cfg Oid.hydroCmax h.set < t.cpk) || decide (cfgGet h.cfg Oid.hydroVrxFull h.set < t.vpk) || decide (0 < t.late)

/-! ### Verdict (R424) -/

/-- The number of enabled regions that fail. -/
def failedRegions (h : HydroFrame) : Nat := ((enabledRegions h).filter (regionFails h)).length

/-- The verdict of a frame, in the order R424 gives. -/
def verdictOf (k : FrameCfg) (h : HydroFrame) (complete : Bool) : Nat :=
  if h.geom then 8
  else if !h.aligned then 5
  else if h.refBad then 6
  else if h.overload then 7
  else if cfgGet h.cfg Oid.hydroRef h.set = 0 && cfgGet h.cfg Oid.hydroCrcCheck h.set != 2 && cfgGet h.cfg Oid.hydroTiming h.set != 2 then 0
  else
    let late := match h.timing with | some t => cfgGet h.cfg Oid.hydroTiming h.set = 2 && timingFails h t | none => false
    let bad := failedRegions h != 0 || !h.badLines.isEmpty || frameFails k h || late
    match complete, bad with
    | true, false => 1
    | true, true => 2
    | false, false => 3
    | false, true => 4

/-- The hydrometer closes a frame (R424). -/
def closeHydro (s : State) (fr : Frame) (h : HydroFrame) : HydroFrame :=
  let h := comparePartial s fr.cfg h
  let h := { h with timing := frameTiming h fr.cfg (flowOf s fr.flow), badLines := linesFailing s fr.cfg h }
  let v := verdictOf fr.cfg h (fr.cause = some 1)
  { h with closed := true, verdict := v, failed := if 5 ≤ v then 0 else failedRegions h, valid := decide (v < 5) }

/-! ### Records (R429, R430) -/

/-- A region entry, Table 13.4. -/
def regionEntry (h : HydroFrame) (g : Nat) : List Byte :=
  let a := regAcc h g
  let e := a.n = 0
  leBytes 8 a.n ++ leBytes 8 (ofSigned 64 a.sum) ++ leBytes 8 a.sq ++ leBytes 8 (mismOf h g)
    ++ leBytes 4 (ofSigned 32 (if e then 0 else a.mn)) ++ leBytes 4 (ofSigned 32 (if e then 0 else a.mx))
    ++ leBytes 2 g ++ leBytes 1 (b2n e * 4 + b2n a.sat * 2 + b2n (regionFails h g)) ++ leBytes 5 0

/-- Rows of the error bitmap that are kept (R423). -/
def tileRows (k : FrameCfg) : Nat := min ((k.lines + 15) / 16) 32767

/-- A result record, Table 13.3. -/
def resultRecord (fr : Frame) (h : HydroFrame) (gen : Nat) : List Byte :=
  let k := fr.cfg
  let rs := if 5 ≤ h.verdict then [] else enabledRegions h
  let t := h.timing
  let tm := t.getD {}
  let fl := b2n (rs.any (fun g => (regAcc h g).sat)) * 16
    + b2n (match t with | some t => timingFails h t | none => false) * 8 + b2n t.isSome * 4
    + b2n (cfgGet h.cfg Oid.hydroRef h.set ≠ 0 && decide (524272 < k.lines)) * 2 + b2n (fr.cause ≠ some 1)
  leBytes 4 gen ++ leBytes 2 fr.flow ++ leBytes 1 h.set ++ leBytes 1 h.verdict ++ leBytes 4 fr.seq ++ leBytes 4 h.f
    ++ leBytes 4 ((frameCrc k h).getD 0) ++ leBytes 4 h.badLines.length ++ leBytes 2 h.failed ++ leBytes 2 rs.length
    ++ leBytes 4 fl ++ leBytes 4 (ofSigned 32 tm.trOffset) ++ leBytes 2 tm.cpk ++ leBytes 2 tm.vpk ++ leBytes 4 tm.late ++ leBytes 4 tm.npk
    ++ rs.flatMap (regionEntry h) ++ leBytes 4 gen ++ List.replicate 12 0

/-- One row of the error bitmap. -/
def bitmapRow (h : HydroFrame) (tilesX ty : Nat) : List Byte :=
  (List.range ((tilesX + 31) / 32 * 4)).map (fun b =>
    BitVec.ofNat 8 ((List.range 8).foldl (fun a i => a + (if ty * 65536 + (8 * b + i) ∈ h.tiles then 2 ^ i else 0)) 0))

/-- The bitmap BLOB (R430). -/
def bitmapBlob (fr : Frame) (h : HydroFrame) (gen : Nat) : List Byte :=
  let tx := (fr.cfg.width + 15) / 16
  let ty := tileRows fr.cfg
  leBytes 4 gen ++ leBytes 4 fr.seq ++ leBytes 2 tx ++ leBytes 2 0 ++ leBytes 4 ty
    ++ (List.range ty).flatMap (bitmapRow h tx) ++ leBytes 4 gen

/-- The line CRC BLOB (R430). -/
def lineCrcBlob (fr : Frame) (h : HydroFrame) (gen : Nat) : List Byte :=
  leBytes 4 gen ++ leBytes 4 fr.seq ++ leBytes 4 fr.cfg.lines ++ leBytes 4 0
    ++ (List.range fr.cfg.lines).flatMap (fun y =>
      let c := lineCrc fr.cfg h y
      leBytes 4 (c.getD 0) ++ leBytes 4 (b2n c.isSome + 2 * b2n (decide (y ∈ h.badLines))))
    ++ leBytes 4 gen

/-- What the hydrometer files when a frame it has closed commits: record, bitmap, line CRCs, counters, status and sources (R424, R428 to R430). -/
def fileRecord (fr : Frame) (h : HydroFrame) (s : State) : State :=
  let gen := tabGet 0 h.set s.hyd.gen % 0xFFFFFFFF + 1
  let slot := getObj s Oid.hydroResultNext h.set
  let ref := cfgGet h.cfg Oid.hydroRef h.set
  let v := h.verdict
  let t := h.timing
  let s := putBlob (Oid.hydroResult + slot) h.set (resultRecord fr h gen) s
  let s := putObj Oid.hydroResultNext h.set ((slot + 1) % 16) { s with hyd := { s.hyd with gen := tabPut 0 h.set gen s.hyd.gen } }
  let s := if ref ≠ 0 && 1 ≤ v && v ≤ 4 then putBlob Oid.hydroBitmap h.set (bitmapBlob fr h gen) s else s
  let s := if ref ≠ 0 && (v = 2 || v = 4) then putBlob (Oid.hydroBitmap + 1) h.set (bitmapBlob fr h gen) s else s
  let s := if v ≤ 4 then putBlob Oid.hydroLineCrc h.set (lineCrcBlob fr h gen) s else s
  let s := match t with
    | some t => if timingFails h t then setSticky Oid.hydroStatus 0 0x40 (bump Oid.hydroTimingFailures h.set s) else s
    | none => s
  let s := if 1 ≤ v && v ≤ 4 then setSticky Oid.hydroStatus 0 1 (bump Oid.hydroFramesJudged h.set s) else s
  let s := if v = 3 || v = 4 then bump Oid.hydroFramesPartial h.set s else s
  if v = 2 || v = 4 then fire 0x17B (setSticky Oid.hydroStatus 0 2 (bump Oid.hydroFramesFailed h.set s))
  else if 5 ≤ v then
    let bitOf := if v = 5 then 8 else if v = 6 then 0x10 else if v = 7 then 0x20 else 4
    fire 0x17C (setSticky Oid.hydroStatus 0 bitOf (bump Oid.hydroFramesNotJudged h.set s))
  else s

/-! ### Rows -/

/-- HYDRO_COMPARE (R420): the first copy waiting of a frame of the flow is compared, or its golden read is issued. -/
def execHydroCompare (f : Flow) (s : State) : Host.Outcome State Fault Refusal :=
  match hydroFrame f.val (fun h => !h.queue.isEmpty) s with
  | none => .next s
  | some (fr, h) =>
    match h.queue with
    | [] => .next s
    | c :: t =>
      let h := { h with queue := t }
      if cfgGet h.cfg Oid.hydroRef h.set = 1 && !h.geom && h.aligned then .next (putHydro fr { h with reads := h.reads ++ [c] } s)
      else .next (putHydro fr (compareCopy s fr.cfg c h) s)

/-- GOLDEN_READ_RETURN (R425): the oldest golden read of a frame of the flow returns. -/
def execGoldenReadReturn (f : Flow) (s : State) : Host.Outcome State Fault Refusal :=
  match hydroFrame f.val (fun h => !h.reads.isEmpty) s with
  | none => .next s
  | some (fr, h) =>
    match h.reads with
    | [] => .next s
    | c :: t =>
      let h := { h with reads := t }
      let k := fr.cfg
      let r := goldenRange h k c
      let a := r.1
      let n := r.2
      let fail := { h with refBad := true, got := addGot (imageIndex k c.off) c.data h.got }
      if c.bad || goldenPoisoned s a n then .next (putHydro fr fail (bump Oid.hydroGoldenErrors 0 s))
      else
        let u := goldenUnfilled s a n
        if u.1 then .next (putHydro fr fail u.2) else .next (putHydro fr (compareCopy u.2 k c h) u.2)

/-- GOLDEN_DEADLINE (R425): the oldest golden read of a frame of the flow has not returned in time. -/
def execGoldenDeadline (f : Flow) (s : State) : Host.Outcome State Fault Refusal :=
  match hydroFrame f.val (fun h => !h.reads.isEmpty) s with
  | none => .next s
  | some (fr, h) =>
    match h.reads with
    | [] => .next s
    | c :: t =>
      let k := fr.cfg
      let h := { h with reads := t, refBad := true, got := addGot (imageIndex k c.off) c.data h.got }
      .next (putHydro fr h (bump Oid.hydroGoldenLate 0 s))

/-- Placements of a cask still to be issued or performed. -/
def caskBusy (s : State) (id : Nat) : Bool :=
  s.lau.flight.any (fun p => p.live && p.cask = id) || s.lau.regions.any (fun r => r.2.waiting.any (fun p => p.cask = id))

/-- HYDRO_CLOSE (R424): a frame of the flow that has closed, with every copy of it compared, has its statistics closed. -/
def execHydroClose (f : Flow) (s : State) : Host.Outcome State Fault Refusal :=
  match s.lau.frames.findSome? (fun g => match g.hydro, g.cask with
    | some h, some id => if g.flow = f.val && g.cause.isSome && !h.closed && h.queue.isEmpty && h.reads.isEmpty && !caskBusy s id then some (g, h) else none
    | _, _ => none) with
  | none => .next s
  | some (fr, h) => .next (putHydro fr (closeHydro s fr h) s)

/-- SELFTEST_DONE (R539): the running self-test of the pattern engine or the hydrometer ends. -/
def execSelftestDone (hydro pass : Bool) (s : State) : Host.Outcome State Fault Refusal :=
  let o := if hydro then Oid.hydroSelftest else Oid.patternSelftest
  if getObj s o = 1 then .next (putObj o 0 (if pass then 2 else 3) s) else .next s

end Sys2Proof.Machine
end

