-- ==== Sys2Proof/Machine/Cellar.lean ====
section
/-! DEFINITION. The cellar (10_cellar): boil-over and refresh debt, read errors, row repair, retirement and spares, reinstatement and test. A retirement that leaves no spare, and a control unit lost in both copies, name the cause in `modes.limpWant` and `modes.haltWant`; the rows that can find one act on it (Faults.lean). -/

namespace Sys2Proof.Machine

open Sys2Proof

/-! ### Boil-over and refresh (R331 to R335) -/

/-- Assert or clear an activity's boil-over in a partition: 1 lauter, 2 tap (R333). -/
def setBoil (part mask : Nat) (on : Bool) (s : State) : State :=
  let v := getObj s Oid.cellarBoilover part
  if on && v &&& mask = 0 then bump Oid.cellarBoiloverCount part (putObj Oid.cellarBoilover part (v + mask) s)
  else if !on && v &&& mask != 0 then putObj Oid.cellarBoilover part (v - mask) s
  else s

/-- The cellar defers refreshes of PC p: its partition is under boil-over. -/
def deferring (s : State) (p : Nat) : Bool :=
  decide (getObj s Oid.cellarPcPartition p < 3) && getObj s Oid.cellarBoilover (getObj s Oid.cellarPcPartition p) != 0

/-- Debt of refresh group g of PC p (R334). -/
def debtOf (s : State) (p g : Nat) : Nat := tabGet 0 (p * 8 + g) s.cel.debt

/-- Set a debt and keep its peak (R335). -/
def setDebt (p g d : Nat) (s : State) : State :=
  let s := { s with cel := { s.cel with debt := tabPut 0 (p * 8 + g) d s.cel.debt } }
  if getObj s Oid.cellarDebtPeak p < d then putObj Oid.cellarDebtPeak p d s else s

/-- A forced refresh is issued (R334). -/
def forceRefresh (p : Nat) (s : State) : State :=
  fire 0x175 (setSticky Oid.cellarStatus 0 4 (bump Oid.cellarForcedRefreshes p s))

/-- PC p is served by the cellar's calendar. -/
def pcServes (s : State) (p : Nat) : Bool :=
  cellarRuns s.modes.current && (getObj s Oid.cellarPcState p = 2 || getObj s Oid.cellarPcState p = 7)

/-- A refresh falls due (R331, R333 to R335): issued, or deferred; the fifth owed forces the oldest. -/
def refreshDue (p g : Nat) (s : State) : State :=
  let d := debtOf s p g
  if deferring s p then
    if d ≥ 4 then forceRefresh p s else setDebt p g (d + 1) s
  else if 0 < d && d < 4 then setDebt p g (d + 1) s
  else s

/-! ### Retirement and spares (R340 to R342) -/

/-- An address of a slot of a partition. -/
def inSlot (part slot a : Nat) : Bool :=
  decide (a < hbmTop) && pagePartition (a / 65536) = part && pageSlot (a / 65536) = slot

/-- The contents of a slot are lost (R36): what its unlisted bytes read as is open again. -/
def loseSlot (part slot : Nat) (s : State) : State :=
  { s with
    mem := s.mem.filter (fun c => !inSlot part slot c.1)
    cel := { s.cel with poisoned := s.cel.poisoned.filter (fun a => !inSlot part slot a) }
    modes := { s.modes with hbmEpoch := s.modes.hbmEpoch + 1 } }

/-- Idle spares, by physical number. -/
def idleSpares (s : State) : List Nat :=
  (List.range 128).filter (fun p => getObj s Oid.cellarPcPartition p = 3 && getObj s Oid.cellarPcState p = 6)

/-- The spare R341 takes: in the same stack, else the lowest number. -/
def chooseSpare (s : State) (p : Nat) : Option Nat :=
  match (idleSpares s).find? (fun q => q / 32 = p / 32) with
  | some q => some q
  | none => (idleSpares s).head?

/-- Put spare q into the slot that p served. -/
def assignSpare (q part slot : Nat) (s : State) : State :=
  let s := putObj Oid.cellarPcSlot q slot (putObj Oid.cellarPcPartition q part s)
  let s := putObj Oid.cellarSparesFree 0 (getObj s Oid.cellarSparesFree - 1) s
  if part = 0 then putObj Oid.cellarPcState q 2 (loseSlot 0 slot s)
  else if part = 1 then
    putObj Oid.cellarPcState q 7 (loseSlot 1 slot { s with cel := { s.cel with zeroSlots := slot :: s.cel.zeroSlots } })
  else putObj Oid.cellarPcState q 7 s

/-- Name the spare in the retirement list entry (R508). -/
def noteSpare (res q : Nat) (s : State) : State :=
  { s with flt := { s.flt with retired := s.flt.retired.map (fun r => if r.res = res then { r with spare := q } else r) } }

/-- PC p leaves service (R340, R341), already recorded as retired: casks are invalidated and a spare takes the slot. -/
def pcLeaves (p : Nat) (s : State) : State :=
  let part := getObj s Oid.cellarPcPartition p
  let slot := getObj s Oid.cellarPcSlot p
  let s := putObj Oid.cellarPcSlot p 0xFF (putObj Oid.cellarPcPartition p 4 (putObj Oid.cellarPcState p 5 s))
  let s := fire 0x170 (setSticky Oid.cellarStatus 0 8 s)
  if part = 3 then putObj Oid.cellarSparesFree 0 (getObj s Oid.cellarSparesFree - 1) s
  else
    let s := if part = 0 then invalidateSlot slot s else if part = 1 then spoilReads (inSlot 1 slot) s else s
    match chooseSpare s p with
    | some q => noteSpare (resPc p) q (assignSpare q part slot s)
    | none => { s with modes := { s.modes with limpWant := s.modes.limpWant ||| 1 } }

/-- A fault of PC p (R338, R340): recorded, counted once in a tick, and the PC retired when the tracker says so. -/
def pcFault (p cause : Nat) (permanent : Bool) (s : State) : State :=
  if getObj s Oid.cellarPcState p = 5 then s
  else
    let r := recordFault (resPc p) cause permanent s
    match r.2 with
    | .absorbed => r.1
    | .retire => pcLeaves p (if faultedTick s (resPc p) then r.1 else bump Oid.cellarFaults p r.1)
    | _ => bump Oid.cellarFaults p r.1

/-- A retired PC passes its retraining and becomes an idle spare, or stays retired (R342). -/
def cellarReinstate (p : Nat) (pass : Bool) (s : State) : State :=
  if getObj s Oid.cellarPcState p = 5 && standsRetired s (resPc p) && pass then
    let s := dropRetired (resPc p) s
    putObj Oid.cellarSparesFree 0 (getObj s Oid.cellarSparesFree + 1)
      (putObj Oid.cellarPcSlot p 0xFF (putObj Oid.cellarPcPartition p 3 (putObj Oid.cellarPcState p 6 s)))
  else s

/-! ### Read errors (R336 to R339) -/

/-- Corrected reads counted in the present 1 s window; reaching the threshold fires once (R337). -/
def correctedReads (p n : Nat) (s : State) : State :=
  let s := addObj Oid.cellarCeCount p n s
  let w := (s.time.ticks - s.modes.bootEnd) / 125000000
  let old := tabGet (0, 0) p s.cel.window
  let c := if old.1 = w then old.2 + n else n
  let s := { s with cel := { s.cel with window := tabPut (0, 0) p (w, c) s.cel.window } }
  if getObj s Oid.cellarCeThreshold p ≤ c && tabGet 0 p s.cel.warned != w + 1 then
    fire 0x172 (setSticky Oid.cellarStatus 0 2 { s with cel := { s.cel with warned := tabPut 0 p (w + 1) s.cel.warned } })
  else s

/-- A read counts as uncorrectable: SEC-DED says so, or severity 3 with data that is not clean (R336). -/
def isUncorrectable : HbmRead → Bool
  | .clean _ => false
  | .corrected n => n = 3
  | .uncorrectable _ => true

/-- Count what one read of PC p reports (R336, R337): the cellar's check and the on-die severity. DEDUCED (entry 148): a read that severity 3 makes uncorrectable counts as that, and not as corrected. -/
def countRead (p : Nat) (r : HbmRead) (s : State) : State :=
  let sev (n : Nat) (s : State) : State := if n = 0 then s else bump (Oid.cellarSevCount + n) p s
  match r with
  | .clean n => sev n.val s
  | .corrected n => if isUncorrectable r then bump Oid.cellarUeCount p (sev n.val s) else correctedReads p 1 (sev n.val s)
  | .uncorrectable n => bump Oid.cellarUeCount p (sev n.val s)

/-- The PC a read is repeated on (R338): the mirror slot's in the control partition, else the same. -/
def rereadPc (s : State) (p : Nat) : Nat :=
  if getObj s Oid.cellarPcPartition p = 2 then (servingPc s 2 (getObj s Oid.cellarPcSlot p ^^^ 1)).getD p else p

/-- The first internal address of a 32-byte unit of PC p, by the slot it serves (R323). -/
def unitAddr (s : State) (p unit : Nat) : Option Nat :=
  let part := getObj s Oid.cellarPcPartition p
  if part < 3 then
    some ((partBase part + unit / 2048 * partSlots part + getObj s Oid.cellarPcSlot p) * 65536 + unit % 2048 * 32)
  else none

/-- An uncorrectable read of a unit and its re-issue (R338, R340); the control partition is read from the mirror, and the loss of both copies is a Halt cause. -/
def badRead (p unit : Nat) (first second : HbmRead) (s : State) : State :=
  let part := getObj s Oid.cellarPcPartition p
  let a := unitAddr s p unit
  let s := countRead p first s
  let s := fire 0x171 (setSticky Oid.cellarStatus 0 1 s)
  let again := decide ((p, unit / 32) ∈ s.cel.repaired)
  let s := countRead (rereadPc s p) second s
  let s :=
    if isUncorrectable second then
      let s := if part = 2 then { s with modes := { s.modes with haltWant := s.modes.haltWant ||| 0x40 } } else s
      match a with
      | some u => { s with cel := { s.cel with
          poisoned := if u ∈ s.cel.poisoned then s.cel.poisoned else u :: s.cel.poisoned
          marked := (p, unit / 32) :: s.cel.marked } }
      | none => s
    else s
  pcFault p (if again then 2 else 1) again s

/-- Repair a row (R339); a bank with no spare row left retires the PC (R340). -/
def repairRow (p row bank : Nat) (s : State) : State :=
  let used := tabGet 0 (p * 48 + bank) s.cel.used
  let s := { s with cel := { s.cel with marked := s.cel.marked.filter (fun m => m ≠ (p, row)) } }
  if 4 ≤ used then pcFault p 3 true s
  else
    let s := { s with cel := { s.cel with used := tabPut 0 (p * 48 + bank) (used + 1) s.cel.used, repaired := (p, row) :: s.cel.repaired } }
    let left := 4 - (used + 1)
    let s := putObj Oid.cellarRepairsLeft p (min left (getObj s Oid.cellarRepairsLeft p)) s
    setSticky Oid.cellarStatus 0 0x10 (bump Oid.cellarRepairs p s)

/-! ### Test (R346) -/

/-- The PCs a test runs on: selected and not retired. -/
def testPcs (s : State) : List Nat :=
  (List.range 128).filter (fun p => isOn s Oid.cellarTestSelect p && getObj s Oid.cellarPcState p != 5)

/-- A test starts: the selected PCs are overwritten. -/
def startTest (s : State) : State :=
  (testPcs s).foldl (fun s p =>
    let part := getObj s Oid.cellarPcPartition p
    let s := if part < 3 then loseSlot part (getObj s Oid.cellarPcSlot p) s else s
    putObj Oid.cellarPcState p 8 s)
    (putObj Oid.cellarTestState 0 1 { s with cel := { s.cel with testing := testPcs s } })

/-- A test ends with the mismatches found. -/
def endTest (errs : List (Nat × Nat)) (s : State) : State :=
  let bad := errs.any (fun e => decide (e.1 ∈ s.cel.testing) && decide (0 < e.2))
  let s1 := errs.foldl (fun t e => if e.1 ∈ s.cel.testing then addObj Oid.cellarTestErrors e.1 e.2 t else t) s
  let s2 := ((List.range 128).filter (fun p => decide (p ∈ s.cel.testing) && getObj s Oid.cellarPcState p = 8)).foldl (fun t p => putObj Oid.cellarPcState p (if getObj t Oid.cellarPcPartition p = 3 then 6 else 2) t) s1
  putObj Oid.cellarTestState 0 (if bad then 3 else 2) { s2 with cel := { s2.cel with testing := [] } }

/-! ### Rows -/

/-- REFRESH_DUE (R331). -/
def execRefreshDue (p : Pc) (g : Fin 8) (s : State) : Host.Outcome State Fault Refusal :=
  if pcServes s p.val then .next (refreshDue p.val g.val s) else .next s

/-- FORCED_REFRESH (R334): the oldest refresh owed by a group under boil-over is issued. -/
def execForcedRefresh (p : Pc) (g : Fin 8) (s : State) : Host.Outcome State Fault Refusal :=
  let d := debtOf s p.val g.val
  if pcServes s p.val && deferring s p.val && decide (0 < d) then .next (forceRefresh p.val (setDebt p.val g.val (d - 1) s)) else .next s

/-- REFRESH_REPAYMENT (R335). -/
def execRefreshRepayment (p : Pc) (g : Fin 8) (s : State) : Host.Outcome State Fault Refusal :=
  let d := debtOf s p.val g.val
  if pcServes s p.val && !deferring s p.val && decide (0 < d) then .next (setDebt p.val g.val (d - 1) s) else .next s

/-- CE_THRESHOLD (R337): corrected reads of PC p since the last such command. -/
def execCeThreshold (p : Pc) (n : Word) (s : State) : Host.Outcome State Fault Refusal :=
  if pcServes s p.val then .next (correctedReads p.val n.toNat s) else .next s

/-- SPARE_FILL_COMPLETE (R341). -/
def execSpareFillComplete (p : Pc) (s : State) : Host.Outcome State Fault Refusal :=
  if getObj s Oid.cellarPcState p.val = 7 then .next (putObj Oid.cellarPcState p.val 2 s) else .next s

/-- READ_RECALIBRATION (R344): within CT slots; it changes nothing the spec lets anything observe. -/
def execReadRecalibration (_p : Pc) (s : State) : Host.Outcome State Fault Refusal := .next s

/-- CELLAR_TEST_DONE (R346). -/
def execCellarTestDone (errs : List (Pc × Word)) (s : State) : Host.Outcome State Fault Refusal :=
  if getObj s Oid.cellarTestState = 1 then .next (endTest (errs.map (fun e => (e.1.val, e.2.toNat))) s) else .next s

end Sys2Proof.Machine
end

