-- ==== Sys2Proof/Machine/Underback.lean ====
section
/-! DEFINITION. The underback of each lane (08_underback): the chain, its descriptors, commit, rewind, cut, the gap marker, the crossing, watermarks and flush; and the lane regions of the staging SRAM it feeds (R290, R291). -/

namespace Sys2Proof.Machine

open Sys2Proof

/-! ### Quad modes (R190, R191, R278) -/

/-- The mode in force of quad q: 5 when the brewhouse names it (R191). -/
def quadModeActive (s : State) (q : Nat) : Nat := if q ∈ cascadeQuads s then 5 else getObj s (quadId Oid.quadMode q)

/-- A quad whose four lanes carry one port (modes 3 and 4). -/
def isBonded (s : State) (q : Nat) : Bool := quadModeActive s q = 3 || quadModeActive s q = 4

/-- The lane that governs lane n's port and underback: 4q in a bonded quad, else n (R227, R278). -/
def govLane (s : State) (n : Nat) : Nat := if isBonded s (n / 4) then n / 4 * 4 else n

/-- 4 in a bonded quad, else 1: the unit of watermarks, levels and regions (R278, R291). -/
def ubUnit (s : State) (g : Nat) : Nat := if isBonded s (g / 4) then 4 else 1

/-- Data words the chain can hold (R258, R278). -/
def ubCap (s : State) (g : Nat) : Nat := 63 * ubUnit s g

/-! ### The chain -/

/-- The underback of governing lane g. -/
def ubOf (s : State) (g : Nat) : Ub := tabGet {} g s.lau.ub

/-- Replace the underback of governing lane g. -/
def putUb (g : Nat) (u : Ub) (s : State) : State := { s with lau := { s.lau with ub := tabPut {} g u s.lau.ub } }

/-- Data words held; a marker is not counted (R258). -/
def ubCount (u : Ub) : Nat := (u.chain.filter (fun w => w.kind != 2)).length

/-- `underback.occupancy` (R258, R278). -/
def ubOccupancy (s : State) (n : Nat) : Nat := if govLane s n = n then ubCount (ubOf s n) / ubUnit s n else 0

/-- The chain is full of data words. -/
def ubFull (s : State) (g : Nat) : Bool := decide (ubCap s g ≤ ubCount (ubOf s g))

/-- End of a lane word clock: peak, `underback.fc_active` and what its changes cause (R271, R272). -/
def ubClock (g : Nat) (s : State) : State :=
  let c := ubCount (ubOf s g)
  let u := ubUnit s g
  let s := if getObj s Oid.underbackPeak g < c / u then putObj Oid.underbackPeak g (c / u) s else s
  if getObj s Oid.underbackFcActive g = 0 && decide (getObj s Oid.underbackHigh g * u ≤ c) then
    fire (0x150 + g / 4) (setSticky Oid.underbackStatus g 8 (bump Oid.underbackHighCrossings g (putObj Oid.underbackFcActive g 1 s)))
  else if getObj s Oid.underbackFcActive g = 1 && decide (c ≤ getObj s Oid.underbackLow g * u) then
    fire (0x150 + g / 4) (putObj Oid.underbackFcActive g 0 s)
  else s

/-- Pass a notice to the lauter engine (R18). -/
def passNotice (n : Notice) (s : State) : State := { s with lau := { s.lau with notices := s.lau.notices ++ [n] } }

/-- The receive flow of a destination, if it is one. -/
def destFlow : Dest → Option Nat
  | .flow f => some f
  | .firmware => none
  | .exception _ => none

/-! ### Lane regions (R290, R291) -/

/-- The region of governing lane g. -/
def regionOf (s : State) (g : Nat) : Region := tabGet {} g s.lau.regions

/-- Replace the region of governing lane g. -/
def putRegion (g : Nat) (r : Region) (s : State) : State :=
  { s with lau := { s.lau with regions := tabPut {} g r s.lau.regions } }

/-- Bytes of a packet in its region: 32 for each word begun. -/
def stagedBytes (p : Staged) : Nat := (p.data.length + 31) / 32 * 32

/-- Bytes a region holds: a packet keeps its space until every placement of it has been issued (R290). -/
def regionBytes (r : Region) : Nat := (r.packets.map stagedBytes).sum + (r.owed.map (fun o => o.2)).sum

/-- A region of 1 MiB, or 4 MiB bonded, has no room for another word (R290). -/
def regionFull (s : State) (g : Nat) : Bool := decide (1048576 * ubUnit s g < regionBytes (regionOf s g) + 32)

/-- Raise or clear lauter boil-over (R291). -/
def updateBoil (s : State) : State :=
  let high := getObj s Oid.lauterStagingHigh * 1024
  let low := getObj s Oid.lauterStagingLow * 1024
  if !s.lau.boil && s.lau.regions.any (fun p => decide (high * ubUnit s p.1 ≤ regionBytes p.2)) then
    setBoil 0 1 true (fire 0x174 (setSticky Oid.lauterStatus 0 4 { s with lau := { s.lau with boil := true } }))
  else if s.lau.boil && s.lau.regions.all (fun p => decide (regionBytes p.2 ≤ low * ubUnit s p.1)) then
    setBoil 0 1 false { s with lau := { s.lau with boil := false } }
  else s

/-- Discard the provisional or unplaced words of a packet in a region. -/
def dropStaged (g pkt : Nat) (s : State) : State :=
  let r := regionOf s g
  updateBoil (putRegion g { r with packets := r.packets.filter (fun p => p.desc.pkt ≠ pkt) } s)

/-! ### Cut, rewind and flush -/

/-- Table 8.3 as the 32 bytes of the marker word. -/
def markerBytes (m : Marker) : List Byte :=
  leBytes 32 (0xA5 * 2 ^ 248 + b2n m.flowValid * 2 ^ 247 + (m.flow % 4096) * 2 ^ 232 + min m.words 0xFFFFFFFF * 2 ^ 192
    + min m.cuts 0xFFFF * 2 ^ 176 + tSec m.time * 2 ^ 112 + tNs m.time * 2 ^ 80 + tFrac m.time * 2 ^ 64)

/-- The sideband bits [7:1] of a word (Table 8.2). -/
def sideband (kind last : Nat) : Nat := kind * 64 + (if kind = 1 then last * 2 else 0)

/-- A word as a stage holds it, with its check bits and its parity (R260). -/
def stageOf (kind last : Nat) (data : List Byte) (pkt : Nat) : UbWord :=
  { kind := kind, last := last, data := data, check := Config.underbackCode data
    parity := ((List.range 8).map (fun i => b2n ((sideband kind last).testBit i))).sum % 2 = 1, pkt := pkt }

/-- The word of a gap marker in the chain. -/
def markerWord (m : Marker) : UbWord := stageOf 2 0 (markerBytes m) 0

/-- Cut the packet in progress, dropping k arriving and later words (R266 to R268). -/
def ubCut (g k : Nat) (c : UbCur) (s : State) : State :=
  let u := ubOf s g
  let chain := u.chain.filter (fun w => w.kind = 2 || w.pkt ≠ c.desc.pkt)
  let fl := destFlow c.desc.dest
  let s := match u.marker with
    | some m =>
      let m := { m with words := m.words + k, cuts := m.cuts + 1 }
      putUb g { u with chain := chain.map (fun w => if w.kind = 2 then markerWord m else w), cur := none, marker := some m } s
    | none =>
      let t := laneNow s
      let m : Marker := { pkt := c.desc.pkt, flowValid := fl.isSome, flow := fl.getD 0, words := k, cuts := 1, time := t.1 }
      bump Oid.underbackGapMarkers g (putUb g { u with chain := chain ++ [markerWord m], cur := none, marker := some m } t.2)
  let s := setSticky Oid.underbackStatus g 4 (addObj Oid.underbackWordsDropped g k (bump Oid.underbackCutPackets g s))
  passNotice { gap := true, flow := fl, lane := g, pkt := c.desc.pkt } s

/-- A rewind or a discard is counted and noticed (R263 to R265). -/
def ubDiscard (g : Nat) (d : UbDesc) (s : State) : State :=
  let u := ubOf s g
  let s := putUb g { u with
    chain := u.chain.filter (fun w => w.kind = 2 || w.pkt ≠ d.pkt)
    descs := u.descs.filter (fun e => e.pkt ≠ d.pkt)
    cur := match u.cur with
      | some c => if c.desc.pkt = d.pkt then none else some c
      | none => none } s
  passNotice { gap := false, flow := destFlow d.dest, lane := g, pkt := d.pkt }
    (bump Oid.underbackRewound g s)

/-- A bad packet is rewound (R263): status bit 0, which a discard under R264 leaves (DEDUCED, log entry 122). -/
def ubRewind (g : Nat) (d : UbDesc) (s : State) : State := ubDiscard g d (setSticky Oid.underbackStatus g 1 s)

/-- Pass a rewind notice for every packet of a list, and count it flushed (R277). -/
def flushNotices (g : Nat) : List UbDesc → State → State
  | [], s => s
  | d :: t, s =>
    let s := setSticky Oid.underbackStatus g 0x10 (bump Oid.underbackFlushedPackets g s)
    flushNotices g t (passNotice { gap := false, flow := destFlow d.dest, lane := g, pkt := d.pkt } s)

/-- A flush of governing lane g (R275, R277): the rest of a packet in progress is dropped. -/
def ubFlush (g : Nat) (s : State) : State :=
  let u := ubOf s g
  let partDesc := match u.cur with
    | some c => if c.drop then [] else [c.desc]
    | none => []
  let s := putUb g { u with
    chain := [], descs := [], marker := none
    cur := u.cur.map (fun c => { c with drop := true }) } s
  ubClock g (flushNotices g (u.descs ++ partDesc) s)

/-- A lane that is governed by another takes part in the combined FIFO's flush. -/
def ubFlushLane (n : Nat) (s : State) : State := ubFlush (govLane s n) s

/-- The packet in progress on a lane that leaves state 7 is rewound (R263, R281). -/
def ubLaneLost (g : Nat) (s : State) : State :=
  match (ubOf s g).cur with
  | none => s
  | some c => if c.drop then putUb g { ubOf s g with cur := none } s else ubClock g (ubRewind g c.desc s)

/-- Empty an underback without notices (R281). -/
def ubEmpty (g : Nat) (s : State) : State := ubClock g (putUb g { nextPkt := (ubOf s g).nextPkt, lastRead := (ubOf s g).lastRead } s)

/-- The underback of a retired lane is empty (R281): the packet in progress is rewound, the committed ones go without notice, and so do their words that the crossing has taken. -/
def ubRetire (g : Nat) (s : State) : State :=
  let s := ubLaneLost g s
  ubEmpty g ((ubOf s g).descs.foldl (fun s d => dropStaged g d.pkt s) s)

/-- Every underback is empty, and its lane's region with it: the mode passes no frame (R280). -/
def emptyUnderbacks (s : State) : State :=
  let s := (List.range 64).foldl (fun s n => if (ubOf s n) = {} then s else ubEmpty n s) s
  updateBoil { s with lau := { s.lau with regions := s.lau.regions.map (fun r => (r.1, { r.2 with packets := [], markers := [] })) } }

/-! ### The crossing (R264, R269, R270) -/

/-- Take a word into the lane region; the last word of a committed packet makes it ready. -/
def stageWord (g : Nat) (w : UbWord) (d : UbDesc) (s : State) : State :=
  let r := regionOf s g
  let bytes := if w.kind = 1 then w.data.take (w.last + 1) else w.data
  let old := ((r.packets.find? (fun p => p.desc.pkt = d.pkt)).map (fun p => p.data)).getD []
  let new : Staged := { desc := d, data := old ++ bytes, ready := decide (w.kind = 1) }
  updateBoil (putRegion g { r with packets := r.packets.filter (fun p => p.desc.pkt ≠ d.pkt) ++ [new] } s)

/-- Count a corrected error in the descriptor of a packet (R261). -/
def correctDesc (pkt : Nat) (u : Ub) : Ub :=
  let f (d : UbDesc) : UbDesc := if d.pkt = pkt then { d with corrected := d.corrected + 1 } else d
  { u with descs := u.descs.map f, cur := u.cur.map (fun c => { c with desc := f c.desc }) }

/-- The descriptor of the packet a word belongs to: written, or still in progress. -/
def wordDesc (u : Ub) (pkt : Nat) : Option UbDesc :=
  match u.descs.find? (fun d => d.pkt = pkt) with
  | some d => some d
  | none => match u.cur with
    | some c => if c.desc.pkt = pkt then some c.desc else none
    | none => none

/-- What the check of a word that is read counts (R264). -/
def countCheck (g : Nat) (chk : WordCheck) (s : State) : State :=
  match chk with
  | .clean => s
  | .corrected => bump Oid.underbackEccCorrected g s
  | .uncorrectable => setSticky Oid.underbackStatus g 0x20 (bump Oid.underbackEccUncorrected g s)
  | .parity => setSticky Oid.underbackStatus g 0x20 (bump Oid.underbackParityErrors g s)

/-- The word read can be used. -/
def WordCheck.ok (chk : WordCheck) : Bool := chk = .clean || chk = .corrected

/-- The crossing reads the front of the chain, with what its check found (R264, R269, R270). A full region stops it (R290). A marker that fails its check does not travel on. -/
def crossRead (g : Nat) (chk : WordCheck) (s : State) : State :=
  let u := ubOf s g
  match u.chain with
  | [] => setSticky Oid.underbackStatus g 2 (bump Oid.underbackUnderruns g s)
  | w :: rest =>
    let u' : Ub := { u with chain := rest, lastRead := w }
    if w.kind = 2 then
      let r := regionOf s g
      let s := countCheck g chk (putUb g { u' with marker := none } s)
      match u.marker with
      | some m => if WordCheck.ok chk then putRegion g { r with markers := r.markers ++ [(m.pkt, w.data)] } s else s
      | none => s
    else if regionFull s g then s
    else
      match wordDesc u w.pkt with
      | none => countCheck g chk (putUb g u' s)
      | some d =>
        if WordCheck.ok chk then
          let u' := if chk = .corrected then correctDesc w.pkt u' else u'
          stageWord g w { d with corrected := d.corrected + b2n (chk = .corrected) }
            (countCheck g chk (putUb g { u' with descs := if w.kind = 1 then u'.descs.filter (fun e => e.pkt ≠ w.pkt) else u'.descs } s))
        else ubDiscard g d (countCheck g chk (putUb g u' s))

/-! ### Words arriving (R262, R266) -/

/-- Write one word at the back of the chain. -/
def writeWord (g : Nat) (w : UbWord) (s : State) : State := putUb g { ubOf s g with chain := (ubOf s g).chain ++ [w] } s

/-- Write a word of the packet in progress that is not its last: when the chain is full the crossing takes a word, or the packet is cut. -/
def feedWord (g : Nat) (b : List Byte) (c : UbCur) (left : Nat) (s : State) : State :=
  let w := stageOf 0 0 b c.desc.pkt
  if !ubFull s g then ubClock g (writeWord g w s)
  else
    let s := crossRead g .clean s
    if ubFull s g then ubClock g (ubCut g (left + 1) c s) else ubClock g (writeWord g w s)

/-- Whether the packet pkt is still in progress and not being dropped. -/
def ubInProgress (s : State) (g pkt : Nat) : Bool :=
  match (ubOf s g).cur with
  | some c => c.desc.pkt = pkt && !c.drop
  | none => false

/-- Write every word but the last of a list; stops when the packet is cut. -/
def feedAll (g : Nat) (c : UbCur) : List (List Byte) → State → State
  | [], s => s
  | [_], s => s
  | b :: b' :: t, s =>
    if ubInProgress s g c.desc.pkt then feedAll g c (b' :: t) (feedWord g b c (b' :: t).length s) else s

/-- The packet in progress, with its words but the last written. -/
def feedCur (g : Nat) (c : UbCur) (s : State) : State := feedAll g c c.todo s

/-- When the chain is full as a last word arrives, the crossing takes a word if it can. -/
def makeRoom (g : Nat) (s : State) : State := if ubFull s g then crossRead g .clean s else s

/-- The last word of a good packet is written with its descriptor: the packet commits (R261, R262). -/
def commitLast (g : Nat) (c : UbCur) (s : State) : State :=
  let b := c.todo.getLastD []
  let w := stageOf 1 ((c.desc.len + 31) % 32) (padTo 32 b) c.desc.pkt
  let s := makeRoom g s
  if ubFull s g then ubClock g (ubCut g 1 c s)
  else
    let u := ubOf s g
    let d := (u.cur.map (fun c => c.desc)).getD c.desc
    let s := bump Oid.underbackPackets g (putUb g { u with chain := u.chain ++ [w], descs := u.descs ++ [d], cur := none } s)
    let s := match destFlow c.desc.dest with | some f => bump Oid.flowRxPackets f s | none => s
    ubClock g s

/-- The end of the packet in progress on governing lane g: commit when good, rewind when bad, nothing when it is being dropped. -/
def ubFinish (g : Nat) (s : State) : State :=
  match (ubOf s g).cur with
  | none => s
  | some c =>
    if c.drop then putUb g { ubOf s g with cur := none } s
    else
      let s1 := feedCur g c s
      if !ubInProgress s1 g c.desc.pkt then s1
      else if c.bad then
        let s2 := makeRoom g s1
        if ubFull s2 g then ubClock g (ubCut g 1 c s2) else ubClock g (ubRewind g c.desc s2)
      else commitLast g c s1

/-- Words of 32 bytes of a stored frame (R259); the last is as long as the frame leaves it. -/
def frameWords : Nat → List Byte → List (List Byte)
  | 0, _ => []
  | n + 1, b => b.take 32 :: frameWords n (b.drop 32)

/-- A frame starts to arrive at the back of lane g's chain; a packet still in progress ends first. -/
def ubStart (g : Nat) (dest : Dest) (stored : List Byte) (ts : Nat) (bad loop : Bool) (pri : Nat) (s : State) : State :=
  let s := ubFinish g s
  let u := ubOf s g
  let d : UbDesc := { pkt := u.nextPkt, dest := dest, ts := ts, len := stored.length, loop := loop, pri := pri }
  putUb g { u with
    nextPkt := u.nextPkt + 1
    cur := some { desc := d, todo := frameWords ((stored.length + 31) / 32) stored, bad := bad, drop := false } } s

/-! ### FC_OUT (R273) -/

/-- Lane n's receiver is enabled in the quad mode in force (R194). -/
def laneEnabled (s : State) (n : Nat) : Bool :=
  match quadModeActive s (n / 4) with
  | 0 => false
  | 1 => getLane s Oid.laneEnable n = 1
  | 2 => getLane s Oid.laneEnable n = 1
  | 6 => getLane s Oid.laneEnable n = 1
  | _ => true

/-- Whether FC_OUT[q] is asserted by R273, in the modes in which it follows the watermarks. -/
def fcAsserted (s : State) (q : Nat) : Bool :=
  match getObj s Oid.underbackFcForce q with
  | 0 => (List.range 4).any (fun i => govLane s (4 * q + i) = 4 * q + i && getObj s Oid.underbackFcActive (4 * q + i) = 1 && laneEnabled s (4 * q + i))
  | 1 => true
  | _ => false

/-! ### Rows -/

/-- PACKET_COMMIT (R262): the packet in progress ends; only a good one commits. -/
def execPacketCommit (n : Lane) (s : State) : Host.Outcome State Fault Refusal :=
  let g := govLane s n.val
  match (ubOf s g).cur with
  | some c => if c.bad then .next s else .next (ubFinish g s)
  | none => .next s

/-- PACKET_REWIND (R263): the packet in progress is bad at its last word. -/
def execPacketRewind (n : Lane) (s : State) : Host.Outcome State Fault Refusal :=
  let g := govLane s n.val
  match (ubOf s g).cur with
  | some c => if c.bad then .next (ubFinish g s) else .next s
  | none => .next s

/-- Write words until the chain is full or only the last is left, the crossing taking none. -/
def fillChain (g : Nat) (c : UbCur) : List (List Byte) → State → State × List (List Byte)
  | [], s => (s, [])
  | [b], s => (s, [b])
  | b :: b' :: t, s =>
    if ubFull s g then (s, b :: b' :: t)
    else fillChain g c (b' :: t) (ubClock g (writeWord g (stageOf 0 0 b c.desc.pkt) s))

/-- CHAIN_FULL_CUT (R266): words of the packet in progress arrive while the crossing takes none, until one finds the chain full. -/
def execChainFullCut (n : Lane) (s : State) : Host.Outcome State Fault Refusal :=
  let g := govLane s n.val
  match (ubOf s g).cur with
  | none => .next s
  | some c =>
    if c.drop then .next s
    else
      let r := fillChain g c c.todo s
      if ubFull r.1 g then .next (ubClock g (ubCut g r.2.length c r.1)) else .next s

/-- A clock of the chain in which the crossing takes the front and a word of the packet in progress arrives behind it: there is room for the word when the crossing takes a data word, or the packet is cut (R258, R266, Table 8.4). An empty chain gives the crossing the word itself. -/
def ubStep (g : Nat) (chk : WordCheck) (b : List Byte) (rest : List (List Byte)) (s : State) : State :=
  let arrive (s : State) : State :=
    match (ubOf s g).cur with
    | none => s
    | some c =>
      if ubFull s g then ubCut g (rest.length + 1) c s
      else writeWord g (stageOf 0 0 b c.desc.pkt) (putUb g { ubOf s g with cur := some { c with todo := rest } } s)
  if (ubOf s g).chain.isEmpty then crossRead g chk (arrive s) else arrive (crossRead g chk s)

/-- CROSSING_READ (R269): the crossing takes the front; a word of the packet in progress arrives in the clock, if one is due that is not its last. -/
def execCrossingRead (n : Lane) (chk : WordCheck) (s : State) : Host.Outcome State Fault Refusal :=
  let g := govLane s n.val
  .next (ubClock g (match (ubOf s g).cur with
    | some { todo := b :: b' :: t, drop := false, .. } => ubStep g chk b (b' :: t) s
    | _ => crossRead g chk s))

end Sys2Proof.Machine
end

