-- ==== Sys2Proof/Machine/Lanes.lean ====
section
/-! DEFINITION. Serial lanes and quads (06_lanes): bring-up, block lock, loss of signal and lock, PRBS, faults, retry and retirement; and the up state of a port that its lanes decide (R230). -/

namespace Sys2Proof.Machine

open Sys2Proof

/-! ### State of a lane, a port and a quad -/

/-- Lane n beside its objects. -/
def laneX (s : State) (n : Nat) : LaneX := tabGet {} n s.lp.lanes

/-- Replace it. -/
def putLaneX (n : Nat) (x : LaneX) (s : State) : State := { s with lp := { s.lp with lanes := tabPut {} n x s.lp.lanes } }

/-- Port p beside its objects. -/
def portX (s : State) (p : Nat) : PortX := tabGet {} p s.lp.ports

/-- Replace it. -/
def putPortX (p : Nat) (x : PortX) (s : State) : State := { s with lp := { s.lp with ports := tabPut {} p x s.lp.ports } }

/-- A lane is retired, itself or with its cascade quad (R219, R221, R506). -/
def laneRetired (s : State) (n : Nat) : Bool :=
  isRetired s (resLane n) || (quadModeActive s (n / 4) = 5 && isRetired s (resCascade (n / 4)))

/-- `lane.state` (Table 6.2). -/
def laneState (s : State) (n : Nat) : Nat := if laneRetired s n then 8 else getLane s Oid.laneState n

/-- The four lanes of quad q. -/
def quadLanes (q : Nat) : List Nat := (List.range 4).map (fun i => 4 * q + i)

/-! ### The up state of a port (R227, R228, R230) -/

/-- An index that names a port in the quad mode in force (R227). -/
def portExists (s : State) (p : Nat) : Bool :=
  match quadModeActive s (p / 4) with
  | 1 => true
  | 2 => true
  | 3 => p % 4 = 0
  | 4 => p % 4 = 0
  | _ => false

/-- The FEC codes Table 7.1 allows in a quad mode. -/
def fecAllowed (mode code : Nat) : Bool :=
  match mode with
  | 1 => decide (code < 2)
  | 2 => decide (code < 3)
  | 3 => decide (code < 2)
  | 4 => code = 2
  | _ => false

/-- The default FEC of a quad mode (Table 7.1). -/
def fecDefault (mode : Nat) : Nat := if mode = 4 then 2 else 0

/-- The stored FEC code of a port; 0xFF stands for the default of the mode in force. -/
def fecStored (s : State) (p : Nat) : Nat :=
  let v := getObj s Oid.portFec p
  if v = 0xFF then fecDefault (quadModeActive s (p / 4)) else v

/-- The FEC a port runs with (R228). -/
def fecActive (s : State) (p : Nat) : Nat :=
  let m := quadModeActive s (p / 4)
  if fecAllowed m (fecStored s p) then fecStored s p else fecDefault m

/-- The lanes of a port. -/
def portLanes (s : State) (p : Nat) : List Nat := if isBonded s (p / 4) then quadLanes (p / 4) else [p]

/-- A port in service with every lane in state 7, and the FEC or PCS lock it needs (R230). -/
def portLocked (s : State) (p : Nat) : Bool :=
  portExists s p && !isRetired s (resPort p) && (portLanes s p).all (fun n => laneState s n = 7)
    && ((portX s p).aligned || (fecActive s p = 0 && !isBonded s (p / 4)))

/-- R230. -/
def portUp (s : State) (p : Nat) : Bool :=
  let x := portX s p
  portLocked s p && !x.hiBer && !x.localF && !x.remoteF

/-- What the port's fault signalling says: 3 local fault, 1 remote fault, 2 idle only, 0 frames (R230, R231). -/
def portSignal (s : State) (p : Nat) : Nat :=
  let x := portX s p
  if !portExists s p then 0
  else if isRetired s (resPort p) then 3
  else if x.localF then 1
  else if x.remoteF then 2
  else 0

/-- Act on a change of up state or of signalling (R230); frames held back go with a port that is no longer up. -/
def updatePort (p : Nat) (s : State) : State :=
  let x := portX s p
  let up := portUp s p
  let sig := portSignal s p
  let s := putPortX p { x with up := up, signal := sig, waiting := if up then x.waiting else [] } s
  let s := if sig = x.signal then s else emit (.faultSignal p sig) s
  if up = x.up then s else fire (0x140 + p / 4) s

/-- The port of a lane acts on a change of the lane. -/
def updateLanePort (n : Nat) (s : State) : State := updatePort (govLane s n) s

/-- Alignment and hi_ber of a port start anew: its lanes have left state 7, or its PCS and FEC restart (R231). -/
def dropAlign (p : Nat) (hi : Bool) (s : State) : State :=
  putPortX p { portX s p with aligned := false, hiBer := hi } s

/-! ### State changes -/

/-- The highest tap (R203). -/
abbrev tapCount : Nat := 12

/-- Taps 1 to e read 0 (R203). -/
def zeroTaps (n : Nat) : Nat → State → State
  | 0, s => s
  | e + 1, s => putLane (Oid.laneDfeTap + (e + 1)) n 0 (zeroTaps n e s)

/-- A lane beside its objects as it leaves state `old` for `st`: what a state forgets (R196, R201 to R203, R214, R218). -/
def enterX (old st : Nat) (x : LaneX) : LaneX :=
  let x := if st = 6 && old != 6 then { x with good := 0, bad := 0, seen := 0, fill := 0, slip := false } else x
  let x := if st = 7 then { x with relock := false } else x
  let x := if st = 1 then x else { x with waitRef := false }
  let x := if 5 ≤ st && st ≤ 7 || st = 10 then x else { x with cdr := false }
  let x := if st = 10 then { x with held := old = 10 && x.held || old = 6 || old = 7 }
    else if 3 ≤ st && st ≤ 6 then x else { x with held := false }
  if st = 9 then x else { x with reg := [], run := 0, win := 0, winErr := 0, gen := [] }

/-- Enter a state of Table 6.2, with what leaving and entering it clears (R196, R203, R204, R214, R263); state 5 adapts the taps from zero but on a warm resume. -/
def setLaneState (n st : Nat) (s : State) : State :=
  let old := getLane s Oid.laneState n
  let x := laneX s n
  let s := putLane Oid.laneState n st s
  let s := if st = 5 || st = 7 || st = 10 then s else putLane Oid.laneEyeWidth n 0 (putLane Oid.laneEfom n 0 s)
  let s := if st = 7 || (st = 6 && old = 6) then s else putLane Oid.laneBlockLock n 0 s
  let s := if st = 5 && !x.held then zeroTaps n tapCount s else s
  let s := if st = 9 then s else putLane Oid.lanePrbsLock n 0 s
  let s := putLaneX n (enterX old st x) s
  let s := if st = 7 && old != 7 then bumpLane Oid.laneLinkUps n s else s
  let s := if old = 7 && st != 7 then dropAlign (govLane s n) false (ubLaneLost (govLane s n) s) else s
  updateLanePort n s

/-- State 3; with the signal present its step is finished at once (R200). -/
def enterSignalWait (n : Nat) (s : State) : State :=
  let s := setLaneState n 3 s
  if getLane s Oid.laneSignal n = 1 then setLaneState n 4 s else s

/-- A lane Diagnostic puts into state 9 (Table 6.6, R212). -/
def laneTests (s : State) (n : Nat) : Bool :=
  getLane s Oid.lanePrbsGen n != 0 || getLane s Oid.lanePrbsChk n != 0 || getLane s Oid.laneLoopback n != 0

/-- The state Table 6.6 gives a lane that is not retired: 0, 9, 10, or 7 for the bring-up of R201. -/
def laneGoal (s : State) (n : Nat) : Nat :=
  let qm := quadModeActive s (n / 4)
  let runs := laneEnabled s n
  if qm = 5 then (match s.modes.current with | .cold => 0 | .boot => 0 | _ => 7)
  else if !runs then 0
  else match s.modes.current with
    | .cold => 0
    | .boot => 0
    | .halt => 0
    | .dormant => if getObj s Oid.modesLanesWarm = 1 && qm != 6 then 10 else 0
    | .limp => if n = 0 && (qm = 1 || qm = 2) then 7 else 0
    | .diagnostic => if laneTests s n then 9 else if qm = 6 then 0 else 7
    | _ => if qm = 6 then 0 else 7

/-- Whether the quad PLL is locked. -/
def pllLocked (s : State) (q : Nat) : Bool := isOn s (quadId Oid.quadPllLocked q)

/-- What follows PLL lock: state 9 for a lane under test, 10 in warm Dormant, else the self-check of state 2 (R200). -/
def afterPll (n : Nat) (s : State) : State :=
  setLaneState n (if laneGoal s n = 9 then 9 else if laneGoal s n = 10 then 10 else 2) s

/-- A lane runs from state 2, or from state 1 where the step of state 1 is not finished (R200). -/
def selfCheck (n : Nat) (s : State) : State :=
  let s := setLaneState n 3 s
  if pllLocked s (n / 4) then setLaneState n 2 s else setLaneState n 1 s

/-- The reference of quad q in the mode in force: 0 to 15 QREF_P/N[q], 16 BH_REFCLK_P/N (R209, R210). -/
def quadRef (s : State) (q : Nat) : Nat := if quadModeActive s q = 5 then 16 else q

/-- That reference is lost (R223). -/
def refIsLost (s : State) (q : Nat) : Bool := tabGet false (quadRef s q) s.lp.refLost

/-- A reference is found in range, or lost. -/
def putRef (r : Nat) (seen lost : Bool) (s : State) : State :=
  { s with lp := { s.lp with refSeen := tabPut false r seen s.lp.refSeen, refLost := tabPut false r lost s.lp.refLost } }

/-- `quad.ref_present` (Table 6.7). -/
def refPresent (s : State) (q : Nat) : Nat := b2n (tabGet false q s.lp.refSeen) + 2 * b2n (tabGet false 16 s.lp.refSeen)

/-- The quad PLL stops when no lane of the quad needs it. -/
def settlePll (q : Nat) (s : State) : State :=
  if (quadLanes q).all (fun n => laneState s n = 0 || laneState s n = 8) then
    putObj (quadId Oid.quadRateActual q) 0 0 (putObj (quadId Oid.quadPllLocked q) 0 0 s)
  else s

/-! ### Faults, retry and retirement (R217 to R224) -/

/-- Order of causes detected in one tick (R224). -/
def laneRank : Nat → Nat
  | 8 => 0 | 7 => 1 | 6 => 2 | 1 => 3 | 2 => 4 | 3 => 5 | 5 => 6 | _ => 7

/-- The class of a cause (Table 6.5). -/
def lanePermanent (c : Nat) : Bool := c = 6 || c = 7

/-- Record a fault that retires nothing (R220): log and history only. -/
def recordNoRetire (res cause : Nat) (permanent : Bool) (s : State) : State :=
  let recent := s.time.ticks :: recentFaults s res
  let s := { s with flt := { s.flt with history := tabPut [] res recent s.flt.history } }
  addLog res cause (b2n permanent) 1 recent.length s

/-- What the retirement of a cascade quad takes with it (R41, R506): its four lanes, and on the upstream quad the lock. -/
def cascadeLanesOut (q : Nat) (s : State) : State :=
  let s := (quadLanes q).foldl (fun s n => setLaneState n 8 s) s
  if getObj s Oid.timeBhUpstream = q then setBhLocked false { s with time := { s.time with cutOff := true } } else s

/-- A cascade quad is retired for its lane (R221, Table 17.1), and its lanes with it; an upstream quad loses lock (R41). -/
def retireCascade (q : Nat) (s : State) : State :=
  if isRetired s (resCascade q) then s
  else
    cascadeLanesOut q (addRetired (resCascade q) 2 2 (addLog (resCascade q) 2 1 2 1 s))

/-- Lane n is retired for a reason of `lane.retire_cause` (R219): its underback is empty (R281), and its port's open frames close (Table 9.3). -/
def laneOut (n why : Nat) (s : State) : State :=
  let s := putLane Oid.laneRetireCause n why (stickyLane Oid.laneStatus n 0x40 s)
  let s := stopPort (govLane s n) (ubRetire (govLane s n) (setLaneState n 8 s))
  settlePll (n / 4) (if quadModeActive s (n / 4) = 5 then retireCascade (n / 4) s else s)

/-- The other lanes of a bonded or cascade quad that are not re-locking already re-lock with lane n (R221). -/
def relockOthers (n : Nat) (s : State) : State :=
  let qm := quadModeActive s (n / 4)
  if qm = 3 || qm = 4 || qm = 5 then
    (quadLanes (n / 4)).foldl (fun s k =>
      let st := laneState s k
      if k ≠ n ∧ 2 ≤ st ∧ st ≤ 7 ∧ !(laneX s k).relock then
        let s := bumpLane Oid.laneRelocks k (selfCheck k s)
        putLaneX k { laneX s k with relock := true, pulled := some s.time.ticks } s
      else s) s
  else s

/-- The retry of a cause, which is a re-lock: from state 2; from state 3 for loss of signal, and state 1 for a lost reference (R208, R218, R223). -/
def relockLane (n cause : Nat) (s : State) : State :=
  let s := bumpLane Oid.laneRelocks n s
  if cause = 8 then putLaneX n { laneX s n with waitRef := true, relock := true } (setLaneState n 1 s)
  else
    let s := if cause = 1 then setLaneState n 3 s else selfCheck n s
    relockOthers n (putLaneX n { laneX s n with relock := true } s)

/-- Lane n has recorded a fault in this tick (R224). -/
def faultedNow (s : State) (n : Nat) : Bool := faultedTick s (resLane n)

/-- The cascade quad of lane n was retired in this tick. -/
def cascadeOutNow (s : State) (q : Nat) : Bool := s.flt.retired.any (fun r => r.res = resCascade q && r.time = now s)

/-- A cascade quad retired for a cause that was only the consequence of a lost reference is in service (R224): its lanes wait for the reference. -/
def cascadeBack (n : Nat) (s : State) : State :=
  let q := n / 4
  if cascadeOutNow s q then
    let s := dropRetired (resCascade q) { s with time := { s.time with cutOff := false } }
    (quadLanes q).foldl (fun s k => if k ≠ n ∧ !laneRetired s k then setLaneState k 1 s else s) s
  else s

/-- A further detection in the tick of a recorded fault (R224): the cause earlier in the order names the fault. -/
def sameTickFault (n cause : Nat) (s : State) : State :=
  let old := getLane s Oid.laneFaultCause n
  if laneRank old ≤ laneRank cause then s
  else
    let s := putLane Oid.laneFaultCause n cause s
    let perm := lanePermanent cause
    let wasPerm := lanePermanent old
    let keeps := s.modes.current = .diagnostic
    let act := if perm && !keeps then 2 else 1
    let s := relabelFault (resLane n) cause (b2n perm) act s
    if wasPerm && !perm then
      let hist := tabGet [] (resLane n) s.flt.history
      let s := dropRetired (resLane n) s
      let s := { s with flt := { s.flt with history := tabPut [] (resLane n) hist s.flt.history } }
      relockLane n cause (cascadeBack n (putLane Oid.laneRetireCause n 0 s))
    else if perm && !wasPerm && !keeps then
      if isRetired s (resLane n) then putLane Oid.laneRetireCause n 2 s
      else laneOut n 2 (addRetired (resLane n) cause 2 s)
    else if laneRetired s n then s
    else relockLane n cause s

/-- Record a fault of a lane that is not retired and start its retry, or retire the lane (R217 to R221). -/
def recordLaneFault (n cause : Nat) (s : State) : State :=
  let s := fire (0x100 + n) (putLane Oid.laneFaultCause n cause (bumpLane Oid.laneFaults n s))
  if s.modes.current = .diagnostic then relockLane n cause (recordNoRetire (resLane n) cause (lanePermanent cause) s)
  else
    match recordFault (resLane n) cause (lanePermanent cause) s with
    | (s, .retire) => relockOthers n (laneOut n (if lanePermanent cause then 2 else 1) s)
    | (s, .retry) => relockLane n cause s
    | (s, .counted) => s
    | (s, .absorbed) => s

/-- A fault detected on lane n: named anew where the tick has recorded one (R224); not recorded on a retired lane, nor for causes 1 to 4 during a re-lock, but in the tick in which another lane began it (R218, R225). -/
def laneFault (n cause : Nat) (s : State) : State :=
  let x := laneX s n
  if faultedNow s n then sameTickFault n cause s
  else if laneRetired s n then s
  else if x.relock && x.pulled != some s.time.ticks && decide (1 ≤ cause) && decide (cause ≤ 4) then
    (if cause = 1 then setLaneState n 3 s else s)
  else recordLaneFault n cause s

/-- Start a lane from state 1 (R200); with the PLL locked its step is finished; without its reference it records cause 8 and waits (R223). -/
def startLane (n : Nat) (s : State) : State :=
  let s := putLaneX n { laneX s n with relock := false } (setLaneState n 1 s)
  if refIsLost s (n / 4) then laneFault n 8 s
  else if pllLocked s (n / 4) then afterPll n s else s

/-- A lane leaves state 10: a warm resume skips states 1 and 2; a lane whose CDR and taps were never adapted runs from state 2 (R201). -/
def resumeLane (n : Nat) (s : State) : State := if (laneX s n).held then enterSignalWait n s else selfCheck n s

/-- Take a lane to what Table 6.6, R194 and its retirement ask now. -/
def relane (n : Nat) (s : State) : State :=
  let st := getLane s Oid.laneState n
  if laneRetired s n then (if st = 8 then s else setLaneState n 8 s)
  else
    let goal := laneGoal s n
    if goal = st then s
    else if goal = 0 then setLaneState n 0 s
    else if goal = 9 || goal = 10 then
      (if pllLocked s (n / 4) then setLaneState n goal s else if st = 1 then s else startLane n s)
    else if 1 ≤ st && st ≤ 7 then s
    else if st = 10 then resumeLane n s
    else startLane n s

/-- Apply `relane` to a list of lanes, then settle their quads' PLLs. -/
def relaneList (ns : List Nat) (s : State) : State :=
  let s := ns.foldl (fun s n => relane n s) s
  ns.foldl (fun s n => if n % 4 = 0 || ns.length < 4 then settlePll (n / 4) s else s) s

/-- Every lane takes the state of the mode entered (R225). -/
def relaneAll (s : State) : State := relaneList (List.range 64) s

/-- Restart from state 2 without a fault (R224). -/
def restartLane (n : Nat) (s : State) : State :=
  selfCheck n (putLaneX n { laneX s n with relock := false } s)

/-- Reinstate lane n (R222): its retirement and history are cleared, its underback is flushed (R277), and it starts from state 1. -/
def reinstateLane (n : Nat) (s : State) : State :=
  if !standsRetired s (resLane n) then s
  else
    let s := putLane Oid.laneRetireCause n 0 (dropRetired (resLane n) s)
    let s := ubFlushLane n s
    if laneRetired s n then s
    else if laneGoal s n = 0 then setLaneState n 0 s
    else startLane n s

/-- Reinstate a cascade quad (R507): its lanes start from state 1. -/
def reinstateCascade (q : Nat) (s : State) : State :=
  if !standsRetired s (resCascade q) then s
  else
    let s := dropRetired (resCascade q) s
    (quadLanes q).foldl (fun s n => if laneRetired s n || laneGoal s n = 0 then s else startLane n s) s

/-! ### Quads -/

/-- The quad mode in force of q may have changed, or `quad.mode` has been written: every lane starts from state 1 (R224); a stored FEC the new mode does not allow is overridden (R228); the underbacks start empty (R281). -/
def quadRestart (q : Nat) (s : State) : State :=
  let ns := quadLanes q
  let s := putObj (quadId Oid.quadRateActual q) 0 0 (putObj (quadId Oid.quadPllLocked q) 0 0 s)
  let s := ns.foldl (fun s n => ubEmpty n s) s
  let s := ns.foldl (fun s n =>
    if laneRetired s n then setLaneState n 8 s
    else if laneGoal s n = 0 then setLaneState n 0 s
    else startLane n s) s
  ns.foldl (fun s p =>
    let s := dropAlign p false s
    let v := getObj s Oid.portFec p
    let s := if portExists s p && v != 0xFF && !fecAllowed (quadModeActive s q) v then setSticky Oid.portStatus p 0x20 s else s
    updatePort p s) s

/-- QUAD_MODE_WRITE's effect once the value is accepted (R191, R224). -/
def setQuadMode (q v : Nat) (s : State) : State := quadRestart q (putObj (quadId Oid.quadMode q) 0 v s)

/-- The line rate in kb/s a locked PLL gives from its reference in Hz (R192); in mode 6 within 10 ppm of the request. -/
def lineRate (q ref : Nat) (s : State) : Nat × State :=
  match quadModeActive s q with
  | 1 => ((66 * ref + 500) / 1000, s)
  | 3 => ((66 * ref + 500) / 1000, s)
  | 6 =>
    let want := getObj s (quadId Oid.quadDiagRate q)
    let d := want / 100000
    let c := takeChoice (2 * d + 1) s
    (want - d + c.1, c.2)
  | _ => ((165 * ref + 500) / 1000, s)

/-! ### The hunt (R196) -/

/-- One 66-bit block header while hunting or locked; the counters and whether the lane is locked after it. -/
def huntStep (h : BitVec 2) (x : LaneX) (locked : Bool) : LaneX × Bool × Bool :=
  let valid := h = 1#2 || h = 2#2
  if !locked then
    let good := if valid then x.good + 1 else 0
    if good = 64 then ({ x with good := good, bad := 0, seen := 0 }, true, false) else ({ x with good := good }, false, false)
  else
    let seen := x.seen + 1
    let bad := if valid then x.bad else x.bad + 1
    if bad = 16 then ({ x with good := 0, bad := bad, seen := seen }, false, !valid)
    else if seen = 64 then ({ x with bad := 0, seen := 0 }, true, !valid)
    else ({ x with bad := bad, seen := seen }, true, !valid)

/-- A lane of a bonded or cascade quad waits in state 6 for alignment, unless a lane of the quad is retired (R198, R221). -/
def waitsForAlignment (s : State) (n : Nat) : Bool :=
  let qm := quadModeActive s (n / 4)
  (qm = 3 || qm = 4 || qm = 5) && !(quadLanes (n / 4)).any (fun k => laneRetired s k)

/-! ### The block stream (R195, R196) -/

/-- One payload bit through the self-synchronous descrambler 1 + x^39 + x^58: the register holds the last 58 line bits (R195). -/
def descrambleBit (reg : Nat) (b : Bool) : Bool × Nat :=
  (b != (reg.testBit 38 != reg.testBit 57), (2 * reg + b2n b) % 2 ^ 58)

/-- One payload bit through the scrambler: what goes on the line joins the register (R195). -/
def scrambleBit (reg : Nat) (b : Bool) : Bool × Nat :=
  let l := b != (reg.testBit 38 != reg.testBit 57)
  (l, (2 * reg + b2n l) % 2 ^ 58)

/-- Descramble bits, first bit first, into a number with the first at bit 0. -/
def descramble : Nat → List Bool → Nat × Nat
  | reg, [] => (0, reg)
  | reg, b :: t =>
    let d := descrambleBit reg b
    let r := descramble d.2 t
    (b2n d.1 + 2 * r.1, r.2)

/-- Scramble n bits of a payload, bit 0 first, into line bits. -/
def scramble : Nat → Nat → Nat → List Bool × Nat
  | 0, reg, _ => ([], reg)
  | n + 1, reg, v =>
    let l := scrambleBit reg (v.testBit 0)
    let r := scramble n l.2 (v / 2)
    (l.1 :: r.1, r.2)

/-- The 66 line bits of a block, bit 0 first: the header, 01 for data and 10 for control, not scrambled, and the scrambled payload; and the scrambler after it (R195). PRESUMED (entry 145): the left digit of the header is its first bit on the line. -/
def blockBits (reg : Nat) (b : RxBlock) : List Bool × Nat :=
  let r := scramble 64 reg b.payload
  ([b.control, !b.control] ++ r.1, r.2)

/-- A cascade alignment marker: not scrambled, and not passed on (R248). -/
def isMarker (payload : Nat) : Bool :=
  (List.range 4).any (fun l => decide (payload = leNat (markerBytesOf l)))

/-- Take one bit of the line into the block at the candidate position; true when it completes the block. A slip passes one bit over (R196). -/
def takeBit (b : Bool) (x : LaneX) : LaneX × Bool :=
  if x.slip then ({ x with slip := false }, false)
  else if x.fill = 0 then ({ x with fill := 1, head := b, payload := 0 }, false)
  else if x.fill = 1 then ({ x with fill := 2, control := x.head, valid := x.head != b }, false)
  else
    let x := { x with payload := x.payload + b2n b * 2 ^ (x.fill - 2) }
    if x.fill = 65 then ({ x with fill := 0 }, true) else ({ x with fill := x.fill + 1 }, false)

/-- Bits of a payload, bit 0 first. -/
def payloadBits (v : Nat) : List Bool := (List.range 64).map (fun i => v.testBit i)

/-- A whole block at the candidate position: the hunt of R196, the slip, and, while locked, the block passed on. -/
def wholeBlock (cascade : Bool) (x : LaneX) (locked : Bool) : LaneX × Bool × Bool :=
  let r := huntStep (if !x.valid then 0#2 else if x.control then 2#2 else 1#2) x locked
  let y := r.1
  let slips := !y.valid && (!locked || !r.2.1)
  let y := { y with slip := slips }
  if cascade && y.control && isMarker y.payload then (y, r.2.1, r.2.2)
  else
    let d := descramble y.descr (payloadBits y.payload)
    ({ y with descr := d.2, block := if locked && r.2.1 && y.valid then some { control := y.control, payload := d.1 } else y.block }, r.2.1, r.2.2)

/-- What a run of bits has come to: the lane beside its objects, whether it is locked, its invalid headers, and the bits left when the lock changed. -/
structure HuntAcc where
  x       : LaneX
  locked  : Bool
  invalid : Nat := 0
  rest    : List Bool := []
deriving DecidableEq, Repr

/-- Bits of the line until they end or the lock changes. -/
def huntBits (cascade : Bool) : List Bool → HuntAcc → HuntAcc
  | [], a => { a with rest := [] }
  | b :: t, a =>
    let r := takeBit b a.x
    if !r.2 then huntBits cascade t { a with x := r.1 }
    else
      let w := wholeBlock cascade r.1 a.locked
      let a' := { a with x := w.1, invalid := a.invalid + b2n w.2.2 }
      if w.2.1 = a.locked then huntBits cascade t a' else { a' with locked := w.2.1, rest := t }

/-- The hunt over the bits a lane receives in state 6 or 7 (R196); each change of lock is acted on before the bits after it, of which there are at most as many as `fuel`. -/
def lineBits (n : Nat) : Nat → List Bool → State → State
  | 0, _, s => s
  | fuel + 1, bs, s =>
    let st := laneState s n
    if bs.isEmpty || !(st = 6 || st = 7) then s
    else
      let was := getLane s Oid.laneBlockLock n = 1
      let r := huntBits (quadModeActive s (n / 4) = 5) bs { x := laneX s n, locked := was }
      let s := putLaneX n r.x s
      let s := addObj (quadId Oid.laneInvalidHeaders (n / 4)) (n % 4) r.invalid s
      let s := putLane Oid.laneBlockLock n (b2n r.locked) s
      let s :=
        if !was && r.locked then (if waitsForAlignment s n then s else setLaneState n 7 s)
        else if was && !r.locked then laneFault n 3 (stickyLane Oid.laneStatus n 4 s)
        else s
      lineBits n fuel r.rest s

/-- Bits at the receive pins as the lane takes them: `lane.rx_invert` inverts the polarity. -/
def rxBits (n : Nat) (bs : List Bool) (s : State) : List Bool := bs.map (fun b => b != (getLane s Oid.laneRxInvert n = 1))

/-! ### PRBS (R212 to R216) -/

/-- Degree and second tap of a sequence (Table 6.4). -/
def prbsPoly : Nat → Nat × Nat
  | 1 => (7, 6) | 2 => (9, 5) | 3 => (15, 14) | 4 => (23, 18) | _ => (31, 28)

/-- Whether the lane is under test: Diagnostic, state 9, a quad in modes 1 to 4 or 6 (R212). -/
def prbsActs (s : State) (n : Nat) : Bool :=
  s.modes.current = .diagnostic && laneState s n = 9 && quadModeActive s (n / 4) != 5 && quadModeActive s (n / 4) != 0

/-- What the checker has counted over a run of bits. -/
structure ChkAcc where
  x    : LaneX
  lock : Bool
  bits : Nat := 0
  errs : Nat := 0
  lost : Bool := false
deriving DecidableEq, Repr

/-- One received bit at the checker (R214): while unlocked the register takes received bits, while locked its own predictions. -/
def chkBit (n m : Nat) (b : Bool) (c : ChkAcc) : ChkAcc :=
  let x := c.x
  if x.reg.length < n then { c with x := { x with reg := b :: x.reg, run := 0 } }
  else
    let p := x.reg.getD (n - 1) false != x.reg.getD (m - 1) false
    let shift (b : Bool) : List Bool := (b :: x.reg).take n
    if !c.lock then
      if b = p then
        (if x.run + 1 = 64 then { c with x := { x with reg := shift p, run := 0, win := 0, winErr := 0 }, lock := true }
         else { c with x := { x with reg := shift p, run := x.run + 1 } })
      else { c with x := { x with reg := [b], run := 0 } }
    else
      let e := b2n (b != p)
      let err := x.winErr + e
      let c := { c with bits := c.bits + 1, errs := c.errs + e }
      if 1024 < err then { c with x := { x with reg := [], run := 0, win := 0, winErr := 0 }, lock := false, lost := true }
      else if x.win + 1 = 4096 then { c with x := { x with reg := shift p, win := 0, winErr := 0 } }
      else { c with x := { x with reg := shift p, win := x.win + 1, winErr := err } }

/-- Bits at the checker. -/
def chkRun (n : Nat) (bs : List Bool) (s : State) : State :=
  let code := getLane s Oid.lanePrbsChk n
  if code = 0 then s
  else
    let inv := getLane s Oid.lanePrbsInvert n = 1
    let p := prbsPoly code
    let c := bs.foldl (fun c b => chkBit p.1 p.2 (b != inv) c) { x := laneX s n, lock := getLane s Oid.lanePrbsLock n = 1 }
    let s := putLaneX n c.x s
    let s := putLane Oid.lanePrbsLock n (b2n c.lock) s
    let s := addObj (quadId Oid.lanePrbsBits (n / 4)) (n % 4) c.bits s
    let s := addObj (quadId Oid.lanePrbsErrors (n / 4)) (n % 4) c.errs s
    if c.lost then stickyLane Oid.laneStatus n 0x10 s else s

/-- The generator as it sends: its lane, and the bits sent, newest first. -/
structure GenAcc where
  x    : LaneX
  out  : List Bool := []
  hits : Nat := 0
deriving DecidableEq, Repr

/-- One generator bit (R213, R215): the polynomial's next bit, inverted where `lane.prbs_invert` says so and by an injection; a bit that a single and a rate injection both fall on is inverted and counted once, a single one having been counted when it was written. -/
def genBit (n m k : Nat) (inv : Bool) (a : GenAcc) : GenAcc :=
  let x := a.x
  let p := x.gen.getD (n - 1) false != x.gen.getD (m - 1) false
  let hit := decide (8 ≤ k) && decide ((x.genBits + 1) % 2 ^ k = 0)
  { x := { x with gen := (p :: x.gen).take n, genBits := x.genBits + 1, injPend := false }
    out := (p != (inv != (hit || x.injPend))) :: a.out
    hits := a.hits + b2n (hit && !x.injPend) }

/-- A number of generator bits. -/
def genBitsFor (n m k : Nat) (inv : Bool) : Nat → GenAcc → GenAcc
  | 0, a => a
  | len + 1, a => genBitsFor n m k inv len (genBit n m k inv a)

/-- A register the generator starts from: free, but never all zeros, from which no sequence comes. -/
def genSeed (n : Nat) (s : State) : List Bool × State :=
  let f := takeFree s
  (true :: (List.range (n - 1)).map (fun i => f.1.getLsbD i), f.2)

/-- The generator of lane n sends `len` bits (R213, R215). -/
def genRun (n len : Nat) (s : State) : List Bool × State :=
  let p := prbsPoly (getLane s Oid.lanePrbsGen n)
  let x := laneX s n
  let seed := if x.gen.isEmpty then genSeed p.1 s else (x.gen, s)
  let a := genBitsFor p.1 p.2 (getLane seed.2 Oid.lanePrbsInjectRate n) (getLane seed.2 Oid.lanePrbsInvert n = 1) len
    { x := { x with gen := seed.1 } }
  (a.out.reverse, addObj (quadId Oid.lanePrbsInjected (n / 4)) (n % 4) a.hits (putLaneX n a.x seed.2))

/-- What lane n sends while it receives bits (R213, R216): in far-end loopback the recovered data, else its generator's bits, else the coded stream, which the model does not carry here. -/
def testSends (n : Nat) (recovered : List Bool) (s : State) : List Bool × State :=
  if getLane s Oid.laneLoopback n = 2 then (recovered, s)
  else if getLane s Oid.lanePrbsGen n = 0 then ([], s)
  else genRun n recovered.length s

/-- A lane under test for as long as a run of bits at its pins (R213 to R216): what it sends leaves by the pins, inverted where `lane.tx_invert` says so; in near-end loopback the receiver takes that stream. -/
def testRun (n : Nat) (pins : List Bool) (s : State) : State :=
  let r := testSends n (rxBits n pins s) s
  let line := r.1.map (fun b => b != (getLane s Oid.laneTxInvert n = 1))
  let s := if r.1.isEmpty then r.2 else emit (.lineBits n line) r.2
  chkRun n (if getLane s Oid.laneLoopback n = 1 && !r.1.isEmpty then rxBits n line s else rxBits n pins s) s

/-- PRBS_INJECT's effect (R215). -/
def prbsInject (n : Nat) (s : State) : State :=
  if prbsActs s n && getLane s Oid.lanePrbsGen n != 0 && getLane s Oid.laneLoopback n != 2 then
    bumpLane Oid.lanePrbsInjected n (putLaneX n { laneX s n with injPend := true } s)
  else s

/-- PRBS_CLEAR's effect. -/
def prbsClear (n : Nat) (s : State) : State :=
  putLane Oid.lanePrbsBits n 0 (putLane Oid.lanePrbsErrors n 0 (putLane Oid.lanePrbsInjected n 0 s))

/-! ### Writes that restart lanes -/

/-- The object of a LANE_CONFIG_WRITE, in group 0x10. -/
def laneItemId : LaneItem → Nat
  | .txPre => Oid.laneTxPre | .txMain => Oid.laneTxMain | .txPost => Oid.laneTxPost | .txSwing => Oid.laneTxSwing
  | .rxInvert => Oid.laneRxInvert | .txInvert => Oid.laneTxInvert | .enable => Oid.laneEnable

/-- An accepted write of an RWD lane object or `lane.enable` (R194, R224). -/
def laneConfigured (n : Nat) (s : State) : State :=
  let st := laneState s n
  if st = 8 then s
  else if laneGoal s n = 7 && 2 ≤ st && st ≤ 7 then restartLane n s
  else relaneList [n] s

/-- An accepted write of a PRBS or loopback object (R212). -/
def testWritten (n : Nat) (s : State) : State :=
  if s.modes.current = .diagnostic then
    let s := putLane Oid.lanePrbsLock n 0 (putLaneX n { laneX s n with reg := [], run := 0, win := 0, winErr := 0, gen := [] } s)
    if laneState s n = 9 && laneGoal s n = 7 then startLane n s else relaneList [n] s
  else s

/-! ### Rows -/

/-- QUAD_PLL_LOCK (R192, R199, R200): `ref` is the frequency of the quad's reference in Hz. -/
def execQuadPllLock (q : Quad) (ref : Word) (s : State) : Host.Outcome State Fault Refusal :=
  let q := q.val
  if pllLocked s q || refIsLost s q || !(quadLanes q).any (fun n => laneState s n = 1) then .next s
  else
    let r := lineRate q ref.toNat s
    let s := putObj (quadId Oid.quadRateActual q) 0 r.1 (putObj (quadId Oid.quadPllLocked q) 0 1 r.2)
    let s := putRef (quadRef s q) true false s
    .next ((quadLanes q).foldl (fun s n => if laneState s n = 1 then afterPll n s else s) s)

/-- PLL_LOCK_TIMEOUT (R223): every enabled lane of the quad records cause 7; a cascade quad retires with the first, and all four record it. -/
def execPllLockTimeout (q : Quad) (s : State) : Host.Outcome State Fault Refusal :=
  let q := q.val
  let ns := (quadLanes q).filter (fun n => laneState s n = 1)
  if pllLocked s q || refIsLost s q || ns.isEmpty then .next s
  else
    let s := setSticky (quadId Oid.quadStatus q) 0 4 s
    .next (ns.foldl (fun s n => if faultedNow s n then sameTickFault n 7 s else recordLaneFault n 7 s) s)

/-- A quad loses its reference (R223): its PLL with it, and each running lane records cause 8 and waits in state 1; a lane retired for a consequence of it in this tick is not (R224). -/
def quadRefLost (q : Nat) (s : State) : State :=
  let s := setSticky (quadId Oid.quadStatus q) 0 (if pllLocked s q then 3 else 2) s
  let s := putObj (quadId Oid.quadRateActual q) 0 0 (putObj (quadId Oid.quadPllLocked q) 0 0 s)
  (quadLanes q).foldl (fun s n =>
    if laneState s n = 0 then s
    else if laneState s n = 8 && !faultedNow s n then s
    else laneFault n 8 s) s

/-- REFERENCE_LOST (R223, Table 6.5): QREF_P/N[0] to [15], or 16 for BH_REFCLK_P/N, is absent or out of range for every quad that clocks from it. -/
def execReferenceLost (r : Fin 17) (s : State) : Host.Outcome State Fault Refusal :=
  if tabGet false r.val s.lp.refLost then .next s
  else
    let s := putRef r.val false true s
    .next (((List.range 16).filter (fun q => quadRef s q = r.val)).foldl (fun s q => quadRefLost q s) s)

/-- REFERENCE_RETURN (R223): the reference is in range; the lanes that waited for it wait for PLL lock again. -/
def execReferenceReturn (r : Fin 17) (s : State) : Host.Outcome State Fault Refusal :=
  let qs := (List.range 16).filter (fun q => quadRef s q = r.val)
  .next ((qs.flatMap quadLanes).foldl (fun s n => putLaneX n { laneX s n with waitRef := false } s) (putRef r.val true false s))

/-- SELF_CHECK_DONE (R218). -/
def execSelfCheckDone (n : Lane) (pass : Bool) (s : State) : Host.Outcome State Fault Refusal :=
  if laneState s n.val ≠ 2 then .next s
  else if pass then .next (enterSignalWait n.val s)
  else .next (laneFault n.val 6 (stickyLane Oid.laneStatus n.val 0x20 s))

/-- SIGNAL_DETECT (R206). -/
def execSignalDetect (n : Lane) (s : State) : Host.Outcome State Fault Refusal :=
  let s := putLane Oid.laneSignal n.val 1 s
  if laneState s n.val = 3 then .next (setLaneState n.val 4 s) else .next s

/-- LOSS_OF_SIGNAL (R206, R208): detected in states 4 to 7, or with a fault of the same tick, its own or that of another lane of its quad (R224, R225). -/
def execLossOfSignal (n : Lane) (s : State) : Host.Outcome State Fault Refusal :=
  if getLane s Oid.laneSignal n.val = 0 then .next s
  else
    let s := stickyLane Oid.laneStatus n.val 1 (bumpLane Oid.laneLosCount n.val (putLane Oid.laneSignal n.val 0 s))
    let st := laneState s n.val
    if (4 ≤ st ∧ st ≤ 7) ∨ faultedNow s n.val ∨ ((laneX s n.val).pulled = some s.time.ticks ∧ 2 ≤ st ∧ st ≤ 3) then
      .next (laneFault n.val 1 s)
    else .next s

/-- CDR_LOCK (R200): ends state 4; a lane whose lock was lost during a re-lock regains it. -/
def execCdrLock (n : Lane) (s : State) : Host.Outcome State Fault Refusal :=
  let st := laneState s n.val
  if st = 4 then
    let s := setLaneState n.val 5 s
    .next (putLaneX n.val { laneX s n.val with cdr := true } s)
  else if st = 5 || st = 6 then .next (putLaneX n.val { laneX s n.val with cdr := true } s)
  else .next s

/-- CDR_LOCK_LOST (R207): in states 5 to 7, or with a fault of the same tick (R224). -/
def execCdrLockLost (n : Lane) (s : State) : Host.Outcome State Fault Refusal :=
  let st := laneState s n.val
  if (5 ≤ st ∧ st ≤ 7) ∨ faultedNow s n.val then
    let s := putLaneX n.val { laneX s n.val with cdr := false } s
    .next (laneFault n.val 2 (stickyLane Oid.laneStatus n.val 2 s))
  else .next s

/-- The span of tap e (R203). -/
def tapSpan (e : Nat) : Int := if e = 1 then 127 else if e ≤ 4 then 63 else 31

/-- Give the taps, from tap e on, values held to their spans. -/
def putTaps (n : Nat) : Nat → List Int → State → State
  | _, [], s => s
  | e, v :: t, s =>
    if tapCount < e then s
    else putTaps n (e + 1) t (putLane (Oid.laneDfeTap + e) n (ofSigned 32 (max (-(tapSpan e)) (min (tapSpan e) v))) s)

/-- CTLE settings, from the k-th on, whose figure is the largest. -/
def bestCtle (best : Nat) : Nat → List Byte → List Nat
  | _, [] => []
  | k, f :: t => (if f.toNat = best then [k] else []) ++ bestCtle best (k + 1) t

/-- The CTLE setting that gives the largest EFOM of the sixteen measured (R203); which of equal ones is free. -/
def chooseCtle (figures : List Byte) (s : State) : Nat × State :=
  let l := bestCtle (figures.foldl (fun m f => max m f.toNat) 0) 0 (figures.take 16)
  let c := takeChoice l.length s
  (l.getD c.1 0, c.2)

/-- ADAPTATION_DONE (R202, R203): with signal and CDR lock, the CTLE setting with the largest EFOM is taken, or on a warm resume the held one, and the taps the adaptation has reached. -/
def execAdaptationDone (n : Lane) (figures : List Byte) (taps : List Int) (s : State) : Host.Outcome State Fault Refusal :=
  let x := laneX s n.val
  if laneState s n.val = 5 && x.cdr && getLane s Oid.laneSignal n.val = 1 then
    let s := if x.held then s else
      let c := chooseCtle figures s
      putLane Oid.laneCtle n.val c.1 c.2
    .next (setLaneState n.val 6 (putTaps n.val 1 taps s))
  else .next s

/-- BLOCK_LOCK (R195, R196): bits of the line while the lane hunts. -/
def execBlockLock (n : Lane) (bits : List Bool) (s : State) : Host.Outcome State Fault Refusal :=
  if laneState s n.val = 6 && getLane s Oid.laneBlockLock n.val = 0 then
    .next (lineBits n.val bits.length (rxBits n.val bits s) s)
  else .next s

/-- BLOCK_LOCK_LOST (R195, R196): bits of the line while the lane is locked; in the tick of another fault of the lane, block lock is lost with it (R224). -/
def execBlockLockLost (n : Lane) (bits : List Bool) (s : State) : Host.Outcome State Fault Refusal :=
  if getLane s Oid.laneBlockLock n.val = 1 then .next (lineBits n.val bits.length (rxBits n.val bits s) s)
  else if faultedNow s n.val then .next (laneFault n.val 3 (stickyLane Oid.laneStatus n.val 4 s))
  else .next s

/-- HUNT_TIMEOUT (R197). -/
def execHuntTimeout (n : Lane) (s : State) : Host.Outcome State Fault Refusal :=
  if (laneState s n.val = 6 && getLane s Oid.laneBlockLock n.val = 0) || faultedNow s n.val then
    .next (laneFault n.val 3 (stickyLane Oid.laneStatus n.val 4 s))
  else .next s

/-- The logical lane a marker names: in mode 5 by its bytes (R248), else as clause 82 gives it. -/
def markLane (cascade : Bool) (m : LaneMark) : Option Nat :=
  match m.body with
  | .clause82 l => if cascade then none else some l.val
  | .cascade b => if cascade then (List.range 4).find? (fun l => b = markerBytesOf l) else none

/-- The order of four lanes by their markers (R198): each logical lane once, in any assignment, and no two lanes more than 180 ns apart. -/
def laneOrder (cascade : Bool) (marks : List LaneMark) : Option (List Nat) :=
  let o := marks.filterMap (markLane cascade)
  let ts : List Nat := marks.map (fun m => m.at_.toNat)
  if marks.length = 4 && (List.range 4).all (fun l => decide (l ∈ o)) && decide (ts.foldl max 0 ≤ ts.foldl min 4294967296 + 180000) then some o
  else none

/-- ALIGNMENT_LOCK (R198, R230, R231): alignment of a port, or of a cascade quad at its lane 4q; bonded lanes are ordered and deskewed from their markers. -/
def execAlignmentLock (a : Alignment) (s : State) : Host.Outcome State Fault Refusal :=
  let p := a.port.val
  let cascade : Bool := quadModeActive s (p / 4) = 5
  let bonded := isBonded s (p / 4) || cascade
  let ns := if bonded then quadLanes (p / 4) else [p]
  let order := if bonded then laneOrder cascade a.marks else some [0]
  if (bonded && p % 4 != 0) || (!bonded && !portExists s p) then .next s
  else if ns.all (fun n => laneState s n = 7 || (laneState s n = 6 && getLane s Oid.laneBlockLock n = 1)) && order.isSome then
    let s := putPortX p { portX s p with aligned := true, hiBer := false, order := order.getD [] } s
    let s := ns.foldl (fun s n => if laneState s n = 6 then setLaneState n 7 s else s) s
    .next (updatePort p s)
  else .next s

/-- EFOM_WINDOW (R202 to R204): the window's figures, and the taps the continuous adaptation of state 7 has reached. A window of 2^24 UI has room for 4,096 changes of one code each, more than any tap spans, so R203's one code in 4,096 UI bounds none of them here. -/
def execEfomWindow (n : Lane) (fom : Byte) (width : Fin 65) (taps : List Int) (s : State) : Host.Outcome State Fault Refusal :=
  let st := laneState s n.val
  if st = 5 || st = 7 || st = 10 then
    let s := putLane Oid.laneEyeWidth n.val width.val (putLane Oid.laneEfom n.val fom.toNat s)
    if st = 7 && getLane s Oid.laneDfeFreeze n.val = 0 && getLane s Oid.laneSignal n.val = 1 && (laneX s n.val).cdr then .next (putTaps n.val 1 taps s)
    else .next s
  else .next s

/-- EYE_FAULT (R205): EFOM has stayed below its minimum for its time. -/
def execEyeFault (n : Lane) (s : State) : Host.Outcome State Fault Refusal :=
  if laneState s n.val = 7 && decide (getLane s Oid.laneEfom n.val < getLane s Oid.laneEfomMin n.val) then
    .next (laneFault n.val 4 (stickyLane Oid.laneStatus n.val 8 s))
  else .next s

/-- RELOCK_TIMEOUT (R218): 10 ms after leaving state 3. -/
def execRelockTimeout (n : Lane) (s : State) : Host.Outcome State Fault Refusal :=
  let st := laneState s n.val
  if (laneX s n.val).relock && 4 ≤ st && st ≤ 6 then .next (laneFault n.val 5 s) else .next s

/-- After a topology fault of quad q, from a state in which it was in service or not: retired now, it takes its lanes with it (R505, R506). -/
def afterTopology (q : Nat) (before s : State) : State :=
  if isRetired s (resCascade q) && !isRetired before (resCascade q) then cascadeLanesOut q s else s

/-- BEACON (R147, R149, R151, R152). -/
def execBeacon (link : BhFrom) (b : BeaconBody) (arrival : Time96) (s : State) : Host.Outcome State Fault Refusal :=
  if bhTakes s link.quad.val link.hops.toNat then
    .next (afterTopology link.quad.val s (beacon link.quad.val b (laneStamp (Time96pack arrival)) (bump Oid.portBhFrames link.quad.val s)))
  else .next s

/-- BEACON_LOSS (R152): on the upstream quad lock is lost too. -/
def execBeaconLoss (q : Quad) (s : State) : Host.Outcome State Fault Refusal :=
  if q.val ∈ cascadeQuads s ∧ getObj s Oid.timeBhUpstream = q.val then
    .next (afterTopology q.val s (topologyFault q.val (setSticky Oid.timeStatus 0 0x10
      (setBhLocked false { s with time := { s.time with beaconRun := 0, beaconOff := [], beaconMean := 0 } }))))
  else .next s

/-- PRBS_CHECKER_LOCK (R213 to R216): bits at the receive pins, and as many sent, on a lane under test. -/
def execPrbsCheckerLock (n : Lane) (bits : List Bool) (s : State) : Host.Outcome State Fault Refusal :=
  if prbsActs s n.val then .next (testRun n.val bits s) else .next s

end Sys2Proof.Machine
end

