-- ==== Sys2Proof/Machine/Net.lean ====
section
/-! DEFINITION. Ethernet, IP and UDP fields of a frame, and the frames the firmware builds: ARP, ICMP echo, neighbour discovery, IGMP and MLD (07_ports_flows); and their way out (R246). PRESUMED: the layouts of RFC 791, 768, 826, 792, 8200, 4443, 4861, 3376 and 3810, which the spec names by protocol only. -/

namespace Sys2Proof.Machine

open Sys2Proof

/-! ### Parsing -/

/-- The Ethernet header of a stored frame: destination, source, 802.1Q tag if one, two tags or 802.1ad, EtherType, what follows. -/
structure Eth where
  dst     : Nat
  src     : Nat
  tci     : Option Nat
  stacked : Bool
  etype   : Nat
  body    : List Byte
deriving DecidableEq, Repr

/-- A TPID of a VLAN tag. -/
def isTpid (t : Nat) : Bool := t = 0x8100 || t = 0x88A8

/-- Parse the Ethernet header (R235). -/
def parseEth (b : List Byte) : Eth :=
  let t := be16 b 12
  let dst := beNat (padTo 6 (b.take 6))
  let src := beNat (padTo 6 (slice 6 6 b))
  if t = 0x8100 then
    let e := be16 b 16
    { dst := dst, src := src, tci := some (be16 b 14), stacked := isTpid e, etype := e, body := b.drop 18 }
  else { dst := dst, src := src, tci := none, stacked := t = 0x88A8, etype := t, body := b.drop 14 }

/-- The EtherType behind the tags of a frame whose present type and rest are given, and what follows it. -/
def behindTags : Nat → Nat → List Byte → Nat × List Byte
  | 0, t, b => (t, b)
  | n + 1, t, b => if isTpid t then behindTags n (be16 b 2) (b.drop 4) else (t, b)

/-- VLAN tags of a frame, from its first type field on. -/
def tagCount : Nat → List Byte → Nat
  | 0, _ => 0
  | n + 1, b => if isTpid (be16 b 0) then 1 + tagCount n (b.drop 4) else 0

/-- The length of a frame as `port.max_frame` counts it: at most one VLAN tag (R233). -/
def countedLength (b : List Byte) : Nat := b.length - 4 * (tagCount (b.length / 4) (b.drop 12) - 1)

/-- An IPv4 address as the IPv4-mapped IPv6 address (R237). -/
def mapped4 (a : Nat) : Nat := 0xFFFF * 2 ^ 32 + a

/-- What an IP packet shows. -/
structure Ip where
  v6      : Bool
  src     : Nat
  dst     : Nat
  proto   : Nat
  frag    : Bool                          -- an IPv4 fragment, or an IPv6 Fragment header
  options : Bool                          -- IPv4 options, or an IPv6 extension header
  hdrOk   : Bool                          -- IPv4 header checksum
  body    : List Byte
deriving DecidableEq, Repr

/-- Ones-complement sum of 16-bit network-order words, n of them. -/
def onesSum : Nat → List Byte → Nat
  | 0, _ => 0
  | n + 1, b => be16 b 0 + onesSum n (b.drop 2)

/-- Fold a sum to 16 bits. -/
def fold16 (x : Nat) : Nat :=
  let y := x % 65536 + x / 65536
  let z := y % 65536 + y / 65536
  z % 65536 + z / 65536

/-- The Internet checksum of bytes, after an initial sum. -/
def inetSum (init : Nat) (b : List Byte) : Nat := 0xFFFF - fold16 (init + onesSum ((b.length + 1) / 2) b)

/-- Extension header numbers of IPv6. -/
def isExtHeader (n : Nat) : Bool := n = 0 || n = 43 || n = 44 || n = 60 || n = 51 || n = 50 || n = 135 || n = 139 || n = 140

/-- Parse an IPv4 or IPv6 packet. -/
def parseIp (etype : Nat) (b : List Byte) : Option Ip :=
  if etype = 0x0800 then
    let ihl := byteAt b 0 % 16 * 4
    let f := be16 b 6
    some { v6 := false, src := mapped4 (be32 b 12), dst := mapped4 (be32 b 16), proto := byteAt b 9
           frag := f % 8192 != 0 || f / 8192 % 2 = 1, options := ihl != 20
           hdrOk := inetSum 0 (b.take ihl) = 0
           body := slice ihl (be16 b 2 - ihl) b }
  else if etype = 0x86DD then
    let nh := byteAt b 6
    some { v6 := true, src := beNat (slice 8 16 b), dst := beNat (slice 24 16 b), proto := nh
           frag := nh = 44, options := isExtHeader nh, hdrOk := true, body := slice 40 (be16 b 4) b }
  else none

/-- The pseudo-header sum of a UDP or ICMPv6 checksum. -/
def pseudoSum (v6 : Bool) (src dst proto len : Nat) : Nat :=
  if v6 then onesSum 8 (beBytes 16 src) + onesSum 8 (beBytes 16 dst) + proto + len
  else onesSum 2 (beBytes 4 (src % 2 ^ 32)) + onesSum 2 (beBytes 4 (dst % 2 ^ 32)) + proto + len

/-- The UDP datagram of an IP packet whole enough to be summed: directly behind the IP header, or behind IPv6 extension headers other than Fragment and ESP. PRESUMED: RFC 8200 and 4302 header lengths. -/
def udpBehind : Nat → Nat → List Byte → Option (List Byte)
  | 0, _, _ => none
  | n + 1, nh, b =>
    if nh = 17 then some b
    else if nh = 44 || nh = 50 || !isExtHeader nh then none
    else udpBehind n (byteAt b 0) (b.drop (if nh = 51 then 4 * (byteAt b 1 + 2) else 8 * (byteAt b 1 + 1)))

/-- A UDP checksum passes (R236): an IPv4 checksum of 0 is none, an IPv6 one fails; it covers the datagram's own length, which must be there. -/
def udpSumOk (v6 : Bool) (src dst : Nat) (b : List Byte) : Bool :=
  let n := be16 b 4
  if be16 b 6 = 0 then !v6
  else decide (8 ≤ n) && decide (n ≤ b.length) && inetSum (pseudoSum v6 src dst 17 n) (b.take n) = 0

/-- R236: the IPv4 header checksum, and the UDP checksum where there is one. -/
def ipSumsOk (p : Ip) : Bool :=
  p.hdrOk &&
    (match (if p.frag && !p.v6 then none else udpBehind (p.body.length / 8 + 1) p.proto p.body) with
      | some b => udpSumOk p.v6 p.src p.dst b
      | none => true)

/-- UDP ports and payload. -/
def udpSrc (p : Ip) : Nat := be16 p.body 0
def udpDst (p : Ip) : Nat := be16 p.body 2
def udpData (p : Ip) : List Byte := slice 8 (be16 p.body 4 - 8) p.body

/-- The UDP payload of a stored frame, if it is UDP. -/
def frameUdp (b : List Byte) : Option (List Byte) :=
  let e := parseEth b
  match parseIp e.etype e.body with
  | some p => if p.proto = 17 then some (udpData p) else none
  | none => none

/-! ### Building -/

/-- A multicast IP address, and the MAC address it maps to (R234, R247). -/
def isMulticast (a : Nat) : Bool :=
  if a / 2 ^ 32 = 0xFFFF then a % 2 ^ 32 / 2 ^ 28 = 14 else a / 2 ^ 120 = 0xFF
def multicastMac (a : Nat) : Nat :=
  if a / 2 ^ 32 = 0xFFFF then 0x01005E000000 + a % 2 ^ 23 else 0x333300000000 + a % 2 ^ 32

/-- An Ethernet frame without its FCS, padded to 60 bytes (R233). -/
def ethFrame (dst src : Nat) (tci : Option Nat) (etype : Nat) (body : List Byte) : List Byte :=
  let h := beBytes 6 dst ++ beBytes 6 src
    ++ (match tci with | some t => beBytes 2 0x8100 ++ beBytes 2 t | none => []) ++ beBytes 2 etype
  let f := h ++ body
  f ++ List.replicate (60 - f.length) 0

/-- The Ethernet FCS: CRC-32, sent low byte first. PRESUMED: IEEE 802.3 clause 3. -/
def ethFcs (bs : List Byte) : Nat := (bs.foldl (fun c b => crcByte 0xEDB88320 c b.toNat) 0xFFFFFFFF) ^^^ 0xFFFFFFFF

/-- A frame with its FCS (R233). -/
def withFcs (b : List Byte) : List Byte := b ++ leBytes 4 (ethFcs b)

/-- An IPv4 packet; options in whole words. -/
def ipv4Packet (src dst proto tos ttl : Nat) (df : Bool) (opts body : List Byte) : List Byte :=
  let ihl := 5 + opts.length / 4
  let h (c : Nat) : List Byte := beBytes 1 (0x40 + ihl) ++ beBytes 1 tos ++ beBytes 2 (ihl * 4 + body.length) ++ beBytes 2 0
    ++ beBytes 2 (if df then 0x4000 else 0) ++ beBytes 1 ttl ++ beBytes 1 proto ++ beBytes 2 c
    ++ beBytes 4 (src % 2 ^ 32) ++ beBytes 4 (dst % 2 ^ 32) ++ opts
  h (inetSum 0 (h 0)) ++ body

/-- An IPv6 packet. -/
def ipv6Packet (src dst nh tclass hop : Nat) (body : List Byte) : List Byte :=
  beBytes 4 (6 * 2 ^ 28 + tclass * 2 ^ 20) ++ beBytes 2 body.length ++ beBytes 1 nh ++ beBytes 1 hop
    ++ beBytes 16 src ++ beBytes 16 dst ++ body

/-- Put a checksum into its place. -/
def withSum (off c : Nat) (b : List Byte) : List Byte := b.take off ++ beBytes 2 c ++ b.drop (off + 2)

/-- A UDP datagram with its checksum. -/
def udpDatagram (v6 : Bool) (src dst sport dport : Nat) (data : List Byte) : List Byte :=
  let d := beBytes 2 sport ++ beBytes 2 dport ++ beBytes 2 (8 + data.length) ++ beBytes 2 0 ++ data
  let c := inetSum (pseudoSum v6 src dst 17 d.length) d
  withSum 6 (if c = 0 then 0xFFFF else c) d

/-- An ICMPv6 message with its checksum. -/
def icmp6 (src dst : Nat) (m : List Byte) : List Byte := withSum 2 (inetSum (pseudoSum true src dst 58 m.length) m) m

/-! ### Port addresses -/

/-- The port's IPv6 address, 0 when none. -/
def portIpv6 (s : State) (p : Nat) : Nat := getObj s (Oid.portIpv6 + 1) p * 2 ^ 64 + getObj s Oid.portIpv6 p

/-- The tag of the port's firmware frames. -/
def portTci (s : State) (p : Nat) : Option Nat := if getObj s Oid.portVlan p = 0xFFFF then none else some (getObj s Oid.portVlan p)

/-- The partner has stopped a priority of a port (R246). -/
def isStopped (s : State) (p prio : Nat) : Bool := tabGet 0 prio (portX s p).stopped != 0

/-- A frame of n bytes with its FCS leaves port p. -/
def txFrame (p n : Nat) (e : Emission) (s : State) : State :=
  emit e (addObj Oid.portTxBytes p n (bump Oid.portTxFrames p s))

/-- Send n bytes as a firmware frame on port p: a port that is not up sends none (R230, R231); a stop of every priority or of priority 0 holds it back (R246). -/
def txFirmware (p n : Nat) (e : Emission) (s : State) : State :=
  if !portUp s p then s
  else if isStopped s p 0 then putPortX p { portX s p with waiting := (portX s p).waiting ++ [(n, e)] } s
  else txFrame p n e s

/-- The firmware frames a stop has held back leave, oldest first (R246). -/
def sendWaiting (p : Nat) (s : State) : State :=
  if isStopped s p 0 || !portUp s p then s
  else (portX s p).waiting.foldl (fun s w => txFrame p w.1 w.2 s) (putPortX p { portX s p with waiting := [] } s)

/-- Send an Ethernet frame, given without its FCS, as a firmware frame (R247, R408). -/
def sendFrame (p : Nat) (b : List Byte) (s : State) : State := txFirmware p (b.length + 4) (.fwFrame p (withFcs b)) s

/-- Send a firmware frame on a port with its address and tag. -/
def sendFirmware (p dst etype : Nat) (body : List Byte) (s : State) : State :=
  sendFrame p (ethFrame dst (getObj s Oid.portMacAddr p) (portTci s p) etype body) s

/-- The receive destination address of a flow. -/
def rxDst (s : State) (f : Nat) : Nat := getObj s (Oid.flowRxDstAddr + 1) f * 2 ^ 64 + getObj s Oid.flowRxDstAddr f

/-- The receive source address of a flow, 0 for any. -/
def rxSrc (s : State) (f : Nat) : Nat := getObj s (Oid.flowRxSrcAddr + 1) f * 2 ^ 64 + getObj s Oid.flowRxSrcAddr f

/-! ### Group membership (R241)

PRESUMED: the messages of RFC 1112, 2236, 3376, 2710 and 3810 and their Older Version Querier Present Timeout, 260 s. -/

/-- An IPv4 group, as R237 holds addresses. -/
def isV4 (a : Nat) : Bool := a / 2 ^ 32 = 0xFFFF

/-- Send an IGMP message with Router Alert. -/
def sendIgmp (p dst : Nat) (m : List Byte) (s : State) : State :=
  sendFirmware p (multicastMac (mapped4 dst)) 0x0800
    (ipv4Packet (getObj s Oid.portIpv4 p) dst 2 0xC0 1 true [0x94, 4, 0, 0] (withSum 2 (inetSum 0 m) m)) s

/-- Send an MLD message behind a hop-by-hop header with Router Alert. -/
def sendMld (p dst : Nat) (m : List Byte) (s : State) : State :=
  sendFirmware p (multicastMac dst) 0x86DD
    (ipv6Packet (portIpv6 s p) dst 0 0 1 ([58, 0, 5, 2, 0, 0, 1, 0] ++ icmp6 (portIpv6 s p) dst m)) s

/-- A group record: its type, 1 and 2 the present state, 3 to 6 a change; the group in n bytes and its source, if one. -/
def groupRecord (n rtype group src : Nat) : List Byte :=
  let srcs := if src = 0 then [] else beBytes n (src % 2 ^ (8 * n))
  beBytes 2 1 ++ beBytes 1 rtype ++ beBytes 1 0 ++ beBytes 2 (srcs.length / n) ++ beBytes n (group % 2 ^ (8 * n)) ++ srcs

/-- The version of IGMP (1 to 3) or MLD (1, 2) spoken on a port: the host compatibility mode. -/
def groupVersion (s : State) (p : Nat) (v4 : Bool) : Nat :=
  let x := portX s p
  let sec := tSec (now s)
  if v4 then (if sec < x.igmp1 then 1 else if sec < x.igmp2 then 2 else 3) else if sec < x.mld1 then 1 else 2

/-- Report a group record, or what an older version has for it: a report of the group, or for a leave its leave or done message. -/
def sendReport (m : Member) (rtype : Nat) (s : State) : State :=
  let leave := rtype = 3 || rtype = 6
  let g4 := m.group % 2 ^ 32
  match isV4 m.group, groupVersion s m.port (isV4 m.group) with
  | true, 1 => if leave then s else sendIgmp m.port g4 (beBytes 4 0x12000000 ++ beBytes 4 g4) s
  | true, 2 =>
    if leave then sendIgmp m.port 0xE0000002 (beBytes 4 0x17000000 ++ beBytes 4 g4) s
    else sendIgmp m.port g4 (beBytes 4 0x16000000 ++ beBytes 4 g4) s
  | true, _ => sendIgmp m.port 0xE0000016 (beBytes 4 0x22000000 ++ beBytes 2 0 ++ groupRecord 4 rtype m.group m.src) s
  | false, 1 =>
    sendMld m.port (if leave then 0xFF02 * 2 ^ 112 + 2 else m.group)
      (beBytes 4 ((if leave then 132 else 131) * 2 ^ 24) ++ beBytes 4 0 ++ beBytes 16 m.group) s
  | false, _ => sendMld m.port (0xFF02 * 2 ^ 112 + 0x16) (beBytes 4 (143 * 2 ^ 24) ++ beBytes 2 0 ++ groupRecord 16 rtype m.group m.src) s

/-- The membership a flow asks for (R241). -/
def wantedGroup (s : State) (f : Nat) : Option Member :=
  if getObj s Oid.flowRxType f != 0 && getObj s Oid.flowRxJoin f != 0 && isMulticast (rxDst s f) then
    some { port := getObj s Oid.flowRxPort f, group := rxDst s f, src := if getObj s Oid.flowRxJoin f = 2 then rxSrc s f else 0 }
  else none

/-- Leave a group, unless another flow has the same membership. -/
def leaveGroup (m : Member) (s : State) : State :=
  if s.lp.joined.any (fun j => j.2 = some m) then s else sendReport m (if m.src = 0 then 3 else 6) s

/-- Leave the group of before and join the one asked for, as the flow now stands. -/
def updateJoin (f : Nat) (s : State) : State :=
  let was := tabGet none f s.lp.joined
  let want := wantedGroup s f
  if want = was then s
  else
    let s := { s with lp := { s.lp with joined := tabPut none f want s.lp.joined } }
    let s := match was with | some m => leaveGroup m s | none => s
    match want with | some m => sendReport m (if m.src = 0 then 4 else 5) s | none => s

/-- The memberships of a port, each once. -/
def joinedOn (s : State) (p : Nat) : List Member :=
  ((s.lp.joined.filterMap (fun j => j.2)).filter (fun m => m.port = p)).eraseDups

/-- A query of an older version sets the compatibility mode of the port (R241). -/
def noteQuery (p : Nat) (v4 : Bool) (m : List Byte) (s : State) : State :=
  let till := tSec (now s) + 260
  if v4 then
    if 8 < m.length then s
    else if byteAt m 1 = 0 then putPortX p { portX s p with igmp1 := till } s
    else putPortX p { portX s p with igmp2 := till } s
  else if m.length = 24 then putPortX p { portX s p with mld1 := till } s else s

/-- Answer a membership query: the present state of the groups it asks about, all for group 0. -/
def answerQuery (p : Nat) (v4 : Bool) (m : List Byte) (s : State) : State :=
  let group := if v4 then be32 m 4 else beNat (padTo 16 (slice 8 16 m))
  let asked (g : Nat) : Bool := isV4 g = v4 && (group = 0 || (if v4 then g % 2 ^ 32 else g) = group)
  ((joinedOn s p).filter (fun j => asked j.group)).foldl (fun s j => sendReport j (if j.src = 0 then 2 else 1) s) (noteQuery p v4 m s)

/-! ### Frames for the exception ring (R239) -/

/-- Send a frame to the exception ring, within the port's rate of the present second. -/
def sendException (p reason ts : Nat) (b : List Byte) (s : State) : State :=
  let x := tabGet ({} : PortX) p s.lp.ports
  let sec := tSec (now s)
  let n := if x.excSec = sec then x.excCount else 0
  if getObj s Oid.portExcRate p ≤ n then bump Oid.portRxExcDropped p s
  else
    let s := { s with
      lp := { s.lp with ports := tabPut {} p { x with excSec := sec, excCount := n + 1 } s.lp.ports }
      rk := { s.rk with excWait := s.rk.excWait ++ [{ reason := reason, port := p, time := ts, data := b }] } }
    bump Oid.portRxExceptions p s

/-! ### Frames for the firmware (Table 7.2 step 3) -/

/-- A supported ARP message: a request with Ethernet and IPv4 addresses. -/
def arpKnown (b : List Byte) : Bool := be16 b 0 = 1 && be16 b 2 = 0x0800 && byteAt b 4 = 6 && byteAt b 5 = 4 && be16 b 6 = 1

/-- Answer an ARP request for an address. -/
def arpReply (mac ip : Nat) (b : List Byte) : Option (Nat × List Byte) :=
  if arpKnown b && be32 b 24 = ip && ip != 0 then
    some (beNat (slice 8 6 b), beBytes 2 1 ++ beBytes 2 0x0800 ++ [6, 4] ++ beBytes 2 2 ++ beBytes 6 mac ++ beBytes 4 ip
      ++ slice 8 6 b ++ slice 14 4 b)
  else none

/-- Answer an ICMP echo request. -/
def echoReply (b : List Byte) : List Byte := let m := [0, byteAt b 1].map (BitVec.ofNat 8) ++ beBytes 2 0 ++ b.drop 4; withSum 2 (inetSum 0 m) m

/-- Answer an ICMPv6 echo request. -/
def echoReply6 (src dst : Nat) (b : List Byte) : List Byte := icmp6 src dst (beBytes 2 (129 * 256 + byteAt b 1) ++ beBytes 2 0 ++ b.drop 4)

/-- Answer a neighbour solicitation for an address: an advertisement with the MAC address. -/
def neighbourReply (mac ip dst : Nat) : List Byte :=
  icmp6 ip dst (beBytes 1 136 ++ beBytes 1 0 ++ beBytes 2 0 ++ beBytes 4 0x60000000 ++ beBytes 16 ip ++ [2, 1] ++ beBytes 6 mac)

/-- The ICMPv6 message of a packet, directly or behind a hop-by-hop header. -/
def icmp6Body (ip : Ip) : Option (List Byte) :=
  if !ip.v6 then none
  else if ip.proto = 58 then some ip.body
  else if ip.proto = 0 && byteAt ip.body 0 = 58 then some (ip.body.drop (8 * (byteAt ip.body 1 + 1)))
  else none

/-- What the firmware does with a frame it is given on a port with its timestamp: ARP, ICMP echo, neighbour solicitation, membership queries; PTP comes by its own command. A message of these protocols of a kind it acts on for nobody is an exception (R15): 0x03 for ARP, 0x06 for an IP one; one asked of another host is not. -/
def firmwareFrame (p ts : Nat) (b : List Byte) (s : State) : State :=
  let e := parseEth b
  let mac := getObj s Oid.portMacAddr p
  if e.etype = 0x0806 then
    if !arpKnown e.body then sendException p 0x03 ts b s
    else match arpReply mac (getObj s Oid.portIpv4 p) e.body with
    | some (d, r) => sendFirmware p d 0x0806 r s
    | none => s
  else match parseIp e.etype e.body with
  | none => s
  | some ip =>
    if !ip.v6 && ip.proto = 1 && byteAt ip.body 0 = 8 then
      sendFirmware p e.src 0x0800 (ipv4Packet (getObj s Oid.portIpv4 p) ip.src 1 0 64 true [] (echoReply ip.body)) s
    else if !ip.v6 && ip.proto = 2 then
      (if byteAt ip.body 0 = 0x11 then answerQuery p true ip.body s else sendException p 0x06 ts b s)
    else match icmp6Body ip with
    | none => s
    | some m =>
      let t := byteAt m 0
      if t = 135 then
        (if beNat (slice 8 16 m) = portIpv6 s p && portIpv6 s p != 0 then
          sendFirmware p e.src 0x86DD (ipv6Packet (portIpv6 s p) ip.src 58 0 255 (neighbourReply mac (portIpv6 s p) ip.src)) s
        else s)
      else if t = 128 then
        sendFirmware p e.src 0x86DD (ipv6Packet (portIpv6 s p) ip.src 58 0 64 (echoReply6 (portIpv6 s p) ip.src m)) s
      else if t = 130 then answerQuery p false m s
      else sendException p 0x06 ts b s

end Sys2Proof.Machine
end

