-- ==== Sys2Proof/Machine/Position.lean ====
section
/-! DEFINITION. Position feedback (14_position): samples, interpolation, marks, position at a time, speed, quadrature output, compare units and encoder faults. -/

namespace Sys2Proof.Machine

open Sys2Proof

/-! ### Access -/

/-- Encoder channel n. -/
def encOf (s : State) (n : Nat) : EncX := tabGet {} n s.pos.enc
def putEnc (n : Nat) (x : EncX) (s : State) : State := { s with pos := { s.pos with enc := tabPut {} n x s.pos.enc } }

/-- Compare unit u. -/
def cmpOf (s : State) (u : Nat) : CmpX := tabGet {} u s.pos.cmp
def putCmp (u : Nat) (x : CmpX) (s : State) : State := { s with pos := { s.pos with cmp := tabPut {} u x s.pos.cmp } }

/-- The signed 48-bit value of a number (R438). -/
def sx48 (x : Int) : Int := toSigned 48 (ofSigned 48 x)

/-- The 48-bit pattern of a number. -/
def wrap48 (x : Int) : Nat := ofSigned 48 x

/-- Arithmetic shift right. -/
def asr (x : Int) (n : Nat) : Int := x / ((2 ^ n : Nat) : Int)

/-- log2 of a power of two from 4 to 4,096. -/
def log2Of (n : Nat) : Nat := Nat.log2 n

/-- k: log2 of `pos.interp`. -/
def interpK (s : State) (n : Nat) : Nat := log2Of (getObj s Oid.posInterp n)

/-- The channel's position (R438): 48 bits. -/
def encPosition (s : State) (n : Nat) : Nat := ofSigned 48 (getInt s Oid.posPosition n)

/-- Store a position, sign-extended to 64 bits (R438). -/
def putPosition (n p : Nat) (s : State) : State := putInt Oid.posPosition n (toSigned 48 p) s

/-! ### Interpolation (R438) -/

/-- round(atan(2^-i) × 65,536 / 2π). -/
def atanTab : List Nat := [8192, 4836, 2555, 1297, 651, 326, 163, 81, 41, 20, 10, 5, 3, 1, 1]

/-- The CORDIC steps from step i. -/
def cordic (i : Nat) : List Nat → Int → Int → Nat → Int × Nat
  | [], x, _, ph => (x, ph)
  | a :: t, x, y, ph =>
    if 0 < y then cordic (i + 1) t (x + asr y i) (y - asr x i) ((ph + a) % 65536)
    else cordic (i + 1) t (x - asr y i) (y + asr x i) ((ph + 65536 - a) % 65536)

/-- Corrected tracks a and b. -/
def correctTracks (s : State) (n : Nat) (si co : Int) : Int × Int :=
  let a := si - getInt s Oid.posOffS n
  let b := asr ((co - getInt s Oid.posOffC n) * (getObj s Oid.posGain n : Int)) 14
  (a, b + asr (a * getInt s Oid.posQuad n) 15)

/-- Phase and amplitude of corrected tracks. -/
def phaseAmp (a b : Int) : Nat × Nat :=
  let flip := decide (b < 0)
  let r := cordic 0 atanTab (if flip then -b else b) (if flip then -a else a) (if flip then 0x8000 else 0)
  (r.2, ofSigned 16 (asr (r.1 * 19898) 15))

/-- The position of a fine count. -/
def finePosition (s : State) (n : Nat) (fine off : Int) : Nat := wrap48 (asr fine (16 - interpK s n) + off)

/-! ### Position at a given time (R443) -/

/-- The samples available by now (R437): those taken 200 ns ago or earlier. -/
def available (s : State) (n : Nat) : List EncSample := (encOf s n).samples.dropWhile (fun e => decide (tNanos (now s) < tNanos e.t + 200))

/-- Find the samples t_a ≤ T < t_b, in whole nanoseconds, among samples newest first. -/
def bracket (t : Nat) : List EncSample → Option (EncSample × EncSample)
  | b :: a :: r => if tNanos a.t ≤ tNanos t && tNanos t < tNanos b.t then some (a, b) else bracket t (a :: r)
  | _ => none

/-- The position at time T between two samples (R443). -/
def interpolate (t : Nat) (a b : EncSample) : Nat :=
  let dt : Int := (tNanos b.t : Int) - tNanos a.t
  if dt ≤ 0 || 200 < dt then b.p
  else wrap48 (toSigned 48 a.p + truncDiv (sx48 ((b.p : Int) - a.p) * ((tNanos t : Int) - tNanos a.t)) dt)

/-- The answer for T from samples newest first, once the newest lies after T: position and validity. Where no two of them lie about T the spec gives no position (entry 88). -/
def answerAt (l : List EncSample) (t : Nat) : Option (Option (Nat × Bool)) :=
  match l with
  | [] => none
  | new :: _ =>
    if tNanos new.t ≤ tNanos t then none
    else match bracket t l with
      | some (a, b) => some (some (interpolate t a b, a.valid && b.valid && !b.jump && decide (tNanos new.t ≤ tNanos t + 6400)))
      | none => some none

/-- An answer as it is given: where the samples give no position, a free one that is not valid. -/
def giveAnswer (r : Option (Nat × Bool)) (s : State) : (Nat × Bool) × State :=
  match r with
  | some r => (r, s)
  | none => let c := takeChoice (2 ^ 48) s; ((c.1, false), c.2)

/-- Give the answer for T, if the samples available allow it. -/
def answerOne (n t : Nat) (s : State) : State :=
  match answerAt (available s n) t with
  | none => s
  | some r =>
    let g := giveAnswer r s
    let x := encOf g.2 n
    putEnc n { x with asked := x.asked.filter (fun a => a ≠ t), answers := tabInsert t g.1 x.answers } g.2

/-- Ask channel n for the position at T (R298, R443): answered at once or with the sample after T. -/
def askPosition (n t : Nat) (s : State) : State :=
  let x := encOf s n
  answerOne n t (if t ∈ x.asked then s else putEnc n { x with asked := t :: x.asked } s)

/-- The answer for T, if it has been given. -/
def positionAnswer (s : State) (n t : Nat) : Option (Nat × Bool) := tabFind t (encOf s n).answers

/-- Answer the software query, if the samples available allow it (R444). -/
def answerSoftware (n : Nat) (s : State) : State :=
  match (encOf s n).query with
  | none => s
  | some t =>
    match answerAt (available s n) t with
    | none => s
    | some r =>
      let g := giveAnswer r s
      putEnc n { encOf g.2 n with query := none }
        (putObj Oid.posQueryValid n (b2n g.1.2) (putInt Oid.posQueryPosition n (toSigned 48 g.1.1) g.2))

/-- Answer every question the samples available allow, and the software query (R443, R444). -/
def answerAll (n : Nat) (s : State) : State :=
  answerSoftware n ((encOf s n).asked.foldl (fun s t => answerOne n t s) s)

/-- A write of `pos.query_at` (R444). -/
def queryAt (n t : Nat) (s : State) : State :=
  let s := putObj Oid.posQueryAt n t s
  answerAll n (putEnc n { encOf s n with query := some t } s)

/-! ### Validity (R442, R447) -/

/-- `position_valid` becomes 0. -/
def invalidate (n : Nat) (s : State) : State :=
  let was := isOn s Oid.posPositionValid n
  let s := putObj Oid.posSpeedValid n 0 (putObj Oid.posPositionValid n 0 s)
  if was then setSticky Oid.posStatus n 1 (putEnc n { encOf s n with canAuto := false } s) else s

/-! ### Compare units (R451 to R457) -/

/-- The target a unit is armed with. -/
def unitTarget (s : State) (u : Nat) : Int :=
  if getObj s Oid.posCmpMode u = 3 then (cmpOf s u).target else sx48 (getInt s Oid.posCmpTarget u)

/-- An entry of the list pool. -/
def poolEntry (s : State) (i : Nat) : Int := toSigned 48 (tabGet 0 i s.pos.list)

/-- The behind status of a unit: its bits and the channel's source (R455). -/
def markBehind (u : Nat) (s : State) : State :=
  let n := getObj s Oid.posCmpChannel u
  let s := fire (0x088 + n) (setSticky Oid.posStatus n 8 (setSticky Oid.posCmpStatus u 4 s))
  if isOn s Oid.posCmpFireIfBehind u then putCmp u { cmpOf s u with behind := true } s else s

/-- A target is behind (R455), judged on the position available to the compares (R437). -/
def isBehind (s : State) (u : Nat) (target : Int) : Bool :=
  let n := getObj s Oid.posCmpChannel u
  let d := sx48 (((encOf s n).shown : Int) - target)
  match getObj s Oid.posCmpSense u with
  | 1 => decide (0 ≤ d)
  | 2 => decide (d ≤ 0)
  | _ => if getObj s Oid.posDir n = 0 then decide (0 ≤ d) else decide (d ≤ 0)

/-- Check an armed single or list target against the position (R455). -/
def checkBehind (u : Nat) (s : State) : State :=
  let m := getObj s Oid.posCmpMode u
  if (m = 1 || m = 3) && getObj s Oid.posCmpState u = 1 && isBehind s u (unitTarget s u) then markBehind u s else s

/-- Arm a unit fully (R451). -/
def armUnit (u : Nat) (s : State) : State :=
  let base := getObj s Oid.posCmpListBase u
  let x : CmpX := { idx := base, target := if getObj s Oid.posCmpMode u = 3 then poolEntry s base else sx48 (getInt s Oid.posCmpTarget u) }
  let s := putObj Oid.posCmpIndex u (if getObj s Oid.posCmpMode u = 3 then base else 0) s
  checkBehind u (putObj Oid.posCmpState u 1 (putCmp u x s))

/-- A write of `pos.cmp_mode` (R451). -/
def cmpModeWritten (u v : Nat) (s : State) : State :=
  let s := putObj Oid.posCmpMode u v s
  if v = 0 then putObj Oid.posCmpState u 0 s
  else if getObj s Oid.posCmpArm u = 1 then putObj Oid.posCmpState u 2 s
  else armUnit u s

/-- A start occurrence reaches a unit that is not armed (R451): whatever `pos.cmp_arm`, it arms the unit, which a unit of mode 0 cannot be. -/
def cmpStart (u : Nat) (s : State) : State := if getObj s Oid.posCmpMode u = 0 then s else armUnit u s

/-- A unit disarms (R452). -/
def disarmUnit (u : Nat) (s : State) : State := putObj Oid.posCmpState u (if getObj s Oid.posCmpArm u = 1 then 2 else 3) s

/-- Points of a target or grid crossed from a to b, up and down (R453), as its pseudocode has it: on a grid the count against the motion is not above 0. -/
def crossed (mode : Nat) (per : Int) (a b : Int) : Int × Int :=
  if mode = 2 then (b / per - a / per, (a - 1) / per - (b - 1) / per)
  else (if a < 0 && 0 ≤ b then 1 else 0, if 0 < a && b ≤ 0 then 1 else 0)

/-- The first point crossed, as an offset from the target or grid origin. -/
def firstPoint (mode : Nat) (per : Int) (a b : Int) : Int :=
  if mode = 2 then (if a < b then (a / per + 1) * per else (a - 1) / per * per) else 0

/-- Points crossed in the directions the sense allows. -/
def crossedBy (sense : Nat) (c : Int × Int) : Int := (if sense = 2 then 0 else c.1) + (if sense = 1 then 0 else c.2)

/-- The instant a point was reached between two samples (R454). -/
def crossTime (v : EncInterval) (g : Int) : Nat :=
  let d := sx48 ((v.p : Int) - v.pPrev)
  if d = 0 then v.t
  else tAddNs v.tPrev (truncDiv (((tNanos v.t : Int) - tNanos v.tPrev) * sx48 (g - v.pPrev)) d)

/-- A fire of unit u at an instant, timestamped at the resolution of Table 4.2 (R454). -/
def unitFire (u t : Nat) (late : Bool) (s : State) : State :=
  let n := getObj s Oid.posCmpChannel u
  let ts := kilnStamp s t
  let s := setSticky Oid.posCmpStatus u (if late then 3 else 1) (bump Oid.posCmpFires u s)
  let s := putObj Oid.posCmpLastTime u ts s
  let s := fireAt (0x060 + u) ts (now s) late s
  if late then fire (0x088 + n) (setSticky Oid.posStatus n 0x10 s) else s

/-- Pass over the list entries crossed in the same interval (R453): the entry armed next, and how many were passed; none when the list ends. -/
def advanceList (s : State) (u : Nat) (v : EncInterval) : Nat → Nat → Nat → Option Nat × Nat
  | 0, _, k => (none, k)
  | fuel + 1, idx, k =>
    let base := getObj s Oid.posCmpListBase u
    let last := base + getObj s Oid.posCmpListLen u - 1
    let nxt := if idx < last then some (idx + 1) else if isOn s Oid.posCmpListLoop u then some base else none
    match nxt with
    | none => (none, k)
    | some i =>
      let t := poolEntry s i
      let c := crossed 3 1 (sx48 ((v.pPrev : Int) - t)) (sx48 ((v.p : Int) - t))
      if 0 < crossedBy (getObj s Oid.posCmpSense u) c then advanceList s u v fuel i (k + 1) else (some i, k)

/-- What a fire does to the unit itself (R452, R453). -/
def afterFire (u : Nat) (g : Int) (v : EncInterval) (s : State) : State :=
  let x := cmpOf s u
  let x := { x with lastG := some g, away := false, behind := false }
  match getObj s Oid.posCmpMode u with
  | 2 =>
    let f := (x.fires + 1) % 2 ^ 32
    let s := putObj Oid.posCmpIndex u f (putCmp u { x with fires := f } s)
    if getObj s Oid.posCmpCount u != 0 && decide (getObj s Oid.posCmpCount u ≤ f) then disarmUnit u s else s
  | 3 =>
    match (advanceList s u v 65537 x.idx 0).1 with
    | some i => checkBehind u (putObj Oid.posCmpIndex u i (putCmp u { x with idx := i, target := poolEntry s i } s))
    | none => disarmUnit u (putCmp u x s)
  | _ => disarmUnit u (putCmp u x s)

/-- Evaluate one unit over an interval (R453, R454). -/
def evalUnit (v : EncInterval) (u : Nat) (s : State) : State :=
  if getObj s Oid.posCmpState u != 1 || !v.valid then s
  else
    let x := cmpOf s u
    if x.behind then
      afterFire u (unitTarget s u) v (unitFire u v.t true (setSticky Oid.posCmpStatus u 4 s))
    else
      let mode := getObj s Oid.posCmpMode u
      let per : Int := max 1 (getObj s Oid.posCmpPeriod u)
      let t0 := unitTarget s u
      let a := sx48 ((v.pPrev : Int) - t0)
      let b := sx48 ((v.p : Int) - t0)
      let n := crossedBy (getObj s Oid.posCmpSense u) (crossed mode per a b)
      let g := wrap48 (t0 + firstPoint mode per a b)
      let same := n = 1 && x.lastG = some (g : Int) && !x.away
      if n ≤ 0 || same then
        match x.lastG with
        | some l => if (getObj s Oid.posCmpHyst u : Int) < (sx48 ((v.p : Int) - l)).natAbs then putCmp u { x with away := true } s else s
        | none => s
      else
        let passed := if mode = 3 then (advanceList s u v 65537 x.idx 0).2 else n.toNat - 1
        let s := unitFire u (crossTime v g) (decide (0 < passed)) (addObj Oid.posCmpCatchup u passed s)
        afterFire u g v s

/-- The units of a channel. -/
def unitsOf (s : State) (n : Nat) : List Nat := (List.range 32).filter (fun u => getObj s Oid.posCmpChannel u = n)

/-- A jump (R440): armed single and list targets it leaves on their passed side are behind. -/
def jumpBehind (n : Nat) (s : State) : State := (unitsOf s n).foldl (fun s u => checkBehind u s) s

/-- N × 250,000,000,000. -/
def quarterRate (s : State) (n : Nat) : Nat := getObj s Oid.posInterp n * 250000000000

/-- Signed by the present direction. -/
def signed (s : State) (n : Nat) (v : Int) : Int := if getObj s Oid.posDir n = 1 then -v else v

/-- A crossing at an instant in ns, in a direction (R445 to R448). -/
def crossing (n : Nat) (tx : Int) (down : Bool) (s : State) : State :=
  let x := encOf s n
  let s := bump Oid.posCrossings n s
  match x.lastX with
  | none =>
    putEnc n { x with lastX := some tx, consec := 1 } (putObj Oid.posDir n (b2n down) s)
  | some l =>
    if getObj s Oid.posDir n ≠ b2n down then
      let s := bump Oid.posReversals n (putObj Oid.posSpeedMethod n 0 (putObj Oid.posSpeedValid n 0
        (putObj Oid.posDir n (b2n down) (putInt Oid.posSpeed n 0 s))))
      putEnc n { x with lastX := some tx, consec := 1 } s
    else
      let dt := tx - l
      let s := putEnc n { x with lastX := some tx, lastDt := dt, consec := x.consec + 1 } s
      if x.consec = 0 || getObj s Oid.posSpeedMethod n = 1 then s
      else
        let s := putInt Oid.posSpeed n (signed s n (truncDiv (quarterRate s n) dt)) s
        let s := if isOn s Oid.posPositionValid n then putObj Oid.posSpeedValid n 1 s else s
        if dt < getObj s Oid.posSpeedSwitchNs n then putObj Oid.posSpeedMethod n 1 s else s

/-- The crossing an interval carries (R445). -/
def takeCrossing (n : Nat) (v : EncInterval) (s : State) : State :=
  match v.cross with
  | some c => crossing n c.1 c.2 s
  | none => s

/-- The oldest sample not yet available becomes so (R437): its crossing counts, every unit of the channel is evaluated over it (R453), a jump it carries is judged after that (Table 14.6), and queries are answered (R443). -/
def evalChannel (n : Nat) (s : State) : State :=
  match (encOf s n).pend with
  | [] => s
  | v :: t =>
    let s := takeCrossing n v (putEnc n { encOf s n with pend := t } s)
    let s := (unitsOf s n).foldl (fun s u => evalUnit v u s) s
    let s := putEnc n { encOf s n with shown := v.after } s
    answerAll n (if v.jumped then jumpBehind n s else s)

/-- The oldest sample is due to become available (R437). -/
def sampleDue (s : State) (n : Nat) : Bool :=
  match (encOf s n).pend with
  | [] => false
  | v :: _ => decide (tNanos v.t + 200 ≤ tNanos (now s))

/-- Evaluate the intervals whose position is available by now (R437, R457). -/
def evalAvailable (n : Nat) : Nat → State → State
  | 0, s => s
  | k + 1, s => if sampleDue s n then evalAvailable n k (evalChannel n s) else s

/-- A write of the target, period or sense of a unit (R455, R457). -/
def cmpTargetWritten (id u v : Nat) (s : State) : State :=
  let n := getObj s Oid.posCmpChannel u
  let s := evalAvailable n (encOf s n).pend.length s
  let s := putObj id u v s
  if id = Oid.posCmpTarget then checkBehind u (putCmp u { cmpOf s u with behind := false } s) else s

/-! ### Faults (R458, R459) -/

/-- A fault of channel n at a sample instant (R442, R458, R459). -/
def encFault (n cause t : Nat) (s : State) : State :=
  let perm := decide (cause = 4)
  let s := putObj Oid.posFaultCause n cause (bump Oid.posFaults n s)
  let s := setSticky Oid.posStatus n (if cause ≤ 2 then 2 else 4) s
  let s := invalidate n (fireStamped (0x088 + n) (kilnStamp s t) s)
  let s := putEnc n { encOf s n with held := some cause } s
  let r := recordFault (resEnc n) cause perm s
  if r.2 = .retire then
    setSticky Oid.posStatus n 0x80 (putObj Oid.posRetired n 1 (putEnc n { encOf r.1 n with sampling := false, pend := [] } r.1))
  else r.1

/-- Clear a channel's retirement (R459). -/
def encReinstate (n : Nat) (s : State) : State :=
  if isOn s Oid.posRetired n && standsRetired s (resEnc n) then
    let s := dropRetired (resEnc n) (putObj Oid.posRetired n 0 s)
    putEnc n { encOf s n with sampling := false, held := none, lowRun := 0, highRun := 0, stuckS := 0, stuckC := 0, stuckR := 0 } s
  else s

/-- Whether a code is at an end of the converter's range. -/
def atRail (x : Int) : Bool := x = -8192 || x = 8191

/-- Runs of consecutive samples of each condition. -/
def countRuns (s : State) (n amp : Nat) (si co re : Int) (x : EncX) : EncX :=
  let low := decide (amp < getObj s Oid.posAmpMin n)
  let high := decide (getObj s Oid.posAmpMax n < amp) || atRail si || atRail co
  { x with
    lowRun := if low then x.lowRun + 1 else 0
    highRun := if high then x.highRun + 1 else 0
    stuckS := if atRail si then x.stuckS + 1 else 0
    stuckC := if atRail co then x.stuckC + 1 else 0
    stuckR := if atRail re then x.stuckR + 1 else 0 }

/-- A track has stood at an end for 1 ms (Table 14.5). -/
def isStuck (x : EncX) : Bool := decide (10000 ≤ x.stuckS) || decide (10000 ≤ x.stuckC) || decide (10000 ≤ x.stuckR)

/-- The fault a sample gives, the permanent cause first, then the lower code (R505). -/
def sampleFault (x : EncX) (dp : Int) : Option Nat :=
  if isStuck x then some 4
  else if 16 ≤ x.lowRun then some 1
  else if 16 ≤ x.highRun then some 2
  else if 16384 < dp || dp < -16384 then some 3
  else none

/-- The condition of a recorded fault still holds (R458). -/
def stillHeld (x : EncX) : Nat → Bool
  | 1 => decide (0 < x.lowRun)
  | 2 => decide (0 < x.highRun)
  | 4 => decide (0 < x.stuckS) || decide (0 < x.stuckC) || decide (0 < x.stuckR)
  | _ => false

/-! ### Speed (R446, R447) -/

/-- The 10 µs update (R446), on the newest sample available. -/
def speedUpdate (n : Nat) (s : State) : State :=
  match available s n with
  | [] => s
  | new :: _ =>
    let x := encOf s n
    let log := ((new.t, new.p) :: x.log).take 101
    let s := putEnc n { x with log := log } s
    if getObj s Oid.posSpeedMethod n = 1 then
      match log[getObj s Oid.posCountWindowUs n / 10]? with
      | none => s
      | some (tm, pm) =>
        let v := truncDiv (sx48 ((new.p : Int) - pm) * 1000000000000) ((tNanos new.t : Int) - tNanos tm)
        let s := putInt Oid.posSpeed n v s
        if v.natAbs * 5 * getObj s Oid.posSpeedSwitchNs n < 4 * quarterRate s n then putObj Oid.posSpeedMethod n 0 s else s
    else
      match x.lastX with
      | none => s
      | some l =>
        let el := (tNanos new.t : Int) - l
        if 2 ≤ x.consec && x.lastDt < el then putInt Oid.posSpeed n (signed s n (truncDiv (quarterRate s n) el)) s else s

/-- No crossing has occurred for `pos.standstill_ms` (R447). -/
def stoodStill (s : State) (n : Nat) : Bool :=
  match (encOf s n).lastX with
  | some l => decide (l + (getObj s Oid.posStandstillMs n * 1000000 : Nat) ≤ tNanos (now s))
  | none => true

/-- No crossing for the standstill time (R447). -/
def standstill (n : Nat) (s : State) : State :=
  let s := putObj Oid.posSpeedMethod n 0 (putObj Oid.posSpeedValid n 0 (putInt Oid.posSpeed n 0 s))
  putEnc n { encOf s n with consec := 0 } s

/-! ### Automatic correction (R439) -/

/-- Hold a value to a range. -/
def clampInt (lo hi v : Int) : Int := if v < lo then lo else if hi < v then hi else v

/-- The update at the end of a qualifying signal period. -/
def autocalUpdate (n : Nat) (x : EncX) (s : State) : State :=
  let offS := clampInt (-2048) 2048 (getInt s Oid.posOffS n + asr (truncDiv (x.hiA + x.loA) 2) 3)
  let offC := clampInt (-2048) 2048 (getInt s Oid.posOffC n + asr (truncDiv (x.hiB + x.loB) 2) 3)
  let gain : Int := getObj s Oid.posGain n
  let s := putInt Oid.posOffC n offC (putInt Oid.posOffS n offS s)
  let g := truncDiv (gain * (x.hiA - x.loA)) (x.hiB - x.loB)
  putObj Oid.posGain n (clampInt 8192 32767 (gain + asr (g - gain) 3)).toNat s

/-- Follow the extremes of a signal period (R439). -/
def autocal (n : Nat) (fine0 fine1 a b : Int) (t : Nat) (s : State) : State :=
  let x := encOf s n
  let x := { x with hiA := max x.hiA a, loA := min x.loA a, hiB := max x.hiB b, loB := min x.loB b }
  let down := decide (fine1 < fine0)
  let x := if fine0 = fine1 || x.perDir.isNone || x.perDir = some down then x else { x with broken := true }
  if asr fine0 16 = asr fine1 16 then putEnc n x s
  else
    let dur := tNanos t - tNanos x.perStart
    let good := x.perDir = some down && !x.broken && decide (10000 ≤ dur) && decide (dur ≤ 10000000)
    let s := if good && isOn s Oid.posAutocal n then autocalUpdate n x s else s
    putEnc n { x with perStart := t, perDir := some down, broken := false, hiA := a, loA := a, hiB := b, loB := b } s

/-! ### Quadrature output (R450) -/

/-- The target edge count. -/
def quadTarget (s : State) (n : Nat) : Int :=
  asr (toSigned 48 (encPosition s n)) (interpK s n - log2Of (getObj s Oid.posQuadEdges n))

/-- `pos.quad_lag`. -/
def quadLag (s : State) (n : Nat) : Nat := (quadTarget s n - (encOf s n).out).natAbs

/-- ENCn_QZ at output count o (R450). -/
def quadZ (s : State) (n : Nat) (o : Int) : Bool :=
  match getObj s Oid.posQuadZ n with
  | 1 => decide ((encOf s n).markE = some o)
  | 2 => decide (o % (getObj s Oid.posQuadEdges n : Int) = 0)
  | _ => false

/-- The pin states of output count o. -/
def quadPins (s : State) (n : Nat) (o : Int) : Emission :=
  let m := o % 4
  .quadEdge n (m = 1 || m = 2) (m = 2 || m = 3) (quadZ s n o)

/-- Keep the mark's target count; where that moves ENCn_QZ at the present output count, the pins are sent (R450). -/
def markZ (n : Nat) (s : State) : State :=
  let t := putEnc n { encOf s n with markE := some (quadTarget s n) } s
  let o := (encOf s n).out
  if isOn s Oid.posQuadEnable n && quadZ s n o != quadZ t n o then emit (quadPins t n o) t else t

/-- A position change by a jump shifts the output count by as much, without edges (R440). -/
def quadShift (n : Nat) (e0 e1 : Int) (s : State) : State := putEnc n { encOf s n with out := (encOf s n).out + (e1 - e0) } s

/-! ### One sample (R435, R438, R441) -/

/-- A jump of the last sample to v by homing (R441): the sample reads v, and the compares judge the jump after the crossing at that sample (Table 14.6). -/
def homeTo (n : Nat) (v : Int) (s : State) : State :=
  let x := encOf s n
  let e0 := quadTarget s n
  let s := putEnc n { x with
    offset := v - asr x.fine (16 - interpK s n)
    samples := match x.samples with | h :: r => { h with p := wrap48 v, valid := true, jump := true } :: r | [] => []
    pend := x.pend.dropLast ++ (x.pend.getLast?.toList.map (fun i => { i with after := wrap48 v, jumped := true })) } s
  let s := putObj Oid.posPositionValid n 1 (putPosition n (wrap48 v) s)
  quadShift n e0 (quadTarget s n) s

/-- A mark at a sample (R441). -/
def markSample (n : Nat) (p t : Nat) (fault : Bool) (s : State) : State :=
  let s := putObj Oid.posRefTime n t (putInt Oid.posRefPosition n (toSigned 48 p) s)
  let s := fireStamped (0x080 + n) (kilnStamp s t) (setSticky Oid.posStatus n 0x20 (bump Oid.posRefCount n s))
  let mode := getObj s Oid.posRefMode n
  if fault || mode < 2 then markZ n s
  else
    let s := markZ n (homeTo n (getInt s Oid.posRefPreset n) s)
    if mode = 2 then putObj Oid.posRefMode n 1 s else s

/-- The crossing of R445 between the sample before and a sample at t, on the count before any jump. -/
def crossingAt (prev : Option EncSample) (fine0 fine1 dp : Int) (t : Nat) : Option (Int × Bool) :=
  match prev with
  | none => none
  | some h =>
    let q0 := asr fine0 14
    let q1 := asr fine1 14
    if q0 = q1 then none
    else some ((tNanos h.t : Int) + truncDiv ((max q0 q1 * 16384 - fine0) * ((tNanos t : Int) - tNanos h.t)) dp, decide (q1 < q0))

/-- The position part of a sample that is integrated: crossing, jump, validity, mark, and the interval for the compare units. A fault found at the sample is taken before a jump written for it (entry 88). -/
def takeSample (n : Nat) (a b : Int) (ph amp t : Nat) (fresh : Bool) (dp : Int) (ref : Bool) (s : State) : State :=
  let x := encOf s n
  let fault := sampleFault x dp
  let s := match fault with | some c => encFault n c t s | none => s
  let fine1 := x.fine + dp
  let prev := x.samples.head?
  let natural := finePosition s n fine1 x.offset
  let jump := x.jumpTo
  let off := match jump with | some v => v - asr fine1 (16 - interpK s n) | none => x.offset
  let p := finePosition s n fine1 off
  let wasValid := isOn s Oid.posPositionValid n
  let inside := decide (getObj s Oid.posAmpMin n ≤ amp) && decide (amp ≤ getObj s Oid.posAmpMax n)
  let valid := (jump.isSome && fault.isNone) || wasValid || ((encOf s n).canAuto && inside && fault.isNone)
  let s := putObj Oid.posPositionValid n (b2n valid) s
  let pPrev := match prev with
    | some h => if fresh || jump.isSome || fault.isSome || !h.valid || !valid then p else h.p
    | none => p
  let iv : EncInterval := {
    pPrev := pPrev, p := p, tPrev := (match prev with | some h => h.t | none => t), t := t, valid := valid
    after := p, jumped := jump.isSome
    cross := if fresh || fault = some 3 then none else crossingAt prev x.fine fine1 dp t }
  let y := encOf s n
  let s := putEnc n { y with
    sampling := fault.isNone
    phLast := ph
    fine := fine1
    offset := off
    jumpTo := none
    broken := y.broken || fresh
    samples := ({ t := t, p := p, valid := valid, jump := jump.isSome } :: y.samples).take 64
    pend := if isOn s Oid.posRetired n then [] else y.pend ++ [iv] } s
  let s := putPosition n p s
  let s := if jump.isSome then quadShift n (quadTarget (putPosition n natural s) n) (quadTarget s n) s else s
  let s := if fresh then s else autocal n x.fine fine1 a b t s
  let s := if ref then markSample n p t fault.isSome s else s
  if 65535 < quadLag s n && isOn s Oid.posQuadEnable n then setSticky Oid.posStatus n 0x40 s else s

/-- One sample of channel n (R438): codes of the three tracks and the sample instant; dp is an i16, so the negation of −32,768 is itself (R13). -/
def encSample (n : Nat) (si co re : Int) (t : Nat) (s : State) : State :=
  if !isOn s Oid.posEnable n || isOn s Oid.posRetired n then s
  else
    let c := correctTracks s n si co
    let pa := phaseAmp c.1 c.2
    let s := putObj Oid.posAmplitude n pa.2 (putObj Oid.posPhase n pa.1 s)
    let x := countRuns s n pa.2 si co re (encOf s n)
    let high := decide (getInt s Oid.posRefThreshold n < re)
    let gate := getObj s Oid.posRefGate n = 4 || getObj s Oid.posRefGate n = pa.1 / 16384
    let ref := getObj s Oid.posRefMode n != 0 && high && !x.rHigh && gate
    let s := putEnc n { x with rHigh := high } s
    match x.held with
    | some cause =>
      if cause ≠ 4 && isStuck x then encFault n 4 t s
      else if stillHeld x cause then s
      else takeSample n c.1 c.2 pa.1 pa.2 t true 0 ref (putEnc n { encOf s n with held := none } s)
    | none =>
      let fresh := !x.sampling
      let d := if fresh then 0 else toSigned 16 (pa.1 + 65536 - x.phLast)
      takeSample n c.1 c.2 pa.1 pa.2 t fresh (if isOn s Oid.posInvert n then toSigned 16 (ofSigned 16 (-d)) else d) ref s

/-! ### Object writes -/

/-- A channel is disabled: its position is not valid and its first enable is spent (R442). -/
def encDisabled (n : Nat) (s : State) : State :=
  let s := invalidate n s
  putEnc n { encOf s n with sampling := false, canAuto := false } s

/-- `pos.enable` written (R442). -/
def encEnableWritten (n v : Nat) (s : State) : State :=
  let was := isOn s Oid.posEnable n
  let s := putObj Oid.posEnable n v s
  if was && v = 0 then encDisabled n s else s

/-- `pos.interp` or `pos.invert` written (R442). -/
def encGeometryWritten (id n v : Nat) (s : State) : State := invalidate n (putObj id n v s)

/-- `pos.position` written (R440): the next sample takes it. -/
def positionWritten (n : Nat) (v : Int) (s : State) : State := putEnc n { encOf s n with jumpTo := some v } s

/-- The targets of the entries that bytes hold (R456). -/
def listEntries : Nat → List Byte → List Nat
  | 0, _ => []
  | k + 1, b => leNat (b.take 6) :: listEntries k (b.drop 8)

/-- Put entries from index i. -/
def putEntries (i : Nat) : List Nat → List (Nat × Nat) → List (Nat × Nat)
  | [], t => t
  | e :: r, t => putEntries (i + 1) r (tabPut 0 i e t)

/-- A whole write of `pos.list` whose bytes have passed the check of R456: the entries it holds are replaced, those beyond them stay. -/
def listWritten (b : List Byte) (s : State) : State :=
  { s with pos := { s.pos with list := putEntries 0 (listEntries (b.length / 8) b) s.pos.list } }

/-! ### Rows -/

/-- The PFU runs from Boot on (R460). -/
def pfuRuns (s : State) : Bool := s.modes.current != .cold

/-- The instant of a sample in the present tick (R435): its tick time, or half an increment later. -/
def sampleInstant (s : State) (half : Bool) : Nat := momentAt s (if half then 0x8000 else 0)

/-- ENCODER_SAMPLE (R435, R438): one sample in the present tick, at its start or half way through it. -/
def execEncoderSample (n : Enc) (sine cosine ref : BitVec 14) (half : Bool) (s : State) : Host.Outcome State Fault Refusal :=
  if pfuRuns s then .next (encSample n.val sine.toInt cosine.toInt ref.toInt (sampleInstant s half) s) else .next s

/-- POSITION_COMPARE (R437, R453): in the first tick at or after 200 ns from the sample. -/
def execPositionCompare (n : Enc) (s : State) : Host.Outcome State Fault Refusal :=
  if pfuRuns s && !isOn s Oid.posRetired n.val && sampleDue s n.val then .next (evalChannel n.val s) else .next s

/-- SPEED_UPDATE (R446). -/
def execSpeedUpdate (n : Enc) (s : State) : Host.Outcome State Fault Refusal :=
  if pfuRuns s && isOn s Oid.posEnable n.val && !isOn s Oid.posRetired n.val then .next (speedUpdate n.val s) else .next s

/-- STANDSTILL_TIMEOUT (R447): a crossing due by now counts first, and then there is no timeout (Table 14.6). -/
def execStandstillTimeout (n : Enc) (s : State) : Host.Outcome State Fault Refusal :=
  if pfuRuns s then
    let s := evalAvailable n.val (encOf s n.val).pend.length s
    .next (if stoodStill s n.val then standstill n.val s else s)
  else .next s

/-- The next edge is due (R450): the last came `pos.quad_min_ns` ago by the end of the present tick. -/
def quadEdgeDue (s : State) (n : Nat) : Bool :=
  match (encOf s n).edgeAt with
  | some l => decide (l + getObj s Oid.posQuadMinNs n < tNanos (now s) + 8)
  | none => true

/-- QUAD_OUTPUT_EDGE (R450). -/
def execQuadOutputEdge (n : Enc) (s : State) : Host.Outcome State Fault Refusal :=
  let k := n.val
  let e := quadTarget s k
  let o := (encOf s k).out
  if !pfuRuns s || !isOn s Oid.posQuadEnable k || !isOn s Oid.posEnable k || isOn s Oid.posRetired k || e = o || !quadEdgeDue s k then .next s
  else
    let o1 := if o < e then o + 1 else o - 1
    let s := putEnc k { encOf s k with out := o1, edgeAt := some (tNanos (now s)) } s
    .next (emit (quadPins s k o1) s)

end Sys2Proof.Machine
end

