-- ==== Sys2Proof/Machine/Lauter.lean ====
section
/-! DEFINITION. The lauter engine (09_lauter_casks): frames and delivery units, stream headers, placements, closing, stamps, the frame tag, per-line records and the commit (R283 to R305, R375). -/

namespace Sys2Proof.Machine

open Sys2Proof

/-! ### Frame settings (R286, R287, R306, R315) -/

/-- The settings a frame of flow f keeps from its opening, of a given width, height and format (R24, R315, R349). -/
def frameCfgOf (s : State) (f w h fmt : Nat) : FrameCfg :=
  let gvsp := getObj s Oid.flowRxType f = 2
  let line := gvsp && getObj s Oid.lauterScan f = 1
  let lb := lineBytesOf fmt w
  { gvsp := gvsp, line := line, width := w
    lines := if line then getObj s Oid.lauterUnitBlocks f * getObj s Oid.lauterBlockLines f else h
    format := fmt, lineBytes := lb, stride := strideOf lb
    pktBytes := getObj s Oid.lauterGvspPacketBytes f
    blockLines := getObj s Oid.lauterBlockLines f, unitBlocks := getObj s Oid.lauterUnitBlocks f
    policy := getObj s Oid.lauterMissingPolicy f, side := isOn s Oid.lauterSideRecords f
    stamped := getObj s Oid.lauterStampSource f = 1, encoder := getObj s Oid.lauterEncoder f
    exposure := getObj s Oid.lauterExposureNs f, straggle := getObj s Oid.lauterStraggleUs f
    resend := isOn s Oid.flowRxResend f, ring := getObj s Oid.rackingFlowRing f
    compress := getObj s Oid.rackingFlowCompress f = 1, rpolicy := getObj s Oid.rackingFlowPolicy f
    rtpPt := getObj s Oid.flowRxRtpPt f, resendMax := getObj s Oid.lauterResendMax f, resendDelay := getObj s Oid.lauterResendDelayUs f
    maxWidth := getObj s Oid.lauterWidth f, maxLines := getObj s Oid.lauterHeight f }

/-- Offset of the per-line records in a cask (R305). -/
def recordBase (k : FrameCfg) : Nat := (k.lines * k.stride + 4095) / 4096 * 4096

/-- Pages of a frame's cask (R306). -/
def caskPages (k : FrameCfg) : Nat :=
  let size := if k.side then recordBase k + 32 * k.lines else k.lines * k.stride
  (size + 65535) / 65536

/-- Bytes a frame is expected to place (R292). -/
def expectedTotal (k : FrameCfg) : Nat := k.lines * k.lineBytes

/-- Bytes of one GVSP block. -/
def blockBytes (k : FrameCfg) : Nat := (if k.line then k.blockLines else k.lines) * k.lineBytes

/-- Payload packets of one GVSP block (R289). -/
def blockPackets (k : FrameCfg) : Nat := (blockBytes k + k.pktBytes - 1) / max 1 k.pktBytes

/-! ### Stamps (R298 to R300) -/

/-- The stamps a committing frame has matched leave the queue, and are not counted discarded (R299). -/
def usedStamps (f : Nat) (base : Option Nat) (n : Nat) (s : State) : State :=
  match base, rxTrigger s f with
  | some b, some k =>
    let q := tabGet ({} : StampQueue) k s.lau.stamps
    let rest := q.queue.filter (fun e => decide (e.n < b) || decide (b + n ≤ e.n))
    { s with lau := { s.lau with stamps := tabPut {} k { q with queue := rest } s.lau.stamps } }
  | _, _ => s

/-- Clear the stamp queue of trigger k: the next stamp belongs to the next frame (R299). -/
def clearStamps (k : Nat) (s : State) : State :=
  let f := getObj s Oid.eventsFlowTriggerSel k % 4096
  { s with lau := { s.lau with stamps := tabPut {} k { next := 0, base := getObj s Oid.lauterFrameSeq f, queue := [] } s.lau.stamps } }

/-- The queue of trigger k is full: its consumer is busy (R298). -/
def stampsFull (s : State) (k : Nat) : Bool := decide (4096 ≤ (tabGet ({} : StampQueue) k s.lau.stamps).queue.length)

/-- An occurrence on a receive flow's trigger (R298): the flow takes it as a stamp while `lauter.stamp_source` is 1. -/
def stampOccurrence (k f : Nat) (o : Occ) (s : State) : State :=
  if getObj s Oid.lauterStampSource f ≠ 1 then s
  else
  let enc := getObj s Oid.lauterEncoder f
  let q := tabGet ({} : StampQueue) k s.lau.stamps
  let e : StampEntry := { n := q.next, stamp := { time := o.due, trig := o.trig, late := o.late, pos := 0, valid := false, enc := enc, fromTrigger := true } }
  let s := { s with lau := { s.lau with stamps := tabPut {} k { q with next := q.next + 1, queue := q.queue ++ [e] } s.lau.stamps } }
  purgeStamps f (if enc = 0xFF then s else askPosition enc o.due s)

/-- The entry of stamp n of a flow, if it has arrived. -/
def stampAt (s : State) (f n : Nat) : Option Stamp :=
  match rxTrigger s f with
  | none => none
  | some k => ((tabGet ({} : StampQueue) k s.lau.stamps).queue.find? (fun e => e.n = n)).map (fun e => e.stamp)

/-- The number of the first stamp of a frame (R299). -/
def stampBase (s : State) (f seq per : Nat) : Nat :=
  match rxTrigger s f with
  | none => 0
  | some k => (seq + 2 ^ 32 - (tabGet ({} : StampQueue) k s.lau.stamps).base) % 2 ^ 32 * per

/-- Position of encoder enc at t, 48 bits, with its validity (R298, R300): a free value where the channel holds no sample that gives it. -/
def positionAt (enc t : Nat) (s : State) : (Nat × Bool) × State :=
  if 7 < enc then ((0, false), s)
  else match positionAnswer s enc t with
  | some r => (r, s)
  | none =>
    match answerAt (available s enc) t with
    | some r => giveAnswer r s
    | none => giveAnswer none s

/-- A stamp with the position at its time. -/
def withPosition (st : Stamp) (s : State) : Stamp × State :=
  let r := positionAt st.enc st.time s
  ({ st with pos := r.1.1, valid := r.1.2 }, r.2)

/-- A stamp by arrival (R300); with no arrival either, its time is a free value. -/
def arrivalStamp (enc : Nat) (at_ : Option Nat) (s : State) : Stamp × State :=
  match at_ with
  | some t => withPosition { time := t, trig := 0, late := false, pos := 0, valid := false, enc := enc, fromTrigger := false } s
  | none =>
    let r := takeFree s
    ({ time := r.1.toNat % 2 ^ 96, trig := 0, late := false, pos := 0, valid := false, enc := enc, fromTrigger := false }, r.2)

/-- The stamp of a frame or line: its matched stamp, else its arrival (R299, R300). -/
def stampFor (f : Nat) (k : FrameCfg) (n : Option Nat) (at_ : Option Nat) (s : State) : Stamp × State :=
  match n with
  | none => arrivalStamp k.encoder at_ s
  | some n =>
    match stampAt s f n with
    | some st => withPosition st s
    | none => arrivalStamp k.encoder at_ s

/-- The stamps that were due to a frame or its lines and have not arrived are counted, each once (R300). -/
def countMissing (f : Nat) (base : Option Nat) (n : Nat) (s : State) : State :=
  match base, rxTrigger s f with
  | some b, some k =>
    let here := ((tabGet ({} : StampQueue) k s.lau.stamps).queue.filter (fun e => decide (b ≤ e.n) && decide (e.n < b + n))).length
    if n ≤ here then s else setSticky Oid.lauterStatus 0 0x10 (addObj Oid.lauterStampsMissing f (n - here) s)
  | some _, none => setSticky Oid.lauterStatus 0 0x10 (addObj Oid.lauterStampsMissing f n s)
  | none, _ => s

/-! ### Frames -/

/-- The frame of a flow and number, if it is still open. -/
def openFrame? (s : State) (f seq : Nat) : Option Frame := (openFrames s f).find? (fun fr => fr.seq = seq)

/-- Close a frame as complete once every expected byte is placed, its end marker is received and its placements have completed (R292, R316). -/
def tryComplete (f seq : Nat) (s : State) : State :=
  match openFrame? s f seq with
  | none => s
  | some fr =>
    match fr.cask with
    | none => s
    | some id => if fr.ended && decide (expectedTotal fr.cfg ≤ fr.placed) && !caskBusy s id then closeFrame fr 1 s else s

/-- The allocator has served a request of lane g: the next lane goes first (R313). -/
def served (g : Nat) (s : State) : State := { s with lau := { s.lau with rotate := (g + 1) % 64 } }

/-- Frames may open: not in the grace of a watchdog (R69). -/
def mayOpen (s : State) : Bool := !s.modes.grace

/-- Remember a refused frame: its key, and the blocks it would have had; the latest 256 are kept (DESIGN CHOICE, entry 147). -/
def refuse (f key blocks : Nat) (s : State) : State :=
  let x := flowOf s f
  putFlow f { x with refused := ((key, blocks) :: x.refused).take 256 } s

/-- A frame opens on flow f for a packet of lane g (R295, R307, R414), or is refused. -/
def openFrame (g f key : Nat) (ext : Bool) (k : FrameCfg) (s : State) : State :=
  let s := match openFrames s f with
    | fr :: _ :: _ => closeFrame fr 4 s
    | _ => s
  let seq := getObj s Oid.lauterFrameSeq f
  let s := served g (putObj Oid.lauterFrameSeq f ((seq + 1) % 2 ^ 32) s)
  let pages := caskPages k
  match reserveFails s f pages with
  | some cause =>
    let s := refuse f key (if k.line then k.unitBlocks else 1) s
    let s := setSticky Oid.casksStatus 0 4 (bump Oid.casksRefused 0 s)
    countLost f k.ring seq 0 (imageBytes k) cause s
  | none =>
    let r := reserveCask f seq pages k s
    let s := r.2
    let h := hydroOpen f key ext seq k s
    let s := h.2
    let x := flowOf s f
    let fr : Frame := {
      flow := f, seq := seq, key := key, ext := ext, cfg := k, cask := some r.1, opened := now s
      locked := isOn s Oid.timeLocked, first := none, last := 0, placed := 0, byLine := [], lineAt := [], maxLine := 0
      leaders := [], trailers := [], ids := [], ended := false, endAt := 0, rewound := x.rewound, gaps := x.gaps
      ecc := false, loop := false, resends := [], accepted := now s, cause := none, hydro := h.1 }
    let s := putFlow f { x with rewound := 0, gaps := 0 } s
    flowSignal 1 f { s with lau := { s.lau with frames := s.lau.frames ++ [fr] } }

/-! ### Placements (R287, R288, R290) -/

/-- Split a run of image bytes at line ends and at 256-byte boundaries of cask offset (R288). -/
def splitRun (k : FrameCfg) : Nat → Nat → List Byte → List (Nat × List Byte)
  | 0, _, _ => []
  | fuel + 1, i, bs =>
    if bs.isEmpty then []
    else
      let y := i / max 1 k.lineBytes
      let c := i - y * k.lineBytes
      let off := y * k.stride + c
      let n := min bs.length (min (max 1 k.lineBytes - c) (256 - off % 256))
      (off, bs.take n) :: splitRun k fuel (i + n) (bs.drop n)

/-- The placements of a run. -/
def runPieces (k : FrameCfg) (i : Nat) (bs : List Byte) : List (Nat × List Byte) := splitRun k bs.length i bs

/-- A copy of a placement goes to the hydrometer as it is issued (R23, R426). -/
def copyToHydro (id off : Nat) (data : List Byte) (s : State) : State :=
  match s.lau.frames.find? (fun fr => fr.cask = some id) with
  | none => s
  | some fr =>
    match fr.hydro with
    | none => s
    | some h =>
      let full := decide (4194304 < hydroStore s + data.length)
      let s := if full then bump Oid.hydroOverloads 0 s else s
      putHydro fr (hydroCopy full fr.cfg off data h) s

/-- Issue one placement: it takes its page and is in flight (R290, R308). -/
def issue (id off : Nat) (data : List Byte) (s : State) : State :=
  let r := touchPage id (off / 65536) s
  match caskOf r.2 id with
  | none => s
  | some c =>
    let s := r.2
    let s := { s with lau := { s.lau with
      flight := s.lau.flight ++ [{ cask := id, off := off, addr := pageAddr c r.1 off, data := data }] } }
    let n := s.lau.flight.length
    let s := if getObj s Oid.lauterPlacementsPeak < n then putObj Oid.lauterPlacementsPeak 0 n s else s
    copyToHydro id off data s

/-- Room for another placement in flight (R290). -/
def flightRoom (s : State) : Bool := decide (s.lau.flight.length < 16384)

/-- A placement of packet `pkt` in region g: issued, or waiting in the region (R290). -/
def placeOne (g pkt id off : Nat) (data : List Byte) (s : State) : State :=
  let r := regionOf s g
  if r.waiting.isEmpty && flightRoom s then served g (issue id off data s)
  else
    setSticky Oid.lauterStatus 0 8
      (putRegion g { r with waiting := r.waiting ++ [{ cask := id, off := off, addr := 0, data := data, pkt := pkt }] } s)

/-- All placements of a run. -/
def placePieces (g pkt id : Nat) : List (Nat × List Byte) → State → State
  | [], s => s
  | p :: t, s => placePieces g pkt id t (placeOne g pkt id p.1 p.2 s)

/-- The region with a placement to issue whose turn it is: the first from the lane after the one last served (R313). -/
def nextRegion (s : State) : Option (Nat × Region) :=
  let l := s.lau.regions.filter (fun r => !r.2.waiting.isEmpty)
  (l.find? (fun r => decide (s.lau.rotate ≤ r.1))).orElse (fun _ => l.head?)

/-- Issue the placement whose turn it is; a packet's last one frees its space (R290). -/
def issueWaiting (s : State) : State :=
  if !flightRoom s then s
  else match nextRegion s with
  | none => s
  | some (g, r) =>
    match r.waiting with
    | [] => s
    | p :: t =>
      let r := { r with waiting := t, owed := if t.any (fun q => q.pkt = p.pkt) then r.owed else r.owed.filter (fun o => o.1 ≠ p.pkt) }
      updateBoil (served g (issue p.cask p.off p.data (putRegion g r s)))

/-! ### A packet in its frame -/

/-- Lines a run touches, with the bytes it gives each. -/
def runLines (k : FrameCfg) (i : Nat) (bs : List Byte) : List (Nat × Nat) :=
  (runPieces k i bs).map (fun p => (p.1 / max 1 k.stride, p.2.length))

/-- Account a run's bytes to the frame and its lines (R300, R305). -/
def accountLines (t : Nat) : List (Nat × Nat) → Frame → Frame
  | [], fr => fr
  | (y, n) :: rest, fr =>
    accountLines t rest { fr with
      placed := fr.placed + n
      byLine := tabInsert y (tabGet 0 y fr.byLine + n) fr.byLine
      lineAt := match tabFind y fr.lineAt with
        | some _ => fr.lineAt
        | none => tabInsert y t fr.lineAt
      maxLine := max fr.maxLine y }

/-- Ask the encoder for the position at a packet's arrival, for the frame and the lines it begins (R300). -/
def askArrival (fr : Frame) (t : Nat) (s : State) : State :=
  if fr.cfg.encoder ≤ 7 then askPosition fr.cfg.encoder t s else s

/-- What every accepted packet gives its frame (R292, R300, R427): the first gives it its arrival time. -/
def acceptPacket (p : Staged) (t : Nat) (fr : Frame) : Frame :=
  { fr with
    loop := fr.loop || p.desc.loop, npackets := fr.npackets + 1, accepted := t
    first := if fr.first.isNone then some p.desc.ts else fr.first
    hydro := fr.hydro.map (fun h => { h with packets := p.desc.ts :: h.packets }) }

/-- Place a packet's runs in its frame (R287); a corrected word of it marks the frame (R264). -/
def placeRuns (g : Nat) (p : Staged) (runs : List (Nat × List Byte)) (fr : Frame) (s : State) : State :=
  match fr.cask with
  | none => s
  | some id =>
    let t := p.desc.ts
    let fr' := runs.foldl (fun fr r => accountLines t (runLines fr.cfg r.1 r.2) fr) fr
    let fr' := { fr' with last := t, ecc := fr'.ecc || (decide (0 < p.desc.corrected) && runs.any (fun r => !r.2.isEmpty)) }
    runs.foldl (fun s r => placePieces g p.desc.pkt id (runPieces fr.cfg r.1 r.2) s) (askArrival fr t (putFrame fr' s))

/-- A stale packet (R284). -/
def countStale (f : Nat) (s : State) : State := setSticky Oid.lauterStatus 0 1 (bump Oid.lauterStalePackets f s)

/-- A duplicate (R285). -/
def countDuplicate (f : Nat) (s : State) : State := setSticky Oid.lauterStatus 0 2 (bump Oid.lauterDuplicates f s)

/-- A header outside the supported subset (R242, R289). -/
def headerError (g f : Nat) (p : Staged) (s : State) : State :=
  sendException g 0x09 p.desc.ts p.data (bump Oid.flowRxHeaderErrors f s)

/-! ### ST 2110-20 (Table 7.4, R285, R287, R289) -/

/-- A sample row data header: row, offset in pixels, length, with its data. -/
structure Srd where
  row : Nat
  off : Nat
  len : Nat
deriving DecidableEq, Repr

/-- The SRD headers from a byte offset, at most n of them; none when more follow or a field bit is set. -/
def parseSrds : Nat → Nat → List Byte → Option (List Srd × Nat)
  | 0, _, _ => none
  | n + 1, o, b =>
    if b.length < o + 6 then none
    else
      let row := be16 b (o + 2)
      let off := be16 b (o + 4)
      let srd : Srd := { row := row % 32768, off := off % 32768, len := be16 b o }
      if row / 32768 = 1 then none
      else if off / 32768 = 1 then (parseSrds n (o + 6) b).map (fun r => (srd :: r.1, r.2))
      else some ([srd], o + 6)

/-- What an ST 2110-20 packet shows. -/
structure StPacket where
  seq    : Nat
  ts     : Nat
  marker : Bool
  srds   : List Srd
  data   : List Byte
deriving DecidableEq, Repr

/-- Parse the RTP and payload headers within Table 7.4. -/
def parseSt (pt : Nat) (b : List Byte) : Option StPacket :=
  if b.length < 20 || byteAt b 0 != 0x80 || (pt < 128 && byteAt b 1 % 128 != pt) then none
  else match parseSrds 3 14 b with
  | none => none
  | some (srds, o) =>
    let data := b.drop o
    if data.length < (srds.map (fun r => r.len)).sum then none
    else some { seq := be16 b 12 * 65536 + be16 b 2, ts := be32 b 4, marker := byteAt b 1 / 128 = 1, srds := srds, data := data }

/-- An SRD within the frame (R289). -/
def srdOk (k : FrameCfg) (r : Srd) : Bool :=
  let px := (pgOf k.format).1
  let gb := (pgOf k.format).2
  r.off % px = 0 && r.len % gb = 0 && decide (r.row < k.lines) && decide (r.off / px * gb + r.len ≤ k.lineBytes)

/-- The runs of a packet's SRDs (R287). -/
def srdRuns (k : FrameCfg) : List Srd → List Byte → List (Nat × List Byte)
  | [], _ => []
  | r :: t, b =>
    (r.row * k.lineBytes + r.off / (pgOf k.format).1 * (pgOf k.format).2, b.take r.len) :: srdRuns k t (b.drop r.len)

/-- Remember an extended sequence number, the highest first; only the last 4,096 matter (R285). -/
def seeSeq (q : Nat) (seen : List Nat) : List Nat :=
  match seen with
  | [] => [q]
  | h :: t =>
    if 0 < diff32 h q then (q :: h :: t).filter (fun x => diff32 x q < 4096)
    else if diff32 q h < 4096 then h :: q :: t else h :: t

/-- Place one ST 2110-20 packet of flow f, its payload type matched against pt. -/
def placeSt (g f pt : Nat) (p : Staged) (s : State) : State :=
  match (frameUdp p.data).bind (parseSt pt) with
  | none => headerError g f p s
  | some m =>
    let opens := openFrames s f
    let cur := opens.find? (fun fr => fr.key = m.ts)
    let k := match cur with
      | some fr => fr.cfg
      | none => frameCfgOf s f (getObj s Oid.lauterWidth f) (getObj s Oid.lauterHeight f) (getObj s Oid.lauterPixelFormat f)
    if !m.srds.all (srdOk k) then headerError g f p s
    else if m.seq ∈ (flowOf s f).seen then countDuplicate f s
    else
      let s := putFlow f { flowOf s f with seen := seeSeq m.seq (flowOf s f).seen } s
      let stale := match opens with
        | fr :: _ => decide (diff32 fr.key m.ts < 0)
        | [] => false
      if cur.isNone && stale then countStale f s
      else if cur.isNone && (flowOf s f).refused.any (fun r => r.1 = m.ts) then bump Oid.lauterRefusedPackets f s
      else if cur.isNone && !mayOpen s then s
      else
        let s := if cur.isNone then openFrame g f m.ts false k s else s
        match (openFrames s f).find? (fun fr => fr.key = m.ts) with
        | none => s
        | some fr =>
          let fr := acceptPacket p (now s) fr
          let fr := if m.marker then { fr with ended := true, endAt := p.desc.ts } else fr
          tryComplete f fr.seq (placeRuns g p (srdRuns k m.srds m.data) fr s)

/-! ### GVSP (Table 7.5, R283 to R289, R541). PRESUMED: the packet layouts of GigE Vision, which the spec names only. -/

/-- What a GVSP packet shows. -/
structure GvspPacket where
  ext    : Bool
  block  : Nat
  id     : Nat
  format : Nat
  data   : List Byte
deriving DecidableEq, Repr

/-- Parse the GVSP header: status, block ID, packet format and ID, standard or extended. -/
def parseGvsp (b : List Byte) : Option GvspPacket :=
  if b.length < 8 || be16 b 0 != 0 then none
  else
    let c := byteAt b 4
    if c / 128 = 1 then
      if b.length < 20 then none
      else some { ext := true, block := beNat (slice 8 8 b), id := be32 b 16, format := c % 16, data := b.drop 20 }
    else some { ext := false, block := be16 b 2, id := be32 b 4 % 2 ^ 24, format := c % 16, data := b.drop 8 }

/-- The pixel format of a PFNC code (Table 7.5). -/
def pfncFormat (c : Nat) : Option Nat :=
  if c = 0x01080001 then some 0x01 else if c = 0x01100003 then some 0x02 else if c = 0x01100005 then some 0x03
  else if c = 0x01100007 then some 0x04
  else if 0x01080008 ≤ c ∧ c ≤ 0x0108000B then some 0x10
  else if 0x0110000C ≤ c ∧ c ≤ 0x0110000F then some 0x11
  else if 0x01100010 ≤ c ∧ c ≤ 0x01100013 then some 0x12
  else if c = 0x02180014 then some 0x20 else none

/-- A leader within Table 7.5: its format, width and height. -/
def parseLeader (d : List Byte) : Option (Nat × Nat × Nat) :=
  match pfncFormat (be32 d 12) with
  | none => none
  | some fmt => if d.length < 36 || be16 d 2 != 1 || be16 d 32 != 0 then none else some (fmt, be32 d 16, be32 d 20)

/-- A cask no larger than R306 allows a GVSP leader. -/
def caskAllowed (s : State) (f : Nat) (k : FrameCfg) : Bool :=
  decide (caskPages k ≤ 65536) && decide (caskPages k ≤ getObj s Oid.casksFlowQuota f)

/-- The settings of the frame a leader opens, when the leader is within Tables 7.5 and 9.1, R289 and R306. A height of 0 in area scan is one the trailer gives: the frame is laid out for the flow's own height until then (Table 7.5; DEDUCED, entry 61). -/
def leaderCfg (s : State) (f : Nat) (d : List Byte) : Option FrameCfg :=
  match parseLeader d with
  | none => none
  | some (fmt, w, h) =>
    if getObj s Oid.lauterScan f = 1 then
      let k := frameCfgOf s f (getObj s Oid.lauterWidth f) h (getObj s Oid.lauterPixelFormat f)
      if w = k.width && h = 0 && decide (blockPackets k ≤ 1048576) && caskAllowed s f k then some k else none
    else
      let k := { frameCfgOf s f w (if h = 0 then getObj s Oid.lauterHeight f else h) fmt with vary := h = 0 }
      if 1 ≤ w && decide (w ≤ k.maxWidth) && decide (h ≤ k.maxLines) && decide (blockPackets k ≤ 1048576) && caskAllowed s f k
      then some k else none

/-- A leader of a block whose frame is open agrees with the settings the frame opened with (R24, R289). -/
def leaderFits (k : FrameCfg) (d : List Byte) : Bool :=
  match parseLeader d with
  | none => false
  | some (_, w, h) => if k.line then w = k.width && h = 0 else 1 ≤ w && decide (w ≤ k.maxWidth) && decide (h ≤ k.maxLines)

/-- The block ID n places after a, over the cycle of R541. -/
def addBlock (ext : Bool) (a n : Nat) : Nat :=
  if ext then (let b := (a + n) % 2 ^ 64; if b < a then (b + 1) % 2 ^ 64 else b) else (a + n - 1) % 65535 + 1

/-- The open frame of a flow that a block belongs to, with the block's place in it. -/
def frameOfBlock (s : State) (f b : Nat) : Option (Frame × Nat) :=
  (openFrames s f).findSome? (fun fr =>
    let d := blockDiff fr.ext fr.key b
    if fr.cfg.line then (if 0 ≤ d && d < fr.cfg.unitBlocks then some (fr, d.toNat) else none)
    else if d = 0 then some (fr, 0) else none)

/-- A block ID before the older open frame's first (R284). -/
def blockStale (s : State) (f b : Nat) : Bool :=
  match openFrames s f with
  | fr :: _ => decide (blockDiff fr.ext fr.key b < 0)
  | [] => false

/-- A block belongs to a refused frame (R307). -/
def blockRefused (s : State) (f b : Nat) (ext : Bool) : Bool :=
  (flowOf s f).refused.any (fun r => let d := blockDiff ext r.1 b; decide (0 ≤ d) && decide (d < r.2))

/-- Frames that the blocks skipped before b would have formed (R295): in line scan, those of them that begin a unit of u blocks. -/
def skippedFrames (s : State) (f b u : Nat) (ext line : Bool) : Nat :=
  let x := flowOf s f
  match x.lastBlock with
  | none => 0
  | some a =>
    let n := blockDiff ext a b
    if n ≤ 1 then 0
    else if line then
      match x.unitStart with
      | none => 0
      | some st => ((blockDiff ext st b).toNat - 1) / u - (blockDiff ext st a).toNat / u
    else n.toNat - 1

/-- A leader seen: frame_seq passes the skipped frames, and the unit grid moves on in line scan (Table 9.1, R295). Answers whether the block is the first of its frame. -/
def noteLeader (f b : Nat) (ext : Bool) (k : FrameCfg) (s : State) : Bool × State :=
  let u := max 1 k.unitBlocks
  let skip := skippedFrames s f b u ext k.line
  let s := if skip = 0 then s else putObj Oid.lauterFrameSeq f ((getObj s Oid.lauterFrameSeq f + skip) % 2 ^ 32) s
  let x := flowOf s f
  let fwd := match x.lastBlock with
    | some a => decide (0 < blockDiff ext a b)
    | none => true
  let x := if fwd then { x with lastBlock := some b } else x
  if k.line then
    match x.unitStart with
    | none => (true, putFlow f { x with unitStart := some b } s)
    | some st =>
      let d := blockDiff ext st b
      if d < 0 then (false, putFlow f x s)
      else (d.toNat % u = 0, putFlow f { x with unitStart := some (addBlock ext st (d.toNat / u * u)) } s)
  else (true, putFlow f x s)

/-- A packet of a block whose frame is not open: stale, refused or, as `other` counts it, without one (R284, R307). -/
def strayPacket (f b : Nat) (ext : Bool) (other : State → State) (s : State) : State :=
  if blockStale s f b then countStale f s
  else if blockRefused s f b ext then bump Oid.lauterRefusedPackets f s
  else other s

/-- A leader that no open frame has opens its own. -/
def leaderOpens (g f : Nat) (p : Staged) (m : GvspPacket) (k : FrameCfg) (s : State) : State :=
  if !mayOpen s then s
  else
    let r := noteLeader f m.block m.ext k s
    if !r.1 then r.2
    else
      let s := openFrame g f m.block m.ext k r.2
      match frameOfBlock s f m.block with
      | none => s
      | some e => askArrival e.1 p.desc.ts (putFrame { acceptPacket p (now s) e.1 with leaders := [m.block] } s)

/-- A leader (Table 9.1). -/
def placeLeader (g f : Nat) (p : Staged) (m : GvspPacket) (s : State) : State :=
  match frameOfBlock s f m.block with
  | some (fr, _) =>
    if !leaderFits fr.cfg m.data then headerError g f p s
    else
      let r := noteLeader f m.block m.ext fr.cfg s
      askArrival fr p.desc.ts
        (putFrame { acceptPacket p (now s) fr with leaders := if m.block ∈ fr.leaders then fr.leaders else m.block :: fr.leaders } r.2)
  | none =>
    match leaderCfg s f m.data with
    | none => headerError g f p s
    | some k =>
      strayPacket f m.block m.ext (leaderOpens g f p m k) s

/-- A payload packet of the length R287 gives its ID; while the height is still to come, any packet may be the last. -/
def payloadOk (k : FrameCfg) (id len : Nat) : Bool :=
  let n := blockPackets k
  decide (1 ≤ id) && decide (id ≤ n) &&
    (len = (if id < n then k.pktBytes else blockBytes k - (n - 1) * k.pktBytes) || (k.vary && decide (1 ≤ len) && decide (len ≤ k.pktBytes)
      && decide ((id - 1) * k.pktBytes + len ≤ blockBytes k)))

/-- A payload packet. -/
def placePayload (g f : Nat) (p : Staged) (m : GvspPacket) (s : State) : State :=
  match frameOfBlock s f m.block with
  | none => strayPacket f m.block m.ext (bump Oid.lauterNoLeader f) s
  | some (fr, j) =>
    if m.block ∉ fr.leaders then bump Oid.lauterNoLeader f s
    else if !payloadOk fr.cfg m.id m.data.length then headerError g f p s
    else if (m.block, m.id) ∈ fr.ids then countDuplicate f s
    else
      let fr := { acceptPacket p (now s) fr with ids := (m.block, m.id) :: fr.ids }
      let i := j * blockBytes fr.cfg + (m.id - 1) * fr.cfg.pktBytes
      tryComplete f fr.seq (placeRuns g p [(i, m.data)] fr s)

/-- The trailer's height, which the delivered frame has when its leader gave 0 (Table 7.5); `none` when it gives none that the frame can have. -/
def trailerCfg (k : FrameCfg) (d : List Byte) : Option FrameCfg :=
  if d.length < 8 || be16 d 2 != 1 then none
  else if !k.vary then some k
  else
    let h := be32 d 4
    if 1 ≤ h && decide (h ≤ k.maxLines) then some { k with lines := h, vary := false } else none

/-- A trailer: the end marker of its frame when its block is the last (Table 9.1). -/
def placeTrailer (g f : Nat) (p : Staged) (m : GvspPacket) (s : State) : State :=
  if m.data.length < 8 || be16 m.data 2 != 1 then headerError g f p s
  else match frameOfBlock s f m.block with
  | none => strayPacket f m.block m.ext (bump Oid.lauterNoLeader f) s
  | some (fr, j) =>
    match trailerCfg fr.cfg m.data with
    | none => headerError g f p s
    | some k =>
      let fr := { acceptPacket p (now s) fr with
        cfg := k, trailers := if m.block ∈ fr.trailers then fr.trailers else m.block :: fr.trailers }
      let fr := if !k.line || j + 1 = k.unitBlocks then { fr with ended := true, endAt := p.desc.ts } else fr
      tryComplete f fr.seq (putFrame fr s)

/-- Place one GVSP packet of flow f. -/
def placeGvsp (g f : Nat) (p : Staged) (s : State) : State :=
  match (frameUdp p.data).bind parseGvsp with
  | none => headerError g f p s
  | some m =>
    if m.block = 0 then headerError g f p s
    else match m.format with
    | 1 => placeLeader g f p m s
    | 2 => placeTrailer g f p m s
    | 3 => placePayload g f p m s
    | _ => headerError g f p s

/-! ### The engine's step (R287) -/

/-- The lauter engine works in the receiving modes, and in Limp on lane L0 (Table 9.9). -/
def lauterRuns (s : State) (g : Nat) : Bool := receives s.modes.current || (s.modes.current = .limp && g = 0)

/-- The first committed packet of a region. -/
def readyPacket (s : State) (g : Nat) : Option Staged := (regionOf s g).packets.find? (fun p => p.ready)

/-- A packet belongs to an open frame, by the settings the frame opened with (R24). -/
def carriedBy (p : Staged) (fr : Frame) : Bool :=
  match frameUdp p.data with
  | none => false
  | some b =>
    if fr.cfg.gvsp then
      (match parseGvsp b with
        | some m =>
          let d := blockDiff fr.ext fr.key m.block
          if fr.cfg.line then 0 ≤ d && d < fr.cfg.unitBlocks else d = 0
        | none => false)
    else
      (match parseSt fr.cfg.rtpPt b with
        | some m => m.ts = fr.key
        | none => false)

/-- Place a packet of flow f: in an open frame by that frame's settings, else by the flow's as they stand (R24). -/
def placeFlow (g f : Nat) (p : Staged) (s : State) : State :=
  match (openFrames s f).find? (carriedBy p) with
  | some fr => if fr.cfg.gvsp then placeGvsp g f p s else placeSt g f fr.cfg.rtpPt p s
  | none =>
    match getObj s Oid.flowRxType f with
    | 1 => placeSt g f (getObj s Oid.flowRxRtpPt f) p s
    | 2 => placeGvsp g f p s
    | _ => s

/-- A packet of region g has been dealt with: it keeps its space while it has placements to issue (R290, R291); markers ahead of it have been passed (R269). -/
def passPacket (g : Nat) (p : Staged) (s : State) : State :=
  let r := regionOf s g
  let more := r.waiting.any (fun w => w.pkt = p.desc.pkt)
  updateBoil (putRegion g { r with
    packets := r.packets.filter (fun q => q.desc.pkt ≠ p.desc.pkt)
    owed := if more then r.owed ++ [(p.desc.pkt, stagedBytes p)] else r.owed
    markers := r.markers.filter (fun m => decide (p.desc.pkt ≤ m.1)) } s)

/-- Parse the first committed packet of region g and deal with it by its destination. -/
def placePacket (g : Nat) (s : State) : State :=
  match readyPacket s g with
  | none => s
  | some p =>
    passPacket g p (match p.desc.dest with
      | .firmware => firmwareFrame g p.desc.ts p.data s
      | .exception reason => sendException g reason p.desc.ts p.data s
      | .flow f => if !lauterRuns s g || isRetired s (resRxFlow f) then s else placeFlow g f p s)

/-- The flow on which the first packet of region g opens a frame, if it does: the frame number moves on (R295). -/
def opensFrame (g : Nat) (s : State) : Option Nat :=
  match (readyPacket s g).bind (fun p => destFlow p.desc.dest) with
  | none => none
  | some f => if getObj (placePacket g s) Oid.lauterFrameSeq f = getObj s Oid.lauterFrameSeq f then none else some f

/-! ### The commit (R293, R301 to R305, R311, R375) -/

/-- The stamp of each line, oldest line first (R299, R300). -/
def lineStamps (fr : Frame) (base : Option Nat) : Nat → State → List Stamp × State
  | 0, s => ([], s)
  | n + 1, s =>
    let r := lineStamps fr base n s
    let q := stampFor fr.flow fr.cfg (base.map (fun b => b + n)) (tabFind n fr.lineAt) r.2
    (r.1 ++ [q.1], q.2)

/-- A per-line record, Table 9.6. -/
def lineRecord (fr : Frame) (y : Nat) (st : Stamp) : List Byte :=
  let n := tabGet 0 y fr.byLine
  wordBytes [b2n (decide (fr.cfg.lineBytes ≤ n)) * 2 ^ 31 + b2n st.valid * 2 ^ 30 + tNs st.time % 2 ^ 30,
    tSec st.time % 2 ^ 32, tFrac st.time * 65536 + tSec st.time / 2 ^ 32 % 65536, st.pos % 2 ^ 32,
    b2n st.fromTrigger * 2 ^ 19 + st.enc % 8 * 65536 + st.pos / 2 ^ 32 % 65536, n % 2 ^ 32, st.trig, 0]

/-- Write the records of the lines from y on (R305). -/
def writeRecords (fr : Frame) (id : Nat) : Nat → List Stamp → State → State
  | _, [], s => s
  | y, st :: t, s => writeRecords fr id (y + 1) t (writeCask id (recordBase fr.cfg + 32 * y) (lineRecord fr y st) s)

/-- Tag flags the lauter engine and the hydrometer set (Table 9.5). -/
def tagFlags (fr : Frame) (st : Stamp) : Nat :=
  let hv := match fr.hydro with | some h => h.valid | none => false
  b2n (fr.cause = some 1) + 2 * b2n (fr.cause ≠ some 1) + 4 * b2n (fr.gaps ≠ 0) + 8 * b2n (fr.rewound ≠ 0) + 32 * b2n hv
    + 64 * b2n fr.locked + 128 * b2n st.valid + 256 * b2n st.late + 512 * b2n fr.loop + 1024 * b2n fr.ecc

/-- Lines − 1 of the tag (Table 9.4). -/
def tagLines (fr : Frame) : Nat := if fr.cfg.line && fr.cause = some 5 then fr.maxLine else fr.cfg.lines - 1

/-- Tag words 0 to 15 at commit; words 11, 12, 15 and the compression field are the racking engine's (Table 9.4, R301). -/
def tagWords (fr : Frame) (st : Stamp) : List Nat :=
  let dur := (((tUnits fr.last : Int) - tUnits st.time) / 65536).toNat
  let expo := if fr.cfg.exposure ≠ 0 then fr.cfg.exposure else min dur 0xFFFFFFFF
  let w14 := match fr.hydro with
    | some h => h.set * 2 ^ 24 + h.failed * 256 + h.verdict
    | none => 0xFF * 2 ^ 24
  [2 * 2 ^ 28 + fr.flow * 65536 + tagFlags fr st, fr.seq] ++ timeTagWords st.time ++
  [expo, st.trig, st.pos % 2 ^ 32, b2n st.valid * 2 ^ 19 + st.enc % 8 * 65536 + st.pos / 2 ^ 32 % 65536,
    fr.cfg.format * 65536 + (fr.cfg.width - 1), tagLines fr, 0, 0, min fr.rewound 0xFFFF * 65536 + min fr.gaps 0xFFFF, w14, 0]

/-- Drop-oldest at a commit on ring r (R375): casks of the ring's drop-oldest flows go, oldest commit first, until the level is below the watermark. -/
def dropOldest (r : Nat) : List (Nat × Cask) → State → State
  | [], s => s
  | (id, c) :: t, s =>
    if ringLevel s r < getObj s Oid.rackingRingHigh r then s
    else
      let mine := match c.cfg with | some k => k.ring = r && k.rpolicy = 2 | none => false
      if mine then
        dropOldest r t (setSticky Oid.rackingStatus 0 8 (bump Oid.rackingFlowDroppedOldest c.flow (loseCask id 5 s)))
      else dropOldest r t s

/-- The frame's cask takes its tag and state, and returns the reservation it did not use (R308, R311). -/
def commitCask (id : Nat) (fr : Frame) (tag : List Nat) (s : State) : State :=
  match caskOf s id with
  | none => s
  | some c =>
    let n := s.lau.commits
    let st := if s.modes.current = .burst then 4 else 3
    let c' : Cask := { c with state := st, reserved := c.pages.length, tag := tag, placed := fr.placed, committed := n }
    updateLevels fr.flow fr.cfg.ring (putCask id (some c') { s with lau := { s.lau with commits := n + 1 } })

/-- The commit of a frame (R19 steps 2 and 3, R293). -/
def commitFrame (fr : Frame) (id : Nat) (s : State) : State :=
  let k := fr.cfg
  let base := if k.stamped then some (stampBase s fr.flow fr.seq (if k.line then k.lines else 1)) else none
  let s := countMissing fr.flow base (if k.line then k.lines else 1) s
  let fs := stampFor fr.flow k base (if k.line then tabFind 0 fr.lineAt else fr.first) s
  let s := fs.2
  let s :=
    if k.side then
      let ls := lineStamps fr (if k.line then base else none) k.lines s
      writeRecords fr id 0 ls.1 ls.2
    else s
  let s := commitCask id fr (tagWords fr fs.1) s
  let s := { s with lau := { s.lau with frames := s.lau.frames.filter (fun g => !(g.flow = fr.flow && g.seq = fr.seq)) } }
  let s := bump Oid.lauterFramesCommitted fr.flow s
  let s := if fr.cause = some 1 then s else bump Oid.lauterFramesTruncated fr.flow s
  let s := match fr.hydro with
    | some h => fileRecord fr h s
    | none => s
  let s := putFlow fr.flow { flowOf s fr.flow with lastPackets := fr.npackets } s
  let s := purgeStamps fr.flow (usedStamps fr.flow base (if k.line then k.lines else 1) s)
  flowSignal 2 fr.flow (dropOldest k.ring (casksIn 3 s) s)

/-! ### Rows -/

/-- The pseudo-channel slot that serves an address: all of the staging SRAM is one. -/
def memSlot (a : Nat) : Nat := if a < hbmTop then pageSlot (a / 65536) else 128

/-- The placement in flight that completes when the k-th's turn has come: writes of one PC are performed in the order they were issued (R330). -/
def firstOfPc (s : State) (k : Nat) : Option (Nat × Placement) :=
  match s.lau.flight[k]? with
  | none => none
  | some p => (s.lau.flight.zipIdx.find? (fun q => memSlot q.1.addr = memSlot p.addr)).map (fun q => (q.2, q.1))

/-- PLACEMENT_COMPLETE (R330): the oldest placement in flight of the k-th's PC is performed; a discarded one only leaves the count (R314). -/
def execPlacementComplete (k : Fin 16384) (s : State) : Host.Outcome State Fault Refusal :=
  match firstOfPc s k.val with
  | none => .next s
  | some (i, p) =>
    let s := if p.live then writePerformed p.addr p.data s else s
    let s := issueWaiting { s with lau := { s.lau with flight := s.lau.flight.eraseIdx i } }
    match s.lau.frames.find? (fun fr => fr.cask = some p.cask) with
    | some fr => .next (tryComplete fr.flow fr.seq s)
    | none => .next s

/-- Add a notice to the frame open on a flow, the newest of two, or to the next (R18). -/
def addNotice (gap : Bool) (f : Nat) (s : State) : State :=
  match (openFrames s f).getLast? with
  | some fr => putFrame (if gap then { fr with gaps := fr.gaps + 1 } else { fr with rewound := fr.rewound + 1 }) s
  | none =>
    let x := flowOf s f
    putFlow f (if gap then { x with gaps := x.gaps + 1 } else { x with rewound := x.rewound + 1 }) s

/-- REWIND_NOTICE (R18): the engine takes the first notice waiting. -/
def execRewindNotice (s : State) : Host.Outcome State Fault Refusal :=
  match s.lau.notices with
  | [] => .next s
  | n :: t =>
    let s := dropStaged n.lane n.pkt { s with lau := { s.lau with notices := t } }
    match n.flow with
    | some f => .next (addNotice n.gap f s)
    | none => .next s

/-- The resend delay of a frame has passed since a time (R297). -/
def resendDelayed (s : State) (fr : Frame) (at_ : Nat) : Bool := decide (tAddNs at_ (fr.cfg.resendDelay * 1000) ≤ now s)

/-- A resend of the frame is outstanding (R297): a requested packet ID is still missing, and may be requested again or was last requested within the resend delay. -/
def resendOutstanding (s : State) (fr : Frame) : Bool :=
  fr.cfg.resend && fr.resends.any (fun r =>
    decide ((r.1 / 2 ^ 32, r.1 % 2 ^ 32) ∉ fr.ids) && (decide (r.2.1 < fr.cfg.resendMax) || !resendDelayed s fr r.2.2))

/-- STRAGGLE_TIMEOUT (R292). -/
def execStraggleTimeout (f : Flow) (s : State) : Host.Outcome State Fault Refusal :=
  match (openFrames s f.val).find? (fun fr => fr.ended && decide (fr.placed < expectedTotal fr.cfg) && !resendOutstanding s fr) with
  | some fr => .next (closeFrame fr 2 s)
  | none => .next s

/-- A receive flow retires: its open frames close for cause 5 (R506). -/
def flowFault (f : Nat) (s : State) : State :=
  let r := recordFault (resRxFlow f) 1 false s
  if r.2 = .retire then stopFlow f r.1 else r.1

/-- The open frame of a flow that has been without a packet longest; of equals, the oldest. -/
def idlest : List Frame → Option Frame
  | [] => none
  | fr :: t => match idlest t with
    | some o => if o.accepted < fr.accepted then some o else some fr
    | none => some fr

/-- FRAME_IDLE_TIMEOUT (R292): the idle frame of the flow closes for cause 3, a fault of the flow (Table 17.1). -/
def execFrameIdleTimeout (f : Flow) (s : State) : Host.Outcome State Fault Refusal :=
  match idlest (openFrames s f.val) with
  | some fr => .next (flowFault f.val (closeFrame fr 3 s))
  | none => .next s

/-- FRAME_COMMIT (R293): the oldest closed frame of the flow whose placements are complete and whose statistics are closed. -/
def execFrameCommit (f : Flow) (s : State) : Host.Outcome State Fault Refusal :=
  match s.lau.frames.findSome? (fun fr => match fr.cask with
    | some id =>
      let ready := match fr.hydro with | some h => h.closed | none => true
      if fr.flow = f.val && fr.cause.isSome && ready && !caskBusy s id then some (fr, id) else none
    | none => none) with
  | some (fr, id) => .next (commitFrame fr id s)
  | none => .next s

/-- A GVCP PACKETRESEND command for one packet ID. PRESUMED: the layout of GigE Vision. -/
def resendCommand (ext : Bool) (req block id : Nat) : List Byte :=
  if ext then
    beBytes 1 0x42 ++ beBytes 1 0x10 ++ beBytes 2 0x0040 ++ beBytes 2 20 ++ beBytes 2 req ++ beBytes 2 0 ++ beBytes 2 0
      ++ beBytes 4 id ++ beBytes 4 id ++ beBytes 8 block
  else
    beBytes 1 0x42 ++ beBytes 1 0 ++ beBytes 2 0x0040 ++ beBytes 2 12 ++ beBytes 2 req ++ beBytes 2 0 ++ beBytes 2 block
      ++ beBytes 4 id ++ beBytes 4 id

/-- Send a PACKETRESEND to the flow's source on UDP port 3956 (R243). The source's MAC address, which the spec does not say how the firmware learns, is a free value. -/
def sendResend (f block id : Nat) (ext : Bool) (s : State) : State :=
  let p := getObj s Oid.flowRxPort f
  let r := takeFree s
  let s := r.2
  let v6 := rxSrc s f / 2 ^ 32 ≠ 0xFFFF
  let src := if v6 then portIpv6 s p else mapped4 (getObj s Oid.portIpv4 p)
  let n := getObj s Oid.lauterResendsRequested f % 65535 + 1
  let u := udpDatagram v6 src (rxSrc s f) (getObj s Oid.portResendUdp p) 3956 (resendCommand ext n block id)
  let pkt := if v6 then ipv6Packet src (rxSrc s f) 17 0 64 u else ipv4Packet src (rxSrc s f) 17 0 64 true [] u
  sendFirmware p (r.1.toNat % 2 ^ 48) (if v6 then 0x86DD else 0x0800) pkt s

/-- RESEND_REQUEST (R297): a packet ID of an open block is missing after a higher one, or at the trailer. -/
def execResendRequest (f : Flow) (block : Dword) (id : Word) (s : State) : Host.Outcome State Fault Refusal :=
  match frameOfBlock s f.val block.toNat with
  | none => .next s
  | some (fr, _) =>
    let key := block.toNat * 2 ^ 32 + id.toNat
    let asked := tabGet (0, 0) key fr.resends
    let missing := decide ((block.toNat, id.toNat) ∉ fr.ids) && decide (1 ≤ id.toNat) && decide (id.toNat ≤ blockPackets fr.cfg)
    let due := decide (block.toNat ∈ fr.trailers) || fr.ids.any (fun q => q.1 = block.toNat && decide (id.toNat < q.2))
    let again := asked.1 = 0 || resendDelayed s fr asked.2
    if fr.cfg.resend && missing && due && again && decide (block.toNat ∈ fr.leaders) && decide (asked.1 < fr.cfg.resendMax) then
      let s := putFrame { fr with resends := tabInsert key (asked.1 + 1, now s) fr.resends } s
      .next (bump Oid.lauterResendsRequested f.val (sendResend f.val block.toNat id.toNat fr.ext s))
    else .next s

end Sys2Proof.Machine
end

