-- ==== Sys2Proof/Machine/Tags.lean ====
section
/-! DEFINITION. The pool of non-posted tags (R22, R486, R488), read requests to the host, and the translation cache of page lists (R352 to R354) that the racking engine and the tap share. -/

namespace Sys2Proof.Machine

open Sys2Proof

/-- Tags that may be used: the pool less quarantined tags, less those outstanding (R486). -/
def tagsFree (s : State) : Nat := s.link.tagPool - s.link.quar.length - s.link.tags.length

/-- The k-th number, from 0, that a rising list does not hold. -/
def nthUnused (k : Nat) : List Nat → Nat
  | [] => k
  | u :: t => if u ≤ k then nthUnused (k + 1) t else k

/-- Issue a read of n bytes at a host address with a free tag, if there is one; which, the spec leaves open. -/
def hostRead (use : TagUse) (addr len : Nat) (s : State) : State :=
  if tagsFree s = 0 then s
  else
    let used := sortBy id (s.link.tags.map (fun t => t.tag) ++ s.link.quar.map (fun t => t.tag))
    let r := takeChoice (tagsFree s) s
    let tag := nthUnused r.1 used
    let s := r.2
    emit (.memRead tag addr len) { s with link := { s.link with tags := s.link.tags ++ [{ tag := tag, use := use, addr := addr, len := len }] } }

/-- An outstanding request of a tag. -/
def tagEntry (s : State) (tag : Nat) : Option TagEntry := s.link.tags.find? (fun t => t.tag = tag)

/-- A tag is no longer outstanding. -/
def freeTag (tag : Nat) (s : State) : State := { s with link := { s.link with tags := s.link.tags.filter (fun t => t.tag ≠ tag) } }

/-- A request for a use is outstanding. -/
def requested (s : State) (use : TagUse) : Bool := s.link.tags.any (fun t => t.use = use)

/-! ### Page lists (R352 to R354). A list of the cache's keys: 0 to 1,023 delivery rings, 1,024 the exception ring, 2,048 + t tap ring t. -/

/-- Bytes of a data page. -/
def pageBytes (big : Bool) : Nat := if big then 2097152 else 4096

/-- The host address of an offset, if its translation is cached. -/
def tlbFind (s : State) (ring page : Nat) : Option TlbEntry := s.rk.tlb.find? (fun e => e.ring = ring && e.page = page)

/-- An entry becomes the most recently used; the least recently used of 4,096 goes. -/
def tlbTouch (e : TlbEntry) (s : State) : State :=
  { s with rk := { s.rk with tlb := (e :: s.rk.tlb.filter (fun x => !(x.ring = e.ring && x.page = e.page))).take 4096 } }

/-- Remove a ring's translations (R354). -/
def tlbDrop (ring : Nat) (s : State) : State := { s with rk := { s.rk with tlb := s.rk.tlb.filter (fun x => x.ring ≠ ring) } }

/-- A list of translations starts afresh: its entries go, and a walk still outstanding fills nothing (R354). -/
def tlbForget (ring : Nat) (s : State) : State :=
  let mine (u : TagUse) : Bool := match u with
    | .walk r _ _ => r = ring
    | .tapWalk r _ _ => r + 2048 = ring
    | .zero _ _ => false
    | .tapData _ _ _ => false
    | .discard => false
  tlbDrop ring { s with link := { s.link with tags := s.link.tags.map (fun t => if mine t.use then { t with use := .discard } else t) } }

/-- Start the walk of a page: the directory entry is read (R353, R354). -/
def startWalk (ring page dir : Nat) (s : State) : State :=
  let use := if ring < 2048 then TagUse.walk ring page false else TagUse.tapWalk (ring - 2048) page false
  let use' := if ring < 2048 then TagUse.walk ring page true else TagUse.tapWalk (ring - 2048) page true
  if requested s use || requested s use' || tagsFree s = 0 then s
  else hostRead use (dir + 8 * (page / 512)) 8 (bump Oid.rackingWalkReads 0 (bump Oid.rackingTlbMisses 0 s))

/-- Translate a ring offset: the host address, or none while the page is walked. -/
def translate (ring dir : Nat) (big : Bool) (v : Nat) (s : State) : Option Nat × State :=
  let p := v / pageBytes big
  match tlbFind s ring p with
  | some e => (some (e.host + v % pageBytes big), tlbTouch e (bump Oid.rackingTlbHits 0 s))
  | none => (none, startWalk ring p dir s)

/-- A page list entry is valid for a data page (R353): bit 0, and no low address bits of a 2 MiB page. -/
def pageEntryOk (big : Bool) (e : Nat) : Bool := e % 2 = 1 && (!big || e / 4096 % 512 = 0)

/-- Cache the valid entries among the eight of a table read (R354). -/
def cacheEight (ring page0 : Nat) (big : Bool) (data : List Byte) : Nat → State → State
  | 0, s => s
  | n + 1, s =>
    let s := cacheEight ring page0 big data n s
    let e := leNat (padTo 8 (slice (8 * n) 8 data))
    if pageEntryOk big e then tlbTouch { ring := ring, page := page0 + n, host := e / 4096 * 4096 } s else s

/-- What a walk read that returned its data leads to (R353, R354): a fault code, or the cache filled or the table read issued. -/
def walkReturn (ring page : Nat) (table big : Bool) (data : List Byte) (s : State) : Option Nat × State :=
  if !table then
    let d := leNat (padTo 8 (data.take 8))
    if d % 2 = 0 then (some 1, s)
    else
      let use := if ring < 2048 then TagUse.walk ring page true else TagUse.tapWalk (ring - 2048) page true
      (none, hostRead use (d / 4096 * 4096 + page % 512 / 8 * 64) 64 (bump Oid.rackingWalkReads 0 s))
  else
    let e := leNat (padTo 8 (slice (page % 8 * 8) 8 data))
    let s := cacheEight ring (page / 8 * 8) big data 8 s
    if pageEntryOk big e then (none, tlbTouch { ring := ring, page := page, host := e / 4096 * 4096 } s) else (some 2, s)

end Sys2Proof.Machine
end

