-- ==== Sys2Proof/Machine/Racking.lean ====
section
/-! DEFINITION. The racking engine (11_racking): rings, completion queues, deliveries, page-list walks, ring faults, and the exception ring (R349 to R384). -/

namespace Sys2Proof.Machine

open Sys2Proof

/-! ### Slots and needs (R350, R351) -/

/-- Slot need of a frame's settings (R351). -/
def slotNeed (k : FrameCfg) : Nat :=
  let raw := k.lines * k.stride
  let payload := if k.compress && decide (alfBound k.lines k.lineBytes ≤ 0xFFFFFFFF) then alfBound k.lines k.lineBytes else raw
  4096 + (payload + 4095) / 4096 * 4096 + (if k.side then 32 * k.lines else 0)

/-- Slot need of a flow as its objects stand: the largest frame it may open (R351). -/
def flowNeed (s : State) (f : Nat) : Nat :=
  slotNeed (frameCfgOf s f (getObj s Oid.lauterWidth f) (getObj s Oid.lauterHeight f) (getObj s Oid.lauterPixelFormat f))

/-- A ring's objects of group 40 as they stand (R358). -/
def ringCfgOf (s : State) (r : Nat) : RingCfg :=
  { dir := getObj s Oid.rackingRingDir r, dirEntries := getObj s Oid.rackingRingDirEntries r, bigPage := getObj s Oid.rackingRingPage r = 1
    slots := getObj s Oid.rackingRingSlots r, slotBytes := getObj s Oid.rackingRingSlotBytes r, cq := getObj s Oid.rackingRingCq r
    inOrder := getObj s Oid.rackingRingOrder r = 1 }

/-- Flows that name ring r, enabled. -/
def flowsOfRing (s : State) (r : Nat) : List Nat :=
  (List.range 4096).filter (fun f => getObj s Oid.flowRxType f != 0 && getObj s Oid.rackingFlowRing f = r)

/-- The checks of an enable (R358). -/
def ringEnableOk (s : State) (r : Nat) : Bool :=
  let c := ringCfgOf s r
  decide (c.slots * c.slotBytes ≤ c.dirEntries * 512 * pageBytes c.bigPage) &&
    (flowsOfRing s r).all (fun f => decide (flowNeed s f ≤ c.slotBytes)) && (cqOf s c.cq).enabled

/-! ### Completion queues (R365, R366) -/

/-- The fault code of ring r, 0 when none (Table 11.8). -/
def ringFaultOf (s : State) (r : Nat) : Nat := getObj s Oid.rackingRingFault r

/-- One reserved entry of a queue is used or given back. -/
def unreserve (c : Nat) (s : State) : State := let q := cqOf s c; putCq c { q with reserved := q.reserved - 1 } s

/-- Write an entry for which one was reserved. -/
def writeReserved (c : Nat) (e : Entry) (s : State) : State := writeEntry c e (unreserve c s)

/-- Entries reserved for deliveries and abandoned slots whose rings name queue c. -/
def owedEntries (s : State) (c : Nat) : Nat :=
  (s.rk.deliveries.filter (fun d => (ringOf s d.ring).cfg.cq = c)).length
    + ((s.rk.rings.filter (fun r => r.2.cfg.cq = c)).map (fun r => r.2.abandoned.length)).sum

/-- A write of `racking.cq_enable` = 1 (R365). -/
def enableCq (c : Nat) (s : State) : State :=
  if (cqOf s c).enabled then putObj Oid.rackingCqEnable c 1 s
  else
    let q : CqX := { enabled := true, base := getObj s Oid.rackingCqBase c, entries := getObj s Oid.rackingCqEntries c, reserved := owedEntries s c }
    putCq c q (putObj Oid.rackingCqEnable c 1 s)

/-- A ring that is enabled names queue c. -/
def cqInUse (s : State) (c : Nat) : Bool := s.rk.rings.any (fun r => r.2.enabled && r.2.cfg.cq = c)

/-- A write of `racking.cq_enable` = 0. -/
def disableCq (c : Nat) (s : State) : State := putCq c {} (putObj Oid.rackingCqEnable c 0 s)

/-! ### Abandoned slots (R381, R382) -/

/-- The type 3 entry of an abandoned slot (Table 11.5). -/
def abandonedEntry (r : Nat) (a : Abandoned) : Entry :=
  { type := 3, flow := a.flow, cask := a.cask, flags := 0, ring := r, slot := a.slot, seq := a.seq, bytes := 0, records := 0
    image := a.image, status := a.code }

/-- Write the entries of a list of abandoned slots. -/
def writeAbandoned (r : Nat) : List Abandoned → State → State
  | [], s => s
  | a :: t, s =>
    let c := (ringOf s r).cfg.cq
    let s := if (cqOf s c).enabled then writeReserved c (abandonedEntry r a) s else s
    let x := ringOf s r
    writeAbandoned r t (putRing r { x with done := (x.done + 1) % countMod } s)

/-- Put an abandoned slot in assignment order, which the ring's present count closes. -/
def keepAbandoned (assigned : Nat) (a : Abandoned) : List Abandoned → List Abandoned
  | [] => [a]
  | b :: t => if countDiff assigned b.count < countDiff assigned a.count then a :: b :: t else b :: keepAbandoned assigned a t

/-- Stop the deliveries a condition names: casks return to state 3, slots are abandoned with a code (R381, R382). A cask invalidated while in delivery is released, lost at index 3 (R314). -/
def stopDeliveries (code : Nat) (p : Delivery → Bool) (s : State) : State :=
  (s.rk.deliveries.filter p).foldl (fun s d =>
    let x := ringOf s d.ring
    let a : Abandoned := match caskOf s d.cask with
      | some c => { count := d.count, slot := d.count % x.cfg.slots, flow := c.flow, cask := d.cask, seq := c.seq
                    image := (match c.cfg with | some k => imageBytes k | none => 0), code := code }
      | none => { count := d.count, slot := d.count % x.cfg.slots, flow := 0, cask := d.cask, seq := 0, image := 0, code := code }
    let s := putRing d.ring { x with abandoned := keepAbandoned x.assigned a x.abandoned } s
    let s := { s with rk := { s.rk with deliveries := s.rk.deliveries.filter (fun e => !(e.ring = d.ring && e.count = d.count)) } }
    match caskOf s d.cask with
    | some c => if c.poisoned then loseCask d.cask 3 s else setCaskState d.cask 3 s
    | none => s) s

/-- The type 4 entry of a ring that faults (Table 11.4); the flow, cask and image bytes it holds, the spec leaves open. -/
def faultEntry (r code : Nat) (s : State) : Entry × State :=
  let f := takeChoice 4096 s
  let k := takeChoice 65536 f.2
  let i := takeChoice (2 ^ 32) k.2
  ({ type := 4, flow := f.1, cask := k.1, flags := 0, ring := r, slot := 0xFFFFFFFF, seq := 0, bytes := 0, records := 0
     image := i.1, status := code }, i.2)

/-- The ring faults with a code (R381): the deliveries named stop, a type 4 entry is written when there is room, the fault is logged. A second fault of a faulted ring stops its deliveries only (entry 150). -/
def ringFault (r code : Nat) (p : Delivery → Bool) (s : State) : State :=
  let s := stopDeliveries code (fun d => d.ring = r && p d) s
  if ringFaultOf s r ≠ 0 then s
  else
    let s := putObj Oid.rackingRingFault r code s
    let c := (ringOf s r).cfg.cq
    let q := cqOf s c
    let s :=
      if q.enabled && !q.faulted && decide (0 < cqFree q) && hostWritable s && !s.rk.stopped then
        let e := faultEntry r code s
        writeEntry c e.1 e.2
      else s
    logUntracked (resRing r) code 0 (setSticky Oid.rackingStatus 0 0x40 s)

/-- Queue c faults: so does every enabled ring that names it, with code 6 (R366). -/
def cqFault (c : Nat) (s : State) : State :=
  let s := logUntracked (resCq c) 6 0 (putCq c { cqOf s c with faulted := true } s)
  ((s.rk.rings.filter (fun r => r.2.enabled && r.2.cfg.cq = c)).map (fun r => r.1)).foldl (fun s r => ringFault r 6 (fun _ => true) s) s

/-! ### Enable and disable (R358) -/

/-- A ring whose last delivery has ended while it was being disabled is disabled. -/
def ringDrained (r : Nat) (s : State) : State :=
  let x := ringOf s r
  if x.disabling && !(s.rk.deliveries.any (fun d => d.ring = r)) then putRing r { x with disabling := false } s else s

/-- A write of `racking.ring_enable` = 1 whose checks pass: entries of abandoned slots first, then the ring starts afresh (R356, R358, R381). -/
def enableRing (r : Nat) (s : State) : State :=
  if (ringOf s r).enabled then putObj Oid.rackingRingEnable r 1 s
  else
    let old := (ringOf s r).abandoned
    let s := if s.rk.resetStop then { s with rk := { s.rk with stopped := false, resetStop := false } } else s
    let can := hostWritable s && !s.rk.stopped
    let s := if can then writeAbandoned r old s else s
    let x : RingX := { enabled := true, cfg := ringCfgOf s r, above := (ringOf s r).above, abandoned := if can then [] else old }
    putObj Oid.rackingRingFault r 0 (putObj Oid.rackingRingEnable r 1 (tlbForget r (putRing r x s)))

/-- A write of `racking.ring_enable` = 0. -/
def disableRing (r : Nat) (s : State) : State :=
  let x := ringOf s r
  let s := putRing r { x with enabled := false, disabling := x.enabled } (putObj Oid.rackingRingEnable r 0 s)
  ringDrained r (tlbDrop r s)

/-! ### Modes (Table 11.10) -/

/-- The engine may start deliveries; it also does while a mode change drains (R48). -/
def rackingStarts (s : State) : Bool :=
  !busStopped s && !s.rk.stopped &&
    (s.modes.draining || s.modes.current = .ready || s.modes.current = .capture || s.modes.current = .analyse || s.modes.current = .replay || s.modes.current = .limp)

/-- Deliveries already started go on: in Burst too (R377). -/
def rackingRuns (s : State) : Bool := rackingStarts s || (!busStopped s && !s.rk.stopped && s.modes.current = .burst)

/-! ### Starting a delivery (R359). PRESUMED: deficit round robin as Shreedhar and Varghese define it, which the spec names only. -/

/-- The oldest committed cask of a ring. -/
def ringHead (s : State) (r : Nat) : Option (Nat × Cask) :=
  (casksIn 3 s).find? (fun p => match p.2.cfg with | some k => k.ring = r | none => false)

/-- A ring that lacks at most a queue entry. -/
def ringReady (s : State) (r : Nat) : Bool :=
  let x := ringOf s r
  x.enabled && ringFaultOf s r = 0 && decide (0 < countDiff x.post x.assigned) && (ringHead s r).isSome

/-- A ring eligible to start (R359). -/
def ringEligible (s : State) (r : Nat) : Bool := ringReady s r && decide (0 < cqFree (cqOf s (ringOf s r).cfg.cq))

/-- Image bytes of a ring's next frame. -/
def headBytes (s : State) (r : Nat) : Nat :=
  match ringHead s r with
  | some (_, c) => (match c.cfg with | some k => imageBytes k | none => 0)
  | none => 0

/-- Image bytes a turn gives a ring. -/
def quantum (s : State) (r : Nat) : Nat := getObj s Oid.rackingRingWeight r * 4194304

/-- Turns a ring needs before its next frame fits what it has left, at least one. -/
def turnsNeeded (s : State) (r : Nat) : Nat :=
  let need := headBytes s r - tabGet 0 r s.rk.deficits
  max 1 ((need + quantum s r - 1) / max 1 (quantum s r))

/-- The first ring of a list that needs the fewest turns, with that number. -/
def fewest (s : State) : List Nat → Option (Nat × Nat)
  | [] => none
  | r :: t =>
    match fewest s t with
    | none => some (r, turnsNeeded s r)
    | some (q, k) => if turnsNeeded s r ≤ k then some (r, turnsNeeded s r) else some (q, k)

/-- Give the rings visited their turns: k each up to ring r, k − 1 each after it. -/
def giveTurns (s : State) (r k : Nat) : Bool → List Nat → List (Nat × Nat) → List (Nat × Nat)
  | _, [], d => d
  | after, q :: t, d =>
    giveTurns s r k (after || q = r) t (tabPut 0 q (tabGet 0 q d + (if after then k - 1 else k) * quantum s q) d)

/-- The ring whose cask starts next, and the engine's turn state after it. -/
def nextRing (s : State) : Option (Nat × State) :=
  let all := s.rk.rings.map (fun r => r.1)
  let el := all.filter (ringEligible s)
  let t := s.rk.turn
  let kept := s.rk.deficits.filter (fun p => p.1 ∈ el)
  if t ∈ el && decide (headBytes s t ≤ tabGet 0 t kept) then
    some (t, { s with rk := { s.rk with deficits := tabPut 0 t (tabGet 0 t kept - headBytes s t) kept } })
  else
    let s := { s with rk := { s.rk with deficits := kept } }
    let order := el.filter (fun r => t < r) ++ el.filter (fun r => r ≤ t)
    match fewest s order with
    | none => none
    | some (r, k) =>
      let d := giveTurns s r k false order kept
      some (r, { s with rk := { s.rk with turn := r, deficits := tabPut 0 r (tabGet 0 r d - headBytes s r) d } })

/-- A delivery starts on ring r (R359), or faults it with code 4 (R381). -/
def startDelivery (r : Nat) (s : State) : State :=
  match ringHead s r with
  | none => s
  | some (id, c) =>
    let x := ringOf s r
    let s := putRing r { x with assigned := (x.assigned + 1) % countMod, stalled := false } s
    let q := cqOf s x.cfg.cq
    let s := putCq x.cfg.cq { q with reserved := q.reserved + 1 } s
    let s := setCaskState id 5 s
    let s := { s with rk := { s.rk with deliveries := s.rk.deliveries ++ [{ ring := r, count := x.assigned, cask := id }] } }
    match c.cfg with
    | some k => if x.cfg.slotBytes < slotNeed k then ringFault r 4 (fun d => d.count = x.assigned) s else s
    | none => s

/-- Rings whose start is delayed only for want of a queue entry are counted once (Table 11.12). -/
def countStalls (s : State) : State :=
  ((s.rk.rings.map (fun r => r.1)).filter (fun r => ringReady s r && !ringEligible s r && !(ringOf s r).stalled)).foldl (fun s r =>
    let x := ringOf s r
    setSticky Oid.rackingStatus 0 4 (bump Oid.rackingCqFullStalls x.cfg.cq (putRing r { x with stalled := true } s))) s

/-! ### What a delivery writes (R360 to R362) -/

/-- The raw image of a cask: lines at stride, pad bytes 0. -/
def rawData (s : State) (c : Cask) (k : FrameCfg) : Nat → List Byte
  | 0 => []
  | n + 1 => rawData s c k n ++ padTo k.stride (readCask s c (n * k.stride) k.lineBytes)

/-- The image bytes of a cask in line order, without pad. -/
def imageData (s : State) (c : Cask) (k : FrameCfg) : Nat → List Byte
  | 0 => []
  | n + 1 => imageData s c k n ++ readCask s c (n * k.stride) k.lineBytes

/-- The frame data of a delivery: raw or ALF (R360, R361, R378). -/
def useAlf (s : State) (k : FrameCfg) : Bool :=
  k.compress && decide (alfBound k.lines k.lineBytes ≤ 0xFFFFFFFF) && s.modes.current != .limp

/-- A cask's units found poisoned, in data or records (R362). -/
def deliveryPoisoned (s : State) (c : Cask) (k : FrameCfg) : Bool :=
  (List.range k.lines).any (fun y => caskPoisoned s c (y * k.stride) k.lineBytes) || (k.side && caskPoisoned s c (recordBase k) (32 * k.lines))

/-- Read the payload and records of a delivery, once; what was not read before an invalidation reads 0 (R314, R362). -/
def readPayload (d : Delivery) (c : Cask) (k : FrameCfg) (s : State) : Delivery × State :=
  let c' : Cask := if d.poisoned then { c with pages := [] } else c
  let alf := useAlf s k
  let data := if alf then alfStream k.format k.width k.lines k.lineBytes (imageData s c' k k.lines) else rawData s c' k k.lines
  let recs := if k.side then readCask s c' (recordBase k) (32 * k.lines) else []
  let img := imageBytes k
  let s := addObj Oid.rackingFlowInBytes c.flow img (addObj Oid.rackingFlowOutBytes c.flow data.length s)
  let s := addObj Oid.rackingOutBytes 0 data.length (if alf then addObj Oid.rackingAlfInBytes 0 img s else s)
  ({ d with payload := some data, raw := !alf, records := recs, poisoned := d.poisoned || deliveryPoisoned s c' k },
    { s with rk := { s.rk with inSec := s.rk.inSec + img, outSec := s.rk.outSec + data.length } })

/-- The slot offsets and bytes a delivery writes before its tag. -/
def slotParts (d : Delivery) : List (Nat × List Byte) :=
  let data := d.payload.getD []
  [(4096, data)] ++ (if d.records.isEmpty then [] else [(4096 + (data.length + 4095) / 4096 * 4096, d.records)])

/-- Split a part at the ring's pages. -/
def splitPages (pb : Nat) : Nat → Nat → List Byte → List (Nat × List Byte)
  | 0, _, _ => []
  | fuel + 1, v, bs =>
    if bs.isEmpty then []
    else
      let n := min bs.length (pb - v % pb)
      (v, bs.take n) :: splitPages pb fuel (v + n) (bs.drop n)

/-- The pieces of a delivery in ring space, the tag not among them. -/
def deliveryPieces (x : RingX) (d : Delivery) : List (Nat × List Byte) :=
  let base := d.count % x.cfg.slots * x.cfg.slotBytes
  (slotParts d).flatMap (fun p => splitPages (pageBytes x.cfg.bigPage) (p.2.length + 1) (base + p.1) p.2)

/-- The final tag (R304, R360, R361, R364). -/
def finalTag (tag : List Nat) (raw poisoned outOfOrder : Bool) (p slot : Nat) : List Nat :=
  let w0 := tag.getD 0 0 + 16 * b2n (!raw) + 2048 * b2n poisoned + 4096 * b2n outOfOrder
  let ws := [w0] ++ (tag.drop 1).take 8 ++ [tag.getD 9 0 + b2n (!raw) * 2 ^ 24, tag.getD 10 0, p % 2 ^ 32, slot] ++ (tag.drop 13).take 2
  ws ++ [crc32c (wordBytes ws)]

/-- A delivery that started earlier on the same ring is still to write its entry. -/
def earlierPending (s : State) (d : Delivery) : Bool :=
  (s.rk.deliveries.takeWhile (fun e => !(e.ring = d.ring && e.count = d.count))).any (fun e => e.ring = d.ring)

/-- Replace a delivery. -/
def putDelivery (d : Delivery) (s : State) : State :=
  { s with rk := { s.rk with deliveries := s.rk.deliveries.map (fun e => if e.ring = d.ring && e.count = d.count then d else e) } }

/-- Write the pieces that remain, as far as their pages are translated: the number written (R353, R360). -/
def writePieces (r : Nat) (x : RingX) : List (Nat × List Byte) → Nat × State → Bool × (Nat × State)
  | [], a => (true, a)
  | p :: t, (n, s) =>
    match translate r x.cfg.dir x.cfg.bigPage p.1 s with
    | (none, s) => (false, n, s)
    | (some h, s) => writePieces r x t (n + 1, hostWrite h p.2 s)

/-- The tag is written last; then the data is made visible (R360, R363). -/
def writeTag (d : Delivery) (c : Cask) (x : RingX) (s : State) : State :=
  let slot := d.count % x.cfg.slots
  match translate d.ring x.cfg.dir x.cfg.bigPage (slot * x.cfg.slotBytes) s with
  | (none, s) => putDelivery d s
  | (some h, s) =>
    let ooo := !x.cfg.inOrder && earlierPending s d
    let tag := finalTag c.tag d.raw d.poisoned ooo (d.payload.getD []).length slot
    let s := hostWrite h (wordBytes tag) s
    let d := { d with tag := tag, written := true, visible := !s.link.relaxed }
    let s := putDelivery d s
    if s.link.relaxed then hostRead (.zero d.ring d.count) h 0 s else s

/-- Carry a delivery on: read its payload once, write what can be written. -/
def carryDelivery (d : Delivery) (s : State) : State :=
  match caskOf s d.cask with
  | none => s
  | some c =>
    match c.cfg with
    | none => s
    | some k =>
      let x := ringOf s d.ring
      let r := if d.payload.isNone then readPayload d c k s else (d, s)
      let w := writePieces d.ring x ((deliveryPieces x r.1).drop r.1.pieces) (r.1.pieces, r.2)
      let d := { r.1 with pieces := w.2.1 }
      if w.1 then writeTag d c x w.2.2 else putDelivery d w.2.2

/-! ### Rows: rings and queues -/

/-- A write of RING_POST[r] (R357): slots posted, or fault 5 when there are more than the ring has. -/
def postRing (r v : Nat) (s : State) : State :=
  let x := ringOf s r
  if !x.enabled then s
  else if x.cfg.slots < countDiff v x.assigned then ringFault r 5 (fun _ => false) s
  else putRing r { x with post := v } s

/-- RING_POST (R357). -/
def execRingPost (r : Ring) (value : Word) (s : State) : Host.Outcome State Fault Refusal :=
  .next (bar0Write (postRing r.val (value.toNat % countMod)) s)

/-- A write of CQ_HEAD[c] (R366): entries consumed, or the queue's fault when there are more than it holds. -/
def consumeCq (c v : Nat) (s : State) : State :=
  let q := cqOf s c
  if !q.enabled then s
  else if q.entries < countDiff q.tail v then (if q.faulted then s else cqFault c s)
  else putCq c { q with head := v } s

/-- CQ_HEAD (R366). -/
def execCqHead (c : Cq) (value : Word) (s : State) : Host.Outcome State Fault Refusal :=
  .next (bar0Write (consumeCq c.val (value.toNat % countMod)) s)

/-- A write of EXC_HEAD (R356): entries consumed; a count beyond what was written is discarded. -/
def consumeExc (v : Nat) (s : State) : State :=
  let e := s.rk.exc
  if e.enabled && decide (countDiff e.tail v ≤ countDiff e.tail e.head) then { s with rk := { s.rk with exc := { e with head := v } } } else s

/-- EXC_HEAD (R356). -/
def execExcHead (value : Word) (s : State) : Host.Outcome State Fault Refusal :=
  .next (bar0Write (consumeExc (value.toNat % countMod)) s)

/-- DELIVERY_START (R359): one ring in turn, at most 64 casks in delivery. -/
def execDeliveryStart (s : State) : Host.Outcome State Fault Refusal :=
  if !rackingStarts s || decide (64 ≤ s.rk.deliveries.length) then .next s
  else
    let s := countStalls s
    match nextRing s with
    | some (r, s) => .next (startDelivery r s)
    | none => .next s

/-- DELIVERY_DATA_DONE (R360): the k-th delivery in progress is carried to its end, or to a page that must be walked. -/
def execDeliveryDataDone (k : Fin 64) (s : State) : Host.Outcome State Fault Refusal :=
  match s.rk.deliveries[k.val]? with
  | some d => if rackingRuns s && !d.written then .next (carryDelivery d s) else .next s
  | none => .next s

/-- Entries a ring in order must write before this one (R364). -/
def mustWait (s : State) (d : Delivery) : Bool := (ringOf s d.ring).cfg.inOrder && earlierPending s d

/-- Write the completion entry of a delivery and release its cask (R363, R367, R312). -/
def completeDelivery (d : Delivery) (c : Cask) (s : State) : State :=
  let x := ringOf s d.ring
  let img := match c.cfg with | some k => imageBytes k | none => 0
  let e : Entry := { type := 1, flow := c.flow, cask := d.cask, flags := d.tag.getD 0 0 % 65536, ring := d.ring, slot := d.count % x.cfg.slots
                     seq := c.seq, bytes := d.tag.getD 11 0, records := d.records.length, image := img, status := 0 }
  let s := writeReserved x.cfg.cq e s
  let s := { s with rk := { s.rk with deliveries := s.rk.deliveries.filter (fun e => !(e.ring = d.ring && e.count = d.count)) } }
  let x := ringOf s d.ring
  let s := putRing d.ring { x with done := (x.done + 1) % countMod } s
  let s := bump Oid.rackingRingDelivered d.ring (bump Oid.rackingFlowDelivered c.flow s)
  ringDrained d.ring (releaseCask d.cask s)

/-- COMPLETION_ENTRY (R363): for the k-th delivery in progress, once its data is visible. -/
def execCompletionEntry (k : Fin 64) (s : State) : Host.Outcome State Fault Refusal :=
  match s.rk.deliveries[k.val]? with
  | some d =>
    if rackingRuns s && d.visible && !mustWait s d then
      match caskOf s d.cask with
      | some c => .next (completeDelivery d c s)
      | none => .next s
    else .next s
  | none => .next s

/-- The delivery that a fault of a ring stops (R381): none for an overrun of RING_POST, every one when the queue has faulted, else the one that started first. -/
def faultStops (s : State) (r code : Nat) (d : Delivery) : Bool :=
  match code with
  | 5 => false
  | 6 => true
  | _ => ((s.rk.deliveries.find? (fun e => e.ring = r)).map (fun e => e.count)) = some d.count

/-- RING_FAULT (R381). -/
def execRingFault (r : Ring) (code : Fin 7) (s : State) : Host.Outcome State Fault Refusal :=
  if (ringOf s r.val).enabled && ringFaultOf s r.val = 0 && code.val != 0 then
    .next (ringFault r.val code.val (faultStops s r.val code.val) s)
  else .next s

/-! ### The exception ring (R379, R380) -/

/-- Discard an exception frame. -/
def dropException (s : State) : State :=
  let e := s.rk.exc
  let s := { s with rk := { s.rk with exc := { e with dropped := min (e.dropped + 1) 0xFFFFFFFF }, excWait := s.rk.excWait.drop 1 } }
  setSticky Oid.rackingStatus 0 0x10 (bump Oid.rackingExcDropped 0 s)

/-- Words 1 to 15 of the header of an entry, after word 0 (Table 11.9). -/
def excHeader (e : ExcX) (f : ExcFrame) : List Nat :=
  [f.data.length * 65536 + f.port] ++ timeTagWords f.time ++ [e.seq, e.dropped] ++ List.replicate 9 0

/-- Word 0: phase, reason, stored bytes. -/
def excWord0 (e : ExcX) (f : ExcFrame) : Nat :=
  (if e.tail / e.entries % 2 = 0 then 2 ^ 31 else 0) + f.reason * 65536 + min f.data.length (e.entryBytes - 64)

/-- Ring offset of the entry to be written. -/
def excBase (e : ExcX) : Nat := e.tail % e.entries * e.entryBytes

/-- Translate every page of a list of pieces before anything is written. -/
def translateAll (ring dir : Nat) (big : Bool) : List (Nat × List Byte) → State → Option (List (Nat × List Byte)) × State
  | [], s => (some [], s)
  | p :: t, s =>
    match translate ring dir big p.1 s with
    | (none, s) => (none, s)
    | (some h, s) =>
      match translateAll ring dir big t s with
      | (none, s) => (none, s)
      | (some l, s) => (some ((h, p.2) :: l), s)

/-- Write translated pieces. -/
def hostWrites : List (Nat × List Byte) → State → State
  | [], s => s
  | p :: t, s => hostWrites t (hostWrite p.1 p.2 s)

/-- Word 0 goes last: the entry is posted (R380). -/
def postException (f : ExcFrame) (s : State) : State :=
  let e := s.rk.exc
  match translate 1024 e.dir e.bigPage (excBase e) s with
  | (none, s) => s
  | (some h, s) =>
    let s := hostWrite h (leBytes 4 (excWord0 e f)) s
    let s := { s with rk := { s.rk with exc := { e with tail := (e.tail + 1) % countMod, seq := (e.seq + 1) % 2 ^ 32, dropped := 0 }, excWait := s.rk.excWait.drop 1 } }
    fire 0x179 (bump Oid.rackingExcWritten 0 s)

/-- Words 1 to 15 and the frame are written first; with Relaxed Ordering, word 0 waits for a zero-length read (R363, R380). -/
def writeException (f : ExcFrame) (s : State) : State :=
  let e := s.rk.exc
  let body := wordBytes (excHeader e f) ++ f.data.take (e.entryBytes - 64)
  let pieces := splitPages (pageBytes e.bigPage) (body.length + 1) (excBase e + 4) body
  match translateAll 1024 e.dir e.bigPage pieces s with
  | (none, s) => s
  | (some l, s) =>
    let s := hostWrites l s
    if s.link.relaxed then
      match translate 1024 e.dir e.bigPage (excBase e) s with
      | (none, s) => s
      | (some h, s) =>
        hostRead (.zero 1024 e.tail) h 0 { s with rk := { s.rk with excWait := { f with written := true } :: s.rk.excWait.drop 1 } }
    else postException f s

/-- EXCEPTION_ENTRY (R379, R380): the first exception frame waiting is written, or discarded. -/
def execExceptionEntry (s : State) : Host.Outcome State Fault Refusal :=
  match s.rk.excWait with
  | [] => .next s
  | f :: _ =>
    let e := s.rk.exc
    if !e.enabled || e.faulted || decide (e.entries ≤ countDiff e.tail e.head) then .next (dropException s)
    else if !hostWritable s || s.rk.stopped || f.written then .next s
    else .next (writeException f s)

/-- A write of `racking.exc_enable` (R379, R358): space within the mapped pages, counts from 0. -/
def excEnableOk (s : State) : Bool :=
  decide (getObj s Oid.rackingExcEntries * getObj s Oid.rackingExcEntryBytes
    ≤ getObj s Oid.rackingExcDirEntries * 512 * pageBytes (getObj s Oid.rackingExcPage = 1))

/-- Enable the exception ring with its objects as they stand. -/
def enableExc (s : State) : State :=
  if s.rk.exc.enabled then putObj Oid.rackingExcEnable 0 1 s
  else
    let e : ExcX := { enabled := true, dir := getObj s Oid.rackingExcDir, dirEntries := getObj s Oid.rackingExcDirEntries
                      bigPage := getObj s Oid.rackingExcPage = 1, entries := getObj s Oid.rackingExcEntries
                      entryBytes := getObj s Oid.rackingExcEntryBytes, dropped := s.rk.exc.dropped }
    putObj Oid.rackingExcEnable 0 1 (tlbForget 1024 { s with rk := { s.rk with exc := e } })

/-- Disable the exception ring. -/
def disableExc (s : State) : State :=
  putObj Oid.rackingExcEnable 0 0 (tlbDrop 1024 { s with rk := { s.rk with
    exc := { dropped := s.rk.exc.dropped }, excWait := s.rk.excWait.map (fun f => { f with written := false }) } })

/-- The exception ring faults: it writes nothing until it is disabled and enabled. -/
def excFault (s : State) : State :=
  setSticky Oid.rackingStatus 0 0x40 { s with rk := { s.rk with exc := { s.rk.exc with faulted := true } } }

/-! ### Reads that return (R353, R363) -/

/-- The delivery of a ring whose next piece, or tag, lies on a page. -/
def waitsOnPage (s : State) (page : Nat) (d : Delivery) : Bool :=
  let x := ringOf s d.ring
  let next := match (deliveryPieces x d).drop d.pieces with
    | p :: _ => p.1
    | [] => d.count % x.cfg.slots * x.cfg.slotBytes
  !d.written && next / pageBytes x.cfg.bigPage = page

/-- A walk read of a delivery ring or the exception ring returns its data. -/
def rackingWalkDone (ring page : Nat) (table : Bool) (data : List Byte) (s : State) : State :=
  let big := if ring = 1024 then s.rk.exc.bigPage else (ringOf s ring).cfg.bigPage
  match walkReturn ring page table big data s with
  | (none, s) => s
  | (some code, s) => if ring = 1024 then excFault s else ringFault ring code (waitsOnPage s page) s

/-- A zero-length read returns: the data of its delivery is visible (R363). -/
def zeroReadDone (ring count : Nat) (s : State) : State :=
  if ring = 1024 then
    match s.rk.excWait with
    | f :: _ => if f.written then postException f s else s
    | [] => s
  else { s with rk := { s.rk with deliveries := s.rk.deliveries.map (fun d => if d.ring = ring && d.count = count then { d with visible := true } else d) } }

/-- A read of the racking engine has failed or timed out: code 3 (Table 11.8). -/
def rackingReadFailed (use : TagUse) (s : State) : State :=
  match use with
  | .walk ring page _ => if ring = 1024 then excFault s else ringFault ring 3 (waitsOnPage s page) s
  | .zero ring count => if ring = 1024 then excFault s else ringFault ring 3 (fun d => d.count = count) s
  | .tapWalk _ _ _ => s
  | .tapData _ _ _ => s
  | .discard => s

/-! ### Stops and resets (R382, R383) -/

/-- The engine is stopped by the host (R382). -/
def stopRacking (s : State) : State :=
  let s := stopDeliveries 0x80 (fun _ => true) s
  let s := { s with rk := { s.rk with stopped := true, excWait := s.rk.excWait.map (fun f => { f with written := false }) } }
  setSticky Oid.rackingStatus 0 0x20 s

/-- Write the entries of the slots a stop abandoned, in each ring's order (R382). -/
def resumeRing (r : Nat) (s : State) : State :=
  let x := ringOf s r
  let mine := x.abandoned.filter (fun a => a.code = 0x80)
  let s := putRing r { x with abandoned := x.abandoned.filter (fun a => a.code ≠ 0x80) } s
  writeAbandoned r mine s

/-- A write of 1 to `racking.resume` while Bus Master Enable is set (R382). -/
def resumeRacking (s : State) : State :=
  (s.rk.rings.map (fun r => r.1)).foldl (fun s r => resumeRing r s) { s with rk := { s.rk with stopped := false, resetStop := false } }

/-- R383: rings, queues and the exception ring are disabled, every count is 0, abandoned slots are forgotten. -/
def resetRacking (s : State) : State :=
  let s := stopDeliveries 0x80 (fun _ => true) s
  let s := (s.rk.rings.map (fun r => r.1)).foldl (fun s r => putObj Oid.rackingRingFault r 0 (putObj Oid.rackingRingEnable r 0 s)) s
  let s := (s.rk.cqs.map (fun c => c.1)).foldl (fun s c => putObj Oid.rackingCqEnable c 0 s) s
  let s := putObj Oid.rackingExcEnable 0 0 s
  { s with rk := { s.rk with
      rings := (s.rk.rings.filter (fun r => r.2.above)).map (fun r => (r.1, { above := true }))
      cqs := [], exc := { dropped := s.rk.exc.dropped }, tlb := [], deliveries := [], stopped := true, resetStop := true
      deficits := [], turn := 0, excWait := s.rk.excWait.map (fun f => { f with written := false }) } }

end Sys2Proof.Machine
end

