-- ==== Sys2Proof/Machine/Ports.lean ====
section
/-! DEFINITION. Ethernet ports (07_ports_flows): faults and fault signalling, the MAC's checks and filter, classification, and flow control requests. -/

namespace Sys2Proof.Machine

open Sys2Proof

/-! ### Faults (R231) -/

/-- The PCS and FEC alignment of a port starts again (R231). -/
def restartAlignment (p : Nat) (hi : Bool) (s : State) : State := updatePort p (dropAlign p hi s)

/-- A port fault: recorded, once in a tick, and the alignment restarted or the port retired under the rule of lanes (R219, R220, R231); the open frames of a retired port close (Table 9.3). -/
def portFault (p cause : Nat) (s : State) : State :=
  let count (s : State) : State := putObj Oid.portFaultCause p cause (bump Oid.portFaults p s)
  let s :=
    if s.modes.current = .diagnostic then recordNoRetire (resPort p) cause false (count s)
    else
      let r := recordFault (resPort p) cause false s
      match r.2 with
      | .absorbed => r.1
      | .retire => stopPort p (count r.1)
      | _ => count r.1
  restartAlignment p (cause = 1) s

/-- Reinstate a retired port (R231): its lane's underback is flushed (R276). -/
def reinstatePort (p : Nat) (s : State) : State :=
  if !standsRetired s (resPort p) then s
  else updatePort p (ubFlushLane p (dropRetired (resPort p) s))

/-! ### Flow control (R244 to R246, R274) -/

/-- Enabled receive flows: those whose type is not 0. -/
def rxFlows (s : State) : List Nat :=
  (s.objs.filter (fun e => e.1 / 65536 = Oid.flowRxType && e.1 % 65536 < 4096)).map (fun e => e.1 % 65536)

/-- Whether a flow asks its source to pause (R310, R375). -/
def flowPauses (s : State) (f : Nat) : Bool :=
  (flowOf s f).pausing || s.lau.pauseAll
    || (getObj s Oid.rackingFlowPolicy f = 1 && (ringOf s (getObj s Oid.rackingFlowRing f)).above)

/-- The priorities requesters of a port hold, as a mask (R245, R274). -/
def heldPriorities (s : State) (p : Nat) : Nat :=
  let lane := if getObj s Oid.underbackPauseEnable p = 1 && getObj s Oid.underbackFcActive p = 1 then 0xFF else 0
  ((rxFlows s).filter (fun f => getObj s Oid.flowRxPort f = p && getObj s Oid.flowRxPause f != 0 && flowPauses s f)).foldl
    (fun m f => m ||| (if getObj s Oid.flowRxPause f = 2 then 2 ^ (getObj s Oid.flowRxPfcPriority f % 8) else 0xFF)) lane

/-- The PFC time vector: quanta for a held priority. -/
def pfcTimes (held q : Nat) : Nat → List Byte
  | 0 => []
  | n + 1 => pfcTimes held q n ++ beBytes 2 (if held.testBit n then q else 0)

/-- A PAUSE or PFC frame (R245). PRESUMED: the layouts of IEEE 802.3 Annex 31B and 31D. -/
def pauseFrame (s : State) (p held named : Nat) : List Byte :=
  let q := getObj s Oid.portPauseQuanta p
  let body := if getObj s Oid.portFlowCtrl p = 2
    then beBytes 2 0x0101 ++ beBytes 2 named ++ pfcTimes held q 8
    else beBytes 2 0x0001 ++ beBytes 2 (if held = 0 then 0 else q)
  ethFrame 0x0180C2000001 (getObj s Oid.portMacAddr p) none 0x8808 body

/-- Send flow control for the priorities held and those just released. -/
def sendPause (p held named : Nat) (s : State) : State :=
  bump Oid.portTxPauseFrames p (emit (.macControl p (withFcs (pauseFrame s p held named))) s)

/-- Act on a change of requests (R245, R255). -/
def pauseRequest (p : Nat) (s : State) : State :=
  let x := portX s p
  if getObj s Oid.portFlowCtrl p = 0 || !portUp s p then s
  else
    let held := heldPriorities s p
    if held = x.held then s
    else
      let s := putPortX p { x with held := held } s
      if getObj s Oid.portFlowCtrl p = 1 && (held != 0) = (x.held != 0) then s
      else sendPause p held (held ||| x.held) s

/-- Set or replace the quanta of the priorities a received frame names; the priorities whose stop it ends (R246). -/
def setStops (p : Nat) (qs : List (Nat × Nat)) (s : State) : State :=
  putPortX p { portX s p with stopped := qs.foldl (fun t e => tabPut 0 e.1 e.2 t) (portX s p).stopped } s

/-- The priorities and quanta of a received MAC control body, by the port's kind of flow control (R244, R246). -/
def pauseContent (kind : Nat) (b : List Byte) : List (Nat × Nat) :=
  if kind = 1 && be16 b 0 = 0x0001 then (List.range 8).map (fun k => (k, be16 b 2))
  else if kind = 2 && be16 b 0 = 0x0101 then
    ((List.range 8).filter (fun k => (be16 b 2).testBit k)).map (fun k => (k, be16 b (4 + 2 * k)))
  else []

/-! ### The MAC (R233, R234) -/

/-- What the MAC finds wrong with a frame: the counter of R233, if any. -/
def macError (s : State) (p : Nat) (frame : List Byte) : Option Nat :=
  if frame.length < 64 then some Oid.portRxUndersize
  else if getObj s Oid.portMaxFrame p < countedLength frame then some Oid.portRxOversize
  else if leNat (frame.drop (frame.length - 4)) != ethFcs (frame.take (frame.length - 4)) then some Oid.portRxFcsErrors
  else none

/-- The multicast MAC addresses of PTP. PRESUMED: IEEE 1588 Annexes C to E. -/
def ptpMacs : List Nat := [0x01005E000181, 0x01005E00006B, 0x333300000181, 0x33330000006B, 0x011B19000000, 0x0180C200000E]

/-- The MAC accepts a destination address (R234). -/
def macAccepts (s : State) (p dst : Nat) : Bool :=
  isOn s Oid.portPromiscuous p || dst = getObj s Oid.portMacAddr p || dst = 0xFFFFFFFFFFFF
    || (joinedOn s p).any (fun m => multicastMac m.group = dst)
    || (getObj s Oid.timePtpPort = p && decide (dst ∈ ptpMacs))
    || (portIpv6 s p != 0 && (dst = 0x333300000001 || dst = 0x3333FF000000 + portIpv6 s p % 2 ^ 24))

/-! ### Classification (Table 7.2) -/

/-- An address of the port, as R237 holds it. -/
def portAddress (s : State) (p : Nat) (a : Nat) : Bool :=
  (getObj s Oid.portIpv4 p != 0 && a = mapped4 (getObj s Oid.portIpv4 p)) || (portIpv6 s p != 0 && a = portIpv6 s p)

/-- The VLAN part of a flow's key (R237). -/
def vlanMatches (v : Nat) (tci : Option Nat) : Bool :=
  v = 0xFFFF || (match tci with | none => v = 0xFFFE | some t => v = t % 4096)

/-- The key of flow f matches a UDP packet on port p (R237). -/
def flowMatches (s : State) (p : Nat) (tci : Option Nat) (ip : Ip) (f : Nat) : Bool :=
  getObj s Oid.flowRxPort f = p && rxDst s f = ip.dst && getObj s Oid.flowRxDstPort f = udpDst ip
    && (rxSrc s f = 0 || rxSrc s f = ip.src)
    && (getObj s Oid.flowRxSrcPort f = 0 || getObj s Oid.flowRxSrcPort f = udpSrc ip)
    && vlanMatches (getObj s Oid.flowRxVlan f) tci

/-- Among candidates, those that name what p asks, if any does. -/
def preferring (p : Nat → Bool) (l : List Nat) : List Nat := if l.any p then l.filter p else l

/-- The flow a UDP packet belongs to; where R237 leaves several, the choice is open. -/
def matchFlow (p : Nat) (tci : Option Nat) (ip : Ip) (s : State) : Option Nat × State :=
  let l := (rxFlows s).filter (flowMatches s p tci ip)
  let fits := preferring (fun f => getObj s Oid.flowRxSrcPort f != 0) (preferring (fun f => rxSrc s f != 0) l)
  match fits with
  | [] => (none, s)
  | [f] => (some f, s)
  | _ => let r := takeChoice fits.length s; (fits[r.1]?, r.2)

/-- Steps 8 to 10 of Table 7.2, and step 4. -/
def classifyUdp (p : Nat) (tci : Option Nat) (ip : Ip) (s : State) : Dest × State :=
  let sp := udpSrc ip
  let dp := udpDst ip
  match matchFlow p tci ip s with
  | (some f, s) => (.flow f, s)
  | (none, s) =>
    if sp = 3956 || dp = 3956 then
      (if portAddress s p ip.dst && dp = getObj s Oid.portResendUdp p then .firmware else .exception 0x02, s)
    else (.exception (if dp = 319 || dp = 320 then 0x08 else 0x01), s)

/-- Table 7.2 step 3 for an IP packet: echo requests to the port, neighbour discovery, IGMP and MLD. -/
def firmwareIp (s : State) (p : Nat) (ip : Ip) : Bool :=
  if !ip.v6 then
    (ip.proto = 1 && byteAt ip.body 0 = 8 && !ip.frag && portAddress s p ip.dst) || ip.proto = 2
  else match icmp6Body ip with
  | none => false
  | some m =>
    let t := byteAt m 0
    (ip.proto = 58 && ((133 ≤ t && t ≤ 137) || (t = 128 && portAddress s p ip.dst))) || (130 ≤ t && t ≤ 132) || t = 143

/-- Table 7.2 after step 1. -/
def classify (p : Nat) (e : Eth) (s : State) : Dest × State :=
  if e.stacked then (.exception 0x07, s)
  else if e.etype = 0x0806 then (.firmware, s)
  else match parseIp e.etype e.body with
  | none => (.exception 0x03, s)
  | some ip =>
    if firmwareIp s p ip then (.firmware, s)
    else
      let udp := ip.proto = 17 && !ip.options && !ip.frag
      let dp := udpDst ip
      if udp && (dp = 319 || dp = 320) && getObj s Oid.timePtpPort = p then (.firmware, s)
      else if ip.options || ip.frag then (.exception (if ip.frag then 0x05 else 0x04), s)
      else if ip.proto ≠ 17 then (.exception 0x06, s)
      else classifyUdp p e.tci ip s

/-- The frame's IP and UDP checksums pass (R236), behind however many tags. -/
def frameSumsOk (e : Eth) : Bool :=
  let t := behindTags (e.body.length / 4) e.etype e.body
  match parseIp t.1 t.2 with
  | none => true
  | some ip => ipSumsOk ip

/-! ### Reception -/

/-- Whether stream packets are taken, only firmware frames are, or nothing is, by mode (Table 2.2, R254). -/
inductive Passing where
  | all | firmwareOnly | none
deriving DecidableEq, Repr

/-- What the ports pass in a mode; in Generate and Replay stream packets are counted and dropped. -/
def passing (m : Mode) (p : Nat) : Passing :=
  match m with
  | .capture => .all | .burst => .all | .analyse => .all | .generate => .all | .replay => .all
  | .limp => if p = 0 then .all else .none
  | .ready => .firmwareOnly
  | _ => .none

/-- The mode whose rules arriving packets follow: a device on its way out of a receiving mode takes no further stream packet (R48). -/
def acceptMode (s : State) : Mode :=
  match s.modes.target with
  | some m => if receives s.modes.current && !receives m then m else s.modes.current
  | none => s.modes.current

/-- A frame without its FCS enters at stage 3 of Table 1.1: the filter, the checks and the classifier of R234 to R239; `bad` says what earlier checks found. -/
def enterFrame (p : Nat) (b : List Byte) (ts : Nat) (bad loop : Bool) (s : State) : State :=
  let e := parseEth b
  let sums := frameSumsOk e
  let s := if !bad && !sums then bump Oid.portRxIpErrors p s else s
  let bad := bad || !sums
  let s := if bad then s else addObj Oid.portRxBytes p (b.length + 4) (bump Oid.portRxFrames p s)
  let r := classify p e s
  let s := r.2
  let pri := match e.tci with | some t => t / 8192 | none => 0
  let drop : Bool := match r.1, passing (acceptMode s) p with
    | .firmware, _ => false
    | _, .firmwareOnly => true
    | _, .none => true
    | .flow _, .all => !receives (acceptMode s) && acceptMode s != .limp
    | .exception _, .all => false
  if drop then
    (match r.1 with
      | .flow f => if bad then s else bump Oid.flowRxPackets f s
      | .firmware => s
      | .exception _ => s)
  else ubStart (govLane s p) r.1 b ts bad loop pri s

/-- A received frame with its FCS, not MAC control (R229, R233, R234). -/
def receiveFrame (p : Nat) (frame : List Byte) (fecBad : Bool) (ts : Nat) (s : State) : State :=
  let b := frame.take (frame.length - 4)
  let err := macError s p frame
  let s := match err with | some id => bump id p s | none => s
  if macAccepts s p (beNat (padTo 6 (b.take 6))) then enterFrame p b ts (err.isSome || fecBad) false s
  else if err.isNone && !fecBad then bump Oid.portRxDmacDrops p s
  else s

/-- A frame without FCS sent on a loopback flow enters the receive side of its port (R409). -/
def loopFrame (p : Nat) (b : List Byte) (ts : Nat) (s : State) : State :=
  let n := b.length + 4
  let err := if n < 64 then some Oid.portRxUndersize else if getObj s Oid.portMaxFrame p < countedLength b + 4 then some Oid.portRxOversize else none
  let s := match err with | some id => bump id p s | none => s
  if macAccepts s p (beNat (padTo 6 (b.take 6))) then enterFrame p b ts err.isSome true s
  else if err.isNone then bump Oid.portRxDmacDrops p s
  else s

/-- A frame is MAC control by its EtherType (Table 7.2 step 1). -/
def isMacControl (frame : List Byte) : Bool := be16 frame 12 = 0x8808

/-! ### Rows -/

/-- PORT_FAULT (R231): hi_ber, FEC lock lost, or 10 ms of remote fault, while otherwise up. -/
def execPortFault (p : Port) (cause : Fin 3) (s : State) : Host.Outcome State Fault Refusal :=
  let p := p.val
  let x := portX s p
  match cause.val with
  | 0 => if portUp s p then .next (portFault p 1 s) else .next s
  | 1 => if portUp s p && fecActive s p != 0 then .next (portFault p 2 s) else .next s
  | _ => if portLocked s p && x.remoteF && !x.hiBer && !x.localF then .next (portFault p 3 s) else .next s

/-- LOCAL_OR_REMOTE_FAULT (R230). -/
def execLocalOrRemoteFault (p : Port) (loc rem : Bool) (s : State) : Host.Outcome State Fault Refusal :=
  if portExists s p.val then .next (updatePort p.val (putPortX p.val { portX s p.val with localF := loc, remoteF := rem } s))
  else .next s

/-- PAUSE_REQUEST (R245, R255). -/
def execPauseRequest (p : Port) (s : State) : Host.Outcome State Fault Refusal := .next (pauseRequest p.val s)

/-- PAUSE_REFRESH (R245). -/
def execPauseRefresh (p : Port) (s : State) : Host.Outcome State Fault Refusal :=
  let h := (portX s p.val).held
  if h = 0 || !portUp s p.val || getObj s Oid.portFlowCtrl p.val = 0 then .next s else .next (sendPause p.val h h s)

/-- MULTICAST_JOIN (R241): the firmware acts on a flow enabled or disabled. -/
def execMulticastJoin (f : Flow) (s : State) : Host.Outcome State Fault Refusal := .next (updateJoin f.val s)

/-- CASCADE_FRAME_DISCARD (R252). -/
def execCascadeFrameDiscard (q : Quad) (s : State) : Host.Outcome State Fault Refusal :=
  if cascadeRuns s && decide (q.val ∈ cascadeQuads s) then .next (bump Oid.portBhDiscards q.val s) else .next s

end Sys2Proof.Machine
end

