-- ==== Sys2Proof/Machine/Tap.lean ====
section
/-! DEFINITION. The tap (12_tap): start modes and the frame grid, sources, packets and their release times, the buffer, host rings, replay and loopback; and the reception rows, whose PAUSE frames stop paced packets (R246, R397). -/

namespace Sys2Proof.Machine

open Sys2Proof

/-- Transmit flow t beside its objects. -/
def txOf (s : State) (t : Nat) : TxX := tabGet {} t s.tap.tx

/-- Replace it. -/
def putTx (t : Nat) (x : TxX) (s : State) : State := { s with tap := { s.tap with tx := tabPut {} t x s.tap.tx } }

/-- Nanoseconds of the tick time since the epoch. -/
def nowNs (s : State) : Nat := s.time.sec * billion + s.time.ns

/-- Nanoseconds of a packed time. -/
def tNsec (t : Nat) : Nat := tSec t * billion + tNs t

/-- The settings a frame of flow t keeps: its tap and transmit flow objects and the pattern objects (R24). -/
def txSettings (s : State) (t : Nat) : List (Nat × Nat) :=
  s.objs.filter (fun e =>
    let id := e.1 / 65536
    let idx := e.1 % 65536
    (id / 65536 = 0x48 && idx = t) || (id / 65536 = 0x24 && 0x241000 ≤ id && idx = t) || id / 65536 = 0x4C)

/-! ### Geometry and packets (R287, R393, R394) -/

/-- What a frame's settings say of its packets. -/
structure TxGeo where
  st      : Bool
  lineMode : Bool
  width   : Nat
  fmt     : Nat
  ppg     : Nat
  gb      : Nat
  lineLen : Nat
  stride  : Nat
  lines   : Nat                           -- lines this frame or occurrence sends
  line0   : Nat                           -- the first of them, in its block
  block   : Nat                           -- k of the frame or block
  unit    : Nat                           -- lines of the frame or block
  cap     : Nat                           -- image bytes of a full packet
  two     : Bool                          -- R393: a packet may end in a second line only
deriving DecidableEq, Repr

/-- The geometry of frame or occurrence k of flow t. -/
def txGeo (cfg : List (Nat × Nat)) (t k : Nat) : TxGeo :=
  let fmt := cfgGet cfg Oid.tapPixelFormat t
  let width := cfgGet cfg Oid.tapWidth t
  let st := cfgGet cfg Oid.flowTxType t = 1
  let lm := cfgGet cfg Oid.tapStartMode t = 4
  let bl := max 1 (cfgGet cfg Oid.tapBlockLines t)
  let lb := lineBytesOf fmt width
  let gb := (pgOf fmt).2
  let block := cfgGet cfg Oid.tapPacking t = 1
  let pay := cfgGet cfg Oid.tapPayloadBytes t
  { st := st, lineMode := lm, width := width, fmt := fmt, ppg := (pgOf fmt).1, gb := gb, lineLen := lb, stride := strideOf lb
    lines := if lm then 1 else cfgGet cfg Oid.tapHeight t
    line0 := if lm then k % bl else 0
    block := if lm then k / bl else k
    unit := if lm then bl else cfgGet cfg Oid.tapHeight t
    cap := max 1 (if !st then cfgGet cfg Oid.tapGvspPacketBytes t else if block then pay / 180 * 180 else pay / gb * gb)
    two := st && !block }

/-- Image bytes of a frame. -/
def txTotal (g : TxGeo) : Nat := g.lines * g.lineLen

/-- Image bytes of the packet whose payload starts at image byte `off` (R393, R394). -/
def packetLen (g : TxGeo) (off : Nat) : Nat :=
  let left := txTotal g - off
  if g.two then
    let rest := g.lineLen - off % max 1 g.lineLen
    if g.cap ≤ rest then min g.cap left else min left (rest + min (g.cap - rest) g.lineLen)
  else min g.cap left

/-- Payload packets from an image byte on, counted one by one. -/
def countPackets (g : TxGeo) : Nat → Nat → Nat
  | 0, _ => 0
  | n + 1, off => if txTotal g ≤ off then 0 else 1 + countPackets g n (off + packetLen g off)

/-- Payload packets of a frame. -/
def payloadPackets (g : TxGeo) : Nat :=
  if g.two && g.lineLen < g.cap then countPackets g (g.lines + 1) 0 else (txTotal g + g.cap - 1) / g.cap

/-- A leader comes first, a trailer last (R394, R407). -/
def hasLeader (g : TxGeo) : Bool := !g.st && g.line0 = 0
def hasTrailer (g : TxGeo) : Bool := !g.st && g.line0 + g.lines = g.unit

/-- N, with leader and trailer. -/
def packetsOf (g : TxGeo) : Nat := payloadPackets g + b2n (hasLeader g) + b2n (hasTrailer g)

/-- Whether packet j carries image bytes. -/
def isPayload (g : TxGeo) (j : Nat) : Bool := !(hasLeader g && j = 0) && !(hasTrailer g && j + 1 = packetsOf g)

/-- off_j of R395, in ns. -/
def packetOffset (cfg : List (Nat × Nat)) (t : Nat) (g : TxGeo) (npk j : Nat) : Nat :=
  if !g.st then j * cfgGet cfg Oid.tapGvspGapNs t
  else
    let num := max 1 (cfgGet cfg Oid.tapRateNum t)
    let den := cfgGet cfg Oid.tapRateDen t
    let p16 := den * billion * 65536 / num
    let trs16 := if cfgGet cfg Oid.tapModel t = 1 then p16 / max 1 npk
      else p16 * cfgGet cfg Oid.tapActiveNum t / max 1 (cfgGet cfg Oid.tapActiveDen t) / max 1 npk
    j * trs16 / 65536

/-- When packet j of a frame is due, in ns since the epoch (R395). -/
def packetDue (t : Nat) (fr : TxFrame) : Nat :=
  let g := txGeo fr.cfg t fr.k
  fr.start + (if g.st then cfgGet fr.cfg Oid.tapTrOffsetNs t else 0) + packetOffset fr.cfg t g fr.npk fr.j

/-- The PFNC code a leader carries (R394). -/
def pfncCode (fmt order : Nat) : Nat :=
  match fmt with
  | 0x01 => 0x01080001 | 0x02 => 0x01100003 | 0x03 => 0x01100005 | 0x04 => 0x01100007
  | 0x10 => 0x01080008 + order | 0x11 => 0x0110000C + order | 0x12 => 0x01100010 + order
  | _ => 0x02180014

/-- The RTP timestamp of a frame start (R393). -/
def rtpStamp (start : Nat) : Nat := start * 90000 / billion % 2 ^ 32

/-- The block ID of frame k (R394, R541). -/
def blockId (ext : Bool) (k : Nat) : Nat := if ext then (k + 1) % 2 ^ 64 else k % 65535 + 1

/-- SRD headers of image bytes from `off` (R393): one for each line the packet touches. -/
def srdHeaders (g : TxGeo) : Nat → Nat → Nat → List Byte
  | 0, _, _ => []
  | fuel + 1, off, len =>
    if len = 0 then []
    else
      let n := min len (g.lineLen - off % max 1 g.lineLen)
      let more := decide (n < len)
      beBytes 2 n ++ beBytes 2 (off / max 1 g.lineLen) ++ beBytes 2 (b2n more * 32768 + off % max 1 g.lineLen / max 1 g.gb * g.ppg)
        ++ srdHeaders g fuel (off + n) (len - n)

/-- The UDP payload of packet j with its image bytes (R393, R394). -/
def packetBody (t : Nat) (fr : TxFrame) (seq : Nat) (data : List Byte) : List Byte :=
  let cfg := fr.cfg
  let g := txGeo cfg t fr.k
  if g.st then
    let last := fr.j + 1 = fr.npk
    beBytes 1 0x80 ++ beBytes 1 (b2n last * 128 + cfgGet cfg Oid.flowTxRtpPt t % 128) ++ beBytes 2 (seq % 65536)
      ++ beBytes 4 (rtpStamp fr.start) ++ beBytes 4 (cfgGet cfg Oid.flowTxSsrc t) ++ beBytes 2 (seq / 65536 % 65536)
      ++ srdHeaders g 3 fr.off data.length ++ data
  else
    let ext := cfgGet cfg Oid.tapGvspExtId t = 1
    let per := (g.lineLen + g.cap - 1) / g.cap
    let first := if g.lineMode then g.line0 * per else 0
    let leader := hasLeader g && fr.j = 0
    let trailer := hasTrailer g && fr.j + 1 = fr.npk
    let id := if leader then 0 else first + fr.j + 1 - b2n (hasLeader g)
    let kind := if leader then 1 else if trailer then 2 else 3
    let hdr := if ext
      then beBytes 2 0 ++ beBytes 2 0 ++ beBytes 1 (0x80 + kind) ++ beBytes 3 0 ++ beBytes 8 (blockId true g.block) ++ beBytes 4 id
      else beBytes 2 0 ++ beBytes 2 (blockId false g.block) ++ beBytes 1 kind ++ beBytes 3 id
    let body :=
      if leader then
        beBytes 2 0 ++ beBytes 2 1 ++ beBytes 8 fr.start ++ beBytes 4 (pfncCode g.fmt (cfgGet cfg Oid.tapBayerOrder t))
          ++ beBytes 4 g.width ++ beBytes 4 (if g.lineMode then 0 else g.unit) ++ beBytes 8 0 ++ beBytes 4 0
      else if trailer then beBytes 2 0 ++ beBytes 2 1 ++ beBytes 4 g.unit
      else data
    hdr ++ body

/-- The frame that carries a UDP payload of flow t (R247), without FCS. -/
def txEthernet (s : State) (t : Nat) (cfg : List (Nat × Nat)) (data : List Byte) : List Byte :=
  let p := cfgGet cfg Oid.flowTxPort t
  let dst := cfgGet cfg (Oid.flowTxDstAddr + 1) t * 2 ^ 64 + cfgGet cfg Oid.flowTxDstAddr t
  let v6 := dst / 2 ^ 32 != 0xFFFF
  let src := if v6 then portIpv6 s p else getObj s Oid.portIpv4 p
  let mac := cfgGet cfg Oid.flowTxDstMac t
  let mac := if isMulticast dst && mac = 0 then multicastMac dst else mac
  let vlan := cfgGet cfg Oid.flowTxVlan t
  let tci := if vlan.testBit 16 then some (vlan % 65536) else none
  let udp := udpDatagram v6 src dst (cfgGet cfg Oid.flowTxSrcPort t) (cfgGet cfg Oid.flowTxDstPort t) data
  let tos := cfgGet cfg Oid.flowTxDscp t * 4
  let ttl := cfgGet cfg Oid.flowTxTtl t
  if v6 then ethFrame mac (getObj s Oid.portMacAddr p) tci 0x86DD (ipv6Packet src dst 17 tos ttl udp)
  else ethFrame mac (getObj s Oid.portMacAddr p) tci 0x0800 (ipv4Packet src dst 17 tos ttl true [] udp)

/-- Pattern bytes of a frame from an image byte on, line by line (R405). -/
def patternBytes (cfg : List (Nat × Nat)) (t : Nat) (g : TxGeo) : Nat → Nat → Nat → List Byte
  | 0, _, _ => []
  | fuel + 1, off, len =>
    if len = 0 then []
    else
      let o := off % max 1 g.lineLen
      let n := min len (g.lineLen - o)
      patternLine cfg (cfgGet cfg Oid.tapPatternBlock t) g.fmt g.width (g.block % 2 ^ 32) (g.line0 + off / max 1 g.lineLen) o n
        ++ patternBytes cfg t g fuel (off + n) (len - n)

/-! ### Running a flow (R387, R390 to R392) -/

/-- The mode lets a source send (Table 12.1). -/
def sourceMode (m : Mode) (src : Nat) : Bool := m = .replay || ((m = .generate || m = .analyse) && src != 2)

/-- R387. -/
def txMeets (s : State) (t : Nat) : Bool :=
  let p := getObj s Oid.flowTxPort t
  getObj s Oid.flowTxType t != 0 && sourceMode s.modes.current (getObj s Oid.tapSource t)
    && (portUp s p || (isOn s Oid.tapLoopback t && portExists s p))

/-- A transition is under way to a mode that does not let the flow's source send: the flow ends, and does not begin again (R49). -/
def txLeaving (s : State) (t : Nat) : Bool :=
  match s.modes.target with
  | some m => !sourceMode m (getObj s Oid.tapSource t)
  | none => false

/-- Frames that have started. -/
def startedFrames (x : TxX) : List TxFrame := x.frames.filter (fun f => !f.pre)

/-- `tap.state` 6: the flow, its port or its host ring is faulted (R398, R404, R506). -/
def txFaulted (s : State) (t : Nat) : Bool :=
  isRetired s (resTxFlow t) || isRetired s (resPort (getObj s Oid.flowTxPort t))
    || (getObj s Oid.tapSource t = 3 && (txOf s t).ring.fault != 0)

/-- `tap.state` (Table 12.8). -/
def tapStateOf (s : State) (t : Nat) : Nat :=
  let x := txOf s t
  if getObj s Oid.flowTxType t = 0 && (startedFrames x).isEmpty then 0
  else if txFaulted s t then 6
  else if x.stopping then 4
  else if !txMeets s t || !x.entered then 1
  else if x.stopped && (startedFrames x).isEmpty then 5
  else if x.armed && decide (nowNs s < x.tNext) then 2
  else 3

/-- `tap.level_bytes` (R399). -/
def tapLevel (x : TxX) : Nat := (x.frames.map (fun f => f.buf.length)).sum

/-- No transmit flow runs: the condition of R45 for Dormant. -/
def txAllStopped (s : State) : Bool := s.tap.tx.all (fun e => (startedFrames e.2).isEmpty && !e.2.stopping)

/-- Count an occurrence of R391: a frame skipped. -/
def skipFrames (t n : Nat) (s : State) : State :=
  if n = 0 then s else setSticky Oid.tapStatus t 4 (addObj Oid.tapFramesSkipped t n s)

/-- The grid moves on by one frame (R389). -/
def nextGrid (s : State) (t : Nat) (x : TxX) : TxX :=
  let num := max 1 (getObj s Oid.tapRateNum t)
  let d := getObj s Oid.tapRateDen t * billion
  let r := x.rem + d % num
  { x with k := x.k + 1, tNext := x.tNext + d / num + (if num ≤ r then 1 else 0), rem := if num ≤ r then r - num else r }

/-- The smallest frame of a grid at least `ns` after its t_0. -/
def gridAfter (num d ns : Nat) : Nat := (ns * num + d - 1) / max 1 d

/-- The entry of a flow (R390, R391). -/
def tapEnter (t : Nat) (s : State) : State :=
  let x := txOf s t
  let num := max 1 (getObj s Oid.tapRateNum t)
  let d := getObj s Oid.tapRateDen t * billion
  let least := nowNs s + 100000
  let x : TxX := { ring := x.ring, entered := true, armed := decide (getObj s Oid.tapStartMode t ≤ 2), frames := startedFrames x }
  match getObj s Oid.tapStartMode t with
  | 0 => putTx t { x with tNext := least } s
  | 1 =>
    let t0 := tNsec (getObj s Oid.tapStartAt t)
    let j := if t0 < least then gridAfter num d (least - t0) else 0
    skipFrames t j (putTx t { x with k := j, tNext := t0 + j * d / num, rem := j * d % num } s)
  | 2 =>
    let j := gridAfter num d least
    putTx t { x with tNext := j * d / num, rem := j * d % num } s
  | _ => putTx t x s

/-! ### Sources (R402 to R404) -/

/-- A held cask's tag agrees with the flow's geometry (R403). -/
def caskFits (cfg : List (Nat × Nat)) (t : Nat) (c : Cask) : Bool :=
  let w := c.tag.getD 9 0
  w % 65536 + 1 = cfgGet cfg Oid.tapWidth t && w / 65536 % 256 = cfgGet cfg Oid.tapPixelFormat t
    && c.tag.getD 10 0 + 1 = (if cfgGet cfg Oid.tapStartMode t = 4 then cfgGet cfg Oid.tapBlockLines t else cfgGet cfg Oid.tapHeight t)

/-- Held casks of a receive flow, oldest commit first. -/
def heldOf (s : State) (f : Nat) : List (Nat × Cask) := (casksIn 4 s).filter (fun p => p.2.flow = f)

/-- The cask a replaying flow takes next (R403). -/
def nextCask (s : State) (t : Nat) (x : TxX) : Option (Nat × Cask) :=
  let l := heldOf s (getObj s Oid.tapSrcFlow t)
  match x.lastCommit with
  | none => l.head?
  | some n =>
    match l.find? (fun p => n < p.2.committed) with
    | some p => some p
    | none => if isOn s Oid.tapReplayLoop t then l.head? else none

/-- Mark a cask as being replayed. -/
def markReplay (id : Nat) (on : Bool) (s : State) : State :=
  match caskOf s id with
  | some c => putCask id (some { c with replay := on }) s
  | none => s

/-- What a frame start finds at its source. -/
inductive Taken where
  | src (v : TxSrc)
  | skip
  | ended
deriving DecidableEq, Repr

/-- Take the source of frame or occurrence k (R402 to R404). -/
def takeSource (t k : Nat) (cfg : List (Nat × Nat)) (x : TxX) (s : State) : Taken × TxX × State :=
  let g := txGeo cfg t k
  match cfgGet cfg Oid.tapSource t with
  | 0 => (.src .pattern, x, s)
  | 1 => (.src (.mem (cfgGet cfg Oid.tapRefAddr t + g.block % max 1 (cfgGet cfg Oid.tapRefFrames t) * cfgGet cfg Oid.tapRefFrameBytes t)), x, s)
  | 2 =>
    let same := (heldOf s (getObj s Oid.tapSrcFlow t)).find? (fun p => x.lastCommit = some p.2.committed)
    match (if g.line0 = 0 then nextCask s t x else same) with
    | none => (.ended, x, s)
    | some (id, c) =>
      let x := { x with lastCommit := some c.committed }
      if caskFits cfg t c then (.src (.cask id), x, markReplay id true s)
      else (.skip, x, releaseCask id (bump Oid.tapReplayMismatch t s))
  | _ =>
    let r := x.ring
    let last : Taken := .src (.host ((r.taken + countMod - 1) % countMod % r.slots))
    if !r.enabled || r.fault != 0 then (.skip, x, s)
    else if g.line0 != 0 && r.any then (last, x, s)
    else if r.post != r.taken then
      (.src (.host (r.taken % r.slots)), { x with ring := { r with taken := (r.taken + 1) % countMod, any := true } }, s)
    else if cfgGet cfg Oid.tapHostEmpty t = 0 && r.any then (last, x, s)
    else (.skip, x, s)

/-- TX_DONE (R404): slots wholly fetched of which the following slot has been taken. -/
def txDone (r : TapRing) : Nat := if r.any && r.full = r.taken then (r.taken + countMod - 1) % countMod else r.full

/-! ### The buffer (R399, R401) -/

/-- The offset in its source of image byte i. -/
def srcOffset (g : TxGeo) (i : Nat) : Nat := (g.line0 + i / max 1 g.lineLen) * g.stride + i % max 1 g.lineLen

/-- A byte of a cellar source, and whether its unit is poisoned. -/
def srcByte (s : State) (src : TxSrc) (o : Nat) : Byte × Bool :=
  match src with
  | .mem a => if unitPoisoned s (a + o) then (0, true) else (readByte s (a + o), false)
  | .cask id =>
    match caskOf s id with
    | some c => (caskByte s c o, match caskAddr c o with | some a => unitPoisoned s a | none => false)
    | none => (0, true)
  | .pattern => (0, false)
  | .host _ => (0, false)

/-- Image bytes from i of a cellar source, and the poisoned units that begin among them. -/
def fetchRun (s : State) (src : TxSrc) (g : TxGeo) (i : Nat) : Nat → List Byte × Nat
  | 0 => ([], 0)
  | n + 1 =>
    let o := srcOffset g i
    let b := srcByte s src o
    let r := fetchRun s src g (i + 1) n
    (b.1 :: r.1, r.2 + b2n (b.2 && o % 32 = 0))

/-- A frame with its next image bytes in the buffer; bytes before its next packet are let go. -/
def deliverTo (fr : TxFrame) (bs : List Byte) : TxFrame :=
  { fr with fetched := fr.fetched + bs.length, buf := fr.buf ++ bs.drop (fr.off - fr.fetched) }

/-- Change the first frame of a list that still has bytes to fetch. -/
def onUnfetched (t : Nat) (f : TxFrame → TxFrame) : List TxFrame → List TxFrame
  | [] => []
  | fr :: l => if fr.src != .pattern && fr.fetched < txTotal (txGeo fr.cfg t fr.k) then f fr :: l else fr :: onUnfetched t f l

/-- The first frame with bytes to fetch. -/
def unfetched (t : Nat) (x : TxX) : Option TxFrame :=
  x.frames.find? (fun fr => fr.src != .pattern && decide (fr.fetched < txTotal (txGeo fr.cfg t fr.k)))

/-- Free bytes of a flow's buffer. -/
def tapRoom (s : State) (t : Nat) (x : TxX) : Nat := getObj s Oid.tapBufferKib t * 1024 - tapLevel x

/-- Drive the tap's boil-over in a partition; each assertion fires 0x173. -/
def driveBoil (part : Nat) (on : Bool) (s : State) : State :=
  let was := getObj s Oid.cellarBoilover part &&& 2 != 0
  let s := setBoil part 2 on s
  if on && !was then fire 0x173 s else s

/-- Boil-over requests of flow t, and the tap's request in each partition (R399). -/
def updateTapBoil (t : Nat) (s : State) : State :=
  let x := txOf s t
  let src := getObj s Oid.tapSource t
  let remain := (unfetched t x).isSome
  let lvl := tapLevel x
  let run := tapStateOf s t = 3 && (src = 1 || src = 2)
  let b := if !run || !remain || getObj s Oid.tapHighKib t * 1024 ≤ lvl then false
    else if lvl < getObj s Oid.tapLowKib t * 1024 then true else x.boil
  let s := putTx t { x with boil := b } s
  let any (k : Nat) : Bool := s.tap.tx.any (fun e => e.2.boil && getObj s Oid.tapSource e.1 = k)
  driveBoil 0 (any 2) (driveBoil 1 (any 1) s)

/-- Prefetch the next frame of a grid flow of source 1 or 2 once every frame it has is fetched (R399). -/
def tapPrefetch (t : Nat) (s : State) : State :=
  let x := txOf s t
  let cfg := txSettings s t
  if !x.entered || x.stopping || x.stopped || (unfetched t x).isSome || x.frames.any (fun f => f.pre) || 2 < getObj s Oid.tapStartMode t then s
  else
    let fr : TxFrame := { k := x.k, start := x.tNext, cfg := cfg, src := .pattern, pre := true, npk := packetsOf (txGeo cfg t x.k) }
    match getObj s Oid.tapSource t with
    | 1 =>
      (match takeSource t x.k cfg x s with
        | (.src v, _, _) => putTx t { x with frames := x.frames ++ [{ fr with src := v }] } s
        | _ => s)
    | 2 =>
      (match nextCask s t x with
        | some (id, c) => if caskFits cfg t c then putTx t { x with frames := x.frames ++ [{ fr with src := .cask id }] } s else s
        | none => s)
    | _ => s

/-- The ring's fetch of the next bytes of a host slot: one read at a time (R404, R486). -/
def tapRequest (t : Nat) (s : State) : State :=
  let x := txOf s t
  match unfetched t x with
  | none => s
  | some fr =>
    match fr.src with
    | .host slot =>
      let g := txGeo fr.cfg t fr.k
      let outstanding := s.link.tags.any (fun e => match e.use with | .tapData f _ _ => f = t | _ => false)
      if outstanding || busStopped s || x.ring.fault != 0 || tapRoom s t x = 0 then s
      else
        let o := srcOffset g fr.fetched
        let v := slot * x.ring.slotBytes + o
        match translate (2048 + t) x.ring.dir x.ring.bigPage v s with
        | (none, s) => s
        | (some a, s) =>
          let n := min (min (g.lineLen - fr.fetched % max 1 g.lineLen) (tapRoom s t x))
            (min (min (min 256 (max 1 s.link.maxRead)) (pageBytes x.ring.bigPage - v % pageBytes x.ring.bigPage)) (4096 - a % 4096))
          hostRead (.tapData t fr.fetched n) a n s
    | .pattern => s
    | .mem _ => s
    | .cask _ => s

/-- A slot whose last byte has been fetched (R404). -/
def countFull (t : Nat) (x : TxX) (fr : TxFrame) : TxX :=
  match fr.src with
  | .host slot =>
    let g := txGeo fr.cfg t fr.k
    let last := fr.fetched = txTotal g && g.line0 + g.lines = g.unit
    if last && x.ring.full ≠ x.ring.taken && x.ring.full % max 1 x.ring.slots = slot then
      { x with ring := { x.ring with full := (x.ring.full + 1) % countMod } }
    else x
  | .pattern => x
  | .mem _ => x
  | .cask _ => x

/-- Host data for flow t arrives (R404); a failed read gives zeros, counted by unit (R401). -/
def tapData (t offset len : Nat) (data : Option (List Byte)) (s : State) : State :=
  let x := txOf s t
  match unfetched t x with
  | none => s
  | some fr =>
    if fr.fetched ≠ offset then s
    else
      let bs := match data with | some d => padTo len d | none => List.replicate len 0
      let s := if data.isNone then setSticky Oid.tapStatus t 0x10 (addObj Oid.tapPoisonedUnits t ((len + 31) / 32) s) else s
      let x := countFull t { x with frames := onUnfetched t (fun f => deliverTo f bs) x.frames } (deliverTo fr bs)
      updateTapBoil t (tapRequest t (putTx t x s))

/-- n bytes are fetched from the cellar (R399, R401). -/
def tapFetch (t n : Nat) (s : State) : State :=
  let s := tapPrefetch t s
  let x := txOf s t
  match unfetched t x with
  | none => updateTapBoil t s
  | some fr =>
    match fr.src with
    | .host _ => updateTapBoil t (tapRequest t s)
    | _ =>
      let g := txGeo fr.cfg t fr.k
      let n := min n (min (tapRoom s t x) (txTotal g - fr.fetched))
      let r := fetchRun s fr.src g fr.fetched n
      let s := putTx t { x with frames := onUnfetched t (fun f => deliverTo f r.1) x.frames } s
      let s := if r.2 = 0 then s else setSticky Oid.tapStatus t 0x10 (addObj Oid.tapPoisonedUnits t r.2 s)
      updateTapBoil t (tapPrefetch t s)

/-! ### Starting a frame (R389, R418) -/

/-- The pairing entry of a frame start (R418). -/
def notePair (t : Nat) (fr : TxFrame) (s : State) : State :=
  let g := txGeo fr.cfg t fr.k
  if g.line0 ≠ 0 then s
  else
    let key := if g.st then rtpStamp fr.start else blockId (cfgGet fr.cfg Oid.tapGvspExtId t = 1) g.block
    let e : PairEntry := { key := key, f := g.block % 2 ^ 32, t := fr.start * 65536 }
    { s with tap := { s.tap with pairs := tabPut [] t ((e :: tabGet [] t s.tap.pairs).take 64) s.tap.pairs } }

/-- Start frame or occurrence k at an instant in ns: its source is taken, or the frame is skipped, in line mode with the rest of its block (R389, R391, R403, R404). Frames are counted at their first line (R392). -/
def startFrame (t start : Nat) (s : State) : State :=
  let x := txOf s t
  let cfg := txSettings s t
  match takeSource t x.k cfg x s with
  | (.ended, x, s) => putTx t { x with stopped := true, frames := startedFrames x } s
  | (.skip, x, s) =>
    let g := txGeo cfg t x.k
    skipFrames t 1 (putTx t { x with frames := startedFrames x, k := if g.lineMode then x.k + (g.unit - 1 - g.line0) else x.k } s)
  | (.src v, x, s) =>
    let g := txGeo cfg t x.k
    let new : TxFrame := { k := x.k, start := start, cfg := cfg, src := v, npk := packetsOf g }
    let fr := match x.frames.find? (fun f => f.pre) with
      | some p => if p.src = v && p.cfg = cfg then { p with pre := false, start := start, k := x.k } else new
      | none => new
    let s := putTx t { x with frames := startedFrames x ++ [fr], count := x.count + b2n (g.line0 = 0) } s
    let s := if g.line0 = 0 then flowSignal 3 t s else s
    tapRequest t (notePair t fr s)

/-- The flow may start no further frame (R392): its stop time or frame count is reached. A block of lines that has begun is finished. -/
def stopReached (s : State) (t : Nat) (x : TxX) (start : Nat) : Bool :=
  let at_ := getObj s Oid.tapStopAt t
  let n := getObj s Oid.tapFrameCount t
  (txGeo (txSettings s t) t x.k).line0 = 0 && ((at_ != 0 && decide (tNsec at_ ≤ start)) || (n != 0 && decide (n ≤ x.count)))

/-- The casks a looping replay held are released when the flow stops (R403). -/
def releaseReplay (t : Nat) (s : State) : State :=
  if getObj s Oid.tapSource t = 2 && isOn s Oid.tapReplayLoop t then
    (heldOf s (getObj s Oid.tapSrcFlow t)).foldl (fun s p => releaseCask p.1 s) s
  else s

/-- The run of a flow is over. -/
def endRun (t : Nat) (s : State) : State :=
  let x := txOf s t
  updateTapBoil t (releaseReplay t (putTx t { ring := x.ring } s))

/-- Act on a flow whose last frame has ended (R49, R392). -/
def settleTx (t : Nat) (s : State) : State :=
  let x := txOf s t
  if !(startedFrames x).isEmpty then s
  else if x.stopping then endRun t s
  else if x.stopped then releaseReplay t (putTx t { x with frames := [] } s)
  else s

/-- Frame start of the grid, or of the front occurrence; `none` when the flow starts no frame now. -/
def gridStart (t : Nat) (s : State) : State :=
  let x := txOf s t
  if !x.entered || x.stopping || x.stopped || 2 < getObj s Oid.tapStartMode t || decide (nowNs s < x.tNext) || txFaulted s t then s
  else if stopReached s t x x.tNext then s
  else
    let s := startFrame t x.tNext (putTx t { x with armed := false } s)
    updateTapBoil t (tapPrefetch t (settleTx t (putTx t (nextGrid s t (txOf s t)) s)))

/-- Whether a frame of flow t starts by `gridStart`. -/
def gridStarts (t : Nat) (s : State) : Bool := (txOf (gridStart t s) t).count != (txOf s t).count

/-! ### Leaving the MAC (R396 to R398, R400, R409) -/

/-- The priority of a flow's packets (R246). -/
def txPriority (cfg : List (Nat × Nat)) (t : Nat) : Nat :=
  let v := cfgGet cfg Oid.flowTxVlan t
  if v.testBit 16 then v / 8192 % 8 else 0

/-- Image bytes of the next packet of a frame. -/
def nextLen (t : Nat) (fr : TxFrame) : Nat :=
  let g := txGeo fr.cfg t fr.k
  if isPayload g fr.j then packetLen g fr.off else 0

/-- The next packet's payload is wholly there. -/
def payloadThere (t : Nat) (fr : TxFrame) : Bool := fr.src = .pattern || decide (nextLen t fr ≤ fr.buf.length)

/-- The next packet is used up, sent or not: its number goes, and a frame without packets left goes (R393, R400). -/
def usePacket (t : Nat) (sent : Bool) (s : State) : State :=
  let x := txOf s t
  match x.frames with
  | [] => s
  | fr :: l =>
    let n := nextLen t fr
    let fr' : TxFrame := { fr with j := fr.j + 1, off := fr.off + n, buf := fr.buf.drop n, unders := fr.unders - 1 }
    let done := fr'.j ≥ fr.npk
    let g := txGeo fr.cfg t fr.k
    let s := if done && sent && (!g.lineMode || hasTrailer g) then bump Oid.tapFramesSent t s else s
    let x := if done then countFull t { x with frames := l } { fr with fetched := txTotal g } else { x with frames := fr' :: l }
    settleTx t (putTx t { x with seq := (x.seq + 1) % 2 ^ 32 } s)

/-- A transmit underrun is recorded (R400, Table 17.1). -/
def underrun (t : Nat) (s : State) : State :=
  let s := fire 0x17D (setSticky Oid.tapStatus t 1 (bump Oid.tapUnderruns t s))
  (recordFault (resTxFlow t) 1 false s).1

/-- Send the next packet of flow t at an instant (R396, R409). -/
def sendPacket (t : Nat) (fr : TxFrame) (at_ : Nat) (s : State) : State :=
  let x := txOf s t
  let g := txGeo fr.cfg t fr.k
  let n := nextLen t fr
  let data := if fr.src = .pattern then patternBytes fr.cfg t g (n + 1) fr.off n else fr.buf.take n
  let b := txEthernet s t fr.cfg (packetBody t fr x.seq data)
  let p := cfgGet fr.cfg Oid.flowTxPort t
  let late := packetDue t fr + cfgGet fr.cfg Oid.tapLateLimitNs t < tNsec at_
  let s := if late then setSticky Oid.tapStatus t 2 (bump Oid.tapLatePackets t s) else s
  let s := bump Oid.flowTxPackets t s
  if cfgGet fr.cfg Oid.tapLoopback t = 1 then loopFrame p b at_ s
  else txFrame p (b.length + 4) (.packet p t (withFcs b)) s

/-- The port of a frame cannot send it (R387, R398). -/
def cannotSend (s : State) (t : Nat) (fr : TxFrame) : Bool :=
  let p := cfgGet fr.cfg Oid.flowTxPort t
  isRetired s (resPort p) || !(if cfgGet fr.cfg Oid.tapLoopback t = 1 then portExists s p else portUp s p)

/-- The frames of a flow with one more underrun counted: of the first packet that has fallen due and has none counted; every packet behind one whose payload is missing lacks its own (R400). -/
def markUnder (t at_ : Nat) : List TxFrame → Option (List TxFrame)
  | [] => none
  | fr :: l =>
    if fr.pre || fr.src = .pattern then none
    else if fr.j + fr.unders < fr.npk then
      if packetDue t { fr with j := fr.j + fr.unders } ≤ tNsec at_ then some ({ fr with unders := fr.unders + 1 } :: l) else none
    else (markUnder t at_ l).map (fun m => fr :: m)

/-- One such packet of flow t, if there is one, underruns. -/
def countUnder (t at_ : Nat) (s : State) : State :=
  match markUnder t at_ (txOf s t).frames with
  | some l => putTx t { txOf s t with frames := l } (underrun t s)
  | none => s

/-- Deal with the next packet of flow t, which has fallen due (R396 to R400). -/
def duePacket (t : Nat) (fr : TxFrame) (at_ : Nat) (s : State) : State :=
  let x := txOf s t
  let setHead (f : TxFrame → TxFrame) (s : State) : State :=
    putTx t { txOf s t with frames := match (txOf s t).frames with | [] => [] | h :: l => f h :: l } s
  let s' :=
    if cannotSend s t fr then
      usePacket t false (setHead (fun f => { f with dead := true }) (setSticky Oid.tapStatus t 0x40 (bump Oid.tapDownDrops t s)))
    else if fr.dead then usePacket t false s
    else if !payloadThere t fr then
      if cfgGet fr.cfg Oid.tapUnderrunAction t = 1 then usePacket t false (if fr.unders = 0 then underrun t s else s)
      else countUnder t at_ s
    else usePacket t true (sendPacket t fr at_ s)
  if x.entered then tapRequest t (updateTapBoil t (tapPrefetch t s')) else s'

/-- The frame whose next packet a flow sends: its oldest started one. -/
def headFrame (x : TxX) : Option TxFrame := match x.frames with | f :: _ => if f.pre then none else some f | [] => none

/-- Flows with a packet due on port p at an instant, that may leave or must be dealt with. -/
def dueFlows (s : State) (p at_ : Nat) : List (Nat × Nat × TxFrame) :=
  s.tap.tx.filterMap (fun e =>
    match headFrame e.2 with
    | none => none
    | some fr =>
      let due := packetDue e.1 fr
      if cfgGet fr.cfg Oid.flowTxPort e.1 = p && decide (due ≤ tNsec at_) && !isStopped s p (txPriority fr.cfg e.1)
          && (fr.unders = 0 || payloadThere e.1 fr || cannotSend s e.1 fr || cfgGet fr.cfg Oid.tapUnderrunAction e.1 = 1
            || (markUnder e.1 at_ e.2.frames).isSome) then some (due, e.1, fr) else none)

/-- The earliest due first, equal times by flow number (R396). -/
def packetAt (p at_ : Nat) (s : State) : State :=
  match sortBy (fun e => e.1) (dueFlows s p at_) with
  | [] => s
  | (_, t, fr) :: _ => duePacket t fr at_ s

/-- Discard the packets an ST 2110-20 flow has held beyond its late limit (R397), at most `fuel`. -/
def dropHeld (t : Nat) : Nat → State → State
  | 0, s => s
  | fuel + 1, s =>
    match headFrame (txOf s t) with
    | none => s
    | some fr =>
      if (txGeo fr.cfg t fr.k).st && decide (packetDue t fr + cfgGet fr.cfg Oid.tapLateLimitNs t < nowNs s) then
        dropHeld t fuel (usePacket t false (setSticky Oid.tapStatus t 0x20 (bump Oid.tapPausedDrops t s)))
      else s

/-- A partner's stop of a priority ends (R397); firmware frames held back by one of priority 0 leave (R246). -/
def stopEnds (p prio : Nat) (s : State) : State :=
  let s := putPortX p { portX s p with stopped := tabPut 0 prio 0 (portX s p).stopped } s
  let s := if prio = 0 then sendWaiting p s else s
  (s.tap.tx.map (fun e => e.1)).foldl (fun s t =>
    match headFrame (txOf s t) with
    | some fr =>
      if cfgGet fr.cfg Oid.flowTxPort t = p && txPriority fr.cfg t = prio then
        dropHeld t (((startedFrames (txOf s t)).map (fun f => f.npk)).sum) s
      else s
    | none => s) s

/-- A received MAC control frame (R244, R246); quanta of 0 end a stop at once. -/
def macControl (p : Nat) (frame : List Byte) (s : State) : State :=
  let s := bump Oid.portRxPauseFrames p s
  if !isOn s Oid.portPauseHonour p then s
  else
    let qs := pauseContent (getObj s Oid.portFlowCtrl p) (frame.drop 14)
    let ends := (qs.filter (fun q => q.2 = 0 && isStopped s p q.1)).map (fun q => q.1)
    ends.foldl (fun s k => stopEnds p k s) (setStops p (qs.filter (fun q => q.2 != 0)) s)

/-! ### Stopping (R49, R392) -/

/-- A flow ends at the end of its frame in progress. -/
def stopTx (t : Nat) (s : State) : State :=
  let x := txOf s t
  if (startedFrames x).isEmpty then endRun t s else putTx t { x with stopping := true, frames := startedFrames x } s

/-- Every flow a mode change stops (R49): those whose source the new mode does not let send. -/
def stopTransmit (m : Mode) (s : State) : State :=
  (s.tap.tx.map (fun e => e.1)).foldl (fun s t => if sourceMode m (getObj s Oid.tapSource t) then s else stopTx t s) s

/-- Halt, Limp and reset end every flow at once (Table 12.6). -/
def abandonTx (s : State) : State :=
  let s := { s with tap := { s.tap with tx := (s.tap.tx.map (fun e => (e.1, ({ ring := e.2.ring } : TxX)))).filter (fun e => e.2 != {}) } }
  driveBoil 0 false (driveBoil 1 false s)

/-- `flow.tx_type` has become 0 by a pitch: the flow ends at its frame boundary (R24). -/
def txTypeWritten (t : Nat) (s : State) : State := if getObj s Oid.flowTxType t = 0 && (txOf s t).entered then stopTx t s else s

/-! ### Host rings (R404) -/

/-- The checks of an enable (R358 by R404). -/
def tapEnableOk (s : State) (t : Nat) : Bool :=
  let big := getObj s Oid.tapHostPage t = 1
  let g := txGeo (txSettings s t) t 0
  decide (getObj s Oid.tapHostSlots t * getObj s Oid.tapHostSlotBytes t ≤ getObj s Oid.tapHostDirEntries t * 512 * pageBytes big)
    && (getObj s Oid.flowTxType t = 0 || decide (getObj s Oid.tapHeight t * g.stride ≤ getObj s Oid.tapHostSlotBytes t))

/-- Enable the ring with its objects as they stand. -/
def tapEnable (t : Nat) (s : State) : State :=
  let x := txOf s t
  if x.ring.enabled then putObj Oid.tapHostEnable t 1 s
  else
    let r : TapRing := { enabled := true, dir := getObj s Oid.tapHostDir t, dirEntries := getObj s Oid.tapHostDirEntries t
                         bigPage := getObj s Oid.tapHostPage t = 1, slots := getObj s Oid.tapHostSlots t
                         slotBytes := getObj s Oid.tapHostSlotBytes t }
    putObj Oid.tapHostEnable t 1 (tlbForget (2048 + t) (putTx t { x with ring := r } s))

/-- Disable it: a frame already started is still fetched, and a fault stands until the ring is enabled again. -/
def tapDisable (t : Nat) (s : State) : State :=
  let x := txOf s t
  putObj Oid.tapHostEnable t 0 (tlbDrop (2048 + t) (putTx t { x with ring := { x.ring with enabled := false } } s))

/-- A page list or doorbell fault (R404): the flow is in state 6 and its frames go. -/
def tapFault (t code : Nat) (s : State) : State :=
  let x := txOf s t
  if x.ring.fault ≠ 0 then s
  else
    let frames := x.frames.filter (fun f => match f.src with | .host _ => false | _ => true)
    settleTx t (putTx t { x with frames := frames, ring := { x.ring with fault := code } } s)

/-- A walk read for tap ring t returns (R353). -/
def tapWalkDone (t page : Nat) (table : Bool) (data : List Byte) (s : State) : State :=
  match walkReturn (2048 + t) page table (txOf s t).ring.bigPage data s with
  | (some code, s) => tapFault t code s
  | (none, s) => tapRequest t s

/-- A host reset disables every ring and sets every count to 0 (R404); what was being read is lost. -/
def tapHostReset (s : State) : State :=
  (s.tap.tx.map (fun e => e.1)).foldl (fun s t =>
    let x := txOf s t
    let frames := x.frames.filter (fun f => match f.src with | .host _ => false | _ => true)
    settleTx t (putObj Oid.tapHostEnable t 0 (tlbDrop (2048 + t) (putTx t { x with frames := frames, ring := {} } s)))) s

/-! ### Rows -/

/-- TAP_ENTRY (R387, R390, R391). -/
def execTapEntry (t : TxFlow) (s : State) : Host.Outcome State Fault Refusal :=
  if txMeets s t.val && !txLeaving s t.val && !(txOf s t.val).entered && !txFaulted s t.val && !(txOf s t.val).stopping then
    .next (tapPrefetch t.val (tapEnter t.val s))
  else .next s

/-- PACKET_DUE (R396): a lane word boundary of port p at which it is free. -/
def execPacketDue (p : Port) (t : Time96) (s : State) : Host.Outcome State Fault Refusal := .next (packetAt p.val (Time96pack t) s)

/-- TAP_FETCH_COMPLETE (R399). -/
def execTapFetchComplete (t : TxFlow) (n : Word) (s : State) : Host.Outcome State Fault Refusal := .next (tapFetch t.val n.toNat s)

/-- A write of TX_POST[t] (R404): slots posted, or fault 5 when there are more than the ring has. -/
def postTx (t v : Nat) (s : State) : State :=
  let x := txOf s t
  if !x.ring.enabled || x.ring.fault ≠ 0 then s
  else if x.ring.slots < countDiff v x.ring.taken then tapFault t 5 s
  else putTx t { x with ring := { x.ring with post := v } } s

/-- TX_POST (R404). -/
def execTxPost (t : TxFlow) (value : Word) (s : State) : Host.Outcome State Fault Refusal :=
  .next (bar0Write (postTx t.val (value.toNat % countMod)) s)

/-- TAP_STOP (R392): the stop time or frame count is reached. -/
def execTapStop (t : TxFlow) (s : State) : Host.Outcome State Fault Refusal :=
  let x := txOf s t.val
  let at_ := if getObj s Oid.tapStartMode t.val ≤ 2 then x.tNext else nowNs s
  if x.entered && !x.stopping && !x.stopped && stopReached s t.val x at_ then
    .next (settleTx t.val (putTx t.val { x with stopped := true, frames := startedFrames x } s))
  else .next s

/-- The flow trigger that names transmit flow t (R407). -/
def txTrigger (s : State) (t : Nat) : Option Nat :=
  (List.range 32).find? (fun k => getObj s Oid.eventsFlowTriggerSel k / 2 ^ 30 = 2 && getObj s Oid.eventsFlowTriggerSel k % 4096 = t)

/-- Take the waiting occurrence of flow t: the frame or line starts (R407). -/
def triggerStart (t : Nat) (s : State) : State :=
  let x := txOf s t
  if !x.entered || x.stopping || x.stopped || getObj s Oid.tapStartMode t ≤ 2 || txFaulted s t || !(startedFrames x).isEmpty then s
  else match txTrigger s t with
  | none => s
  | some k =>
    match tabGet none k s.fab.flowTrig with
    | none => s
    | some o =>
      let at_ := tNsec o.due + getObj s Oid.tapTriggerDelayNs t
      if nowNs s < at_ || stopReached s t x (max at_ (nowNs s)) then s
      else
        let s := { s with fab := { s.fab with flowTrig := tabPut none k none s.fab.flowTrig } }
        let s := startFrame t (max at_ (nowNs s)) s
        updateTapBoil t (putTx t { txOf s t with k := (txOf s t).k + 1 } s)

/-- Whether a frame or line of flow t starts by `triggerStart`. -/
def triggerStarts (t : Nat) (s : State) : Bool := (txOf (triggerStart t s) t).count != (txOf s t).count

/-- The casks flow t has wholly fetched and not released (R403): no frame of the flow still reads them. -/
def fetchedCasks (s : State) (t : Nat) : List Nat :=
  ((heldOf s (getObj s Oid.tapSrcFlow t)).filter (fun p => p.2.replay &&
    (txOf s t).frames.all (fun f => f.src != .cask p.1 || f.fetched = txTotal (txGeo f.cfg t f.k)))).map (fun p => p.1)

/-- REPLAY_CASK_DONE (R403): the oldest replayed cask whose last byte is fetched is released as delivered. -/
def execReplayCaskDone (t : TxFlow) (s : State) : Host.Outcome State Fault Refusal :=
  if getObj s Oid.tapSource t.val = 2 && !isOn s Oid.tapReplayLoop t.val then
    match fetchedCasks s t.val with
    | id :: _ => .next (releaseCask id s)
    | [] => .next s
  else .next s

/-- TRANSMIT_CUT_TIMEOUT (R49, R392): 100 ms after the request. -/
def execTransmitCutTimeout (t : TxFlow) (s : State) : Host.Outcome State Fault Refusal :=
  let x := txOf s t.val
  if x.stopping && !(startedFrames x).isEmpty then
    .next (endRun t.val (setSticky Oid.tapStatus t.val 8 (bump Oid.tapCutFrames t.val s)))
  else .next s

/-- The port can receive: it is up, in a mode that passes its frames (R230, R254). -/
def portReceives (s : State) (p : Nat) : Bool := portUp s p && passing (acceptMode s) p != .none

/-- FRAME_RECEIVE (R229, R233 to R239): a frame with its FCS, the codewords its FEC corrected and could not correct, and its stamp (R139). -/
def execFrameReceive (p : Port) (frame : List Byte) (fecCorrected fecBad : Half) (stamp : Time96) (s : State) :
    Host.Outcome State Fault Refusal :=
  let p := p.val
  if !portReceives s p then .next s
  else
    let s := if fecActive s p = 0 then s
      else addObj Oid.portFecUncorrected p fecBad.toNat (addObj Oid.portFecCorrected p fecCorrected.toNat s)
    let bad := fecActive s p != 0 && fecBad != 0
    if isMacControl frame then
      (match macError s p frame with
        | some id => .next (bump id p s)
        | none => if bad then .next s else .next (macControl p frame s))
    else .next (receiveFrame p frame bad (Time96pack stamp) s)

/-- PAUSE_RECEIVE (R244, R246): a PAUSE or PFC frame with its FCS. -/
def execPauseReceive (p : Port) (frame : List Byte) (s : State) : Host.Outcome State Fault Refusal :=
  let p := p.val
  if !portReceives s p || !isMacControl frame then .next s
  else match macError s p frame with
  | some id => .next (bump id p s)
  | none => .next (macControl p frame s)

/-- PAUSE_STOP_END (R397): the quanta of a priority have run out. -/
def execPauseStopEnd (p : Port) (prio : Fin 8) (s : State) : Host.Outcome State Fault Refusal :=
  if isStopped s p.val prio.val then .next (stopEnds p.val prio.val s) else .next s

end Sys2Proof.Machine
end

