-- ==== Sys2Proof/Machine/HostLink.lean ====
section
/-! DEFINITION. The host link (16_host_link): the link, requests and their tags, BAR2 windows, the interrupt form, and what clearing Bus Master Enable and a host reset do. -/

namespace Sys2Proof.Machine

open Sys2Proof

/-! ### Link and configuration -/

/-- Configuration requests are answered: the link is up and CRS has ended (R56, Table 16.10). -/
def configServed (s : State) : Bool :=
  s.link.up && s.modes.current != .cold && (s.modes.current != .boot || s.modes.step = .recovery)

/-- The completion timeout in µs that Device Control 2 selects (Table 16.5). -/
def cplTimeoutUs (sel : Nat) : Nat :=
  match sel with
  | 1 => 80
  | 2 => 8000
  | 5 => 40000
  | 6 => 150000
  | _ => 30000

/-- The tag pool of R486. -/
def tagPoolOf (flit ext tag10 tag14 : Bool) : Nat :=
  if flit && tag14 then 16384 else if !flit && tag10 then 768 else if ext then 256 else 32

/-- The link trains (R479, R480): the rate capped by `hostlink.max_speed`, and Flit mode. -/
def linkUp (speed width : Nat) (partnerFlit : Bool) (s : State) : State :=
  let code := min speed (getObj s Oid.hostlinkMaxSpeed)
  let flit := code = 6 || (partnerFlit && decide (3 ≤ code))
  let s := putObj Oid.hostlinkLinkSpeed 0 code (putObj Oid.hostlinkLinkWidth 0 width (putObj Oid.hostlinkFlitMode 0 (b2n flit) s))
  let s := if width < 16 || code < 6 then setSticky Oid.hostlinkStatus 0 1 s else s
  { s with link := { s.link with up := true, form := .intx, l2 := false, wake := false } }

/-- The link is down: its objects read so (Table 16.11). -/
def linkDown (s : State) : State :=
  let s := putObj Oid.hostlinkLinkSpeed 0 0 (putObj Oid.hostlinkLinkWidth 0 0 (putObj Oid.hostlinkFlitMode 0 0 s))
  { s with link := { s.link with up := false, form := .none, l1 := false } }

/-- Configuration space at its reset values; the AER status is sticky and the BAR2 windows stay (R497, R500). PRESUMED: the reset values of the base specification for what the manual does not give. -/
def configReset (s : State) : State :=
  let s := { s with
    link := { s.link with
      bme := false, mse := false, d3hot := false, l1 := false, aspmL1 := false, intDisable := false, msiMask := 0, tagPool := 32, cplSel := 0,
      maxPayload := 128, maxRead := 512, relaxed := true,
      form := if s.link.up then .intx else .none }
    fab := { s.fab with unmasked := [], pba := [] } }
  putObj Oid.hostlinkCplTimeoutUs 0 (cplTimeoutUs 0) s

/-! ### Stopping and resuming requests (R499) -/

/-- Bits of `hostlink.stopped` beside the racking engine's: 1 tap host reads, 2 interrupt messages. -/
def setStopped (mask : Nat) (s : State) : State := putObj Oid.hostlinkStopped 0 mask s

/-- HOST_STATE [2:0] (Table 16.7). -/
def hostState (s : State) : Nat := getObj s Oid.hostlinkStopped + b2n s.rk.stopped

/-- What R499 stops: completions still outstanding will be accepted and discarded. -/
def stopRequests (s : State) : State :=
  let s := if s.link.tags.isEmpty then s else setSticky Oid.hostlinkStatus 0 2 s
  let s := { s with link := { s.link with tags := s.link.tags.map (fun t => { t with use := .discard }) } }
  fire 0x17E (setStopped 6 (stopRacking s))

/-- Send the messages of a list of vectors that are pending and not masked (R184, R499); in INTx the level stands for them. -/
def sendHeld : List Nat → State → State
  | [], s => s
  | v :: vs, s =>
    let s :=
      if tabGet false v s.fab.pba && !vecMasked s v then
        let t := { s with fab := { s.fab with pba := tabPut false v false s.fab.pba } }
        match s.link.form with
        | .msix => bump Oid.eventsVecSent v (emit (.msix v) t)
        | .msi n => bump Oid.eventsVecSent v (emit (.msi (v % max n 1)) t)
        | .intx => t
        | .none => s
      else s
    sendHeld vs s

/-- Tap flows go on fetching from the slot in use (R499). -/
def resumeTaps (s : State) : State := (s.tap.tx.map (fun e => e.1)).foldl (fun s t => tapRequest t s) s

/-- Requests may be made again: Bus Master Enable set, in D0 (R499). -/
def resumeRequests (s : State) : State :=
  resumeTaps (setStopped 0 (sendHeld (s.fab.pba.map (fun p => p.1)) s))

/-! ### Host reset (R500) -/

/-- Mailboxes after a host reset (R104): responses are discarded and every mailbox reads idle; a PITCH in arming goes on. -/
def resetMailboxes (s : State) : State :=
  let drop (r : Reply) : Reply := match r with | .mailbox _ _ => .none | .none => .none | .linob a n q o => .linob a n q o | .bcast => .bcast
  { s with dict := { s.dict with
      mbox := s.dict.mbox.map (fun m => (m.1, { m.2 with phase := .idle, seq := 0, status := 0, rsp := [] }))
      pitch := s.dict.pitch.map (fun p => { p with reply := drop p.reply }) } }

/-- R187: every SRC_STATUS bit and coalescing count is cleared. -/
def resetEventsHost (s : State) : State := { s with fab := { s.fab with srcStatus := [], vec := [] } }

/-- The link that goes down in Dormant with the function in D3hot is in L2 from then on (R483, R531). -/
def linkToL2 (kind : HostResetKind) (s : State) : State :=
  if (kind = .dlDown || kind = .perst) && s.link.up && s.link.d3hot && s.modes.current = .dormant then
    { s with link := { s.link with l2 := true } }
  else s

/-- A host reset of a kind. -/
def hostReset (kind : HostResetKind) (s : State) : State :=
  let s := linkToL2 kind s
  let busy := !s.link.tags.isEmpty
  let wasBme := s.link.bme
  let s := if busy then setSticky Oid.hostlinkStatus 0 2 s else s
  let s := { s with link := { s.link with quar := s.link.quar ++ s.link.tags, tags := [] } }
  let s := resetEventsHost (resetMailboxes s)
  let s := tapHostReset (resetRacking s)
  let s := setSticky Oid.rackingStatus 0 0x20 s
  let s := match kind with
    | .flr => bump Oid.hostlinkFlrCount 0 (setSticky Oid.hostlinkStatus 0 0x40 s)
    | .hotReset => bump Oid.hostlinkFlrCount 0 (setSticky Oid.hostlinkStatus 0 0x40 s)
    | .dlDown => linkDown (bump Oid.hostlinkLinkDowns 0 (setSticky Oid.hostlinkStatus 0 0x80 s))
    | .perst => linkDown (bump Oid.hostlinkLinkDowns 0 (setSticky Oid.hostlinkStatus 0 0x80 { s with link := { s.link with perst := true } }))
  let s := updateIntx (configReset s)
  let s := if wasBme then setStopped 6 s else s
  fire 0x17E s

/-! ### Tags (R486 to R489) -/

/-- Report a failed request to its block (R487). -/
def failRequest (e : TagEntry) (s : State) : State :=
  match e.use with
  | .walk _ _ _ => rackingReadFailed e.use s
  | .zero _ _ => rackingReadFailed e.use s
  | .tapWalk t _ _ => tapFault t 3 s
  | .tapData t off len => tapData t off len none s
  | .discard => s

/-- Give the data of a completion to its block. -/
def giveData (e : TagEntry) (data : List Byte) (s : State) : State :=
  match e.use with
  | .walk ring page table => rackingWalkDone ring page table data s
  | .zero ring count => zeroReadDone ring count s
  | .tapWalk t page table => tapRequest t (tapWalkDone t page table data s)
  | .tapData t off len => tapData t off len (some data) s
  | .discard => bump Oid.hostlinkDiscardedCompletions 0 s

/-- A quarantined tag. -/
def quarantined (s : State) (tag : Nat) : Bool := s.link.quar.any (fun t => t.tag = tag)

/-- A quarantined tag returns to the pool. -/
def returnTag (tag : Nat) (s : State) : State := { s with link := { s.link with quar := s.link.quar.filter (fun t => t.tag ≠ tag) } }

/-- A completion for a quarantined tag (R488). -/
def lateCompletion (tag : Nat) (last : Bool) (s : State) : State :=
  let s := logAer .advisoryNonFatal (bump Oid.hostlinkLateCompletions 0 (setSticky Oid.hostlinkStatus 0 4 s))
  if last then returnTag tag s else s

/-- A completion arrives: for an outstanding tag, a quarantined one, or neither (Table 16.4). -/
def completion (tag : Nat) (data : List Byte) (s : State) : State :=
  match tagEntry s tag with
  | some e => giveData e data (freeTag tag s)
  | none => if quarantined s tag then lateCompletion tag true s else logAer .unexpectedCompletion s

/-- A request has had no completion by its timeout (R487). -/
def timeoutTag (e : TagEntry) (s : State) : State :=
  let s := freeTag e.tag s
  let s := { s with link := { s.link with quar := s.link.quar ++ [e] } }
  let s := logAer .completionTimeout (bump Oid.hostlinkCplTimeouts 0 (setSticky Oid.hostlinkStatus 0 8 s))
  failRequest e (fire 0x17F s)

/-- A completion with the poisoned attribute or a failing status (R489); one of a stopped request is discarded (R499). -/
def poisonedCompletion (tag : Nat) (s : State) : State :=
  match tagEntry s tag with
  | some e =>
    let s := freeTag tag s
    if e.use = .discard then bump Oid.hostlinkDiscardedCompletions 0 s
    else failRequest e (logAer .advisoryNonFatal (bump Oid.hostlinkPoisonedCompletions 0 (setSticky Oid.hostlinkStatus 0 0x10 s)))
  | none => if quarantined s tag then lateCompletion tag true s else logAer .unexpectedCompletion s

/-! ### BAR2 (R493 to R496) -/

/-- Bytes of one BAR2 window. -/
def bar2Span (s : State) : Nat := 2 ^ (24 + getObj s Oid.hostlinkBar2SizeActive)

/-- A window as its objects stand. -/
def winOf (s : State) (w : Nat) : Window := tabGet {} w s.link.windows

/-- A write of `hostlink.win_attr` once accepted (R495): bit 0 rising takes the target and the size. -/
def winAttrWritten (w v : Nat) (s : State) : State :=
  let old := winOf s w
  let new : Window :=
    if v % 2 = 1 && !old.on then { on := true, target := getObj s Oid.hostlinkWinTarget w, size := getObj s Oid.hostlinkWinSize w }
    else { old with on := v % 2 = 1 }
  putObj Oid.hostlinkWinAttr w v { s with link := { s.link with windows := tabPut {} w new s.link.windows } }

/-- Table 1.7 allows the byte at an internal address. -/
def bar2Allows (s : State) (a : Nat) (write : Bool) : Bool :=
  if a < refBase then cellarRuns s.modes.current && (!write || s.modes.current = .diagnostic)
  else if a < ctlBase then cellarRuns s.modes.current
  else if a < sramBase then false
  else if a < sramBase + 0x4000000 then !write
  else if 0x20000000000 ≤ a && a < 0x20001000000 then !write
  else false

/-- The internal address of a BAR2 access, unless it is refused (R494). -/
def bar2Translate (s : State) (o len : Nat) (write : Bool) : Option Nat :=
  let w := o / bar2Span s
  let rel := o % bar2Span s
  let e := winOf s w
  if !e.on || e.size < rel + len || (write && !bit (getObj s Oid.hostlinkWinAttr w) 1) then none
  else
    let a := e.target + rel
    if bar2Allows s a write && bar2Allows s (a + (len - 1)) write then some a else none

/-- A byte of the shadow counter window (Table 4.4, R512, R513). -/
def shadowByte (s : State) (o : Nat) : Byte :=
  let t := getObj s Oid.countersSnapshotTime
  let v :=
    if o < 4 then getObj s Oid.countersSnapshotGen / 2 ^ (8 * o)
    else if o < 8 then (tNs t + b2n s.time.snapUnlocked * 2 ^ 31) / 2 ^ (8 * (o - 4))
    else if o < 12 then tSec t % 2 ^ 32 / 2 ^ (8 * (o - 8))
    else if o < 16 then (tFrac t * 65536 + tSec t / 2 ^ 32) / 2 ^ (8 * (o - 12))
    else tabGet 0 (o / 8 * 8) s.time.shadow / 2 ^ (8 * (o % 8))
  BitVec.ofNat 8 (v % 256)

/-- A byte read through BAR2, and whether its unit is poisoned; the content of a poisoned unit is free. -/
def bar2Byte (s : State) (a i : Nat) : Byte × Bool :=
  if 0x20000000000 ≤ a then (shadowByte s (a - 0x20000000000), false)
  else if a < sramBase && unitPoisoned s a then ((Config.freeBits (s.free + i)).setWidth 8, true)
  else (readByte s a, false)

/-- The bytes of a BAR2 read. -/
def bar2Bytes (s : State) (a i : Nat) : Nat → List (Byte × Bool)
  | 0 => []
  | n + 1 => bar2Byte s (a + i) i :: bar2Bytes s a (i + 1) n

/-- A BAR2 access that reaches the device while its BARs are served. -/
def bar2Access (op : Bar2Op) (s : State) : State :=
  match op with
  | .read o len =>
    (match bar2Translate s o.toNat len.toNat false with
      | none => emit (.completion (List.replicate len.toNat 0) false) (bump Oid.hostlinkBar2Refused 0 s)
      | some a =>
        let r := bar2Bytes s a 0 len.toNat
        let bad := r.any (fun b => b.2)
        emit (.completion (r.map (fun b => b.1)) bad) (if bad then { s with free := s.free + len.toNat } else s))
  | .write o data poisoned =>
    if poisoned then logAer .poisonedTlp s
    else
      match bar2Translate s o.toNat data.length true with
      | none => bump Oid.hostlinkBar2Refused 0 s
      | some a => writePerformed a data s

/-- Whether a BAR2 offset lies in the BAR. -/
def bar2Hit (s : State) (op : Bar2Op) : Bool :=
  match op with
  | .read o _ => decide (o.toNat < 64 * bar2Span s)
  | .write o _ _ => decide (o.toNat < 64 * bar2Span s)

/-! ### Rows -/

/-- PERST_DEASSERT (R56): training may start. -/
def execPerstDeassert (s : State) : Host.Outcome State Fault Refusal := .next { s with link := { s.link with perst := false } }

/-- LINK_UP (R479, R480). -/
def execLinkUp (speed : Fin 6) (width : Fin 5) (partnerFlit : Bool) (s : State) : Host.Outcome State Fault Refusal :=
  if s.modes.current = .cold || s.link.perst || s.link.up then .next s
  else .next (linkUp (speed.val + 1) (2 ^ width.val) partnerFlit s)

/-- HOST_RESET (R500); an assertion of PERST_N in Boot is no host reset (R59). -/
def execHostReset (kind : HostResetKind) (s : State) : Host.Outcome State Fault Refusal :=
  match kind with
  | .flr => if configServed s then .next (hostReset .flr s) else .next s
  | .hotReset => if s.link.up then .next (hostReset .hotReset s) else .next s
  | .dlDown => if s.link.up then .next (hostReset .dlDown s) else .next s
  | .perst =>
    if s.link.perst then .next s
    else if s.modes.current = .cold || s.modes.current = .boot then .next (linkDown { s with link := { s.link with perst := true } })
    else .next (hostReset .perst s)

/-- BUS_MASTER_DISABLE (R499): Bus Master Enable is cleared, or D3hot is entered. -/
def execBusMasterDisable (d3hot : Bool) (s : State) : Host.Outcome State Fault Refusal :=
  if !configServed s || (if d3hot then s.link.d3hot else !s.link.bme) then .next s
  else if d3hot then .next (stopRequests { s with link := { s.link with d3hot := true } })
  else .next (stopRequests { s with link := { s.link with bme := false } })

/-- BUS_MASTER_ENABLE (R483, R499, R502): in D0, Bus Master Enable and Memory Space Enable as the host writes them, with the rest of its configuration as it then stands (R363, R482, R486, R487). Requests resume where Bus Master Enable is set, and stop where it falls. -/
def execBusMasterEnable (c : HostConfig) (s : State) : Host.Outcome State Fault Refusal :=
  if configServed s then
    let running := s.link.bme && !s.link.d3hot
    let s := { s with link := { s.link with
      bme := c.busMaster, mse := c.memSpace, d3hot := false, relaxed := c.relaxed, maxPayload := 128 * 2 ^ c.maxPayload.val,
      maxRead := 128 * 2 ^ c.maxRead.val, cplSel := c.cplSel.toNat, aspmL1 := c.aspmL1,
      tagPool := tagPoolOf (isOn s Oid.hostlinkFlitMode) c.extTag c.tag10 c.tag14 } }
    let s := putObj Oid.hostlinkCplTimeoutUs 0 (cplTimeoutUs c.cplSel.toNat) s
    .next (if c.busMaster then resumeRequests s else if running then stopRequests s else s)
  else .next s

/-- L1_ENTRY (R482): 10 µs with no TLP in either direction. -/
def execL1Entry (s : State) : Host.Outcome State Fault Refusal :=
  if s.modes.current = .dormant && s.link.up && s.link.aspmL1 then .next { s with link := { s.link with l1 := true } } else .next s

/-- L1_EXIT (R482). -/
def execL1Exit (s : State) : Host.Outcome State Fault Refusal := .next { s with link := { s.link with l1 := false } }

/-- WALK_READ_COMPLETE (R353, R354): the data of an outstanding walk read of a ring arrives. -/
def execWalkReadComplete (tag : Fin 16384) (data : List Byte) (s : State) : Host.Outcome State Fault Refusal :=
  match tagEntry s tag.val with
  | none => .next s
  | some e =>
    match e.use with
    | .walk _ _ _ => .next (giveData e data (freeTag tag.val s))
    | .tapWalk _ _ _ => .next (giveData e data (freeTag tag.val s))
    | .zero _ _ => .next s
    | .tapData _ _ _ => .next s
    | .discard => .next s

/-- NP_COMPLETION (R486). -/
def execNpCompletion (tag : Fin 16384) (data : List Byte) (s : State) : Host.Outcome State Fault Refusal :=
  if s.link.up then .next (completion tag.val data s) else .next s

/-- COMPLETION_TIMEOUT (R487). -/
def execCompletionTimeout (tag : Fin 16384) (s : State) : Host.Outcome State Fault Refusal :=
  match tagEntry s tag.val with
  | some e => .next (timeoutTag e s)
  | none => .next s

/-- LATE_COMPLETION (R488): `last` says whether it is the last of its request. -/
def execLateCompletion (tag : Fin 16384) (last : Bool) (s : State) : Host.Outcome State Fault Refusal :=
  if quarantined s tag.val then .next (lateCompletion tag.val last s) else .next s

/-- QUARANTINE_EXPIRY (R488). -/
def execQuarantineExpiry (tag : Fin 16384) (s : State) : Host.Outcome State Fault Refusal := .next (returnTag tag.val s)

/-- POISONED_COMPLETION (R489). -/
def execPoisonedCompletion (tag : Fin 16384) (s : State) : Host.Outcome State Fault Refusal :=
  if s.link.up then .next (poisonedCompletion tag.val s) else .next s

/-- BAR2_ACCESS (R494, R496, R502). -/
def execBar2Access (op : Bar2Op) (s : State) : Host.Outcome State Fault Refusal :=
  if !s.link.up || !bar2Hit s op then .next s
  else
    let isRead := match op with | .read _ _ => true | .write _ _ _ => false
    if bar0Served s then .next (bar2Access op (barAccess s)) else .next (barRefused isRead s)

/-- BAR0_PARTIAL_WRITE (R491). -/
def execBar0PartialWrite (s : State) : Host.Outcome State Fault Refusal :=
  if bar0Served s then .next (bump Oid.hostlinkBar0Partial 0 (barAccess s)) else .next (barRefused false s)

/-- The form a selection stands for. -/
def formOf : IntSelect → IntForm
  | .intx => .intx
  | .msi k _ => .msi (2 ^ k.val)
  | .msix => .msix

/-- The mask bits a selection brings: those of MSI, which keep otherwise (Table 16.3). -/
def maskOf (form : IntSelect) (old : Nat) : Nat :=
  match form with
  | .msi _ m => m.toNat
  | .intx => old
  | .msix => old

/-- INTERRUPT_FORM_CHANGE (R498): the form, and in MSI the masks, take effect at the next message; messages held for a mask that has gone are sent (R184). -/
def execInterruptFormChange (form : IntSelect) (disable : Bool) (s : State) : Host.Outcome State Fault Refusal :=
  if configServed s then
    let t := updateIntx { s with link := { s.link with form := formOf form, intDisable := disable, msiMask := maskOf form s.link.msiMask } }
    .next (if busStopped t then t else sendHeld (t.fab.pba.map (fun p => p.1)) t)
  else .next s

end Sys2Proof.Machine
end

