-- ==== Sys2Proof/Machine/Lamps.lean ====
section
/-! DEFINITION. Lamp heads (15_lamp_heads): strobes, the identity memory, flash counts and their write-back, interlocks, current limits, faults and head exchange. -/

namespace Sys2Proof.Machine

open Sys2Proof

/-- Lamp channel n beside its objects. -/
def lampX (s : State) (n : Nat) : LampX := tabGet {} n s.lamp.ch

/-- Replace it. -/
def putLamp (n : Nat) (x : LampX) (s : State) : State := { s with lamp := { s.lamp with ch := tabPut {} n x s.lamp.ch } }

/-! ### Limits (R469, R473) -/

/-- Rated life in force (Table 15.6). -/
def lampLife (s : State) (n : Nat) : Nat := if (lampX s n).present then getObj s Oid.lampRatedLife n else fabObj s Oid.lampDefaultLife n

/-- Maximum pulse width and duty in force. -/
def lampMaxWidth (s : State) (n : Nat) : Nat := if (lampX s n).present then getObj s Oid.lampHeadMaxWidth n else 10000000
def lampDuty (s : State) (n : Nat) : Nat := if (lampX s n).present then max 1 (getObj s Oid.lampHeadMaxDuty n) else 1000

/-- The current limit in mA; none without one. -/
def lampLimit (s : State) (n : Nat) : Option Nat :=
  let own := fabObj s Oid.lampIlimitMa n
  let head := getObj s Oid.lampHeadIlimit n
  if (lampX s n).present then some (if own != 0 && own < head then own else head)
  else if own != 0 then some own else none

/-- The limit at which the channel stops (R471). -/
def lampStopAt (s : State) (n : Nat) : Nat := lampLife s n * 11 / 10

/-! ### Channel state (Table 15.2) -/

/-- Strobes fire in this mode (Table 2.2). -/
def strobeMode (m : Mode) : Bool := m != .cold && m != .boot && m != .halt

/-- A pulse now would make the count lead the stored count too far while a write-back is unconfirmed, or a reinstated channel has not written its count (R470). -/
def lampHeld (s : State) (n : Nat) : Bool :=
  let x := lampX s n
  x.hold || (x.wb.isSome && decide (getObj s Oid.lampStored n + 65535 < getObj s Oid.lampFlashes n + 1))

/-- Group g is permitted by its interlock (R472). -/
def intlkOk (s : State) (n : Nat) : Bool := (getObj s Oid.lampIntlkLevel).testBit (n / 4)

/-- `lamp.state`. -/
def lampState (s : State) (n : Nat) : Nat :=
  if fabObj s Oid.lampEnable n = 0 || !strobeMode s.modes.current then 0
  else if !intlkOk s n then 2
  else if !(lampX s n).present && fabObj s Oid.lampRequireHead n = 1 then 3
  else if lampStopAt s n ≤ getObj s Oid.lampFlashes n && fabObj s Oid.lampLifeOverride n = 0 then 4
  else if lampHeld s n then 5
  else if isRetired s (resLamp n) then 6
  else 1

/-! ### Write-back (R469, R470) -/

/-- The 16 bytes of a life record. -/
def lifeRecord (count seq : Nat) : List Byte :=
  let b := leBytes 8 count ++ leBytes 4 seq
  b ++ leBytes 4 (crc32c b)

/-- Write the record that does not hold the stored count. -/
def writeRecord (n count : Nat) (s : State) : State :=
  let x := lampX s n
  emit (.headWrite n (if x.recB then 0x80 else 0x90) (lifeRecord count ((x.seq + 1) % 2 ^ 32))) s

/-- Start a write-back of a count: to the head, or to the persistent store for a channel that needs no head; a second waits for the first. -/
def startWriteback (n count : Nat) (s : State) : State :=
  let x := lampX s n
  if x.wb.isSome then putLamp n { x with wbNext := some count } s
  else if x.present then writeRecord n count (putLamp n { x with wb := some count } s)
  else if fabObj s Oid.lampRequireHead n = 0 then startStore (.lampCount n count) (putLamp n { x with wb := some count } s)
  else s

/-- A write-back is confirmed (R470); in Halt the bus is then released (R75). -/
def writebackDone (n : Nat) (s : State) : State :=
  let x := lampX s n
  match x.wb with
  | none => s
  | some v =>
    let s := bump Oid.lampWritebacks n (putObj Oid.lampStored n v s)
    let s := putLamp n { x with wb := none, wbNext := none, retryAt := none, recB := !x.recB, seq := (x.seq + 1) % 2 ^ 32, hold := x.hold && x.wbNext.isSome } s
    match x.wbNext with
    | some w => startWriteback n w s
    | none => s

/-- Write the exact count of a channel where its head lags (R75, R76, R470). -/
def writeExact (n : Nat) (s : State) : State := startWriteback n (getObj s Oid.lampFlashes n) s

/-- Write every channel's exact count, once each (R75, R76). -/
def writeAllExact (s : State) : State := (List.range 16).foldl (fun s n => writeExact n s) s

/-- A write-back is outstanding on some channel (R76). -/
def writebackPending (s : State) : Bool := s.lamp.ch.any (fun e => e.2.wb.isSome)

/-! ### Faults (R474) -/

/-- The bit of `lamp.status` of a cause. -/
def lampBit : Nat → Nat
  | 3 => 4 | 4 => 2 | _ => 1

/-- A detection in the tick of a recorded fault (R505): the permanent cause names it, else the lower code. -/
def lampFaultAgain (n cause : Nat) (s : State) : State :=
  let old := getObj s Oid.lampFaultCause n
  let s := setSticky Oid.lampStatus n (lampBit cause) s
  if old = 4 then s
  else if cause = 4 then
    let r := recordFault (resLamp n) 4 true (putObj Oid.lampFaultCause n 4 s)
    setSticky Oid.lampStatus n 0x80 r.1
  else if cause < old then
    putObj Oid.lampFaultCause n cause (relabelFault (resLamp n) cause 0 (if isRetired s (resLamp n) then 2 else 1) s)
  else s

/-- Record a fault of channel n (Table 15.4), once in a tick. -/
def lampFault (n cause : Nat) (s : State) : State :=
  if faultedTick s (resLamp n) then lampFaultAgain n cause s
  else
    let s := fire (0x0A0 + n) (setSticky Oid.lampStatus n (lampBit cause) (putObj Oid.lampFaultCause n cause (bump Oid.lampFaults n s)))
    let r := recordFault (resLamp n) cause (cause = 4) s
    if r.2 = .retire then setSticky Oid.lampStatus n 0x80 r.1 else r.1

/-- Clear a retirement (R474); the exact count is written before the channel fires again (R470). -/
def lampReinstate (n : Nat) (s : State) : State :=
  if !standsRetired s (resLamp n) then s
  else
    let s := dropRetired (resLamp n) s
    let s := writeExact n s
    let x := lampX s n
    let s := putLamp n { x with hold := x.wb.isSome } s
    if x.wb.isSome then setSticky Oid.lampStatus n 0x100 s else s

/-! ### Pulses (R464 to R467, R470, R471) -/

/-- Turn a strobe off at an instant. -/
def strobeOff (n t : Nat) (s : State) : State :=
  let x := lampX s n
  match x.lit with
  | none => s
  | some (rise, _, w) =>
    emit (.strobe n t false) (putLamp n { x with lit := none, endTick := some s.time.ticks, length := min w (tNanos t - tNanos rise) } s)

/-- The life warning and the stop limit, each once for a head (R471). -/
def checkLife (n : Nat) (s : State) : State :=
  let c := getObj s Oid.lampFlashes n
  let x := lampX s n
  let s := if lampLife s n ≤ c && !x.warned then fire (0x0A0 + n) (setSticky Oid.lampStatus n 8 (putLamp n { x with warned := true } s)) else s
  let x := lampX s n
  if lampStopAt s n ≤ c && !x.ended && fabObj s Oid.lampLifeOverride n = 0 then
    fire (0x0A0 + n) (setSticky Oid.lampStatus n 0x10 (putLamp n { x with ended := true } s)) else s

/-- The effects of a count (R470, R471). -/
def countFlash (n : Nat) (s : State) : State :=
  let s := bump Oid.lampFlashes n s
  let c := getObj s Oid.lampFlashes n
  let s := checkLife n (if (c + 4096) % 65536 = 0 then startWriteback n (c + 4096) s else s)
  if lampHeld s n then setSticky Oid.lampStatus n 0x100 s else s

/-- The width of a pulse started now (R465). -/
def pulseWidth (s : State) (n : Nat) : Nat :=
  let w := min (fabObj s Oid.lampWidthNs n) (lampMaxWidth s n)
  if coreRuns s then w else max 8 (w / 8 * 8)

/-- The gap after a rising edge (R466). -/
def pulseGap (s : State) (n w : Nat) : Nat := max (fabObj s Oid.lampMinIntervalNs n) ((w * 1000 + lampDuty s n - 1) / lampDuty s n)

/-- An occurrence at strobe n from channel c (R464 to R466, R179): a started pulse keeps the consumer busy from its rise to the end of its gap. -/
def strobeOccurrence (c n : Nat) (o : Occ) (s : State) : State :=
  if lampState s n ≠ 1 then bump Oid.lampRefused n (checkLife n s)
  else
    let w := pulseWidth s n
    let e := pinEdge s o.due
    let s := if e.2 then setSticky Oid.eventsChStatus c 0x10 s else s
    let s := if lampMaxWidth s n < fabObj s Oid.lampWidthNs n then setSticky Oid.lampStatus n 0x200 s else s
    let s := emit (.strobe n e.1 true) (putLamp n { lampX s n with
      lit := some (e.1, tAddNs e.1 w, w), length := w, peakDue := true, busy := true, free := tAddNs e.1 (pulseGap s n w) } s)
    countFlash n (fire (0x090 + n) s)

/-- The strobe consumer is busy (R466), or still holds an occurrence. -/
def lampBusy (s : State) (n : Nat) : Bool := (lampX s n).busy || (lampX s n).occ.isSome

/-- The current of a sense voltage in mV (R473), in mA, at most the width of `lamp.last_peak_ma`. -/
def lampCurrent (s : State) (n mv : Nat) : Nat := min 65535 (mv * fabObj s Oid.lampIsnsScale n / 1000)

/-- The mode forces every strobe off (Table 2.6). -/
def strobesOff (s : State) : State := (List.range 16).foldl (fun s n => strobeOff n (now s) s) s

/-! ### The identity memory (R468, R469, R475) -/

/-- A life record whose CRC matches: count and sequence. -/
def parseRecord (b : List Byte) : Option (Nat × Nat) :=
  if leNat (slice 12 4 b) = crc32c (b.take 12) then some (leNat (b.take 8), leNat (slice 8 4 b)) else none

/-- The memory is valid: magic, version, CRC and field ranges. -/
def headValid (m : List Byte) : Bool :=
  let life := leNat (slice 0x38 8 m)
  let wid := leNat (slice 0x40 4 m)
  let duty := leNat (slice 0x44 2 m)
  let cur := leNat (slice 0x46 2 m)
  m.length = 256 && m.take 4 = [0x4C, 0x48, 0x44, 0x31] && byteAt m 4 = 1 && leNat (slice 0x7C 4 m) = crc32c (m.take 0x7C)
    && decide (1 ≤ life ∧ life ≤ 2 ^ 40) && decide (100 ≤ wid ∧ wid ≤ 10000000) && decide (1 ≤ duty ∧ duty ≤ 1000) && decide (1 ≤ cur)

/-- The stored count: record B?, sequence, count; none when neither record matches. -/
def storedCount (m : List Byte) : Option (Bool × Nat × Nat) :=
  match parseRecord (slice 0x80 16 m), parseRecord (slice 0x90 16 m) with
  | some a, some b => if 0 < toSigned 32 ((b.2 + 2 ^ 32 - a.2) % 2 ^ 32) then some (true, b.2, b.1) else some (false, a.2, a.1)
  | some a, none => some (false, a.2, a.1)
  | none, some b => some (true, b.2, b.1)
  | none, none => none

/-- The limits and names of a head. -/
def takeLimits (n : Nat) (m : List Byte) (s : State) : State :=
  let s := putObj Oid.lampRatedLife n (leNat (slice 0x38 8 m)) (putObj Oid.lampHeadMaxWidth n (leNat (slice 0x40 4 m)) s)
  let s := putObj Oid.lampHeadMaxDuty n (leNat (slice 0x44 2 m)) (putObj Oid.lampHeadIlimit n (leNat (slice 0x46 2 m)) s)
  putBlob Oid.lampHeadVendor n (slice 0x08 16 m) (putBlob Oid.lampHeadModel n (slice 0x18 16 m)
    (putBlob Oid.lampHeadSerial n (slice 0x28 16 m) (putBlob Oid.lampHeadUser n (slice 0xA0 96 m) s)))

/-- The stored count of a head is read: which record holds it, and bit 0 when neither does (R469). -/
def takeStored (n : Nat) (m : List Byte) (s : State) : State :=
  let x := lampX s n
  match storedCount m with
  | some (b, q, c) => putObj Oid.lampStored n c (putLamp n { x with recB := b, seq := q } s)
  | none => setSticky Oid.lampStatus n 1 (putObj Oid.lampStored n 0 (putLamp n { x with recB := false, seq := 0 } s))

/-- A head is taken (R475, R476): its count, its limits; the override is cleared. -/
def takeHead (n : Nat) (m : List Byte) (s : State) : State :=
  let s := takeStored n m (takeLimits n m s)
  let x := lampX s n
  let s := putObj Oid.lampFlashes n (getObj s Oid.lampStored n) (putObj Oid.lampLifeOverride n 0 s)
  putLamp n { x with present := true, misses := 0, wb := none, wbNext := none, retryAt := none, hold := false, warned := false, ended := false } s

/-- A poll finds a valid memory: Boot takes the heads it finds, a warm one keeping the counts; a changed serial, or a memory after none, is an exchange. -/
def headFound (n : Nat) (m : List Byte) (s : State) : State :=
  let x := lampX s n
  let same := slice 0x28 16 m = getBlob s Oid.lampHeadSerial n
  if s.modes.current = .boot && s.modes.bootCold then takeHead n m s
  else if x.present && same then
    let s := if s.modes.current = .boot then takeStored n m (takeLimits n m s) else s
    putLamp n { lampX s n with misses := 0 } s
  else fire (0x0A0 + n) (setSticky Oid.lampStatus n 0x40 (bump Oid.lampExchanges n (takeHead n m s)))

/-- The head is gone (R475): the limits are those of a channel without one. -/
def headGone (n : Nat) (s : State) : State :=
  let s := putLamp n { lampX s n with present := false, wb := none, wbNext := none, retryAt := none } s
  let s := putObj Oid.lampHeadIlimit n 0 (putObj Oid.lampHeadMaxDuty n 1000 (putObj Oid.lampHeadMaxWidth n 10000000 s))
  if fabObj s Oid.lampRequireHead n = 1 then setSticky Oid.lampStatus n 0x20 s else s

/-- A poll finds no valid memory; after three there is no head (R475). -/
def headMissed (n : Nat) (fault : Bool) (s : State) : State :=
  let s := if fault then lampFault n 1 s else s
  let x := lampX s n
  let s := putLamp n { x with misses := min 3 (x.misses + 1) } s
  if x.misses = 2 then headGone n s else s

/-- The identity of a memory fails its CRC (Table 15.4). -/
def identityBad (m : List Byte) : Bool := leNat (slice 0x7C 4 m) != crc32c (m.take 0x7C)

/-- One poll of a head bus (R469, R475). -/
def headPoll (n : Nat) (r : HeadReply) (s : State) : State :=
  match r with
  | .noAck => headMissed n (lampX s n).present s
  | .memory m => if headValid m then headFound n m s else headMissed n (identityBad m) s

/-! ### Rows -/

/-- STROBE_DELIVERY (R464). -/
def execStrobeDelivery (n : Lamp) (s : State) : Host.Outcome State Fault Refusal :=
  match (lampX s n.val).occ with
  | none => .next s
  | some (c, o) => .next (strobeOccurrence c n.val o (putLamp n.val { lampX s n.val with occ := none } s))

/-- The peak of a pulse that has ended, and the open lamp it may show (R473). -/
def pulsePeak (n mv : Nat) (s : State) : State :=
  let x := lampX s n
  let ma := lampCurrent s n mv
  let s := putObj Oid.lampLastPeakMa n ma (putLamp n { x with peakDue := false } s)
  let least := fabObj s Oid.lampOpenMinMa n
  if least ≠ 0 ∧ 1000 ≤ x.length ∧ ma < least then lampFault n 3 s else s

/-- PULSE_END (R465, R473): the pulse in progress ends by the next tick, or one cut short has ended; `mv` is its peak sense voltage. -/
def execPulseEnd (n : Lamp) (mv : Half) (s : State) : Host.Outcome State Fault Refusal :=
  match (lampX s n.val).lit with
  | none => .next (if (lampX s n.val).peakDue then pulsePeak n.val mv.toNat s else s)
  | some (_, e, _) => .next (if e ≤ nextTickTime s then pulsePeak n.val mv.toNat (strobeOff n.val e s) else s)

/-- STROBE_GAP_END (R466). -/
def execStrobeGapEnd (n : Lamp) (s : State) : Host.Outcome State Fault Refusal :=
  let x := lampX s n.val
  if x.lit.isSome || decide (now s < x.free) then .next s else .next (putLamp n.val { x with busy := false } s)

/-- The read-back of a write to the head (R469, R470). -/
def writebackComplete (n : Nat) (ok : Bool) (s : State) : State :=
  let x := lampX s n
  match x.wb with
  | none => s
  | some _ =>
    if !x.present || x.retryAt.isSome then s
    else if ok then writebackDone n s
    else
      let s := lampFault n 2 s
      let x := lampX s n
      if s.modes.current = .halt then putLamp n { x with wb := none, wbNext := none } s
      else putLamp n { x with retryAt := some (tAddNs (now s) 10000000) } s

/-- A write-back that failed is written again when its 10 ms are over (R470). -/
def retryWriteback (n : Nat) (s : State) : State :=
  let x := lampX s n
  match x.wb, x.retryAt with
  | some v, some t => if t ≤ now s then writeRecord n v (putLamp n { x with retryAt := none } s) else s
  | _, _ => s

/-- The write-backs due for another try. -/
def lampRetries (s : State) : State := (s.lamp.ch.map (fun e => e.1)).foldl (fun s n => retryWriteback n s) s

/-- HEAD_POLL (R469, R475, R476). -/
def execHeadPoll (n : Lamp) (r : HeadReply) (s : State) : Host.Outcome State Fault Refusal :=
  if s.modes.current = .cold || s.modes.current = .halt then .next s
  else .next (checkLife n.val (headPoll n.val r s))

/-- INTERLOCK_FALL (R472). -/
def execInterlockFall (g : Fin 4) (s : State) : Host.Outcome State Fault Refusal :=
  let s := (List.range 4).foldl (fun s i => strobeOff (4 * g.val + i) (now s) s) s
  if s.modes.current = .cold || !(getObj s Oid.lampIntlkLevel).testBit g.val then .next s
  else .next (fire (0x0B0 + g.val) (bump Oid.lampIntlkChanges g.val
    (putObj Oid.lampIntlkLevel 0 (clrBit (getObj s Oid.lampIntlkLevel) g.val) s)))

/-- INTERLOCK_PERMIT (R472): the pin has been high for 1 µs. -/
def execInterlockPermit (g : Fin 4) (s : State) : Host.Outcome State Fault Refusal :=
  if s.modes.current = .cold || (getObj s Oid.lampIntlkLevel).testBit g.val then .next s
  else .next (fire (0x0B0 + g.val) (bump Oid.lampIntlkChanges g.val
    (putObj Oid.lampIntlkLevel 0 (setBit (getObj s Oid.lampIntlkLevel) g.val) s)))

/-- OVERCURRENT (R473): the current of sense voltage `mv` has lasted 200 ns in the pulse in progress, or in one that ended in this tick (Table 15.5). -/
def execOvercurrent (n : Lamp) (mv : Half) (s : State) : Host.Outcome State Fault Refusal :=
  let ma := lampCurrent s n.val mv.toNat
  let x := lampX s n.val
  match lampLimit s n.val with
  | some lim =>
    if lim < ma && (x.lit.isSome || x.endTick = some s.time.ticks) then
      .next (lampFault n.val 4 (putObj Oid.lampLastPeakMa n.val ma (putLamp n.val { lampX (strobeOff n.val (now s) s) n.val with peakDue := false } (strobeOff n.val (now s) s))))
    else .next s
  | none => .next s

end Sys2Proof.Machine
end

