-- ==== Sys2Proof/Machine/Modes.lean ====
section
/-! DEFINITION. Operating modes (02_modes): the transitions of Table 2.3 and what each does on its way, Limp and Halt, the resets, Boot and wake. -/

namespace Sys2Proof.Machine

open Sys2Proof

/-! ### What may change into what (Table 2.3) -/

/-- The transitions a request may ask for. -/
def requestable (a b : Mode) : Bool :=
  match a, b with
  | .dormant, .ready => true
  | .ready, .dormant => true
  | .ready, .diagnostic => true
  | .diagnostic, .ready => true
  | .capture, .burst => true
  | .burst, .capture => true
  | .burst, .replay => true
  | .capture, .analyse => true
  | .analyse, .capture => true
  | .generate, .analyse => true
  | .ready, m => isRun m
  | m, .ready => isRun m
  | _, _ => false

/-- The Ready→Dormant condition of R45: an empty racking backlog and every transmit flow stopped. -/
def dormantOk (s : State) : Bool := backlogPages s = 0 && s.rk.deliveries.isEmpty && txAllStopped s

/-- A request is allowed and its condition holds, from a mode (R45). -/
def requestHolds (s : State) (b : Mode) : Bool :=
  requestable s.modes.current b && (b != .dormant || dormantOk s)

/-- A Limp or Halt cause arose in this tick (R51). -/
def causeStands (s : State) : Bool := s.modes.causeTick = some s.time.ticks

/-- A transition is in progress (R42, R47): one asked for, or the one to Limp whose grace is running (Table 2.3, R69). -/
def inTransition (s : State) : Bool := s.modes.target.isSome || s.modes.grace

/-- The status of a mode request before it is acted on (R45 to R47, R51): one made during a transition is held and judged later. -/
def modeRequestStatus (s : State) (b : Mode) (secure : Bool) : Nat :=
  if b = .halt && !secure then St.security
  else if causeStands s then St.modeConflict
  else if b = .halt then (if s.modes.current = .cold || s.modes.current = .halt then St.modeConflict else St.ok)
  else if inTransition s then St.ok
  else if requestHolds s b then St.ok
  else St.modeConflict

/-! ### Casks and deliveries at mode changes -/

/-- Every cask of a state enters another (Table 9.7). -/
def moveCasks (from_ to_ : Nat) (p : Cask → Bool) (s : State) : State :=
  (casksIn from_ s).foldl (fun s c => if p c.2 then setCaskState c.1 to_ s else s) s

/-- The casks of a state are released undelivered (R48). -/
def releaseCasks (st : Nat) (s : State) : State := loseCasks 4 ((casksIn st s).map (fun c => c.1)) s

/-- Stop every delivery; the casks return to state 3 and the slots are abandoned (R382). -/
def stopAllDeliveries (s : State) : State := stopDeliveries 0x80 (fun _ => true) s

/-- Stop what the data path holds: no frame stays open, no placement in flight. -/
def clearEngine (s : State) : State :=
  { s with lau := { s.lau with frames := [], flight := [], notices := [], boil := false } }

/-- Boil-over and the calendar's requests end: the cellar is not served. -/
def clearBoil (s : State) : State := (List.range 3).foldl (fun s p => putObj Oid.cellarBoilover p 0 s) s

/-- The cellar completes every access in flight and every refresh debt before it stops (R345). -/
def finishAccesses (s : State) : State :=
  let l := s.lau.flight
  l.foldl (fun s p => if p.live then writePerformed p.addr p.data s else s)
    { s with lau := { s.lau with flight := [] }, cel := { s.cel with debt := [] } }

/-- HBM enters self-refresh, unless it is powered down. -/
def hbmSleep (s : State) : State :=
  if s.modes.hbm = .poweredDown then s
  else let s := finishAccesses s; { s with modes := { s.modes with hbm := .selfRefresh } }

/-- Everything in HBM is lost, and what an unwritten byte reads as is open again (R64, R344). -/
def hbmLost (s : State) : State :=
  let s := loseMem 0 sramBase s
  { s with
    modes := { s.modes with hbmEpoch := s.modes.hbmEpoch + 1 }
    cel := { s.cel with poisoned := [], zeroSlots := [], marked := [], debt := [] } }

/-! ### Entering a mode -/

/-- A flow beside its objects, as it enters a receiving mode (R299, R417, Table 9.1). -/
def freshFlow (x : FlowX) : FlowX :=
  { x with lastBlock := none, seen := [], refused := [], unitStart := none, lastPackets := 0, alignFresh := true }

/-- Entry to a receiving mode from one that does not receive: stamp queues are cleared, unit grids start anew (R299). -/
def startReceiving (s : State) : State :=
  let s := { s with lau := { s.lau with flows := (s.lau.flows.map (fun e => (e.1, freshFlow e.2))).filter (fun e => e.2 != {}) } }
  (List.range 32).foldl (fun s k => clearStamps k s) s

/-- Flush the underbacks of the lanes a condition names (R276). -/
def flushLanes (p : Nat → Bool) (s : State) : State :=
  (List.range 64).foldl (fun s n => if govLane s n = n && p n then
    { ubFlush n s with lau := { (ubFlush n s).lau with regions := tabPut {} n {} (ubFlush n s).lau.regions } } else s) s

/-- Entry to Dormant (R64): HBM in self-refresh, or powered down with every partition lost; no underback holds anything (R280). -/
def enterDormant (s : State) : State :=
  let s := emptyUnderbacks s
  if getObj s Oid.modesDormantHbm = 1 then
    let s := hbmLost (loseAllCasks 4 s)
    { s with modes := { s.modes with hbm := .poweredDown } }
  else hbmSleep s

/-- A pitch whose time passed while the device was Dormant is late (R127). -/
def latePitch (t : Nat) (p : Pitch) : Pitch := if p.when_ = 2 && decide (p.time < t) then { p with late := true } else p

/-- Exit from Dormant (R65, R66): the wake is complete, and late when its time has passed. -/
def leaveDormant (s : State) : State :=
  let late := match s.modes.wakeTarget with | some t => decide (t < now s) | none => false
  let s := setSticky Oid.modesWakeStatus 0 (1 + 2 * b2n late) s
  let s := { s with dict := { s.dict with pitch := s.dict.pitch.map (fun p => latePitch (now s) p) } }
  { s with modes := { s.modes with hbm := .running, wakeTarget := none, wakeQueued := false }, link := { s.link with l1 := false } }

/-- What entering mode b from mode a does besides the mode itself (Tables 2.3, 9.7, 9.9). -/
def enterEffects (a b : Mode) (s : State) : State :=
  let s := if receives b && !receives a then startReceiving s else s
  match a, b with
  | .dormant, .ready => leaveDormant s
  | _, .dormant => enterDormant s
  | _, .burst => moveCasks 3 4 (fun _ => true) s
  | .burst, .capture => moveCasks 4 3 (fun _ => true) s
  | .burst, .replay => moveCasks 4 3 (fun c => getObj s Oid.rackingFlowReplayHost c.flow = 1) s
  | _, .replay => moveCasks 4 3 (fun c => getObj s Oid.rackingFlowReplayHost c.flow = 1) s
  | _, .diagnostic => flushLanes (fun _ => true) (clearEngine (loseAllCasks 6 (stopAllDeliveries s)))
  | _, _ => s

/-- Record a completed transition: `modes.last_change`, source 0x04C, and the lanes (R47, R225). -/
def settleMode (b : Mode) (s : State) : State :=
  let s := { s with modes := { s.modes with current := b, target := none, draining := false } }
  relaneAll (fire 0x04C (putObj Oid.modesLastChange 0 (now s) s))

/-- Start a transition (R47, R49): the flows the new mode does not let send end. -/
def beginTransition (b : Mode) (s : State) : State :=
  stopTransmit b { s with modes := { s.modes with target := some b } }

/-- A request accepted: `modes.request` keeps it (R45). -/
def acceptRequest (b : Mode) (s : State) : State := beginTransition b (putObj Oid.modesRequest 0 (modeCode b) s)

/-- The orderly shutdown is complete (R76). -/
def settleShutdown (s : State) : State :=
  if s.modes.shutdown && s.modes.current = .dormant && !inTransition s && s.dict.waiting.isEmpty && !writebackPending s then
    putObj Oid.modesShutdownDone 0 1 { s with modes := { s.modes with shutdown := false } }
  else s

/-- The mode b is reached: a queued wake starts, or the pending request is checked (R47, R52). DEDUCED (entry 130): a queued wake goes first, and is itself the one request Dormant allows; a pending request of Ready is then recorded as accepted, another is discarded. -/
def finishTransition (b : Mode) (s : State) : State :=
  let a := s.modes.current
  let s := settleMode b (enterEffects a b s)
  let pend := s.modes.pendingReq
  let s := { s with modes := { s.modes with pendingReq := none } }
  if b = .dormant && s.modes.wakeQueued then (if pend = some .ready then acceptRequest .ready s else beginTransition .ready s)
  else match pend with
    | some m => settleShutdown (if requestHolds s m then acceptRequest m s else s)
    | none => settleShutdown s

/-! ### Limp (R68 to R72) -/

/-- The staging SRAM failed its BIST (R63). -/
def stagingFailed (s : State) : Bool := bit (getObj s Oid.modesBootStatus) 6

/-- Enter Limp (R69, R70, R276, R318). -/
def enterLimp (s : State) : State :=
  let s := abandonTx (stopAllDeliveries s)
  let s := clearBoil (clearEngine (loseAllCasks 4 s))
  let s := hbmSleep (flushLanes (fun n => n != 0) s)
  let s := if receives s.modes.current then s else startReceiving s
  let s := { s with
    modes := { s.modes with pendingReq := none, grace := false, wakeTarget := none, wakeQueued := false, shutdown := false }
    lau := { s.lau with limpPool := true } }
  settleMode .limp s

/-! ### Halt (R73 to R75) -/

/-- PPS_OUT is driven low (R74, R145, Table 2.6): an edge where it was high. -/
def ppsLow (s : State) : State :=
  let high : Bool := ppsLive s.modes.current && s.time.ppsActive != (getObj s Oid.timePpsOutPolarity = 1)
  let s := { s with time := { s.time with ppsActive := false } }
  if high then emit (.pps (now s) false) s else s

/-- Drive the output pins to their Halt levels (R74, Table 2.6). -/
def haltPins (s : State) : State :=
  let s := (List.range 16).foldl (fun s n =>
    if (tabGet ({} : TrigOut) n s.fab.trigOut).active then driveTrigOut n (now s) false false 0 s else s) s
  strobesOff (ppsLow s)

/-- Enter Halt; no underback holds anything (R280). -/
def enterHalt (s : State) : State :=
  let s := emptyUnderbacks (abandonTx (haltPins s))
  let s := { s with rk := { s.rk with deliveries := [] } }
  let s := hbmSleep (clearBoil s)
  let s := { s with modes := { s.modes with pendingReq := none, grace := false, wakeTarget := none, wakeQueued := false, shutdown := false } }
  writeAllExact (settleMode .halt s)

/-- A Halt cause (R73). -/
def haltBy (mask : Nat) (s : State) : State :=
  if s.modes.current = .cold then s
  else
    let s := setSticky Oid.modesHaltCause 0 mask { s with modes := { s.modes with causeTick := some s.time.ticks } }
    if s.modes.current = .halt then s else enterHalt s

/-- A Limp cause (R68, R69): a watchdog starts the grace of R25, in which frames already open go on to their end and no frame opens (entry 104). In Boot the cause is acted on when Boot ends (R518). A failed staging SRAM makes it a Halt cause (R63). -/
def limpBy (mask : Nat) (s : State) : State :=
  if s.modes.current = .cold || s.modes.current = .halt then s
  else
    let s := setSticky Oid.modesLimpCause 0 mask { s with modes := { s.modes with causeTick := some s.time.ticks } }
    if s.modes.current = .limp then s
    else if stagingFailed s then haltBy 0x10 s
    else if s.modes.current = .boot then s
    else
      let s := { s with modes := { s.modes with target := none, pendingReq := none, draining := false } }
      if mask = 8 then { s with modes := { s.modes with grace := true } } else enterLimp s

/-- The action byte of a device cause that is a Limp cause (R510). -/
def limpAction (s : State) : Nat :=
  if s.modes.current = .limp || s.modes.current = .halt || s.modes.current = .cold then 0
  else if stagingFailed s then 4
  else if s.modes.current = .boot then 0
  else 3

/-- The action byte of a device cause that is a Halt cause (R510). -/
def haltAction (s : State) : Nat := if s.modes.current = .halt || s.modes.current = .cold then 0 else 4

/-- Act on the causes the command has found: a Halt cause before a Limp cause (R51). -/
def settleCauses (s : State) : State :=
  let h := s.modes.haltWant
  let l := s.modes.limpWant
  let s := { s with modes := { s.modes with haltWant := 0, limpWant := 0 } }
  if h ≠ 0 then haltBy h s else if l ≠ 0 then limpBy l s else s

/-! ### Mode requests (R45 to R47) -/

/-- Act on a mode request that has passed its checks. -/
def takeRequest (b : Mode) (s : State) : State :=
  if b = .halt then haltBy 0x20 (putObj Oid.modesRequest 0 11 s)
  else if inTransition s then { s with modes := { s.modes with pendingReq := some b } }
  else acceptRequest b s

/-- A staged request at its pitch (R45, R122): rejected, it leaves the mode as it is. -/
def stagedRequest (code : Nat) (secure : Bool) (s : State) : State :=
  match modeOf code with
  | some b => if modeRequestStatus s b secure = St.ok then takeRequest b s else s
  | none => s

/-- Packets and words that are still on their way to the lauter engine (R48). -/
def pipelineEmpty (s : State) : Bool :=
  s.lau.ub.all (fun u => u.2.chain.isEmpty && u.2.descs.isEmpty && u.2.cur.isNone) && s.lau.regions.all (fun r => r.2.packets.isEmpty)

/-- Casks to deliver before a stop for Ready ends (R48). -/
def drainOwed (s : State) : Bool := (liveCasks s).any (fun c => c.2.state = 3 || c.2.state = 5)

/-- A transmit flow is still on its way to its stop (R49). -/
def txStopping (s : State) : Bool := s.tap.tx.any (fun e => e.2.stopping)

/-- The transition in progress goes as far as it can (R47 to R49). -/
def advanceTransition (b : Mode) (s : State) : State :=
  let a := s.modes.current
  let leaves := receives a && !receives b
  if leaves && !pipelineEmpty s then s
  else
    let s := if leaves then stopReceiving s else s
    if txStopping s || (leaves && !s.lau.frames.isEmpty) then s
    else if a = .dormant && s.modes.hbm = .poweredDown then s
    else if b = .ready && isRun a then
      let s := if a = .burst then moveCasks 4 3 (fun _ => true) s else s
      if getObj s Oid.modesDrainOnStop = 1 then
        (if drainOwed s then { s with modes := { s.modes with draining := true } } else finishTransition b s)
      else finishTransition b (releaseCasks 3 s)
    else finishTransition b s

/-! ### Wake (R65 to R67, R52) -/

/-- A wake source fires, with the time the wake is to meet. -/
def wakeUp (t : Option Nat) (s : State) : State :=
  if s.modes.current = .dormant && !inTransition s then
    beginTransition .ready (assertWake { s with modes := { s.modes with wakeTarget := t } })
  else if s.modes.target = some .dormant then { s with modes := { s.modes with wakeTarget := t, wakeQueued := true } }
  else s

/-- `modes.wake_at` is reached while the compare is enabled: source 0x046, and the wake (R65); a wake that starts late says so (R67, R137). -/
def wakeFires (late : Bool) (s : State) : State :=
  let wakes := bit (getObj s Oid.modesWakeSources) 0 &&
    ((s.modes.current = .dormant && !inTransition s) || s.modes.target = some .dormant)
  let s := fire 0x046 (putObj Oid.modesWakeEnable 0 0 { s with modes := { s.modes with wakeAtPassed := false } })
  let s := if wakes then wakeUp (some (getObj s Oid.modesWakeAt)) s else s
  if wakes && late then setSticky Oid.modesWakeStatus 0 2 s else s

/-- The compare as it stands. -/
def evalWake (s : State) : State :=
  if isOn s Oid.modesWakeEnable && decide (getObj s Oid.modesWakeAt ≤ now s) then wakeFires s.modes.wakeAtPassed s else s

/-- A write of `modes.wake_at` (R67). -/
def wakeAtWritten (t : Nat) (s : State) : State :=
  let s := putObj Oid.modesWakeAt 0 t { s with modes := { s.modes with wakeAtPassed := false } }
  if isOn s Oid.modesWakeEnable && decide (t < now s) then wakeFires true s else s

/-- The wake lead L in nanoseconds (R66). -/
def wakeLead (s : State) : Nat :=
  if s.modes.hbm = .poweredDown then 150000000 else if isOn s Oid.modesLanesWarm then 250000 else 2000000

/-! ### Resets (R53, R54, R91) -/

/-- The erase asked for by `dict.persist_clear` takes effect at a reset (R91): every stored object value and both saved plans, in both copies. -/
def resetFlash (f : Flash) : Flash :=
  let erase (c : StoreCopy) : StoreCopy := { c with objs := [], planA := none, planB := none }
  if f.clearPending then { f with first := erase f.first, second := erase f.second, clearPending := false } else f

/-- A cold reset ends an outstanding store unfinished; the other copy keeps the earlier values (R89, R90). -/
def cutStore (s : State) : Flash := if s.dict.waiting.isEmpty then s.dict.flash else s.dict.flash.spoil

/-- The repairs of the stacks are permanent (R339): their rows, spare rows used and counts outlast a cold reset. DEDUCED (entry 149). -/
def keepRepairs (old s : State) : State :=
  let counts := old.objs.filter (fun o => o.1 / 65536 = Oid.cellarRepairs || o.1 / 65536 = Oid.cellarRepairsLeft)
  counts.foldl (fun s o => putObj (o.1 / 65536) (o.1 % 65536) o.2 s)
    { s with cel := { s.cel with repaired := old.cel.repaired, used := old.cel.used } }

/-- Cold reset (R53): all logic is reset; flash keeps what it holds, stores outstanding end unfinished (R89), HBM and SRAM contents are open (R344). -/
def coldReset (cause : Nat) (s : State) : State :=
  let t := State.reset
  keepRepairs s (putObj Oid.modesResetCause 0 cause { t with
    modes := { t.modes with current := .cold, hbmEpoch := s.modes.hbmEpoch + 1 }
    dict := { t.dict with flash := resetFlash (cutStore s) }
    link := { t.link with perst := s.link.perst }
    out := s.out
    free := s.free
    pending := s.pending })

/-- Results of the hydrometer that a reset empties (R429). -/
def clearHydro (s : State) : State :=
  { s with
    hyd := {}
    blobs := s.blobs.filter (fun b => b.1 / 65536 / 65536 != 0x50)
    objs := s.objs.filter (fun o => o.1 / 65536 != Oid.hydroResultNext) }

/-- Warm reset (R54): Boot is entered again with the kiln domain running; casks are lost, the link goes down, sessions and plans end. -/
def warmReset (cause : Nat) (s : State) : State :=
  let s := abandonTx (stopAllDeliveries s)
  let s := clearEngine (loseAllCasks 4 s)
  let s := if s.link.up then emit .linkDown (hostReset .dlDown s) else resetRacking s
  let s := hbmSleep (clearBoil (clearHydro (strobesOff s)))
  let s := { s with
    lau := {}
    tap := {}
    dict := { s.dict with mbox := [], sessions := [], subs := [], transfers := [], planA := {}, planB := {}, pitch := none
                          routes := [], flash := resetFlash s.dict.flash }
    link := { s.link with windows := [], l2 := false, wake := false }
    modes := { s.modes with
      pendingReq := none, step := .kilnReset, bootCold := false, warmWait := none, grace := false, wakeTarget := none
      wakeQueued := false, shutdown := false } }
  let s := (List.range 64).foldl (fun s n => putObj Oid.underbackFcActive n 0 s) s
  let s := putObj Oid.modesLimpCause 0 0 (putObj Oid.modesHaltCause 0 0 (putObj Oid.modesShutdownDone 0 0 s))
  putObj Oid.plansActive 0 0 (settleMode .boot (putObj Oid.modesResetCause 0 cause s))

/-- A warm reset asked for acts once every outstanding store has ended (R54). -/
def settleWarm (s : State) : State :=
  match s.modes.warmWait with
  | some c => if s.dict.waiting.isEmpty then warmReset c s else s
  | none => s

/-! ### Firmware images (R60 to R62) -/

/-- The image of a slot. -/
def slotImage (s : State) (slot : Nat) : List Byte := if slot = 0 then s.dict.flash.imageA else s.dict.flash.imageB

/-- The verdict of R60 on an image: one longer than 8 MiB is of invalid length whatever its header says; the rest is the boot ROM's. -/
def imageCheck (img : List Byte) : Config.ImageVerdict :=
  if 8388608 < img.length then .lengthInvalid else Config.imageVerdict img

/-- The slot tried first, as the persistent store holds it. -/
def preferredSlot (s : State) : Nat :=
  match tabFind (objKey Oid.modesPreferredSlot 0) s.dict.flash.store.objs with
  | some (.num v) => v
  | some (.bytes _) => 0
  | none => 0

/-- The slot `modes.fw_image` stores to (R62). -/
def updateSlot (s : State) : Nat :=
  match getObj s Oid.modesBootSlot with
  | 0 => 1
  | 1 => 0
  | _ => 1 - preferredSlot s

/-- An image is stored (R62). -/
def storeImage (img : List Byte) (s : State) : State :=
  let f := s.dict.flash
  { s with dict := { s.dict with flash := if updateSlot s = 0 then { f with imageA := img } else { f with imageB := img } } }

/-- The commit key (R62). The flash operation of an image that verifies may fail, a free choice: `modes.fw_update_status` then reads 5, and nothing else changes (Tables 2.7 and 3.9). -/
def commitImage (s : State) : State :=
  let slot := updateSlot s
  match imageCheck (slotImage s slot) with
  | .good =>
    let c := takeChoice 2 s
    if c.1 = 1 then putObj Oid.modesFwUpdateStatus 0 5 c.2
    else
    let s := c.2
    let s := startStore (.object (objKey Oid.modesPreferredSlot 0)) (putObj Oid.modesPreferredSlot 0 slot (putObj Oid.modesFwUpdateStatus 0 1 s))
    if s.modes.step = .recovery && s.modes.current = .boot then { s with modes := { s.modes with warmWait := some 4 } } else s
  | .signatureFailed => putObj Oid.modesFwUpdateStatus 0 2 s
  | .versionTooLow => putObj Oid.modesFwUpdateStatus 0 3 s
  | .lengthInvalid => putObj Oid.modesFwUpdateStatus 0 4 s

/-- Try the image of a slot (R60), recording the result in `modes.boot_status`. DESIGN CHOICE (entry 132): Table 2.7 has no bit for a slot refused for its length, and none is set. -/
def trySlot (slot : Nat) (s : State) : Bool × State :=
  match imageCheck (slotImage s slot) with
  | .good => (true, s)
  | .signatureFailed => (false, setSticky Oid.modesBootStatus 0 (4 ^ slot) s)
  | .versionTooLow => (false, setSticky Oid.modesBootStatus 0 (2 * 4 ^ slot) s)
  | .lengthInvalid => (false, s)

/-- A slot's image runs. -/
def runSlot (slot : Nat) (s : State) : State :=
  putObj Oid.modesBootSlot 0 slot { s with modes := { s.modes with step := .imageLoaded } }

/-- Load the image (R60, R61). -/
def loadImage (s : State) : State :=
  let s := putObj Oid.modesBootStatus 0 0 s
  let p := preferredSlot s
  match trySlot p s with
  | (true, s) => runSlot p s
  | (false, s) =>
    match trySlot (1 - p) s with
    | (true, s) => runSlot (1 - p) s
    | (false, s) => putObj Oid.modesBootSlot 0 2 { s with modes := { s.modes with step := .recovery } }

/-! ### Orderly shutdown (R76) -/

/-- The status of the shutdown key. -/
def shutdownStatus (s : State) : Nat :=
  if s.modes.current = .ready then
    (if !inTransition s && !causeStands s && dormantOk s then St.ok else St.modeConflict)
  else if s.modes.current = .dormant then (if !inTransition s && !causeStands s then St.ok else St.modeConflict)
  else St.modeRestricted

/-- An accepted shutdown (R76). DESIGN CHOICE (entry 131): from Ready it goes to Dormant as an accepted request does, so that `modes.request` reads 2 afterwards. -/
def startShutdown (s : State) : State :=
  let s := writeAllExact { s with modes := { s.modes with shutdown := true } }
  if s.modes.current = .ready then acceptRequest .dormant s else settleShutdown s

/-! ### Rows -/

/-- The reset cause of a cold reset. -/
def coldCode : ColdCause → Nat
  | .powerOn => 0
  | .resetN => 1
  | .supplyGood => 2

/-- COLD_RESET (R529, R53). -/
def execColdReset (cause : ColdCause) (s : State) : Host.Outcome State Fault Refusal := .next (coldReset (coldCode cause) s)

/-- COLD_EXIT (R529, R55): the kiln logic leaves reset and Boot is entered. -/
def execColdExit (s : State) : Host.Outcome State Fault Refusal :=
  if s.modes.current = .cold then .next { s with modes := { s.modes with current := .boot, step := .kilnReset, bootCold := true } }
  else .next s

/-- KILN_BROWN_OUT (R530): whether `modes.reset_cause` then reads 0 or 2, the manual leaves open. -/
def execKilnBrownOut (s : State) : Host.Outcome State Fault Refusal :=
  let r := takeChoice 2 s
  .next (coldReset (2 * r.1) r.2)

/-- BOOT_IMAGE_LOAD (R60, R61). -/
def execBootImageLoad (s : State) : Host.Outcome State Fault Refusal :=
  if s.modes.current = .boot && s.modes.step = .kilnReset then .next (loadImage s) else .next s

/-- BOOT_BIST (R63). -/
def execBootBist (kilnOk coreOk stagingOk : Bool) (s : State) : Host.Outcome State Fault Refusal :=
  if s.modes.current = .boot && s.modes.step = .imageLoaded then
    let s := if stagingOk then s else setSticky Oid.modesBootStatus 0 0x40 s
    let s := if coreOk then s else setSticky Oid.modesBootStatus 0 0x20 s
    let s := if kilnOk then s else setSticky Oid.modesBootStatus 0 0x10 s
    if kilnOk && coreOk then .next { s with modes := { s.modes with step := .firmwareStarted } }
    else .next (haltBy (b2n (!kilnOk) + 2 * b2n (!coreOk)) s)
  else .next s

/-- TRANSITION_COMPLETE (R47). -/
def execTransitionComplete (s : State) : Host.Outcome State Fault Refusal :=
  match s.modes.target with
  | none => .next s
  | some b => if s.modes.draining then .next s else .next (advanceTransition b s)

/-- DRAIN_COMPLETE (R48). -/
def execDrainComplete (s : State) : Host.Outcome State Fault Refusal :=
  match s.modes.target with
  | none => .next s
  | some b => if s.modes.draining && !drainOwed s then .next (finishTransition b s) else .next s

/-- FIRMWARE_WATCHDOG (R68, Table 17.2). -/
def execFirmwareWatchdog (s : State) : Host.Outcome State Fault Refusal :=
  if s.modes.current = .cold || s.modes.current = .halt then .next s
  else if s.modes.current = .limp then .next (haltBy 4 (logUntracked resDevice 8 4 s))
  else .next (limpBy 8 (logUntracked resDevice 8 (limpAction s) s))

/-- LIMP_CAUSE (R68, R69): cause k is bit k of `modes.limp_cause`. -/
def execLimpCause (cause : Fin 4) (s : State) : Host.Outcome State Fault Refusal := .next (limpBy (2 ^ cause.val) s)

/-- WATCHDOG_GRACE_END (R69). -/
def execWatchdogGraceEnd (s : State) : Host.Outcome State Fault Refusal :=
  if s.modes.grace then .next (enterLimp s) else .next s

/-- HALT_CAUSE (R73): cause k is bit k of `modes.halt_cause`. -/
def execHaltCause (cause : Fin 7) (s : State) : Host.Outcome State Fault Refusal := .next (haltBy (2 ^ cause.val) s)

/-- WAKE_COMPARE (R65). -/
def execWakeCompare (s : State) : Host.Outcome State Fault Refusal :=
  if s.modes.current = .cold then .next s else .next (evalWake s)

/-- WAKE_AHEAD (R66): at T − L, or at T when wake-ahead is not enabled. -/
def execWakeAhead (s : State) : Host.Outcome State Fault Refusal :=
  match s.dict.pitch with
  | none => .next s
  | some p =>
    let lead : Nat := if bit (getObj s Oid.modesWakeSources) 1 then wakeLead s else 0
    if p.when_ = 2 && decide (p.time ≤ tAddNs (now s) lead) then .next (wakeUp (some p.time) s) else .next s

/-- WRITEBACK_COMPLETE (R469, R470); the last one may complete an orderly shutdown (R76). -/
def execWritebackComplete (n : Lamp) (ok : Bool) (s : State) : Host.Outcome State Fault Refusal :=
  .next (settleShutdown (writebackComplete n.val ok s))

end Sys2Proof.Machine
end

