-- ==== Sys2Proof/Machine/Deliver.lean ====
section
/-! DEFINITION. What a consumer of the event fabric does with an occurrence (Table 5.2), and the delivery of a channel's occurrences (R162, R166 to R168, R174). -/

namespace Sys2Proof.Machine

open Sys2Proof

/-- Whether a consumer is busy (Table 5.2). -/
def consumerBusy (s : State) (k : Nat) : Bool :=
  if 0x100 ≤ k ∧ k < 0x110 then
    fabObj s Oid.eventsTrigOutMode (k - 0x100) = 0 && (tabGet ({} : TrigOut) (k - 0x100) s.fab.trigOut).pulsing
  else if 0x110 ≤ k ∧ k < 0x120 then lampBusy s (k - 0x110)
  else if 0x120 ≤ k ∧ k < 0x140 then getObj s Oid.posCmpState (k - 0x120) = 1
  else if 0x140 ≤ k ∧ k < 0x160 then
    let sel := fabObj s Oid.eventsFlowTriggerSel (k - 0x140)
    if bits sel 31 30 = 1 then stampsFull s (k - 0x140)
    else if bits sel 31 30 = 2 then (tabGet none (k - 0x140) s.fab.flowTrig).isSome
    else false
  else if 0x160 ≤ k ∧ k < 0x170 then exportBusy s (k - 0x160)
  else false

/-- An occurrence at a grist cell's input (R171). -/
def gristArrive (k : Nat) (s : State) : State :=
  let g := tabGet ({} : Grist) (k / 4) s.fab.grist
  { s with fab := { s.fab with grist := tabPut {} (k / 4) { g with arrived := tabPut false (k % 4) true g.arrived } s.fab.grist } }

/-- An occurrence at a flow trigger (Table 5.5, `events.flow_trigger_sel`). -/
def flowTrigger (k : Nat) (o : Occ) (s : State) : State :=
  let sel := fabObj s Oid.eventsFlowTriggerSel k
  match bits sel 31 30 with
  | 1 => stampOccurrence k (bits sel 11 0) o s
  | 2 => { s with fab := { s.fab with flowTrig := tabPut none k (some o) s.fab.flowTrig } }
  | _ => s

/-- A timestamp capture (R166). -/
def captureTime (k : Nat) (o : Occ) (s : State) : State :=
  bump Oid.eventsCaptureCount k (putObj Oid.eventsCaptureTime k o.ts s)

/-- Consumer k takes an occurrence of channel c (Table 5.2). -/
def consume (c k : Nat) (o : Occ) (s : State) : State :=
  if k < 0x100 then gristArrive k s
  else if k < 0x110 then trigOutOccurrence c (k - 0x100) o s
  else if k < 0x120 then putLamp (k - 0x110) { lampX s (k - 0x110) with occ := some (c, o) } s
  else if k < 0x140 then cmpStart (k - 0x120) s
  else if k < 0x160 then flowTrigger (k - 0x140) o s
  else if k < 0x170 then exportOccurrence (k - 0x160) o s
  else if k < 0x190 then captureTime (k - 0x170) o s
  else if k = 0x190 then (if bit (getObj s Oid.modesWakeSources) 2 then wakeUp none s else s)
  else if k = 0x191 then { s with time := { s.time with snapNow := true } }
  else s

/-- The channel takes an occurrence: its count, last time and status (R174, Table 5.5). -/
def countOcc (c : Nat) (o : Occ) (s : State) : State :=
  setSticky Oid.eventsChStatus c 1 (putObj Oid.eventsChLastTime c o.ts (bump Oid.eventsChCount c s))

/-- Merged arrivals meet the consumer (R161, R168). -/
def meetConsumer (c : Nat) (a : Arrival) (t : List Arrival) (s : State) : State :=
  let k := fabObj s Oid.eventsChConsumer c
  let held := (tabGet none c s.fab.pend).isSome
  if held then overflowDrop c s
  else
    let o := mergeOcc a t ((getObj s Oid.eventsChCount c + 1) % 2 ^ 64)
    let s := countOcc c o s
    if k = 0xFFFF then s
    else if consumerBusy s k then { s with fab := { s.fab with pend := tabPut none c (some o) s.fab.pend } }
    else consume c k o s

/-- Deliver the arrivals of channel c of one tick (R162, R167, R174). -/
def deliver (c : Nat) (a : Arrival) (t : List Arrival) (s : State) : State :=
  let s := { s with fab := { s.fab with arrivals := s.fab.arrivals.filter (fun b => !(b.chan = c && b.tick = a.tick)) } }
  let s := addObj Oid.eventsChCoincidence c t.length s
  if fabObj s Oid.eventsChEnable c = 0 then bump Oid.eventsChDisabledDrops c s
  else
    let r := stormCount c s
    if r.2 then stormTrip c r.1 else meetConsumer c a t r.1

/-! ### Rows -/

/-- OCCURRENCE_DELIVERY (R162): in the tick that follows the fire. -/
def execOccurrenceDelivery (c : Chan) (s : State) : Host.Outcome State Fault Refusal :=
  match firstArrivals s c.val with
  | [] => .next s
  | a :: t => if a.tick < s.time.ticks then .next (deliver c.val a t s) else .next s

/-- PENDING_DELIVERY (R168): the consumer has become free. -/
def execPendingDelivery (c : Chan) (s : State) : Host.Outcome State Fault Refusal :=
  let k := fabObj s Oid.eventsChConsumer c.val
  match tabGet none c.val s.fab.pend with
  | none => .next s
  | some o => if k != 0xFFFF && !consumerBusy s k then .next (consume c.val k o (dropPending c.val s)) else .next s

end Sys2Proof.Machine
end

