-- ==== Sys2Proof/Machine/Faults.lean ====
section
/-! DEFINITION. Faults, power and thermal (17_faults_power), and the rows of the cellar that may end in Limp or Halt (10_cellar): reinstatement, the supply governor, temperatures, uncorrectable reads, retirement of pseudo-channels. -/

namespace Sys2Proof.Machine

open Sys2Proof

/-! ### Reinstatement (R507 to R509) -/

/-- The number of resources of a kind that can be reinstated (Table 17.1); 0 for any other kind. -/
def kindSize : Nat → Nat
  | 1 => 64 | 2 => 64 | 3 => 4096 | 4 => 1024 | 5 => 128 | 6 => 16 | 7 => 8 | 8 => 16
  | _ => 0

/-- Dormant or Ready: the modes of R342 and R509. -/
def quietMode (s : State) : Bool := s.modes.current = .dormant || s.modes.current = .ready

/-- The status of a write of `faults.reinstate` (R507). -/
def reinstateStatus (s : State) (res : Nat) : Nat :=
  if kindSize (res / 4096) ≤ res % 4096 then St.range
  else if res / 4096 = 5 && !quietMode s then St.modeRestricted
  else St.ok

/-- Retraining of a retired PC that fails is a fault of a retired resource: counted and logged (R505, R342). -/
def pcRetrain (p : Nat) (pass : Bool) (s : State) : State :=
  if getObj s Oid.cellarPcState p = 5 && !pass then addLog (resPc p) 4 1 0 0 (bump Oid.cellarFaults p s)
  else cellarReinstate p pass s

/-- Reinstate a resource (R507); pass is the outcome of a PC's retraining (R342). On a resource that is not retired it has no effect. -/
def reinstateRes (res : Nat) (pass : Bool) (s : State) : State :=
  let n := res % 4096
  if !standsRetired s res then s
  else match res / 4096 with
    | 1 => reinstateLane n s
    | 2 => reinstatePort n s
    | 3 => dropRetired res s
    | 4 => dropRetired res s
    | 5 => pcRetrain n pass s
    | 6 => lampReinstate n s
    | 7 => encReinstate n s
    | 8 => reinstateCascade n s
    | _ => s

/-- Reinstate every listed resource and store the list (R509); the PCs named fail their retraining and stay listed. -/
def clearList (failed : List Nat) (s : State) : State :=
  startStore .retiredList ((s.flt.retired.map (fun r => r.res)).foldl (fun s r =>
    reinstateRes r (!(r / 4096 = 5 && decide (r % 4096 ∈ failed))) s) s)

/-! ### The supply governor (R514 to R516) -/

/-- A downward step to k. -/
def stepDown (k : Nat) (s : State) : State :=
  let s := if k = 2 then bump Oid.powerStepsHalf 0 s else s
  let s := setSticky Oid.faultsAlertStatus 0 8 (setSticky Oid.powerStatus 0 1 (putObj Oid.powerClockStep 0 k s))
  logUntracked resDevice 4 0 (fire 0x0BC { s with flt := { s.flt with stepAt := tNanos (now s) } })

/-- A supply reading in millivolts below a threshold (R514). -/
def supplyFalls (mv : Nat) (s : State) : State :=
  let k := getObj s Oid.powerClockStep
  if k = 0 then
    if mv < getObj s Oid.powerSagDeepMv then stepDown 2 (bump Oid.powerSagCount 0 s)
    else if mv < getObj s Oid.powerSagMv then stepDown 1 (bump Oid.powerSagCount 0 s)
    else s
  else if k = 1 && decide (mv < getObj s Oid.powerSagDeepMv) then stepDown 2 s
  else s

/-! ### Thermal limits (R517) -/

/-- A limit of Table 17.4 for sensor group g (4 the die, else a stack): 0 warning, 1 critical, 2 halt. -/
def thermLimit (s : State) (g i : Nat) : Int :=
  match i with
  | 0 => if g = 4 then getInt s Oid.powerTempWarn else 95
  | 1 => if g = 4 then 110 else 100
  | _ => if g = 4 then 120 else 110

/-- The consecutive readings counted at a key of `hot`. -/
def hotCount (s : State) (g i : Nat) : Nat := tabGet 0 (g * 8 + i) s.flt.hot

/-- Count a reading: one more when it qualifies, from nothing when it does not. -/
def putHot (g i n : Nat) (s : State) : State := { s with flt := { s.flt with hot := tabPut 0 (g * 8 + i) n s.flt.hot } }

/-- Consecutive readings, up to 3: the limit acts at the second. -/
def hotNext (s : State) (g i : Nat) (holds : Bool) : Nat := if holds then min 3 (hotCount s g i + 1) else 0

/-- The warning of Table 17.4, which clears at 5 °C below its limit. -/
def thermWarn (g : Nat) (t : Int) (s : State) : State :=
  let up := hotNext s g 0 (decide (thermLimit s g 0 ≤ t))
  let down := hotNext s g 3 (decide (t ≤ thermLimit s g 0 - 5))
  let s := putHot g 3 down (putHot g 0 up s)
  if 2 ≤ up && hotCount s g 4 = 0 then
    let s := bump Oid.powerThermalWarnings 0 (putHot g 4 1 s)
    logUntracked resDevice 1 0 (fire 0x0BD (setSticky Oid.faultsAlertStatus 0 2 (setSticky Oid.powerStatus 0 2 s)))
  else if 2 ≤ down then putHot g 4 0 s
  else s

/-- One reading of a sensor group against the limits of Table 17.4; causes are named for `settleCauses`. In Boot one reading at the halt limit is a Halt cause (R518). -/
def thermReading (g : Nat) (t : Int) (s : State) : State :=
  let s := thermWarn g t s
  let crit := hotNext s g 1 (decide (thermLimit s g 1 ≤ t))
  let halt := hotNext s g 2 (decide (thermLimit s g 2 ≤ t))
  let s := putHot g 2 halt (putHot g 1 crit s)
  let halts := halt = 2 || (s.modes.current = .boot && halt = 1)
  let s :=
    if crit = 2 then
      let s := fire 0x0BE (setSticky Oid.faultsAlertStatus 0 4 (setSticky Oid.powerStatus 0 4 s))
      let s := logUntracked resDevice 2 (if halts then 0 else limpAction s) s
      { s with modes := { s.modes with limpWant := s.modes.limpWant ||| 2 } }
    else s
  if halts then
    let s := logUntracked resDevice 3 (haltAction s) (setSticky Oid.powerStatus 0 8 s)
    { s with modes := { s.modes with haltWant := s.modes.haltWant ||| 8 } }
  else s

/-- A die reading at or above its critical limit, or a stack's (R518). -/
def readingCritical (s : State) : Bool :=
  decide (110 ≤ getInt s Oid.powerDieTemp) || (List.range 4).any (fun k => decide (100 ≤ getInt s Oid.cellarTemp k))

/-- The highest of a list of readings. -/
def hottest : List Int → Int
  | [] => 0
  | [t] => t
  | t :: ts => max t (hottest ts)

/-- A stack's temperature as the cellar reads it (R332). -/
def stackReading (k : Nat) (t : Int) (s : State) : State :=
  let s := putInt Oid.cellarTemp k t s
  let s :=
    if 85 < t then setSticky Oid.cellarStatus 0 0x20 (putObj Oid.cellarRefreshDoubled k 1 s)
    else if t < 80 then putObj Oid.cellarRefreshDoubled k 0 s
    else s
  thermReading k t s

/-! ### Rows -/

/-- SUPPLY_SAG (R514): VDD_CORE in millivolts. -/
def execSupplySag (mv : Half) (s : State) : Host.Outcome State Fault Refusal :=
  if s.modes.current = .cold then .next s else .next (supplyFalls mv.toNat s)

/-- The governor's step has held 1 µs by the end of the present tick (R515). -/
def stepHeld (s : State) : Bool := decide (s.flt.stepAt + 1000 < tNanos (now s) + 8)

/-- GOVERNOR_STEP_END (R515): mv is the lowest supply of the last 100 ns. A step that ends upward begins the next one's hold. -/
def execGovernorStepEnd (mv : Half) (s : State) : Host.Outcome State Fault Refusal :=
  if getObj s Oid.powerClockStep != 0 && stepHeld s && decide (getObj s Oid.powerSagMv + 10 ≤ mv.toNat) then
    .next (putObj Oid.powerClockStep 0 (getObj s Oid.powerClockStep - 1) { s with flt := { s.flt with stepAt := tNanos (now s) } })
  else .next s

/-- CORE_RAIL_FAULT (R515, R516). -/
def execCoreRailFault (s : State) : Host.Outcome State Fault Refusal :=
  if s.modes.current = .cold then .next s
  else .next (limpBy 4 (logUntracked resDevice 5 (limpAction s) (setSticky Oid.powerStatus 0 0x10 s)))

/-- THERMAL_READING (R517): the 16 die sensors. -/
def execThermalReading (temps : List Word) (s : State) : Host.Outcome State Fault Refusal :=
  if s.modes.current = .cold then .next s
  else
    let ts := (temps.take 16).map (fun w => w.toInt)
    let s := (ts.zip (List.range 16)).foldl (fun s e => putInt Oid.powerDieSensor e.2 e.1 s) s
    let t := hottest ts
    .next (settleCauses (thermReading 4 t (putInt Oid.powerDieTemp 0 t s)))

/-- STACK_TEMP_READ (R332, R517). -/
def execStackTempRead (k : Fin 4) (celsius : Word) (s : State) : Host.Outcome State Fault Refusal :=
  if s.modes.current = .cold then .next s else .next (settleCauses (stackReading k.val celsius.toInt s))

/-- UNCORRECTABLE_READ (R338): the read and its re-issue. -/
def execUncorrectableRead (p : Pc) (unit : Fin 37748736) (first second : HbmRead) (s : State) : Host.Outcome State Fault Refusal :=
  if pcServes s p.val && isUncorrectable first then
    .next (settleCauses (badRead p.val unit.val first second (setSticky Oid.faultsAlertStatus 0 0x10 s)))
  else .next s

/-- ROW_REPAIR (R339): a row marked, or one that has given corrected errors in three distinct reads within 1 h. -/
def execRowRepair (p : Pc) (row : Fin 1179648) (bank : Fin 48) (corrected : Bool) (s : State) : Host.Outcome State Fault Refusal :=
  if pcServes s p.val && (corrected || decide ((p.val, row.val) ∈ s.cel.marked)) then
    .next (settleCauses (repairRow p.val row.val bank.val s))
  else .next s

/-- PC_RETIRE (R340): a permanent cause of Table 17.2, while the PC is in service or an idle spare. -/
def execPcRetire (p : Pc) (cause : Fin 6) (s : State) : Host.Outcome State Fault Refusal :=
  let st := getObj s Oid.cellarPcState p.val
  if s.modes.current != .cold && 2 ≤ cause.val && 2 ≤ st && st != 5 then .next (settleCauses (pcFault p.val cause.val true s))
  else .next s

/-- SCRUB (R343): one unit of the reference or control partition read, and read again when it was uncorrectable. -/
def execScrub (p : Pc) (unit : Fin 37748736) (first second : HbmRead) (progress : Fin 1001) (s : State) : Host.Outcome State Fault Refusal :=
  let part := getObj s Oid.cellarPcPartition p.val
  if getObj s Oid.cellarScrubHours != 0 && pcServes s p.val && (part = 1 || part = 2) then
    let s := putObj Oid.cellarScrubProgress 0 progress.val s
    if isUncorrectable first then
      .next (settleCauses (badRead p.val unit.val first second (setSticky Oid.faultsAlertStatus 0 0x10 s)))
    else .next (countRead p.val first s)
  else .next s

end Sys2Proof.Machine
end

