-- ==== Sys2Proof/Machine/Limits.lean ====
section
/-! DEFINITION. The checks on a value of an object: its encoding (R81, R82), its own limits (R11, R538), the limits that depend on other objects, and the checks a plan passes at its seal (R120). -/

namespace Sys2Proof.Machine

open Sys2Proof

/-! ### Encoding (Table 3.1) -/

/-- Bytes of a scalar value. -/
def scalarBytes (t : ValType) : Nat := typeBits t / 8

/-- Whether a type is moved as bytes of any length. -/
def isBytes : ValType → Bool
  | .str _ => true
  | .blob _ => true
  | _ => false

/-- A type read as a signed number. -/
def isSigned : ValType → Bool
  | .i32 => true
  | .i64 => true
  | .q32 => true
  | _ => false

/-- A value from its bytes in the transport's order; none when the length is wrong (R81, R82). -/
def decodeValue (le : Bool) (t : ValType) (b : List Byte) : Option PVal :=
  match t with
  | .str n => if b.length ≤ n then some (.bytes (padTo n b)) else none
  | .blob n => if b.length ≤ n then some (.bytes b) else none
  | .time96 =>
    if b.length ≠ 12 then none
    else if le then some (.num (packTime (leNat (slice 0 6 b)) (leNat (slice 6 4 b)) (leNat (slice 10 2 b))))
    else some (.num (packTime (beNat (slice 0 6 b)) (beNat (slice 6 4 b)) (beNat (slice 10 2 b))))
  | t => if b.length = scalarBytes t then some (.num (if le then leNat b else beNat b)) else none

/-- The bytes of a value in the transport's order (R81). -/
def encodeValue (le : Bool) (t : ValType) (v : PVal) : List Byte :=
  match t, v with
  | .time96, .num n => timeBytes le n
  | _, .bytes b => b
  | t, .num n => if le then leBytes (scalarBytes t) n else beBytes (scalarBytes t) n

/-- The number of a value; 0 for bytes. -/
def valNum : PVal → Nat
  | .num n => n
  | .bytes _ => 0

/-- The bytes of a value; none for a number. -/
def valBytes : PVal → List Byte
  | .num _ => []
  | .bytes b => b

/-! ### Limits of the value alone (R538) -/

/-- RANGE unless the condition holds. -/
def inRange (b : Bool) : Nat := if b then St.ok else St.range

/-- A two-bit field of v among the first n holds `bad`. -/
def hasField (bad v : Nat) : Nat → Bool
  | 0 => false
  | n + 1 => v / 4 ^ n % 4 = bad || hasField bad v n

/-- The status a limit of the object table gives a number. -/
def limitStatus (t : ValType) (l : Limit) (v : Nat) : Nat :=
  let i : Int := if isSigned t then toSigned (typeBits t) v else v
  match l with
  | .any => St.ok
  | .range lo hi ex => inRange ((decide (lo ≤ i) && decide (i ≤ hi)) || decide (i ∈ ex))
  | .codes good refused => if i ∈ good then St.ok else if i ∈ refused then St.range else St.reserved
  | .codeRange lo hi ex => if (decide (lo ≤ i) && decide (i ≤ hi)) || decide (i ∈ ex) then St.ok else St.reserved
  | .only k => inRange (i = k)
  | .key k => if i = k then St.ok else St.keyValue
  | .bits defined _ => if v &&& defined = v then St.ok else St.reserved
  | .mask defined => if v &&& defined = v then St.ok else St.reserved
  | .fields bad n => inRange (!hasField bad v n)
  | .mult m lo hi => inRange (decide (lo ≤ i) && decide (i ≤ hi) && i % m = 0)
  | .pow2 lo hi => inRange (decide (lo ≤ i) && decide (i ≤ hi) && decide (v = 2 ^ Nat.log2 v))

/-- A value of `pos.list`: whole entries of 8 bytes, little-endian, with [63:48] equal to 0 (R456). -/
def listValid : List Byte → Bool
  | [] => true
  | _ :: _ :: _ :: _ :: _ :: _ :: g :: h :: t => g = 0 && h = 0 && listValid t
  | _ => false

/-- Limits of a value alone that the object table's form does not hold: TIME96 (Table 3.1), the flow a trigger names (Table 5.5), byte lengths, and non-ASCII bytes of a STRING. -/
def aloneStatus (r : ObjRow) (v : PVal) : Nat :=
  match v with
  | .bytes b =>
    if r.id = Oid.dictKey && b.length != 32 then St.length
    else if r.id = Oid.lampHeadUser && b.length != 96 then St.length
    else if r.id = Oid.tapRawFrame && (b.length < 60 || 9212 < b.length) then St.length
    else if r.id = Oid.posList then inRange (listValid b)
    else match r.type with
      | .str _ => inRange (b.all (fun x => decide (x.toNat < 128)))
      | _ => St.ok
  | .num n =>
    if r.type = .time96 then inRange (decide (tNs n < billion))
    else if r.id = Oid.eventsFlowTriggerSel then
      (if bits n 31 30 = 3 then St.reserved
       else if n &&& 0xC0000FFF != n then St.reserved
       else inRange (bits n 31 30 != 2 || decide (bits n 11 0 < 1024)))
    else St.ok

/-- Steps 7 to 10 of R87 for a value by itself. -/
def valueStatus (r : ObjRow) (v : PVal) : Nat :=
  let a := aloneStatus r v
  match v with
  | .bytes _ => a
  | .num n =>
    let l := limitStatus r.type r.limit n
    if a = St.ok then l else a

/-! ### Limits that depend on other objects (R87 step 9) -/

/-- Lower limits of `cellar.share` (Table 10.2), by partition and activity code. -/
def shareMin (part act : Nat) : Nat :=
  match part, act with
  | 0, 0 => 39 | 0, 1 => 39 | 0, 3 => 49 | 0, 4 => 4
  | 1, 1 => 96 | 1, 2 => 96 | 1, 4 => 4
  | 2, 4 => 280
  | _, _ => 0

/-- The share of an activity once v has been written at idx. -/
def shareSum (s : State) (id idx v : Nat) : Nat :=
  ((List.range 5).map (fun a => if a = idx then v else getObj s id a)).sum

/-- `time.step` or `time.set` would make the time negative at the tick that applies it, which accumulates first (R129, R135, R136). -/
def stepNegative (s : State) (d : Int) : Bool :=
  let p := s.time.step.getD {}
  let base : Int := match p.set with
    | some t => ((tUnits t * 65536 : Nat) : Int)
    | none => timeUnits32 (accumulate s)
  decide (base + p.add + d < 0)

/-- A consumer code named by another channel (R161). -/
def consumerTaken (s : State) (c v : Nat) : Bool :=
  v != 0xFFFF && (List.range 256).any (fun k => k != c && getObj s Oid.eventsChConsumer k = v)

/-- The pre-, main and post-cursor of a lane sum to at most 63 (Table 6.7). -/
def cursorsOk (s : State) (base id idx v : Nat) : Bool :=
  let g (k : Nat) := if id = k + base then v else getObj s (k + base) idx
  decide (g Oid.laneTxPre + g Oid.laneTxMain + g Oid.laneTxPost ≤ 63)

/-- Frame period limit: an offset in ns is less than den × 10^9 / num. -/
def belowPeriod (off num den : Nat) : Bool := decide (off * num < den * billion)

/-- The status of limits that depend on other objects, for a write of v to an object outside the quad groups. -/
def linkedTop (s : State) (id idx v : Nat) : Nat :=
  let st := getObj s Oid.flowTxType idx = 1
  let rst := getObj s Oid.flowRxType idx = 1
  if id = Oid.timeStep then inRange (!stepNegative s (toSigned 64 v))
  else if id = Oid.timeSource then inRange (v != 3 || getObj s Oid.timeBhUpstream != 0xFFFF)
  else if id = Oid.timeBhDownstream then
    inRange (decide (((List.range 16).filter (fun q => v.testBit q)).length ≤ 3) && !v.testBit (getObj s Oid.timeBhUpstream))
  else if id = Oid.eventsChConsumer then inRange (!consumerTaken s idx v)
  else if id = Oid.portFec then inRange (!portExists s idx || fecAllowed (quadModeActive s (idx / 4)) v)
  else if id = Oid.underbackHigh then inRange (decide (getObj s Oid.underbackLow idx < v))
  else if id = Oid.underbackLow then inRange (decide (v < getObj s Oid.underbackHigh idx))
  else if id = Oid.lauterWidth then inRange (!rst || decide (v ≤ 32767))
  else if id = Oid.lauterHeight then inRange (!rst || getObj s Oid.lauterScan idx = 1 || decide (v ≤ 32767))
  else if id = Oid.lauterStagingHigh then inRange (decide (getObj s Oid.lauterStagingLow < v))
  else if id = Oid.lauterStagingLow then inRange (decide (v < getObj s Oid.lauterStagingHigh))
  else if id = Oid.casksGlobalHigh then inRange (decide (getObj s Oid.casksGlobalLow < v))
  else if id = Oid.casksGlobalLow then inRange (decide (v < getObj s Oid.casksGlobalHigh))
  else if id = Oid.casksFlowHigh then inRange (decide (getObj s Oid.casksFlowLow idx < v))
  else if id = Oid.casksFlowLow then inRange (decide (v < getObj s Oid.casksFlowHigh idx))
  else if Oid.cellarShare ≤ id ∧ id ≤ Oid.cellarShare + 2 then
    inRange (decide (shareMin (id - Oid.cellarShare) idx ≤ v) && decide (shareSum s id idx v ≤ 280))
  else if id = Oid.cellarReinstate then inRange (getObj s Oid.cellarPcState idx = 5)
  else if id = Oid.cellarTestSelect then inRange (v = 0 || getObj s Oid.cellarPcState idx != 5)
  else if id = Oid.rackingRingHigh then inRange (decide (getObj s Oid.rackingRingLow idx < v))
  else if id = Oid.rackingRingLow then inRange (decide (v < getObj s Oid.rackingRingHigh idx))
  else if id = Oid.rackingCqEnable then inRange (v = 1 || !cqInUse s idx)
  else if id = Oid.rackingResume then inRange (s.link.bme)
  else if id = Oid.tapWidth || id = Oid.tapHeight then inRange (!st || decide (v ≤ 32767))
  else if id = Oid.tapTrOffsetNs then inRange (belowPeriod v (getObj s Oid.tapRateNum idx) (getObj s Oid.tapRateDen idx))
  else if id = Oid.tapHostSlotBytes then
    inRange (decide (getObj s Oid.tapHeight idx * strideOf (lineBytesOf (getObj s Oid.tapPixelFormat idx) (getObj s Oid.tapWidth idx)) ≤ v))
  else if id = Oid.hydroTimingActiveDen then inRange (decide (getObj s Oid.hydroTimingActiveNum idx ≤ v))
  else if id = Oid.hydroTimingTrOffsetNs then inRange (belowPeriod v (getObj s Oid.hydroRateNum idx) (getObj s Oid.hydroRateDen idx))
  else if id = Oid.posAmpMin then inRange (decide (v < getObj s Oid.posAmpMax idx))
  else if id = Oid.posQuadEdges then inRange (decide (v ≤ getObj s Oid.posInterp idx))
  else if id = Oid.posCmpListBase then inRange (decide (v + getObj s Oid.posCmpListLen idx ≤ 65536))
  else if id = Oid.posCmpListLen then inRange (decide (getObj s Oid.posCmpListBase idx + v ≤ 65536))
  else if id = Oid.hostlinkWinSize then inRange (decide (v ≤ bar2Span s))
  else if id = Oid.powerSagDeepMv then inRange (decide (v + 5 ≤ getObj s Oid.powerSagMv))
  else if id = Oid.faultsReinstate then (if reinstateStatus s v = St.modeRestricted then St.ok else reinstateStatus s v)
  else St.ok

/-- The status of limits that depend on other objects (R87 step 9). -/
def linkedStatus (s : State) (id idx v : Nat) : Nat :=
  let g := id / 65536
  if isQuadGroup g then inRange (cursorsOk s ((g - 16) * 65536) id idx v) else linkedTop s id idx v

/-! ### Checks that fail with CONSISTENCY (R286, R358, R379, R404) -/

/-- The status of the checks an enable makes of the objects beside it, and of a line-scan unit. -/
def consistencyStatus (s : State) (id idx v : Nat) : Nat :=
  let st (b : Bool) : Nat := if b then St.ok else St.consistency
  if id = Oid.rackingRingEnable then st (v != 1 || ringEnableOk s idx)
  else if id = Oid.rackingExcEnable then st (v != 1 || excEnableOk s)
  else if id = Oid.tapHostEnable then st (v != 1 || tapEnableOk s idx)
  else if id = Oid.lauterUnitBlocks then
    st (getObj s Oid.lauterScan idx != 1 || decide (v * getObj s Oid.lauterBlockLines idx ≤ 1048576))
  else St.ok

/-! ### The seal (R120) -/

/-- One check of the seal: whether it holds, and the objects it rests on. -/
structure SealCheck where
  holds : Bool
  keys  : List (Nat × Nat)
deriving DecidableEq, Repr

/-- The indices at which an object of default 0 has been given a value. -/
def givenAt (s : State) (id : Nat) : List Nat := (s.objs.filter (fun o => o.1 / 65536 = id)).map (fun o => o.1 % 65536)

/-- Objects of one index as keys. -/
def keysAt (idx : Nat) (ids : List Nat) : List (Nat × Nat) := ids.map (fun id => (id, idx))

/-- A pixel format and the stream types that carry it (Table 9.2): GVSP and ST 2110-20. -/
def formatCarried (fmt : Nat) (gvsp : Bool) : Bool :=
  if gvsp then fmt < 0x21 else fmt = 0x20 || fmt = 0x21 || fmt = 0x30 || fmt = 0x31

/-- The key of a receive flow (R237). -/
def flowKey (s : State) (f : Nat) : List Nat :=
  [getObj s Oid.flowRxPort f, rxDst s f, getObj s Oid.flowRxDstPort f, rxSrc s f, getObj s Oid.flowRxSrcPort f, getObj s Oid.flowRxVlan f]

/-- The objects of a receive flow's key. -/
def flowKeyIds : List Nat :=
  [Oid.flowRxType, Oid.flowRxPort, Oid.flowRxDstAddr, Oid.flowRxDstAddr + 1, Oid.flowRxDstPort, Oid.flowRxSrcAddr,
   Oid.flowRxSrcAddr + 1, Oid.flowRxSrcPort, Oid.flowRxVlan]

/-- The objects that give a receive flow its geometry. -/
def flowGeoIds : List Nat :=
  [Oid.flowRxType, Oid.lauterScan, Oid.lauterWidth, Oid.lauterHeight, Oid.lauterPixelFormat, Oid.lauterSideRecords,
   Oid.lauterBlockLines, Oid.lauterUnitBlocks]

/-- Checks of an enabled receive flow (R237, R243, R245, R283, R286, R298, R306, R351, R375). -/
def rxChecks (s : State) (f : Nat) : List SealCheck :=
  let gvsp := getObj s Oid.flowRxType f = 2
  let p := getObj s Oid.flowRxPort f
  let fmt := getObj s Oid.lauterPixelFormat f
  let w := getObj s Oid.lauterWidth f
  let k := frameCfgOf s f w (getObj s Oid.lauterHeight f) fmt
  let r := getObj s Oid.rackingFlowRing f
  let pause := getObj s Oid.flowRxPause f
  let fc := getObj s Oid.portFlowCtrl p
  [ ⟨(givenAt s Oid.flowRxType).all (fun g => g = f || flowKey s g != flowKey s f), keysAt f flowKeyIds⟩,
    ⟨portExists s p, keysAt f [Oid.flowRxPort, Oid.flowRxType] ++ [(quadId Oid.quadMode (p / 4), 0)]⟩,
    ⟨!isOn s Oid.flowRxResend f || rxSrc s f != 0, keysAt f [Oid.flowRxResend, Oid.flowRxSrcAddr, Oid.flowRxSrcAddr + 1]⟩,
    ⟨(pause = 0 || fc != 0) && (pause != 2 || fc = 2), keysAt f [Oid.flowRxPause, Oid.flowRxPort] ++ [(Oid.portFlowCtrl, p)]⟩,
    ⟨gvsp || getObj s Oid.lauterScan f != 1, keysAt f [Oid.lauterScan, Oid.flowRxType]⟩,
    ⟨gvsp || w % max 1 (pgOf fmt).1 = 0, keysAt f [Oid.lauterWidth, Oid.lauterPixelFormat, Oid.flowRxType]⟩,
    ⟨formatCarried fmt gvsp, keysAt f [Oid.lauterPixelFormat, Oid.flowRxType]⟩,
    ⟨getObj s Oid.lauterStampSource f != 1 || (rxTrigger s f).isSome,
      keysAt f [Oid.lauterStampSource] ++ (List.range 32).map (fun k => (Oid.eventsFlowTriggerSel, k))⟩,
    ⟨(gvsp && !k.line) || (decide (caskPages k ≤ 65536) && decide (caskPages k ≤ getObj s Oid.casksFlowQuota f)),
      keysAt f (flowGeoIds ++ [Oid.casksFlowQuota])⟩,
    ⟨!k.line || decide (k.unitBlocks * k.blockLines ≤ 1048576), keysAt f [Oid.lauterUnitBlocks, Oid.lauterBlockLines]⟩,
    ⟨decide (flowNeed s f ≤ getObj s Oid.rackingRingSlotBytes r),
      keysAt f (flowGeoIds ++ [Oid.rackingFlowRing, Oid.rackingFlowCompress]) ++ [(Oid.rackingRingSlotBytes, r)]⟩,
    ⟨getObj s Oid.rackingFlowPolicy f != 1 || pause != 0, keysAt f [Oid.rackingFlowPolicy, Oid.flowRxPause]⟩ ]

/-- The reference partition holds n frames of `bytes` at distance `dist` from an address (Table 1.7). -/
def framesInReference (addr dist n bytes : Nat) : Bool :=
  decide (refBase ≤ addr) && decide (addr + (n - 1) * dist + bytes ≤ ctlBase)

/-- Checks of a flow against its hydrometer set (R416). -/
def flowSetChecks (s : State) (f : Nat) : List SealCheck :=
  let set := getObj s Oid.hydroFlowSet f
  if set = 0xFF then []
  else
    let gvsp := getObj s Oid.flowRxType f = 2
    let k := frameCfgOf s f (getObj s Oid.lauterWidth f) (getObj s Oid.lauterHeight f) (getObj s Oid.lauterPixelFormat f)
    let tall := if k.line then getObj s Oid.hydroHeight set = k.blockLines else gvsp || getObj s Oid.hydroHeight set = k.lines
    let setKeys := keysAt set [Oid.hydroRef, Oid.hydroWidth, Oid.hydroHeight, Oid.hydroPixelFormat]
    [ ⟨getObj s Oid.hydroRef set != 1 || (getObj s Oid.hydroPixelFormat set = k.format && getObj s Oid.hydroWidth set = k.width && tall),
        keysAt f ([Oid.hydroFlowSet] ++ flowGeoIds) ++ setKeys⟩,
      ⟨getObj s Oid.hydroTiming set = 0 || !gvsp, keysAt f [Oid.hydroFlowSet, Oid.flowRxType] ++ [(Oid.hydroTiming, set)]⟩,
      ⟨getObj s Oid.hydroAlign set != 2 || getObj s Oid.flowTxType (getObj s Oid.hydroPairTx set) = getObj s Oid.flowRxType f,
        keysAt f [Oid.hydroFlowSet, Oid.flowRxType] ++ keysAt set [Oid.hydroAlign, Oid.hydroPairTx]
          ++ [(Oid.flowTxType, getObj s Oid.hydroPairTx set)]⟩ ]

/-- Checks of a golden set (R416) and of its line check (R422). -/
def setChecks (s : State) (g : Nat) : List SealCheck :=
  let golden := getObj s Oid.hydroRef g = 1
  let a := getObj s Oid.hydroGoldenAddr g
  let d := getObj s Oid.hydroGoldenFrameBytes g
  let bytes := getObj s Oid.hydroHeight g * strideOf (lineBytesOf (getObj s Oid.hydroPixelFormat g) (getObj s Oid.hydroWidth g))
  [ ⟨!golden || (a % 32 = 0 && d % 32 = 0), keysAt g [Oid.hydroRef, Oid.hydroGoldenAddr, Oid.hydroGoldenFrameBytes]⟩,
    ⟨!golden || decide (bytes ≤ d), keysAt g [Oid.hydroRef, Oid.hydroGoldenFrameBytes, Oid.hydroWidth, Oid.hydroHeight, Oid.hydroPixelFormat]⟩,
    ⟨!golden || framesInReference a d (getObj s Oid.hydroGoldenFrames g) bytes,
      keysAt g [Oid.hydroRef, Oid.hydroGoldenAddr, Oid.hydroGoldenFrameBytes, Oid.hydroGoldenFrames]⟩,
    ⟨getObj s Oid.hydroCrcCheck g != 1 || getObj s Oid.hydroRef g != 0, keysAt g [Oid.hydroCrcCheck, Oid.hydroRef]⟩ ]

/-- Checks of a pattern block in use: its four layers (R405). -/
def patternChecks (s : State) (b : Nat) : List SealCheck :=
  (List.range 4).map (fun i =>
    let l := 4 * b + i
    let kind := getObj s Oid.patternKind l
    let p0 := getInt s Oid.patternParam l
    let p1 := getInt s (Oid.patternParam + 1) l
    ⟨((kind != 2 && kind != 4) || decide (1 ≤ p0)) && ((kind != 3 && kind != 4) || decide (1 ≤ p1)),
      keysAt l [Oid.patternKind, Oid.patternParam, Oid.patternParam + 1]⟩)

/-- Bytes of a transmit frame around its payload: MAC header with FCS, tag, IP and UDP headers. -/
def txOverhead (s : State) (t : Nat) : Nat :=
  let dst := getObj s (Oid.flowTxDstAddr + 1) t * 2 ^ 64 + getObj s Oid.flowTxDstAddr t
  18 + (if bit (getObj s Oid.flowTxVlan t) 16 then 4 else 0) + (if dst / 2 ^ 32 = 0xFFFF then 20 else 40) + 8

/-- Frame lengths of the payload packets from an image byte on. -/
def payloadSizes (g : TxGeo) (ovh : Nat) : Nat → Nat → List Nat
  | 0, _ => []
  | n + 1, off =>
    if txTotal g ≤ off then []
    else
      let len := packetLen g off
      (ovh + (if g.st then 14 + (srdHeaders g 3 off len).length else 0) + len) :: payloadSizes g ovh n (off + len)

/-- Frame lengths of every packet of a whole frame of transmit flow t. -/
def txSizes (s : State) (t : Nat) : List Nat :=
  let g0 := txGeo (txSettings s t) t 0
  let g := { g0 with lines := g0.unit }
  let ovh := txOverhead s t + (if g.st then 0 else if isOn s Oid.tapGvspExtId t then 20 else 8)
  let body := payloadSizes g ovh (txTotal g) 0
  if g.st then body else (ovh + 36) :: (ovh + 8) :: body

/-- Bits per second that flow t puts on the wire, times its rate denominator; the preamble and gap of a frame are 20 bytes (PRESUMED IEEE 802.3). -/
def txWire (s : State) (t : Nat) : Nat := ((txSizes s t).map (fun n => (max n 64 + 20) * 8)).sum * getObj s Oid.tapRateNum t

/-- The payload rate of a port in bit/s (Table 6.1); a port that its quad's mode lacks carries nothing. -/
def portRate (s : State) (p : Nat) : Nat :=
  if !portExists s p then 0
  else match quadModeActive s (p / 4) with
  | 1 => 10000000000
  | 2 => 25000000000
  | 3 => 40000000000
  | 4 => 100000000000
  | _ => 0

/-- Flows on a port keep within its rate: the sum of their fractions, put over a common denominator. -/
def wireFits (s : State) (p : Nat) : List Nat → Nat → Nat → Bool
  | [], num, den => decide (num ≤ portRate s p * den)
  | t :: ts, num, den =>
    if getObj s Oid.flowTxPort t = p then
      wireFits s p ts (num * getObj s Oid.tapRateDen t + txWire s t * den) (den * getObj s Oid.tapRateDen t)
    else wireFits s p ts num den

/-- The objects that give a transmit flow its geometry. -/
def txGeoIds : List Nat := [Oid.flowTxType, Oid.tapWidth, Oid.tapHeight, Oid.tapPixelFormat]

/-- Checks of an enabled transmit flow (R247, R388, R393, R402, R407). -/
def txChecks (s : State) (t : Nat) : List SealCheck :=
  let flows := givenAt s Oid.flowTxType
  let gvsp := getObj s Oid.flowTxType t = 2
  let p := getObj s Oid.flowTxPort t
  let fmt := getObj s Oid.tapPixelFormat t
  let w := getObj s Oid.tapWidth t
  let h := getObj s Oid.tapHeight t
  let num := getObj s Oid.tapRateNum t
  let den := getObj s Oid.tapRateDen t
  let src := getObj s Oid.tapSource t
  let mode := getObj s Oid.tapStartMode t
  let lb := lineBytesOf fmt w
  let a := getObj s Oid.tapRefAddr t
  let d := getObj s Oid.tapRefFrameBytes t
  let dst := getObj s (Oid.flowTxDstAddr + 1) t * 2 ^ 64 + getObj s Oid.flowTxDstAddr t
  [ ⟨isMulticast dst || getObj s Oid.flowTxDstMac t != 0, keysAt t [Oid.flowTxType, Oid.flowTxDstMac, Oid.flowTxDstAddr, Oid.flowTxDstAddr + 1]⟩,
    ⟨formatCarried fmt gvsp, keysAt t [Oid.tapPixelFormat, Oid.flowTxType]⟩,
    ⟨gvsp || w % max 1 (pgOf fmt).1 = 0, keysAt t [Oid.tapWidth, Oid.tapPixelFormat, Oid.flowTxType]⟩,
    ⟨decide (10000 * num ≤ den * billion) && decide (den * billion ≤ 4 * billion * num), keysAt t [Oid.tapRateNum, Oid.tapRateDen]⟩,
    ⟨decide (getObj s Oid.tapLowKib t < getObj s Oid.tapHighKib t) && decide (getObj s Oid.tapHighKib t ≤ getObj s Oid.tapBufferKib t),
      keysAt t [Oid.tapLowKib, Oid.tapHighKib, Oid.tapBufferKib]⟩,
    ⟨decide ((flows.map (fun u => getObj s Oid.tapBufferKib u)).sum ≤ 16384), keysAt t [Oid.tapBufferKib, Oid.flowTxType]⟩,
    ⟨(txSizes s t).all (fun n => decide (n ≤ getObj s Oid.portMaxFrame p)),
      keysAt t (txGeoIds ++ [Oid.tapPayloadBytes, Oid.tapGvspPacketBytes, Oid.flowTxPort]) ++ [(Oid.portMaxFrame, p)]⟩,
    ⟨wireFits s p flows 0 1, keysAt t (txGeoIds ++ [Oid.tapRateNum, Oid.tapRateDen, Oid.flowTxPort])⟩,
    ⟨src != 2 || flows.all (fun u => u = t || getObj s Oid.tapSource u != 2 || getObj s Oid.tapSrcFlow u != getObj s Oid.tapSrcFlow t),
      keysAt t [Oid.tapSource, Oid.tapSrcFlow]⟩,
    ⟨mode < 3 || (txTrigger s t).isSome, keysAt t [Oid.tapStartMode] ++ (List.range 32).map (fun k => (Oid.eventsFlowTriggerSel, k))⟩,
    ⟨gvsp || mode != 4, keysAt t [Oid.tapStartMode, Oid.flowTxType]⟩,
    ⟨mode != 4 || lb % max 1 (getObj s Oid.tapGvspPacketBytes t) = 0, keysAt t (txGeoIds ++ [Oid.tapStartMode, Oid.tapGvspPacketBytes])⟩,
    ⟨gvsp || getObj s Oid.tapPacking t != 1 || decide (getObj s Oid.tapPayloadBytes t / 180 * 180 ≤ lb),
      keysAt t (txGeoIds ++ [Oid.tapPacking, Oid.tapPayloadBytes])⟩,
    ⟨src != 1 || (a % 32 = 0 && d % 32 = 0 && decide (h * strideOf lb ≤ d)
        && framesInReference a d (getObj s Oid.tapRefFrames t) (h * strideOf lb)),
      keysAt t (txGeoIds ++ [Oid.tapSource, Oid.tapRefAddr, Oid.tapRefFrameBytes, Oid.tapRefFrames])⟩,
    ⟨gvsp || decide (getObj s Oid.tapActiveNum t ≤ getObj s Oid.tapActiveDen t), keysAt t [Oid.tapActiveNum, Oid.tapActiveDen]⟩,
    ⟨src != 2 || getObj s Oid.rackingFlowReplayHost (getObj s Oid.tapSrcFlow t) != 1,
      keysAt t [Oid.tapSource, Oid.tapSrcFlow] ++ [(Oid.rackingFlowReplayHost, getObj s Oid.tapSrcFlow t)]⟩ ]

/-- The pattern blocks that enabled flows use. -/
def blocksInUse (s : State) : List Nat :=
  ((givenAt s Oid.flowTxType).filter (fun t => getObj s Oid.tapSource t = 0)).map (fun t => getObj s Oid.tapPatternBlock t)
    ++ ((givenAt s Oid.flowRxType).filter (fun f => getObj s Oid.hydroFlowSet f != 0xFF && getObj s Oid.hydroRef (getObj s Oid.hydroFlowSet f) = 2)).map
      (fun f => getObj s Oid.hydroPatternBlock (getObj s Oid.hydroFlowSet f))

/-- Every check of the seal against a dictionary. -/
def sealChecks (s : State) : List SealCheck :=
  (givenAt s Oid.flowRxType).flatMap (fun f => rxChecks s f ++ flowSetChecks s f)
    ++ (List.range 64).flatMap (setChecks s)
    ++ (blocksInUse s).flatMap (patternChecks s)
    ++ (givenAt s Oid.flowTxType).flatMap (txChecks s)

/-- The dictionary as it would stand after the pitch (R120). -/
def planView (es : List PlanEntry) (s : State) : State :=
  es.foldl (fun s e => match e.value with
    | .num n => putObj e.id e.index n s
    | .bytes b => putBlob e.id e.index b s) s

/-- The error an entry causes in the dictionary as it would stand. -/
def entryStatus (s : State) (bad : List SealCheck) (e : PlanEntry) : Nat :=
  let l := if e.id = Oid.modesRequest then St.ok else linkedStatus s e.id e.index (valNum e.value)
  let c := consistencyStatus s e.id e.index (valNum e.value)
  if l ≠ St.ok then l
  else if c ≠ St.ok then c
  else if bad.any (fun c => decide ((e.id, e.index) ∈ c.keys)) then St.consistency
  else St.ok

/-- The objects at an index whose limits rest on an object, beside it: a plan that holds the object alone is held to them too (R120). -/
def dependents (id idx : Nat) : List (Nat × Nat) :=
  if id = Oid.timeBhUpstream then [(Oid.timeBhDownstream, 0)]
  else if id = Oid.flowRxType || id = Oid.lauterScan || id = Oid.lauterBlockLines then
    keysAt idx [Oid.lauterWidth, Oid.lauterHeight, Oid.lauterUnitBlocks]
  else if id = Oid.flowTxType then keysAt idx [Oid.tapWidth, Oid.tapHeight]
  else if id = Oid.tapWidth || id = Oid.tapHeight || id = Oid.tapPixelFormat then keysAt idx [Oid.tapHostSlotBytes]
  else if id = Oid.tapRateNum || id = Oid.tapRateDen then keysAt idx [Oid.tapTrOffsetNs]
  else if id = Oid.hydroTimingActiveNum then keysAt idx [Oid.hydroTimingActiveDen]
  else if id = Oid.hydroRateNum || id = Oid.hydroRateDen then keysAt idx [Oid.hydroTimingTrOffsetNs]
  else if id = Oid.posAmpMax then keysAt idx [Oid.posAmpMin]
  else if id = Oid.posInterp then keysAt idx [Oid.posQuadEdges]
  else if id = Oid.powerSagMv then [(Oid.powerSagDeepMv, 0)]
  else []

/-- The status of an object's present value against the limits that rest on other objects. -/
def standingStatus (s : State) (k : Nat × Nat) : Nat :=
  let l := linkedStatus s k.1 k.2 (getObj s k.1 k.2)
  if l ≠ St.ok then l else consistencyStatus s k.1 k.2 (getObj s k.1 k.2)

/-- The error that an entry causes on an object that rests on it; one that stands without the plan is none of the plan's. -/
def dependentStatus (live s : State) (e : PlanEntry) : Nat :=
  match (dependents e.id e.index).find? (fun k => standingStatus s k != St.ok && standingStatus live k = St.ok) with
  | some k => standingStatus s k
  | none => St.ok

/-- The first entry of a plan that fails, with its error; a check that no entry touches is reported on the first object it rests on. -/
def sealFailure (es : List PlanEntry) (s : State) : Option (Nat × Nat) :=
  let v := planView es s
  let bad := (sealChecks v).filter (fun c => !c.holds)
  let status (e : PlanEntry) : Nat := if entryStatus v bad e ≠ St.ok then entryStatus v bad e else dependentStatus s v e
  match es.find? (fun e => status e != St.ok) with
  | some e => some (e.id, status e)
  | none =>
    match bad with
    | [] => none
    | c :: _ => some ((c.keys.map (fun k => k.1)).headD 0, St.consistency)

end Sys2Proof.Machine
end

