-- ==== Sys2Proof/Machine/Ptp.lean ====
section
/-! DEFINITION. The PTP port (04_timekeeper, R142 to R144 and Table 4.3): the best master, the servo's inputs, and the messages the port sends. -/

namespace Sys2Proof.Machine

open Sys2Proof

/-- The lanes of the PTP port: all four of a bonded quad. -/
def ptpLanes (s : State) (p : Nat) : List Nat :=
  let m := getObj s (quadId Oid.quadMode (p / 4))
  if m = 3 || m = 4 then (List.range 4).map (fun k => p / 4 * 4 + k) else [p]

/-- The PTP port and its lanes are in service (R159). -/
def ptpPortServes (s : State) (p : Nat) : Bool :=
  decide (p < 64) && !isRetired s (resPort p) && (ptpLanes s p).all (fun n => !isRetired s (resLane n))

/-- Whether the PTP servo runs: Table 2.2, Table 4.5, and in Limp only on a port of lane L0 (R143). -/
def ptpRuns (s : State) : Bool :=
  let p := getObj s Oid.timePtpPort
  match s.modes.current with
  | .cold => false
  | .boot => false
  | .dormant => false
  | .halt => false
  | .limp => p = 0 && ptpPortServes s p
  | _ => ptpPortServes s p

/-- The firmware servo drives the timekeeper only as source 1 (R140). -/
def ptpUpdate (d : Int) (s : State) : State :=
  if getObj s Oid.timeSource = 1 then servoUpdate d s else putObj Oid.timeOffset 0 (offsetQ32 d) s

/-- A PTP message not acted on is counted (Table 4.6, R15). -/
def ptpException (s : State) : State := bump Oid.timePtpExceptions 0 s

/-- Order of the best master clock comparison: priority1, class, accuracy, variance, priority2, identity (PRESUMED IEEE 1588 clause 9.3). -/
def ptpKey (p1 cls acc var p2 gm : Nat) : Nat :=
  ((((p1 * 256 + cls) * 256 + acc) * 65536 + var) * 256 + p2) * 2 ^ 64 + gm

/-- This device's own data set. -/
def ownPtpKey (s : State) : Nat :=
  let p := getObj s Oid.timePtpPort
  let mac := getObj s Oid.portMacAddr p
  ptpKey (getObj s Oid.timePtpPriority1) (getObj s Oid.timePtpClockClass) (Config.ptpQuality.toNat / 65536)
    (Config.ptpQuality.toNat % 65536) (getObj s Oid.timePtpPriority2) (bits mac 47 24 * 2 ^ 40 + 0xFFFE * 2 ^ 24 + bits mac 23 0)

/-- The best master after an Announce of data set `key`: a better one replaces it, and its own new data set does. -/
def bestMaster (key : Nat) (m : Option Nat) : Nat :=
  match m with
  | none => key
  | some m => if key % 2 ^ 64 = m % 2 ^ 64 || decide (key < m) then key else m

/-- An Announce (R131, R143, Table 4.3): the best master is followed, and its UTC offset taken while the timekeeper follows PTP; the Announce of a worse clock changes nothing. -/
def ptpAnnounce (key : Nat) (utc : Nat) (s : State) : State :=
  let role := getObj s Oid.timePtpRole
  if role = 2 then ptpException s
  else
    let best := bestMaster key s.time.ptpMaster
    if best ≠ key then s
    else if role = 1 || decide (key < ownPtpKey s) then
      let s := putObj Oid.timePtpState 0 9 { s with time := { s.time with ptpMaster := some key } }
      if getObj s Oid.timeSource = 1 then putInt Oid.timeUtcOffset 0 (toSigned 16 utc) s else s
    else putObj Oid.timePtpState 0 6 { s with time := { s.time with ptpMaster := none } }

/-- A master time t1 against the Sync's arrival t2 (R142): the offset is local minus source. -/
def ptpSyncDone (t1 t2 : Nat) (s : State) : State :=
  let s := { s with time := { s.time with ptpT1 := some t1, ptpT2 := some t2 } }
  let mean := toSigned 64 (getObj s Oid.timePtpMeanDelay) / 65536
  let asym := getInt s Oid.timePtpAsymmetry * 65536 / 1000
  ptpUpdate ((tUnits t2 : Int) - (tUnits t1 : Int) - mean - asym) s

/-- Correct a master time by the correction field. -/
def ptpCorrect (t : Time96) (c : BitVec 64) : Nat := ofUnits ((tUnits (Time96pack t) : Int) + c.toInt).toNat

/-- Bytes on port p of a PTP message of n bytes, headers and FCS with it. PRESUMED: the message lengths of IEEE 1588 and the header lengths of Ethernet, IPv4, IPv6 and UDP; Annex D adds two bytes. -/
def ptpBytes (s : State) (p n : Nat) : Nat :=
  max 64 (14 + (if (portTci s p).isSome then 4 else 0) + (if getObj s Oid.timePtpTransport = 1 then 42 else 20) + 8 + n + 4)

/-- Send a PTP message of n bytes as a firmware frame (R246). -/
def sendPtp (p n : Nat) (e : Emission) (s : State) : State := txFirmware p (ptpBytes s p n) e s

/-- A PTP message on a port (R142 to R144, Table 4.3). -/
def ptpMessage (port : Nat) (m : PtpMessage) (stamp : Nat) (s : State) : State :=
  if getObj s Oid.timePtpPort ≠ port || !ptpRuns s then ptpException s
  else if m.domain.toNat ≠ getObj s Oid.timePtpDomain then ptpException s
  else
    let slave := getObj s Oid.timePtpState = 9
    match m.body with
    | .sync two origin =>
      if !slave then ptpException s
      else if two then { s with time := { s.time with ptpT2 := some (ofUnits ((tUnits stamp : Int) - m.correction.toInt).toNat) } }
      else ptpSyncDone (ptpCorrect origin m.correction) stamp s
    | .followUp origin =>
      match s.time.ptpT2 with
      | some t2 => if slave then ptpSyncDone (ptpCorrect origin m.correction) t2 s else ptpException s
      | none => ptpException s
    | .delayResp receive =>
      match s.time.ptpT1, s.time.ptpT2, s.time.ptpT3 with
      | some t1, some t2, some t3 =>
        let t4 := (tUnits (Time96pack receive) : Int) - m.correction.toInt
        let mean := (((tUnits t2 : Int) - (tUnits t1 : Int)) + (t4 - (tUnits t3 : Int))) / 2
        if slave then putObj Oid.timePtpMeanDelay 0 (offsetQ32 mean) { s with time := { s.time with ptpT3 := none } }
        else ptpException s
      | _, _, _ => ptpException s
    | .delayReq =>
      if getObj s Oid.timePtpState = 6 then sendPtp port 54 (.ptpDelayResp port stamp) s else ptpException s
    | .announce gm p1 cls acc var p2 utc tlv =>
      ptpAnnounce (ptpKey p1.toNat cls.toNat acc.toNat var.toNat p2.toNat gm.toNat) ((tlv.getD utc).toNat) s
    | .management => ptpException s
    | .signaling => ptpException s
    | .unsupported => ptpException s

/-- A profile loads its values (R144). -/
def loadProfile (v : Nat) (s : State) : State :=
  if v = 0 then
    putInt Oid.timePtpLogDelayReq 0 0 (putObj Oid.timePtpAnnounceTimeout 0 3 (putInt Oid.timePtpLogAnnounce 0 1
      (putInt Oid.timePtpLogSync 0 0 (putObj Oid.timePtpDomain 0 0 s))))
  else
    putInt Oid.timePtpLogDelayReq 0 (-3) (putObj Oid.timePtpAnnounceTimeout 0 3 (putInt Oid.timePtpLogAnnounce 0 (-2)
      (putInt Oid.timePtpLogSync 0 (-3) (putObj Oid.timePtpDomain 0 127 s))))

/-- The PTP port state when a port is named: listening, or master when forced; disabled without one (Table 4.6). -/
def ptpPortState (s : State) : Nat :=
  if getObj s Oid.timePtpPort = 0xFFFF then 3 else if getObj s Oid.timePtpRole = 2 then 6 else 4

/-- A change of port or role restarts the PTP port. -/
def ptpRestart (s : State) : State :=
  let s := { s with time := { s.time with ptpMaster := none, ptpT1 := none, ptpT2 := none, ptpT3 := none } }
  putObj Oid.timePtpState 0 (ptpPortState s) s

/-! ### Rows -/

/-- PTP_MESSAGE (R142); a port that is not up receives none (R230). -/
def execPtpMessage (port : Port) (m : PtpMessage) (stamp : Time96) (s : State) : Host.Outcome State Fault Refusal :=
  if portUp s port.val then .next (ptpMessage port.val m (laneStamp (Time96pack stamp)) s) else .next s

/-- PTP_ANNOUNCE_TIMEOUT (R143): a slave without its master, or a listening port, has none to follow; under the BMCA the port is master from then on. -/
def execPtpAnnounceTimeout (s : State) : Host.Outcome State Fault Refusal :=
  let st := getObj s Oid.timePtpState
  if ptpRuns s && (st = 9 || st = 4) then
    let s := ptpRestart s
    .next (if getObj s Oid.timePtpRole = 0 then putObj Oid.timePtpState 0 6 s else s)
  else .next s

/-- PTP_MESSAGE_INTERVAL (R143, Table 4.3): the message departs at the time given, which it can do only from a port that is up and whose partner has not stopped priority 0 (R230, R246). -/
def execPtpMessageInterval (m : PtpSend) (departure : Time96) (s : State) : Host.Outcome State Fault Refusal :=
  let port := getObj s Oid.timePtpPort
  if !ptpRuns s || !portUp s port || isStopped s port 0 then .next s
  else
    let st := getObj s Oid.timePtpState
    let t := laneStamp (Time96pack departure)
    match m with
    | .sync =>
      if st ≠ 6 then .next s
      else if getObj s Oid.timePtpStepMode = 1 then
        .next (sendPtp port 44 (.ptpFollowUp port t) (sendPtp port 44 (.ptpSync port true t) s))
      else .next (sendPtp port 44 (.ptpSync port false t) s)
    | .announce =>
      if st ≠ 6 then .next s
      else .next (sendPtp port 64 (.ptpAnnounce port (getObj s Oid.timePtpDomain) (getObj s Oid.timePtpPriority1)
        (getObj s Oid.timePtpClockClass) (getObj s Oid.timePtpPriority2) (getObj s Oid.timeUtcOffset)) s)
    | .delayReq =>
      if st = 9 then .next (sendPtp port 44 (.ptpDelayReq port) { s with time := { s.time with ptpT3 := some t } }) else .next s

end Sys2Proof.Machine
end

