-- ==== Sys2Proof/Machine/Effects.lean ====
section
/-! DEFINITION. What an accepted write of each object does (R118, R122): the value is stored, and the block the object belongs to acts on it. A direct write, the last block of a transfer and a pitch all come here. -/

namespace Sys2Proof.Machine

open Sys2Proof

/-! ### Sticky sets (R83) -/

/-- The defined and sticky bits of a BITSET. -/
def stickyBits (r : ObjRow) : Nat := match r.limit with | .bits _ m => m | _ => 0

/-- A write of a BITSET with sticky bits clears the bits written as 1 and leaves the rest, and those that hardware has set in this tick (R83). -/
def stickyWrite (id idx v mask : Nat) (s : State) : State :=
  let old := getObj s id idx
  let fresh := tabGet 0 (objKey id idx) s.fresh
  putObj id idx (old - (old &&& (v &&& mask) &&& (2 ^ objBits id - 1 - fresh))) s

/-! ### Outcomes the write does not decide -/

/-- The PCs of a list whose retraining fails (R342): those named, or, for a plain write, one free choice for each. -/
def retrainFails : Option (List Nat) → List Nat → State → List Nat × State
  | some l, _, s => (l, s)
  | none, [], s => ([], s)
  | none, p :: ps, s =>
    let c := takeChoice 2 s
    let r := retrainFails none ps c.2
    (if c.1 = 0 then p :: r.1 else r.1, r.2)

/-! ### Flash operations of key objects (Table 3.9) -/

/-- The flash operation that the key of `dict.persist_clear` asks for fails: a free choice (Table 3.9, FLASH). -/
def eraseFails (s : State) : Bool := (takeChoice 2 s).1 = 1

/-- The status of a write whose effect is a flash operation of a key object: FLASH where the operation has failed, as the state after it shows (Table 3.9). -/
def flashStatus (id : Nat) (before after : State) : Nat :=
  if id = Oid.modesFwCommit then (if getObj after Oid.modesFwUpdateStatus = 5 then St.flash else St.ok)
  else if id = Oid.dictPersistClear then (if eraseFails before then St.flash else St.ok)
  else St.ok

/-! ### Group by group -/

/-- Modes (02_modes). A staged or direct `modes.request` is taken by its own operations. -/
def effModes (id n : Nat) (b : List Byte) (s : State) : State :=
  if id = Oid.modesRequest then (match modeOf n with | some m => takeRequest m s | none => s)
  else if id = Oid.modesLanesWarm then relaneAll (putObj id 0 n s)
  else if id = Oid.modesReset then { s with modes := { s.modes with warmWait := some 3 } }
  else if id = Oid.modesShutdown then startShutdown s
  else if id = Oid.modesWakeAt then wakeAtWritten n s
  else if id = Oid.modesFwImage then storeImage b s
  else if id = Oid.modesFwCommit then commitImage s
  else putObj id 0 n s

/-- Sessions opened with a key slot close when the slot is written (R113), and their subscriptions and transfers with them (R95, R97). -/
def closeSessions (p : Session → Bool) (s : State) : State :=
  let gone := (s.dict.sessions.filter p).map (fun x => x.num)
  { s with dict := { s.dict with
      sessions := s.dict.sessions.filter (fun x => !p x)
      subs := s.dict.subs.filter (fun x => decide (x.session ∉ gone))
      transfers := s.dict.transfers.filter (fun t => match t.who with
        | .mgmt n => decide (n ∉ gone)
        | .cascade n => decide (n ∉ gone)
        | _ => true) } }

/-- Dictionary service (03_dictionary). -/
def effDict (id idx n : Nat) (b : List Byte) (s : State) : State :=
  if id = Oid.dictKey then closeSessions (fun x => x.slot = idx) (putBlob id idx b s)
  else if id = Oid.dictKeyClass then closeSessions (fun x => x.slot = idx) (putObj id idx n s)
  else if id = Oid.dictPersistClear then
    let t := (takeChoice 2 s).2
    if eraseFails s then t else { t with dict := { t.dict with flash := { t.dict.flash with clearPending := true } } }
  else putObj id idx n s

/-- A quad joins or leaves the cascade: its mode in force changes (R191). -/
def requad (before after : List Nat) (s : State) : State :=
  (List.range 16).foldl (fun s q => if decide (q ∈ before) != decide (q ∈ after) then quadRestart q s else s) s

/-- `time.bh_upstream` written (R140, R149, R191). -/
def setUpstream (v : Nat) (s : State) : State :=
  let old := getObj s Oid.timeBhUpstream
  let before := cascadeQuads s
  let s := putObj Oid.timeBhUpstream 0 v s
  let s := if v = old then s else putObj Oid.timeBhLevel 0 0xFF (setBhLocked false { s with time := { s.time with
    beaconOff := [], beaconRun := 0, beaconMean := 0, parentLock := false, holding := false, cutOff := false } })
  let was := getObj s Oid.timeSource
  let s := if v < 16 then setSource 3 s else if was = 3 then setSource 0 s else s
  let s := if getObj s Oid.timeSource = was then s else startStore (.object (objKey Oid.timeSource 0)) s
  requad before (cascadeQuads s) s

/-- Time (04_timekeeper). -/
def effTime (id idx n : Nat) (s : State) : State :=
  if id = Oid.timeIncrement then setIncrement n s
  else if id = Oid.timeStep then addStep (toSigned 64 n) s
  else if id = Oid.timeSet then setTime n s
  else if id = Oid.timeSource then setSource n s
  else if id = Oid.timePpsOutPolarity then ppsPolarityWritten n s
  else if id = Oid.timePtpProfile then loadProfile n (putObj id 0 n s)
  else if id = Oid.timePtpPort || id = Oid.timePtpRole then ptpRestart (putObj id 0 n s)
  else if id = Oid.timeBhUpstream then setUpstream n s
  else if id = Oid.timeBhDownstream then
    let before := cascadeQuads s
    let s := putObj id 0 n s
    requad before (cascadeQuads s) s
  else if id = Oid.timeCmpMode then armCompare idx (putObj id idx n s)
  else if id = Oid.timeCmpTarget || id = Oid.timeCmpShort then
    let armed := tabGet 0 idx s.time.cmpArmed != 0
    let s := putObj id idx n (evalCompare idx s)
    if armed then armCompare idx s else s
  else putObj id idx n s

/-- Snapshots (04_timekeeper). -/
def effCounters (id n : Nat) (s : State) : State :=
  if id = Oid.countersSnapshotAt then armSnapshot n s
  else if id = Oid.countersSnapshotNow then { s with time := { s.time with snapNow := true } }
  else putObj id 0 n s

/-- Channels of a 64-bit fire mask written at index i (R169). -/
def maskedChans (i n : Nat) : List Nat := maskChans n (64 * i) 64

/-- Events (05_event_fabric); `f` is who fires. -/
def effEvents (id idx n : Nat) (f : Firer) (s : State) : State :=
  if id = Oid.eventsFire then softFire idx (some n) f s
  else if id = Oid.eventsFireMask then (maskedChans idx n).foldl (fun s c => softFire c none f s) s
  else if id = Oid.eventsChConsumer || id = Oid.eventsChEnable then dropPending idx (putFab id idx n s)
  else if Oid.eventsGristLut ≤ id ∧ id ≤ Oid.eventsGristQ then gristWritten id idx n s
  else putFab id idx n s

/-- Quads and lanes (06_lanes): the object's ID in group 0x10, and the quad. -/
def effQuad (id q idx n : Nat) (s : State) : State :=
  let full := quadId id q
  let lane := 4 * q + idx
  if id = Oid.quadMode then setQuadMode q n s
  else if id = Oid.quadDiagRate then
    let s := putObj full 0 n s
    if quadModeActive s q = 6 then quadRestart q s else s
  else if id = Oid.lanePrbsInject then prbsInject lane s
  else if id = Oid.lanePrbsClear then prbsClear lane s
  else if id = Oid.laneReinstate then reinstateLane lane s
  else if Oid.laneTxPre ≤ id ∧ id ≤ Oid.laneEnable then laneConfigured lane (putObj full idx n s)
  else if id = Oid.laneLoopback || id = Oid.lanePrbsGen || id = Oid.lanePrbsChk || id = Oid.lanePrbsInvert then
    testWritten lane (putObj full idx n s)
  else putObj full idx n s

/-- Ports (07_ports_flows). -/
def effPort (id p n : Nat) (s : State) : State :=
  if id = Oid.portReinstate then reinstatePort p s
  else if id = Oid.portFec then
    let old := fecActive s p
    let s := putObj id p n s
    if fecActive s p = old then s else restartAlignment p false s
  else putObj id p n s

/-- Flows (07_ports_flows): a receive flow that is disabled closes its frames (Table 9.3), a transmit flow ends (R49). -/
def effFlow (id f n : Nat) (s : State) : State :=
  if id = Oid.flowRxType then putObj id f n (if n = 0 then stopFlow f s else s)
  else if id = Oid.flowTxType then txTypeWritten f (putObj id f n s)
  else putObj id f n s

/-- The underbacks (08_underback): watermarks and the peak are judged anew (R271, R272); in a bonded quad only lane 4q acts (R278). -/
def effUnderback (id idx n : Nat) (s : State) : State :=
  if id = Oid.underbackFlush then (if govLane s idx = idx then ubFlush idx s else s)
  else if (id = Oid.underbackHigh || id = Oid.underbackLow || id = Oid.underbackPeak) && govLane s idx = idx then ubClock idx (putObj id idx n s)
  else putObj id idx n s

/-- The lauter engine and the casks (09_lauter_casks). -/
def effLauter (id idx n : Nat) (s : State) : State :=
  if id = Oid.lauterStampClear then clearStamps idx s
  else if id = Oid.lauterStagingHigh || id = Oid.lauterStagingLow then updateBoil (putObj id idx n s)
  else if id = Oid.casksGlobalHigh || id = Oid.casksGlobalLow then updateGlobal (putObj id idx n s)
  else if id = Oid.casksFlowQuota || id = Oid.casksFlowHigh || id = Oid.casksFlowLow then updateFlowLevel idx (putObj id idx n s)
  else putObj id idx n s

/-- The cellar (10_cellar). -/
def effCellar (id idx n : Nat) (fails : Option (List Nat)) (s : State) : State :=
  if id = Oid.cellarReinstate then
    let r := retrainFails fails [idx] s
    pcRetrain idx (decide (idx ∉ r.1)) r.2
  else if id = Oid.cellarTestStart then startTest s
  else putObj id idx n s

/-- The racking engine (11_racking). -/
def effRacking (id idx n : Nat) (s : State) : State :=
  if id = Oid.rackingResume then resumeRacking s
  else if id = Oid.rackingRingEnable then (if n = 1 then (if ringEnableOk s idx then enableRing idx s else s) else disableRing idx s)
  else if id = Oid.rackingCqEnable then (if n = 1 then enableCq idx s else disableCq idx s)
  else if id = Oid.rackingExcEnable then (if n = 1 then (if excEnableOk s then enableExc s else s) else disableExc s)
  else if id = Oid.rackingRingHigh || id = Oid.rackingRingLow then updateRing idx (putObj id idx n s)
  else putObj id idx n s

/-- The tap and the pattern engine (12_tap). -/
def effTap (id idx n : Nat) (b : List Byte) (s : State) : State :=
  if id = Oid.tapHostEnable then (if n = 1 then (if tapEnableOk s idx then tapEnable idx s else s) else tapDisable idx s)
  else if id = Oid.tapRawFrame then sendFrame idx b s
  else putObj id idx n s

/-- The hydrometer (13_hydrometer): a set, or the set of a flow, is applied anew (R417). -/
def effHydro (id idx n : Nat) (s : State) : State :=
  if id = Oid.hydroFlowSet then
    let s := putObj id idx n s
    putFlow idx { flowOf s idx with alignFresh := true } s
  else if id = Oid.hydroAlign || id = Oid.hydroFOffset || id = Oid.hydroRateNum || id = Oid.hydroRateDen then restartAlign idx (putObj id idx n s)
  else putObj id idx n s

/-- Position (14_position). -/
def effPos (id idx n : Nat) (b : List Byte) (s : State) : State :=
  if id = Oid.posEnable then encEnableWritten idx n s
  else if id = Oid.posInterp || id = Oid.posInvert then encGeometryWritten id idx n s
  else if id = Oid.posPosition then positionWritten idx (toSigned 64 n) s
  else if id = Oid.posQueryAt then queryAt idx n s
  else if id = Oid.posReinstate then encReinstate idx s
  else if id = Oid.posCmpMode then cmpModeWritten idx n s
  else if id = Oid.posCmpTarget || id = Oid.posCmpPeriod || id = Oid.posCmpSense then cmpTargetWritten id idx n s
  else if id = Oid.posList then listWritten b s
  else putObj id idx n s

/-- Write a head's user area in pages of 16 bytes (R468, Table 15.6). DESIGN CHOICE (entry 136): with no head on the bus the write goes out all the same, and the object keeps the value. -/
def headUserPages (n : Nat) : Nat → List Byte → State → State
  | 0, _, s => s
  | k + 1, b, s => headUserPages n k (b.drop 16) (emit (.headWrite n (0xA0 + (96 - b.length)) (b.take 16)) s)

/-- Lamps (15_lamp_heads). -/
def effLamp (id idx n : Nat) (b : List Byte) (s : State) : State :=
  if id = Oid.lampReinstate then lampReinstate idx s
  else if id = Oid.lampHeadUser then
    headUserPages idx 6 b (putBlob id idx b s)
  else putFab id idx n s

/-- The host link (16_host_link). -/
def effHost (id idx n : Nat) (s : State) : State :=
  if id = Oid.hostlinkWinAttr then winAttrWritten idx n s else putObj id idx n s

/-- Faults (17_faults_power). -/
def effFaults (id n : Nat) (fails : Option (List Nat)) (s : State) : State :=
  if id = Oid.faultsReinstate then
    let pcs := if n / 4096 = 5 && isRetired s n then [n % 4096] else []
    let r := retrainFails fails pcs s
    reinstateRes n (decide (n % 4096 ∉ r.1) || n / 4096 != 5) r.2
  else if id = Oid.faultsListClear then
    let pcs := (s.flt.retired.filter (fun r => r.res / 4096 = 5)).map (fun r => r.res % 4096)
    let r := retrainFails fails pcs s
    clearList r.1 r.2
  else if id = Oid.faultsRetryLimit || id = Oid.faultsRetryWindow then putFab id 0 n s
  else putObj id 0 n s

/-- What a write of the two self-test objects starts (R539). -/
def startSelftest (id : Nat) (s : State) : State := putObj id 0 1 s

/-- The effect of an accepted write on the block the object belongs to. -/
def effect (id idx : Nat) (v : PVal) (f : Firer) (fails : Option (List Nat)) (s : State) : State :=
  let n := valNum v
  let b := valBytes v
  let g := id / 65536
  if isQuadGroup g then effQuad (id - (g - 16) * 65536) (g - 16) idx n s
  else match g with
    | 0x01 => effModes id n b s
    | 0x02 => effDict id idx n b s
    | 0x08 => effTime id idx n s
    | 0x0C => effEvents id idx n f s
    | 0x20 => effPort id idx n s
    | 0x24 => effFlow id idx n s
    | 0x28 => effUnderback id idx n s
    | 0x30 => effLauter id idx n s
    | 0x34 => effLauter id idx n s
    | 0x38 => effCellar id idx n fails s
    | 0x40 => effRacking id idx n s
    | 0x48 => effTap id idx n b s
    | 0x4C => if id = Oid.patternSelftest then startSelftest id s else putObj id idx n s
    | 0x50 => if id = Oid.hydroSelftest then startSelftest id s else effHydro id idx n s
    | 0x58 => effPos id idx n b s
    | 0x60 => effLamp id idx n b s
    | 0x68 => effHost id idx n s
    | 0x70 => effFaults id n fails s
    | 0x78 => effCounters id n s
    | _ => putObj id idx n s

/-- The new value of a masked write (R84); on sticky bits only the masked ones are written. -/
def maskedValue (old v mask sticky : Nat) : Nat := if sticky = 0 then (old - (old &&& mask)) ||| (v &&& mask) else v &&& mask

/-- Carry out an accepted write, and start its persistent store (R83, R89). -/
def applyWrite (id idx : Nat) (v : PVal) (f : Firer) (fails : Option (List Nat)) (s : State) : State :=
  match objRow? id with
  | none => s
  | some r =>
    let m := stickyBits r
    let s := if m ≠ 0 then stickyWrite id idx (valNum v) m s else effect id idx v f fails s
    if r.access.persist then startStore (.object (objKey id idx)) s else s

end Sys2Proof.Machine
end

