-- ==== Sys2Proof/Machine/Reads.lean ====
section
/-! DEFINITION. What a read of each object returns (R79 to R81): the stored value, or, for an object that reports present state, the state it reports. -/

namespace Sys2Proof.Machine

open Sys2Proof

/-- ASCII text of an identity object, padded with 0x00 (Table 0.6). -/
def asciiBytes (n : Nat) (t : String) : List Byte := padTo n (t.toList.map (fun c => BitVec.ofNat 8 c.toNat))

/-- `modes.transition`. -/
def transitionCode (s : State) : Nat :=
  if s.modes.pendingReq.isSome then 3 else if s.modes.draining then 2 else if inTransition s then 1 else 0

/-- `modes.domains_running` (Tables 1.3 and 1.4), as a dictionary request finds it: the control domain runs to serve it. DEDUCED (entry 137): a wake starts the core, cellar and PCIe core domains at its first step, before Ready is reached (02_modes, worked example of the wake). -/
def domainsRunning (s : State) : Nat :=
  if s.modes.current = .cold then 0
  else
    let wakes : Bool := s.modes.current = .dormant && s.modes.target = some .ready
    let cellar := wakes || cellarRuns s.modes.current || (s.modes.current = .boot && (s.modes.step = .firmwareStarted || s.modes.step = .trained))
    1 + 2 * b2n (wakes || coreRuns s) + 4 * b2n cellar + 8 * b2n (wakes || !s.link.l1) + 16 * b2n (s.modes.current != .halt)
      + 32 * b2n ((List.range 16).any (fun q => pllLocked s q))

/-- The code of a plan state (Table 3.8). -/
def planCode : PlanState → Nat
  | .empty => 0 | .opened => 1 | .sealed => 2 | .scheduled => 3 | .active => 4

/-- The plan of an element of the plan objects. -/
def planAt (s : State) (e : Nat) : Plan := if e = 0 then s.dict.planA else s.dict.planB

/-- Bytes of a value as a plan counts them (R119). -/
def valBytesOf (id : Nat) (v : PVal) : Nat :=
  match v with
  | .bytes b => b.length
  | .num _ => objBits id / 8

/-- Bytes of a plan's values. -/
def planBytes (p : Plan) : Nat := (p.entries.map (fun e => valBytesOf e.id e.value)).sum

/-- `racking.state` (Table 11.10, R382). -/
def rackingState (s : State) : Nat :=
  if s.rk.stopped then 3
  else match s.modes.current with
    | .limp => 4
    | .burst => 2
    | .ready => 1
    | .capture => 1
    | .analyse => 1
    | .replay => 1
    | _ => 0

/-- `racking.ring_state`. -/
def ringState (s : State) (r : Nat) : Nat :=
  let x := ringOf s r
  if x.disabling then 6
  else if ringFaultOf s r != 0 then 4
  else if !x.enabled then 0
  else if s.rk.stopped then 5
  else if (ringHead s r).isNone then 1
  else if countDiff x.post x.assigned = 0 then 2
  else if cqFree (cqOf s x.cfg.cq) = 0 then 3
  else 1

/-- `racking.cq_state`. -/
def cqState (s : State) (c : Nat) : Nat :=
  let q := cqOf s c
  if q.faulted then 3 else if !q.enabled then 0 else if s.rk.stopped then 4 else if countDiff q.tail q.head = q.entries then 2 else 1

/-- `racking.exc_state`. -/
def excState (s : State) : Nat :=
  let e := s.rk.exc
  if e.faulted then 3 else if !e.enabled then 0 else if s.rk.stopped then 4 else if countDiff e.tail e.head = e.entries then 2 else 1

/-- `port.status` (R230, R83): bit 5 is stored, the rest is present state; an index that names no port reads 0. -/
def portStatus (s : State) (p : Nat) : Nat :=
  let x := portX s p
  if portExists s p then
    getObj s Oid.portStatus p / 32 % 2 * 32 + 16 * b2n x.remoteF + 8 * b2n x.localF + 4 * b2n x.hiBer
      + 2 * b2n (x.aligned && fecActive s p != 0) + b2n (portUp s p)
  else 0

/-- `port.pause_state`. -/
def pauseState (s : State) (p : Nat) : Nat :=
  let x := portX s p
  x.held % 256 * 256 + ((List.range 8).map (fun k => if tabGet 0 k x.stopped != 0 then 2 ^ k else 0)).sum

/-- `cellar.pc_state`: a PC in service follows HBM's state (Table 10.3). -/
def pcState (s : State) (p : Nat) : Nat :=
  let v := getObj s Oid.cellarPcState p
  if v = 0 || v = 1 || v = 5 then v
  else match s.modes.hbm with
    | .poweredDown => 4
    | .selfRefresh => 3
    | .running => v

/-- Objects of a quad's group, by the ID in group 0x10. -/
def liveQuad (s : State) (id q idx : Nat) : Nat :=
  if id = Oid.quadModeActive then quadModeActive s q
  else if id = Oid.quadRefPresent then refPresent s q
  else if id = Oid.laneState then laneState s (4 * q + idx)
  else if id = Oid.laneRetired then b2n (laneRetired s (4 * q + idx))
  else getObj s (quadId id q) idx

/-- Objects of groups 01 to 0C and 7C that report present state. -/
def liveLow (s : State) (id idx : Nat) : Nat :=
  if id = Oid.modesDomainsRunning then domainsRunning s
  else if id = Oid.modesCurrent then modeCode s.modes.current
  else if id = Oid.modesTransition then transitionCode s
  else if id = Oid.dictSessionsOpen then s.dict.sessions.length
  else if id = Oid.dictSubsActive then s.dict.subs.length
  else if id = Oid.dictPersistWrites then s.dict.flash.writes % 2 ^ 64
  else if id = Oid.dictPersistPending then b2n (!s.dict.waiting.isEmpty)
  else if id = Oid.timeBhLevel then bhLevel s
  else if id = Oid.timeNow then now s
  else if id = Oid.timeShortNow then shortNow s
  else if id = Oid.eventsTrigInLevel then b2n (tabGet ({} : TrigIn) idx s.fab.trigIn).level
  else if id = Oid.eventsTriggersScheduled then s.fab.sched.length
  else if id = Oid.plansState || id = Oid.plansState + 1 then planCode (planAt s (id - Oid.plansState)).state
  else if id = Oid.plansEntries || id = Oid.plansEntries + 1 then (planAt s (id - Oid.plansEntries)).entries.length
  else if id = Oid.plansBytes || id = Oid.plansBytes + 1 then planBytes (planAt s (id - Oid.plansBytes))
  else getObj s id idx

/-- The counters and fault objects of a port, which read 0 where an index names none (R227): 20.020 to 20.032. -/
def isPortCounter (id : Nat) : Bool := Oid.portRxFrames ≤ id && id < Oid.portReinstate

/-- The underback objects indexed by lane, which read 0 on the lanes that a bonded quad's first lane governs (R278): 28.000 to 28.01B. -/
def isLaneUnderback (id : Nat) : Bool := Oid.underbackOccupancy ≤ id && id ≤ Oid.underbackParityErrors

/-- Objects of the data path that report present state (groups 20 to 48). -/
def liveData (s : State) (id idx : Nat) : Nat :=
  if id = Oid.portStatus then portStatus s idx
  else if (isPortCounter id || id = Oid.portPauseState) && !portExists s idx then 0
  else if id = Oid.portPauseState then pauseState s idx
  else if id = Oid.portRetired then b2n (isRetired s (resPort idx))
  else if id = Oid.portFec then fecStored s idx
  else if isLaneUnderback id && govLane s idx ≠ idx then 0
  else if id = Oid.underbackOccupancy then ubOccupancy s idx
  else if id = Oid.underbackEmpty then b2n (ubOf s idx).chain.isEmpty
  else if id = Oid.underbackMarkerHeld then b2n (ubOf s idx).marker.isSome
  else if id = Oid.lauterStagingLevel then regionBytes (regionOf s idx) / 1024
  else if id = Oid.lauterPlacementsInFlight then s.lau.flight.length
  else if id = Oid.lauterOpenFrames then (openFrames s idx).length
  else if id = Oid.casksPagesFree then poolPages s - pagesHeld s
  else if id = Oid.casksPagesReserved then shownLevel s - pagesHeld s
  else if id = Oid.casksPagesHeld then pagesHeld s
  else if id = Oid.casksLive then (s.lau.released.filter (fun r => (caskOf s r.1).isNone)).length + (liveCasks s).length
  else if id = Oid.casksFlowLevel then shownFlowLevel s idx
  else if id = Oid.casksCaskState then ((shownCask s idx).map (fun c => c.state)).getD 0
  else if id = Oid.casksCaskFlow then ((shownCask s idx).map (fun c => c.flow)).getD 0
  else if id = Oid.casksCaskSeq then ((shownCask s idx).map (fun c => c.seq)).getD 0
  else if id = Oid.casksCaskPages then ((shownCask s idx).map (fun c => c.pages.length)).getD 0
  else if id = Oid.cellarPcState then pcState s idx
  else if id = Oid.rackingState then rackingState s
  else if id = Oid.rackingBacklogPages then backlogPages s
  else if id = Oid.rackingRingLevel then ringLevel s idx
  else if id = Oid.rackingRingState then ringState s idx
  else if id = Oid.rackingCqState then cqState s idx
  else if id = Oid.rackingExcState then excState s
  else if id = Oid.tapState then tapStateOf s idx
  else if id = Oid.tapLevelBytes then tapLevel (txOf s idx)
  else if id = Oid.tapFrameNumber then (txOf s idx).k % 2 ^ 32
  else getObj s id idx

/-- The interrupt form in force: 0 none, 1 INTx, 2 MSI, 3 MSI-X (R498). -/
def intMode (s : State) : Nat :=
  match s.link.form with
  | .none => 0
  | .intx => if s.link.intDisable then 0 else 1
  | .msi _ => 2
  | .msix => 3

/-- Objects of groups 58 to 70 that report present state. -/
def liveHigh (s : State) (id idx : Nat) : Nat :=
  if id = Oid.posQuadLag then quadLag s idx
  else if id = Oid.lampState then lampState s idx
  else if id = Oid.lampRatedLife then lampLife s idx
  else if id = Oid.lampRetired then b2n (isRetired s (resLamp idx))
  else if id = Oid.hostlinkTagsAvailable then s.link.tagPool - s.link.tags.length - s.link.quar.length
  else if id = Oid.hostlinkTagsInFlight then s.link.tags.length
  else if id = Oid.hostlinkTagsQuarantined then s.link.quar.length
  else if id = Oid.hostlinkStopped then hostState s
  else if id = Oid.hostlinkIntMode then intMode s
  else if id = Oid.hostlinkMsiVectors then (match s.link.form with | .msi n => n | _ => 0)
  else if id = Oid.faultsRetiredCount then s.flt.retired.length
  else getObj s id idx

/-- The number an object index reads. -/
def liveNum (s : State) (id idx : Nat) : Nat :=
  let g := id / 65536
  if isQuadGroup g then liveQuad s (id - (g - 16) * 65536) (g - 16) idx
  else if g < 0x10 || g = 0x7C then liveLow s id idx
  else if g < 0x50 then liveData s id idx
  else liveHigh s id idx

/-- One entry of `faults.retired_list` (R508). -/
def retiredEntry (r : Retired) : List Byte :=
  leBytes 2 r.res ++ leBytes 1 r.cause ++ leBytes 1 r.reason ++ leBytes 1 r.spare ++ leBytes 3 0
    ++ leBytes 4 (tSec r.time % 2 ^ 32) ++ leBytes 4 (tNs r.time)

/-- Entries of `pos.list` from entry i on, n of them (R456). -/
def listFrom (l : List (Nat × Nat)) : Nat → Nat → List Byte
  | 0, _ => []
  | n + 1, i => leBytes 6 (tabGet 0 i l) ++ leBytes 2 0 ++ listFrom l n (i + 1)

/-- `pos.list`: its 65,536 entries, those not listed 0 (R456). -/
def listBytes (s : State) : List Byte := listFrom s.pos.list 65536 0

/-- The bytes a STRING or BLOB index reads. -/
def liveBytes (s : State) (id idx : Nat) : List Byte :=
  if id = Oid.identityVendor then asciiBytes 32 "Holtolado Microsystems"
  else if id = Oid.identityPart then asciiBytes 16 "EVL-4144"
  else if id = Oid.identitySerial then (List.range 24).map Config.serial
  else if id = Oid.faultsRetiredList then s.flt.retired.flatMap retiredEntry
  else if id = Oid.faultsLog then s.flt.log.flatten
  else if id = Oid.posList then listBytes s
  else getBlob s id idx

/-- What a read of an object index returns. -/
def liveValue (s : State) (id idx : Nat) : PVal :=
  match objRow? id with
  | some r => if isBytes r.type then .bytes (liveBytes s id idx) else .num (liveNum s id idx)
  | none => .num 0

end Sys2Proof.Machine
end

