-- ==== Sys2Proof/Machine/Plans.lean ====
section
/-! DEFINITION. Plans (03_dictionary, R118 to R127): staging, seal, save and clear, the pitch from its acceptance to the tick it takes place, and its late, timed-out and refused forms. -/

namespace Sys2Proof.Machine

open Sys2Proof

/-- The plan of a name. -/
def planOf (s : State) (p : PlanId) : Plan := match p with | .a => s.dict.planA | .b => s.dict.planB

/-- Give a plan its contents. -/
def putPlan (p : PlanId) (x : Plan) (s : State) : State :=
  match p with
  | .a => { s with dict := { s.dict with planA := x } }
  | .b => { s with dict := { s.dict with planB := x } }

/-- Element of a plan in the plan objects: 0 for A, 1 for B. -/
def planElem : PlanId → Nat
  | .a => 0
  | .b => 1

/-- The plan of an element. -/
def planNamed (e : Nat) : PlanId := if e = 0 then .a else .b

/-- The other plan. -/
def otherPlan : PlanId → PlanId
  | .a => .b
  | .b => .a

/-- Put a plan into a state, its values kept. -/
def setPlanState (p : PlanId) (st : PlanState) (s : State) : State := putPlan p { planOf s p with state := st } s

/-! ### Staging (R119) -/

/-- An object that cannot be staged. -/
def notStageable (r : ObjRow) : Bool :=
  r.access.right = .ro || r.access.right = .wo || r.id / 65536 = 0x00 || r.id / 65536 = 0x02 || r.id / 65536 = 0x7C

/-- The staged value of an object index. -/
def stagedValue (p : Plan) (id idx : Nat) : Option PVal :=
  (p.entries.find? (fun e => e.id = id && e.index = idx)).map (fun e => e.value)

/-- A plan with a value staged; staging an object index again replaces its entry. -/
def stagedPlan (p : Plan) (e : PlanEntry) : Plan :=
  { state := .opened
    entries := if p.entries.any (fun x => x.id = e.id && x.index = e.index)
      then p.entries.map (fun x => if x.id = e.id && x.index = e.index then e else x)
      else p.entries ++ [e] }

/-- The status of staging a value. -/
def stageStatus (r : ObjRow) (p : Plan) (e : PlanEntry) : Nat :=
  if notStageable r then St.notStageable
  else if p.state != .empty && p.state != .opened then St.planState
  else if decide (8192 < (stagedPlan p e).entries.length) || decide (262144 < planBytes (stagedPlan p e)) then St.planFull
  else St.ok

/-! ### Seal, clear, save (R120) -/

/-- Seal an open plan, or record the first failure. -/
def sealPlan (p : PlanId) (s : State) : Nat × State :=
  if (planOf s p).state != .opened then (St.planState, s)
  else match sealFailure (planOf s p).entries s with
  | none => (St.ok, setPlanState p .sealed s)
  | some (o, c) =>
    (St.consistency, putObj (Oid.plansFailCode + planElem p) 0 c (putObj (Oid.plansFailObject + planElem p) 0 o s))

/-- Empty a plan that is not scheduled or active. -/
def clearPlan (p : PlanId) (s : State) : Nat × State :=
  if (planOf s p).state = .scheduled || (planOf s p).state = .active then (St.planState, s) else (St.ok, putPlan p {} s)

/-- A store of this plan. -/
def isPlanStore (p : PlanId) : StoreItem → Bool
  | .plan q _ => p = q
  | _ => false

/-- Start the store of a sealed, scheduled or active plan; a later save of the plan replaces one outstanding (R89). -/
def savePlan (p : PlanId) (s : State) : Nat × State :=
  let x := planOf s p
  if x.state = .empty || x.state = .opened then (St.planState, s)
  else if 131072 < planBytes x then (St.planFull, s)
  else
    (St.ok, startStore (.plan p x.entries)
      { s with dict := { s.dict with waiting := s.dict.waiting.filter (fun i => !isPlanStore p i) } })

/-- A write of 1 to `plans.seal`, `plans.clear` or `plans.save`; none for any other object. -/
def planWrite (id : Nat) (s : State) : Option (Nat × State) :=
  let e := id % 16
  if id / 16 * 16 = Oid.plansSeal then some (sealPlan (planNamed e) s)
  else if id / 16 * 16 = Oid.plansClear then some (clearPlan (planNamed e) s)
  else if id / 16 * 16 = Oid.plansSave then some (savePlan (planNamed e) s)
  else none

/-! ### The pitch (R121 to R124) -/

/-- A plan that holds a value only a secure initiator may set (R121): of a SEC object, or code 11 of `modes.request`. -/
def holdsSecure (p : Plan) : Bool := p.entries.any (fun e => e.secure)

/-- A plan that holds an RWD value (R124). -/
def holdsRwd (p : Plan) : Bool :=
  p.entries.any (fun e => match objRow? e.id with | some r => r.access.right = .rwd | none => false)

/-- Accept a PITCH: the plan is scheduled and arming starts. -/
def schedulePitch (p : Pitch) (s : State) : State :=
  setPlanState p.plan .scheduled { s with dict := { s.dict with pitch := some p } }

/-- The scheduled pitch ends without taking place: its plan is sealed again. -/
def unschedule (p : Pitch) (s : State) : State :=
  setPlanState p.plan .sealed { s with dict := { s.dict with pitch := none } }

/-- Arming has ended: a time already passed makes the pitch late (R124). -/
def armPitch (p : Pitch) (s : State) : State :=
  let q := { p with armed := true, late := p.when_ = 2 && decide (p.time < now s), armedAt := s.time.ticks }
  { s with dict := { s.dict with pitch := some q } }

/-- Pairs of limits that one level is held against: both new values are in force before the level is looked at. -/
def isLevelLimit (id : Nat) : Bool :=
  decide (id ∈ [Oid.underbackHigh, Oid.underbackLow, Oid.lauterStagingHigh, Oid.lauterStagingLow, Oid.casksGlobalHigh, Oid.casksGlobalLow,
    Oid.casksFlowQuota, Oid.casksFlowHigh, Oid.casksFlowLow, Oid.rackingRingHigh, Oid.rackingRingLow])

/-- Objects whose effect rests on others of their unit: enables and compare modes, which find the staged values of the others in place. -/
def takesAfter (id : Nat) : Bool :=
  decide (id ∈ [Oid.rackingRingEnable, Oid.rackingCqEnable, Oid.rackingExcEnable, Oid.tapHostEnable, Oid.timeCmpMode, Oid.posCmpMode,
    Oid.posEnable, Oid.hostlinkWinAttr, Oid.timeSource, Oid.flowRxType, Oid.flowTxType, Oid.eventsTrigOutMode, Oid.modesWakeAt, Oid.hydroFlowSet])

/-- The mode of a compare unit, whose arming takes the object that is given. -/
def cmpModeOf (id : Nat) : Option Nat :=
  if id = Oid.timeCmpTarget || id = Oid.timeCmpShort then some Oid.timeCmpMode
  else if id = Oid.posCmpTarget || id = Oid.posCmpPeriod || id = Oid.posCmpSense then some Oid.posCmpMode
  else none

/-- The plan arms the compare unit of an entry anew, with the value that the entry gives. -/
def armedAnew (es : List PlanEntry) (e : PlanEntry) : Bool :=
  match cmpModeOf e.id with
  | some m => es.any (fun x => x.id = m && x.index = e.index)
  | none => false

/-- A staged value put in its place, and no more. -/
def putEntry (e : PlanEntry) (s : State) : State :=
  match e.value with
  | .num n => putObj e.id e.index n s
  | .bytes b => putBlob e.id e.index b s

/-- A staged value goes live. -/
def applyEntry (e : PlanEntry) (s : State) : State := applyWrite e.id e.index e.value .firmware none s

/-- Every staged value goes live at once, `modes.request` apart (R122): limits of a level and the values that an arming takes stand before any effect, and enables and modes find every other value in place. -/
def applyEntries (es : List PlanEntry) (s : State) : State :=
  let es := es.filter (fun e => e.id != Oid.modesRequest)
  let s := (es.filter (fun e => isLevelLimit e.id || armedAnew es e)).foldl (fun s e => putEntry e s) s
  let s := (es.filter (fun e => !takesAfter e.id && !armedAnew es e)).foldl (fun s e => applyEntry e s) s
  (es.filter (fun e => takesAfter e.id)).foldl (fun s e => applyEntry e s) s

/-- The staged mode request, applied last (R50). -/
def applyRequest (es : List PlanEntry) (secure : Bool) (s : State) : State :=
  match es.find? (fun e => e.id = Oid.modesRequest) with
  | some e => stagedRequest (valNum e.value) secure s
  | none => s

/-- The records of a pitch that takes place (R122, R124, Table 3.8). -/
def recordPitch (p : PlanId) (late : Bool) (s : State) : State :=
  let s := if (planOf s (otherPlan p)).state = .active then setPlanState (otherPlan p) .sealed s else s
  let s := putObj Oid.plansActive 0 (planElem p + 1) (setPlanState p .active s)
  let s := bump Oid.plansPitchCount 0 (putObj Oid.plansLastPitch 0 (now s) s)
  let s := if late then bump Oid.plansLatePitches 0 (setSticky Oid.plansStatus 0 1 s) else s
  fire 0x047 s

/-- The pitch takes place, or fails for the mode (R122, R124). -/
def takePitch (p : Pitch) (s : State) : State :=
  let x := planOf s p.plan
  if holdsRwd x && s.modes.current != .dormant && s.modes.current != .ready then
    setSticky Oid.plansStatus 0 4 (unschedule p s)
  else
    let s := applyEntries x.entries { s with dict := { s.dict with pitch := none } }
    applyRequest x.entries p.secure (recordPitch p.plan p.late s)

/-- The condition named by `when`, for a pitch that does not wait for a frame start; a time that falls in Dormant waits for Ready (R127). -/
def pitchDue (p : Pitch) (s : State) : Bool :=
  p.when_ = 0 || (p.when_ = 2 && decide (p.time ≤ now s) && s.modes.current != .dormant)

/-- Modes in which a pitch can take place: the server and the blocks run. -/
def pitchRuns (s : State) : Bool := s.modes.current != .cold && s.modes.current != .boot && s.modes.current != .halt

/-- The scheduled pitch whose tick has come takes place: arming had ended before the present tick, and the condition of `when` holds (R122). The server executes no request before it (R123), so an ABORT of the tick finds the plan pitched and a write of the tick stands (R125, R126). -/
def duePitch (s : State) : State :=
  match s.dict.pitch with
  | none => s
  | some p => if pitchRuns s && p.armed && decide (p.armedAt < s.time.ticks) && pitchDue p s then settleCauses (takePitch p s) else s

/-- A frame of a flow starts: the armed pitch that waits for it takes place first (R121, R122). -/
def pitchAtFrame (tx : Bool) (f : Nat) (s : State) : State :=
  match s.dict.pitch with
  | none => s
  | some p =>
    if pitchRuns s && p.armed && p.when_ = 1 && p.flow % 4096 = f && p.flow.testBit 15 = tx then settleCauses (takePitch p s) else s

/-- The frame-boundary wait ran out (R124); a broadcast PITCH reports it in `dict.bcast_status` (Table 3.9). -/
def pitchTimedOut (p : Pitch) (s : State) : State :=
  let s := setSticky Oid.plansStatus 0 2 (unschedule p s)
  if p.reply = .bcast then putObj Oid.dictBcastStatus 0 (9 * 256 + St.pitchTimeout) s else s

/-! ### Rows -/

/-- PITCH_TAKES_PLACE (R122). -/
def execPitchTakesPlace (s : State) : Host.Outcome State Fault Refusal :=
  match s.dict.pitch with
  | none => .next s
  | some p => if pitchRuns s && p.armed && pitchDue p s then .next (settleCauses (takePitch p s)) else .next s

/-- BOUNDARY_TIMEOUT (R124). -/
def execBoundaryTimeout (s : State) : Host.Outcome State Fault Refusal :=
  match s.dict.pitch with
  | none => .next s
  | some p => if p.armed && p.when_ = 1 then .next (pitchTimedOut p s) else .next s

/-- PACKET_PLACE (R287); a pitch that waits for the frame this packet opens takes place first. -/
def execPacketPlace (n : Lane) (s : State) : Host.Outcome State Fault Refusal :=
  match opensFrame n.val s with
  | none => .next (placePacket n.val s)
  | some f => .next (placePacket n.val (pitchAtFrame false f s))

/-- TAP_FRAME_START (R389); a pitch that waits for this frame takes place first. -/
def execTapFrameStart (t : TxFlow) (s : State) : Host.Outcome State Fault Refusal :=
  if gridStarts t.val s then .next (gridStart t.val (pitchAtFrame true t.val s)) else .next (gridStart t.val s)

/-- TAP_TRIGGER (R407); a pitch that waits for this frame takes place first. -/
def execTapTrigger (t : TxFlow) (s : State) : Host.Outcome State Fault Refusal :=
  if triggerStarts t.val s then .next (triggerStart t.val (pitchAtFrame true t.val s)) else .next (triggerStart t.val s)

end Sys2Proof.Machine
end

