-- ==== Sys2Proof/Machine/Serve.lean ====
section
/-! DEFINITION. The dictionary server (03_dictionary, R79 to R97, R117): one request at a time, its checks in the order of R87, and what it does when it passes them. How requests arrive and answers leave is in Linob.lean. -/

namespace Sys2Proof.Machine

open Sys2Proof

/-- A request as the server takes it: its transport's own checks have passed. -/
structure Req where
  who     : Initiator
  src     : Option Endpoint := none       -- where a Linob message came from
  secure  : Bool
  le      : Bool                          -- R81: little-endian over the mailboxes
  op      : Nat
  target  : Nat := 0                      -- 0 live, 1 plan A, 2 plan B
  masked  : Bool := false
  final   : Bool := false
  id      : Nat
  header  : Nat := 0                      -- R540: the status of the header
  payload : List Byte
  fails   : Option (List Nat) := none     -- PCs whose retraining fails, where the command says so (R342)
  faulted : Bool := false                 -- the server faults on it (INTERNAL, Table 3.9)
deriving DecidableEq, Repr

/-- What a request is answered with. -/
structure Answer where
  status  : Nat
  payload : List Byte := []
  held    : Bool := false                 -- R121: a PITCH answers when arming ends
  session : Nat := 0                      -- R112: the session a SESSION_OPEN made
  plain   : Bool := false                 -- R107, R112: a trailer of zeros
  ended   : Reply := .none                -- R121, R125: the response of a PITCH that an ABORT ended in arming
deriving DecidableEq, Repr

/-- A refusal by its status alone. -/
def deny (st : Nat) : Answer := { status := st }

/-- The first status that is not OK, in the order of R87. -/
def firstBad : List Nat → Nat
  | [] => St.ok
  | c :: t => if c = St.ok then firstBad t else c

/-- The firer a software fire of this initiator is (R116, Table 5.3). -/
def firerOf : Initiator → Firer
  | .mailbox _ => .mailbox
  | .mgmt _ => .mgmt
  | .cascade _ => .cascade
  | .bcast => .cascade
  | .firmware => .firmware

/-- Session 0x0000, on either port. -/
def isSessionZero : Initiator → Bool
  | .mgmt n => n = 0
  | .cascade n => n = 0
  | _ => false

/-- The session of a Linob initiator, 0 for none. -/
def sessionNum : Initiator → Nat
  | .mgmt n => n
  | .cascade n => n
  | _ => 0

/-- Bytes a response payload holds (R94). -/
def responseMax : Initiator → Nat
  | .mgmt _ => 1408
  | .cascade _ => 1408
  | _ => 2048

/-- A number in the transport's byte order. -/
def numIn (le : Bool) (b : List Byte) : Nat := if le then leNat b else beNat b

/-- Bytes of a number in the transport's byte order. -/
def numOut (le : Bool) (n v : Nat) : List Byte := if le then leBytes n v else beBytes n v

/-! ### Steps 1 to 5 of R87 -/

/-- A BLOB object. -/
def isBlob : ValType → Bool
  | .blob _ => true
  | _ => false

/-- Step 1: the opcode (R92, R110, R112, R115). -/
def opStatus (q : Req) : Nat :=
  if q.op = 0 || q.op = 6 || decide (10 < q.op) then St.opcode
  else if q.who = .bcast && q.op != 2 && q.op != 9 && q.op != 10 then St.opcode
  else if (q.op = 5 || q.op = 7 || q.op = 8) && q.src.isNone then St.opcode
  else if q.op = 7 && !isSessionZero q.who then St.opcode
  else match objRow? q.id with
    | none => St.ok
    | some r =>
      if q.op = 9 && q.id != Oid.plansActive then St.opcode
      else if q.op = 10 && q.id != Oid.plansActive && !isBlob r.type then St.opcode
      else St.ok

/-- Step 2: the header (R540). -/
def headerStatus (q : Req) : Nat := if q.target = 3 then St.reserved else q.header

/-- The index a request names, and the rest of its payload (R80). -/
def indexOf (q : Req) (r : ObjRow) : Nat × List Byte :=
  if r.indices = 0 then (0, q.payload) else (numIn q.le (q.payload.take 2), q.payload.drop 2)

/-- The request carries the index that the object needs (R80). -/
def indexGiven (q : Req) (r : ObjRow) : Bool := r.indices = 0 || decide (2 ≤ q.payload.length)

/-- Step 3 for an object in the table: an index, if the object has them, that it holds (R80). -/
def indexStatus (q : Req) (r : ObjRow) : Nat := if r.indices = 0 || decide ((indexOf q r).1 < r.indices) then St.ok else St.noObject

/-- Whether an opcode changes an object. -/
def isWrite (op : Nat) : Bool := op = 2 || op = 4

/-- The key objects whose SEC right waits for `dict.key_lock` (R111). -/
def isKeyObject (id : Nat) : Bool := id = Oid.dictKey || id = Oid.dictKeyClass || id = Oid.dictKeyLock

/-- Step 4 for the object alone: the SEC right (R85, R111) and session 0x0000 (R110). DEDUCED (entry 134): the SECURITY of R110 stands at step 4 of R87, after NO_OBJECT and the header's statuses. -/
def secRight (s : State) (q : Req) (r : ObjRow) : Nat :=
  if isSessionZero q.who && !((q.op = 1 || q.op = 3) && q.id / 65536 = 0) then St.security
  else if q.secure then St.ok
  else if r.access.sec && !(isKeyObject q.id && !isOn s Oid.dictKeyLock) then St.security
  else St.ok

/-- Step 4: the right of the object, and of the objects of a secure channel (R170). -/
def secStatus (s : State) (q : Req) (r : ObjRow) (idx : Nat) : Nat :=
  if secRight s q r ≠ St.ok then secRight s q r
  else if q.secure then St.ok
  else if isWrite q.op && q.id / 65536 = 0x0C && r.indices = 256 && isOn s Oid.eventsChSecure idx then St.security
  else St.ok

/-- The trigger k names a flow on lane L0 (R71). -/
def triggerOnL0 (s : State) (k : Nat) : Bool :=
  let v := getObj s Oid.eventsFlowTriggerSel k
  (v / 2 ^ 30 = 1 && getObj s Oid.flowRxPort (v % 4096) = 0) || (v / 2 ^ 30 = 2 && getObj s Oid.flowTxPort (v % 4096) = 0)

/-- An object index that the limp service serves (R71). -/
def limpServes (s : State) (r : ObjRow) (idx : Nat) : Bool :=
  match r.id / 65536 with
  | 0x00 => true
  | 0x01 => true
  | 0x02 => true
  | 0x08 => true
  | 0x0C => true
  | 0x10 => true
  | 0x20 => idx = 0
  | 0x28 => idx = 0
  | 0x24 =>
    if r.indices = 4096 then getObj s Oid.flowRxPort idx = 0
    else if r.indices = 1024 then getObj s Oid.flowTxPort idx = 0
    else true
  | 0x30 =>
    if r.indices = 4096 then getObj s Oid.flowRxPort idx = 0
    else if r.indices = 64 then idx = 0
    else if r.indices = 32 then triggerOnL0 s idx
    else true
  | 0x34 => true
  | 0x40 => true
  | 0x58 => true
  | 0x60 => true
  | 0x68 => true
  | 0x70 => true
  | 0x74 => true
  | 0x78 => true
  | _ => false

/-- An object that the boot ROM serves in recovery (R61). -/
def recoveryServes (id : Nat) : Bool :=
  id / 65536 = 0 || id = Oid.modesBootStatus || id = Oid.modesFwImage || id = Oid.modesFwCommit || id = Oid.modesFwUpdateStatus

/-- The device is in recovery (R61). -/
def inRecovery (s : State) : Bool := s.modes.current = .boot && s.modes.step = .recovery

/-- A group that the limp service serves in part at least (R71). -/
def limpGroup (g : Nat) : Bool :=
  decide (g ∈ [0x00, 0x01, 0x02, 0x08, 0x0C, 0x10, 0x20, 0x24, 0x28, 0x30, 0x34, 0x40, 0x58, 0x60, 0x68, 0x70, 0x74, 0x78])

/-- Step 5 for a request without the index its object needs: what is judged by the object alone (R71, R61, R88). -/
def servedGroup (s : State) (r : ObjRow) : Nat :=
  if s.modes.current = .limp && !limpGroup (r.id / 65536) then St.modeConflict
  else if inRecovery s && !recoveryServes r.id then St.modeConflict
  else St.ok

/-- Step 5: what the limp service or recovery does not serve (R71, R61, R88). -/
def servedStatus (s : State) (r : ObjRow) (idx : Nat) : Nat :=
  if s.modes.current = .limp && !limpServes s r idx then St.modeConflict
  else if inRecovery s && !recoveryServes r.id then St.modeConflict
  else St.ok

/-! ### Step 6: access rights (R85) -/

/-- Direct writes that a rule allows in some modes only: the shutdown key (R76), the reinstatement of a PC (R342) and the clearing of the list (R509), the tests of Diagnostic (R346, R539). -/
def modeRight (s : State) (id : Nat) : Nat :=
  let inModes (b : Bool) : Nat := if b then St.ok else St.modeRestricted
  if id = Oid.modesShutdown then (if shutdownStatus s = St.modeRestricted then St.modeRestricted else St.ok)
  else if id = Oid.cellarReinstate || id = Oid.faultsListClear then
    inModes (s.modes.current = .dormant || s.modes.current = .ready)
  else if id = Oid.cellarTestStart || id = Oid.patternSelftest || id = Oid.hydroSelftest then inModes (s.modes.current = .diagnostic)
  else St.ok

/-- The right to write an object directly. -/
def writeRight (s : State) (r : ObjRow) : Nat :=
  match r.access.right with
  | .ro => St.readOnly
  | .rwp => if isRun s.modes.current || s.modes.current = .limp then St.planLocked else St.ok
  | .rwd => if s.modes.current = .dormant || s.modes.current = .ready then St.ok else St.modeRestricted
  | .rw => modeRight s r.id
  | .wo => modeRight s r.id

/-- Step 6. -/
def accessStatus (s : State) (q : Req) (r : ObjRow) : Nat :=
  if q.op = 1 || q.op = 3 then (if r.access.right = .wo then St.writeOnly else St.ok)
  else if isWrite q.op && q.target = 0 then writeRight s r
  else St.ok

/-! ### Steps 7 to 12 for a write -/

/-- Step 11: values accepted from a secure initiator only, and fires an owner refuses (R46, R169, R170). -/
def valueSecurity (s : State) (q : Req) (idx v : Nat) : Nat :=
  let named (c : Nat) : Bool := decide (c < 256) && isOn s Oid.eventsChSecure c
  if q.id = Oid.modesRequest then (if v = 11 && !q.secure then St.security else St.ok)
  else if q.id = Oid.eventsSrcChannel then (if !q.secure && (named v || named (getObj s q.id idx)) then St.security else St.ok)
  else if q.id = Oid.eventsFire then (if fireAllowed s idx (firerOf q.who) q.secure then St.ok else St.security)
  else if q.id = Oid.eventsFireMask then
    (if (maskedChans idx v).all (fun c => fireAllowed s c (firerOf q.who) q.secure) then St.ok else St.security)
  else St.ok

/-- Step 12: the mode request, the shutdown key, and a raw frame to a port that is down (R45, R76, R408). -/
def valueConflict (s : State) (q : Req) (idx v : Nat) : Nat :=
  if q.id = Oid.modesRequest then
    (match modeOf v with | some b => modeRequestStatus s b q.secure | none => St.ok)
  else if q.id = Oid.modesShutdown then shutdownStatus s
  else if q.id = Oid.faultsReinstate then (if reinstateStatus s v = St.modeRestricted then St.modeRestricted else St.ok)
  else if q.id = Oid.tapRawFrame then (if portUp s idx then St.ok else St.modeConflict)
  else St.ok

/-- Steps 7 to 12 for a value v written to the live dictionary, of which the request gives the part w. -/
def liveStatus (s : State) (q : Req) (r : ObjRow) (idx : Nat) (w v : PVal) : Nat :=
  firstBad [valueStatus r w, linkedStatus s q.id idx (valNum v), valueSecurity s q idx (valNum v), valueConflict s q idx (valNum v)]

/-- Steps 7 to 11 for a value staged in a plan (R93). -/
def stagedStatus (s : State) (q : Req) (r : ObjRow) (idx : Nat) (w v : PVal) : Nat :=
  firstBad [valueStatus r w, valueSecurity s q idx (valNum v)]

/-- The plan a target names. -/
def targetPlan (t : Nat) : PlanId := if t = 1 then .a else .b

/-- The value a target holds: the live value, or the staged one. -/
def targetValue (s : State) (q : Req) (idx : Nat) : Option PVal :=
  if q.target = 0 then some (liveValue s q.id idx) else stagedValue (planOf s (targetPlan q.target)) q.id idx

/-- The value of a WRITE, masked or not, as the object would take it (R82, R84); none where its length is wrong. -/
def writeValue (s : State) (q : Req) (r : ObjRow) (idx : Nat) (body : List Byte) : Option PVal :=
  if q.masked then
    match r.type with
    | .bitset w =>
      if body.length = 2 * w then
        let old := valNum ((targetValue s q idx).getD (liveValue s q.id idx))
        some (.num (maskedValue old (numIn q.le (body.take w)) (numIn q.le (body.drop w)) (stickyBits r)))
      else none
    | _ => none
  else decodeValue q.le r.type body

/-- The part of a value that its writer sets: of a masked write, the bits under the mask. DEDUCED (entry 25): reserved bits of the value outside its mask are not written, and are not refused. -/
def writtenPart (q : Req) (r : ObjRow) (body : List Byte) (v : PVal) : PVal :=
  match q.masked, r.type with
  | true, .bitset w => .num (numIn q.le (body.take w) &&& numIn q.le (body.drop w))
  | _, _ => v

/-- The entry a value stages. -/
def entryOf (q : Req) (r : ObjRow) (idx : Nat) (v : PVal) : PlanEntry :=
  { id := q.id, index := idx, value := v, secure := r.access.sec || (q.id = Oid.modesRequest && valNum v = 11) }

/-- Whether two requests are of one initiator or session (R95): the mailboxes are the host's. -/
def sameInitiator : Initiator → Initiator → Bool
  | .mailbox _, .mailbox _ => true
  | a, b => a = b

/-- The transfer open on an object index. -/
def transferOn (s : State) (id idx : Nat) : Option Transfer := s.dict.transfers.find? (fun t => t.id = id && t.index = idx)

/-- End the transfer open on an object index. -/
def dropTransfer (id idx : Nat) (s : State) : State :=
  { s with dict := { s.dict with transfers := s.dict.transfers.filter (fun t => !(t.id = id && t.index = idx)) } }

/-- Step 13 and the effect of a value written to the live dictionary. -/
def commitLive (q : Req) (idx : Nat) (v : PVal) (s : State) : Nat × State :=
  match planWrite q.id s with
  | some r => r
  | none =>
    let c := consistencyStatus s q.id idx (valNum v)
    let t := applyWrite q.id idx v (firerOf q.who) q.fails s
    if c = St.ok then (flashStatus q.id s t, t) else (c, s)

/-- Step 13 and the effect of a value staged in a plan. -/
def commitStaged (q : Req) (r : ObjRow) (idx : Nat) (v : PVal) (s : State) : Nat × State :=
  let p := targetPlan q.target
  let e := entryOf q r idx v
  let c := stageStatus r (planOf s p) e
  if c = St.ok then (St.ok, putPlan p (stagedPlan (planOf s p) e) s) else (c, s)

/-- The index a response carries (R80). -/
def indexOut (q : Req) (r : ObjRow) (idx : Nat) : List Byte := if r.indices = 0 then [] else numOut q.le 2 idx

/-- A response of OK, or a refusal. -/
def ackOr (st : Nat) (payload : List Byte) : Answer := if st = St.ok then { status := St.ok, payload := payload } else deny st

/-! ### The operations -/

/-- READ (R93, R94). -/
def serveRead (q : Req) (r : ObjRow) (idx : Nat) (body : List Byte) (s : State) : Answer × State :=
  if !body.isEmpty then (deny St.length, s)
  else match targetValue s q idx with
  | none => (deny St.notInPlan, s)
  | some v =>
    let out := indexOut q r idx ++ encodeValue q.le r.type v
    if responseMax q.who < out.length then (deny St.length, s) else ({ status := St.ok, payload := out }, s)

/-- READ_BLOCK (R94). -/
def serveReadBlock (q : Req) (r : ObjRow) (idx : Nat) (body : List Byte) (s : State) : Answer × State :=
  if body.length ≠ 6 || !isBytes r.type then (deny St.length, s)
  else match targetValue s q idx with
  | none => (deny St.notInPlan, s)
  | some v =>
    let b := valBytes v
    let off := numIn q.le (body.take 4)
    let count := numIn q.le (body.drop 4)
    let head := indexOut q r idx ++ numOut q.le 4 off ++ numOut q.le 4 b.length
    if b.length < off then (deny St.blockOffset, s)
    else ({ status := St.ok, payload := head ++ slice off (min count (responseMax q.who - head.length)) b }, s)

/-- WRITE (R84, R93, R95, R118). -/
def serveWrite (q : Req) (r : ObjRow) (idx : Nat) (body : List Byte) (s : State) : Answer × State :=
  match writeValue s q r idx body with
  | none => (deny St.length, s)
  | some v =>
    let w := writtenPart q r body v
    let st := if q.target = 0 then liveStatus s q r idx w v else stagedStatus s q r idx w v
    if st ≠ St.ok then (deny st, s)
    else if (transferOn s q.id idx).isSome then (deny St.objectBusy, s)
    else
      let c := if q.target = 0 then commitLive q idx v s else commitStaged q r idx v s
      (ackOr c.1 (indexOut q r idx), c.2)

/-- Where a block stands against the transfer open on its object index (R94, R95). -/
def blockStatus (q : Req) (t : Option Transfer) (off : Nat) : Nat :=
  match t with
  | none => if off = 0 then St.ok else St.blockOffset
  | some t =>
    if !sameInitiator t.who q.who then (if off = 0 then St.objectBusy else St.blockOffset)
    else if t.plan = (if q.target = 0 then none else some (targetPlan q.target)) && t.data.length = off then St.ok
    else St.blockOffset

/-- Longest value of a type. -/
def maxBytes : ValType → Nat
  | .str n => n
  | .blob n => n
  | _ => 0

/-- WRITE_BLOCK (R94, R95). -/
def serveWriteBlock (q : Req) (r : ObjRow) (idx : Nat) (body : List Byte) (s : State) : Answer × State :=
  if !isBytes r.type || body.length < 4 then (deny St.length, s)
  else
    let off := numIn q.le (body.take 4)
    let data := body.drop 4
    let t := transferOn s q.id idx
    let all := (match t with | some t => t.data | none => []) ++ data
    let ok := indexOut q r idx ++ numOut q.le 4 off
    if maxBytes r.type < off + data.length then (deny St.length, s)
    else if q.target ≠ 0 && notStageable r then (deny St.notStageable, s)
    else if blockStatus q t off ≠ St.ok then (deny (blockStatus q t off), s)
    else if !q.final then
      ({ status := St.ok, payload := ok }, { dropTransfer q.id idx s with dict := { (dropTransfer q.id idx s).dict with
        transfers := (dropTransfer q.id idx s).dict.transfers ++
          [{ id := q.id, index := idx, who := q.who, plan := if q.target = 0 then none else some (targetPlan q.target), data := all }] } })
    else match decodeValue q.le r.type all with
    | none => (deny St.length, s)
    | some v =>
      let st := if q.target = 0 then liveStatus s q r idx v v else stagedStatus s q r idx v v
      if st ≠ St.ok then (deny st, s)
      else
        let c := if q.target = 0 then commitLive q idx v s else commitStaged q r idx v s
        if c.1 = St.ok then ({ status := St.ok, payload := ok }, dropTransfer q.id idx c.2) else (deny c.1, c.2)

/-- The value of a subscription's fields: LENGTH, RESERVED_VALUE, RANGE (R96). -/
def subValueStatus (q : Req) (body : List Byte) : Nat :=
  let mode := byteAt body 0
  let period := numIn q.le (slice 4 4 body)
  if body.length ≠ 8 then St.length
  else if 2 < mode || byteAt body 1 ≠ 0 then St.reserved
  else if mode = 2 && !(decide (1 ≤ period) && decide (period ≤ 3600000)) then St.range
  else St.ok

/-- SUBSCRIBE (R96). -/
def serveSubscribe (q : Req) (r : ObjRow) (idx : Nat) (body : List Byte) (s : State) : Answer × State :=
  let n := sessionNum q.who
  let st := subValueStatus q body
  let mode := byteAt body 0
  let rest := s.dict.subs.filter (fun x => !(x.session = n && x.id = q.id && x.index = idx))
  if st ≠ St.ok then (deny st, s)
  else if isBlob r.type || r.access.right = .wo || q.id / 65536 = 0x02 then (deny St.notSubscribable, s)
  else if mode = 0 then
    ({ status := St.ok, payload := indexOut q r idx }, { s with dict := { s.dict with subs := rest } })
  else if decide (256 ≤ rest.length) || decide (32 ≤ (rest.filter (fun x => x.session = n)).length) then (deny St.subLimit, s)
  else
    let sub : Sub := { session := n, id := q.id, index := idx, mode := mode, minMs := numIn q.le (slice 2 2 body)
                       periodMs := numIn q.le (slice 4 4 body), last := none, changes := 0
                       sinceMs := if mode = 1 then 65536 else 0 }
    ({ status := St.ok, payload := indexOut q r idx }, { s with dict := { s.dict with subs := rest ++ [sub] } })

/-- The fields of a PITCH payload (Table 3.4). -/
def pitchFields (q : Req) : Nat × Nat × Nat × PVal :=
  (byteAt q.payload 0, byteAt q.payload 1, numIn q.le (slice 2 2 q.payload),
    (decodeValue q.le .time96 (slice 4 12 q.payload)).getD (.num 0))

/-- The checks of a PITCH payload (R121). -/
def pitchStatus (s : State) (q : Req) : Nat :=
  let f := pitchFields q
  let p := planNamed f.1
  if q.payload.length ≠ 16 then St.length
  else if 1 < f.1 || 2 < f.2.1 || (f.2.1 = 1 && bits f.2.2.1 14 12 ≠ 0) then St.reserved
  else if f.2.1 = 2 && billion ≤ tNs (valNum f.2.2.2) then St.range
  else if f.2.1 = 1 && f.2.2.1.testBit 15 && 1023 < f.2.2.1 % 4096 then St.range
  else if holdsSecure (planOf s p) && !q.secure then St.security
  else if (planOf s p).state ≠ .sealed then St.planState
  else if s.dict.pitch.isSome then St.pitchPending
  else St.ok

/-- PITCH (R121): its response is sent when arming ends. -/
def servePitch (q : Req) (s : State) : Answer × State :=
  let f := pitchFields q
  let st := pitchStatus s q
  if st ≠ St.ok then (deny st, s)
  else
    ({ status := St.ok, held := true },
      schedulePitch { plan := planNamed f.1, when_ := f.2.1, flow := f.2.2.1, time := valNum f.2.2.2, armed := false
                      secure := q.secure, late := false, reply := .none } s)

/-- The checks of an ABORT of a plan (R125). -/
def abortStatus (s : State) (q : Req) : Nat :=
  if q.payload.length ≠ 1 then St.length
  else if 1 < byteAt q.payload 0 then St.reserved
  else match (planOf s (planNamed (byteAt q.payload 0))).state with
    | .scheduled => St.ok
    | .active => St.alreadyPitched
    | _ => St.planState

/-- ABORT of a plan (R125); it ends the arming of the PITCH, whose response is then due (R121). -/
def serveAbortPlan (q : Req) (s : State) : Answer × State :=
  let st := abortStatus s q
  if st ≠ St.ok then (deny st, s)
  else match s.dict.pitch with
  | none => ({ status := St.ok }, s)
  | some p => ({ status := St.ok, ended := if p.armed then .none else p.reply }, unschedule p s)

/-- ABORT of the transfer open on a BLOB index (R92, R95). DEDUCED (entry 135): the response carries the index, as R80 says, though Table 3.4 shows no payload. -/
def serveAbortBlob (q : Req) (r : ObjRow) (idx : Nat) (body : List Byte) (s : State) : Answer × State :=
  if body.isEmpty then ({ status := St.ok, payload := indexOut q r idx }, dropTransfer q.id idx s) else (deny St.length, s)

/-- The session key of R112. -/
def sessionKey (key cn dn : List Byte) (n : Nat) : List Byte := hmacSha256 key ([0x4C, 0x4E, 0x42, 0x6B] ++ cn ++ dn ++ beBytes 2 n)

/-- The client proof of R112. -/
def clientProof (key cn dn : List Byte) (n : Nat) : List Byte :=
  (hmacSha256 key ([0x4C, 0x4E, 0x42, 0x63] ++ cn ++ dn ++ beBytes 2 n)).take 16

/-- The device proof of R112. -/
def deviceProof (key cn dn : List Byte) (n : Nat) : List Byte :=
  (hmacSha256 key ([0x4C, 0x4E, 0x42, 0x64] ++ cn ++ dn ++ beBytes 2 n)).take 16

/-- A session number not in use, 0x0001 to 0xFFFD, from a first candidate on. -/
def freshSession (s : State) : Nat → Nat → Nat
  | 0, c => c
  | n + 1, c => if s.dict.sessions.any (fun x => x.num = c) then freshSession s n (if c = 0xFFFD then 1 else c + 1) else c

/-- The status of a SESSION_OPEN (R112). DEDUCED (entry 32): an empty slot is reported before the limit of sessions. -/
def openStatus (s : State) (q : Req) : Nat :=
  let k := byteAt q.payload 0
  if q.payload.length ≠ 20 then St.length
  else if beNat (slice 1 3 q.payload) ≠ 0 then St.reserved
  else if 7 < k then St.range
  else if getObj s Oid.dictKeyClass k = 0 || (getBlob s Oid.dictKey k).isEmpty then St.keyEmpty
  else if 16 ≤ s.dict.sessions.length then St.sessionLimit
  else St.ok

/-- SESSION_OPEN (R112): the session number and the device nonce are free values. -/
def serveOpen (q : Req) (s : State) : Answer × State :=
  match q.src with
  | none => (deny St.opcode, s)
  | some src =>
    let st := openStatus s q
    if st ≠ St.ok then ({ deny st with plain := true }, s)
    else
      let k := byteAt q.payload 0
      let c := takeChoice 0xFFFD s
      let n := freshSession s 16 (c.1 + 1)
      let r := takeFree c.2
      let dn := beBytes 16 r.1.toNat
      let cn := slice 4 16 q.payload
      let x : Session := { num := n, half := true, slot := k, secure := getObj s Oid.dictKeyClass k = 2, src := src, cn := cn, dn := dn
                           key := sessionKey (getBlob s Oid.dictKey k) cn dn n, highest := 0, stored := [], devSeq := 0 }
      ({ status := St.ok, payload := dn, session := n, plain := true },
        { r.2 with dict := { r.2.dict with sessions := r.2.dict.sessions ++ [x] } })

/-- SESSION_PROOF on a half-open session (R112). -/
def serveProof (q : Req) (s : State) : Answer × State :=
  match s.dict.sessions.find? (fun x => x.num = sessionNum q.who) with
  | none => (deny St.opcode, s)
  | some x =>
    if !x.half then (deny St.opcode, s)
    else if q.payload.length ≠ 16 then (deny St.length, s)
    else
      let key := getBlob s Oid.dictKey x.slot
      if q.payload = clientProof key x.cn x.dn x.num then
        ({ status := St.ok, payload := deviceProof key x.cn x.dn x.num },
          { s with dict := { s.dict with sessions := s.dict.sessions.map (fun y => if y.num = x.num then { y with half := false } else y) } })
      else ({ deny St.proofFailed with plain := true }, closeSessions (fun y => y.num = x.num) s)

/-- Steps 3 to 6 for the object a request names, and step 7 for a payload too short for the object's index. -/
def objectStatus (s : State) (q : Req) (r : ObjRow) : Nat :=
  if indexGiven q r then firstBad [indexStatus q r, secStatus s q r (indexOf q r).1, servedStatus s r (indexOf q r).1, accessStatus s q r]
  else firstBad [secRight s q r, servedGroup s r, accessStatus s q r, St.length]

/-- The response to a refused request on an object: it carries the index of the request too (R80; DEDUCED, entry 135). -/
def carryIndex (q : Req) (r : ObjRow) (a : Answer × State) : Answer × State :=
  if a.1.status = St.ok || !a.1.payload.isEmpty || !indexGiven q r then a
  else ({ a.1 with payload := indexOut q r (indexOf q r).1 }, a.2)

/-- The operation itself, on an object that the table holds. -/
def serveObject (q : Req) (r : ObjRow) (s : State) : Answer × State :=
  let i := indexOf q r
  if objectStatus s q r ≠ St.ok then (deny (objectStatus s q r), s)
  else match q.op with
  | 1 => serveRead q r i.1 i.2 s
  | 2 => serveWrite q r i.1 i.2 s
  | 3 => serveReadBlock q r i.1 i.2 s
  | 4 => serveWriteBlock q r i.1 i.2 s
  | 5 => serveSubscribe q r i.1 i.2 s
  | 9 => servePitch q s
  | _ => if q.id = Oid.plansActive then serveAbortPlan q s else serveAbortBlob q r i.1 i.2 s

/-- Serve one request (R87, R117). -/
def serve (q : Req) (s : State) : Answer × State :=
  if opStatus q ≠ St.ok then (deny (opStatus q), s)
  else if headerStatus q ≠ St.ok then (deny (headerStatus q), s)
  else if q.op = 7 then serveOpen q s
  else if q.op = 8 then (if isSessionZero q.who then (deny St.security, s) else serveProof q s)
  else if 0x80 ≤ q.id / 65536 then (deny St.reserved, s)
  else match objRow? q.id with
  | none => (deny St.noObject, s)
  | some r => carryIndex q r (serveObject q r s)

end Sys2Proof.Machine
end

