-- ==== Sys2Proof/Machine/Linob.lean ====
section
/-! DEFINITION. How requests reach the dictionary server and answers leave it (03_dictionary): the mailboxes of BAR0 (R99 to R104), Linob messages and sessions (R105 to R116), notifications (R97), and the rows of the dictionary service. -/

namespace Sys2Proof.Machine

open Sys2Proof

/-- The server runs: from the firmware's start in Boot, in recovery, and in every mode but Cold and Halt (Tables 2.2 and 2.4, R61). -/
def dictServed (s : State) : Bool :=
  match s.modes.current with
  | .cold => false
  | .halt => false
  | .boot => s.modes.step = .firmwareStarted || s.modes.step = .trained || s.modes.step = .recovery
  | _ => true

/-! ### Messages (R106, R107) -/

/-- The header of Table 3.6. -/
def linobHeader (op seq n obj last len : Nat) : List Byte :=
  beBytes 2 0x4C4E ++ beBytes 1 1 ++ beBytes 1 op ++ beBytes 4 seq ++ beBytes 2 n ++ beBytes 3 obj ++ beBytes 1 last ++ beBytes 2 len

/-- A message with its trailer: under a key, or 16 bytes of 0x00. -/
def linobMessage (op seq n obj last : Nat) (payload : List Byte) (key : Option (List Byte)) : List Byte :=
  let b := linobHeader op seq n obj last payload.length ++ payload
  b ++ (match key with | some k => (hmacSha256 k b).take 16 | none => List.replicate 16 0)

/-- The cascade link towards a member: downward where its announcements came from, else upward (R114, R153). -/
def routeTo (s : State) (a : Nat) : Option Nat :=
  match (tabFind a s.dict.routes).filter (fun q => decide (q ∈ openLinks s)) with
  | some q => some q
  | none => if getObj s Oid.timeBhUpstream ∈ openLinks s then some (getObj s Oid.timeBhUpstream) else none

/-- Send a Linob message: a datagram on the management port, or a cascade frame to a member (R114). -/
def sendLinob (dst : Endpoint) (m : List Byte) (s : State) : State :=
  match dst with
  | .mgmt ip udp => emit (.linob (.mgmt ip udp) m) s
  | .member a =>
    match routeTo s a.toNat with
    | some q => sendCascade q 5 6 a.toNat m s
    | none => s

/-- The session of a number. -/
def sessionOf (s : State) (n : Nat) : Option Session := s.dict.sessions.find? (fun x => x.num = n)

/-- Change a session. -/
def mapSession (n : Nat) (f : Session → Session) (s : State) : State :=
  { s with dict := { s.dict with sessions := s.dict.sessions.map (fun x => if x.num = n then f x else x) } }

/-! ### Answers (R100, R115, R121) -/

/-- A mailbox. -/
def mboxOf (s : State) (m : Nat) : Mailbox := tabGet {} m s.dict.mbox

/-- Give a mailbox its registers. -/
def putMbox (m : Nat) (x : Mailbox) (s : State) : State := { s with dict := { s.dict with mbox := tabPut {} m x s.dict.mbox } }

/-- MB_RSP, MB_RLEN and MB_STATE are written, and the mailbox's done source fires (R100). -/
def mailboxDone (m : Nat) (seq : Half) (a : Answer) (s : State) : State :=
  fire (0x0B8 + m)
    (putMbox m { mboxOf s m with phase := .done, seq := seq, status := BitVec.ofNat 8 a.status, rsp := a.payload } s)

/-- Send a Linob response and keep it for a repeat of its request (R107, R112, R113); `ss` are the sessions at the request, whose keys sign it. -/
def linobReply (ss : List Session) (src : Endpoint) (n seq obj op : Nat) (a : Answer) (s : State) : State :=
  let key := if a.plain || n = 0 then none else (ss.find? (fun x => x.num = n)).map (fun x => x.key)
  let m := linobMessage (op + 128) seq (if a.session ≠ 0 then a.session else n) obj a.status a.payload key
  sendLinob src m (mapSession n (fun x => { x with stored := m }) s)

/-- Answer a request of an opcode the way it came. -/
def respond (ss : List Session) (r : Reply) (op : Nat) (a : Answer) (s : State) : State :=
  match r with
  | .none => s
  | .mailbox m seq => mailboxDone m seq a s
  | .linob src n seq obj => linobReply ss src n seq obj op a s
  | .bcast => putObj Oid.dictBcastStatus 0 (op * 256 + a.status) s

/-- A PITCH accepted holds its response until arming ends (R121). -/
def holdReply (r : Reply) (s : State) : State :=
  { s with dict := { s.dict with pitch := s.dict.pitch.map (fun p => { p with reply := r }) } }

/-- A fault of the server: the request has no effect, is answered with INTERNAL, and is logged as device cause 7 (Tables 3.9 and 17.2). -/
def serverFault (q : Req) (r : Reply) (s : State) : State :=
  respond s.dict.sessions r q.op (deny St.internal)
    (setSticky Oid.faultsAlertStatus 0 0x80 (logUntracked resDevice 7 0 s))

/-- Serve a request and answer it, then act on what it has caused: causes of Limp and Halt (R51), a warm reset (R54). A pitch that is due in this tick takes place first (R123, R125, R126). -/
def request (q : Req) (r : Reply) (s : State) : State :=
  let s := duePitch s
  if q.faulted then serverFault q r s
  else
  let a := serve q s
  let t := respond s.dict.sessions a.1.ended 9 { status := St.ok } a.2
  let t := if a.1.held then holdReply r t else respond s.dict.sessions r q.op a.1 t
  settleWarm (settleCauses t)

/-! ### Mailboxes (R99 to R103) -/

/-- The status of a mailbox header (R540). -/
def mailboxHeader (cmd obj len : Nat) : Nat :=
  if bits cmd 15 12 ≠ 0 || bits obj 31 24 ≠ 0 || bits len 31 16 ≠ 0 then St.reserved
  else if 1984 < len % 65536 then St.length
  else St.ok

/-- MB_REQ after the host has written some bytes from its start: the rest read back what was last written (R99). -/
def mailboxArea (new old : List Byte) : List Byte := new.take 1984 ++ (padTo 1984 old).drop new.length

/-- The request a mailbox holds. -/
def mailboxReq (m cmd obj len : Nat) (req : List Byte) : Req :=
  { who := .mailbox m, secure := false, le := true, op := cmd % 256, target := bits cmd 9 8, masked := bit cmd 10, final := bit cmd 11
    id := obj % 2 ^ 24, header := mailboxHeader cmd obj len, payload := padTo (min (len % 65536) 1984) req }

/-- The host writes a mailbox and its doorbell: the request is served, or the doorbell discarded while the mailbox is busy (R100, R101). -/
def mailboxRequest (m : Nat) (cmd obj len : Word) (req : List Byte) (fails : Option (List Nat)) (faulted : Bool) (s : State) : State :=
  if !bar0Writable s then bar0Write (fun s => s) s
  else
    let s := barAccess s
    let x := mboxOf s m
    let area := mailboxArea req x.req
    let s := putMbox m { x with cmd := cmd, obj := obj, len := len, req := area } s
    if x.phase = .busy then bump Oid.dictMbOverruns 0 s
    else
      let seq := BitVec.ofNat 16 (cmd.toNat / 65536)
      let s := putMbox m { mboxOf s m with phase := .busy } s
      request { mailboxReq m cmd.toNat obj.toNat len.toNat area with fails := fails, faulted := faulted } (.mailbox m seq) s

/-! ### Linob reception (R106 to R113) -/

/-- A Linob message as its header reads. -/
structure Msg where
  op      : Nat
  seq     : Nat
  session : Nat
  obj     : Nat
  flags   : Nat
  len     : Nat
  body    : List Byte                     -- header and payload
  payload : List Byte
  trailer : List Byte
  version : Nat
deriving DecidableEq, Repr

/-- The fields of a datagram of the right length and magic; none otherwise (R106, R109). -/
def parseMsg (d : List Byte) : Option Msg :=
  if d.length < 32 || d.length ≠ 32 + be16 d 14 || be16 d 0 ≠ 0x4C4E then none
  else
    some { op := byteAt d 3, seq := be32 d 4, session := be16 d 8, obj := beNat (padTo 3 (slice 10 3 d)), flags := byteAt d 13
           len := be16 d 14, body := d.take (16 + be16 d 14), payload := slice 16 (be16 d 14) d
           trailer := d.drop (16 + be16 d 14), version := byteAt d 2 }

/-- The status of a Linob header (R540). -/
def linobHeaderStatus (m : Msg) : Nat :=
  if m.flags / 16 ≠ 0 then St.reserved else if 1408 < m.len then St.length else St.ok

/-- The request of a message. -/
def linobReq (who : Initiator) (src : Option Endpoint) (secure : Bool) (m : Msg) : Req :=
  { who := who, src := src, secure := secure, le := false, op := m.op, target := m.flags % 4, masked := bit m.flags 2
    final := bit m.flags 3, id := m.obj, header := linobHeaderStatus m, payload := m.payload }

/-- The initiator a Linob source is (R116). -/
def initiatorOf (src : Endpoint) (n : Nat) : Initiator :=
  match src with
  | .mgmt _ _ => .mgmt n
  | .member _ => .cascade n

/-- A message discarded without response (Table 3.7). -/
def malformed (s : State) : State := bump Oid.dictLinobMalformed 0 s
def authFailure (s : State) : State := bump Oid.dictAuthFailures 0 s
def replayed (s : State) : State := bump Oid.dictReplays 0 s

/-- A message whose version is not 0x01 (R109). -/
def versionReply (src : Endpoint) (n : Nat) (m : Msg) (s : State) : State :=
  respond s.dict.sessions (.linob src n m.seq m.obj) m.op (deny St.version) s

/-- Take a message of session 0x0000 (R107, R110). -/
def receiveOpen (src : Endpoint) (m : Msg) (faulted : Bool) (s : State) : State :=
  if m.trailer ≠ List.replicate 16 0 then authFailure s
  else if m.version ≠ 1 then versionReply src 0 m s
  else request { linobReq (initiatorOf src 0) (some src) false m with faulted := faulted } (.linob src 0 m.seq m.obj) s

/-- Take a message of a session: its source, its trailer, its sequence, its version (R108, R109, R113). A half-open session takes its proof only. DEDUCED (entry 32): a proof is taken whatever its sequence, which becomes the session's highest. -/
def receiveSession (src : Endpoint) (m : Msg) (fails : Option (List Nat)) (faulted : Bool) (s : State) : State :=
  match sessionOf s m.session with
  | none => authFailure s
  | some x =>
    if x.src ≠ src || m.trailer ≠ (hmacSha256 x.key m.body).take 16 || (x.half && m.op ≠ 8) then authFailure s
    else if !x.half && m.seq < x.highest then replayed s
    else if !x.half && m.seq = x.highest then (if x.stored.isEmpty then s else sendLinob src x.stored s)
    else
      let s := mapSession x.num (fun y => { y with highest := m.seq, stored := [] }) s
      if m.version ≠ 1 then versionReply src x.num m s
      else request { linobReq (initiatorOf src x.num) (some src) (x.secure && !x.half) m with fails := fails, faulted := faulted }
        (.linob src x.num m.seq m.obj) s

/-- Take a Linob message addressed to this device. -/
def receiveLinob (src : Endpoint) (d : List Byte) (faulted : Bool) (s : State) : State :=
  match parseMsg d with
  | none => malformed s
  | some m =>
    if 128 ≤ m.op then malformed s
    else if m.session = 0 then receiveOpen src m faulted s
    else receiveSession src m none faulted s

/-- Take a broadcast message (R115): session 0xFFFE, the trailer under key slot 7, a sequence above the last accepted. -/
def takeBroadcast (m : Msg) (fails : Option (List Nat)) (faulted : Bool) (s : State) : State :=
  let key := getBlob s Oid.dictKey 7
  if m.session ≠ 0xFFFE || getObj s Oid.dictKeyClass 7 = 0 || key.isEmpty || m.trailer ≠ (hmacSha256 key m.body).take 16 then
    authFailure s
  else if m.seq < s.dict.bcastSeq then replayed s
  else
    let s := { s with dict := { s.dict with bcastSeq := m.seq + 1 } }
    if m.version ≠ 1 then respond s.dict.sessions .bcast m.op (deny St.version) s
    else request { linobReq .bcast none (getObj s Oid.dictKeyClass 7 = 2) m with fails := fails, faulted := faulted } .bcast s

/-- Take a broadcast datagram. -/
def receiveBroadcast (d : List Byte) (faulted : Bool) (s : State) : State :=
  match parseMsg d with
  | none => malformed s
  | some m => if 128 ≤ m.op then malformed s else takeBroadcast m none faulted s

/-- A Linob message in a cascade frame that is passed on (Table 7.6, R253). -/
def linobFrame (flags dest src hops seq : Nat) (d : List Byte) : BhFrame :=
  { rank := 5, typ := 6, flags := flags, dest := dest, src := src, hops := hops, seq := seq, pre := d, stamped := false, post := [] }

/-- A Linob cascade frame passed on to every open link but the one it came by, one hop less (R38, R114, R115, Table 7.6). -/
def floodLinob (q src seq hops : Nat) (d : List Byte) (s : State) : State :=
  ((openLinks s).filter (fun k => k ≠ q)).foldl (fun s k => queueBh k (now s) (linobFrame 0x80 0 src (hops - 1) seq d) s) s

/-! ### Transports -/

/-- The opcode a transport carries, for the rows of Table 3.4. -/
def transportOp : Transport → Nat
  | .mailbox _ cmd _ _ _ => cmd.toNat % 256
  | .mgmt _ _ d => byteAt d 3
  | .cascade _ _ _ d => byteAt d 3
  | .broadcast _ _ _ _ d => byteAt d 3
  | .firmware op _ _ _ => op.toNat
  | .faulted q => transportOp q

/-- A request the firmware posts. -/
def firmwareReq (op flags obj : Nat) (payload : List Byte) : Req :=
  { who := .firmware, secure := true, le := true, op := op, target := flags % 4, masked := bit flags 2, final := bit flags 3
    id := obj, header := if flags / 16 ≠ 0 then St.reserved else St.ok, payload := payload }

/-- A cascade link brings a frame with hops to go (Table 7.6). -/
def linkTakes (s : State) (q hops : Nat) : Bool := decide (q ∈ openLinks s) && cascadeRuns s && hops != 0

/-- A request arrives by its transport (R117); the server serves it, or faults on it. -/
def arrivesWith (faulted : Bool) (q : Transport) (s : State) : State :=
  match q with
  | .mailbox m cmd obj len req => mailboxRequest m.val cmd obj len req none faulted s
  | .mgmt ip udp d => if dictServed s then receiveLinob (.mgmt ip udp) d faulted s else s
  | .cascade k src hops d =>
    if linkTakes s k.val hops.toNat then
      let s := bump Oid.portBhFrames k.val s
      if dictServed s then receiveLinob (.member src) d faulted s else s
    else s
  | .broadcast k src seq hops d =>
    if linkTakes s k.val hops.toNat then
      let s := floodLinob k.val src.toNat seq.toNat hops.toNat d (bump Oid.portBhFrames k.val s)
      if dictServed s then receiveBroadcast d faulted s else s
    else s
  | .firmware op flags obj payload =>
    if dictServed s then request { firmwareReq op.toNat flags.toNat obj.toNat payload with faulted := faulted } .none s else s
  | .faulted q => arrivesWith true q s

/-- A request arrives. -/
def arrives (q : Transport) (s : State) : State := arrivesWith false q s

/-- The nine opcodes that have a row of their own. -/
def hasRow (op : Nat) : Bool := op != 6 && decide (1 ≤ op) && decide (op ≤ 10)

/-- A row takes the requests of its opcode, and those of no row, which fail with OPCODE (R92). -/
def takes (op : Nat) (q : Transport) : Bool := transportOp q = op || !hasRow (transportOp q)

/-! ### Rows of Table 3.4 -/

/-- READ (R93, R94). -/
def execRead (q : Transport) (s : State) : Host.Outcome State Fault Refusal := if takes 1 q then .next (arrives q s) else .next s

/-- WRITE (R118). -/
def execWrite (q : Transport) (s : State) : Host.Outcome State Fault Refusal := if takes 2 q then .next (arrives q s) else .next s

/-- READ_BLOCK (R94). -/
def execReadBlock (q : Transport) (s : State) : Host.Outcome State Fault Refusal := if takes 3 q then .next (arrives q s) else .next s

/-- WRITE_BLOCK (R94). -/
def execWriteBlock (q : Transport) (s : State) : Host.Outcome State Fault Refusal := if takes 4 q then .next (arrives q s) else .next s

/-- SUBSCRIBE (R96). -/
def execSubscribe (q : Transport) (s : State) : Host.Outcome State Fault Refusal := if takes 5 q then .next (arrives q s) else .next s

/-- SESSION_OPEN (R112). -/
def execSessionOpen (q : Transport) (s : State) : Host.Outcome State Fault Refusal := if takes 7 q then .next (arrives q s) else .next s

/-- SESSION_PROOF (R112). -/
def execSessionProof (q : Transport) (s : State) : Host.Outcome State Fault Refusal := if takes 8 q then .next (arrives q s) else .next s

/-- PITCH (R121). -/
def execPitch (q : Transport) (s : State) : Host.Outcome State Fault Refusal := if takes 9 q then .next (arrives q s) else .next s

/-- ABORT (R125). -/
def execAbort (q : Transport) (s : State) : Host.Outcome State Fault Refusal := if takes 10 q then .next (arrives q s) else .next s

/-! ### Notifications (R97) -/

/-- A NOTIFY of a subscription (Table 3.4). DEDUCED (entry 37): the device sequence of a session starts at 0. Its status byte reports a pitch that timed out (Table 3.9). -/
def sendNotify (x : Sub) (changes : Nat) (v : PVal) (s : State) : State :=
  match sessionOf s x.session, objRow? x.id with
  | some n, some r =>
    let pre := if r.indices = 0 then [] else beBytes 2 x.index
    let st := if x.id = Oid.plansStatus && (valNum v).testBit 1 then St.pitchTimeout else St.ok
    let m := linobMessage 6 n.devSeq n.num x.id st
      (pre ++ beBytes 2 changes ++ beBytes 2 0 ++ timeBytes false (now s) ++ encodeValue false r.type v) (some n.key)
    sendLinob n.src m (mapSession n.num (fun y => { y with devSeq := (y.devSeq + 1) % 2 ^ 32 }) s)
  | _, _ => s

/-- Sample a subscription once (R97): what it becomes, and the changes to report. -/
def sampleSub (x : Sub) (v : PVal) : Sub × Option Nat :=
  let changed : Bool := match x.last with | some w => decide (w ≠ v) | none => false
  let n := if changed then min (x.changes + 1) 65535 else x.changes
  let since := x.sinceMs + 1
  let y := { x with last := some v, changes := n, sinceMs := since }
  if x.mode = 1 then
    (if n ≠ 0 && max 1 x.minMs ≤ since then ({ y with changes := 0, sinceMs := 0 }, some n) else (y, none))
  else if x.periodMs ≤ since then ({ y with changes := 0, sinceMs := 0 }, some 0)
  else (y, none)

/-- NOTIFY (R97): the sampling of the k-th subscription. -/
def execNotify (k : Fin 256) (s : State) : Host.Outcome State Fault Refusal :=
  match s.dict.subs[k.val]? with
  | none => .next s
  | some x =>
    if !dictServed s then .next s
    else
      let v := liveValue s x.id x.index
      let r := sampleSub x v
      let s := { s with dict := { s.dict with subs := s.dict.subs.set k.val r.1 } }
      match r.2 with
      | some n => .next (sendNotify x n v s)
      | none => .next s

/-! ### Other rows of the dictionary service -/

/-- MAILBOX_OVERRUN (R101): a doorbell of 1 while the mailbox is busy. -/
def execMailboxOverrun (m : Fin 4) (value : BitVec 32) (s : State) : Host.Outcome State Fault Refusal :=
  .next (bar0Write (fun s => if value = 1 && (mboxOf s m.val).phase = .busy then bump Oid.dictMbOverruns 0 s else s) s)

/-- An address that arrived on two paths: messages to it are discarded (R153). -/
def duplicated (s : State) (a : Nat) : Bool := getObj s Oid.timeBhUpstream ≥ 16 && decide (a ∈ duplicates s)

/-- Forward a message of the management port to a member, and remember its client (R114). -/
def forwardOut (src : Endpoint) (dest : Nat) (m : List Byte) (s : State) : State :=
  match routeTo s dest with
  | none => s
  | some q =>
    sendCascade q 5 6 dest m { s with dict := { s.dict with
      clients := { member := dest, session := be16 m 8, seq := be32 m 4, src := src } :: s.dict.clients } }

/-- The client an answer of a member is for: of its session and sequence, of its sequence where a session has just been opened, else of its session. -/
def clientOf (s : State) (member : Nat) (m : List Byte) : Option Client :=
  let mine := s.dict.clients.filter (fun c => c.member = member)
  match mine.find? (fun c => c.session = be16 m 8 && c.seq = be32 m 4) with
  | some c => some c
  | none =>
    match mine.find? (fun c => c.session = be16 m 8 && be16 m 8 != 0) with
    | some c => some c
    | none => mine.find? (fun c => c.session = 0 && c.seq = be32 m 4)

/-- LINOB_FORWARD (R114): a message for another member goes on; an answer for this member's client goes to the client. -/
def execLinobForward (inp : LinkPort) (dest : BitVec 10) (msg : List Byte) (s : State) : Host.Outcome State Fault Refusal :=
  let own := dest.toNat = getObj s Oid.timeBhAddress
  let drop (s : State) : State := { s with time := { s.time with dupDrop := s.time.dupDrop + 1 } }
  match inp with
  | .mgmt ip udp =>
    if own || !dictServed s then .next s
    else if duplicated s dest.toNat then .next (drop s)
    else .next (forwardOut (.mgmt ip udp) dest.toNat msg s)
  | .quad q src seq hops =>
    if !linkTakes s q.val hops.toNat then .next s
    else
      let s := bump Oid.portBhFrames q.val s
      if duplicated s dest.toNat then .next (drop s)
      else if own then
        match clientOf s src.toNat msg with
        | some c => .next (sendLinob c.src msg s)
        | none => .next s
      else match routeTo s dest.toNat with
      | none => .next s
      | some k =>
        if k = q.val then .next s
        else .next (queueBh k (now s) (linobFrame 0 dest.toNat src.toNat (hops.toNat - 1) seq.toNat msg) s)

/-- BLOCK_TRANSFER_TIMEOUT (R95). -/
def execBlockTransferTimeout (id : BitVec 24) (index : BitVec 16) (s : State) : Host.Outcome State Fault Refusal :=
  .next (dropTransfer id.toNat index.toNat s)

/-- HALF_OPEN_TIMEOUT (R112). -/
def execHalfOpenTimeout (n : BitVec 16) (s : State) : Host.Outcome State Fault Refusal :=
  .next (closeSessions (fun x => x.num = n.toNat && x.half) s)

/-- SESSION_TIMEOUT (R113). -/
def execSessionTimeout (n : BitVec 16) (s : State) : Host.Outcome State Fault Refusal :=
  .next (closeSessions (fun x => x.num = n.toNat && !x.half) s)

/-- ARMING_END (R121): the PITCH response is sent. -/
def execArmingEnd (s : State) : Host.Outcome State Fault Refusal :=
  match s.dict.pitch with
  | none => .next s
  | some p => if p.armed then .next s else .next (respond s.dict.sessions p.reply 9 { status := St.ok } (armPitch p s))

/-- The value an object index has now, as the store keeps it. -/
def storedValue (k : Nat) (s : State) : PVal :=
  match objRow? (k / 65536) with
  | some r => if isBytes r.type then .bytes (getBlob s (k / 65536) (k % 65536)) else .num (getObj s (k / 65536) (k % 65536))
  | none => .num 0

/-- The copy of the store with an item taken in (R89, R90). -/
def storedItem (i : StoreItem) (s : State) : StoreCopy :=
  let c := s.dict.flash.store
  match i with
  | .object k => { c with objs := tabInsert k (storedValue k s) c.objs }
  | .plan .a es => { c with planA := some es }
  | .plan .b es => { c with planB := some es }
  | .retiredList => { c with retired := s.flt.retired.map retiredEntry }
  | .lampCount n v => { c with objs := tabInsert (objKey Oid.lampFlashes n) (.num v) c.objs }

/-- Bytes of object values that a copy holds (R90). -/
def storeBytes (c : StoreCopy) : Nat := (c.objs.map (fun e => valBytesOf (e.1 / 65536) e.2)).sum

/-- The store of an item ends: the copy not in use takes it in; a lamp count is then written back (R89, R90, R469). -/
def storeItem (i : StoreItem) (s : State) : State :=
  let t := { s with dict := { s.dict with flash := { s.dict.flash.putStore (storedItem i s) with writes := s.dict.flash.writes + 1 } } }
  match i with
  | .lampCount n _ => writebackDone n t
  | _ => t

/-- A store that failed (R89, Table 17.2 device cause 6). -/
def storeFails (s : State) : State :=
  let s := fire 0x04D (setSticky Oid.dictPersistStatus 0 1 s)
  setSticky Oid.faultsAlertStatus 0 0x20 (logUntracked resDevice 6 0 s)

/-- PERSIST_STORE (R89): the oldest outstanding store ends; a warm reset or an orderly shutdown may have waited for it. A store that would take the object values of a copy beyond 256 KiB fails (R90; DESIGN CHOICE, entry 133). -/
def execPersistStore (ok : Bool) (s : State) : Host.Outcome State Fault Refusal :=
  match s.dict.waiting with
  | [] => .next s
  | i :: rest =>
    let s := { s with dict := { s.dict with waiting := rest } }
    let s := if ok && decide (storeBytes (storedItem i s) ≤ 262144) then storeItem i s else storeFails s
    .next (settleWarm (settleShutdown s))

/-! ### The management port (R105) -/

/-- The device's IPv6 link-local address, by modified EUI-64 of `dict.mgmt_mac`. -/
def mgmtIpv6 (s : State) : Nat :=
  let m := getObj s Oid.dictMgmtMac
  let hi := m / 2 ^ 24 ^^^ 0x020000
  0xFE80 * 2 ^ 112 + hi * 2 ^ 40 + 0xFFFE * 2 ^ 24 + m % 2 ^ 24

/-- Send a frame on the management port. -/
def sendMgmt (dst etype : Nat) (body : List Byte) (s : State) : State :=
  emit (.mgmtFrame (withFcs (ethFrame dst (getObj s Oid.dictMgmtMac) none etype body))) s

/-- The answer of the management port to a frame: its destination, EtherType and body. -/
def mgmtAnswer (s : State) (b : List Byte) : Option (Nat × Nat × List Byte) :=
  let e := parseEth b
  let mac := getObj s Oid.dictMgmtMac
  let ip4 := getObj s Oid.dictMgmtIpv4
  let ip6 := mgmtIpv6 s
  if e.etype = 0x0806 then (arpReply mac ip4 e.body).map (fun r => (r.1, 0x0806, r.2))
  else match parseIp e.etype e.body with
  | none => none
  | some ip =>
    if ip.v6 then
      match icmp6Body ip with
      | none => none
      | some m =>
        if byteAt m 0 = 135 && beNat (slice 8 16 m) = ip6 then
          some (e.src, 0x86DD, ipv6Packet ip6 ip.src 58 0 255 (neighbourReply mac ip6 ip.src))
        else if byteAt m 0 = 128 && ip.dst = ip6 then
          some (e.src, 0x86DD, ipv6Packet ip6 ip.src 58 0 64 (icmp6 ip6 ip.src ([129, 0, 0, 0] ++ m.drop 4)))
        else none
    else if ip.proto = 1 && byteAt ip.body 0 = 8 && ip.dst = mapped4 ip4 then
      some (e.src, 0x0800, ipv4Packet ip4 ip.src 1 0 64 true [] (echoReply ip.body))
    else none

/-- Whether a frame is Linob to this device: its datagram is a request of its own (R105). -/
def isLinobFrame (s : State) (b : List Byte) : Bool :=
  let e := parseEth b
  match parseIp e.etype e.body with
  | some ip => ip.proto = 17 && udpDst ip = 19522 && (ip.dst = mapped4 (getObj s Oid.dictMgmtIpv4) || ip.dst = mgmtIpv6 s)
  | none => false

/-- MANAGEMENT_PORT_FRAME (R105). -/
def execManagementPortFrame (frame : List Byte) (s : State) : Host.Outcome State Fault Refusal :=
  if !dictServed s || isLinobFrame s frame then .next s
  else match mgmtAnswer s frame with
  | some r => .next (sendMgmt r.1 r.2.1 r.2.2 s)
  | none => .next { s with dict := { s.dict with mgmtDrop := s.dict.mgmtDrop + 1 } }

end Sys2Proof.Machine
end

