-- ==== Sys2Proof/Machine/Boot.lean ====
section
/-! DEFINITION. The later steps of Boot (Table 2.4): HBM training with the retirements it restores (R344, R509), and the end of Boot, where the dictionary takes its defaults, its persistent values and the saved plans (R54, R55, R127). -/

namespace Sys2Proof.Machine

open Sys2Proof

/-! ### The stored retirement list (R508, R509) -/

/-- A stored entry of the retirement list. -/
def retiredOf (b : List Byte) : Retired :=
  { res := leNat (slice 0 2 b), cause := byteAt b 2, reason := byteAt b 3, spare := byteAt b 4
    time := packTime (leNat (slice 8 4 b)) (leNat (slice 12 4 b)) 0 }

/-- The number a persistent object holds in the store, or its default (R90). -/
def storedNum (s : State) (id : Nat) : Nat :=
  match tabFind (objKey id 0) s.dict.flash.store.objs with
  | some v => valNum v
  | none => objDefault id 0

/-- A stored kind 5 entry is applied before training: the PC is retired and its spare serves its slot. -/
def restorePc (r : Retired) (s : State) : State :=
  let p := r.res % 4096
  let part := getObj s Oid.cellarPcPartition p
  let slot := getObj s Oid.cellarPcSlot p
  let s := putObj Oid.cellarPcSlot p 0xFF (putObj Oid.cellarPcPartition p 4 (putObj Oid.cellarPcState p 5 s))
  if r.spare < 128 then assignSpare r.spare part slot s
  else if part = 3 then putObj Oid.cellarSparesFree 0 (getObj s Oid.cellarSparesFree - 1) s
  else s

/-- A cold Boot takes the stored list when `faults.retire_persist` is stored as 1 (R509). -/
def restoreList (s : State) : State :=
  if storedNum s Oid.faultsRetirePersist = 1 then
    let l := (s.dict.flash.store.retired.map retiredOf).take 1024
    let s := putObj Oid.faultsRetirePersist 0 1 { s with flt := { s.flt with retired := l } }
    (l.filter (fun r => r.res / 4096 = 5)).foldl (fun s r => restorePc r s) s
  else s

/-- The other stored entries, at step 7 of Table 2.4; a warm Boot has kept every retirement as it was (R509). -/
def restoreOther (s : State) : State :=
  if !s.modes.bootCold then s
  else s.flt.retired.foldl (fun s r =>
    if r.res / 4096 = 1 then putLane Oid.laneRetireCause (r.res % 4096) 3 s
    else if r.res / 4096 = 7 then putObj Oid.posRetired (r.res % 4096) 1 s
    else s) s

/-! ### Training (R344) -/

/-- A PC that is not retired has been trained. -/
def trainPc (p : Nat) (s : State) : State :=
  let st := getObj s Oid.cellarPcState p
  if st = 5 || st = 7 then s else putObj Oid.cellarPcState p (if getObj s Oid.cellarPcPartition p = 3 then 6 else 2) s

/-- The PCs that fail training or the quick test, spares first: a spare that fails replaces none. -/
def failTraining (train test : List Nat) (s : State) : State :=
  let bad := train ++ test.filter (fun p => decide (p ∉ train))
  let spares := bad.filter (fun p => getObj s Oid.cellarPcPartition p = 3)
  let others := bad.filter (fun p => getObj s Oid.cellarPcPartition p != 3)
  (spares ++ others).foldl (fun s p => pcFault p (if p ∈ train then 4 else 5) true s) s

/-- Training of every PC, with the failures found. -/
def trainAll (train test : List Nat) (s : State) : State :=
  let s := { s with modes := { s.modes with hbm := .running }, cel := { s.cel with debt := [] } }
  failTraining train test ((List.range 128).foldl (fun s p => trainPc p s) s)

/-- HBM_TRAINING (R344): at step 6 of Boot, or on leaving a Dormant in which HBM was powered down (R64); the quick test runs after a cold reset only. -/
def execHbmTraining (trainFailed testFailed : List Pc) (s : State) : Host.Outcome State Fault Refusal :=
  let train := trainFailed.map (fun p => p.val)
  let test := testFailed.map (fun p => p.val)
  if s.modes.current = .boot && s.modes.step = .firmwareStarted then
    let s :=
      if s.modes.bootCold then trainAll train test (restoreList (hbmLost s))
      else trainAll train [] s
    .next (settleCauses { s with modes := { s.modes with step := .trained } })
  else if s.modes.current = .dormant && s.modes.target = some .ready && s.modes.hbm = .poweredDown then
    .next (settleCauses (trainAll train [] s))
  else .next s

/-! ### The dictionary at the end of Boot (R54) -/

/-- The ID of an object with its quad's group taken out. -/
def baseId (id : Nat) : Nat := if isQuadGroup (id / 65536) then id - (id / 65536 - 0x10) * 65536 else id

/-- RO objects whose value is a state that the hardware is still in when Boot completes, or a record that this Boot or the reset has just made: they take the value that this state gives them. -/
def lastingStates : List Nat := [
  Oid.modesLastChange, Oid.modesResetCause, Oid.modesLimpCause, Oid.modesHaltCause, Oid.modesBootStatus, Oid.modesBootSlot, Oid.modesBootTime,
  Oid.timeLocked, Oid.timeOffset, Oid.timePtpState, Oid.timePtpMeanDelay, Oid.timeBhLevel, Oid.timeBhHopDelay, Oid.timeBhLocked,
  Oid.timeBhOffset, Oid.timeBhMembers,
  Oid.quadRateActual, Oid.quadPllLocked, Oid.quadRefPresent, Oid.laneSignal, Oid.laneBlockLock, Oid.laneEfom, Oid.laneEyeWidth, Oid.laneCtle,
  Oid.lanePrbsLock, Oid.laneRetireCause,
  Oid.cellarPcState, Oid.cellarSparesFree, Oid.cellarPcPartition, Oid.cellarPcSlot, Oid.cellarTemp, Oid.cellarRefreshDoubled,
  Oid.cellarRepairsLeft, Oid.cellarScrubProgress,
  Oid.posPositionValid, Oid.posPhase, Oid.posAmplitude, Oid.posSpeed, Oid.posSpeedValid, Oid.posDir, Oid.posSpeedMethod, Oid.posRetired,
  Oid.lampStored, Oid.lampRatedLife, Oid.lampHeadMaxWidth, Oid.lampHeadMaxDuty, Oid.lampHeadIlimit, Oid.lampHeadVendor, Oid.lampHeadModel,
  Oid.lampHeadSerial, Oid.lampIntlkLevel,
  Oid.hostlinkLinkSpeed, Oid.hostlinkLinkWidth, Oid.hostlinkFlitMode, Oid.hostlinkCplTimeoutUs, Oid.hostlinkBar2SizeActive,
  Oid.powerClockStep, Oid.powerDieTemp, Oid.powerDieSensor, Oid.countersSnapshotGen, Oid.countersSnapshotTime]

/-- An object value kept across a warm reset (R54): the increment, the written positions, the head's own data, every counter, and the states that the hardware is in. -/
def keptAtBoot (id : Nat) : Bool :=
  id = Oid.timeIncrement || id = Oid.posPosition || id = Oid.lampHeadUser || decide (baseId id ∈ lastingStates)
    || (Oid.laneDfeTap ≤ baseId id && decide (baseId id ≤ Oid.laneDfeTap + 15))
    || (match objRow? id with | some r => r.counter | none => false)

/-- Every object takes its default, but for those R54 keeps. -/
def takeDefaults (s : State) : State :=
  { s with
    objs := s.objs.filter (fun o => keptAtBoot (o.1 / 65536))
    blobs := s.blobs.filter (fun b => keptAtBoot (b.1 / 65536)) }

/-- State that belongs to configuration that has just taken its defaults: compare units and snapshots are disarmed, nothing is pending, grist cells are clear (R54, R172, 05_event_fabric). -/
def clearConfigured (s : State) : State :=
  { s with
    time := { s.time with cmpArmed := [], snapArmed := none, snapNow := false, snapDue := false, snapUnlocked := false }
    fab := { s.fab with pend := [], grist := [], trigOut := [], flowTrig := [], prev := []
                        trigIn := s.fab.trigIn.map (fun t => (t.1, { t.2 with stuck := false, edge := none })) }
    pos := { s.pos with cmp := [], list := [] }
    cel := { s.cel with debt := [], testing := [] }
    rk := { sec := s.rk.sec, inSec := s.rk.inSec, outSec := s.rk.outSec } }

/-- One stored value is applied; the count of a lamp channel without a head memory only where the block has lost it (R54, R469). -/
def applyStored (k : Nat) (v : PVal) (s : State) : State :=
  let id := k / 65536
  let idx := k % 65536
  match v with
  | .bytes b => putBlob id idx b s
  | .num n =>
    if id = Oid.timePtpProfile then loadProfile n (putObj id idx n s)
    else if id = Oid.timePtpRole || id = Oid.timePtpPort then ptpRestart (putObj id idx n s)
    else if id = Oid.timeBhUpstream then (if n < 16 then setSource 3 (putObj id idx n s) else putObj id idx n s)
    else if id = Oid.lampFlashes then (if s.modes.bootCold && !(lampX s idx).present then putObj Oid.lampStored idx n (putObj id idx n s) else s)
    else putObj id idx n s

/-- Every stored value is applied, `time.source` last (R89, R140). -/
def applyPersistent (s : State) : State :=
  let s := s.dict.flash.store.objs.foldl (fun s e => applyStored e.1 e.2 s) s
  match tabFind (objKey Oid.timeSource 0) s.dict.flash.store.objs with
  | some v => setSource (valNum v) s
  | none => s

/-- A plan as Boot loads it (R120, Table 3.8). -/
def loadedPlan (es : Option (List PlanEntry)) : Plan :=
  match es with
  | some es => { state := .sealed, entries := es }
  | none => {}

/-- Step 7 of Table 2.4. -/
def bootDictionary (s : State) : State :=
  let was := (List.range 8).filter (isOn s Oid.posEnable ·)
  let s := clearConfigured (takeDefaults s)
  let s := applyPersistent s
  let s := restoreOther s
  let s := was.foldl (fun s n => if isOn s Oid.posEnable n then s else encDisabled n s) s
  { s with
    dict := { s.dict with planA := loadedPlan s.dict.flash.store.planA, planB := loadedPlan s.dict.flash.store.planB }
    link := { s.link with subVendor := getObj s Oid.hostlinkSubsysVendor, subId := getObj s Oid.hostlinkSubsysId } }

/-- The pitch of `plans.boot_pitch` (R127): of a saved plan that passes its seal checks, at the first tick of the mode. -/
def bootPitch (s : State) : State :=
  let code := getObj s Oid.plansBootPitch
  let p := planNamed (code - 1)
  if code = 0 || (planOf s p).state != .sealed || (sealFailure (planOf s p).entries s).isSome then s
  else
    schedulePitch { plan := p, when_ := 0, flow := 0, time := 0, armed := true, secure := true, late := false, reply := .none
                    armedAt := s.time.ticks } s

/-- One output pin as Boot ends: it takes its persistent mode and polarity, and leaves the low level of Boot where these ask for high (R178, R188). -/
def bootPin (n : Nat) (s : State) : State :=
  let active := decide (getObj s Oid.eventsTrigOutMode n = 3)
  let s := { s with fab := { s.fab with trigOut := tabPut {} n { active := active } s.fab.trigOut } }
  if active != (getObj s Oid.eventsTrigOutPolarity n = 1) then emit (.trigOut n (now s) true) s else s

/-- The output pins as Boot ends; PPS_OUT leaves its low level too (R145). -/
def bootPins (s : State) : State :=
  let s := (List.range 16).foldl (fun s n => bootPin n s) s
  if s.time.ppsActive != (getObj s Oid.timePpsOutPolarity = 1) then emit (.pps (now s) true) s else s

/-- The mode that Boot ends in: Limp for a cause found on the way or a critical reading (R68, R518), Halt where the staging SRAM has failed too (R63), else `modes.boot_target`. -/
def bootEnds (s : State) : State :=
  let s := if readingCritical s then setSticky Oid.modesLimpCause 0 2 s else s
  if getObj s Oid.modesLimpCause != 0 then
    (if stagingFailed s then haltBy 0x10 s else bootPins (bootPitch (enterLimp s)))
  else
    let b : Mode := if getObj s Oid.modesBootTarget = 2 then .dormant else .ready
    bootPins (bootPitch (settleMode b (enterEffects .boot b s)))

/-- BOOT_COMPLETE (R55). -/
def execBootComplete (micros : BitVec 32) (s : State) : Host.Outcome State Fault Refusal :=
  if s.modes.current = .boot && s.modes.step = .trained then
    let s := bootDictionary s
    let s := putObj Oid.hostlinkBar2SizeActive 0 (getObj s Oid.hostlinkBar2Size) (putObj Oid.modesBootTime 0 micros.toNat s)
    .next (bootEnds { s with modes := { s.modes with step := .done, bootEnd := s.time.ticks } })
  else .next s

end Sys2Proof.Machine
end

