-- ==== Sys2Proof/Machine/Ticks.lean ====
section
/-! DEFINITION. The kiln tick of the whole block: the timekeeper's (04_timekeeper), what the casks show from the tick after a release (R312), and the write-backs to heads that are due again (R470). -/

namespace Sys2Proof.Machine

open Sys2Proof

/-- One kiln tick. -/
def tick (s : State) : State := lampRetries (showReleases (kilnTick s))

/-! ### Rows -/

/-- KILN_TICK (R129, R171): nothing counts in Cold (Table 4.5). -/
def execKilnTick (s : State) : Host.Outcome State Fault Refusal :=
  if s.modes.current = .cold then .next s else .next (tick s)

/-- STEP_APPLY (R130, R137): a step is applied at step 2 of a tick and nowhere else, so with one pending the tick takes place. -/
def execStepApply (s : State) : Host.Outcome State Fault Refusal :=
  if s.modes.current = .cold || s.time.step.isNone then .next s else .next (tick s)

end Sys2Proof.Machine
end

