-- ==== Sys2Proof/Machine/Writes.lean ====
section
/-! DEFINITION. The rows that name one object: a WRITE of that object to the live dictionary, by the transport the command names, served as any other request (R87, R117, R118). -/

namespace Sys2Proof.Machine

open Sys2Proof

/-- The payload of a WRITE of an object index (Table 3.4): the index where it has one, and the value's bytes. -/
def writePayload (le : Bool) (id idx : Nat) (v : List Byte) : List Byte :=
  (match objRow? id with | some r => if r.indices = 0 then [] else numOut le 2 idx | none => []) ++ v

/-- A message of a session or broadcast with its trailer under a key. -/
def signedMsg (key : List Byte) (op seq n id : Nat) (payload : List Byte) : Msg :=
  let body := linobHeader op seq n id 0 payload.length ++ payload
  { op := op, seq := seq, session := n, obj := id, flags := 0, len := payload.length, body := body, payload := payload
    trailer := (hmacSha256 key body).take 16, version := 1 }

/-- A live WRITE of an object index by a transport; `v` gives the value's bytes in the transport's order. -/
def viaBytes (via : Via) (id idx : Nat) (v : Bool → List Byte) (fails : Option (List Nat)) (s : State) : State :=
  match via with
  | .firmware => if dictServed s then request { firmwareReq 2 0 id (writePayload true id idx (v true)) with fails := fails } .none s else s
  | .mailbox m seq =>
    let p := writePayload true id idx (v true)
    mailboxRequest m.val (BitVec.ofNat 32 (seq.toNat * 65536 + 2)) (BitVec.ofNat 32 id) (BitVec.ofNat 32 p.length) p fails false s
  | .session n seq =>
    if !dictServed s then s
    else match sessionOf s n.toNat with
    | none => authFailure s
    | some x => receiveSession x.src (signedMsg x.key 2 seq.toNat n.toNat id (writePayload false id idx (v false))) fails false s
  | .broadcast seq =>
    if !dictServed s then s
    else takeBroadcast (signedMsg (getBlob s Oid.dictKey 7) 2 seq.toNat 0xFFFE id (writePayload false id idx (v false))) fails false s

/-- A live WRITE of a value. -/
def viaWrite (via : Via) (id idx : Nat) (v : PVal) (fails : Option (List Nat)) (s : State) : State :=
  viaBytes via id idx (fun le => match objRow? id with | some r => encodeValue le r.type v | none => []) fails s

/-- A live WRITE of a number. -/
def viaNum (via : Via) (id idx v : Nat) (s : State) : State := viaWrite via id idx (.num v) none s

/-- The initiator, security and reply of a transport that carries a value in blocks (R94): its last block is accepted. -/
def viaAccept (via : Via) (id : Nat) (s : State) : Option (Initiator × Bool × Bool × Reply) :=
  match via with
  | .firmware => if dictServed s then some (.firmware, true, true, .none) else none
  | .mailbox m seq =>
    if bar0Writable s && (mboxOf s m.val).phase != .busy then some (.mailbox m.val, false, true, .mailbox m.val seq) else none
  | .session n seq =>
    match sessionOf s n.toNat with
    | some x => if dictServed s && !x.half && decide (x.highest < seq.toNat) then
        some (initiatorOf x.src x.num, x.secure, false, .linob x.src x.num seq.toNat id) else none
    | none => none
  | .broadcast _ => none

/-- A value longer than one message, moved by WRITE_BLOCKs and complete (R94). -/
def viaImage (via : Via) (id idx : Nat) (b : List Byte) (s : State) : State :=
  match viaAccept via id s with
  | none => s
  | some (who, secure, le, reply) =>
    let n := sessionNum who
    let s := match reply with
      | .linob _ _ seq _ => mapSession n (fun y => { y with highest := seq, stored := [] }) s
      | _ => s
    request { who := who, secure := secure, le := le, op := 2, id := id, payload := writePayload le id idx b } reply s

/-! ### Modes and firmware (02_modes) -/

/-- WARM_RESET (R54): the reset acts once every outstanding store has ended. -/
def execWarmReset (via : Via) (value : Word) (s : State) : Host.Outcome State Fault Refusal :=
  .next (viaNum via Oid.modesReset 0 value.toNat s)

/-- FW_IMAGE_WRITE (R62): an image that one WRITE carries, or the transfer of a longer one complete. -/
def execFwImageWrite (via : Via) (image : List Byte) (s : State) : Host.Outcome State Fault Refusal :=
  if image.length ≤ 1408 then .next (viaWrite via Oid.modesFwImage 0 (.bytes image) none s)
  else .next (viaImage via Oid.modesFwImage 0 image s)

/-- FW_COMMIT (R62). -/
def execFwCommit (via : Via) (value : BitVec 32) (s : State) : Host.Outcome State Fault Refusal :=
  .next (viaNum via Oid.modesFwCommit 0 value.toNat s)

/-- MODE_REQUEST (R45). -/
def execModeRequest (via : Via) (value : BitVec 16) (s : State) : Host.Outcome State Fault Refusal :=
  .next (viaNum via Oid.modesRequest 0 value.toNat s)

/-- SHUTDOWN (R76). -/
def execShutdown (via : Via) (value : BitVec 32) (s : State) : Host.Outcome State Fault Refusal :=
  .next (viaNum via Oid.modesShutdown 0 value.toNat s)

/-- WAKE_AT_WRITE (R67). -/
def execWakeAtWrite (via : Via) (t : Time96) (s : State) : Host.Outcome State Fault Refusal :=
  .next (viaNum via Oid.modesWakeAt 0 (Time96pack t) s)

/-! ### Dictionary service and plans (03_dictionary) -/

/-- PERSIST_CLEAR (R91). -/
def execPersistClear (via : Via) (value : BitVec 32) (s : State) : Host.Outcome State Fault Refusal :=
  .next (viaNum via Oid.dictPersistClear 0 value.toNat s)

/-- PLANS_SEAL (R120). -/
def execPlansSeal (via : Via) (p : PlanId) (value : Byte) (s : State) : Host.Outcome State Fault Refusal :=
  .next (viaNum via (Oid.plansSeal + planElem p) 0 value.toNat s)

/-- PLANS_CLEAR (R120). -/
def execPlansClear (via : Via) (p : PlanId) (value : Byte) (s : State) : Host.Outcome State Fault Refusal :=
  .next (viaNum via (Oid.plansClear + planElem p) 0 value.toNat s)

/-- PLANS_SAVE (R120). -/
def execPlansSave (via : Via) (p : PlanId) (value : Byte) (s : State) : Host.Outcome State Fault Refusal :=
  .next (viaNum via (Oid.plansSave + planElem p) 0 value.toNat s)

/-- OBJECT_WRITE (R118): the value's bytes in the transport's order. -/
def execObjectWrite (via : Via) (obj : BitVec 24) (index : Half) (data : List Byte) (s : State) : Host.Outcome State Fault Refusal :=
  .next (viaBytes via obj.toNat index.toNat (fun _ => data) none s)

/-! ### Time and events (04_timekeeper, 05_event_fabric) -/

/-- TIME_INCREMENT_WRITE (R130). -/
def execTimeIncrementWrite (via : Via) (value : BitVec 64) (s : State) : Host.Outcome State Fault Refusal :=
  .next (viaNum via Oid.timeIncrement 0 value.toNat s)

/-- TIME_STEP (R135). -/
def execTimeStep (via : Via) (value : BitVec 64) (s : State) : Host.Outcome State Fault Refusal :=
  .next (viaNum via Oid.timeStep 0 value.toNat s)

/-- TIME_SET (R136). -/
def execTimeSet (via : Via) (t : Time96) (s : State) : Host.Outcome State Fault Refusal :=
  .next (viaNum via Oid.timeSet 0 (Time96pack t) s)

/-- BH_UPSTREAM_WRITE (R140). -/
def execBhUpstreamWrite (via : Via) (value : BitVec 16) (s : State) : Host.Outcome State Fault Refusal :=
  .next (viaNum via Oid.timeBhUpstream 0 value.toNat s)

/-- CMP_MODE_WRITE (R154). -/
def execCmpModeWrite (via : Via) (u : Fin 64) (value : BitVec 16) (s : State) : Host.Outcome State Fault Refusal :=
  .next (viaNum via Oid.timeCmpMode u.val value.toNat s)

/-- CMP_TARGET_WRITE (R155). -/
def execCmpTargetWrite (via : Via) (u : Fin 64) (t : CmpTarget) (s : State) : Host.Outcome State Fault Refusal :=
  match t with
  | .time t => .next (viaNum via Oid.timeCmpTarget u.val (Time96pack t) s)
  | .short v => .next (viaNum via Oid.timeCmpShort u.val v.toNat s)

/-- SNAPSHOT_AT_WRITE (R158). -/
def execSnapshotAtWrite (via : Via) (t : Time96) (s : State) : Host.Outcome State Fault Refusal :=
  .next (viaNum via Oid.countersSnapshotAt 0 (Time96pack t) s)

/-- SNAPSHOT_NOW (R157). -/
def execSnapshotNow (via : Via) (value : Byte) (s : State) : Host.Outcome State Fault Refusal :=
  .next (viaNum via Oid.countersSnapshotNow 0 value.toNat s)

/-- FIRE (R169): a BAR0 fire word, or `events.fire`. -/
def execFire (f : FireBy) (s : State) : Host.Outcome State Fault Refusal :=
  match f with
  | .bar0 c trig => .next (bar0Write (bar0Fire c.val (some trig.toNat)) s)
  | .dict via c trig => .next (viaNum via Oid.eventsFire c.val trig.toNat s)

/-- FIRE_MASK (R169): a BAR0 mask word of 32 channels, or `events.fire_mask`. -/
def execFireMask (f : FireMaskBy) (s : State) : Host.Outcome State Fault Refusal :=
  match f with
  | .bar0 w mask => .next (bar0Write (bar0FireAll (maskChans mask.toNat (32 * w.val) 32)) s)
  | .dict via i mask => .next (viaNum via Oid.eventsFireMask i.val mask.toNat s)

/-- The object of a grist item. -/
def gristId : GristItem → Nat
  | .lut => Oid.eventsGristLut
  | .inputMode => Oid.eventsGristInputMode
  | .register => Oid.eventsGristRegister
  | .dSelect => Oid.eventsGristDSelect
  | .filter => Oid.eventsGristFilter
  | .edge => Oid.eventsGristEdge
  | .q => Oid.eventsGristQ

/-- GRIST_WRITE (R172). -/
def execGristWrite (via : Via) (item : GristItem) (g : Fin 64) (value : BitVec 32) (s : State) : Host.Outcome State Fault Refusal :=
  .next (viaNum via (gristId item) g.val value.toNat s)

/-! ### Lanes, quads and ports (06_lanes, 07_ports_flows, 08_underback) -/

/-- QUAD_MODE_WRITE (R224). -/
def execQuadModeWrite (via : Via) (q : Quad) (value : BitVec 16) (s : State) : Host.Outcome State Fault Refusal :=
  .next (viaNum via (quadId Oid.quadMode q.val) 0 value.toNat s)

/-- The object of a lane item, in group 0x10. -/
def laneItemObj : LaneItem → Nat
  | .txPre => Oid.laneTxPre
  | .txMain => Oid.laneTxMain
  | .txPost => Oid.laneTxPost
  | .txSwing => Oid.laneTxSwing
  | .rxInvert => Oid.laneRxInvert
  | .txInvert => Oid.laneTxInvert
  | .enable => Oid.laneEnable

/-- A write of a lane's object. -/
def viaLane (via : Via) (id n v : Nat) (s : State) : State := viaNum via (quadId id (n / 4)) (n % 4) v s

/-- LANE_CONFIG_WRITE (R224). -/
def execLaneConfigWrite (via : Via) (n : Lane) (item : LaneItem) (value : Byte) (s : State) : Host.Outcome State Fault Refusal :=
  .next (viaLane via (laneItemObj item) n.val value.toNat s)

/-- LANE_REINSTATE (R222). -/
def execLaneReinstate (via : Via) (n : Lane) (value : Byte) (s : State) : Host.Outcome State Fault Refusal :=
  .next (viaLane via Oid.laneReinstate n.val value.toNat s)

/-- PRBS_INJECT (R215). -/
def execPrbsInject (via : Via) (n : Lane) (value : Byte) (s : State) : Host.Outcome State Fault Refusal :=
  .next (viaLane via Oid.lanePrbsInject n.val value.toNat s)

/-- PRBS_CLEAR (R216). -/
def execPrbsClear (via : Via) (n : Lane) (value : Byte) (s : State) : Host.Outcome State Fault Refusal :=
  .next (viaLane via Oid.lanePrbsClear n.val value.toNat s)

/-- PORT_REINSTATE (R231). -/
def execPortReinstate (via : Via) (p : Port) (value : Byte) (s : State) : Host.Outcome State Fault Refusal :=
  .next (viaNum via Oid.portReinstate p.val value.toNat s)

/-- RAW_FRAME (R408): a frame that one WRITE carries, or the transfer of a longer one complete. -/
def execRawFrame (via : Via) (p : Port) (frame : List Byte) (s : State) : Host.Outcome State Fault Refusal :=
  if frame.length ≤ 1406 then .next (viaWrite via Oid.tapRawFrame p.val (.bytes frame) none s)
  else .next (viaImage via Oid.tapRawFrame p.val frame s)

/-- UNDERBACK_FLUSH (R275). -/
def execUnderbackFlush (via : Via) (n : Lane) (value : Byte) (s : State) : Host.Outcome State Fault Refusal :=
  .next (viaNum via Oid.underbackFlush n.val value.toNat s)

/-! ### Streams and memory (09 to 13) -/

/-- STAMP_CLEAR (R299). -/
def execStampClear (via : Via) (k : Fin 32) (value : Byte) (s : State) : Host.Outcome State Fault Refusal :=
  .next (viaNum via Oid.lauterStampClear k.val value.toNat s)

/-- The PCs whose retraining fails, where one PC is retrained. -/
def retrainOf (p : Nat) (pass : Bool) : Option (List Nat) := some (if pass then [] else [p])

/-- CELLAR_REINSTATE (R342). -/
def execCellarReinstate (via : Via) (p : Pc) (value : Byte) (pass : Bool) (s : State) : Host.Outcome State Fault Refusal :=
  .next (viaWrite via Oid.cellarReinstate p.val (.num value.toNat) (retrainOf p.val pass) s)

/-- CELLAR_TEST_START (R346). -/
def execCellarTestStart (via : Via) (value : Byte) (s : State) : Host.Outcome State Fault Refusal :=
  .next (viaNum via Oid.cellarTestStart 0 value.toNat s)

/-- RING_ENABLE (R358). -/
def execRingEnable (via : Via) (r : Ring) (s : State) : Host.Outcome State Fault Refusal :=
  .next (viaNum via Oid.rackingRingEnable r.val 1 s)

/-- RING_DISABLE (R358). -/
def execRingDisable (via : Via) (r : Ring) (s : State) : Host.Outcome State Fault Refusal :=
  .next (viaNum via Oid.rackingRingEnable r.val 0 s)

/-- CQ_ENABLE (R365). -/
def execCqEnable (via : Via) (c : Cq) (value : Byte) (s : State) : Host.Outcome State Fault Refusal :=
  .next (viaNum via Oid.rackingCqEnable c.val value.toNat s)

/-- EXC_ENABLE (R379). -/
def execExcEnable (via : Via) (value : Byte) (s : State) : Host.Outcome State Fault Refusal :=
  .next (viaNum via Oid.rackingExcEnable 0 value.toNat s)

/-- RACKING_RESUME (R382). -/
def execRackingResume (via : Via) (value : Byte) (s : State) : Host.Outcome State Fault Refusal :=
  .next (viaNum via Oid.rackingResume 0 value.toNat s)

/-- TAP_HOST_ENABLE (R404). -/
def execTapHostEnable (via : Via) (t : TxFlow) (value : Byte) (s : State) : Host.Outcome State Fault Refusal :=
  .next (viaNum via Oid.tapHostEnable t.val value.toNat s)

/-- PATTERN_SELFTEST (R539). -/
def execPatternSelftest (via : Via) (value : Half) (s : State) : Host.Outcome State Fault Refusal :=
  .next (viaNum via Oid.patternSelftest 0 value.toNat s)

/-- HYDRO_SELFTEST (R539). -/
def execHydroSelftest (via : Via) (value : Half) (s : State) : Host.Outcome State Fault Refusal :=
  .next (viaNum via Oid.hydroSelftest 0 value.toNat s)

/-! ### Position, lamps, faults, host link (14 to 17) -/

/-- POSITION_WRITE (R440). -/
def execPositionWrite (via : Via) (n : Enc) (value : Dword) (s : State) : Host.Outcome State Fault Refusal :=
  .next (viaNum via Oid.posPosition n.val value.toNat s)

/-- QUERY_AT (R444). -/
def execQueryAt (via : Via) (n : Enc) (t : Time96) (s : State) : Host.Outcome State Fault Refusal :=
  .next (viaNum via Oid.posQueryAt n.val (Time96pack t) s)

/-- CMP_ARM (R451). -/
def execCmpArm (via : Via) (u : CmpUnit) (value : Half) (s : State) : Host.Outcome State Fault Refusal :=
  .next (viaNum via Oid.posCmpMode u.val value.toNat s)

/-- The object of a compare item. -/
def cmpItemId : CmpItem → Nat
  | .target => Oid.posCmpTarget
  | .period => Oid.posCmpPeriod
  | .sense => Oid.posCmpSense

/-- POS_CMP_TARGET_WRITE (R457). -/
def execPosCmpTargetWrite (via : Via) (u : CmpUnit) (item : CmpItem) (value : Dword) (s : State) : Host.Outcome State Fault Refusal :=
  .next (viaNum via (cmpItemId item) u.val value.toNat s)

/-- POS_REINSTATE (R459). -/
def execPosReinstate (via : Via) (n : Enc) (value : Byte) (s : State) : Host.Outcome State Fault Refusal :=
  .next (viaNum via Oid.posReinstate n.val value.toNat s)

/-- LIFE_OVERRIDE (R471). -/
def execLifeOverride (via : Via) (n : Lamp) (value : Byte) (s : State) : Host.Outcome State Fault Refusal :=
  .next (viaNum via Oid.lampLifeOverride n.val value.toNat s)

/-- LAMP_REINSTATE (R474). -/
def execLampReinstate (via : Via) (n : Lamp) (value : Byte) (s : State) : Host.Outcome State Fault Refusal :=
  .next (viaNum via Oid.lampReinstate n.val value.toNat s)

/-- HEAD_USER_WRITE (R468). -/
def execHeadUserWrite (via : Via) (n : Lamp) (data : List Byte) (s : State) : Host.Outcome State Fault Refusal :=
  .next (viaWrite via Oid.lampHeadUser n.val (.bytes data) none s)

/-- FAULTS_REINSTATE (R507). -/
def execFaultsReinstate (via : Via) (res : Half) (pass : Bool) (s : State) : Host.Outcome State Fault Refusal :=
  .next (viaWrite via Oid.faultsReinstate 0 (.num res.toNat) (retrainOf (res.toNat % 4096) pass) s)

/-- LIST_CLEAR (R509). -/
def execListClear (via : Via) (value : Word) (failed : List Pc) (s : State) : Host.Outcome State Fault Refusal :=
  .next (viaWrite via Oid.faultsListClear 0 (.num value.toNat) (some (failed.map (fun p => p.val))) s)

/-- WIN_ATTR_WRITE (R495). -/
def execWinAttrWrite (via : Via) (w : Fin 64) (value : Half) (s : State) : Host.Outcome State Fault Refusal :=
  .next (viaNum via Oid.hostlinkWinAttr w.val value.toNat s)

end Sys2Proof.Machine
end

