-- ==== Sys2Proof/Machine/Dispatch.lean ====
section
/-! DEFINITION. The dispatch: one arm per constructor of `Instr`, each one direct call of its meaning. -/

namespace Sys2Proof.Machine

open Sys2Proof

/-- The effect of a command on everything but the queue. -/
def exec (i : Instr) (s : State) : Host.Outcome State Fault Refusal :=
  match i with
  | .coldReset cause => Sys2Proof.Machine.execColdReset cause s
  | .coldExit => Sys2Proof.Machine.execColdExit s
  | .kilnBrownOut => Sys2Proof.Machine.execKilnBrownOut s
  | .bootImageLoad => Sys2Proof.Machine.execBootImageLoad s
  | .bootBist kilnOk coreOk stagingOk => Sys2Proof.Machine.execBootBist kilnOk coreOk stagingOk s
  | .hbmTraining trainFailed testFailed => Sys2Proof.Machine.execHbmTraining trainFailed testFailed s
  | .bootComplete micros => Sys2Proof.Machine.execBootComplete micros s
  | .warmReset via value => Sys2Proof.Machine.execWarmReset via value s
  | .fwImageWrite via image => Sys2Proof.Machine.execFwImageWrite via image s
  | .fwCommit via value => Sys2Proof.Machine.execFwCommit via value s
  | .modeRequest via value => Sys2Proof.Machine.execModeRequest via value s
  | .transitionComplete => Sys2Proof.Machine.execTransitionComplete s
  | .drainComplete => Sys2Proof.Machine.execDrainComplete s
  | .transmitCutTimeout t => Sys2Proof.Machine.execTransmitCutTimeout t s
  | .firmwareWatchdog => Sys2Proof.Machine.execFirmwareWatchdog s
  | .limpCause cause => Sys2Proof.Machine.execLimpCause cause s
  | .watchdogGraceEnd => Sys2Proof.Machine.execWatchdogGraceEnd s
  | .haltCause cause => Sys2Proof.Machine.execHaltCause cause s
  | .shutdown via value => Sys2Proof.Machine.execShutdown via value s
  | .wakeCompare => Sys2Proof.Machine.execWakeCompare s
  | .wakeAhead => Sys2Proof.Machine.execWakeAhead s
  | .wakeAtWrite via t => Sys2Proof.Machine.execWakeAtWrite via t s
  | .read q => Sys2Proof.Machine.execRead q s
  | .write q => Sys2Proof.Machine.execWrite q s
  | .readBlock q => Sys2Proof.Machine.execReadBlock q s
  | .writeBlock q => Sys2Proof.Machine.execWriteBlock q s
  | .subscribe q => Sys2Proof.Machine.execSubscribe q s
  | .notify k => Sys2Proof.Machine.execNotify k s
  | .sessionOpen q => Sys2Proof.Machine.execSessionOpen q s
  | .sessionProof q => Sys2Proof.Machine.execSessionProof q s
  | .pitch q => Sys2Proof.Machine.execPitch q s
  | .abort q => Sys2Proof.Machine.execAbort q s
  | .mailboxOverrun m value => Sys2Proof.Machine.execMailboxOverrun m value s
  | .linobForward inp dest msg => Sys2Proof.Machine.execLinobForward inp dest msg s
  | .blockTransferTimeout id index => Sys2Proof.Machine.execBlockTransferTimeout id index s
  | .halfOpenTimeout n => Sys2Proof.Machine.execHalfOpenTimeout n s
  | .sessionTimeout n => Sys2Proof.Machine.execSessionTimeout n s
  | .persistStore ok => Sys2Proof.Machine.execPersistStore ok s
  | .persistClear via value => Sys2Proof.Machine.execPersistClear via value s
  | .plansSeal via p value => Sys2Proof.Machine.execPlansSeal via p value s
  | .plansClear via p value => Sys2Proof.Machine.execPlansClear via p value s
  | .plansSave via p value => Sys2Proof.Machine.execPlansSave via p value s
  | .armingEnd => Sys2Proof.Machine.execArmingEnd s
  | .pitchTakesPlace => Sys2Proof.Machine.execPitchTakesPlace s
  | .boundaryTimeout => Sys2Proof.Machine.execBoundaryTimeout s
  | .timeIncrementWrite via value => Sys2Proof.Machine.execTimeIncrementWrite via value s
  | .timeStep via value => Sys2Proof.Machine.execTimeStep via value s
  | .timeSet via t => Sys2Proof.Machine.execTimeSet via t s
  | .stepApply => Sys2Proof.Machine.execStepApply s
  | .tkLatch pos => Sys2Proof.Machine.execTkLatch pos s
  | .ptpMessage port m stamp => Sys2Proof.Machine.execPtpMessage port m stamp s
  | .holdoverLimit => Sys2Proof.Machine.execHoldoverLimit s
  | .ppsOutPulse => Sys2Proof.Machine.execPpsOutPulse s
  | .ppsOutPulseEnd => Sys2Proof.Machine.execPpsOutPulseEnd s
  | .ppsInEdge rising t => Sys2Proof.Machine.execPpsInEdge rising t s
  | .ppsInMissing => Sys2Proof.Machine.execPpsInMissing s
  | .bhUpstreamWrite via value => Sys2Proof.Machine.execBhUpstreamWrite via value s
  | .beaconSend => Sys2Proof.Machine.execBeaconSend s
  | .beacon link b arrival => Sys2Proof.Machine.execBeacon link b arrival s
  | .probeSend departure => Sys2Proof.Machine.execProbeSend departure s
  | .probe link arrival departure => Sys2Proof.Machine.execProbe link arrival departure s
  | .probeReply link t2 t3 t4 => Sys2Proof.Machine.execProbeReply link t2 t3 t4 s
  | .beaconLoss q => Sys2Proof.Machine.execBeaconLoss q s
  | .addressAnnounce m => Sys2Proof.Machine.execAddressAnnounce m s
  | .trigger q src seq hops rep chan trig t => Sys2Proof.Machine.execTrigger q src seq hops rep chan trig t s
  | .scheduledFire => Sys2Proof.Machine.execScheduledFire s
  | .cmpModeWrite via u value => Sys2Proof.Machine.execCmpModeWrite via u value s
  | .cmpTargetWrite via u t => Sys2Proof.Machine.execCmpTargetWrite via u t s
  | .timeCompare u => Sys2Proof.Machine.execTimeCompare u s
  | .snapshotAtWrite via t => Sys2Proof.Machine.execSnapshotAtWrite via t s
  | .snapshotNow via value => Sys2Proof.Machine.execSnapshotNow via value s
  | .snapshot => Sys2Proof.Machine.execSnapshot s
  | .occurrenceDelivery c => Sys2Proof.Machine.execOccurrenceDelivery c s
  | .pendingDelivery c => Sys2Proof.Machine.execPendingDelivery c s
  | .fire f => Sys2Proof.Machine.execFire f s
  | .fireMask f => Sys2Proof.Machine.execFireMask f s
  | .gristCellFire g => Sys2Proof.Machine.execGristCellFire g s
  | .gristWrite via item g value => Sys2Proof.Machine.execGristWrite via item g value s
  | .trigInEdge n rising t => Sys2Proof.Machine.execTrigInEdge n rising t s
  | .trigInStuck n => Sys2Proof.Machine.execTrigInStuck n s
  | .trigOutPulseEnd n => Sys2Proof.Machine.execTrigOutPulseEnd n s
  | .vectorTimer v => Sys2Proof.Machine.execVectorTimer v s
  | .quadModeWrite via q value => Sys2Proof.Machine.execQuadModeWrite via q value s
  | .laneConfigWrite via n item value => Sys2Proof.Machine.execLaneConfigWrite via n item value s
  | .quadPllLock q ref => Sys2Proof.Machine.execQuadPllLock q ref s
  | .pllLockTimeout q => Sys2Proof.Machine.execPllLockTimeout q s
  | .referenceLost r => Sys2Proof.Machine.execReferenceLost r s
  | .referenceReturn r => Sys2Proof.Machine.execReferenceReturn r s
  | .selfCheckDone n pass => Sys2Proof.Machine.execSelfCheckDone n pass s
  | .signalDetect n => Sys2Proof.Machine.execSignalDetect n s
  | .lossOfSignal n => Sys2Proof.Machine.execLossOfSignal n s
  | .cdrLock n => Sys2Proof.Machine.execCdrLock n s
  | .cdrLockLost n => Sys2Proof.Machine.execCdrLockLost n s
  | .adaptationDone n figures taps => Sys2Proof.Machine.execAdaptationDone n figures taps s
  | .blockLock n bits => Sys2Proof.Machine.execBlockLock n bits s
  | .blockLockLost n bits => Sys2Proof.Machine.execBlockLockLost n bits s
  | .huntTimeout n => Sys2Proof.Machine.execHuntTimeout n s
  | .alignmentLock a => Sys2Proof.Machine.execAlignmentLock a s
  | .efomWindow n fom width taps => Sys2Proof.Machine.execEfomWindow n fom width taps s
  | .eyeFault n => Sys2Proof.Machine.execEyeFault n s
  | .relockTimeout n => Sys2Proof.Machine.execRelockTimeout n s
  | .laneReinstate via n value => Sys2Proof.Machine.execLaneReinstate via n value s
  | .prbsInject via n value => Sys2Proof.Machine.execPrbsInject via n value s
  | .prbsClear via n value => Sys2Proof.Machine.execPrbsClear via n value s
  | .prbsCheckerLock n bits => Sys2Proof.Machine.execPrbsCheckerLock n bits s
  | .portFault p cause => Sys2Proof.Machine.execPortFault p cause s
  | .portReinstate via p value => Sys2Proof.Machine.execPortReinstate via p value s
  | .frameReceive p frame fecCorrected fecBad stamp => Sys2Proof.Machine.execFrameReceive p frame fecCorrected fecBad stamp s
  | .pauseReceive p frame => Sys2Proof.Machine.execPauseReceive p frame s
  | .pauseStopEnd p prio => Sys2Proof.Machine.execPauseStopEnd p prio s
  | .pauseRequest p => Sys2Proof.Machine.execPauseRequest p s
  | .pauseRefresh p => Sys2Proof.Machine.execPauseRefresh p s
  | .multicastJoin f => Sys2Proof.Machine.execMulticastJoin f s
  | .rawFrame via p frame => Sys2Proof.Machine.execRawFrame via p frame s
  | .cascadeFrameDiscard q => Sys2Proof.Machine.execCascadeFrameDiscard q s
  | .packetCommit n => Sys2Proof.Machine.execPacketCommit n s
  | .packetRewind n => Sys2Proof.Machine.execPacketRewind n s
  | .chainFullCut n => Sys2Proof.Machine.execChainFullCut n s
  | .crossingRead n chk => Sys2Proof.Machine.execCrossingRead n chk s
  | .underbackFlush via n value => Sys2Proof.Machine.execUnderbackFlush via n value s
  | .packetPlace n => Sys2Proof.Machine.execPacketPlace n s
  | .placementComplete k => Sys2Proof.Machine.execPlacementComplete k s
  | .rewindNotice => Sys2Proof.Machine.execRewindNotice s
  | .straggleTimeout f => Sys2Proof.Machine.execStraggleTimeout f s
  | .frameIdleTimeout f => Sys2Proof.Machine.execFrameIdleTimeout f s
  | .frameCommit f => Sys2Proof.Machine.execFrameCommit f s
  | .resendRequest f block id => Sys2Proof.Machine.execResendRequest f block id s
  | .stampClear via k value => Sys2Proof.Machine.execStampClear via k value s
  | .caskRelease id cause => Sys2Proof.Machine.execCaskRelease id cause s
  | .refreshDue p g => Sys2Proof.Machine.execRefreshDue p g s
  | .forcedRefresh p g => Sys2Proof.Machine.execForcedRefresh p g s
  | .refreshRepayment p g => Sys2Proof.Machine.execRefreshRepayment p g s
  | .stackTempRead k celsius => Sys2Proof.Machine.execStackTempRead k celsius s
  | .uncorrectableRead p unit first second => Sys2Proof.Machine.execUncorrectableRead p unit first second s
  | .ceThreshold p n => Sys2Proof.Machine.execCeThreshold p n s
  | .rowRepair p row bank corrected => Sys2Proof.Machine.execRowRepair p row bank corrected s
  | .pcRetire p cause => Sys2Proof.Machine.execPcRetire p cause s
  | .spareFillComplete p => Sys2Proof.Machine.execSpareFillComplete p s
  | .cellarReinstate via p value pass => Sys2Proof.Machine.execCellarReinstate via p value pass s
  | .scrub p unit first second progress => Sys2Proof.Machine.execScrub p unit first second progress s
  | .readRecalibration p => Sys2Proof.Machine.execReadRecalibration p s
  | .cellarTestStart via value => Sys2Proof.Machine.execCellarTestStart via value s
  | .cellarTestDone errs => Sys2Proof.Machine.execCellarTestDone errs s
  | .ringPost r value => Sys2Proof.Machine.execRingPost r value s
  | .ringEnable via r => Sys2Proof.Machine.execRingEnable via r s
  | .ringDisable via r => Sys2Proof.Machine.execRingDisable via r s
  | .cqEnable via c value => Sys2Proof.Machine.execCqEnable via c value s
  | .cqHead c value => Sys2Proof.Machine.execCqHead c value s
  | .deliveryStart => Sys2Proof.Machine.execDeliveryStart s
  | .deliveryDataDone k => Sys2Proof.Machine.execDeliveryDataDone k s
  | .completionEntry k => Sys2Proof.Machine.execCompletionEntry k s
  | .walkReadComplete tag data => Sys2Proof.Machine.execWalkReadComplete tag data s
  | .ringFault r code => Sys2Proof.Machine.execRingFault r code s
  | .exceptionEntry => Sys2Proof.Machine.execExceptionEntry s
  | .excEnable via value => Sys2Proof.Machine.execExcEnable via value s
  | .rackingResume via value => Sys2Proof.Machine.execRackingResume via value s
  | .tapEntry t => Sys2Proof.Machine.execTapEntry t s
  | .tapFrameStart t => Sys2Proof.Machine.execTapFrameStart t s
  | .packetDue p t => Sys2Proof.Machine.execPacketDue p t s
  | .tapFetchComplete t n => Sys2Proof.Machine.execTapFetchComplete t n s
  | .txPost t value => Sys2Proof.Machine.execTxPost t value s
  | .tapHostEnable via t value => Sys2Proof.Machine.execTapHostEnable via t value s
  | .tapStop t => Sys2Proof.Machine.execTapStop t s
  | .tapTrigger t => Sys2Proof.Machine.execTapTrigger t s
  | .replayCaskDone t => Sys2Proof.Machine.execReplayCaskDone t s
  | .patternSelftest via value => Sys2Proof.Machine.execPatternSelftest via value s
  | .selftestDone hydro pass => Sys2Proof.Machine.execSelftestDone hydro pass s
  | .hydroCompare f => Sys2Proof.Machine.execHydroCompare f s
  | .goldenReadReturn f => Sys2Proof.Machine.execGoldenReadReturn f s
  | .goldenDeadline f => Sys2Proof.Machine.execGoldenDeadline f s
  | .hydroClose f => Sys2Proof.Machine.execHydroClose f s
  | .hydroSelftest via value => Sys2Proof.Machine.execHydroSelftest via value s
  | .encoderSample n sine cosine ref half => Sys2Proof.Machine.execEncoderSample n sine cosine ref half s
  | .positionCompare n => Sys2Proof.Machine.execPositionCompare n s
  | .speedUpdate n => Sys2Proof.Machine.execSpeedUpdate n s
  | .standstillTimeout n => Sys2Proof.Machine.execStandstillTimeout n s
  | .positionWrite via n value => Sys2Proof.Machine.execPositionWrite via n value s
  | .queryAt via n t => Sys2Proof.Machine.execQueryAt via n t s
  | .cmpArm via u value => Sys2Proof.Machine.execCmpArm via u value s
  | .posCmpTargetWrite via u item value => Sys2Proof.Machine.execPosCmpTargetWrite via u item value s
  | .quadOutputEdge n => Sys2Proof.Machine.execQuadOutputEdge n s
  | .posReinstate via n value => Sys2Proof.Machine.execPosReinstate via n value s
  | .strobeDelivery n => Sys2Proof.Machine.execStrobeDelivery n s
  | .pulseEnd n mv => Sys2Proof.Machine.execPulseEnd n mv s
  | .strobeGapEnd n => Sys2Proof.Machine.execStrobeGapEnd n s
  | .writebackComplete n ok => Sys2Proof.Machine.execWritebackComplete n ok s
  | .headPoll n r => Sys2Proof.Machine.execHeadPoll n r s
  | .interlockFall g => Sys2Proof.Machine.execInterlockFall g s
  | .interlockPermit g => Sys2Proof.Machine.execInterlockPermit g s
  | .overcurrent n mv => Sys2Proof.Machine.execOvercurrent n mv s
  | .lifeOverride via n value => Sys2Proof.Machine.execLifeOverride via n value s
  | .lampReinstate via n value => Sys2Proof.Machine.execLampReinstate via n value s
  | .headUserWrite via n data => Sys2Proof.Machine.execHeadUserWrite via n data s
  | .faultsReinstate via res pass => Sys2Proof.Machine.execFaultsReinstate via res pass s
  | .listClear via value failed => Sys2Proof.Machine.execListClear via value failed s
  | .supplySag mv => Sys2Proof.Machine.execSupplySag mv s
  | .governorStepEnd mv => Sys2Proof.Machine.execGovernorStepEnd mv s
  | .coreRailFault => Sys2Proof.Machine.execCoreRailFault s
  | .thermalReading temps => Sys2Proof.Machine.execThermalReading temps s
  | .perstDeassert => Sys2Proof.Machine.execPerstDeassert s
  | .linkUp speed width partnerFlit => Sys2Proof.Machine.execLinkUp speed width partnerFlit s
  | .hostReset kind => Sys2Proof.Machine.execHostReset kind s
  | .busMasterDisable d3hot => Sys2Proof.Machine.execBusMasterDisable d3hot s
  | .busMasterEnable c => Sys2Proof.Machine.execBusMasterEnable c s
  | .l1Entry => Sys2Proof.Machine.execL1Entry s
  | .l1Exit => Sys2Proof.Machine.execL1Exit s
  | .npCompletion tag data => Sys2Proof.Machine.execNpCompletion tag data s
  | .completionTimeout tag => Sys2Proof.Machine.execCompletionTimeout tag s
  | .lateCompletion tag last => Sys2Proof.Machine.execLateCompletion tag last s
  | .quarantineExpiry tag => Sys2Proof.Machine.execQuarantineExpiry tag s
  | .poisonedCompletion tag => Sys2Proof.Machine.execPoisonedCompletion tag s
  | .bar2Access op => Sys2Proof.Machine.execBar2Access op s
  | .bar0PartialWrite => Sys2Proof.Machine.execBar0PartialWrite s
  | .winAttrWrite via w value => Sys2Proof.Machine.execWinAttrWrite via w value s
  | .interruptFormChange form disable => Sys2Proof.Machine.execInterruptFormChange form disable s
  | .objectWrite via obj index data => Sys2Proof.Machine.execObjectWrite via obj index data s
  | .kilnTick => Sys2Proof.Machine.execKilnTick s
  | .localOrRemoteFault p loc rem => Sys2Proof.Machine.execLocalOrRemoteFault p loc rem s
  | .msixVectorUnmask v => Sys2Proof.Machine.execMsixVectorUnmask v s
  | .srcStatusWrite w value => Sys2Proof.Machine.execSrcStatusWrite w value s
  | .excHead value => Sys2Proof.Machine.execExcHead value s
  | .managementPortFrame frame => Sys2Proof.Machine.execManagementPortFrame frame s
  | .ptpAnnounceTimeout => Sys2Proof.Machine.execPtpAnnounceTimeout s
  | .ptpMessageInterval m departure => Sys2Proof.Machine.execPtpMessageInterval m departure s

end Sys2Proof.Machine
end

