-- ==== Sys2Proof/Safety.lean ====
section
/-! DEFINITION. What the state must hold for claims to speak of it: the canonical form of its tables and of memory, and the sizes the spec gives three of its lists. Every step keeps these (stated in Certificates/Slice0). -/

namespace Sys2Proof

open Sys2Proof.Machine

/-- The tables of objects and of byte strings and the memory list are in canonical form: keys strictly rising. -/
def Canonical (s : State) : Prop :=
  tabSorted s.objs = true ∧ tabSorted s.blobs = true ∧ memWf s = true

/-- The retirement list holds 1,024 entries (R508), the fault log 256 (R510), and 64 brewhouse fires can be scheduled (R180). -/
def Bounded (s : State) : Prop :=
  s.flt.retired.length ≤ 1024 ∧ s.flt.log.length ≤ 256 ∧ s.fab.sched.length ≤ 64

/-- A sound state. -/
def Sound (s : State) : Prop := Canonical s ∧ Bounded s

/-- An outcome that is a next state, with a property of it. -/
def Answers (p : State → Prop) (o : Host.Outcome State Fault Refusal) : Prop := ∃ t, o = .next t ∧ p t

/-- A run of n steps that stops nowhere. -/
def Runs : Nat → State → Prop
  | 0, _ => True
  | n + 1, s => Answers (Runs n) (step s)


/-! ### A WRITE of one object, as a row of one object makes it -/

/-- A WRITE as its transport hands it to the server: the request, the reply it is owed, and the state the transport leaves. -/
structure Handed where
  req    : Req
  reply  : Reply
  before : State
deriving DecidableEq, Repr

/-- The state in which a mailbox hands over a WRITE: the registers and the doorbell written (R99, R100). -/
def doorbell (m : Nat) (seq : Half) (id : Nat) (payload : List Byte) (s : State) : State :=
  let u := barAccess s
  let u := putMbox m { mboxOf u m with cmd := BitVec.ofNat 32 (seq.toNat * 65536 + 2), obj := BitVec.ofNat 32 id
                                       len := BitVec.ofNat 32 payload.length, req := mailboxArea payload (mboxOf u m).req } u
  putMbox m { mboxOf u m with phase := .busy } u

/-- The payload of a WRITE of a value, in a byte order. -/
def valuePayload (le : Bool) (id idx : Nat) (v : PVal) : List Byte :=
  writePayload le id idx (match objRow? id with | some r => encodeValue le r.type v | none => [])

/-- What a transport hands to the server: the firmware's WRITE; a mailbox's that is not busy (R101); a session's, open, with a sequence above its highest (R108, R113); a broadcast under key slot 7 with a sequence above the last accepted (R115). -/
def conveyed (via : Via) (id idx : Nat) (v : PVal) (fails : Option (List Nat)) (s : State) : Option Handed :=
  let ask (who : Initiator) (src : Option Endpoint) (secure le : Bool) : Req :=
    { who := who, src := src, secure := secure, le := le, op := 2, id := id, payload := valuePayload le id idx v, fails := fails }
  match via with
  | .firmware => if dictServed s then some { req := ask .firmware none true true, reply := .none, before := s } else none
  | .mailbox m seq =>
    if bar0Writable s && (mboxOf s m.val).phase != .busy then
      some { req := ask (.mailbox m.val) none false true, reply := .mailbox m.val seq
             before := doorbell m.val seq id (valuePayload true id idx v) s }
    else none
  | .session n seq =>
    match sessionOf s n.toNat with
    | none => none
    | some x =>
      if dictServed s && !x.half && decide (x.highest < seq.toNat) then
        some { req := ask (initiatorOf x.src x.num) (some x.src) x.secure false, reply := .linob x.src x.num seq.toNat id
               before := mapSession x.num (fun y => { y with highest := seq.toNat, stored := [] }) s }
      else none
  | .broadcast seq =>
    if dictServed s && getObj s Oid.dictKeyClass 7 != 0 && !(getBlob s Oid.dictKey 7).isEmpty && decide (s.dict.bcastSeq ≤ seq.toNat) then
      some { req := ask .bcast none (getObj s Oid.dictKeyClass 7 = 2) false, reply := .bcast
             before := { s with dict := { s.dict with bcastSeq := seq.toNat + 1 } } }
    else none

/-- A WRITE that its transport hands to the server in one message (R94). -/
def handed (via : Via) (id idx : Nat) (v : PVal) (fails : Option (List Nat)) (s : State) : Option Handed :=
  ((conveyed via id idx v fails s).filter (fun h => decide (h.req.payload.length ≤ 1408))).map
    (fun h => { h with before := duePitch h.before })

/-- A longer value that its transport has moved in WRITE_BLOCKs, the last of them accepted (R94). -/
def handedBlocks (via : Via) (id idx : Nat) (b : List Byte) (s : State) : Option Handed :=
  (viaAccept via id s).map (fun a =>
    { req := { who := a.1, secure := a.2.1, le := a.2.2.1, op := 2, id := id, payload := writePayload a.2.2.1 id idx b }
      reply := a.2.2.2
      before := duePitch (match a.2.2.2 with
        | .linob _ _ seq _ => mapSession (sessionNum a.1) (fun y => { y with highest := seq, stored := [] }) s
        | _ => s) })

/-- The checks of R87 that a direct WRITE of a value passes, in a state: the index (3), SECURITY (4), what Limp or recovery serves (5), the access right (6), the length (7), the value's own limits and those of other objects, security and conflicts of the value (8 to 12), no transfer open, and consistency (13). -/
def PassesChecks (q : Req) (idx : Nat) (v : PVal) (u : State) : Prop :=
  ∃ r, objRow? q.id = some r ∧ q.id / 65536 < 0x80 ∧ idx < 65536 ∧ (idx < r.indices ∨ r.indices = 0 ∧ idx = 0) ∧
    secStatus u q r idx = St.ok ∧ servedStatus u r idx = St.ok ∧ accessStatus u q r = St.ok ∧
    decodeValue q.le r.type (encodeValue q.le r.type v) = some v ∧
    liveStatus u q r idx v v = St.ok ∧ transferOn u q.id idx = none ∧ consistencyStatus u q.id idx (valNum v) = St.ok

/-- A WRITE answered with a status, its effect done: the response carries the index (R80) and goes the way the request came, and what the effect caused is acted on. -/
def answered (h : Handed) (idx st : Nat) (t : State) : State :=
  settleWarm (settleCauses (respond h.before.dict.sessions h.reply 2
    { status := st, payload := writePayload h.req.le h.req.id idx [] } t))

/-- The command is a WRITE of a value to an object index: whenever its transport hands it over and it passes the checks, it is answered with the status and state that the effect gives. -/
def WriteRow (c : Instr) (via : Via) (id idx : Nat) (v : PVal) (fails : Option (List Nat)) (effect : Req → State → Nat × State) : Prop :=
  ∀ s h, handed via id idx v fails s = some h → PassesChecks h.req idx v h.before →
    exec c s = .next (answered h idx (effect h.req h.before).1 (effect h.req h.before).2)

/-- A `WriteRow` whose effect succeeds. -/
def Writes (c : Instr) (via : Via) (id idx : Nat) (v : PVal) (f : State → State) : Prop :=
  WriteRow c via id idx v none (fun _ u => (St.ok, f u))

/-- A value moved in blocks: once its last block is accepted and it passes the checks, it is answered as a WRITE of it. -/
def WritesBlocks (c : Instr) (via : Via) (id idx : Nat) (b : List Byte) (f : State → State) : Prop :=
  ∀ s h, handedBlocks via id idx b s = some h → PassesChecks h.req idx (.bytes b) h.before →
    exec c s = .next (answered h idx St.ok (f h.before))

/-- The persistent store of an object index starts (R89). -/
def stores (id idx : Nat) (s : State) : State := startStore (.object (objKey id idx)) s

/-! ### A request of a dictionary row -/

/-- A request in a Linob message addressed to this device, from an endpoint: of session 0x0000 with a trailer of zeros, or of a session with its source, its trailer and a sequence above its highest (R107 to R113). -/
def conveyedLinob (src : Endpoint) (m : Msg) (s : State) : Option Handed :=
  if m.session = 0 then
    (if m.trailer = List.replicate 16 0 ∧ m.version = 1 then
      some { req := linobReq (initiatorOf src 0) (some src) false m, reply := .linob src 0 m.seq m.obj, before := s } else none)
  else match sessionOf s m.session with
  | none => none
  | some x =>
    if x.src = src ∧ m.trailer = (hmacSha256 x.key m.body).take 16 ∧ (x.half = true ∧ m.op = 8 ∨ x.half = false ∧ x.highest < m.seq) ∧ m.version = 1 then
      some { req := linobReq (initiatorOf src x.num) (some src) (x.secure && !x.half) m, reply := .linob src x.num m.seq m.obj
             before := mapSession x.num (fun y => { y with highest := m.seq, stored := [] }) s }
    else none

/-- A Linob datagram whose request reaches the server. -/
def linobHanded (src : Endpoint) (d : List Byte) (s : State) : Option Handed :=
  if dictServed s then
    match parseMsg d with
    | some m => if m.op < 128 then conveyedLinob src m s else none
    | none => none
  else none

/-- What a transport hands to the server (R99 to R101, R107 to R117). -/
def delivered (q : Transport) (s : State) : Option Handed :=
  match q with
  | .mailbox m cmd obj len req =>
    if bar0Writable s && (mboxOf s m.val).phase != .busy then
      let u := barAccess s
      let area := mailboxArea req (mboxOf u m.val).req
      let u := putMbox m.val { mboxOf u m.val with cmd := cmd, obj := obj, len := len, req := area } u
      some { req := mailboxReq m.val cmd.toNat obj.toNat len.toNat area, reply := .mailbox m.val (BitVec.ofNat 16 (cmd.toNat / 65536))
             before := putMbox m.val { mboxOf u m.val with phase := .busy } u }
    else none
  | .mgmt ip udp d => linobHanded (.mgmt ip udp) d s
  | .cascade k src hops d =>
    if linkTakes s k.val hops.toNat then linobHanded (.member src) d (bump Oid.portBhFrames k.val s) else none
  | .broadcast k src seq hops d =>
    let u := floodLinob k.val src.toNat seq.toNat hops.toNat d (bump Oid.portBhFrames k.val s)
    if linkTakes s k.val hops.toNat && dictServed u then
      match parseMsg d with
      | none => none
      | some m =>
        if m.op < 128 ∧ m.session = 0xFFFE ∧ getObj u Oid.dictKeyClass 7 ≠ 0 ∧ getBlob u Oid.dictKey 7 ≠ [] ∧
            m.trailer = (hmacSha256 (getBlob u Oid.dictKey 7) m.body).take 16 ∧ u.dict.bcastSeq ≤ m.seq ∧ m.version = 1 then
          some { req := linobReq .bcast none (getObj u Oid.dictKeyClass 7 = 2) m, reply := .bcast
                 before := { u with dict := { u.dict with bcastSeq := m.seq + 1 } } }
        else none
    else none
  | .firmware op flags obj payload =>
    if dictServed s then some { req := firmwareReq op.toNat flags.toNat obj.toNat payload, reply := .none, before := s } else none
  | .faulted _ => none

/-- A request that its transport hands to the server, in the state it finds: a pitch that is due has taken place (R123, R126). -/
def carried (q : Transport) (s : State) : Option Handed := (delivered q s).map (fun h => { h with before := duePitch h.before })

/-- A request handed over, past steps 1 to 6 of R87: the opcode, the header, the object, SECURITY, what is served, the access right. -/
def Checked (h : Handed) (r : ObjRow) : Prop :=
  objRow? h.req.id = some r ∧ h.req.id / 65536 < 0x80 ∧ opStatus h.req = St.ok ∧ headerStatus h.req = St.ok ∧
    objectStatus h.before h.req r = St.ok

/-- A request answered, its effect done. -/
def replied (h : Handed) (a : Answer) (t : State) : State :=
  settleWarm (settleCauses (respond h.before.dict.sessions h.reply h.req.op a t))

end Sys2Proof
end

