-- ==== Sys2Proof/Certificates/Slice0/Obligations.lean ====
section
/-! DEFINITION. The statements for the provers, family by family. A step's result is given by the shared operations of the model (`putObj`, `setSticky`, `bump`, `fire`, `emit` and the record's own fields), so that what a statement does not name is unchanged. -/

open Sys2Proof Sys2Proof.Machine

/-! ### Timekeeper (04_timekeeper) -/

/-- STEP_APPLY, TIME_STEP and TIME_SET applied (R129, R130, R135 to R137): with a step pending the tick takes place, and its time is the accumulated time moved by the offsets asked for, or, after a set, the time set and the offsets after it, never below 0; no step is left pending, nanoseconds stay below 10^9, the tick is counted. Without a step pending, and in Cold, nothing changes. -/
def Obligations.StepApplyMovesTime : Prop :=
  (∀ s p, s.modes.current ≠ .cold → s.time.step = some p → s.time.ns < 1000000000 → s.time.frac < 2 ^ 32 →
    s.time.inc < 1000000000 * 2 ^ 32 → s.time.sec + 1 < 2 ^ 64 →
    ∃ t, exec .stepApply s = .next t ∧ t.time.step = none ∧
      timeUnits32 t = max ((match p.set with
        | none => timeUnits32 s + s.time.inc
        | some u => (((tSec u * 1000000000 + tNs u) * 2 ^ 32 + tFrac u * 65536 : Nat) : Int)) + p.add) 0 ∧
      t.time.ns < 1000000000 ∧ t.time.frac < 2 ^ 32 ∧ t.time.inc = s.time.incNext.getD s.time.inc ∧ t.time.ticks = s.time.ticks + 1 ∧
      t.mem = s.mem ∧ t.blobs = s.blobs ∧ t.pos = s.pos ∧ t.cel = s.cel ∧ t.hyd = s.hyd ∧ t.tap = s.tap ∧ t.flt = s.flt) ∧
  (∀ s, s.time.step = none → exec .stepApply s = .next s) ∧
  (∀ s, s.modes.current = .cold → exec .stepApply s = .next s)

/-- KILN_TICK (R129): with no step pending, one tick adds the increment in force to the time, with the carries of its fields; then an increment written since comes into force (R130), and the tick is counted. Nothing counts in Cold. -/
def Obligations.KilnTickAddsIncrement : Prop :=
  (∀ s, s.modes.current ≠ .cold → s.time.step = none → s.time.ns < 1000000000 → s.time.frac < 2 ^ 32 →
    s.time.inc < 1000000000 * 2 ^ 32 → s.time.sec + 1 < 2 ^ 64 →
    ∃ t, exec .kilnTick s = .next t ∧ timeUnits32 t = timeUnits32 s + s.time.inc ∧ t.time.ns < 1000000000 ∧ t.time.frac < 2 ^ 32 ∧
      t.time.inc = s.time.incNext.getD s.time.inc ∧ t.time.incNext = none ∧ t.time.ticks = s.time.ticks + 1 ∧
      t.modes = s.modes ∧ t.dict = s.dict ∧ t.pos = s.pos ∧ t.cel = s.cel ∧ t.hyd = s.hyd ∧
      t.tap = s.tap ∧ t.flt = s.flt ∧ t.blobs = s.blobs ∧ t.mem = s.mem) ∧
  (∀ s, s.modes.current = .cold → exec .kilnTick s = .next s)

/-- TK_LATCH (R133): a read copies its time into the four words, at the kiln-event resolution of Table 4.2, and changes nothing else; the link leaves L1 (R482). While the core domain runs that time is the tick time plus the position in the tick times the increment, truncated to 1 ns; without it, the tick time of the first tick at or after the read, here of this tick for a read at its start. SNAPSHOT (R156): when a time armed before this tick is reached, every counter is copied into its shadow, the generation advances, the snapshot's time is recorded, and source 0x045 fires; no counter changes but those of the source and its vector. -/
def Obligations.LatchesAndSnapshots : Prop :=
  ((∀ pos s, bar0Served s = true →
      exec (.tkLatch pos) s = .next { s with
        link := { s.link with l1 := false }
        time := { s.time with
          latchNs := tNs (kilnEventTime s pos)
          latchSecLo := tSec (kilnEventTime s pos) % 2 ^ 32
          latchSecHi := tFrac (kilnEventTime s pos) * 65536 + bits (tSec (kilnEventTime s pos)) 47 32
          latchShort := (tSec (kilnEventTime s pos) * 1000000000 + tNs (kilnEventTime s pos)) % 2 ^ 32 } }) ∧
    (∀ pos s, coreRuns s = true →
      tFrac (kilnEventTime s pos) = 0 ∧ tNs (kilnEventTime s pos) < 1000000000 ∧
      ((tSec (kilnEventTime s pos) * 1000000000 + tNs (kilnEventTime s pos) : Nat) : Int) =
        (timeUnits32 s + pos.toNat * s.time.inc / 2 ^ 16) / 2 ^ 32) ∧
    (∀ s, coreRuns s = false → kilnEventTime s 0 = now s)) ∧
  (∀ s u, s.time.snapArmed = some u → u ≤ now s → s.time.snapTick < s.time.ticks → getObj s Oid.countersSnapshotPeriod = 0 →
      exec .snapshot s = .next (fire 0x045 (setSticky Oid.countersSnapshotStatus 0
        ((if s.time.snapLate then 1 else 0) + (if isOn s Oid.timeLocked then 0 else 2))
        (putObj Oid.countersSnapshotTime 0 (now s) (putObj Oid.countersSnapshotGen 0 (nextGen (getObj s Oid.countersSnapshotGen))
          { s with time := { s.time with shadow := shadowCopy s.objs, snapUnlocked := !(isOn s Oid.timeLocked), snapArmed := none,
                                         snapLate := false, snapDue := false } })))))

/-- TIME_COMPARE (R154): an armed unit whose target is reached fires source u with the target as due time; in mode 1 it disarms; in mode 2 its target moves on by its period, or, when more than a period behind, by as many periods as are passed, one fire standing for them, with the status bit and the count of the catch-up. A unit disarmed, and one before its target, does nothing. -/
def Obligations.CompareFiresAtTarget : Prop :=
  (∀ u s, (tabGet 0 u.val s.time.cmpArmed = 1 ∨ tabGet 0 u.val s.time.cmpArmed = 2) → getObj s Oid.timeCmpMode u.val = 1 →
    getObj s Oid.timeCmpTarget u.val ≤ now s →
    exec (.timeCompare u) s = .next (setArmed u.val 0 (fireAt u.val (stampNow s) (getObj s Oid.timeCmpTarget u.val)
      (decide (tabGet 0 u.val s.time.cmpArmed = 2))
      (setSticky Oid.timeCmpStatus u.val (if tabGet 0 u.val s.time.cmpArmed = 2 then 3 else 1) s)))) ∧
  (∀ u s, (tabGet 0 u.val s.time.cmpArmed = 1 ∨ tabGet 0 u.val s.time.cmpArmed = 2) → getObj s Oid.timeCmpMode u.val = 2 →
    getObj s Oid.timeCmpTarget u.val ≤ now s →
    let w := fireAt u.val (stampNow s) (getObj s Oid.timeCmpTarget u.val) (decide (tabGet 0 u.val s.time.cmpArmed = 2))
      (setSticky Oid.timeCmpStatus u.val (if tabGet 0 u.val s.time.cmpArmed = 2 then 3 else 1) s)
    let behind := tUnits (now s) - tUnits (getObj s Oid.timeCmpTarget u.val)
    let period := getObj s Oid.timeCmpPeriod u.val
    (behind ≤ period * 65536 → exec (.timeCompare u) s = .next (rearmCompare u.val (putObj Oid.timeCmpTarget u.val
      (tAddNs (getObj s Oid.timeCmpTarget u.val) period) w))) ∧
    (period * 65536 < behind →
      let k := behind / (max period 1 * 65536) + 1
      exec (.timeCompare u) s = .next (rearmCompare u.val (putObj Oid.timeCmpTarget u.val
        (tAddNs (getObj s Oid.timeCmpTarget u.val) (k * period)) (addObj Oid.timeCmpCatchup u.val (k - 1)
          (setSticky Oid.timeCmpStatus u.val 2 w)))))) ∧
  (∀ u s, tabGet 0 u.val s.time.cmpArmed = 0 → exec (.timeCompare u) s = .next s) ∧
  (∀ u s, getObj s Oid.timeCmpMode u.val = 1 → now s < getObj s Oid.timeCmpTarget u.val → exec (.timeCompare u) s = .next s)

/-- HOLDOVER_LIMIT, PPS_IN_MISSING, PPS_OUT_PULSE, PPS_OUT_PULSE_END and PPS_IN_EDGE (R141, R145, R146): the status bit, the pin and the source each event raises; every edge of the kind selected is stored and fires source 0x040, and one within 0.9 s of the edge before is counted besides. PTP_MESSAGE, PTP_ANNOUNCE_TIMEOUT and PTP_MESSAGE_INTERVAL (R142, R143) on a port that is up: a one-step Sync of a slave port is handed to the servo with its corrected origin; a request is answered by a master port; what is not acted on is counted; without its master the port of the BMCA becomes master; the port sends what its state allows, stamped with the departure. -/
def Obligations.ClockPortsAndPulses : Prop :=
  ((∀ s, isOn s Oid.timeLocked = true → exec .holdoverLimit s = .next (fire 0x044 (setSticky Oid.timeStatus 0 4
      (putObj Oid.timeLocked 0 0 { s with time := { s.time with goodRun := 0 } })))) ∧
    (∀ s, getObj s Oid.timePpsInEdge ≠ 0 → s.modes.current ≠ .cold →
      exec .ppsInMissing s = .next (fire 0x048 (setSticky Oid.timeStatus 0 8 s))) ∧
    (∀ s t, s.time.ppsDue = some t → s.time.ppsActive = false → ppsLive s.modes.current = true →
      exec .ppsOutPulse s = .next (fireStamped 0x041 (kilnStamp s t) (emit (.pps t (getObj s Oid.timePpsOutPolarity != 1))
        { s with time := { s.time with ppsDue := none, ppsActive := true, ppsEnds := tAddNs t (getObj s Oid.timePpsOutWidth) } }))) ∧
    (∀ s, s.time.ppsDue = none → exec .ppsOutPulse s = .next s) ∧
    (∀ s, s.time.ppsActive = true → ppsLive s.modes.current = true →
      exec .ppsOutPulseEnd s = .next (emit (.pps s.time.ppsEnds (getObj s Oid.timePpsOutPolarity = 1))
        { s with time := { s.time with ppsActive := false } })) ∧
    (∀ s rising t, s.modes.current ≠ .cold → getObj s Oid.timePpsInEdge = (if rising then 1 else 2) →
      let ts := kilnStamp s (Time96pack t)
      let last := getObj s Oid.timePpsInLast
      let w := fireStamped 0x040 ts (putObj Oid.timePpsInLast 0 ts s)
      (last ≠ 0 → tUnits last ≤ tUnits ts → tUnits ts < tUnits last + 900000000 * 65536 →
        exec (.ppsInEdge rising t) s = .next (bump Oid.timePpsInExtra 0 w)) ∧
      (getObj s Oid.timeSource ≠ 2 → tUnits last + 900000000 * 65536 ≤ tUnits ts → exec (.ppsInEdge rising t) s = .next w))) ∧
  ((∀ port m stamp s origin, portUp s port.val = true → getObj s Oid.timePtpPort = port.val → ptpRuns s = true →
      m.domain.toNat = getObj s Oid.timePtpDomain → m.body = .sync false origin → getObj s Oid.timePtpState = 9 →
      exec (.ptpMessage port m stamp) s = .next (ptpSyncDone (ptpCorrect origin m.correction) (laneStamp (Time96pack stamp)) s)) ∧
    (∀ port m stamp s, portUp s port.val = true → getObj s Oid.timePtpPort = port.val → ptpRuns s = true →
      m.domain.toNat = getObj s Oid.timePtpDomain → m.body = .delayReq → getObj s Oid.timePtpState = 6 →
      exec (.ptpMessage port m stamp) s = .next (sendPtp port.val 54 (.ptpDelayResp port.val (laneStamp (Time96pack stamp))) s)) ∧
    (∀ port m stamp s, portUp s port.val = true →
      (getObj s Oid.timePtpPort ≠ port.val ∨ m.domain.toNat ≠ getObj s Oid.timePtpDomain ∨ m.body = .management ∨ m.body = .signaling ∨ m.body = .unsupported) →
      exec (.ptpMessage port m stamp) s = .next (bump Oid.timePtpExceptions 0 s)) ∧
    (∀ s, ptpRuns s = true → (getObj s Oid.timePtpState = 9 ∨ getObj s Oid.timePtpState = 4) → getObj s Oid.timePtpRole = 0 →
      exec .ptpAnnounceTimeout s = .next (putObj Oid.timePtpState 0 6 (ptpRestart s))) ∧
    (∀ s departure, let p := getObj s Oid.timePtpPort
      let t := laneStamp (Time96pack departure)
      ptpRuns s = true → portUp s p = true → isStopped s p 0 = false →
      (getObj s Oid.timePtpState = 6 → getObj s Oid.timePtpStepMode = 1 →
        exec (.ptpMessageInterval .sync departure) s = .next (sendPtp p 44 (.ptpFollowUp p t) (sendPtp p 44 (.ptpSync p true t) s))) ∧
      (getObj s Oid.timePtpState = 6 → getObj s Oid.timePtpStepMode ≠ 1 →
        exec (.ptpMessageInterval .sync departure) s = .next (sendPtp p 44 (.ptpSync p false t) s)) ∧
      (getObj s Oid.timePtpState = 9 →
        exec (.ptpMessageInterval .delayReq departure) s = .next (sendPtp p 44 (.ptpDelayReq p)
          { s with time := { s.time with ptpT3 := some t } })) ∧
      (getObj s Oid.timePtpState = 6 →
        exec (.ptpMessageInterval .announce departure) s = .next (sendPtp p 64 (.ptpAnnounce p
          (getObj s Oid.timePtpDomain) (getObj s Oid.timePtpPriority1) (getObj s Oid.timePtpClockClass)
          (getObj s Oid.timePtpPriority2) (getObj s Oid.timeUtcOffset)) s))))

/-- The brewhouse link rows BEACON_SEND, PROBE_SEND, PROBE, PROBE_REPLY, BEACON_LOSS and ADDRESS_ANNOUNCE (R147, R148, R152, R153, R250): what each sends, with the departure and arrival times at 0.25 ns, and what it keeps; a beacon departs at an instant of the present tick, which of its 2^16 is free (the model's choice, log entry 169). BEACON (R149): a beacon of the parent, of level below 6 and another root, gives the offset of its arrival, which joins the offsets kept; the level is the parent's plus one. -/
def Obligations.BrewhouseTime : Prop :=
  ((∀ s, cascadeRuns s = true → exec .beaconSend s = .next (((openLinks s).filter (fun q => q ≠ getObj s Oid.timeBhUpstream)).foldl
      (fun t q => originateBh q 1 1 0 [] true (beBytes 1 (ownLevel s) ++ beBytes 1 (getObj s Oid.timeLocked) ++
        beBytes 2 (if getObj s Oid.timeBhUpstream = 0xFFFF then getObj s Oid.timeBhAddress else s.time.rootAddr))
        (laneNow t).1 (laneNow t).2) s)) ∧
    (∀ s, ∃ k, k < 65536 ∧ (laneNow s).1 = laneStamp (momentAt s k)) ∧
    (∀ s d, getObj s Oid.timeBhUpstream < 16 → cascadeRuns s = true →
      exec (.probeSend d) s = .next (sendCascade (getObj s Oid.timeBhUpstream) 2 2 0 []
        { s with time := { s.time with probeT1 := tabInsert (getObj s Oid.timeBhUpstream) (laneStamp (Time96pack d)) s.time.probeT1 } })) ∧
    (∀ s q hops a d, cascadeRuns s = true → q.val ∈ cascadeQuads s → hops ≠ 0 →
      exec (.probe ⟨q, hops⟩ a d) s = .next (originateBh q.val 1 3 0 (timeBytes false (laneStamp (Time96pack a))) true []
        (laneStamp (Time96pack d)) (bump Oid.portBhFrames q.val s))) ∧
    (∀ s q hops t1 t2 t3 t4, cascadeRuns s = true → q.val ∈ cascadeQuads s → hops ≠ 0 → tabFind q.val s.time.probeT1 = some t1 →
      tabGet [] q.val s.time.probes = [] →
      exec (.probeReply ⟨q, hops⟩ t2 t3 t4) s = .next (
        let s1 := bump Oid.portBhFrames q.val s
        let d := hopDelay t1 (Time96pack t2) (Time96pack t3) (laneStamp (Time96pack t4)) (getInt s Oid.timeBhAsymmetry q.val)
        putObj Oid.timeBhHopDelay q.val (offsetQ32 d) { s1 with time := { s1.time with
          probeT1 := tabErase q.val s.time.probeT1, probes := tabPut [] q.val [d] s.time.probes } })) ∧
    (∀ s q hops b a, (cascadeRuns s = false ∨ q.val ∉ cascadeQuads s ∨ hops = 0) → exec (.beacon ⟨q, hops⟩ b a) s = .next s) ∧
    (∀ s q, q.val ∈ cascadeQuads s → getObj s Oid.timeBhUpstream = q.val → isOn s Oid.timeBhLocked = false →
      (∀ u, u = topologyFault q.val (setSticky Oid.timeStatus 0 0x10
        { s with time := { s.time with beaconRun := 0, beaconOff := [], beaconMean := 0 } }) →
        isRetired u (resCascade q.val) = isRetired s (resCascade q.val) → exec (.beaconLoss q) s = .next u)) ∧
    (∀ s, cascadeRuns s = true → getObj s Oid.timeBhUpstream ∈ openLinks s → ∃ w,
      w = announceOn 16 (getObj s Oid.timeBhAddress) { s with time := { s.time with announcedBefore := s.time.announced, announced := [] } } ∧
      exec (.addressAnnounce .own) s = .next (announceUp (getObj s Oid.timeBhAddress) w)) ∧
    (∀ s q src seq hops addrs, cascadeRuns s = true → q.val ∈ openLinks s → hops ≠ 0 →
      exec (.addressAnnounce (.received q src seq hops addrs)) s = .next (announceForward src.toNat seq.toNat hops.toNat (addrs.map BitVec.toNat)
        ((addrs.map BitVec.toNat).foldl (fun t a => announceOn q.val a t) (bump Oid.portBhFrames q.val s))))) ∧
  ((∀ s q hops b a, cascadeRuns s = true → q.val ∈ cascadeQuads s → hops ≠ 0 → getObj s Oid.timeBhUpstream ≠ q.val →
      exec (.beacon ⟨q, hops⟩ b a) s = .next (bump Oid.portBhFrames q.val s)) ∧
    (∀ s q hops b a, cascadeRuns s = true → q.val ∈ cascadeQuads s → hops ≠ 0 → getObj s Oid.timeBhUpstream = q.val →
      isRetired s (resCascade q.val) = false → b.level.toNat < 6 → b.root.toNat ≠ getObj s Oid.timeBhAddress →
      ∃ t, exec (.beacon ⟨q, hops⟩ b a) s = .next t ∧ t.time.rootAddr = b.root.toNat ∧ t.time.parentLock = b.locked ∧
        getObj t Oid.timeBhLevel = b.level.toNat + 1 ∧
        t.time.beaconOff.head? = some ((tUnits (laneStamp (Time96pack a)) : Int) - ((tUnits (Time96pack b.time) : Int) +
          toSigned 64 (getObj s Oid.timeBhHopDelay q.val) / 65536)) ∧ t.mem = s.mem ∧ t.lau = s.lau ∧ t.dict = s.dict))

/-! ### Event fabric (05_event_fabric) -/

/-- Firing a source (R160, R163, R165, R183): its count rises by one, its SRC_STATUS bit is set, and, where it has a channel, one arrival with its timestamp and due time waits for the next tick. Modes, time, lanes, casks, memory and the queue stay, and of the objects only source and vector counts change. -/
def Obligations.FiringASource : Prop :=
  ∀ src ts due late s, Sound s → src < 640 → fabObj s Oid.eventsSrcVector src = 0xFFFF →
    let t := fireAt src ts due late s
    getObj t Oid.eventsSrcCount src = (getObj s Oid.eventsSrcCount src + 1) % 2 ^ 64 ∧
    tabGet false src t.fab.srcStatus = true ∧
    t.fab.arrivals = s.fab.arrivals ++ (if fabObj s Oid.eventsSrcChannel src = 0xFFFF then [] else
      [{ chan := fabObj s Oid.eventsSrcChannel src, tick := s.time.ticks, ts := ts, due := due, trig := none,
         orig := .source src, late := late }]) ∧
    (∀ id idx, id < 2 ^ 24 → idx < 65536 → ¬(id = Oid.eventsSrcCount ∧ idx = src) → getObj t id idx = getObj s id idx) ∧
    t.modes = s.modes ∧ t.dict = s.dict ∧ t.time = s.time ∧ t.lp = s.lp ∧ t.lau = s.lau ∧ t.pos = s.pos ∧ t.cel = s.cel ∧
    t.hyd = s.hyd ∧ t.tap = s.tap ∧ t.lamp = s.lamp ∧ t.rk = s.rk ∧ t.flt = s.flt ∧ t.blobs = s.blobs ∧ t.mem = s.mem ∧
    t.free = s.free ∧ t.pending = s.pending

/-- OCCURRENCE_DELIVERY (R162, R167, R174): arrivals of an earlier tick leave the channel together; coincidences are counted; a disabled channel only counts them as dropped; an enabled one within its storm limit gives its consumer one merged occurrence. PENDING_DELIVERY (R168): once the consumer is free it takes the channel's pending occurrence. -/
def Obligations.OccurrencesAreDelivered : Prop :=
  ((∀ c s a l, firstArrivals s c.val = a :: l → a.tick < s.time.ticks → fabObj s Oid.eventsChEnable c.val = 0 →
      exec (.occurrenceDelivery c) s = .next (bump Oid.eventsChDisabledDrops c.val (addObj Oid.eventsChCoincidence c.val l.length
        { s with fab := { s.fab with arrivals := s.fab.arrivals.filter (fun b => !(b.chan = c.val && b.tick = a.tick)) } }))) ∧
    (∀ c s a l, firstArrivals s c.val = a :: l → a.tick < s.time.ticks → fabObj s Oid.eventsChEnable c.val ≠ 0 →
      (stormCount c.val s).2 = false →
      exec (.occurrenceDelivery c) s = .next (meetConsumer c.val a l (stormCount c.val (addObj Oid.eventsChCoincidence c.val l.length
        { s with fab := { s.fab with arrivals := s.fab.arrivals.filter (fun b => !(b.chan = c.val && b.tick = a.tick)) } })).1)) ∧
    (∀ c s, firstArrivals s c.val = [] → exec (.occurrenceDelivery c) s = .next s)) ∧
  (∀ c s o, tabGet none c.val s.fab.pend = some o → fabObj s Oid.eventsChConsumer c.val ≠ 0xFFFF →
      consumerBusy s (fabObj s Oid.eventsChConsumer c.val) = false →
      exec (.pendingDelivery c) s = .next (consume c.val (fabObj s Oid.eventsChConsumer c.val) o
        { s with fab := { s.fab with pend := tabPut none c.val none s.fab.pend } }))

/-- FIRE and FIRE_MASK through BAR0 (R169): an accepted channel gets one arrival with the written trigger_id, or none for a mask; a refused one sets the channel's status bit 3 and is counted. Grist cells, trigger pins and vectors: GRIST_CELL_FIRE, TRIG_IN_EDGE (an edge of the kind selected waits for its filter ticks, and with none is accepted at once), TRIG_IN_STUCK, TRIG_OUT_PULSE_END, VECTOR_TIMER, MSIX_VECTOR_UNMASK and SRC_STATUS_WRITE (R171, R175, R177, R178, R184, R186). A cell's clear leaves nothing but a fire already due, and causes none (R172); a pulse register fires after each tick with acc = 1, a flip-flop takes acc and fires at the edge its object selects (R171). -/
def Obligations.FiresCellsAndVectors : Prop :=
  ((∀ c trig s, bar0Writable s = true → fireAllowed s c.val .bar0 false = true →
      ∃ t, exec (.fire (.bar0 c trig)) s = .next t ∧ t.fab.arrivals = s.fab.arrivals ++
        [{ chan := c.val, tick := s.time.ticks, ts := stampNow s, due := now s, trig := some trig.toNat, orig := .host, late := false }] ∧
        t = { s with link := { s.link with l1 := false }, fab := { s.fab with arrivals := t.fab.arrivals } }) ∧
    (∀ c trig s, bar0Writable s = true → fireAllowed s c.val .bar0 false = false →
      exec (.fire (.bar0 c trig)) s = .next (bump Oid.eventsFireRefused 0 (setSticky Oid.eventsChStatus c.val 8
        { s with link := { s.link with l1 := false } }))) ∧
    (∀ w mask s, bar0Writable s = true → (∀ c : Chan, fireAllowed s c.val .bar0 false = true) →
      exec (.fireMask (.bar0 w mask)) s = .next { s with
        link := { s.link with l1 := false }
        fab := { s.fab with arrivals := s.fab.arrivals ++ (maskChans mask.toNat (32 * w.val) 32).map (fun c =>
          { chan := c, tick := s.time.ticks, ts := stampNow s, due := now s, trig := none, orig := .host, late := false }) } })) ∧
  ((∀ g s, (tabGet ({} : Grist) g.val s.fab.grist).fireNext = true → exec (.gristCellFire g) s = .next (fire (0x0C0 + g.val)
      { s with fab := { s.fab with grist := tabPut {} g.val { (tabGet ({} : Grist) g.val s.fab.grist) with fireNext := false } s.fab.grist } })) ∧
    (∀ n rising s t, s.modes.current ≠ .cold → edgeSelected (fabObj s Oid.eventsTrigInEdge n.val) rising = true →
      (tabGet ({} : TrigIn) n.val s.fab.trigIn).level ≠ rising → (tabGet ({} : TrigIn) n.val s.fab.trigIn).stuck = false →
      Time96pack t ≤ now s →
      let p : TrigIn := { (tabGet ({} : TrigIn) n.val s.fab.trigIn) with level := rising }
      let w := putTrigIn n.val { p with edge := some (s.time.ticks, kilnStamp s (Time96pack t)) } s
      (0 < fabObj s Oid.eventsTrigInFilter n.val → exec (.trigInEdge n rising t) s = .next w) ∧
      (fabObj s Oid.eventsTrigInFilter n.val = 0 → p.lastTick = none →
        exec (.trigInEdge n rising t) s = .next (fireStamped (0x050 + n.val) (kilnStamp s (Time96pack t))
          (setSticky Oid.eventsTrigInStatus n.val 1 (putTrigIn n.val { p with edge := none, lastTick := some s.time.ticks } w))))) ∧
    (∀ n s, fabObj s Oid.eventsTrigInStuck n.val ≠ 0 → fabObj s Oid.eventsTrigInEdge n.val = 1 →
      (tabGet ({} : TrigIn) n.val s.fab.trigIn).level = true → (tabGet ({} : TrigIn) n.val s.fab.trigIn).stuck = false →
      exec (.trigInStuck n) s = .next (fire 0x0B5 (setSticky Oid.eventsStatus 0 4 (setSticky Oid.eventsTrigInStatus n.val 2
        { s with fab := { s.fab with trigIn := tabPut {} n.val { (tabGet ({} : TrigIn) n.val s.fab.trigIn) with stuck := true, edge := none } s.fab.trigIn } })))) ∧
    (∀ n s, (tabGet ({} : TrigOut) n.val s.fab.trigOut).pulsing = true → (tabGet ({} : TrigOut) n.val s.fab.trigOut).active = true →
      trigOutLive s.modes.current = true →
      exec (.trigOutPulseEnd n) s = .next (emit
        (.trigOut n.val (tabGet ({} : TrigOut) n.val s.fab.trigOut).ends (decide (fabObj s Oid.eventsTrigOutPolarity n.val = 1)))
        { s with fab := { s.fab with trigOut := tabPut {} n.val {} s.fab.trigOut } })) ∧
    (∀ v s, (tabGet ({} : Vec) v.val s.fab.vec).timer = true → 0 < (tabGet ({} : Vec) v.val s.fab.vec).count → s.link.form = .msix →
      vecMasked s v.val = false → busStopped s = false →
      exec (.vectorTimer v) s = .next (bump Oid.eventsVecSent v.val (emit (.msix v.val) { s with
        fab := { s.fab with vec := tabPut {} v.val {} s.fab.vec }, link := { s.link with l1 := false } }))) ∧
    (∀ v s, s.link.form = .msix → busStopped s = false →
      let w := { s with fab := { s.fab with unmasked := tabPut false v.val true s.fab.unmasked } }
      (s.fab.pba.filter (fun p => p.2 && decide (p.1 = v.val)) = [] → exec (.msixVectorUnmask v) s = .next w) ∧
      (s.fab.pba.filter (fun p => p.2 && decide (p.1 = v.val)) = [(v.val, true)] →
        exec (.msixVectorUnmask v) s = .next (sendVector v.val { w with fab := { w.fab with pba := tabPut false v.val false s.fab.pba } }))) ∧
    (∀ w value s, bar0Served s = true →
      exec (.srcStatusWrite w value) s = .next (updateIntx (clearSrcStatus w.val value.toNat 16 { s with link := { s.link with l1 := false } }))) ∧
    (∀ (g : Fin 64) s, (tabGet ({} : Grist) g.val s.fab.grist).clear = true → tabFind (objKey Oid.eventsGristQ g.val) s.fab.prev = none →
      tabGet {} g.val (gristClear g.val s).fab.grist = { fireNext := (tabGet ({} : Grist) g.val s.fab.grist).fireNext } ∧
      getObj (gristClear g.val s) Oid.eventsGristQ g.val = 0 ∧ (gristClear g.val s).out = s.out ∧ (gristClear g.val s).fab.arrivals = s.fab.arrivals) ∧
    (∀ (g : Fin 64) s, fabObj s Oid.eventsGristRegister g.val = 0 →
      (tabGet {} g.val (gristTick g.val s).fab.grist).fireNext = (tabGet {} g.val (gristTick g.val s).fab.grist).acc ∧
      (tabGet {} g.val (gristTick g.val s).fab.grist).arrived = [] ∧ (gristTick g.val s).objs = s.objs ∧ (gristTick g.val s).mem = s.mem) ∧
    (∀ (g : Fin 64) s, fabObj s Oid.eventsGristRegister g.val ≠ 0 → tabFind (objKey Oid.eventsGristQ g.val) s.fab.prev = none →
      let q := decide (fabObj s Oid.eventsGristQ g.val = 1)
      let d := tabGet {} g.val (gristTick g.val s).fab.grist
      getObj (gristTick g.val s) Oid.eventsGristQ g.val = (if d.acc then 1 else 0) ∧
      (fabObj s Oid.eventsGristEdge g.val = 0 → d.fireNext = (!q && d.acc)) ∧
      (fabObj s Oid.eventsGristEdge g.val = 1 → d.fireNext = (q && !d.acc)) ∧
      (fabObj s Oid.eventsGristEdge g.val = 2 → d.fireNext = (q != d.acc))))

/-- TRIGGER and SCHEDULED_FIRE (R181, R182, R251): every copy is forwarded, the first of a source and sequence schedules a fire at T; at the first tick at or after T each scheduled fire due becomes an arrival with due time T and leaves the schedule. A forwarded copy leaves at once on a link that sends nothing, one hop less; on a link that sends, it waits behind the frames of its rank and above and before those below (R253). -/
def Obligations.BrewhouseTriggers : Prop :=
  (∀ q src seq hops rep chan trig t s, q.val ∈ openLinks s → s.modes.current ≠ .cold → s.modes.current ≠ .boot → hops ≠ 0 →
    s.time.cutOff = false → (src.toNat, seq.toNat) ∉ s.fab.trigSeen → now s ≤ Time96pack t → s.fab.sched.length < 64 →
    fireAllowed s chan.toNat .cascade false = true →
    let w := forwardTrigger q.val src.toNat seq.toNat hops.toNat rep (triggerPayload chan.toNat trig.toNat (Time96pack t))
      (bump Oid.portBhFrames q.val s)
    exec (.trigger q src seq hops rep chan trig t) s = .next { w with fab := { s.fab with
      sched := s.fab.sched ++ [{ chan := chan.toNat, t := Time96pack t, trig := trig.toNat }]
      trigSeen := ((src.toNat, seq.toNat) :: s.fab.trigSeen).take 1024 } }) ∧
  (∀ q src seq hops rep pl s, (openLinks s).Nodup → (∀ k ∈ openLinks s, (bhLink s k).left = 0 ∧ (bhLink s k).queue = []) →
    (forwardTrigger q src seq hops rep pl s).out = s.out ++ ((openLinks s).filter (fun k => k ≠ q)).map (fun k => .cascade k
      (cascadeFrame 4 (if rep then 0xC0 else 0x80) 0 src (hops - 1) seq pl)) ∧
    (forwardTrigger q src seq hops rep pl s).objs = s.objs ∧ (forwardTrigger q src seq hops rep pl s).mem = s.mem) ∧
  (∀ f (l : List BhFrame), l.Pairwise (fun a b => a.rank ≤ b.rank) →
    bhInsert f l = l.filter (fun g => g.rank ≤ f.rank) ++ f :: l.filter (fun g => f.rank < g.rank)) ∧
  (∀ s, ∃ t, exec .scheduledFire s = .next t ∧ t.fab.sched = s.fab.sched.filter (fun f => now s < f.t) ∧
    t.fab.arrivals = s.fab.arrivals ++ (s.fab.sched.filter (fun f => f.t ≤ now s)).map (fun f =>
      { chan := f.chan, tick := s.time.ticks, ts := stampNow s, due := f.t, trig := some f.trig, orig := .cascade, late := false }) ∧
    t.time = s.time ∧ t.objs = s.objs ∧ t.out = s.out ∧ t.mem = s.mem)


/-! ### Lanes and quads (06_lanes) -/

/-- A recorded lane fault (R217 to R221, R505) outside Diagnostic: `lane.faults` and `lane.fault_cause` and source 0x100 + n first, then the retry rule decides between a re-lock and the retirement of the lane. -/
def Obligations.LaneFaultRetriesOrRetires : Prop :=
  ∀ n cause s, n < 64 → s.modes.current ≠ .diagnostic → laneRetired s n = false → (laneX s n).relock = false →
    (tabGet [] (resLane n) s.flt.history).head? ≠ some s.time.ticks →
    let s1 := fire (0x100 + n) (putLane Oid.laneFaultCause n cause (bumpLane Oid.laneFaults n s))
    let r := recordFault (resLane n) cause (lanePermanent cause) s1
    (r.2 = .retire → laneFault n cause s = relockOthers n (laneOut n (if lanePermanent cause then 2 else 1) r.1)) ∧
    (r.2 = .retry → laneFault n cause s = relockLane n cause r.1) ∧
    (r.2 = .retire ↔ lanePermanent cause = true ∨
      fabObj s Oid.faultsRetryLimit < (recentFaults s (resLane n)).length + 1) ∧ (r.2 = .retire ∨ r.2 = .retry)

/-- Bring-up in the order of R200 and Table 6.2: QUAD_PLL_LOCK, SELF_CHECK_DONE, SIGNAL_DETECT, CDR_LOCK, ADAPTATION_DONE, EFOM_WINDOW. The CTLE setting taken is one whose EFOM is the largest measured (R203). Block lock (R196): of whole blocks at the candidate position, 64 valid headers in a row, and none before them, give a hunting lane of a single-lane quad block lock and state 7. -/
def Obligations.LanesComeUp : Prop :=
  ((∀ q ref s, pllLocked s q.val = false → refIsLost s q.val = false → (quadLanes q.val).any (fun n => laneState s n = 1) = true →
      let r := lineRate q.val ref.toNat s
      (quadModeActive s q.val = 1 ∨ quadModeActive s q.val = 3 → r = ((66 * ref.toNat + 500) / 1000, s)) ∧
      exec (.quadPllLock q ref) s = .next ((quadLanes q.val).foldl (fun u n => if laneState u n = 1 then afterPll n u else u)
        (putRef (quadRef s q.val) true false (putObj (quadId Oid.quadRateActual q.val) 0 r.1
          (putObj (quadId Oid.quadPllLocked q.val) 0 1 r.2))))) ∧
    (∀ n s, laneState s n.val = 2 → exec (.selfCheckDone n true) s = .next (enterSignalWait n.val s)) ∧
    (∀ n s, laneState s n.val = 2 →
      exec (.selfCheckDone n false) s = .next (laneFault n.val 6 (stickyLane Oid.laneStatus n.val 0x20 s))) ∧
    (∀ n s, laneState s n.val = 3 → exec (.signalDetect n) s = .next (setLaneState n.val 4 (putLane Oid.laneSignal n.val 1 s))) ∧
    (∀ n s, laneState s n.val = 4 → ∃ u, u = setLaneState n.val 5 s ∧
      exec (.cdrLock n) s = .next (putLaneX n.val { (laneX u n.val) with cdr := true } u)) ∧
    (∀ n s figures taps, laneState s n.val = 5 → (laneX s n.val).cdr = true → getLane s Oid.laneSignal n.val = 1 →
      ((laneX s n.val).held = true → exec (.adaptationDone n figures taps) s = .next (setLaneState n.val 6 (putTaps n.val 1 taps s))) ∧
      ((laneX s n.val).held = false → exec (.adaptationDone n figures taps) s = .next (setLaneState n.val 6
        (putTaps n.val 1 taps (putLane Oid.laneCtle n.val (chooseCtle figures s).1 (chooseCtle figures s).2))))) ∧
    (∀ figures s, figures.length = 16 → ∃ f, figures[(chooseCtle figures s).1]? = some f ∧ ∀ g ∈ figures, g.toNat ≤ f.toNat) ∧
    (∀ n s fom w taps, laneState s n.val = 5 → exec (.efomWindow n fom w taps) s = .next
      (putLane Oid.laneEyeWidth n.val w.val (putLane Oid.laneEfom n.val fom.toNat s)))) ∧
  (∀ n s (bs : List (List Bool)), Sound s → laneState s n.val = 6 → getLane s Oid.laneBlockLock n.val = 0 → (laneX s n.val).good = 0 →
      (laneX s n.val).fill = 0 → (laneX s n.val).slip = false → getLane s Oid.laneRxInvert n.val = 0 →
      waitsForAlignment s n.val = false → (∀ b ∈ bs, b.length = 66 ∧ b[0]? ≠ b[1]?) →
      (bs.length < 64 → ∃ t, exec (.blockLock n bs.flatten) s = .next t ∧ getLane t Oid.laneBlockLock n.val = 0 ∧
        t.time = s.time ∧ t.flt = s.flt ∧ t.mem = s.mem) ∧
      (bs.length = 64 → ∃ t, exec (.blockLock n bs.flatten) s = .next t ∧ getLane t Oid.laneBlockLock n.val = 1 ∧
        getLane t Oid.laneState n.val = 7 ∧ t.time = s.time ∧ t.mem = s.mem))

/-- What takes a running lane down: LOSS_OF_SIGNAL, CDR_LOCK_LOST, HUNT_TIMEOUT, EYE_FAULT, RELOCK_TIMEOUT and BLOCK_LOCK_LOST each set their bit of `lane.status` and record their cause (R196, R197, R205, R207, R208, R218); a locked lane loses block lock at its sixteenth invalid header of a window. -/
def Obligations.LaneLosses : Prop :=
  (∀ n s, getLane s Oid.laneSignal n.val = 1 → 4 ≤ laneState s n.val → laneState s n.val ≤ 7 →
    exec (.lossOfSignal n) s = .next (laneFault n.val 1 (stickyLane Oid.laneStatus n.val 1
      (bumpLane Oid.laneLosCount n.val (putLane Oid.laneSignal n.val 0 s))))) ∧
  (∀ n s, 5 ≤ laneState s n.val → laneState s n.val ≤ 7 →
    exec (.cdrLockLost n) s = .next (laneFault n.val 2 (stickyLane Oid.laneStatus n.val 2
      (putLaneX n.val { (laneX s n.val) with cdr := false } s)))) ∧
  (∀ n s, laneState s n.val = 6 → getLane s Oid.laneBlockLock n.val = 0 →
    exec (.huntTimeout n) s = .next (laneFault n.val 3 (stickyLane Oid.laneStatus n.val 4 s))) ∧
  (∀ n s, laneState s n.val = 7 → getLane s Oid.laneEfom n.val < getLane s Oid.laneEfomMin n.val →
    exec (.eyeFault n) s = .next (laneFault n.val 4 (stickyLane Oid.laneStatus n.val 8 s))) ∧
  (∀ n s, (laneX s n.val).relock = true → 4 ≤ laneState s n.val → laneState s n.val ≤ 6 →
    exec (.relockTimeout n) s = .next (laneFault n.val 5 s)) ∧
  (∀ n s (b : List Bool), getLane s Oid.laneBlockLock n.val = 1 → laneState s n.val = 7 → (laneX s n.val).bad = 15 → (laneX s n.val).seen < 63 →
    (laneX s n.val).fill = 0 → (laneX s n.val).slip = false → b.length = 66 → b[0]? = b[1]? →
    ∃ x, x.bad = 16 ∧ x.good = 0 ∧ exec (.blockLockLost n b) s = .next (laneFault n.val 3 (stickyLane Oid.laneStatus n.val 4
      (putLane Oid.laneBlockLock n.val 0 (addObj (quadId Oid.laneInvalidHeaders (n.val / 4)) (n.val % 4) 1 (putLaneX n.val x s))))))

/-- PLL_LOCK_TIMEOUT, REFERENCE_LOST, REFERENCE_RETURN and ALIGNMENT_LOCK (R198, R223, R230): a missing PLL lock is cause 7 of every lane of the quad in state 1; a lost reference is lost for every quad that clocks from it, and its return lets their lanes wait for PLL lock again; a port aligns, a bonded one in the order its markers name, which lie within 180 ns. PRBS_CHECKER_LOCK (R213 to R216): a lane under test sends and checks for as long as the bits received, and touches nothing but the lane. -/
def Obligations.QuadsAndPrbs : Prop :=
  ((∀ q s, pllLocked s q.val = false → refIsLost s q.val = false →
      ((quadLanes q.val).filter (fun n => laneState s n = 1)) ≠ [] →
      exec (.pllLockTimeout q) s = .next (((quadLanes q.val).filter (fun n => laneState s n = 1)).foldl
        (fun u n => if faultedNow u n then sameTickFault n 7 u else recordLaneFault n 7 u) (setSticky (quadId Oid.quadStatus q.val) 0 4 s))) ∧
    (∀ r s, exec (.referenceReturn r) s = .next ((((List.range 16).filter (fun q => quadRef s q = r.val)).flatMap quadLanes).foldl
      (fun u n => putLaneX n { (laneX u n) with waitRef := false } u) (putRef r.val true false s))) ∧
    (∀ r s, tabGet false r.val s.lp.refLost = false →
      exec (.referenceLost r) s = .next (((List.range 16).filter (fun q => quadRef s q = r.val)).foldl
        (fun u q => quadRefLost q u) (putRef r.val false true s))) ∧
    (∀ q s, q < 16 → ((quadLanes q).all (fun n => laneState s n = 0)) = true →
      quadRefLost q s = putObj (quadId Oid.quadRateActual q) 0 0 (putObj (quadId Oid.quadPllLocked q) 0 0
        (setSticky (quadId Oid.quadStatus q) 0 (if pllLocked s q then 3 else 2) s))) ∧
    (∀ p marks s, quadModeActive s (p.val / 4) = 1 → laneState s p.val = 7 →
      exec (.alignmentLock ⟨p, marks⟩) s = .next (updatePort p.val
        (putPortX p.val { (portX s p.val) with aligned := true, hiBer := false, order := [0] } s))) ∧
    (∀ p marks o s, isBonded s (p.val / 4) = true → p.val % 4 = 0 → (∀ k, k < 4 → laneState s (p.val + k) = 7) → laneOrder false marks = some o →
      exec (.alignmentLock ⟨p, marks⟩) s = .next (updatePort p.val
        (putPortX p.val { (portX s p.val) with aligned := true, hiBer := false, order := o } s))) ∧
    (∀ cascade marks o, laneOrder cascade marks = some o → (∀ l, l < 4 → l ∈ o) ∧ marks.length = 4 ∧
      ∀ a ∈ marks, ∀ b ∈ marks, a.at_.toNat ≤ b.at_.toNat + 180000)) ∧
  ((∀ n bs s, prbsActs s n.val = true → exec (.prbsCheckerLock n bs) s = .next (testRun n.val bs s)) ∧
    (∀ n bs s t, exec (.prbsCheckerLock n bs) s = .next t →
      t = { s with lp := t.lp, objs := t.objs, out := t.out, free := t.free, fresh := t.fresh } ∧
      ∀ id idx, idx < 65536 → ¬(id / 65536 = 0x10 + n.val / 4 ∧ idx = n.val % 4) → getObj t id idx = getObj s id idx))


/-! ### Writes of one object (03_dictionary and the rows of every family that write one object) -/

/-- A request that fails a check changes nothing (R87): the state the server leaves is the one it met. Three answers that are no such check leave something behind: a failed seal, which records its failure (R120), a failed proof, which ends its half-open session (R112), and FLASH, the failed flash operation of a commit or of a persistence clear (Table 3.9). -/
def Obligations.RefusedRequestChangesNothing : Prop :=
  ∀ q s, (serve q s).1.status ≠ St.ok → ¬(q.op = 8 ∧ (serve q s).1.status = St.proofFailed) →
    ¬(q.id / 16 * 16 = Oid.plansSeal ∧ (serve q s).1.status = St.consistency) →
    ¬((q.id = Oid.modesFwCommit ∨ q.id = Oid.dictPersistClear) ∧ (serve q s).1.status = St.flash) → (serve q s).2 = s

/-- A write of a BITSET with sticky bits clears the bits written as 1, but for those that hardware has set in the same tick, and leaves the others (R83). Nothing else of the object table changes. -/
def Obligations.StickyWriteClears : Prop :=
  ∀ id idx v f fails s r, Sound s → objRow? id = some r → stickyBits r ≠ 0 → idx < 65536 →
    let t := applyWrite id idx (.num v) f fails s
    (∀ k, (getObj t id idx).testBit k = ((getObj s id idx).testBit k && !(v.testBit k && (stickyBits r).testBit k && !(tabGet 0 (objKey id idx) s.fresh).testBit k))) ∧
    (∀ jd j, j < 65536 → ¬(jd = id ∧ j = idx) → getObj t jd j = getObj s jd j) ∧ t.blobs = s.blobs ∧ t.mem = s.mem ∧
    t.modes = s.modes ∧ t.time = s.time ∧ t.fab = s.fab ∧ t.lp = s.lp ∧ t.lau = s.lau ∧ t.fresh = s.fresh ∧ t.out = s.out

/-- WARM_RESET, FW_IMAGE_WRITE, FW_COMMIT, MODE_REQUEST, SHUTDOWN, WAKE_AT_WRITE and PERSIST_CLEAR (R45, R54, R62, R67, R76, R91): what each write does once accepted. A commit of a good image and a persistence clear can fail in the flash, which the model leaves free: each then answers FLASH. PLANS_SEAL, PLANS_CLEAR, PLANS_SAVE and OBJECT_WRITE (R118 to R120): the plan's state, and the status where it does not allow the write; a write of any other object takes the value's bytes in the transport's order. -/
def Obligations.ModeAndPlanWrites : Prop :=
  (∀ via,
    (∀ value : Word, Writes (.warmReset via value) via Oid.modesReset 0 (.num value.toNat)
      (fun u => { u with modes := { u.modes with warmWait := some 3 } })) ∧
    (∀ image, image.length ≤ 1408 → Writes (.fwImageWrite via image) via Oid.modesFwImage 0 (.bytes image)
      (fun u => { u with dict := { u.dict with flash := if updateSlot u = 0 then { u.dict.flash with imageA := image }
                                                         else { u.dict.flash with imageB := image } } })) ∧
    (∀ image, 1408 < image.length → WritesBlocks (.fwImageWrite via image) via Oid.modesFwImage 0 image (storeImage image)) ∧
    (∀ value, WriteRow (.fwCommit via value) via Oid.modesFwCommit 0 (.num value.toNat) none
      (fun _ u => (if getObj (commitImage u) Oid.modesFwUpdateStatus = 5 then St.flash else St.ok, commitImage u))) ∧
    (∀ s, (imageCheck (slotImage s (updateSlot s)) = .signatureFailed → commitImage s = putObj Oid.modesFwUpdateStatus 0 2 s) ∧
      (imageCheck (slotImage s (updateSlot s)) = .versionTooLow → commitImage s = putObj Oid.modesFwUpdateStatus 0 3 s) ∧
      (imageCheck (slotImage s (updateSlot s)) = .lengthInvalid → commitImage s = putObj Oid.modesFwUpdateStatus 0 4 s) ∧
      (imageCheck (slotImage s (updateSlot s)) = .good → (takeChoice 2 s).1 = 1 → commitImage s = putObj Oid.modesFwUpdateStatus 0 5 (takeChoice 2 s).2) ∧
      (imageCheck (slotImage s (updateSlot s)) = .good → (takeChoice 2 s).1 ≠ 1 → ¬(s.modes.step = .recovery ∧ s.modes.current = .boot) →
        commitImage s = startStore (.object (objKey Oid.modesPreferredSlot 0)) (putObj Oid.modesPreferredSlot 0 (updateSlot s)
          (putObj Oid.modesFwUpdateStatus 0 1 (takeChoice 2 s).2)))) ∧
    (∀ value m, modeOf value.toNat = some m → Writes (.modeRequest via value) via Oid.modesRequest 0 (.num value.toNat)
      (fun u => if m = .halt then haltBy 0x20 (putObj Oid.modesRequest 0 11 u)
        else if u.modes.target.isSome ∨ u.modes.grace = true then { u with modes := { u.modes with pendingReq := some m } } else acceptRequest m u)) ∧
    (∀ value, Writes (.shutdown via value) via Oid.modesShutdown 0 (.num value.toNat)
      (fun u => let w := writeAllExact { u with modes := { u.modes with shutdown := true } }
        if w.modes.current = .ready then acceptRequest .dormant w else settleShutdown w)) ∧
    (∀ t, Writes (.wakeAtWrite via t) via Oid.modesWakeAt 0 (.num (Time96pack t))
      (fun u => let w := putObj Oid.modesWakeAt 0 (Time96pack t) { u with modes := { u.modes with wakeAtPassed := false } }
        if isOn w Oid.modesWakeEnable = true ∧ Time96pack t < now w then wakeFires true w else w)) ∧
    (∀ value, WriteRow (.persistClear via value) via Oid.dictPersistClear 0 (.num value.toNat) none
      (fun _ u => if (takeChoice 2 u).1 = 1 then (St.flash, (takeChoice 2 u).2)
        else (St.ok, { (takeChoice 2 u).2 with dict := { (takeChoice 2 u).2.dict with
          flash := { (takeChoice 2 u).2.dict.flash with clearPending := true } } })))) ∧
  (∀ via,
    (∀ p value, WriteRow (.plansSeal via p value) via (Oid.plansSeal + planElem p) 0 (.num value.toNat) none (fun _ u =>
      if (planOf u p).state ≠ .opened then (St.planState, u)
      else match sealFailure (planOf u p).entries u with
      | none => (St.ok, putPlan p { planOf u p with state := .sealed } u)
      | some (o, c) => (St.consistency, putObj (Oid.plansFailCode + planElem p) 0 c (putObj (Oid.plansFailObject + planElem p) 0 o u)))) ∧
    (∀ p value, WriteRow (.plansClear via p value) via (Oid.plansClear + planElem p) 0 (.num value.toNat) none (fun _ u =>
      if (planOf u p).state = .scheduled ∨ (planOf u p).state = .active then (St.planState, u)
      else (St.ok, putPlan p { state := .empty, entries := [] } u))) ∧
    (∀ p value, WriteRow (.plansSave via p value) via (Oid.plansSave + planElem p) 0 (.num value.toNat) none (fun _ u =>
      if (planOf u p).state = .empty ∨ (planOf u p).state = .opened then (St.planState, u)
      else if 131072 < planBytes (planOf u p) then (St.planFull, u)
      else (St.ok, startStore (.plan p (planOf u p).entries)
        { u with dict := { u.dict with waiting := u.dict.waiting.filter (fun i => !isPlanStore p i) } }))) ∧
    (∀ (obj : BitVec 24) (index : Half) data r v, objRow? obj.toNat = some r → obj.toNat ≠ Oid.modesFwCommit → obj.toNat ≠ Oid.dictPersistClear → (∀ u, planWrite obj.toNat u = none) →
      (∀ le, encodeValue le r.type v = data) →
      WriteRow (.objectWrite via obj index data) via obj.toNat index.toNat v none
        (fun q u => (St.ok, applyWrite obj.toNat index.toNat v (firerOf q.who) none u))))

/-- TIME_INCREMENT_WRITE, TIME_STEP, TIME_SET, BH_UPSTREAM_WRITE, CMP_MODE_WRITE, CMP_TARGET_WRITE, SNAPSHOT_AT_WRITE and SNAPSHOT_NOW (R130, R135, R136, R140, R154, R155, R157, R158): a unit that was armed when its target is written is armed with the new one, once a target already reached has fired. -/
def Obligations.TimeWrites : Prop := ∀ via,
  (∀ value, Writes (.timeIncrementWrite via value) via Oid.timeIncrement 0 (.num value.toNat)
    (fun u => putObj Oid.timeIncrement 0 value.toNat { u with time := { u.time with incNext := some value.toNat } })) ∧
  (∀ value, Writes (.timeStep via value) via Oid.timeStep 0 (.num value.toNat)
    (fun u => { u with time := { u.time with
      step := some { (u.time.step.getD {}) with add := (u.time.step.getD {}).add + toSigned 64 value.toNat } } })) ∧
  (∀ t, Writes (.timeSet via t) via Oid.timeSet 0 (.num (Time96pack t))
    (fun u => { u with time := { u.time with step := some { set := some (Time96pack t), add := 0 } } })) ∧
  (∀ value, Writes (.bhUpstreamWrite via value) via Oid.timeBhUpstream 0 (.num value.toNat)
    (fun u => stores Oid.timeBhUpstream 0 (setUpstream value.toNat u))) ∧
  (∀ k value, Writes (.cmpModeWrite via k value) via Oid.timeCmpMode k.val (.num value.toNat)
    (fun u => let w := putObj Oid.timeCmpMode k.val value.toNat u
      setArmed k.val (if getObj w Oid.timeCmpMode k.val = 0 then 0 else if cmpReached w k.val (now w) (shortNow w) then 4 else 1) w)) ∧
  (∀ k t, Writes (.cmpTargetWrite via k (.time t)) via Oid.timeCmpTarget k.val (.num (Time96pack t))
    (fun u => let e := evalCompare k.val u
      let w := putObj Oid.timeCmpTarget k.val (Time96pack t) e
      if tabGet 0 k.val u.time.cmpArmed ≠ 0 then armCompare k.val w else w)) ∧
  (∀ k v, Writes (.cmpTargetWrite via k (.short v)) via Oid.timeCmpShort k.val (.num v.toNat)
    (fun u => let e := evalCompare k.val u
      let w := putObj Oid.timeCmpShort k.val v.toNat e
      if tabGet 0 k.val u.time.cmpArmed ≠ 0 then armCompare k.val w else w)) ∧
  (∀ t, Writes (.snapshotAtWrite via t) via Oid.countersSnapshotAt 0 (.num (Time96pack t))
    (fun u => let w := match u.time.snapArmed with | some a => if a ≤ now u then evalSnapshot u else u | none => u
      putObj Oid.countersSnapshotAt 0 (Time96pack t)
        { w with time := { w.time with snapArmed := some (Time96pack t), snapLate := decide (Time96pack t < now w), snapTick := w.time.ticks } })) ∧
  (∀ value, Writes (.snapshotNow via value) via Oid.countersSnapshotNow 0 (.num value.toNat)
    (fun u => { u with time := { u.time with snapNow := true } }))

/-- FIRE and FIRE_MASK through the dictionary (R169): each channel named gets one arrival from the firer that the transport is; GRIST_WRITE (R164, R172) stores the value for the next tick and clears the cell's memory, `events.grist_q` apart. -/
def Obligations.FabricWrites : Prop := ∀ via,
  (∀ c trig, WriteRow (.fire (.dict via c trig)) via Oid.eventsFire c.val (.num trig.toNat) none (fun q u =>
    (St.ok, arrive { chan := c.val, tick := u.time.ticks, ts := stampNow u, due := now u, trig := some trig.toNat,
                     orig := firerOrigin (firerOf q.who), late := false } u))) ∧
  (∀ i mask, WriteRow (.fireMask (.dict via i mask)) via Oid.eventsFireMask i.val (.num mask.toNat) none (fun q u =>
    (St.ok, { u with fab := { u.fab with arrivals := u.fab.arrivals ++ (maskChans mask.toNat (64 * i.val) 64).map (fun c =>
      { chan := c, tick := u.time.ticks, ts := stampNow u, due := now u, trig := none,
        orig := firerOrigin (firerOf q.who), late := false }) } }))) ∧
  (∀ item g value, item ≠ .q → Writes (.gristWrite via item g value) via (gristId item) g.val (.num value.toNat) (fun u =>
    let w := putFab (gristId item) g.val value.toNat u
    { w with fab := { w.fab with grist := tabPut {} g.val { (tabGet ({} : Grist) g.val w.fab.grist) with clear := true } w.fab.grist } })) ∧
  (∀ g value, Writes (.gristWrite via .q g value) via Oid.eventsGristQ g.val (.num value.toNat) (putFab Oid.eventsGristQ g.val value.toNat))

/-- QUAD_MODE_WRITE, LANE_CONFIG_WRITE, LANE_REINSTATE, PRBS_INJECT, PRBS_CLEAR, PORT_REINSTATE, RAW_FRAME and UNDERBACK_FLUSH (R215, R216, R222, R224, R231, R275, R408). STAMP_CLEAR, CELLAR_REINSTATE, CELLAR_TEST_START, RING_ENABLE, RING_DISABLE, CQ_ENABLE, EXC_ENABLE, RACKING_RESUME, TAP_HOST_ENABLE, PATTERN_SELFTEST and HYDRO_SELFTEST (R299, R342, R346, R358, R365, R379, R382, R404, R539). -/
def Obligations.LanePortAndStreamWrites : Prop :=
  (∀ via,
    (∀ q value, Writes (.quadModeWrite via q value) via (quadId Oid.quadMode q.val) 0 (.num value.toNat)
      (fun u => stores (quadId Oid.quadMode q.val) 0 (quadRestart q.val (putObj (quadId Oid.quadMode q.val) 0 value.toNat u)))) ∧
    (∀ n item value, Writes (.laneConfigWrite via n item value) via (quadId (laneItemObj item) (n.val / 4)) (n.val % 4) (.num value.toNat)
      (fun u => stores (quadId (laneItemObj item) (n.val / 4)) (n.val % 4)
        (laneConfigured n.val (putObj (quadId (laneItemObj item) (n.val / 4)) (n.val % 4) value.toNat u)))) ∧
    (∀ n value, Writes (.laneReinstate via n value) via (quadId Oid.laneReinstate (n.val / 4)) (n.val % 4) (.num value.toNat)
      (reinstateLane n.val)) ∧
    (∀ n value, Writes (.prbsInject via n value) via (quadId Oid.lanePrbsInject (n.val / 4)) (n.val % 4) (.num value.toNat) (fun u =>
      if prbsActs u n.val = true ∧ getLane u Oid.lanePrbsGen n.val ≠ 0 ∧ getLane u Oid.laneLoopback n.val ≠ 2 then
        bumpLane Oid.lanePrbsInjected n.val (putLaneX n.val { (laneX u n.val) with injPend := true } u) else u)) ∧
    (∀ n value, Writes (.prbsClear via n value) via (quadId Oid.lanePrbsClear (n.val / 4)) (n.val % 4) (.num value.toNat) (fun u =>
      putLane Oid.lanePrbsBits n.val 0 (putLane Oid.lanePrbsErrors n.val 0 (putLane Oid.lanePrbsInjected n.val 0 u)))) ∧
    (∀ p value, Writes (.portReinstate via p value) via Oid.portReinstate p.val (.num value.toNat) (fun u =>
      if standsRetired u (resPort p.val) = true then updatePort p.val (ubFlushLane p.val (dropRetired (resPort p.val) u)) else u)) ∧
    (∀ p frame, frame.length ≤ 1406 → Writes (.rawFrame via p frame) via Oid.tapRawFrame p.val (.bytes frame)
      (txFirmware p.val (frame.length + 4) (.fwFrame p.val (withFcs frame)))) ∧
    (∀ p frame, 1406 < frame.length → WritesBlocks (.rawFrame via p frame) via Oid.tapRawFrame p.val frame
      (txFirmware p.val (frame.length + 4) (.fwFrame p.val (withFcs frame)))) ∧
    (∀ n value, Writes (.underbackFlush via n value) via Oid.underbackFlush n.val (.num value.toNat)
      (fun u => if govLane u n.val = n.val then ubFlush n.val u else u))) ∧
  (∀ via,
    (∀ k value, Writes (.stampClear via k value) via Oid.lauterStampClear k.val (.num value.toNat) (fun u =>
      let base := getObj u Oid.lauterFrameSeq (getObj u Oid.eventsFlowTriggerSel k.val % 4096)
      { u with lau := { u.lau with stamps := tabPut {} k.val { next := 0, base := base, queue := [] } u.lau.stamps } })) ∧
    (∀ p value pass, WriteRow (.cellarReinstate via p value pass) via Oid.cellarReinstate p.val (.num value.toNat)
      (some (if pass then [] else [p.val])) (fun _ u => (St.ok,
        if getObj u Oid.cellarPcState p.val = 5 ∧ pass = false then
          addLog (resPc p.val) 4 1 0 0 (bump Oid.cellarFaults p.val u)
        else cellarReinstate p.val pass u))) ∧
    (∀ value, Writes (.cellarTestStart via value) via Oid.cellarTestStart 0 (.num value.toNat) startTest) ∧
    (∀ r, Writes (.ringEnable via r) via Oid.rackingRingEnable r.val (.num 1) (fun u =>
      if (ringOf u r.val).enabled then putObj Oid.rackingRingEnable r.val 1 u
      else
        let w := if u.rk.resetStop then { u with rk := { u.rk with stopped := false, resetStop := false } } else u
        let can := hostWritable w && !w.rk.stopped
        let w := if can then writeAbandoned r.val (ringOf u r.val).abandoned w else w
        putObj Oid.rackingRingFault r.val 0 (putObj Oid.rackingRingEnable r.val 1 (tlbForget r.val (putRing r.val
          { enabled := true, cfg := ringCfgOf w r.val, above := (ringOf w r.val).above
            abandoned := if can then [] else (ringOf u r.val).abandoned } w))))) ∧
    (∀ r, Writes (.ringDisable via r) via Oid.rackingRingEnable r.val (.num 0) (fun u =>
      ringDrained r.val (tlbDrop r.val (putRing r.val { (ringOf u r.val) with enabled := false, disabling := (ringOf u r.val).enabled }
        (putObj Oid.rackingRingEnable r.val 0 u))))) ∧
    (∀ c, Writes (.cqEnable via c 1) via Oid.rackingCqEnable c.val (.num 1) (fun u =>
      if (cqOf u c.val).enabled then putObj Oid.rackingCqEnable c.val 1 u
      else putCq c.val { enabled := true, base := getObj u Oid.rackingCqBase c.val, entries := getObj u Oid.rackingCqEntries c.val
                         reserved := owedEntries u c.val } (putObj Oid.rackingCqEnable c.val 1 u))) ∧
    (∀ c, Writes (.cqEnable via c 0) via Oid.rackingCqEnable c.val (.num 0) (fun u => putCq c.val {} (putObj Oid.rackingCqEnable c.val 0 u))) ∧
    Writes (.excEnable via 1) via Oid.rackingExcEnable 0 (.num 1) (fun u =>
      if u.rk.exc.enabled then putObj Oid.rackingExcEnable 0 1 u
      else putObj Oid.rackingExcEnable 0 1 (tlbForget 1024 { u with rk := { u.rk with exc :=
        { enabled := true, dir := getObj u Oid.rackingExcDir, dirEntries := getObj u Oid.rackingExcDirEntries
          bigPage := decide (getObj u Oid.rackingExcPage = 1), entries := getObj u Oid.rackingExcEntries
          entryBytes := getObj u Oid.rackingExcEntryBytes, dropped := u.rk.exc.dropped } } })) ∧
    Writes (.excEnable via 0) via Oid.rackingExcEnable 0 (.num 0) (fun u =>
      putObj Oid.rackingExcEnable 0 0 (tlbDrop 1024 { u with rk := { u.rk with
        exc := { dropped := u.rk.exc.dropped }, excWait := u.rk.excWait.map (fun f => { f with written := false }) } })) ∧
    (∀ value, Writes (.rackingResume via value) via Oid.rackingResume 0 (.num value.toNat) (fun u =>
      (u.rk.rings.map (fun r => r.1)).foldl (fun w r => resumeRing r w) { u with rk := { u.rk with stopped := false, resetStop := false } })) ∧
    (∀ t, Writes (.tapHostEnable via t 1) via Oid.tapHostEnable t.val (.num 1) (fun u =>
      if (txOf u t.val).ring.enabled then putObj Oid.tapHostEnable t.val 1 u
      else putObj Oid.tapHostEnable t.val 1 (tlbForget (2048 + t.val) (putTx t.val { (txOf u t.val) with ring :=
        { enabled := true, dir := getObj u Oid.tapHostDir t.val, dirEntries := getObj u Oid.tapHostDirEntries t.val
          bigPage := decide (getObj u Oid.tapHostPage t.val = 1), slots := getObj u Oid.tapHostSlots t.val
          slotBytes := getObj u Oid.tapHostSlotBytes t.val } } u)))) ∧
    (∀ t, Writes (.tapHostEnable via t 0) via Oid.tapHostEnable t.val (.num 0) (fun u =>
      putObj Oid.tapHostEnable t.val 0 (tlbDrop (2048 + t.val)
        (putTx t.val { (txOf u t.val) with ring := { (txOf u t.val).ring with enabled := false } } u)))) ∧
    (∀ value, Writes (.patternSelftest via value) via Oid.patternSelftest 0 (.num value.toNat) (putObj Oid.patternSelftest 0 1)) ∧
    (∀ value, Writes (.hydroSelftest via value) via Oid.hydroSelftest 0 (.num value.toNat) (putObj Oid.hydroSelftest 0 1)))

/-- POSITION_WRITE, QUERY_AT, CMP_ARM, POS_CMP_TARGET_WRITE, POS_REINSTATE, LIFE_OVERRIDE, LAMP_REINSTATE, HEAD_USER_WRITE, FAULTS_REINSTATE, LIST_CLEAR and WIN_ATTR_WRITE (R440, R444, R451, R457, R459, R468, R471, R474, R495, R507, R509). That HEAD_USER_WRITE acts with no head on the bus is the model's choice (entry 136). -/
def Obligations.MotionLampAndFaultWrites : Prop := ∀ via,
  (∀ n value, Writes (.positionWrite via n value) via Oid.posPosition n.val (.num value.toNat)
    (fun u => putEnc n.val { (encOf u n.val) with jumpTo := some (toSigned 64 value.toNat) } u)) ∧
  (∀ n t, Writes (.queryAt via n t) via Oid.posQueryAt n.val (.num (Time96pack t)) (fun u =>
    let w := putObj Oid.posQueryAt n.val (Time96pack t) u
    answerAll n.val (putEnc n.val { (encOf w n.val) with query := some (Time96pack t) } w))) ∧
  (∀ k value, Writes (.cmpArm via k value) via Oid.posCmpMode k.val (.num value.toNat) (fun u =>
    let w := putObj Oid.posCmpMode k.val value.toNat u
    if value.toNat = 0 then putObj Oid.posCmpState k.val 0 w
    else if getObj w Oid.posCmpArm k.val = 1 then putObj Oid.posCmpState k.val 2 w else armUnit k.val w)) ∧
  (∀ k item value, Writes (.posCmpTargetWrite via k item value) via (cmpItemId item) k.val (.num value.toNat) (fun u =>
    let n := getObj u Oid.posCmpChannel k.val
    let w := putObj (cmpItemId item) k.val value.toNat (evalAvailable n (encOf u n).pend.length u)
    if item = .target then checkBehind k.val (putCmp k.val { (cmpOf w k.val) with behind := false } w) else w)) ∧
  (∀ n value, Writes (.posReinstate via n value) via Oid.posReinstate n.val (.num value.toNat) (encReinstate n.val)) ∧
  (∀ n value, Writes (.lifeOverride via n value) via Oid.lampLifeOverride n.val (.num value.toNat)
    (putFab Oid.lampLifeOverride n.val value.toNat)) ∧
  (∀ n value, Writes (.lampReinstate via n value) via Oid.lampReinstate n.val (.num value.toNat) (lampReinstate n.val)) ∧
  (∀ n data, data.length = 96 → Writes (.headUserWrite via n data) via Oid.lampHeadUser n.val (.bytes data) (fun u =>
    emitAll ((List.range 6).map (fun k => .headWrite n.val (0xA0 + 16 * k) (slice (16 * k) 16 data))) (putBlob Oid.lampHeadUser n.val data u))) ∧
  (∀ res pass, WriteRow (.faultsReinstate via res pass) via Oid.faultsReinstate 0 (.num res.toNat)
    (some (if pass then [] else [res.toNat % 4096])) (fun _ u => (St.ok, reinstateRes res.toNat (pass || decide (res.toNat / 4096 ≠ 5)) u))) ∧
  (∀ value failed, WriteRow (.listClear via value failed) via Oid.faultsListClear 0 (.num value.toNat)
    (some (failed.map (fun p => p.val))) (fun _ u => (St.ok, clearList (failed.map (fun p => p.val)) u))) ∧
  (∀ w value, Writes (.winAttrWrite via w value) via Oid.hostlinkWinAttr w.val (.num value.toNat) (fun u =>
    let x : Window := if value.toNat % 2 = 1 ∧ (winOf u w.val).on = false then
        { on := true, target := getObj u Oid.hostlinkWinTarget w.val, size := getObj u Oid.hostlinkWinSize w.val }
      else { (winOf u w.val) with on := decide (value.toNat % 2 = 1) }
    putObj Oid.hostlinkWinAttr w.val value.toNat { u with link := { u.link with windows := tabPut {} w.val x u.link.windows } }))


/-! ### Dictionary service and plans (03_dictionary) -/

/-- READ and READ_BLOCK (R93, R94): a request handed over and past the checks is answered with the value of its target, live or staged, in the transport's byte order; a value not staged is NOT_IN_PLAN, and that refusal carries the index too (R80). Nothing else changes. -/
def Obligations.DictionaryReads : Prop :=
  (∀ q s h r v, carried q s = some h → h.req.op = 1 → Checked h r → (indexOf h.req r).2 = [] →
    targetValue h.before h.req (indexOf h.req r).1 = some v →
    (indexOut h.req r (indexOf h.req r).1 ++ encodeValue h.req.le r.type v).length ≤ responseMax h.req.who →
    exec (.read q) s = .next (replied h
      { status := St.ok, payload := indexOut h.req r (indexOf h.req r).1 ++ encodeValue h.req.le r.type v } h.before)) ∧
  (∀ q s h r, carried q s = some h → h.req.op = 1 → Checked h r → (indexOf h.req r).2 = [] →
    targetValue h.before h.req (indexOf h.req r).1 = none →
    exec (.read q) s = .next (replied h { status := St.notInPlan, payload := indexOut h.req r (indexOf h.req r).1 } h.before)) ∧
  (∀ q s h r b off count, carried q s = some h → h.req.op = 3 → Checked h r → isBytes r.type = true →
    (indexOf h.req r).2 = numOut h.req.le 4 off ++ numOut h.req.le 2 count → off ≤ b.length → off < 2 ^ 32 → count < 2 ^ 16 →
    targetValue h.before h.req (indexOf h.req r).1 = some (.bytes b) →
    let head := indexOut h.req r (indexOf h.req r).1 ++ numOut h.req.le 4 off ++ numOut h.req.le 4 b.length
    exec (.readBlock q) s = .next (replied h
      { status := St.ok, payload := head ++ slice off (min count (responseMax h.req.who - head.length)) b } h.before))

/-- WRITE and WRITE_BLOCK (R84, R93, R95, R118, R119): past the checks a live value takes effect and a staged one enters the plan; a block that is not the last only lengthens the transfer, and the last one gives the object, live or staged, its whole value at once. The status is OK, but FLASH for a commit or a persistence clear whose flash operation fails (Table 3.9). -/
def Obligations.DictionaryWrites : Prop :=
  (∀ q s h r v, carried q s = some h → h.req.op = 2 → h.req.target = 0 → Checked h r →
    let i := indexOf h.req r
    writeValue h.before h.req r i.1 i.2 = some v → liveStatus h.before h.req r i.1 (writtenPart h.req r i.2 v) v = St.ok →
    transferOn h.before h.req.id i.1 = none → planWrite h.req.id h.before = none →
    consistencyStatus h.before h.req.id i.1 (valNum v) = St.ok →
    let t := applyWrite h.req.id i.1 v (firerOf h.req.who) h.req.fails h.before
    exec (.write q) s = .next (replied h { status := flashStatus h.req.id h.before t, payload := indexOut h.req r i.1 } t)) ∧
  (∀ id u t, id ≠ Oid.modesFwCommit → id ≠ Oid.dictPersistClear → flashStatus id u t = St.ok) ∧
  (∀ q s h r v, carried q s = some h → h.req.op = 2 → h.req.target ≠ 0 → Checked h r →
    let i := indexOf h.req r
    let p := targetPlan h.req.target
    writeValue h.before h.req r i.1 i.2 = some v → stagedStatus h.before h.req r i.1 (writtenPart h.req r i.2 v) v = St.ok →
    transferOn h.before h.req.id i.1 = none → stageStatus r (planOf h.before p) (entryOf h.req r i.1 v) = St.ok →
    exec (.write q) s = .next (replied h { status := St.ok, payload := indexOut h.req r i.1 }
      (putPlan p (stagedPlan (planOf h.before p) (entryOf h.req r i.1 v)) h.before))) ∧
  (∀ q s h r off data, carried q s = some h → h.req.op = 4 → (h.req.target = 0 ∨ notStageable r = false) → h.req.final = false →
    Checked h r → isBytes r.type = true →
    let i := indexOf h.req r
    i.2 = numOut h.req.le 4 off ++ data → off < 2 ^ 32 → off + data.length ≤ maxBytes r.type →
    blockStatus h.req (transferOn h.before h.req.id i.1) off = St.ok →
    let w := dropTransfer h.req.id i.1 h.before
    let all := ((transferOn h.before h.req.id i.1).map (fun t => t.data)).getD [] ++ data
    let x : Transfer :=
      { id := h.req.id, index := i.1, who := h.req.who, data := all
        plan := if h.req.target = 0 then none else some (targetPlan h.req.target) }
    exec (.writeBlock q) s = .next (replied h { status := St.ok, payload := indexOut h.req r i.1 ++ numOut h.req.le 4 off }
      { w with dict := { w.dict with transfers := w.dict.transfers ++ [x] } })) ∧
  (∀ q s h r off data v, carried q s = some h → h.req.op = 4 → h.req.target = 0 → h.req.final = true →
    Checked h r → isBytes r.type = true →
    let i := indexOf h.req r
    i.2 = numOut h.req.le 4 off ++ data → off < 2 ^ 32 → off + data.length ≤ maxBytes r.type →
    blockStatus h.req (transferOn h.before h.req.id i.1) off = St.ok →
    decodeValue h.req.le r.type (((transferOn h.before h.req.id i.1).map (fun t => t.data)).getD [] ++ data) = some v →
    liveStatus h.before h.req r i.1 v v = St.ok → planWrite h.req.id h.before = none →
    consistencyStatus h.before h.req.id i.1 (valNum v) = St.ok →
    exec (.writeBlock q) s = .next (replied h { status := St.ok, payload := indexOut h.req r i.1 ++ numOut h.req.le 4 off }
      (dropTransfer h.req.id i.1 (applyWrite h.req.id i.1 v (firerOf h.req.who) h.req.fails h.before)))) ∧
  (∀ q s h r off data v, carried q s = some h → h.req.op = 4 → h.req.target ≠ 0 → h.req.final = true →
    Checked h r → isBytes r.type = true →
    let i := indexOf h.req r
    let p := targetPlan h.req.target
    i.2 = numOut h.req.le 4 off ++ data → off < 2 ^ 32 → off + data.length ≤ maxBytes r.type →
    blockStatus h.req (transferOn h.before h.req.id i.1) off = St.ok →
    decodeValue h.req.le r.type (((transferOn h.before h.req.id i.1).map (fun t => t.data)).getD [] ++ data) = some v →
    stagedStatus h.before h.req r i.1 v v = St.ok → stageStatus r (planOf h.before p) (entryOf h.req r i.1 v) = St.ok →
    exec (.writeBlock q) s = .next (replied h { status := St.ok, payload := indexOut h.req r i.1 ++ numOut h.req.le 4 off }
      (dropTransfer h.req.id i.1 (putPlan p (stagedPlan (planOf h.before p) (entryOf h.req r i.1 v)) h.before))))

/-- SUBSCRIBE and NOTIFY (R96, R97): mode 0 cancels, another mode replaces or adds within the limits; the sampling of a subscription that is due sends a NOTIFY with the count of changes, the time and the value. -/
def Obligations.Subscriptions : Prop :=
  (∀ q s h r, carried q s = some h → h.req.op = 5 → Checked h r →
    let i := indexOf h.req r
    let n := sessionNum h.req.who
    let rest := h.before.dict.subs.filter (fun x => !(x.session = n && x.id = h.req.id && x.index = i.1))
    subValueStatus h.req i.2 = St.ok → isBlob r.type = false → r.access.right ≠ .wo → h.req.id / 65536 ≠ 0x02 →
    (byteAt i.2 0 = 0 → exec (.subscribe q) s = .next (replied h { status := St.ok, payload := indexOut h.req r i.1 }
      { h.before with dict := { h.before.dict with subs := rest } })) ∧
    let x : Sub := { session := n, id := h.req.id, index := i.1, mode := byteAt i.2 0, minMs := numIn h.req.le (slice 2 2 i.2), periodMs := numIn h.req.le (slice 4 4 i.2), last := none, changes := 0, sinceMs := if byteAt i.2 0 = 1 then 65536 else 0 }
    (byteAt i.2 0 ≠ 0 → rest.length < 256 → (rest.filter (fun x => x.session = n)).length < 32 →
      exec (.subscribe q) s = .next (replied h { status := St.ok, payload := indexOut h.req r i.1 }
        { h.before with dict := { h.before.dict with subs := rest ++ [x] } }))) ∧
  (∀ k s x, s.dict.subs[k.val]? = some x → dictServed s = true → x.mode = 2 → x.periodMs ≤ x.sinceMs + 1 →
    exec (.notify k) s = .next (sendNotify x 0 (liveValue s x.id x.index) { s with dict := { s.dict with
      subs := s.dict.subs.set k.val { x with
        last := some (liveValue s x.id x.index)
        changes := 0
        sinceMs := 0 } } })) ∧
  (∀ k s x w, s.dict.subs[k.val]? = some x → dictServed s = true → x.mode = 1 → x.last = some w → w ≠ liveValue s x.id x.index →
    max 1 x.minMs ≤ x.sinceMs + 1 →
    exec (.notify k) s = .next (sendNotify x (min (x.changes + 1) 65535) (liveValue s x.id x.index) { s with dict := { s.dict with
      subs := s.dict.subs.set k.val { x with
        last := some (liveValue s x.id x.index)
        changes := 0
        sinceMs := 0 } } }))

/-- SESSION_OPEN and SESSION_PROOF (R112): an OPEN on session 0 makes one half-open session of an unused number from 0x0001 to 0xFFFD for its source, with the key of the slot named; the right proof opens it and is answered with the device's, a wrong one frees it; the numbers and the nonce are free values. HALF_OPEN_TIMEOUT and SESSION_TIMEOUT free it with its subscriptions and transfers (R112, R113). -/
def Obligations.Sessions : Prop :=
  (∀ q s h src, carried q s = some h → h.req.op = 7 → headerStatus h.req = St.ok → opStatus h.req = St.ok → h.req.src = some src →
    openStatus h.before h.req = St.ok → ∃ x dn t, exec (.sessionOpen q) s = .next t ∧
      t = replied h { status := St.ok, payload := dn, session := x.num, plain := true }
        { h.before with free := h.before.free + 2, dict := { h.before.dict with sessions := h.before.dict.sessions ++ [x] } } ∧
      1 ≤ x.num ∧ x.num ≤ 0xFFFD ∧ (∀ y ∈ h.before.dict.sessions, y.num ≠ x.num) ∧ x.half = true ∧ x.src = src ∧ x.dn = dn ∧
      dn.length = 16 ∧ x.slot = byteAt h.req.payload 0 ∧ x.cn = slice 4 16 h.req.payload ∧
      (x.secure = true ↔ getObj h.before Oid.dictKeyClass x.slot = 2) ∧
      x.key = sessionKey (getBlob h.before Oid.dictKey x.slot) x.cn x.dn x.num) ∧
  (∀ q s h x, carried q s = some h → h.req.op = 8 → headerStatus h.req = St.ok → opStatus h.req = St.ok → isSessionZero h.req.who = false →
    sessionOf h.before (sessionNum h.req.who) = some x → x.half = true → h.req.payload.length = 16 →
    (h.req.payload = clientProof (getBlob h.before Oid.dictKey x.slot) x.cn x.dn x.num →
      exec (.sessionProof q) s = .next (replied h
        { status := St.ok, payload := deviceProof (getBlob h.before Oid.dictKey x.slot) x.cn x.dn x.num }
        (mapSession x.num (fun y => { y with half := false }) h.before))) ∧
    (h.req.payload ≠ clientProof (getBlob h.before Oid.dictKey x.slot) x.cn x.dn x.num →
      exec (.sessionProof q) s = .next (replied h { status := St.proofFailed, plain := true }
        (closeSessions (fun y => y.num = x.num) h.before)))) ∧
  (∀ n s, ∃ t, exec (.halfOpenTimeout n) s = .next t ∧ t = { s with dict := t.dict } ∧
    t.dict.sessions = s.dict.sessions.filter (fun x => !(x.num = n.toNat && x.half))) ∧
  (∀ n s x, sessionOf s n.toNat = some x → (∀ y ∈ s.dict.sessions, y.num = n.toNat → y = x) → x.half = false →
    ∃ t, exec (.sessionTimeout n) s = .next t ∧ t = { s with dict := t.dict } ∧
      t.dict.sessions = s.dict.sessions.filter (fun y => !(y.num = n.toNat)) ∧ (∀ u ∈ t.dict.subs, u.session ≠ n.toNat) ∧
      (∀ u ∈ t.dict.transfers, u.who ≠ .mgmt n.toNat ∧ u.who ≠ .cascade n.toNat))

/-- PITCH, ARMING_END, PITCH_TAKES_PLACE, BOUNDARY_TIMEOUT and ABORT (R121 to R125): an accepted pitch holds its answer until arming ends; at its time every staged value is applied, the plan becomes active, the counters and the last pitch are recorded and source 0x047 fires; a frame that does not come, an ABORT, or a value that the mode does not allow leaves the plan sealed; an ABORT in arming answers the PITCH too. -/
def Obligations.PitchOfAPlan : Prop :=
  (∀ q s h r, carried q s = some h → h.req.op = 9 → Checked h r → pitchStatus h.before h.req = St.ok →
    let f := pitchFields h.req
    let p : Pitch := { plan := planNamed f.1, when_ := f.2.1, flow := f.2.2.1, time := valNum f.2.2.2, armed := false, secure := h.req.secure, late := false, reply := h.reply }
    exec (.pitch q) s = .next (settleWarm (settleCauses
      (setPlanState p.plan .scheduled { h.before with dict := { h.before.dict with pitch := some p } })))) ∧
  (∀ s p, s.dict.pitch = some p → p.armed = false → exec .armingEnd s = .next (respond s.dict.sessions p.reply 9 { status := St.ok }
    { s with dict := { s.dict with pitch := some { p with armed := true, late := decide (p.when_ = 2 ∧ p.time < now s), armedAt := s.time.ticks } } })) ∧
  (∀ s p, s.dict.pitch = some p → pitchRuns s = true → p.armed = true → pitchDue p s = true → holdsRwd (planOf s p.plan) = false →
    exec .pitchTakesPlace s = .next (settleCauses (applyRequest (planOf s p.plan).entries p.secure (recordPitch p.plan p.late
      (applyEntries (planOf s p.plan).entries { s with dict := { s.dict with pitch := none } }))))) ∧
  (∀ s p, s.dict.pitch = some p → pitchRuns s = true → p.armed = true → pitchDue p s = true → holdsRwd (planOf s p.plan) = true →
    s.modes.current ≠ .dormant → s.modes.current ≠ .ready →
    exec .pitchTakesPlace s = .next (settleCauses (setSticky Oid.plansStatus 0 4 (setPlanState p.plan .sealed
      { s with dict := { s.dict with pitch := none } })))) ∧
  (∀ s p, s.dict.pitch = some p → p.armed = true → p.when_ = 1 → p.reply ≠ .bcast →
    exec .boundaryTimeout s = .next (setSticky Oid.plansStatus 0 2 (setPlanState p.plan .sealed { s with dict := { s.dict with pitch := none } }))) ∧
  (∀ q s h r p, carried q s = some h → h.req.op = 10 → h.req.id = Oid.plansActive → Checked h r → abortStatus h.before h.req = St.ok →
    h.before.dict.pitch = some p → p.armed = true →
    exec (.abort q) s = .next (replied h { status := St.ok } (unschedule p h.before))) ∧
  (∀ q s h r p, carried q s = some h → h.req.op = 10 → h.req.id = Oid.plansActive → Checked h r → abortStatus h.before h.req = St.ok →
    h.before.dict.pitch = some p → p.armed = false →
    exec (.abort q) s = .next (replied h { status := St.ok }
      (respond h.before.dict.sessions p.reply 9 { status := St.ok } (unschedule p h.before)))) ∧
  (∀ q s h r, carried q s = some h → h.req.op = 10 → h.req.id ≠ Oid.plansActive → Checked h r → (indexOf h.req r).2 = [] →
    exec (.abort q) s = .next (replied h { status := St.ok, payload := indexOut h.req r (indexOf h.req r).1 }
      (dropTransfer h.req.id (indexOf h.req r).1 h.before)))

/-- MAILBOX_OVERRUN (R101): a doorbell of a busy mailbox is counted and discarded. LINOB_FORWARD (R114): a message for another member is sent, or passed on with one hop less, towards it; an answer goes to the client it is for. BLOCK_TRANSFER_TIMEOUT (R95) drops the transfer. PERSIST_STORE (R89, R90): the oldest outstanding store goes into the copy not in use, which becomes the newer, or fails with its report. MANAGEMENT_PORT_FRAME (R105): the firmware's answer is sent with its FCS, and a frame without one is counted as dropped. -/
def Obligations.ServiceEvents : Prop :=
  (∀ m s, bar0Writable s = true → (mboxOf s m.val).phase = .busy →
    exec (.mailboxOverrun m 1) s = .next (bump Oid.dictMbOverruns 0 { s with link := { s.link with l1 := false } })) ∧
  (∀ ip udp dest msg s q, dest.toNat ≠ getObj s Oid.timeBhAddress → dictServed s = true → duplicated s dest.toNat = false →
    routeTo s dest.toNat = some q →
    exec (.linobForward (.mgmt ip udp) dest msg) s = .next (sendCascade q 5 6 dest.toNat msg { s with dict := { s.dict with
      clients := { member := dest.toNat, session := be16 msg 8, seq := be32 msg 4, src := .mgmt ip udp } :: s.dict.clients } })) ∧
  (∀ q src seq hops dest msg s, linkTakes s q.val hops.toNat = true →
    let u := bump Oid.portBhFrames q.val s
    duplicated u dest.toNat = false →
    (∀ k, dest.toNat ≠ getObj s Oid.timeBhAddress → routeTo u dest.toNat = some k → k ≠ q.val →
      exec (.linobForward (.quad q src seq hops) dest msg) s =
        .next (queueBh k (now u) (linobFrame 0 dest.toNat src.toNat (hops.toNat - 1) seq.toNat msg) u)) ∧
    (∀ c, dest.toNat = getObj s Oid.timeBhAddress → clientOf u src.toNat msg = some c →
      exec (.linobForward (.quad q src seq hops) dest msg) s = .next (sendLinob c.src msg u))) ∧
  (∀ id index s, exec (.blockTransferTimeout id index) s = .next { s with dict := { s.dict with
    transfers := s.dict.transfers.filter (fun t => !(t.id = id.toNat && t.index = index.toNat)) } }) ∧
  (∀ s i rest, s.dict.waiting = i :: rest →
    let u := { s with dict := { s.dict with waiting := rest } }
    let c := storedItem i u
    (storeBytes c ≤ 262144 → (∀ n v, i ≠ .lampCount n v) → exec (.persistStore true) s = .next (settleWarm (settleShutdown
      { u with dict := { u.dict with flash := { (if u.dict.flash.useSecond then { u.dict.flash with first := { c with seq := u.dict.flash.store.seq + 1, good := true } }
                                                 else { u.dict.flash with second := { c with seq := u.dict.flash.store.seq + 1, good := true } })
                                                with writes := u.dict.flash.writes + 1 } } }))) ∧
    exec (.persistStore false) s = .next (settleWarm (settleShutdown (fire 0x04D (setSticky Oid.dictPersistStatus 0 1 u)
      |> logUntracked resDevice 6 0 |> setSticky Oid.faultsAlertStatus 0 0x20)))) ∧
  (∀ frame s dst etype body, dictServed s = true → isLinobFrame s frame = false → mgmtAnswer s frame = some (dst, etype, body) →
    exec (.managementPortFrame frame) s = .next (emit (.mgmtFrame (withFcs (ethFrame dst (getObj s Oid.dictMgmtMac) none etype body))) s)) ∧
  (∀ frame s, dictServed s = true → isLinobFrame s frame = false → mgmtAnswer s frame = none →
    exec (.managementPortFrame frame) s = .next { s with dict := { s.dict with mgmtDrop := s.dict.mgmtDrop + 1 } })


/-! ### Modes, resets and Boot (02_modes) -/

/-- COLD_RESET, KILN_BROWN_OUT and COLD_EXIT (R53, R529, R530): cold reset clears all state. From any state the device is in Cold, and every object (time, event configuration, PFU positions, the lamp flash counts and the rest) is at its reset value but the reset cause, the state of every block as after power-on, nothing listed in memory; flash is no state that it clears and keeps what it holds, but for what an earlier clear asked to erase (R91), and the HBM rows repaired for good stay repaired, with their counts (R339; entry 149). In Cold, release enters Boot with the kiln in reset. Whether a brown-out reads as cause 0 or 2 is open. -/
def Obligations.ColdResetClears : Prop :=
  (∀ cause s, ∃ t, exec (.coldReset cause) s = .next t ∧
    t.modes = { State.reset.modes with current := .cold, hbmEpoch := s.modes.hbmEpoch + 1 } ∧
    getObj t Oid.modesResetCause = coldCode cause ∧
    (∀ id idx, idx < 65536 → ¬(id = Oid.modesResetCause ∧ idx = 0) → id ≠ Oid.cellarRepairs → id ≠ Oid.cellarRepairsLeft →
      getObj t id idx = objDefault id idx) ∧
    t.mem = [] ∧ t.blobs = [] ∧ t.fresh = [] ∧ t.time = State.reset.time ∧ t.lau = State.reset.lau ∧ t.fab = State.reset.fab ∧
    t.lp = State.reset.lp ∧ t.pos = State.reset.pos ∧ t.hyd = State.reset.hyd ∧ t.tap = State.reset.tap ∧
    t.lamp = State.reset.lamp ∧ t.rk = State.reset.rk ∧ t.flt = State.reset.flt ∧
    t.cel = { State.reset.cel with repaired := s.cel.repaired, used := s.cel.used } ∧
    t.link = { State.reset.link with perst := s.link.perst } ∧ t.dict = { State.reset.dict with flash := t.dict.flash } ∧
    t.flt.retired = [] ∧ t.flt.log = [] ∧ t.dict.flash.imageA = s.dict.flash.imageA ∧ t.dict.flash.imageB = s.dict.flash.imageB ∧
    (s.dict.flash.clearPending = false → t.dict.flash.store = s.dict.flash.store) ∧
    (s.dict.flash.clearPending = true →
      t.dict.flash.store.objs = [] ∧ t.dict.flash.store.planA = none ∧ t.dict.flash.store.planB = none)) ∧
  (∀ s, ∃ t, exec .kilnBrownOut s = .next t ∧ t.modes.current = .cold ∧
    (getObj t Oid.modesResetCause = 0 ∨ getObj t Oid.modesResetCause = 2) ∧ t.mem = [] ∧ t.time = State.reset.time ∧
    t.pos = State.reset.pos ∧ t.lamp = State.reset.lamp ∧ t.fab = State.reset.fab) ∧
  (∀ s, s.modes.current = .cold →
    exec .coldExit s = .next { s with modes := { s.modes with current := .boot, step := .kilnReset, bootCold := true } }) ∧
  (∀ s, s.modes.current ≠ .cold → exec .coldExit s = .next s)

/-- BOOT_IMAGE_LOAD, BOOT_BIST, HBM_TRAINING and BOOT_COMPLETE (R55, R60, R61, R63, R344), in the order of Table 2.4: the image of the preferred slot, else the other, else recovery; the self-test; the training of HBM, after a cold reset with memory lost and the stored retirements restored, and on leaving a Dormant in which HBM was powered down; the dictionary, and the mode Boot ends in. That a slot refused for its length sets no bit is the model's choice (entry 132). -/
def Obligations.BootInOrder : Prop :=
  (∀ s, s.modes.current = .boot → s.modes.step = .kilnReset →
    let p := preferredSlot s
    let u := putObj Oid.modesBootStatus 0 0 s
    let bits := fun (k : Nat) => if imageCheck (slotImage s k) = .signatureFailed then 4 ^ k else 2 * 4 ^ k
    let failed := fun (k : Nat) (w : State) => if imageCheck (slotImage s k) = .lengthInvalid then w else setSticky Oid.modesBootStatus 0 (bits k) w
    exec .bootImageLoad s = .next (
      if imageCheck (slotImage s p) = .good then putObj Oid.modesBootSlot 0 p { u with modes := { u.modes with step := .imageLoaded } }
      else if imageCheck (slotImage s (1 - p)) = .good then runSlot (1 - p) (failed p u)
      else
        let w := failed (1 - p) (failed p u)
        putObj Oid.modesBootSlot 0 2 { w with modes := { w.modes with step := .recovery } })) ∧
  (∀ s, s.modes.current = .boot → s.modes.step = .imageLoaded →
    exec (.bootBist true true true) s = .next { s with modes := { s.modes with step := .firmwareStarted } } ∧
    (exec (.bootBist true true false) s = .next (
      let u := setSticky Oid.modesBootStatus 0 0x40 s
      { u with modes := { u.modes with step := .firmwareStarted } })) ∧
    exec (.bootBist false true true) s = .next (haltBy 1 (setSticky Oid.modesBootStatus 0 0x10 s)) ∧
    exec (.bootBist true false true) s = .next (haltBy 2 (setSticky Oid.modesBootStatus 0 0x20 s))) ∧
  (∀ s train test, s.modes.current = .boot → s.modes.step = .firmwareStarted → s.modes.bootCold = true →
    exec (.hbmTraining train test) s = .next (settleCauses (
      let u := trainAll (train.map (fun p => p.val)) (test.map (fun p => p.val)) (restoreList (hbmLost s))
      { u with modes := { u.modes with step := .trained } }))) ∧
  (∀ s train test, s.modes.current = .boot → s.modes.step = .firmwareStarted → s.modes.bootCold = false →
    exec (.hbmTraining train test) s = .next (settleCauses (
      let u := trainAll (train.map (fun p => p.val)) [] s
      { u with modes := { u.modes with step := .trained } }))) ∧
  (∀ s train test, s.modes.current = .dormant → s.modes.target = some .ready → s.modes.hbm = .poweredDown →
    exec (.hbmTraining train test) s = .next (settleCauses (trainAll (train.map (fun p => p.val)) [] s))) ∧
  (∀ s micros, s.modes.current = .boot → s.modes.step = .trained →
    let u := bootDictionary s
    let v := putObj Oid.hostlinkBar2SizeActive 0 (getObj u Oid.hostlinkBar2Size) (putObj Oid.modesBootTime 0 micros.toNat u)
    exec (.bootComplete micros) s = .next (bootEnds { v with modes := { v.modes with step := .done, bootEnd := u.time.ticks } }))

/-- TRANSITION_COMPLETE, DRAIN_COMPLETE, TRANSMIT_CUT_TIMEOUT, WAKE_COMPARE and WAKE_AHEAD (R47 to R49, R65, R66): a transition that waits for nothing is complete, with the mode it asked for current and no transition left; from a run mode with `modes.drain_on_stop` set it first waits for the casks owed, and DRAIN_COMPLETE ends that wait. TRANSMIT_CUT_TIMEOUT cuts the frames that a stopping flow has started, and counts the cut. A wake compare that is reached fires source 0x046; a pitch that is near wakes a Dormant device ahead of its time. -/
def Obligations.TransitionsEnd : Prop :=
  (∀ s b, s.modes.target = some b → s.modes.draining = false → receives s.modes.current = false → txStopping s = false →
    ¬(s.modes.current = .dormant ∧ s.modes.hbm = .poweredDown) → ¬(b = .ready ∧ isRun s.modes.current = true) →
    exec .transitionComplete s = .next (finishTransition b s)) ∧
  (∀ s b, s.modes.pendingReq = none → s.modes.wakeQueued = false →
    (finishTransition b s).modes.current = b ∧ (finishTransition b s).modes.target = none ∧ (finishTransition b s).modes.draining = false) ∧
  (∀ s, s.modes.target = some .ready → s.modes.draining = false → receives s.modes.current = true → s.modes.current ≠ .burst →
    pipelineEmpty s = true →
    let w := stopReceiving s
    txStopping w = false → w.lau.frames = [] →
    (getObj w Oid.modesDrainOnStop = 1 → drainOwed w = true →
      exec .transitionComplete s = .next { w with modes := { w.modes with draining := true } }) ∧
    (getObj w Oid.modesDrainOnStop ≠ 1 → exec .transitionComplete s = .next (finishTransition .ready (releaseCasks 3 w)))) ∧
  (∀ s b, s.modes.target = some b → s.modes.draining = true → drainOwed s = false →
    exec .drainComplete s = .next (finishTransition b s)) ∧
  (∀ t s, (txOf s t.val).stopping = true → startedFrames (txOf s t.val) ≠ [] →
    exec (.transmitCutTimeout t) s = .next (endRun t.val (setSticky Oid.tapStatus t.val 8 (bump Oid.tapCutFrames t.val s)))) ∧
  (∀ s, s.modes.current ≠ .cold → isOn s Oid.modesWakeEnable = true → getObj s Oid.modesWakeAt ≤ now s →
    exec .wakeCompare s = .next (wakeFires s.modes.wakeAtPassed s)) ∧
  (∀ s p, s.dict.pitch = some p → p.when_ = 2 →
    p.time ≤ tAddNs (now s) (if bit (getObj s Oid.modesWakeSources) 1 then (wakeLead s : Int) else 0) →
    s.modes.current = .dormant → s.modes.target = none → s.modes.grace = false →
    exec .wakeAhead s = .next (beginTransition .ready (assertWake { s with modes := { s.modes with wakeTarget := some p.time } })))

/-- LIMP_CAUSE, WATCHDOG_GRACE_END, FIRMWARE_WATCHDOG and HALT_CAUSE (R68, R69, R73): a Limp cause in a mode that runs sets its bit and enters Limp, the watchdog's after its grace; in Limp a watchdog is a Halt cause; a Halt cause sets its bit and enters Halt from every mode but Cold, and memory is as it was, but for placements in flight, which are written first. -/
def Obligations.LimpAndHalt : Prop :=
  (∀ cause s, s.modes.current ≠ .cold → s.modes.current ≠ .halt → s.modes.current ≠ .limp → s.modes.current ≠ .boot →
    stagingFailed s = false → cause.val ≠ 3 → exec (.limpCause cause) s = .next (enterLimp (
      let u := setSticky Oid.modesLimpCause 0 (2 ^ cause.val) { s with modes := { s.modes with causeTick := some s.time.ticks } }
      { u with modes := { u.modes with target := none, pendingReq := none, draining := false } }))) ∧
  (∀ s, s.modes.current ≠ .cold → s.modes.current ≠ .halt → s.modes.current ≠ .limp → s.modes.current ≠ .boot →
    stagingFailed s = false → exec (.limpCause 3) s = .next (
      let u := setSticky Oid.modesLimpCause 0 8 { s with modes := { s.modes with causeTick := some s.time.ticks } }
      { u with modes := { u.modes with target := none, pendingReq := none, draining := false, grace := true } })) ∧
  (∀ s, s.modes.grace = true → exec .watchdogGraceEnd s = .next (enterLimp s)) ∧
  (∀ s, (enterLimp s).modes.current = .limp ∧ (enterLimp s).modes.grace = false ∧ (enterLimp s).modes.pendingReq = none) ∧
  (∀ s, s.modes.current = .limp → exec .firmwareWatchdog s = .next (haltBy 4 (logUntracked resDevice 8 4 s))) ∧
  (∀ s, s.modes.current ≠ .cold → s.modes.current ≠ .halt → s.modes.current ≠ .limp →
    exec .firmwareWatchdog s = .next (limpBy 8 (logUntracked resDevice 8 (limpAction s) s))) ∧
  (∀ cause s, s.modes.current ≠ .cold →
    let u := setSticky Oid.modesHaltCause 0 (2 ^ cause.val) { s with modes := { s.modes with causeTick := some s.time.ticks } }
    exec (.haltCause cause) s = .next (if s.modes.current = .halt then u else enterHalt u)) ∧
  (∀ s, (enterHalt s).modes.current = .halt ∧ (enterHalt s).modes.grace = false ∧ (enterHalt s).modes.pendingReq = none ∧
    (s.lau.flight = [] → (enterHalt s).mem = s.mem))


/-! ### Ports, flows and the underback (07_ports_flows, 08_underback) -/

/-- PORT_FAULT (R231): each cause acts on a port that is otherwise up, and no other. LOCAL_OR_REMOTE_FAULT, CASCADE_FRAME_DISCARD (R230, R252). MULTICAST_JOIN (R241): a membership asked for is reported, one no longer asked for is left unless another flow has it; the messages are those of the version that the port speaks, which the model presumes. FRAME_RECEIVE (R229, R233, R234): a good frame whose destination the MAC accepts goes on to the classifier with its stamp; an error of its length or FCS is counted first; a frame not accepted is counted only when it is good. -/
def Obligations.PortReception : Prop :=
  (∀ p s, portUp s p.val = true → exec (.portFault p 0) s = .next (portFault p.val 1 s)) ∧
  (∀ p s, portUp s p.val = true → fecActive s p.val ≠ 0 → exec (.portFault p 1) s = .next (portFault p.val 2 s)) ∧
  (∀ p s, portLocked s p.val = true → (portX s p.val).remoteF = true → (portX s p.val).hiBer = false → (portX s p.val).localF = false →
    exec (.portFault p 2) s = .next (portFault p.val 3 s)) ∧
  (∀ p loc rem s, portExists s p.val = true → exec (.localOrRemoteFault p loc rem) s =
    .next (updatePort p.val (putPortX p.val { (portX s p.val) with localF := loc, remoteF := rem } s))) ∧
  (∀ p b fcs fix bad stamp s, portReceives s p.val = true → fecActive s p.val = 0 → isMacControl (b ++ fcs) = false → fcs.length = 4 →
    60 ≤ b.length → b.length + 4 ≤ getObj s Oid.portMaxFrame p.val →
    (leNat fcs = ethFcs b → macAccepts s p.val (beNat (b.take 6)) = true →
      exec (.frameReceive p (b ++ fcs) fix bad stamp) s = .next (enterFrame p.val b (Time96pack stamp) false false s)) ∧
    (leNat fcs = ethFcs b → macAccepts s p.val (beNat (b.take 6)) = false →
      exec (.frameReceive p (b ++ fcs) fix bad stamp) s = .next (bump Oid.portRxDmacDrops p.val s)) ∧
    (leNat fcs ≠ ethFcs b → macAccepts (bump Oid.portRxFcsErrors p.val s) p.val (beNat (b.take 6)) = true →
      exec (.frameReceive p (b ++ fcs) fix bad stamp) s =
        .next (enterFrame p.val b (Time96pack stamp) true false (bump Oid.portRxFcsErrors p.val s)))) ∧
  (∀ p frame fix bad stamp s, portReceives s p.val = false → exec (.frameReceive p frame fix bad stamp) s = .next s) ∧
  (∀ q s, cascadeRuns s = true → q.val ∈ cascadeQuads s → exec (.cascadeFrameDiscard q) s = .next (bump Oid.portBhDiscards q.val s)) ∧
  (∀ f s m, tabGet none f.val s.lp.joined = none → wantedGroup s f.val = some m →
    exec (.multicastJoin f) s = .next (sendReport m (if m.src = 0 then 4 else 5)
      { s with lp := { s.lp with joined := tabPut none f.val (some m) s.lp.joined } })) ∧
  (∀ f s m, tabGet none f.val s.lp.joined = some m → wantedGroup s f.val = none →
    exec (.multicastJoin f) s = .next (leaveGroup m { s with lp := { s.lp with joined := tabPut none f.val none s.lp.joined } })) ∧
  (∀ s m, (∀ j ∈ s.lp.joined, j.2 ≠ some m) → leaveGroup m s = sendReport m (if m.src = 0 then 3 else 6) s) ∧
  (∀ s m, (∃ j ∈ s.lp.joined, j.2 = some m) → leaveGroup m s = s)

/-- PAUSE_RECEIVE, PAUSE_STOP_END, PAUSE_REQUEST and PAUSE_REFRESH (R244 to R246, R274, R397): quanta stop the priorities named until they end; the firmware frames a stop has held back then leave, oldest first; a change of what the port's requesters hold sends a frame, with PAUSE only where it begins or ends, and it is repeated while they hold. -/
def Obligations.FlowControl : Prop :=
  (∀ p frame s, portReceives s p.val = true → isMacControl frame = true → macError s p.val frame = none →
    isOn s Oid.portPauseHonour p.val = false →
    exec (.pauseReceive p frame) s = .next (bump Oid.portRxPauseFrames p.val s)) ∧
  (∀ p frame s q, Sound s → portReceives s p.val = true → isMacControl frame = true → macError s p.val frame = none →
    isOn s Oid.portPauseHonour p.val = true → getObj s Oid.portFlowCtrl p.val = 1 → be16 (frame.drop 14) 0 = 0x0001 →
    be16 (frame.drop 14) 2 = q → q ≠ 0 → ∃ t, exec (.pauseReceive p frame) s = .next t ∧
      t = putPortX p.val { (portX s p.val) with stopped := (portX t p.val).stopped } (bump Oid.portRxPauseFrames p.val s) ∧
      (∀ k, k < 8 → tabGet 0 k (portX t p.val).stopped = q)) ∧
  (∀ p prio s, isStopped s p.val prio.val = true → (∀ e ∈ s.tap.tx, e.2.frames = []) →
    let u := putPortX p.val { (portX s p.val) with stopped := tabPut 0 prio.val 0 (portX s p.val).stopped } s
    exec (.pauseStopEnd p prio) s = .next (if prio.val = 0 then sendWaiting p.val u else u)) ∧
  (∀ p s, isStopped s p 0 = false → portUp s p = true → sendWaiting p s = (portX s p).waiting.foldl
    (fun u w => emit w.2 (addObj Oid.portTxBytes p w.1 (bump Oid.portTxFrames p u))) (putPortX p { (portX s p) with waiting := [] } s)) ∧
  (∀ p s, getObj s Oid.portFlowCtrl p.val = 2 → portUp s p.val = true → heldPriorities s p.val ≠ (portX s p.val).held →
    exec (.pauseRequest p) s = .next (sendPause p.val (heldPriorities s p.val) (heldPriorities s p.val ||| (portX s p.val).held)
      (putPortX p.val { (portX s p.val) with held := heldPriorities s p.val } s))) ∧
  (∀ p s, getObj s Oid.portFlowCtrl p.val = 1 → portUp s p.val = true → heldPriorities s p.val ≠ (portX s p.val).held →
    let u := putPortX p.val { (portX s p.val) with held := heldPriorities s p.val } s
    exec (.pauseRequest p) s = .next (if heldPriorities s p.val ≠ 0 ∧ (portX s p.val).held ≠ 0 then u
      else sendPause p.val (heldPriorities s p.val) (heldPriorities s p.val ||| (portX s p.val).held) u)) ∧
  (∀ p s, heldPriorities s p.val = (portX s p.val).held → exec (.pauseRequest p) s = .next s) ∧
  (∀ p s, (portX s p.val).held ≠ 0 → portUp s p.val = true → getObj s Oid.portFlowCtrl p.val ≠ 0 →
    exec (.pauseRefresh p) s = .next (bump Oid.portTxPauseFrames p.val (emit
      (.macControl p.val (withFcs (pauseFrame s p.val (portX s p.val).held (portX s p.val).held))) s)))

/-- PACKET_COMMIT, PACKET_REWIND, CHAIN_FULL_CUT and CROSSING_READ (R261 to R270): a good packet commits with its last word and descriptor and is counted; a bad one is rewound with a notice; the crossing takes the words in order, counts an underrun on an empty chain and an error its check finds; the last word of a packet takes its descriptor, and a gap marker travels to the lauter engine with the packet it names. -/
def Obligations.PacketsThroughTheUnderback : Prop :=
  (∀ n s c b, (ubOf s (govLane s n.val)).cur = some c → c.bad = false → c.drop = false → c.todo = [b] → ubFull s (govLane s n.val) = false →
    let g := govLane s n.val
    let w := stageOf 1 ((c.desc.len + 31) % 32) (padTo 32 b) c.desc.pkt
    let t := bump Oid.underbackPackets g (putUb g { (ubOf s g) with chain := (ubOf s g).chain ++ [w], descs := (ubOf s g).descs ++ [c.desc], cur := none } s)
    exec (.packetCommit n) s = .next (ubClock g (match destFlow c.desc.dest with
      | some f => bump Oid.flowRxPackets f t
      | none => t))) ∧
  (∀ n s c b, (ubOf s (govLane s n.val)).cur = some c → c.bad = true → c.drop = false → c.todo = [b] → ubFull s (govLane s n.val) = false →
    exec (.packetRewind n) s = .next (ubClock (govLane s n.val) (ubRewind (govLane s n.val) c.desc s))) ∧
  (∀ n s c b l, (ubOf s (govLane s n.val)).cur = some c → c.drop = false → c.todo = b :: l → ubFull s (govLane s n.val) = true →
    exec (.chainFullCut n) s = .next (ubClock (govLane s n.val) (ubCut (govLane s n.val) (b :: l).length c s))) ∧
  (∀ n chk s, (ubOf s (govLane s n.val)).cur = none → (ubOf s (govLane s n.val)).chain = [] →
    exec (.crossingRead n chk) s = .next (ubClock (govLane s n.val) (setSticky Oid.underbackStatus (govLane s n.val) 2
      (bump Oid.underbackUnderruns (govLane s n.val) s)))) ∧
  (∀ n s w rest d, (ubOf s (govLane s n.val)).cur = none → (ubOf s (govLane s n.val)).chain = w :: rest → w.kind ≠ 2 →
    regionFull s (govLane s n.val) = false → (ubOf s (govLane s n.val)).descs.find? (fun e => e.pkt = w.pkt) = some d →
    let g := govLane s n.val
    let u := { (ubOf s g) with chain := rest, lastRead := w }
    let v := correctDesc w.pkt u
    let left := fun (l : List UbDesc) => if w.kind = 1 then l.filter (fun e => e.pkt ≠ w.pkt) else l
    exec (.crossingRead n .clean) s = .next (ubClock g (stageWord g w d (putUb g { u with descs := left u.descs } s))) ∧
    exec (.crossingRead n .corrected) s = .next (ubClock g (stageWord g w { d with corrected := d.corrected + 1 }
      (bump Oid.underbackEccCorrected g (putUb g { v with descs := left v.descs } s)))) ∧
    exec (.crossingRead n .uncorrectable) s = .next (ubClock g (ubDiscard g d (setSticky Oid.underbackStatus g 0x20
      (bump Oid.underbackEccUncorrected g (putUb g u s))))) ∧
    exec (.crossingRead n .parity) s = .next (ubClock g (ubDiscard g d (setSticky Oid.underbackStatus g 0x20
      (bump Oid.underbackParityErrors g (putUb g u s)))))) ∧
  (∀ n s w rest m, (ubOf s (govLane s n.val)).cur = none → (ubOf s (govLane s n.val)).chain = w :: rest → w.kind = 2 →
    (ubOf s (govLane s n.val)).marker = some m →
    let g := govLane s n.val
    let u := putUb g { (ubOf s g) with chain := rest, lastRead := w, marker := none } s
    exec (.crossingRead n .clean) s = .next (ubClock g (putRegion g
      { (regionOf s g) with markers := (regionOf s g).markers ++ [(m.pkt, w.data)] } u)))


/-! ### The lauter engine and the casks (09_lauter_casks) -/

/-- The engine splits each run of image bytes at every line end and at every 256-byte boundary of cask offset (R287, R288): every piece has 1 to 256 bytes, stays in its line, in its 256 bytes and in its page, and byte k of the run lands at the offset R287 computes. -/
def Obligations.RunsSplitIntoPlacements : Prop :=
  ∀ (k : FrameCfg) (i : Nat) (bs : List Byte), 0 < k.lineBytes →
    (∀ p ∈ runPieces k i bs, 1 ≤ p.2.length ∧ p.1 % 256 + p.2.length ≤ 256 ∧ p.1 % 65536 + p.2.length ≤ 65536 ∧
      ∃ y c, p.1 = y * k.stride + c ∧ c + p.2.length ≤ k.lineBytes) ∧
    ((runPieces k i bs).map (fun p => p.2)).flatten = bs ∧
    (runPieces k i bs).flatMap (fun p => (List.range p.2.length).map (fun n => p.1 + n)) =
      (List.range bs.length).map (fun n => (i + n) / k.lineBytes * k.stride + ((i + n) - (i + n) / k.lineBytes * k.lineBytes))

/-- PACKET_PLACE (R242, R284, R285, R287, R289): the first committed packet of a region goes where its descriptor says and leaves its region; a GVSP payload packet is placed in the open frame of its block at the image index R287 gives, or counted stale, refused, without leader, duplicate or as a header error; an ST 2110-20 packet whose header does not parse is a header error; a packet of a retired flow, or met where the engine does not run, goes no further. -/
def Obligations.PacketsArePlaced : Prop :=
  (∀ g s f, opensFrame g.val s = some f → exec (.packetPlace g) s = .next (placePacket g.val (pitchAtFrame false f s))) ∧
  (∀ g p s, (regionOf (passPacket g p s) g).packets = (regionOf s g).packets.filter (fun q => q.desc.pkt ≠ p.desc.pkt)) ∧
  (∀ g s, s.dict.pitch = none → readyPacket s g.val = none → exec (.packetPlace g) s = .next s) ∧
  (∀ g s p, s.dict.pitch = none → readyPacket s g.val = some p →
    (p.desc.dest = .firmware → exec (.packetPlace g) s = .next (passPacket g.val p (firmwareFrame g.val p.desc.ts p.data s))) ∧
    (∀ reason, p.desc.dest = .exception reason →
      exec (.packetPlace g) s = .next (passPacket g.val p (sendException g.val reason p.desc.ts p.data s))) ∧
    (∀ f, p.desc.dest = .flow f → lauterRuns s g.val = false ∨ isRetired s (resRxFlow f) = true →
      exec (.packetPlace g) s = .next (passPacket g.val p s)) ∧
    (∀ f, p.desc.dest = .flow f → lauterRuns s g.val = true → isRetired s (resRxFlow f) = false →
      (getObj s Oid.flowRxType f = 1 → (openFrames s f).find? (carriedBy p) = none →
        (frameUdp p.data).bind (parseSt (getObj s Oid.flowRxRtpPt f)) = none →
        exec (.packetPlace g) s = .next (passPacket g.val p
          (sendException g.val 0x09 p.desc.ts p.data (bump Oid.flowRxHeaderErrors f s)))) ∧
      (∀ m, ((openFrames s f).find? (carriedBy p) = none ∧ getObj s Oid.flowRxType f = 2 ∨
            ∃ e, (openFrames s f).find? (carriedBy p) = some e ∧ e.cfg.gvsp = true) →
        (frameUdp p.data).bind parseGvsp = some m → m.block ≠ 0 → m.format = 3 →
        (frameOfBlock s f m.block = none →
          (blockStale s f m.block = true → exec (.packetPlace g) s =
            .next (passPacket g.val p (setSticky Oid.lauterStatus 0 1 (bump Oid.lauterStalePackets f s)))) ∧
          (blockStale s f m.block = false → blockRefused s f m.block m.ext = true → exec (.packetPlace g) s =
            .next (passPacket g.val p (bump Oid.lauterRefusedPackets f s))) ∧
          (blockStale s f m.block = false → blockRefused s f m.block m.ext = false → exec (.packetPlace g) s =
            .next (passPacket g.val p (bump Oid.lauterNoLeader f s)))) ∧
        (∀ fr j, frameOfBlock s f m.block = some (fr, j) → m.block ∉ fr.leaders →
          exec (.packetPlace g) s = .next (passPacket g.val p (bump Oid.lauterNoLeader f s))) ∧
        (∀ fr j, frameOfBlock s f m.block = some (fr, j) → m.block ∈ fr.leaders →
          (payloadOk fr.cfg m.id m.data.length = false → exec (.packetPlace g) s = .next (passPacket g.val p
            (sendException g.val 0x09 p.desc.ts p.data (bump Oid.flowRxHeaderErrors f s)))) ∧
          (payloadOk fr.cfg m.id m.data.length = true → (m.block, m.id) ∈ fr.ids → exec (.packetPlace g) s =
            .next (passPacket g.val p (setSticky Oid.lauterStatus 0 2 (bump Oid.lauterDuplicates f s)))) ∧
          (payloadOk fr.cfg m.id m.data.length = true → (m.block, m.id) ∉ fr.ids → exec (.packetPlace g) s =
            .next (passPacket g.val p (tryComplete f fr.seq (placeRuns g.val p
              [(j * ((if fr.cfg.line then fr.cfg.blockLines else fr.cfg.lines) * fr.cfg.lineBytes) + (m.id - 1) * fr.cfg.pktBytes, m.data)]
              { (acceptPacket p (now s) fr) with ids := (m.block, m.id) :: fr.ids } s))))))))

/-- PLACEMENT_COMPLETE, FRAME_IDLE_TIMEOUT, STRAGGLE_TIMEOUT, FRAME_COMMIT, REWIND_NOTICE and RESEND_REQUEST (R18, R290, R292, R293, R297, R311, R330): the oldest placement of its PC has left the count and its bytes read back; a frame closes idle or straggled and is discarded or commits, its cask then in state 3, in Burst 4. CASK_RELEASE (R296, R312, R368): a cask not in delivery is free afterwards, its pages and its reservation with it, which the levels show from the next kiln tick; its frame is counted lost at the cause, unless the tap has replayed it; one in delivery stays. -/
def Obligations.FramesAndCasks : Prop :=
  ((∀ k s i p, Sound s → firstOfPc s k.val = some (i, p) → p.live = true → slotDead s p.addr = false →
      Answers (fun t => (∀ n (h : n < p.data.length), readByte t (p.addr + n) = p.data[n]) ∧
        (∀ a, a < p.addr ∨ p.addr + p.data.length ≤ a → readByte t a = readByte s a)) (exec (.placementComplete k) s)) ∧
    (∀ k s i p, firstOfPc s k.val = some (i, p) → (∀ r ∈ s.lau.regions, r.2.waiting = []) →
      (∀ fr ∈ s.lau.frames, fr.cask ≠ some p.cask) →
      exec (.placementComplete k) s = .next (
        let u := if p.live then writePerformed p.addr p.data s else s
        { u with lau := { u.lau with flight := u.lau.flight.eraseIdx i } })) ∧
    (∀ s k i p, firstOfPc s k = some (i, p) → s.lau.flight[i]? = some p ∧ i ≤ k ∧
      (∀ j q, j < i → s.lau.flight[j]? = some q → memSlot q.addr ≠ memSlot p.addr)) ∧
    (∀ f s fr, idlest (openFrames s f.val) = some fr → exec (.frameIdleTimeout f) s = .next (flowFault f.val (closeFrame fr 3 s))) ∧
    (∀ l fr, idlest l = some fr → fr ∈ l ∧ ∀ o ∈ l, fr.accepted ≤ o.accepted) ∧
    (∀ l, l ≠ [] → ∃ fr, idlest l = some fr) ∧
    (∀ f s fr rest, openFrames s f.val = fr :: rest → fr.ended = true → fr.placed < expectedTotal fr.cfg → resendOutstanding s fr = false →
      exec (.straggleTimeout f) s = .next (closeFrame fr 2 s)) ∧
    (∀ fr cause s id, fr.cask = some id → (fr.placed = 0 ∨ cause ≠ 1 ∧ fr.cfg.policy = 1) →
      closeFrame fr cause s = loseCask id 2 s) ∧
    (∀ fr cause s id, fr.cask = some id → fr.placed ≠ 0 → (cause = 1 ∨ fr.cfg.policy ≠ 1) →
      closeFrame fr cause s = setCaskState id 2 (putFrame { fr with cause := some cause } s)) ∧
    (∀ f s fr id pre post, s.lau.frames = pre ++ fr :: post → (∀ g ∈ pre, g.flow ≠ f.val ∨ g.cause = none) → fr.flow = f.val →
      fr.cause.isSome = true → fr.cask = some id → (∀ h, fr.hydro = some h → h.closed = true) → caskBusy s id = false →
      exec (.frameCommit f) s = .next (commitFrame fr id s)) ∧
    (∀ id fr tag s c, caskOf s id = some c → ∃ d, caskOf (commitCask id fr tag s) id = some d ∧
      d = { c with state := (if s.modes.current = .burst then 4 else 3), reserved := c.pages.length, tag := tag
                   placed := fr.placed, committed := s.lau.commits }) ∧
    (∀ s n t f fr, s.lau.notices = n :: t → n.flow = some f → (openFrames s f).getLast? = some fr →
      exec .rewindNotice s = .next (putFrame (if n.gap then { fr with gaps := fr.gaps + 1 } else { fr with rewound := fr.rewound + 1 })
        (dropStaged n.lane n.pkt { s with lau := { s.lau with notices := t } }))) ∧
    (∀ f block id s fr j, frameOfBlock s f.val block.toNat = some (fr, j) → fr.cfg.resend = true →
      (block.toNat, id.toNat) ∉ fr.ids → 1 ≤ id.toNat → id.toNat ≤ blockPackets fr.cfg → block.toNat ∈ fr.trailers → block.toNat ∈ fr.leaders →
      let key := block.toNat * 2 ^ 32 + id.toNat
      let asked := tabGet (0, 0) key fr.resends
      asked.1 < fr.cfg.resendMax → (asked.1 = 0 ∨ tAddNs asked.2 (fr.cfg.resendDelay * 1000) ≤ now s) →
      exec (.resendRequest f block id) s = .next (bump Oid.lauterResendsRequested f.val (sendResend f.val block.toNat id.toNat fr.ext
        (putFrame { fr with resends := tabInsert key (asked.1 + 1, now s) fr.resends } s))))) ∧
  ((∀ id cause s c k, caskOf s id.toNat = some c → c.state ≠ 5 → c.replay = false → c.cfg = some k →
      exec (.caskRelease id cause) s = .next (
        let u := releaseCask id.toNat s
        let v := bump Oid.lauterLostByCause cause.val (bump Oid.lauterFramesLost c.flow u)
        purgeStamps c.flow (lostNotice k.ring c.flow id.toNat c.seq (imageBytes k) cause.val (fire 0x178 v)))) ∧
    (∀ id cause s c, caskOf s id.toNat = some c → c.state ≠ 5 → c.replay = true →
      exec (.caskRelease id cause) s = .next (releaseCask id.toNat s)) ∧
    (∀ id s c, caskOf s id = some c → caskOf (releaseCask id s) id = none ∧
      (∀ j, j ≠ id → caskOf (releaseCask id s) j = caskOf s j) ∧
      (releaseCask id s).lau.released = s.lau.released ++ [(id, c)] ∧ (showReleases (releaseCask id s)).lau.released = []) ∧
    (∀ id cause s c, caskOf s id.toNat = some c → c.state = 5 → exec (.caskRelease id cause) s = .next s))


/-! ### The cellar (10_cellar) -/

/-- REFRESH_DUE, FORCED_REFRESH and REFRESH_REPAYMENT (R333 to R335): a refresh that falls due in a partition under boil-over adds one to the group's debt, which is never more than 4: the fifth forces the oldest, counted in `cellar.forced_refreshes` with `cellar.status` bit 2 and source 0x175; once boil-over clears, each repayment takes one off; `cellar.debt_peak` holds the largest debt seen. -/
def Obligations.RefreshDebt : Prop :=
  (∀ p g s, pcServes s p.val = true → deferring s p.val = true →
    (debtOf s p.val g.val < 4 → Answers (fun t => debtOf t p.val g.val = debtOf s p.val g.val + 1 ∧
      getObj t Oid.cellarDebtPeak p.val = max (getObj s Oid.cellarDebtPeak p.val) (debtOf s p.val g.val + 1) ∧ t.mem = s.mem ∧ t.lau = s.lau)
      (exec (.refreshDue p g) s)) ∧
    (4 ≤ debtOf s p.val g.val → exec (.refreshDue p g) s = .next (fire 0x175 (setSticky Oid.cellarStatus 0 4 (bump Oid.cellarForcedRefreshes p.val s)))) ∧
    (debtOf s p.val g.val = 0 → exec (.forcedRefresh p g) s = .next s) ∧
    (0 < debtOf s p.val g.val → exec (.forcedRefresh p g) s = .next (fire 0x175 (setSticky Oid.cellarStatus 0 4
      (bump Oid.cellarForcedRefreshes p.val (setDebt p.val g.val (debtOf s p.val g.val - 1) s))))) ∧
    exec (.refreshRepayment p g) s = .next s) ∧
  (∀ p g s, pcServes s p.val = true → deferring s p.val = false →
    (debtOf s p.val g.val = 0 → exec (.refreshDue p g) s = .next s ∧ exec (.refreshRepayment p g) s = .next s) ∧
    (0 < debtOf s p.val g.val → Answers (fun t => debtOf t p.val g.val = debtOf s p.val g.val - 1 ∧
      (∀ q h, ¬(q = p.val ∧ h = g.val) → h < 8 → debtOf t q h = debtOf s q h) ∧ t.mem = s.mem ∧ t.lau = s.lau) (exec (.refreshRepayment p g) s)) ∧
    (0 < debtOf s p.val g.val → debtOf s p.val g.val < 4 → Answers (fun t => debtOf t p.val g.val = debtOf s p.val g.val + 1)
      (exec (.refreshDue p g) s)))

/-- UNCORRECTABLE_READ, SCRUB, CE_THRESHOLD and STACK_TEMP_READ (R332, R336 to R338, R343): an uncorrectable read is counted, fires source 0x171 and is recorded as a transient fault of the PC; read again without success, its unit is poisoned and its row marked, and in the control partition, where the second read is of the mirror, that is a Halt cause; a scrub read counts what it finds, and an uncorrectable one is treated as such; a corrected read of severity 3 counts as uncorrectable (the model's choice, entry 148); corrected reads at the threshold fire source 0x172 once in a window; a stack above 85 °C doubles its refresh, below 80 °C it returns. -/
def Obligations.CellarReads : Prop :=
  (∀ p unit first second s, pcServes s p.val = true → isUncorrectable first = true →
    (p.val, unit.val / 32) ∉ s.cel.repaired →
    let w := fire 0x171 (setSticky Oid.cellarStatus 0 1 (countRead p.val first (setSticky Oid.faultsAlertStatus 0 0x10 s)))
    let u := countRead (rereadPc w p.val) second w
    let v := if getObj s Oid.cellarPcPartition p.val = 2 then { u with modes := { u.modes with haltWant := u.modes.haltWant ||| 0x40 } } else u
    (isUncorrectable second = false →
      exec (.uncorrectableRead p unit first second) s = .next (settleCauses (pcFault p.val 1 false u))) ∧
    (∀ a, isUncorrectable second = true → unitAddr s p.val unit.val = some a →
      exec (.uncorrectableRead p unit first second) s = .next (settleCauses (pcFault p.val 1 false { v with cel := { v.cel with
        poisoned := if a ∈ v.cel.poisoned then v.cel.poisoned else a :: v.cel.poisoned
        marked := (p.val, unit.val / 32) :: v.cel.marked } })))) ∧
  (∀ s p, getObj s Oid.cellarPcPartition p ≠ 2 → rereadPc s p = p) ∧
  (∀ s p q, getObj s Oid.cellarPcPartition p = 2 → servingPc s 2 (getObj s Oid.cellarPcSlot p ^^^ 1) = some q → rereadPc s p = q) ∧
  (∀ p unit first second s, isUncorrectable first = false → exec (.uncorrectableRead p unit first second) s = .next s) ∧
  (∀ n p s, n.val ≠ 3 → countRead p (.corrected n) s = correctedReads p 1 (if n.val = 0 then s else bump (Oid.cellarSevCount + n.val) p s)) ∧
  (∀ n p s, n.val = 3 → countRead p (.corrected n) s = bump Oid.cellarUeCount p (bump (Oid.cellarSevCount + 3) p s)) ∧
  (∀ n p s, countRead p (.uncorrectable n) s = bump Oid.cellarUeCount p (if n.val = 0 then s else bump (Oid.cellarSevCount + n.val) p s)) ∧
  (∀ p unit first second progress s, getObj s Oid.cellarScrubHours ≠ 0 → pcServes s p.val = true →
    (getObj s Oid.cellarPcPartition p.val = 1 ∨ getObj s Oid.cellarPcPartition p.val = 2) → isUncorrectable first = false →
    exec (.scrub p unit first second progress) s = .next (countRead p.val first (putObj Oid.cellarScrubProgress 0 progress.val s))) ∧
  (∀ p unit first second progress s, getObj s Oid.cellarScrubHours ≠ 0 → pcServes s p.val = true →
    (getObj s Oid.cellarPcPartition p.val = 1 ∨ getObj s Oid.cellarPcPartition p.val = 2) → isUncorrectable first = true →
    exec (.scrub p unit first second progress) s = .next (settleCauses (badRead p.val unit.val first second
      (setSticky Oid.faultsAlertStatus 0 0x10 (putObj Oid.cellarScrubProgress 0 progress.val s))))) ∧
  (∀ p unit first second progress s, getObj s Oid.cellarScrubHours = 0 → exec (.scrub p unit first second progress) s = .next s) ∧
  (∀ p n s, pcServes s p.val = true →
    let w := (s.time.ticks - s.modes.bootEnd) / 125000000
    let old := tabGet (0, 0) p.val s.cel.window
    let c := if old.1 = w then old.2 + n.toNat else n.toNat
    let u := addObj Oid.cellarCeCount p.val n.toNat s
    let v := { u with cel := { u.cel with window := tabPut (0, 0) p.val (w, c) u.cel.window } }
    (c < getObj s Oid.cellarCeThreshold p.val → exec (.ceThreshold p n) s = .next v) ∧
    (tabGet 0 p.val s.cel.warned = w + 1 → exec (.ceThreshold p n) s = .next v) ∧
    (getObj s Oid.cellarCeThreshold p.val ≤ c → tabGet 0 p.val s.cel.warned ≠ w + 1 → exec (.ceThreshold p n) s = .next (fire 0x172
      (setSticky Oid.cellarStatus 0 2 { v with cel := { v.cel with warned := tabPut 0 p.val (w + 1) v.cel.warned } })))) ∧
  (∀ k celsius s, s.modes.current ≠ .cold →
    let u := putInt Oid.cellarTemp k.val celsius.toInt s
    (85 < celsius.toInt → exec (.stackTempRead k celsius) s = .next (settleCauses (thermReading k.val celsius.toInt
      (setSticky Oid.cellarStatus 0 0x20 (putObj Oid.cellarRefreshDoubled k.val 1 u))))) ∧
    (celsius.toInt < 80 → exec (.stackTempRead k celsius) s = .next (settleCauses (thermReading k.val celsius.toInt
      (putObj Oid.cellarRefreshDoubled k.val 0 u)))) ∧
    (80 ≤ celsius.toInt → celsius.toInt ≤ 85 → exec (.stackTempRead k celsius) s = .next (settleCauses (thermReading k.val celsius.toInt u))))

/-- ROW_REPAIR, PC_RETIRE, SPARE_FILL_COMPLETE, CELLAR_TEST_DONE and READ_RECALIBRATION (R339 to R341, R344, R346): a repair takes one of four spare rows of its bank; with none left the PC has a permanent fault; a PC that retires is counted once in a tick, gives its slot to a spare and fires source 0x170; a filled spare serves; test errors are counted and retire nothing. -/
def Obligations.RepairsAndSpares : Prop :=
  (∀ p row bank corrected s, pcServes s p.val = true → (corrected = true ∨ (p.val, row.val) ∈ s.cel.marked) →
    let used := tabGet 0 (p.val * 48 + bank.val) s.cel.used
    let u := { s with cel := { s.cel with marked := s.cel.marked.filter (fun m => m ≠ (p.val, row.val)) } }
    (4 ≤ used → exec (.rowRepair p row bank corrected) s = .next (settleCauses (pcFault p.val 3 true u))) ∧
    (used < 4 →
      let v := { u with cel := { u.cel with used := tabPut 0 (p.val * 48 + bank.val) (used + 1) s.cel.used, repaired := (p.val, row.val) :: s.cel.repaired } }
      exec (.rowRepair p row bank corrected) s = .next (settleCauses (setSticky Oid.cellarStatus 0 0x10 (bump Oid.cellarRepairs p.val
        (putObj Oid.cellarRepairsLeft p.val (min (3 - used) (getObj s Oid.cellarRepairsLeft p.val)) v)))))) ∧
  (∀ p cause s, s.modes.current ≠ .cold → 2 ≤ cause.val → 2 ≤ getObj s Oid.cellarPcState p.val → getObj s Oid.cellarPcState p.val ≠ 5 →
    let r := recordFault (resPc p.val) cause.val true s
    (r.2 = .retire → exec (.pcRetire p cause) s = .next (settleCauses (pcLeaves p.val
      (if faultedTick s (resPc p.val) then r.1 else bump Oid.cellarFaults p.val r.1)))) ∧
    (r.2 ≠ .retire → exec (.pcRetire p cause) s = .next (settleCauses (bump Oid.cellarFaults p.val r.1)))) ∧
  (∀ p s q, getObj s Oid.cellarPcPartition p < 3 →
    let part := getObj s Oid.cellarPcPartition p
    let slot := getObj s Oid.cellarPcSlot p
    let u := fire 0x170 (setSticky Oid.cellarStatus 0 8
      (putObj Oid.cellarPcSlot p 0xFF (putObj Oid.cellarPcPartition p 4 (putObj Oid.cellarPcState p 5 s))))
    let v := if part = 0 then invalidateSlot slot u else if part = 1 then spoilReads (inSlot 1 slot) u else u
    (chooseSpare v p = some q → pcLeaves p s = noteSpare (resPc p) q (assignSpare q part slot v)) ∧
    (chooseSpare v p = none → (pcLeaves p s).modes.limpWant = v.modes.limpWant ||| 1)) ∧
  (∀ q slot s, q < 128 → assignSpare q 0 slot s = putObj Oid.cellarPcState q 2 (loseSlot 0 slot
    (putObj Oid.cellarSparesFree 0 (getObj s Oid.cellarSparesFree - 1) (putObj Oid.cellarPcSlot q slot (putObj Oid.cellarPcPartition q 0 s))))) ∧
  (∀ p s, getObj s Oid.cellarPcState p.val = 7 → exec (.spareFillComplete p) s = .next (putObj Oid.cellarPcState p.val 2 s)) ∧
  (∀ errs s, getObj s Oid.cellarTestState = 1 → ∃ t, exec (.cellarTestDone errs) s = .next t ∧
    getObj t Oid.cellarTestState = (if errs.any (fun e => decide (e.1.val ∈ s.cel.testing) && decide (0 < e.2.toNat)) then 3 else 2) ∧
    t.cel.testing = [] ∧ t.flt = s.flt ∧ t.mem = s.mem ∧
    (∀ p ∈ s.cel.testing, p < 128 → getObj t Oid.cellarPcState p = (if getObj s Oid.cellarPcPartition p = 3 then 6 else 2))) ∧
  (∀ p s, exec (.readRecalibration p) s = .next s)


/-! ### The racking engine (11_racking) -/

/-- RING_POST, CQ_HEAD, EXC_HEAD and RING_FAULT (R356, R357, R366, R381): a count that the driver may give is taken; a posted count beyond the ring's slots is fault 5, which stops no delivery, and a head beyond what was written faults the queue, and with it the rings that name it; a fault is written in `racking.ring_fault`, logged with `racking.status` bit 6, and stops every delivery of the ring when it is the queue's (code 6) and none when it is an overrun (code 5); that the other codes of RING_FAULT stop the delivery that started first is the model's choice (entry 150). A ring or queue that is not enabled takes no count, and BAR0 takes none in Halt (R57) or where it is not served. EXCEPTION_ENTRY (R379, R380): the first frame waiting is discarded and counted where the ring is disabled, faulted or full; else its header and bytes are written, word 0 last, the tail moves on and source 0x179 fires. -/
def Obligations.RingsQueuesAndExceptions : Prop :=
  ((∀ r v s, bar0Writable s = true → (ringOf s r.val).enabled = true →
      (countDiff (v.toNat % 2 ^ 31) (ringOf s r.val).assigned ≤ (ringOf s r.val).cfg.slots →
        exec (.ringPost r v) s = .next (putRing r.val { (ringOf s r.val) with post := v.toNat % 2 ^ 31 } (barAccess s))) ∧
      ((ringOf s r.val).cfg.slots < countDiff (v.toNat % 2 ^ 31) (ringOf s r.val).assigned →
        exec (.ringPost r v) s = .next (ringFault r.val 5 (fun _ => false) (barAccess s)))) ∧
    (∀ r v s, bar0Writable s = true → (ringOf s r.val).enabled = false → exec (.ringPost r v) s = .next (barAccess s)) ∧
    (∀ r c v s, bar0Served s = false → exec (.ringPost r v) s = .next (barRefused false s) ∧ exec (.cqHead c v) s = .next (barRefused false s) ∧
      exec (.excHead v) s = .next (barRefused false s)) ∧
    (∀ r c v s, bar0Served s = true → s.modes.current = .halt → exec (.ringPost r v) s = .next (barAccess s) ∧
      exec (.cqHead c v) s = .next (barAccess s) ∧ exec (.excHead v) s = .next (barAccess s)) ∧
    (∀ c v s, bar0Writable s = true → (cqOf s c.val).enabled = true →
      (countDiff (cqOf s c.val).tail (v.toNat % 2 ^ 31) ≤ (cqOf s c.val).entries →
        exec (.cqHead c v) s = .next (putCq c.val { (cqOf s c.val) with head := v.toNat % 2 ^ 31 } (barAccess s))) ∧
      ((cqOf s c.val).entries < countDiff (cqOf s c.val).tail (v.toNat % 2 ^ 31) →
        exec (.cqHead c v) s = .next (if (cqOf s c.val).faulted then barAccess s else cqFault c.val (barAccess s)))) ∧
    (∀ c v s, bar0Writable s = true → (cqOf s c.val).enabled = false → exec (.cqHead c v) s = .next (barAccess s)) ∧
    (∀ v s, bar0Writable s = true → s.rk.exc.enabled = true →
      countDiff s.rk.exc.tail (v.toNat % 2 ^ 31) ≤ countDiff s.rk.exc.tail s.rk.exc.head →
      exec (.excHead v) s = .next { (barAccess s) with rk := { s.rk with exc := { s.rk.exc with head := v.toNat % 2 ^ 31 } } }) ∧
    (∀ r code s, (ringOf s r.val).enabled = true → ringFaultOf s r.val = 0 → code.val ≠ 0 → ∃ t, exec (.ringFault r code) s = .next t ∧
      ringFaultOf t r.val = code.val ∧ getObj t Oid.rackingStatus &&& 0x40 = 0x40 ∧
      (code.val = 6 → ∀ d ∈ t.rk.deliveries, d.ring ≠ r.val) ∧ (code.val = 5 → t.rk.deliveries = s.rk.deliveries) ∧
      (code.val ≠ 5 → code.val ≠ 6 → ∀ a l, s.rk.deliveries.filter (fun d => d.ring = r.val) = a :: l → ∀ d, d.ring = r.val →
        (d ∈ t.rk.deliveries ↔ d ∈ s.rk.deliveries ∧ d.count ≠ a.count)) ∧
      (∀ d ∈ s.rk.deliveries, d.ring ≠ r.val → d ∈ t.rk.deliveries)) ∧
    (∀ r code s, ringFaultOf s r.val ≠ 0 → exec (.ringFault r code) s = .next s)) ∧
  ((∀ s f l, s.rk.excWait = f :: l →
      (s.rk.exc.enabled = false ∨ s.rk.exc.faulted = true ∨ s.rk.exc.entries ≤ countDiff s.rk.exc.tail s.rk.exc.head) →
      exec .exceptionEntry s = .next (setSticky Oid.rackingStatus 0 0x10 (bump Oid.rackingExcDropped 0 { s with rk := { s.rk with
        exc := { s.rk.exc with dropped := min (s.rk.exc.dropped + 1) 0xFFFFFFFF }, excWait := l } }))) ∧
    (∀ s f l h u, s.rk.excWait = f :: l → s.rk.exc.enabled = true → s.rk.exc.faulted = false →
      countDiff s.rk.exc.tail s.rk.exc.head < s.rk.exc.entries → hostWritable s = true → s.rk.stopped = false → f.written = false →
      s.link.relaxed = false →
      let e := s.rk.exc
      let body := wordBytes (excHeader e f) ++ f.data.take (e.entryBytes - 64)
      translateAll 1024 e.dir e.bigPage (splitPages (pageBytes e.bigPage) (body.length + 1) (excBase e + 4) body) s = (some h, u) →
      exec .exceptionEntry s = .next (postException f (hostWrites h u))) ∧
    (∀ f s h u, translate 1024 s.rk.exc.dir s.rk.exc.bigPage (excBase s.rk.exc) s = (some h, u) →
      postException f s = fire 0x179 (bump Oid.rackingExcWritten 0 (
        let w := hostWrite h (leBytes 4 (excWord0 s.rk.exc f)) u
        { w with rk := { w.rk with exc := { s.rk.exc with tail := (s.rk.exc.tail + 1) % 2 ^ 31, seq := (s.rk.exc.seq + 1) % 2 ^ 32, dropped := 0 }, excWait := w.rk.excWait.drop 1 } }))))

/-- DELIVERY_START, DELIVERY_DATA_DONE, WALK_READ_COMPLETE and COMPLETION_ENTRY (R353, R359, R360, R363 to R365, R312): a ring in turn, that is enabled and not faulted, with a posted slot, a committed cask and room in its queue, starts its oldest cask; the tag is written last; the entry follows and the cask is free. -/
def Obligations.FramesAreDelivered : Prop :=
  (∀ s r u, nextRing s = some (r, u) → ringEligible s r = true) ∧
  (∀ s r u, rackingStarts s = true → s.rk.deliveries.length < 64 → nextRing (countStalls s) = some (r, u) →
    exec .deliveryStart s = .next (startDelivery r u)) ∧
  (∀ s, rackingStarts s = true → s.rk.deliveries.length < 64 → nextRing (countStalls s) = none →
    exec .deliveryStart s = .next (countStalls s)) ∧
  (∀ r s id c k, ringHead s r = some (id, c) → caskOf s id = some c → c.cfg = some k → slotNeed k ≤ (ringOf s r).cfg.slotBytes → ∃ d,
    caskOf (startDelivery r s) id = some { c with state := 5 } ∧
    (startDelivery r s).rk.deliveries = s.rk.deliveries ++ [d] ∧ d.ring = r ∧ d.cask = id ∧ d.count = (ringOf s r).assigned ∧
    (ringOf (startDelivery r s) r).assigned = ((ringOf s r).assigned + 1) % 2 ^ 31) ∧
  (∀ (k : Fin 64) s d, s.rk.deliveries[k.val]? = some d → rackingRuns s = true → d.written = false →
    exec (.deliveryDataDone k) s = .next (carryDelivery d s)) ∧
  (∀ s d c cfg h u, caskOf s d.cask = some c → c.cfg = some cfg → d.payload.isSome = true →
    (deliveryPieces (ringOf s d.ring) d).length ≤ d.pieces → s.link.relaxed = false →
    translate d.ring (ringOf s d.ring).cfg.dir (ringOf s d.ring).cfg.bigPage
      (d.count % (ringOf s d.ring).cfg.slots * (ringOf s d.ring).cfg.slotBytes) s = (some h, u) →
    let tag := finalTag c.tag d.raw d.poisoned (!(ringOf s d.ring).cfg.inOrder && earlierPending u d) (d.payload.getD []).length (d.count % (ringOf s d.ring).cfg.slots)
    carryDelivery d s = putDelivery { d with tag := tag, written := true, visible := true } (hostWrite h (wordBytes tag) u)) ∧
  (∀ (tag : Fin 16384) data s e ring page table, tagEntry s tag.val = some e → e.use = .walk ring page table →
    exec (.walkReadComplete tag data) s = .next (rackingWalkDone ring page table data
      { s with link := { s.link with tags := s.link.tags.filter (fun t => t.tag ≠ tag.val) } })) ∧
  (∀ (k : Fin 64) s d c, s.rk.deliveries[k.val]? = some d → rackingRuns s = true → d.visible = true → mustWait s d = false →
    caskOf s d.cask = some c → ∃ t, exec (.completionEntry k) s = .next t ∧ caskOf t d.cask = none ∧
    t.rk.deliveries = s.rk.deliveries.filter (fun e => !(e.ring = d.ring && e.count = d.count)) ∧
    (∃ e, Emission.memWrite ((cqOf s (ringOf s d.ring).cfg.cq).base + 32 * ((cqOf s (ringOf s d.ring).cfg.cq).tail %
        (cqOf s (ringOf s d.ring).cfg.cq).entries)) (wordBytes (entryWords e
          (if (cqOf s (ringOf s d.ring).cfg.cq).tail / (cqOf s (ringOf s d.ring).cfg.cq).entries % 2 = 0 then 1 else 0))) ∈ t.out ∧
      e.type = 1 ∧ e.flow = c.flow ∧ e.cask = d.cask ∧ e.seq = c.seq ∧ e.status = 0))


/-! ### The tap (12_tap) -/

/-- The frame grid is exact (R389): n frames on from a frame of whole nanoseconds tNext and remainder rem, the start is tNext and the whole nanoseconds of (rem + n × den × 10^9) / num, whatever n is. -/
def Obligations.FrameGridIsExact : Prop :=
  ∀ (s : State) (t n : Nat) (x : TxX), 0 < getObj s Oid.tapRateNum t → x.rem < getObj s Oid.tapRateNum t →
    let num := getObj s Oid.tapRateNum t
    let d := getObj s Oid.tapRateDen t * 1000000000
    Nat.repeat (nextGrid s t) n x =
      { x with k := x.k + n, tNext := x.tNext + (x.rem + n * d) / num, rem := (x.rem + n * d) % num }

/-- TAP_ENTRY, TAP_FRAME_START and TAP_TRIGGER (R387, R389 to R391, R402, R407): a flow that meets R387 enters, its first frame 100 µs ahead, at its start time, or on the first grid point at least 100 µs ahead; a frame starts when its time has come and not before, and a waiting occurrence starts one and is taken. -/
def Obligations.FlowsStartFrames : Prop :=
  (∀ t s, txMeets s t.val = true → txLeaving s t.val = false → (txOf s t.val).entered = false → txFaulted s t.val = false → (txOf s t.val).stopping = false →
    let num := getObj s Oid.tapRateNum t.val
    let d := getObj s Oid.tapRateDen t.val * 1000000000
    ∃ u, exec (.tapEntry t) s = .next u ∧ (txOf u t.val).entered = true ∧ (txOf u t.val).count = 0 ∧
      (getObj s Oid.tapStartMode t.val = 0 → (txOf u t.val).tNext = nowNs s + 100000 ∧ (txOf u t.val).k = 0) ∧
      (getObj s Oid.tapStartMode t.val = 1 → 0 < num → 0 < d →
        (txOf u t.val).tNext = tNsec (getObj s Oid.tapStartAt t.val) + (txOf u t.val).k * d / num ∧
        nowNs s + 100000 ≤ (txOf u t.val).tNext ∧
        (∀ j, j < (txOf u t.val).k → tNsec (getObj s Oid.tapStartAt t.val) + j * d / num < nowNs s + 100000)) ∧
      (getObj s Oid.tapStartMode t.val = 2 → 0 < num → 0 < d → (txOf u t.val).k = 0 ∧ nowNs s + 100000 ≤ (txOf u t.val).tNext ∧
        ∃ j, (txOf u t.val).tNext = j * d / num ∧ ∀ i, i < j → i * d / num < nowNs s + 100000)) ∧
  (∀ t s, (txMeets s t.val = false ∨ txLeaving s t.val = true ∨ (txOf s t.val).entered = true) → exec (.tapEntry t) s = .next s) ∧
  (∀ t s, s.dict.pitch = none → exec (.tapFrameStart t) s = .next (gridStart t.val s) ∧ exec (.tapTrigger t) s = .next (triggerStart t.val s)) ∧
  (∀ t s, gridStarts t.val s = true → exec (.tapFrameStart t) s = .next (gridStart t.val (pitchAtFrame true t.val s))) ∧
  (∀ t s, triggerStarts t.val s = true → exec (.tapTrigger t) s = .next (triggerStart t.val (pitchAtFrame true t.val s))) ∧
  (∀ t s, s.dict.pitch = none → nowNs s < (txOf s t.val).tNext → exec (.tapFrameStart t) s = .next s) ∧
  (∀ t s, s.dict.pitch = none → (txOf s t.val).entered = true → (txOf s t.val).stopping = false → (txOf s t.val).stopped = false →
    getObj s Oid.tapStartMode t.val ≤ 2 → (txOf s t.val).tNext ≤ nowNs s → txFaulted s t.val = false →
    stopReached s t.val (txOf s t.val) (txOf s t.val).tNext = false → cfgGet (txSettings s t.val) Oid.tapSource t.val = 0 →
    Answers (fun u => (txOf u t.val).count = (txOf s t.val).count + 1 ∧ (txOf u t.val).k = (txOf s t.val).k + 1 ∧
      ∃ fr, startedFrames (txOf u t.val) = startedFrames (txOf s t.val) ++ [fr] ∧ fr.k = (txOf s t.val).k ∧
        fr.start = (txOf s t.val).tNext ∧ fr.src = .pattern) (exec (.tapFrameStart t) s)) ∧
  (∀ t s k o, s.dict.pitch = none → (txOf s t.val).entered = true → (txOf s t.val).stopping = false → (txOf s t.val).stopped = false →
    2 < getObj s Oid.tapStartMode t.val → txFaulted s t.val = false → startedFrames (txOf s t.val) = [] →
    txTrigger s t.val = some k → tabGet none k s.fab.flowTrig = some o →
    tNsec o.due + getObj s Oid.tapTriggerDelayNs t.val ≤ nowNs s → stopReached s t.val (txOf s t.val) (nowNs s) = false →
    cfgGet (txSettings s t.val) Oid.tapSource t.val = 0 →
    Answers (fun u => tabGet none k u.fab.flowTrig = none ∧ (txOf u t.val).k = (txOf s t.val).k + 1 ∧
      ∃ fr, startedFrames (txOf u t.val) = [fr] ∧ fr.k = (txOf s t.val).k ∧ fr.start = nowNs s) (exec (.tapTrigger t) s))

/-- PACKET_DUE, TAP_FETCH_COMPLETE, TX_POST, TAP_STOP and REPLAY_CASK_DONE (R392, R396, R399, R403, R404): of the packets due on a port the earliest goes first and none before its due time; fetched bytes never exceed the buffer; a posted count beyond the ring's slots faults the ring. -/
def Obligations.PacketsAreSent : Prop :=
  (∀ p t s, dueFlows s p.val (Time96pack t) = [] → exec (.packetDue p t) s = .next s) ∧
  (∀ p t s, dueFlows s p.val (Time96pack t) ≠ [] → ∃ e ∈ dueFlows s p.val (Time96pack t),
    exec (.packetDue p t) s = .next (duePacket e.2.1 e.2.2 (Time96pack t) s) ∧
    e.1 = packetDue e.2.1 e.2.2 ∧ e.1 ≤ tNsec (Time96pack t) ∧ (∀ d ∈ dueFlows s p.val (Time96pack t), e.1 ≤ d.1)) ∧
  (∀ t fr at_ s, cannotSend s t fr = false → fr.dead = false → payloadThere t fr = true → (txOf s t).entered = false →
    duePacket t fr at_ s = usePacket t true (sendPacket t fr at_ s)) ∧
  (∀ t n s, tapLevel (txOf s t.val) ≤ getObj s Oid.tapBufferKib t.val * 1024 →
    Answers (fun u => tapLevel (txOf u t.val) ≤ getObj s Oid.tapBufferKib t.val * 1024 ∧ u.mem = s.mem) (exec (.tapFetchComplete t n) s)) ∧
  (∀ t n s fr l a, (txOf s t.val).frames = fr :: l → fr.src = .mem a → fr.fetched < txTotal (txGeo fr.cfg t.val fr.k) →
    let m := min n.toNat (min (tapRoom s t.val (txOf s t.val)) (txTotal (txGeo fr.cfg t.val fr.k) - fr.fetched))
    Answers (fun u => (txOf u t.val).frames.head? = some (deliverTo fr (fetchRun s (.mem a) (txGeo fr.cfg t.val fr.k) fr.fetched m).1))
      (exec (.tapFetchComplete t n) s)) ∧
  (∀ t v s, bar0Writable s = true → (txOf s t.val).ring.enabled = true → (txOf s t.val).ring.fault = 0 →
    (countDiff (v.toNat % 2 ^ 31) (txOf s t.val).ring.taken ≤ (txOf s t.val).ring.slots →
      exec (.txPost t v) s = .next (putTx t.val { (txOf s t.val) with ring := { (txOf s t.val).ring with post := v.toNat % 2 ^ 31 } } (barAccess s))) ∧
    ((txOf s t.val).ring.slots < countDiff (v.toNat % 2 ^ 31) (txOf s t.val).ring.taken →
      exec (.txPost t v) s = .next (tapFault t.val 5 (barAccess s)))) ∧
  (∀ t v s, bar0Writable s = true → ((txOf s t.val).ring.enabled = false ∨ (txOf s t.val).ring.fault ≠ 0) →
    exec (.txPost t v) s = .next (barAccess s)) ∧
  (∀ t v s, bar0Served s = false → exec (.txPost t v) s = .next (barRefused false s)) ∧
  (∀ t s, (txOf s t.val).entered = true → (txOf s t.val).stopping = false → (txOf s t.val).stopped = false →
    stopReached s t.val (txOf s t.val) (if getObj s Oid.tapStartMode t.val ≤ 2 then (txOf s t.val).tNext else nowNs s) = true →
    exec (.tapStop t) s = .next (settleTx t.val (putTx t.val
      { (txOf s t.val) with stopped := true, frames := startedFrames (txOf s t.val) } s))) ∧
  (∀ t s id l, getObj s Oid.tapSource t.val = 2 → isOn s Oid.tapReplayLoop t.val = false → fetchedCasks s t.val = id :: l →
    exec (.replayCaskDone t) s = .next (releaseCask id s))


/-! ### The hydrometer and the pattern engine (12_tap, 13_hydrometer) -/

/-- A region's accumulators after any samples (R420): n counts them, sum adds their differences, sq adds their squares and saturates at 2^64 − 1, mn and mx are the least and the greatest. -/
def Obligations.RegionAccumulators : Prop :=
  ∀ (ds : List Int), (∀ d ∈ ds, -65535 ≤ d ∧ d ≤ 65535) →
    let a := ds.foldl (fun a d => accAdd d a) ({} : RegAcc)
    a.n = ds.length % 2 ^ 64 ∧ a.sum = ds.sum ∧
    a.sq = min (2 ^ 64 - 1) ((ds.map (fun d => d.natAbs * d.natAbs)).sum) ∧
    (a.sat = true ↔ 2 ^ 64 ≤ (ds.map (fun d => d.natAbs * d.natAbs)).sum) ∧
    (ds = [] → a.mn = 0x7FFFFFFF ∧ a.mx = -0x80000000) ∧
    (ds ≠ [] → a.mn ∈ ds ∧ a.mx ∈ ds ∧ ∀ d ∈ ds, a.mn ≤ d ∧ d ≤ a.mx)

/-- HYDRO_COMPARE, GOLDEN_READ_RETURN, GOLDEN_DEADLINE, HYDRO_CLOSE and SELFTEST_DONE (R419, R424, R425, R539): a copy waiting is compared at once, or after the golden frame is read (a copy whose `bad` is set was read from a slot that failed meanwhile); a golden read that is poisoned or late makes the reference bad and is counted; a frame that has closed with nothing outstanding has its verdict; a self-test ends passed or failed. -/
def Obligations.HydrometerSteps : Prop :=
  (∀ f s fr h c t, hydroFrame f.val (fun h => !h.queue.isEmpty) s = some (fr, h) → h.queue = c :: t →
    (cfgGet h.cfg Oid.hydroRef h.set = 1 → h.geom = false → h.aligned = true →
      exec (.hydroCompare f) s = .next (putHydro fr { h with queue := t, reads := h.reads ++ [c] } s)) ∧
    ((cfgGet h.cfg Oid.hydroRef h.set ≠ 1 ∨ h.geom = true ∨ h.aligned = false) →
      exec (.hydroCompare f) s = .next (putHydro fr (compareCopy s fr.cfg c { h with queue := t }) s))) ∧
  (∀ f s fr h c t, hydroFrame f.val (fun h => !h.reads.isEmpty) s = some (fr, h) → h.reads = c :: t →
    let gb := (pgOf fr.cfg.format).2
    let o := c.off % fr.cfg.stride / gb * gb
    let n := (c.off % fr.cfg.stride + c.data.length + gb - 1) / gb * gb - o
    let a := goldenAddr h fr.cfg (c.off / fr.cfg.stride) o
    let bad := { h with reads := t, refBad := true, got := addGot (imageIndex fr.cfg c.off) c.data h.got }
    exec (.goldenDeadline f) s = .next (putHydro fr bad (bump Oid.hydroGoldenLate 0 s)) ∧
    ((c.bad = true ∨ goldenPoisoned s a n = true) → exec (.goldenReadReturn f) s = .next (putHydro fr bad (bump Oid.hydroGoldenErrors 0 s))) ∧
    (c.bad = false → goldenPoisoned s a n = false → (∀ i, i < n → pageFilling s (a + i) = false) →
      exec (.goldenReadReturn f) s = .next (putHydro fr (compareCopy s fr.cfg c { h with reads := t }) s))) ∧
  (∀ f s fr h id pre post, s.lau.frames = pre ++ fr :: post → (∀ g ∈ pre, g.flow ≠ f.val ∨ g.cause = none) → fr.flow = f.val →
    fr.cause.isSome = true → fr.cask = some id → fr.hydro = some h → h.closed = false → h.queue = [] → h.reads = [] → caskBusy s id = false →
    exec (.hydroClose f) s = .next (putHydro fr (closeHydro s fr h) s)) ∧
  (∀ s fr h, (closeHydro s fr h).closed = true ∧ (closeHydro s fr h).verdict ≤ 8 ∧
    ((closeHydro s fr h).valid = true ↔ (closeHydro s fr h).verdict < 5)) ∧
  (∀ pass s, getObj s Oid.hydroSelftest = 1 → exec (.selftestDone true pass) s = .next (putObj Oid.hydroSelftest 0 (if pass then 2 else 3) s)) ∧
  (∀ pass s, getObj s Oid.patternSelftest = 1 → exec (.selftestDone false pass) s = .next (putObj Oid.patternSelftest 0 (if pass then 2 else 3) s))


/-! ### Position feedback (14_position) -/

/-- The position at T between two samples (R443): the earlier position and the fraction of the step that T lies into the interval, rounded toward zero; the later position where the interval is empty or over 200 ns. The answer rests on the samples taken 200 ns ago or earlier (R437) and waits for one after T; where no two of them lie about T it is not valid, and its position, which the spec does not give, is free (the model's choice, entry 88). -/
def Obligations.PositionAtATime : Prop :=
  (∀ t a b, 0 < (tNanos b.t : Int) - tNanos a.t → (tNanos b.t : Int) - tNanos a.t ≤ 200 → tNanos a.t ≤ tNanos t → tNanos t < tNanos b.t →
    a.p < 2 ^ 47 → b.p < 2 ^ 47 → a.p ≤ b.p →
    interpolate t a b = a.p + (b.p - a.p) * (tNanos t - tNanos a.t) / (tNanos b.t - tNanos a.t) ∧
    a.p ≤ interpolate t a b ∧ interpolate t a b ≤ b.p) ∧
  (∀ t a b, 0 < (tNanos b.t : Int) - tNanos a.t → (tNanos b.t : Int) - tNanos a.t ≤ 200 →
    interpolate t a b = wrap48 (toSigned 48 a.p + truncDiv (sx48 ((b.p : Int) - a.p) * ((tNanos t : Int) - tNanos a.t))
      ((tNanos b.t : Int) - tNanos a.t))) ∧
  (∀ t a b, ((tNanos b.t : Int) - tNanos a.t ≤ 0 ∨ 200 < (tNanos b.t : Int) - tNanos a.t) → interpolate t a b = b.p) ∧
  (∀ new l t, tNanos new.t ≤ tNanos t → answerAt (new :: l) t = none) ∧
  (∀ n s e l, available s n = e :: l → tNanos e.t + 200 ≤ tNanos (now s)) ∧
  (∀ n t s r, answerAt (available s n) t = some (some r) → positionAnswer (askPosition n t s) n t = some r) ∧
  (∀ n t s, answerAt (available s n) t = some none → ∃ p, positionAnswer (askPosition n t s) n t = some (p, false))

/-- ENCODER_SAMPLE, POSITION_COMPARE, SPEED_UPDATE, STANDSTILL_TIMEOUT and QUAD_OUTPUT_EDGE (R438, R446, R447, R450, R453, R459): a sample gives the channel its phase and amplitude and, when no fault condition holds, joins the 64 kept; the oldest interval meets every unit of its channel once it is 200 ns old, and no sooner; a channel that has stood still reads speed 0 and not valid; the output count steps by one toward its target, which drives the pins, when `pos.quad_min_ns` has passed. -/
def Obligations.PositionFeedback : Prop :=
  (∀ n si co re half s, s.modes.current ≠ .cold → isOn s Oid.posEnable n.val = true → isOn s Oid.posRetired n.val = false →
    (encOf s n.val).held = none →
    let c := correctTracks s n.val si.toInt co.toInt
    ∃ u, exec (.encoderSample n si co re half) s = .next u ∧
      getObj u Oid.posPhase n.val = (phaseAmp c.1 c.2).1 ∧ getObj u Oid.posAmplitude n.val = (phaseAmp c.1 c.2).2 ∧
      (∃ e l, (encOf u n.val).samples = e :: l ∧ e.t = momentAt s (if half then 0x8000 else 0)) ∧ (encOf u n.val).samples.length ≤ 64 ∧ u.mem = s.mem) ∧
  (∀ n si co re half s, (isOn s Oid.posEnable n.val = false ∨ isOn s Oid.posRetired n.val = true) →
    exec (.encoderSample n si co re half) s = .next s) ∧
  (∀ n s v l, s.modes.current ≠ .cold → isOn s Oid.posRetired n.val = false → (encOf s n.val).pend = v :: l →
    tNanos v.t + 200 ≤ tNanos (now s) → exec (.positionCompare n) s = .next (
      let w := (unitsOf s n.val).foldl (fun s u => evalUnit v u s) (takeCrossing n.val v (putEnc n.val { (encOf s n.val) with pend := l } s))
      let w := putEnc n.val { (encOf w n.val) with shown := v.after } w
      answerAll n.val (if v.jumped then jumpBehind n.val w else w))) ∧
  (∀ n s, (∀ v l, (encOf s n.val).pend = v :: l → tNanos (now s) < tNanos v.t + 200) → exec (.positionCompare n) s = .next s) ∧
  (∀ v u s, (getObj s Oid.posCmpState u ≠ 1 ∨ v.valid = false) → evalUnit v u s = s) ∧
  (∀ u t late s, unitFire u t late s = (
    let n := getObj s Oid.posCmpChannel u
    let w := fireAt (0x060 + u) (kilnStamp s t) (now s) late (putObj Oid.posCmpLastTime u (kilnStamp s t)
      (setSticky Oid.posCmpStatus u (if late then 3 else 1) (bump Oid.posCmpFires u s)))
    if late then fire (0x088 + n) (setSticky Oid.posStatus n 0x10 w) else w)) ∧
  (∀ n s, s.modes.current ≠ .cold → (encOf s n.val).pend = [] → stoodStill s n.val = true → ∃ u, exec (.standstillTimeout n) s = .next u ∧
    getInt u Oid.posSpeed n.val = 0 ∧ getObj u Oid.posSpeedValid n.val = 0 ∧ getObj u Oid.posSpeedMethod n.val = 0 ∧
    getObj u Oid.posPosition n.val = getObj s Oid.posPosition n.val ∧ u.out = s.out) ∧
  (∀ n s, (encOf s n.val).pend = [] → stoodStill s n.val = false → exec (.standstillTimeout n) s = .next s) ∧
  (∀ n s new l el, s.modes.current ≠ .cold → isOn s Oid.posEnable n.val = true → isOn s Oid.posRetired n.val = false →
    available s n.val = new :: l → getObj s Oid.posSpeedMethod n.val = 0 → (encOf s n.val).lastX = some el →
    2 ≤ (encOf s n.val).consec → (encOf s n.val).lastDt < (tNanos new.t : Int) - el →
    exec (.speedUpdate n) s = .next (
      let w := putEnc n.val { (encOf s n.val) with log := ((new.t, new.p) :: (encOf s n.val).log).take 101 } s
      putInt Oid.posSpeed n.val (signed w n.val (truncDiv (quarterRate w n.val) ((tNanos new.t : Int) - el))) w)) ∧
  (∀ n s, s.modes.current ≠ .cold → isOn s Oid.posQuadEnable n.val = true → isOn s Oid.posEnable n.val = true →
    isOn s Oid.posRetired n.val = false → quadTarget s n.val ≠ (encOf s n.val).out → quadEdgeDue s n.val = true →
    let o := if (encOf s n.val).out < quadTarget s n.val then (encOf s n.val).out + 1 else (encOf s n.val).out - 1
    ∃ u z, exec (.quadOutputEdge n) s = .next u ∧ (encOf u n.val).out = o ∧ u.objs = s.objs ∧
      u.out = s.out ++ [Emission.quadEdge n.val (o % 4 = 1 || o % 4 = 2) (o % 4 = 2 || o % 4 = 3) z]) ∧
  (∀ n s, (quadTarget s n.val = (encOf s n.val).out ∨ quadEdgeDue s n.val = false) → exec (.quadOutputEdge n) s = .next s)


/-! ### Lamp heads (15_lamp_heads) -/

/-- STROBE_DELIVERY, PULSE_END and STROBE_GAP_END (R464 to R466, R470, R471, R473): an occurrence at a channel that is ready lights the strobe, fires its source and counts the flash; at any other it is refused and counted, and the strobe stays dark; a pulse that ends by the next tick turns the strobe off, its peak current is stored, and a pulse of 1 µs or more that is too weak is fault 3; the channel is free again when its gap has passed. -/
def Obligations.Strobes : Prop :=
  (∀ n s, (lampX s n.val).occ = none → exec (.strobeDelivery n) s = .next s) ∧
  (∀ n s c o, (lampX s n.val).occ = some (c, o) →
    let w := putLamp n.val { (lampX s n.val) with occ := none } s
    (lampState w n.val ≠ 1 → exec (.strobeDelivery n) s = .next (bump Oid.lampRefused n.val (checkLife n.val w))) ∧
    (lampState w n.val = 1 → ∃ u e off, exec (.strobeDelivery n) s = .next u ∧ Emission.strobe n.val e true ∈ u.out ∧
      (lampX u n.val).lit = some (e, off, pulseWidth w n.val) ∧ (lampX u n.val).busy = true ∧
      off = tAddNs e (pulseWidth w n.val) ∧ (lampX u n.val).free = tAddNs e (pulseGap w n.val (pulseWidth w n.val)) ∧
      getObj u Oid.lampFlashes n.val = (getObj s Oid.lampFlashes n.val + 1) % 2 ^ objBits Oid.lampFlashes ∧ u.mem = s.mem)) ∧
  (∀ s n, pulseWidth s n ≤ max 8 (min (fabObj s Oid.lampWidthNs n) (lampMaxWidth s n))) ∧
  (∀ n mv s on off w, (lampX s n.val).lit = some (on, off, w) →
    (nextTickTime s < off → exec (.pulseEnd n mv) s = .next s) ∧
    (off ≤ nextTickTime s → exec (.pulseEnd n mv) s = .next (pulsePeak n.val mv.toNat (strobeOff n.val off s)))) ∧
  (∀ n mv s, (lampX s n.val).lit = none → exec (.pulseEnd n mv) s = .next (if (lampX s n.val).peakDue then pulsePeak n.val mv.toNat s else s)) ∧
  (∀ n t s on off w, (lampX s n).lit = some (on, off, w) → strobeOff n t s = emit (.strobe n t false) (putLamp n
    { (lampX s n) with lit := none, endTick := some s.time.ticks, length := min w (tNanos t - tNanos on) } s)) ∧
  (∀ n mv s,
    let ma := min 65535 (mv * fabObj s Oid.lampIsnsScale n / 1000)
    let u := putObj Oid.lampLastPeakMa n ma (putLamp n { (lampX s n) with peakDue := false } s)
    let least := fabObj s Oid.lampOpenMinMa n
    ((least = 0 ∨ (lampX s n).length < 1000 ∨ least ≤ ma) → pulsePeak n mv s = u) ∧
    (least ≠ 0 → 1000 ≤ (lampX s n).length → ma < least → pulsePeak n mv s = lampFault n 3 u)) ∧
  (∀ n s, (lampX s n.val).lit = none → (lampX s n.val).free ≤ now s →
    exec (.strobeGapEnd n) s = .next (putLamp n.val { (lampX s n.val) with busy := false } s)) ∧
  (∀ n s, ((lampX s n.val).lit.isSome = true ∨ now s < (lampX s n.val).free) → exec (.strobeGapEnd n) s = .next s)

/-- OVERCURRENT, INTERLOCK_FALL, INTERLOCK_PERMIT, WRITEBACK_COMPLETE and HEAD_POLL (R469, R470, R472 to R476): an overcurrent or a falling interlock turns the strobe off at once; each interlock change is counted and fires its source; a confirmed write-back becomes the stored count, a failed one is fault 2 and is written again 10 ms later; the third missed poll takes the head away; a valid memory of the head present ends the run of missed polls. -/
def Obligations.HeadsAndInterlocks : Prop :=
  (∀ n mv s x lim, (lampX s n.val).lit = some x → lampLimit s n.val = some lim →
    let ma := min 65535 (mv.toNat * fabObj s Oid.lampIsnsScale n.val / 1000)
    (lim < ma → exec (.overcurrent n mv) s = .next (lampFault n.val 4 (putObj Oid.lampLastPeakMa n.val ma (
      let u := strobeOff n.val (now s) s
      putLamp n.val { (lampX u n.val) with peakDue := false } u)))) ∧
    (ma ≤ lim → exec (.overcurrent n mv) s = .next s)) ∧
  (∀ n t s, (lampX (strobeOff n t s) n).lit = none) ∧
  (∀ g s, ∃ u, exec (.interlockFall g) s = .next u ∧ (∀ i, i < 4 → (lampX u (4 * g.val + i)).lit = none) ∧
    (s.modes.current ≠ .cold → (getObj s Oid.lampIntlkLevel).testBit g.val = true →
      (getObj u Oid.lampIntlkLevel).testBit g.val = false ∧
      (∀ b, b ≠ g.val → (getObj u Oid.lampIntlkLevel).testBit b = (getObj s Oid.lampIntlkLevel).testBit b) ∧
      getObj u Oid.lampIntlkChanges g.val = (getObj s Oid.lampIntlkChanges g.val + 1) % 2 ^ objBits Oid.lampIntlkChanges)) ∧
  (∀ g s, s.modes.current ≠ .cold → (getObj s Oid.lampIntlkLevel).testBit g.val = false →
    exec (.interlockPermit g) s = .next (fire (0x0B0 + g.val) (bump Oid.lampIntlkChanges g.val
      (putObj Oid.lampIntlkLevel 0 (setBit (getObj s Oid.lampIntlkLevel) g.val) s)))) ∧
  (∀ n s v, (lampX s n.val).wb = some v → (lampX s n.val).wbNext = none → (lampX s n.val).retryAt = none → (lampX s n.val).present = true →
    (exec (.writebackComplete n true) s = .next (settleShutdown (putLamp n.val
      { (lampX s n.val) with wb := none, wbNext := none, retryAt := none, recB := !(lampX s n.val).recB, seq := ((lampX s n.val).seq + 1) % 2 ^ 32, hold := false }
      (bump Oid.lampWritebacks n.val (putObj Oid.lampStored n.val v s))))) ∧
    (∀ u, u = lampFault n.val 2 s → u.modes.current ≠ .halt → exec (.writebackComplete n false) s = .next (settleShutdown
      (putLamp n.val { (lampX u n.val) with retryAt := some (tAddNs (now u) 10000000) } u)))) ∧
  (∀ n s v t, (lampX s n).wb = some v → (lampX s n).retryAt = some t →
    retryWriteback n s = if t ≤ now s then writeRecord n v (putLamp n { (lampX s n) with retryAt := none } s) else s) ∧
  (∀ n s, s.modes.current ≠ .cold → s.modes.current ≠ .halt → (lampX s n.val).present = true →
    (∀ u, u = lampFault n.val 1 s → (lampX u n.val).misses + 1 < 3 →
      exec (.headPoll n .noAck) s = .next (checkLife n.val (putLamp n.val { (lampX u n.val) with misses := (lampX u n.val).misses + 1 } u))) ∧
    ((lampX s n.val).misses = 2 → ∃ u, exec (.headPoll n .noAck) s = .next u ∧ (lampX u n.val).present = false)) ∧
  (∀ n m s, s.modes.current ≠ .cold → s.modes.current ≠ .halt → s.modes.current ≠ .boot → (lampX s n.val).present = true → headValid m = true →
    slice 0x28 16 m = getBlob s Oid.lampHeadSerial n.val →
    exec (.headPoll n (.memory m)) s = .next (checkLife n.val (putLamp n.val { (lampX s n.val) with misses := 0 } s))) ∧
  (∀ n m s, s.modes.current ≠ .cold → s.modes.current ≠ .halt → s.modes.current ≠ .boot → (lampX s n.val).present = false → headValid m = true →
    exec (.headPoll n (.memory m)) s = .next (checkLife n.val (fire (0x0A0 + n.val) (setSticky Oid.lampStatus n.val 0x40
      (bump Oid.lampExchanges n.val (takeHead n.val m s))))))


/-! ### Power and thermal (17_faults_power) -/

/-- SUPPLY_SAG, GOVERNOR_STEP_END, CORE_RAIL_FAULT and THERMAL_READING (R514 to R518): a supply below the sag limit steps the clock down by one, below the deep limit by two, and each sag from full clock is counted; a step ends when it has lasted 1,000 ns and the supply is 10 mV above the limit; a core rail fault is a Limp cause; the thermal limits judge the hottest sensor. -/
def Obligations.PowerAndThermal : Prop :=
  (∀ mv s, s.modes.current ≠ .cold → getObj s Oid.powerClockStep = 0 →
    (mv.toNat < getObj s Oid.powerSagDeepMv → exec (.supplySag mv) s = .next (stepDown 2 (bump Oid.powerSagCount 0 s))) ∧
    (getObj s Oid.powerSagDeepMv ≤ mv.toNat → mv.toNat < getObj s Oid.powerSagMv →
      exec (.supplySag mv) s = .next (stepDown 1 (bump Oid.powerSagCount 0 s))) ∧
    (getObj s Oid.powerSagDeepMv ≤ mv.toNat → getObj s Oid.powerSagMv ≤ mv.toNat → exec (.supplySag mv) s = .next s)) ∧
  (∀ mv s, s.modes.current ≠ .cold → getObj s Oid.powerClockStep = 1 →
    (mv.toNat < getObj s Oid.powerSagDeepMv → exec (.supplySag mv) s = .next (stepDown 2 s)) ∧
    (getObj s Oid.powerSagDeepMv ≤ mv.toNat → exec (.supplySag mv) s = .next s)) ∧
  (∀ mv s, getObj s Oid.powerClockStep = 2 → exec (.supplySag mv) s = .next s) ∧
  (∀ k s, getObj (stepDown k s) Oid.powerClockStep = k) ∧
  (∀ mv s, getObj s Oid.powerClockStep ≠ 0 → s.flt.stepAt + 1000 < tNanos (now s) + 8 →
    getObj s Oid.powerSagMv + 10 ≤ mv.toNat → exec (.governorStepEnd mv) s = .next
      (putObj Oid.powerClockStep 0 (getObj s Oid.powerClockStep - 1) { s with flt := { s.flt with stepAt := tNanos (now s) } })) ∧
  (∀ mv s, (mv.toNat < getObj s Oid.powerSagMv + 10 ∨ tNanos (now s) + 8 ≤ s.flt.stepAt + 1000) → exec (.governorStepEnd mv) s = .next s) ∧
  (∀ k s, (stepDown k s).flt.stepAt = tNanos (now s)) ∧
  (∀ s, s.modes.current ≠ .cold → exec .coreRailFault s = .next (limpBy 4
    (logUntracked resDevice 5 (limpAction s) (setSticky Oid.powerStatus 0 0x10 s)))) ∧
  (∀ temps s, s.modes.current ≠ .cold → temps.length = 16 → ∃ t, t ∈ temps.map (fun w => w.toInt) ∧
    (∀ x ∈ temps.map (fun w => w.toInt), x ≤ t) ∧
    exec (.thermalReading temps) s = .next (settleCauses (thermReading 4 t (putInt Oid.powerDieTemp 0 t
      ((temps.zip (List.range 16)).foldl (fun s e => putInt Oid.powerDieSensor e.2 e.1.toInt s) s))))) ∧
  (∀ g i s, hotNext s g i false = 0 ∧ hotNext s g i true = min 3 (hotCount s g i + 1)) ∧
  (∀ g t s, thermLimit s g 1 ≤ t → hotCount s g 1 = 1 → t < thermLimit s g 2 →
    (thermReading g t s).modes.limpWant = s.modes.limpWant ||| 2 ∧ (thermReading g t s).modes.haltWant = s.modes.haltWant) ∧
  (∀ g t s, thermLimit s g 2 ≤ t → hotCount s g 2 = 1 → (thermReading g t s).modes.haltWant = s.modes.haltWant ||| 8)


/-! ### The host link (16_host_link) -/

/-- PERST_DEASSERT, LINK_UP, L1_ENTRY, L1_EXIT, INTERRUPT_FORM_CHANGE and BAR0_PARTIAL_WRITE (R56, R479, R480, R482, R491, R498): the link trains only with PERST_N released, at a rate that `hostlink.max_speed` caps; L1 is entered in Dormant when the host has enabled it; a change of the interrupt form drives INTA by the new form and takes the mask bits of MSI; an access to a BAR that is not served is refused. The form after training, INTx, and the form none while the link is down are the model's (log entry 15). BAR2_ACCESS (R37, R494 to R496): a write through a window that its attribute and Table 1.7 allow is in memory afterwards, and no other byte has changed; a refused write changes no memory and is counted; a read answers the bytes at the window's target, or zeros where it is refused, and changes no memory. -/
def Obligations.LinkFormsAndWindows : Prop :=
  ((∀ s, exec .perstDeassert s = .next { s with link := { s.link with perst := false } }) ∧
    (∀ speed width flit s, s.modes.current ≠ .cold → s.link.perst = false → s.link.up = false →
      let code := min (speed.val + 1) (getObj s Oid.hostlinkMaxSpeed)
      ∃ u, exec (.linkUp speed width flit) s = .next u ∧ u.link = { s.link with up := true, form := .intx, l2 := false, wake := false } ∧
        getObj u Oid.hostlinkLinkSpeed = code ∧ getObj u Oid.hostlinkLinkWidth = 2 ^ width.val ∧
        getObj u Oid.hostlinkFlitMode = (if code = 6 ∨ flit = true ∧ 3 ≤ code then 1 else 0) ∧
        (2 ^ width.val < 16 ∨ code < 6 → getObj u Oid.hostlinkStatus = getObj s Oid.hostlinkStatus ||| 1) ∧
        (¬(2 ^ width.val < 16 ∨ code < 6) → getObj u Oid.hostlinkStatus = getObj s Oid.hostlinkStatus)) ∧
    (∀ speed width flit s, (s.modes.current = .cold ∨ s.link.perst = true ∨ s.link.up = true) → exec (.linkUp speed width flit) s = .next s) ∧
    (∀ s, s.modes.current = .dormant → s.link.up = true → s.link.aspmL1 = true →
      exec .l1Entry s = .next { s with link := { s.link with l1 := true } }) ∧
    (∀ s, (s.modes.current ≠ .dormant ∨ s.link.aspmL1 = false) → exec .l1Entry s = .next s) ∧
    (∀ s, exec .l1Exit s = .next { s with link := { s.link with l1 := false } }) ∧
    (∀ form disable s, configServed s = true → s.link.l2 = false → ∃ u, exec (.interruptFormChange form disable) s = .next u ∧
      (let w := intxWanted { s with link := { s.link with form := formOf form, intDisable := disable } }
       u.link = { s.link with form := formOf form, intDisable := disable, msiMask := maskOf form s.link.msiMask, l1 := s.link.l1 && w == s.fab.intx } ∧
       u.fab.intx = w ∧
       ((busStopped s = true ∨ s.fab.pba = []) → u.out = if w = s.fab.intx then s.out else s.out ++ [.intx w]))) ∧
    (∀ k m s, configServed s = true → s.link.l2 = false → ∃ u, exec (.interruptFormChange (.msi k m) false) s = .next u ∧ u.link.msiMask = m.toNat) ∧
    (∀ s, bar0Served s = true → exec .bar0PartialWrite s = .next (bump Oid.hostlinkBar0Partial 0 (barAccess s))) ∧
    (∀ s, bar0Served s = false → exec .bar0PartialWrite s = .next (barRefused false s))) ∧
  ((∀ o data s a, s.link.up = true → bar2Hit s (.write o data false) = true → bar0Served s = true →
      bar2Translate (barAccess s) o.toNat data.length true = some a → slotDead s a = false →
      Answers (fun t => (∀ n (h : n < data.length), readByte t (a + n) = data[n]) ∧
        (∀ b, b < a ∨ a + data.length ≤ b → readByte t b = readByte s b)) (exec (.bar2Access (.write o data false)) s)) ∧
    (∀ o data s, s.link.up = true → bar2Hit s (.write o data false) = true → bar0Served s = true →
      bar2Translate (barAccess s) o.toNat data.length true = none →
      exec (.bar2Access (.write o data false)) s = .next (bump Oid.hostlinkBar2Refused 0 (barAccess s))) ∧
    (∀ o data s, s.link.up = true → bar2Hit s (.write o data true) = true → bar0Served s = true →
      exec (.bar2Access (.write o data true)) s = .next (logAer .poisonedTlp (barAccess s))) ∧
    (∀ o len s a, s.link.up = true → bar2Hit s (.read o len) = true → bar0Served s = true →
      bar2Translate (barAccess s) o.toNat len.toNat false = some a → a + len.toNat ≤ 0x20000000000 →
      (∀ n, n < len.toNat → unitPoisoned s (a + n) = false) →
      exec (.bar2Access (.read o len)) s = .next (emit (.completion ((List.range len.toNat).map (fun n => readByte s (a + n))) false) (barAccess s))) ∧
    (∀ o len s, s.link.up = true → bar2Hit s (.read o len) = true → bar0Served s = true →
      bar2Translate (barAccess s) o.toNat len.toNat false = none →
      exec (.bar2Access (.read o len)) s = .next (emit (.completion (List.replicate len.toNat 0) false) (bump Oid.hostlinkBar2Refused 0 (barAccess s)))) ∧
    (∀ op s, (s.link.up = false ∨ bar2Hit s op = false) → exec (.bar2Access op) s = .next s) ∧
    (∀ o len s, s.link.up = true → bar2Hit s (.read o len) = true → bar0Served s = false →
      exec (.bar2Access (.read o len)) s = .next (barRefused true s)) ∧
    (∀ o data p s, s.link.up = true → bar2Hit s (.write o data p) = true → bar0Served s = false →
      exec (.bar2Access (.write o data p)) s = .next (barRefused false s)))

/-- HOST_RESET, BUS_MASTER_DISABLE and BUS_MASTER_ENABLE (R104, R187, R499, R500): a host reset quarantines what is outstanding, masks every vector, idles every mailbox, disables the rings, and clears Bus Master Enable, Memory Space Enable and D3hot; it changes no mode, time or memory. Clearing Bus Master Enable or entering D3hot stops the device's requests, whose completions will be discarded; setting it again lets held messages go. That BUS_MASTER_ENABLE carries Memory Space Enable, and may clear Bus Master Enable, is the model's choice (entry 155). -/
def Obligations.HostResets : Prop :=
  (∀ s, configServed s = true → exec (.hostReset .flr) s = .next (hostReset .flr s)) ∧
  (∀ s, s.link.up = true → exec (.hostReset .hotReset) s = .next (hostReset .hotReset s) ∧ exec (.hostReset .dlDown) s = .next (hostReset .dlDown s)) ∧
  (∀ s, s.link.perst = false → s.modes.current ≠ .cold → s.modes.current ≠ .boot → exec (.hostReset .perst) s = .next (hostReset .perst s)) ∧
  (∀ k s, let t := hostReset k s
    t.link.tags = [] ∧ t.link.quar = s.link.quar ++ s.link.tags ∧ t.link.bme = false ∧ t.link.mse = false ∧ t.link.d3hot = false ∧ t.link.tagPool = 32 ∧ t.link.msiMask = 0 ∧
    t.fab.unmasked = [] ∧ (∀ r, (ringOf t r).enabled = false) ∧ (∀ m, (mboxOf t m).phase = .idle ∧ (mboxOf t m).rsp = []) ∧
    t.modes = s.modes ∧ t.time = s.time ∧ t.mem = s.mem ∧ t.lp = s.lp ∧ t.pos = s.pos ∧ t.hyd = s.hyd ∧ t.blobs = s.blobs ∧
    (k = .dlDown ∨ k = .perst → t.link.up = false) ∧ (k = .flr ∨ k = .hotReset → t.link.up = s.link.up)) ∧
  (∀ s, configServed s = true → s.link.bme = true → ∃ t, exec (.busMasterDisable false) s = .next t ∧
    t.link.bme = false ∧ busStopped t = true ∧ (∀ e ∈ t.link.tags, e.use = .discard) ∧
    t.link.tags.map (fun e => e.tag) = s.link.tags.map (fun e => e.tag) ∧ t.rk.stopped = true ∧ t.mem = s.mem ∧ t.modes = s.modes) ∧
  (∀ s, configServed s = true → s.link.d3hot = false → ∃ t, exec (.busMasterDisable true) s = .next t ∧
    t.link.d3hot = true ∧ busStopped t = true ∧ (∀ e ∈ t.link.tags, e.use = .discard) ∧ t.rk.stopped = true ∧ t.mem = s.mem) ∧
  (∀ c s, configServed s = true → ∃ t, exec (.busMasterEnable c) s = .next t ∧ t.link.bme = c.busMaster ∧ t.link.mse = c.memSpace ∧ t.link.d3hot = false ∧
    t.link.relaxed = c.relaxed ∧ t.link.maxPayload = 128 * 2 ^ c.maxPayload.val ∧ t.link.maxRead = 128 * 2 ^ c.maxRead.val ∧
    (c.busMaster = true → getObj t Oid.hostlinkStopped = 0) ∧
    (c.busMaster = false → s.link.bme = true → s.link.d3hot = false → t.rk.stopped = true ∧ ∀ e ∈ t.link.tags, e.use = .discard) ∧
    getObj t Oid.hostlinkCplTimeoutUs = cplTimeoutUs c.cplSel.toNat ∧ t.mem = s.mem ∧ t.modes = s.modes)

/-- NP_COMPLETION, COMPLETION_TIMEOUT, LATE_COMPLETION, QUARANTINE_EXPIRY and POISONED_COMPLETION (R486 to R489, R499): a completion frees its tag and gives its block the data; a request without one in time fails, its tag is quarantined and source 0x17F fires; a completion of a quarantined tag is counted, discarded and, when it is the last, returns the tag, as does the end of the quarantine; a poisoned one fails its request. -/
def Obligations.TagsAndCompletions : Prop :=
  (∀ (tag : Fin 16384) data s e, s.link.up = true → tagEntry s tag.val = some e →
    exec (.npCompletion tag data) s = .next (giveData e data { s with link := { s.link with tags := s.link.tags.filter (fun t => t.tag ≠ tag.val) } })) ∧
  (∀ (tag : Fin 16384) data s, s.link.up = true → tagEntry s tag.val = none → quarantined s tag.val = false →
    exec (.npCompletion tag data) s = .next (logAer .unexpectedCompletion s)) ∧
  (∀ (tag : Fin 16384) s e, tagEntry s tag.val = some e →
    exec (.completionTimeout tag) s = .next (failRequest e (fire 0x17F (logAer .completionTimeout (bump Oid.hostlinkCplTimeouts 0
      (setSticky Oid.hostlinkStatus 0 8 { s with link := { s.link with
        tags := s.link.tags.filter (fun t => t.tag ≠ e.tag), quar := s.link.quar ++ [e] } })))))) ∧
  (∀ (tag : Fin 16384) s, tagEntry s tag.val = none → exec (.completionTimeout tag) s = .next s) ∧
  (∀ (tag : Fin 16384) last s, quarantined s tag.val = true → ∃ t, exec (.lateCompletion tag last) s = .next t ∧
    getObj t Oid.hostlinkLateCompletions = (getObj s Oid.hostlinkLateCompletions + 1) % 2 ^ objBits Oid.hostlinkLateCompletions ∧
    (last = true → quarantined t tag.val = false) ∧ (last = false → t.link.quar = s.link.quar) ∧
    t.link.tags = s.link.tags ∧ t.mem = s.mem ∧ t.rk = s.rk ∧ t.tap = s.tap) ∧
  (∀ (tag : Fin 16384) last s, quarantined s tag.val = false → exec (.lateCompletion tag last) s = .next s) ∧
  (∀ (tag : Fin 16384) s, exec (.quarantineExpiry tag) s = .next
    { s with link := { s.link with quar := s.link.quar.filter (fun t => t.tag ≠ tag.val) } }) ∧
  (∀ (tag : Fin 16384) s e, s.link.up = true → tagEntry s tag.val = some e →
    let u := { s with link := { s.link with tags := s.link.tags.filter (fun t => t.tag ≠ tag.val) } }
    (e.use ≠ .discard → exec (.poisonedCompletion tag) s = .next (failRequest e (logAer .advisoryNonFatal
      (bump Oid.hostlinkPoisonedCompletions 0 (setSticky Oid.hostlinkStatus 0 0x10 u))))) ∧
    (e.use = .discard → exec (.poisonedCompletion tag) s = .next (bump Oid.hostlinkDiscardedCompletions 0 u)))


/-! ### The block as a whole -/

/-- A step carries out the command at the front of the queue on the state whose queue is the rest. With no command waiting the block idles: the model's choice (log entry 1), no rule of the spec. -/
def Obligations.StepRunsFront : Prop :=
  (∀ s c rest, s.pending = c :: rest → step s = exec c { s with pending := rest }) ∧
  (∀ s, s.pending = [] → step s = .next s)

/-- Every command answers a next state in every state and leaves the commands waiting as they are; so a run of any length stops nowhere, and each step takes one command off the queue. -/
def Obligations.EveryCommandAnswers : Prop :=
  (∀ i s, Answers (fun t => t.pending = s.pending) (exec i s)) ∧
  (∀ s, Answers (fun t => t.pending = s.pending.tail) (step s)) ∧
  (∀ n s, Runs n s)

/-- Every step keeps the state sound: the tables of objects and of byte strings and the memory list stay in their canonical form, the retirement list stays within its 1,024 entries (R508), the fault log within its 256 (R510), and at most 64 brewhouse fires are scheduled (R180). -/
def Obligations.StepKeepsSound : Prop := ∀ s t, Sound s → step s = .next t → Sound t

/-- The state after reset (R10, R41, R53): sound, at Boot entry, with nothing waiting, nothing listed in memory and no fault kept, and every object at the default its table gives, but where another table or the unit itself gives the value. -/
def Obligations.ResetState : Prop :=
  Sound State.reset ∧ State.reset.modes.current = .boot ∧ State.reset.modes.step = .kilnReset ∧ State.reset.pending = [] ∧ State.reset.mem = [] ∧ State.reset.blobs = [] ∧
  State.reset.flt.retired = [] ∧ State.reset.flt.log = [] ∧ State.reset.out = [] ∧
  (∀ id idx r, objRow? id = some r →
    ¬(id = Oid.cellarPcPartition ∨ id = Oid.cellarPcSlot ∨ id = Oid.cellarShare ∨ id = Oid.cellarShare + 1 ∨ id = Oid.cellarShare + 2 ∨
      id = Oid.portMacAddr ∨ id = Oid.portFec ∨ id = Oid.dictMgmtMac ∨ id = Oid.dictObjectCount) →
    getObj State.reset id idx = r.default) ∧
  (∀ pc, pc < 128 → getObj State.reset Oid.cellarPcPartition pc = (if pc % 32 < 20 then 0 else if pc % 32 < 28 then 1 else if pc % 32 < 30 then 2 else 3))

/-- The difference of two block IDs (R541): over the cycle of 1 to 65,535 for a standard ID, the signed 64-bit difference for an extended one; counting on from a block by n, skipping 0, gives a difference of n. A packet's block is stale when its difference from the older open frame's first block is negative, and belongs to an open frame at its difference from that frame's first block. -/
def Obligations.BlockDifference : Prop :=
  (∀ a b : Nat, 1 ≤ a → a ≤ 65535 → 1 ≤ b → b ≤ 65535 →
    (let d := ((b : Int) - a).tmod 65535
     let d := if d < 0 then d + 65535 else d
     blockDiff false a b = if 32768 ≤ d then d - 65535 else d) ∧
    -32767 ≤ blockDiff false a b ∧ blockDiff false a b ≤ 32767 ∧
    (blockDiff false a b = 0 ↔ a = b) ∧ blockDiff false b a = -blockDiff false a b) ∧
  (∀ a n : Nat, 1 ≤ a → a ≤ 65535 → n ≤ 32767 → 1 ≤ addBlock false a n ∧ addBlock false a n ≤ 65535 ∧ blockDiff false a (addBlock false a n) = n) ∧
  (∀ a b : Nat, a < 2 ^ 64 → b < 2 ^ 64 → blockDiff true a b = (BitVec.ofNat 64 b - BitVec.ofNat 64 a).toInt) ∧
  (∀ a n : Nat, 1 ≤ a → a + n < 2 ^ 64 → n < 2 ^ 63 → blockDiff true a (addBlock true a n) = n) ∧
  (addBlock false 65535 1 = 1 ∧ addBlock true (2 ^ 64 - 1) 1 = 1) ∧
  (∀ s f b fr l, openFrames s f = fr :: l → (blockStale s f b = true ↔ blockDiff fr.ext fr.key b < 0)) ∧
  (∀ s f b fr j, frameOfBlock s f b = some (fr, j) → fr ∈ openFrames s f ∧ blockDiff fr.ext fr.key b = j)
end

