-- ==== Sys2Proof/Laws/Fabric.lean ====
section
/-! SUPPORT. What the register of a grist cell does (R171), said once. -/

namespace Sys2Proof.Machine

/-- The register keeps what the filter accepted. -/
theorem gristRegister_acc {modes register edge : Nat} {q : Bool} {g : Grist} : (gristRegister modes register edge q g).acc = g.acc := by
  simp only [gristRegister]; split <;> split <;> rfl

/-- It leaves the inputs delivered as they are. -/
theorem gristRegister_arrived {modes register edge : Nat} {q : Bool} {g : Grist} :
    (gristRegister modes register edge q g).arrived = g.arrived := by
  simp only [gristRegister]; split <;> split <;> rfl

/-- A pulse register fires after each tick with acc = 1. -/
theorem gristRegister_pulse {modes edge : Nat} {q : Bool} {g : Grist} : (gristRegister modes 0 edge q g).fireNext = g.acc := by
  simp only [gristRegister, if_true]; split <;> rfl

/-- A flip-flop fires at the edge its object selects. -/
theorem gristRegister_flop {modes register edge : Nat} {q : Bool} {g : Grist} (h : register ≠ 0) :
    (gristRegister modes register edge q g).fireNext =
      ((edge = 0 && !q && g.acc) || (edge = 1 && q && !g.acc) || (edge = 2 && q != g.acc)) := by
  simp only [gristRegister, h, if_false]; split <;> rfl

end Sys2Proof.Machine
end

