-- ==== Sys2Proof/Laws/Tab.lean ====
section
/-! SUPPORT. Laws of the sorted tables: a read after a write, and that every operation keeps the keys strictly rising. -/

namespace Sys2Proof.Machine

open Sys2Proof

variable {α : Type}

/-- Every key of a table lies above k. -/
def keysAbove (k : Nat) (t : List (Nat × α)) : Prop := ∀ p ∈ t, k < p.1

theorem tabSorted_cons {j : Nat} {v : α} {t : List (Nat × α)} :
    tabSorted ((j, v) :: t) = true ↔ keysAbove j t ∧ tabSorted t = true := by
  induction t generalizing j v with
  | nil => simp [tabSorted, keysAbove]
  | cons p t ih =>
    obtain ⟨k, w⟩ := p
    simp only [tabSorted, Bool.and_eq_true, decide_eq_true_eq]
    constructor
    · rintro ⟨hjk, ht⟩
      refine ⟨?_, ht⟩
      intro p hp
      rcases List.mem_cons.1 hp with rfl | hp
      · exact hjk
      · exact Nat.lt_trans hjk ((ih.1 ht).1 p hp)
    · rintro ⟨ha, ht⟩
      exact ⟨ha (k, w) (by simp), ht⟩

theorem keysAbove_insert {j k : Nat} {v : α} {t : List (Nat × α)} (hjk : j < k) (h : keysAbove j t) :
    keysAbove j (tabInsert k v t) := by
  induction t with
  | nil => simpa [tabInsert, keysAbove] using hjk
  | cons p t ih =>
    obtain ⟨i, w⟩ := p
    have hi : j < i := h (i, w) (by simp)
    have ht : keysAbove j t := fun q hq => h q (by simp [hq])
    simp only [tabInsert]
    split
    · intro q hq; rcases List.mem_cons.1 hq with rfl | hq
      · exact hjk
      · exact h q hq
    · split
      · intro q hq; rcases List.mem_cons.1 hq with rfl | hq
        · exact hjk
        · exact ht q hq
      · intro q hq; rcases List.mem_cons.1 hq with rfl | hq
        · exact hi
        · exact ih ht q hq

theorem keysAbove_erase {j k : Nat} {t : List (Nat × α)} (h : keysAbove j t) : keysAbove j (tabErase k t) := by
  induction t with
  | nil => simpa [tabErase] using h
  | cons p t ih =>
    obtain ⟨i, w⟩ := p
    have ht : keysAbove j t := fun q hq => h q (by simp [hq])
    simp only [tabErase]
    split
    · exact ih ht
    · intro q hq; rcases List.mem_cons.1 hq with rfl | hq
      · exact h (i, w) (by simp)
      · exact ih ht q hq

/-- Inserting keeps the order. -/
theorem tabSorted_insert {k : Nat} {v : α} {t : List (Nat × α)} (h : tabSorted t = true) : tabSorted (tabInsert k v t) = true := by
  induction t with
  | nil => simp [tabInsert, tabSorted]
  | cons p t ih =>
    obtain ⟨i, w⟩ := p
    obtain ⟨ha, ht⟩ := tabSorted_cons.1 h
    simp only [tabInsert]
    split
    · next hk =>
      refine tabSorted_cons.2 ⟨?_, h⟩
      intro q hq; rcases List.mem_cons.1 hq with rfl | hq
      · exact hk
      · exact Nat.lt_trans hk (ha q hq)
    · split
      · next hk => subst hk; exact tabSorted_cons.2 ⟨ha, ht⟩
      · next h1 h2 => exact tabSorted_cons.2 ⟨keysAbove_insert (by omega) ha, ih ht⟩

/-- Erasing keeps the order. -/
theorem tabSorted_erase {k : Nat} {t : List (Nat × α)} (h : tabSorted t = true) : tabSorted (tabErase k t) = true := by
  induction t with
  | nil => simpa [tabErase] using h
  | cons p t ih =>
    obtain ⟨i, w⟩ := p
    obtain ⟨ha, ht⟩ := tabSorted_cons.1 h
    simp only [tabErase]
    split
    · exact ih ht
    · exact tabSorted_cons.2 ⟨keysAbove_erase ha, ih ht⟩

/-- Putting a value keeps the order. -/
theorem tabSorted_put [DecidableEq α] {d v : α} {k : Nat} {t : List (Nat × α)} (h : tabSorted t = true) :
    tabSorted (tabPut d k v t) = true := by
  unfold tabPut; split
  · exact tabSorted_erase h
  · exact tabSorted_insert h

/-- Filtering keeps the order. -/
theorem tabSorted_filter {f : Nat × α → Bool} {t : List (Nat × α)} (h : tabSorted t = true) : tabSorted (t.filter f) = true := by
  induction t with
  | nil => simpa using h
  | cons p t ih =>
    obtain ⟨i, w⟩ := p
    obtain ⟨ha, ht⟩ := tabSorted_cons.1 h
    rw [List.filter_cons]
    split
    · exact tabSorted_cons.2 ⟨fun q hq => ha q (List.mem_filter.1 hq).1, ih ht⟩
    · exact ih ht

/-! ### Reads after writes -/

theorem tabFind_insert {j k : Nat} {v : α} {t : List (Nat × α)} :
    tabFind j (tabInsert k v t) = if k = j then some v else tabFind j t := by
  induction t with
  | nil => simp [tabInsert, tabFind]
  | cons p t ih =>
    obtain ⟨i, w⟩ := p
    simp only [tabInsert]
    split
    · simp [tabFind]
    · split
      · next h1 h2 => subst h2; by_cases hj : k = j <;> simp [tabFind, hj]
      · next h1 h2 =>
        simp only [tabFind, ih]
        by_cases hi : i = j
        · subst hi; simp [h2]
        · simp [hi]

theorem tabGet_insert {d v : α} {j k : Nat} {t : List (Nat × α)} :
    tabGet d j (tabInsert k v t) = if k = j then v else tabGet d j t := by
  induction t with
  | nil => simp [tabInsert, tabGet]
  | cons p t ih =>
    obtain ⟨i, w⟩ := p
    simp only [tabInsert]
    split
    · simp [tabGet]
    · split
      · next h1 h2 => subst h2; by_cases hj : k = j <;> simp [tabGet, hj]
      · next h1 h2 =>
        simp only [tabGet, ih]
        by_cases hi : i = j
        · subst hi; simp [h2]
        · simp [hi]

/-- Another key reads as before. -/
theorem tabGet_erase_ne {d : α} {j k : Nat} {t : List (Nat × α)} (h : k ≠ j) : tabGet d j (tabErase k t) = tabGet d j t := by
  induction t with
  | nil => rfl
  | cons p t ih =>
    obtain ⟨i, w⟩ := p
    simp only [tabErase]
    split
    · next hi => subst hi; simp [tabGet, h, ih]
    · simp only [tabGet, ih]

/-- An erased key reads as the default. -/
theorem tabGet_erase_self {d : α} {k : Nat} {t : List (Nat × α)} : tabGet d k (tabErase k t) = d := by
  induction t with
  | nil => rfl
  | cons p t ih =>
    obtain ⟨i, w⟩ := p
    simp only [tabErase]
    split
    · exact ih
    · next hi => simp only [tabGet, hi, if_false]; exact ih

/-- The value put is the value read. -/
theorem tabGet_put_self [DecidableEq α] {d v : α} {k : Nat} {t : List (Nat × α)} :
    tabGet d k (tabPut d k v t) = v := by
  unfold tabPut; split
  · next h => subst h; exact tabGet_erase_self
  · simp [tabGet_insert]

/-- A put leaves every other key alone. -/
theorem tabGet_put_ne [DecidableEq α] {d e v : α} {j k : Nat} {t : List (Nat × α)} (h : k ≠ j) :
    tabGet e j (tabPut d k v t) = tabGet e j t := by
  unfold tabPut; split
  · exact tabGet_erase_ne h
  · simp [tabGet_insert, h]

end Sys2Proof.Machine
end

