-- ==== Sys2Proof/Laws/Keeps.lean ====
section
/-! SUPPORT. Soundness carried from a state to the next: the one property every shared operation and every meaning keeps, with the rules by which it passes through a definition's body. -/

namespace Sys2Proof.Machine

open Sys2Proof

/-- A sound state whose queue is q. -/
def Keeps (q : List Instr) (s : State) : Prop := Sound s ∧ s.pending = q

/-- A sound state whose queue is q, behind a first component. -/
theorem Keeps.ite {q : List Instr} {a b : State} {c : Prop} [Decidable c] (ha : Keeps q a) (hb : Keeps q b) :
    Keeps q (if c then a else b) := by split <;> assumption

theorem Keeps.ite_fst {α : Type} {q : List Instr} {a b : State × α} {c : Prop} [Decidable c] (ha : Keeps q a.1) (hb : Keeps q b.1) :
    Keeps q (if c then a else b).1 := by split <;> assumption

theorem Keeps.ite_snd {α : Type} {q : List Instr} {a b : α × State} {c : Prop} [Decidable c] (ha : Keeps q a.2) (hb : Keeps q b.2) :
    Keeps q (if c then a else b).2 := by split <;> assumption

theorem Keeps.of_snd {α : Type} {q : List Instr} {p : α × State} {a : α} {t : State} (e : p = (a, t)) (h : Keeps q p.2) : Keeps q t := by
  subst e; exact h

theorem Keeps.of_fst {α : Type} {q : List Instr} {p : State × α} {a : α} {t : State} (e : p = (t, a)) (h : Keeps q p.1) : Keeps q t := by
  subst e; exact h

/-- A fold of an operation that keeps soundness keeps it. -/
theorem Keeps.foldl {α : Type} {q : List Instr} {f : State → α → State} {l : List α} {s : State} (h : Keeps q s)
    (hf : ∀ s x, Keeps q s → Keeps q (f s x)) : Keeps q (l.foldl f s) := by
  induction l generalizing s with
  | nil => exact h
  | cons x t ih => exact ih (hf s x h)

/-- An update of fields that soundness does not read. -/
theorem Keeps.mk {q : List Instr} {s : State} (h : Keeps q s) {modes dict time lp lau pos cel hyd tap lamp rk link out free fresh} :
    Keeps q (State.mk modes dict time s.fab lp lau pos cel hyd tap lamp rk link s.flt s.objs s.blobs s.mem out free fresh s.pending) := h

/-- An update of the event fabric that keeps its scheduled fires. -/
theorem Keeps.mk_fab {q : List Instr} {s : State} (h : Keeps q s)
    {modes dict time a b c d d' e f g i j k l m n o lp lau pos cel hyd tap lamp rk link out free fresh} :
    Keeps q (State.mk modes dict time (FabState.mk a b c d d' s.fab.sched e f g i j k l m n o) lp lau pos cel hyd tap lamp rk link s.flt
      s.objs s.blobs s.mem out free fresh s.pending) := h

/-- An update of the fault state that keeps its two lists. -/
theorem Keeps.mk_flt {q : List Instr} {s : State} (h : Keeps q s)
    {modes dict time a b c d lp lau pos cel hyd tap lamp rk link out free fresh} :
    Keeps q (State.mk modes dict time s.fab lp lau pos cel hyd tap lamp rk link (FaultState.mk a s.flt.retired b s.flt.log c d)
      s.objs s.blobs s.mem out free fresh s.pending) := h

/-- An update of the fault state's two lists within their sizes. -/
theorem Keeps.mk_lists {q : List Instr} {s : State} (h : Keeps q s) {r : List Retired} {l : List (List Byte)}
    (hr : r.length ≤ 1024) (hl : l.length ≤ 256) {modes dict time a b c d lp lau pos cel hyd tap lamp rk link out free fresh} :
    Keeps q (State.mk modes dict time s.fab lp lau pos cel hyd tap lamp rk link (FaultState.mk a r b l c d)
      s.objs s.blobs s.mem out free fresh s.pending) := ⟨⟨h.1.1, hr, hl, h.1.2.2.2⟩, h.2⟩

/-- An update of the scheduled fires within their number. -/
theorem Keeps.mk_sched {q : List Instr} {s : State} (h : Keeps q s) {l : List SchedFire} (hl : l.length ≤ 64)
    {modes dict time a b c d d' e f g i j k l' m n o lp lau pos cel hyd tap lamp rk link out free fresh} :
    Keeps q (State.mk modes dict time (FabState.mk a b c d d' l e f g i j k l' m n o) lp lau pos cel hyd tap lamp rk link s.flt
      s.objs s.blobs s.mem out free fresh s.pending) := ⟨⟨h.1.1, h.1.2.1, h.1.2.2.1, hl⟩, h.2⟩

/-- An update of the tables and of memory in canonical form. -/
theorem Keeps.mk_tabs {q : List Instr} {s : State} (h : Keeps q s) {objs : List (Nat × Nat)} {blobs : List (Nat × List Byte)}
    {mem : List Host.Cell} (ho : tabSorted objs = true) (hb : tabSorted blobs = true) (hm : tabSorted mem = true)
    {modes dict time lp lau pos cel hyd tap lamp rk link out free fresh} :
    Keeps q (State.mk modes dict time s.fab lp lau pos cel hyd tap lamp rk link s.flt objs blobs mem out free fresh s.pending) :=
  ⟨⟨⟨ho, hb, hm⟩, h.1.2⟩, h.2⟩

theorem Keeps.objs {q : List Instr} {s : State} (h : Keeps q s) : tabSorted s.objs = true := h.1.1.1
theorem Keeps.blobs {q : List Instr} {s : State} (h : Keeps q s) : tabSorted s.blobs = true := h.1.1.2.1
theorem Keeps.mem {q : List Instr} {s : State} (h : Keeps q s) : tabSorted s.mem = true := h.1.1.2.2
theorem Keeps.retired {q : List Instr} {s : State} (h : Keeps q s) : s.flt.retired.length ≤ 1024 := h.1.2.1
theorem Keeps.log {q : List Instr} {s : State} (h : Keeps q s) : s.flt.log.length ≤ 256 := h.1.2.2.1
theorem Keeps.sched {q : List Instr} {s : State} (h : Keeps q s) : s.fab.sched.length ≤ 64 := h.1.2.2.2

theorem Keeps.answers {q : List Instr} {s : State} (h : Keeps q s) : Answers (Keeps q) (.next s) := ⟨s, rfl, h⟩

theorem Keeps.answers_ite {q : List Instr} {a b : Host.Outcome State Fault Refusal} {c : Prop} [Decidable c]
    (ha : Answers (Keeps q) a) (hb : Answers (Keeps q) b) : Answers (Keeps q) (if c then a else b) := by split <;> assumption

end Sys2Proof.Machine
end

