-- ==== Sys2Proof/Laws/KeepsOps.lean ====
section
/-! SUPPORT. What Ops.lean defines keeps soundness and the queue. -/

namespace Sys2Proof.Machine

open Sys2Proof

theorem putObj_keeps {q s} {x0 x1 x2} (h : Keeps q s) : Keeps q (putObj x0 x1 x2 s) := by
  exact Keeps.mk_tabs h (tabSorted_put h.objs) h.blobs h.mem

theorem putBlob_keeps {q s} {x0 x1 x2} (h : Keeps q s) : Keeps q (putBlob x0 x1 x2 s) := by
  exact Keeps.mk_tabs h h.objs (tabSorted_put h.blobs) h.mem

theorem putInt_keeps {q s} {x0 x1 x2} (h : Keeps q s) : Keeps q (putInt x0 x1 x2 s) := by
  dsimp only [putInt]
  with_reducible exact putObj_keeps h

theorem addObj_keeps {q s} {x0 x1 x2} (h : Keeps q s) : Keeps q (addObj x0 x1 x2 s) := by
  dsimp only [addObj]
  with_reducible exact putObj_keeps h

theorem bump_keeps {q s} {x0 x1} (h : Keeps q s) : Keeps q (bump x0 x1 s) := by
  dsimp only [bump]
  with_reducible exact addObj_keeps h

theorem setSticky_keeps {q s} {x0 x1 x2} (h : Keeps q s) : Keeps q (setSticky x0 x1 x2 s) := by
  unfold setSticky
  with_reducible exact putObj_keeps (Keeps.mk (h))

theorem putLane_keeps {q s} {x0 x1 x2} (h : Keeps q s) : Keeps q (putLane x0 x1 x2 s) := by
  dsimp only [putLane]
  with_reducible exact putObj_keeps h

theorem bumpLane_keeps {q s} {x0 x1} (h : Keeps q s) : Keeps q (bumpLane x0 x1 s) := by
  dsimp only [bumpLane]
  with_reducible exact bump_keeps h

theorem stickyLane_keeps {q s} {x0 x1 x2} (h : Keeps q s) : Keeps q (stickyLane x0 x1 x2 s) := by
  dsimp only [stickyLane]
  with_reducible exact setSticky_keeps h

theorem accumulate_keeps {q s} (h : Keeps q s) : Keeps q (accumulate s) := by
  unfold accumulate
  lift_lets
  intro u1
  intro u2
  intro u3
  intro u4
  with_reducible exact Keeps.mk (h)

theorem moveTime_keeps {q s} {x0} (h : Keeps q s) : Keeps q (moveTime x0 s) := by
  unfold moveTime
  lift_lets
  intro u1
  intro u2
  intro u3
  with_reducible exact Keeps.mk (h)

theorem emit_keeps {q s} {x0} (h : Keeps q s) : Keeps q (emit x0 s) := by
  dsimp only [emit]
  with_reducible exact Keeps.mk h

theorem emitAll_keeps {q s} {x0} (h : Keeps q s) : Keeps q (emitAll x0 s) := by
  dsimp only [emitAll]
  with_reducible exact Keeps.mk h

theorem takeFree_keeps {q s} (h : Keeps q s) : Keeps q (takeFree s).2 := by
  dsimp only [takeFree]
  with_reducible exact Keeps.mk h

theorem takeChoice_keeps {q s} {x0} (h : Keeps q s) : Keeps q (takeChoice x0 s).2 := by
  dsimp only [takeChoice]
  with_reducible exact Keeps.mk h

theorem laneNow_keeps {q s} (h : Keeps q s) : Keeps q (laneNow s).2 := by
  unfold laneNow
  lift_lets
  intro u1
  have h1 : Keeps q u1.2 := takeChoice_keeps (h)
  clear_value u1
  with_reducible exact h1

theorem assertWake_keeps {q s} (h : Keeps q s) : Keeps q (assertWake s) := by
  dsimp only [assertWake]
  with_reducible exact Keeps.ite (emit_keeps (Keeps.mk h)) h

theorem updateIntx_keeps {q s} (h : Keeps q s) : Keeps q (updateIntx s) := by
  unfold updateIntx
  lift_lets
  intro u1
  intro u2
  with_reducible exact Keeps.ite (h) (assertWake_keeps (emit_keeps (Keeps.mk_fab (h))))

theorem sendVector_keeps {q s} {x0} (h : Keeps q s) : Keeps q (sendVector x0 s) := by
  dsimp only [sendVector]
  split
  · with_reducible exact assertWake_keeps (Keeps.mk_fab h)
  · with_reducible exact Keeps.mk_fab h
  · with_reducible exact Keeps.ite (Keeps.mk_fab h) (bump_keeps (emit_keeps (Keeps.mk_fab h)))
  · with_reducible exact Keeps.ite (Keeps.mk_fab h) (bump_keeps (emit_keeps (Keeps.mk_fab h)))

theorem countVector_keeps {q s} {x0} (h : Keeps q s) : Keeps q (countVector x0 s) := by
  dsimp only [countVector]
  with_reducible exact Keeps.ite (sendVector_keeps h) (Keeps.mk_fab h)

theorem arrive_keeps {q s} {x0} (h : Keeps q s) : Keeps q (arrive x0 s) := by
  dsimp only [arrive]
  with_reducible exact Keeps.mk_fab h

theorem fireAt_keeps {q s} {x0 x1 x2 x3} (h : Keeps q s) : Keeps q (fireAt x0 x1 x2 x3 s) := by
  dsimp only [fireAt]
  with_reducible exact Keeps.ite (updateIntx_keeps (Keeps.ite (Keeps.mk_fab (bump_keeps h)) (countVector_keeps (Keeps.mk_fab (bump_keeps h))))) (arrive_keeps (updateIntx_keeps (Keeps.ite (Keeps.mk_fab (bump_keeps h)) (countVector_keeps (Keeps.mk_fab (bump_keeps h))))))

theorem crossFire_keeps {q s} {x0 x1} (h : Keeps q s) : Keeps q (crossFire x0 x1 s) := by
  unfold crossFire
  lift_lets
  intro u1
  have h1 : Keeps q u1.2 := takeChoice_keeps (h)
  clear_value u1
  intro u2
  intro u3
  with_reducible exact Keeps.mk_fab (h1)

theorem fire_keeps {q s} {x0} (h : Keeps q s) : Keeps q (fire x0 s) := by
  unfold fire
  lift_lets
  intro u1
  have h1 : Keeps q u1.2 := takeChoice_keeps (h)
  clear_value u1
  with_reducible exact Keeps.ite (crossFire_keeps (h1)) (fireAt_keeps (h))

theorem flowSignals_keeps {q s} {x0 x1 x2} (h : Keeps q s) : Keeps q (flowSignals x0 x1 x2 s) := by
  induction x2 with
  | zero => exact h
  | succ n ih =>
    simp only [flowSignals]
    exact Keeps.ite (fire_keeps ih) ih

theorem flowSignal_keeps {q s} {x0 x1} (h : Keeps q s) : Keeps q (flowSignal x0 x1 s) := flowSignals_keeps h

theorem fireStamped_keeps {q s} {x0 x1} (h : Keeps q s) : Keeps q (fireStamped x0 x1 s) := by
  unfold fireStamped
  with_reducible exact Keeps.ite (crossFire_keeps (h)) (fireAt_keeps (h))

theorem startStore_keeps {q s} {x0} (h : Keeps q s) : Keeps q (startStore x0 s) := by
  dsimp only [startStore]
  with_reducible exact Keeps.ite h (Keeps.mk h)

theorem addLog_keeps {q s} {x0 x1 x2 x3 x4} (h : Keeps q s) : Keeps q (addLog x0 x1 x2 x3 x4 s) := by
  dsimp only [addLog]
  have h2 : Keeps q (bump Oid.faultsLogTotal 0 s) := bump_keeps h
  refine fire_keeps (setSticky_keeps (Keeps.mk_lists h2 h2.retired ?_))
  rw [List.length_drop]
  omega

theorem addRetired_keeps {q s} {x0 x1 x2} (h : Keeps q s) : Keeps q (addRetired x0 x1 x2 s) := by
  dsimp only [addRetired]
  have h2 : Keeps q (setSticky Oid.faultsAlertStatus 0 1 s) := setSticky_keeps h
  generalize setSticky Oid.faultsAlertStatus 0 1 s = t at h2 ⊢
  have h3 : ∀ e : Retired, Keeps q (if t.flt.retired.length < 1024 then
        { t with flt := { t.flt with retired := t.flt.retired ++ [e] } }
      else setSticky Oid.faultsAlertStatus 0 0x100 { t with flt := { t.flt with overflowed := x0 :: t.flt.overflowed } }) := by
    intro e
    split
    · exact Keeps.mk_lists h2 (by simp only [List.length_append, List.length_singleton]; omega) h2.log
    · exact setSticky_keeps (Keeps.mk_flt h2)
  exact Keeps.ite (startStore_keeps (h3 _)) (h3 _)

theorem length_relabelLog_go (r c k a : Nat) (l : List (List Byte)) : (relabelLog.go r c k a l).length = l.length := by
  induction l with
  | nil => rfl
  | cons e t ih =>
    simp only [relabelLog.go]
    split <;> simp [ih]

@[simp] theorem length_relabelLog (r c k a : Nat) (l : List (List Byte)) : (relabelLog r c k a l).length = l.length := by
  simp [relabelLog, length_relabelLog_go]

theorem relabelFault_keeps {q s} {x0 x1 x2 x3} (h : Keeps q s) : Keeps q (relabelFault x0 x1 x2 x3 s) :=
  Keeps.mk_lists h h.retired (by rw [length_relabelLog]; exact h.log)

theorem recordFault_keeps {q s} {x0 x1 x2} (h : Keeps q s) : Keeps q (recordFault x0 x1 x2 s).1 := by
  unfold recordFault
  lift_lets
  intro u1
  intro u2
  intro u3
  intro u4
  intro u5
  have h5 : Keeps q u5 := Keeps.mk_flt (h)
  clear_value u5
  with_reducible exact Keeps.ite_fst (addLog_keeps (h)) (Keeps.ite_fst (Keeps.ite_fst (addRetired_keeps (relabelFault_keeps (h))) (h)) (Keeps.ite_fst (addLog_keeps (h5)) (Keeps.ite_fst (addRetired_keeps (addLog_keeps (h5))) (addLog_keeps (h5)))))

theorem logUntracked_keeps {q s} {x0 x1 x2} (h : Keeps q s) : Keeps q (logUntracked x0 x1 x2 s) := by
  dsimp only [logUntracked]
  with_reducible exact addLog_keeps h

theorem dropRetired_keeps {q s} {x0} (h : Keeps q s) : Keeps q (dropRetired x0 s) := by
  dsimp only [dropRetired]
  have h2 : ∀ f g, Keeps q { s with flt := { s.flt with
      retired := s.flt.retired.filter f
      overflowed := s.flt.overflowed.filter g
      history := tabPut [] x0 [] s.flt.history } } :=
    fun f g => Keeps.mk_lists h (Nat.le_trans (List.length_filter_le _ _) h.retired) h.log
  exact Keeps.ite (startStore_keeps (h2 _ _)) (h2 _ _)

theorem writeMem_keeps {q s} {x0 x1} (h : Keeps q s) : Keeps q (writeMem x0 x1 s) := by
  induction x1 generalizing x0 s with
  | nil => exact h
  | cons b t ih =>
    simp only [writeMem]
    exact ih (Keeps.mk_tabs h h.objs h.blobs (tabSorted_insert h.mem))

theorem loseMem_keeps {q s} {x0 x1} (h : Keeps q s) : Keeps q (loseMem x0 x1 s) := by
  exact Keeps.mk_tabs h h.objs h.blobs (tabSorted_filter h.mem)

end Sys2Proof.Machine
end

