-- ==== Sys2Proof/Laws/KeepsFabric.lean ====
section
/-! SUPPORT. What Fabric.lean defines keeps soundness and the queue. -/

namespace Sys2Proof.Machine

open Sys2Proof

theorem putFab_keeps {q s} {x0 x1 x2} (h : Keeps q s) : Keeps q (putFab x0 x1 x2 s) := by
  dsimp only [putFab]
  with_reducible refine putObj_keeps ?_
  split
  · with_reducible exact h
  · with_reducible exact Keeps.mk_fab h

theorem dropPending_keeps {q s} {x0} (h : Keeps q s) : Keeps q (dropPending x0 s) := by
  dsimp only [dropPending]
  with_reducible exact Keeps.mk_fab h

theorem softFire_keeps {q s} {x0 x1 x2} (h : Keeps q s) : Keeps q (softFire x0 x1 x2 s) := by
  dsimp only [softFire]
  with_reducible exact arrive_keeps h

theorem refuseFire_keeps {q s} {x0} (h : Keeps q s) : Keeps q (refuseFire x0 s) := by
  unfold refuseFire
  with_reducible exact bump_keeps (Keeps.ite (setSticky_keeps (h)) (h))

theorem barAccess_keeps {q s} (h : Keeps q s) : Keeps q (barAccess s) := by
  dsimp only [barAccess]
  with_reducible exact Keeps.mk h

theorem logAer_keeps {q s} {x0} (h : Keeps q s) : Keeps q (logAer x0 s) := by
  unfold logAer
  lift_lets
  intro u1
  with_reducible exact Keeps.ite (h) (Keeps.mk (h))

theorem barRefused_keeps {q s} {x0} (h : Keeps q s) : Keeps q (barRefused x0 s) := by
  unfold barRefused
  lift_lets
  intro u1
  have h1 : Keeps q u1 := logAer_keeps (barAccess_keeps (h))
  clear_value u1
  with_reducible exact Keeps.ite (h) (Keeps.ite (emit_keeps (h1)) (h1))

theorem bar0Write_keeps {q s} {f : State → State} (hf : ∀ s, Keeps q s → Keeps q (f s)) (h : Keeps q s) : Keeps q (bar0Write f s) := by
  unfold bar0Write
  exact Keeps.ite (barRefused_keeps h) (Keeps.ite (hf _ (barAccess_keeps h)) (barAccess_keeps h))

theorem bar0Fire_keeps {q s} {x0 x1} (h : Keeps q s) : Keeps q (bar0Fire x0 x1 s) := by
  dsimp only [bar0Fire]
  with_reducible exact Keeps.ite (softFire_keeps h) (refuseFire_keeps h)

theorem stormCount_keeps {q s} {x0} (h : Keeps q s) : Keeps q (stormCount x0 s).1 := by
  dsimp only [stormCount]
  with_reducible exact Keeps.mk_fab h

theorem stormTrip_keeps {q s} {x0} (h : Keeps q s) : Keeps q (stormTrip x0 s) := by
  dsimp only [stormTrip]
  with_reducible exact fire_keeps (setSticky_keeps (setSticky_keeps (bump_keeps (dropPending_keeps (putFab_keeps h)))))

theorem overflowDrop_keeps {q s} {x0} (h : Keeps q s) : Keeps q (overflowDrop x0 s) := by
  dsimp only [overflowDrop]
  with_reducible exact fire_keeps (setSticky_keeps (setSticky_keeps (bump_keeps h)))

theorem putGristQ_keeps {q s} {x0 x1} (h : Keeps q s) : Keeps q (putGristQ x0 x1 s) := by
  dsimp only [putGristQ]
  with_reducible exact Keeps.ite h (putObj_keeps h)

theorem gristTick_keeps {q s} {x0} (h : Keeps q s) : Keeps q (gristTick x0 s) := by
  dsimp only [gristTick]
  with_reducible exact Keeps.ite (Keeps.mk_fab h) (putGristQ_keeps (Keeps.mk_fab h))

theorem gristTicks_keeps {q s} {x0} (h : Keeps q s) : Keeps q (gristTicks x0 s) := by
  induction x0 with
  | zero => exact h
  | succ n ih =>
    simp only [gristTicks]
    exact gristTick_keeps ih

theorem gristClear_keeps {q s} {x0} (h : Keeps q s) : Keeps q (gristClear x0 s) := by
  dsimp only [gristClear]
  with_reducible exact Keeps.ite (putGristQ_keeps (Keeps.mk_fab h)) h

theorem gristClears_keeps {q s} {x0} (h : Keeps q s) : Keeps q (gristClears x0 s) := by
  induction x0 with
  | zero => exact h
  | succ n ih =>
    simp only [gristClears]
    exact gristClear_keeps ih

theorem gristWritten_keeps {q s} {x0 x1 x2} (h : Keeps q s) : Keeps q (gristWritten x0 x1 x2 s) := by
  dsimp only [gristWritten]
  with_reducible exact Keeps.ite (putFab_keeps h) (Keeps.mk_fab (putFab_keeps h))

theorem driveTrigOut_keeps {q s} {x0 x1 x2 x3 x4} (h : Keeps q s) : Keeps q (driveTrigOut x0 x1 x2 x3 x4 s) := by
  dsimp only [driveTrigOut]
  with_reducible exact Keeps.ite (emit_keeps (Keeps.mk_fab h)) (Keeps.mk_fab h)

theorem placeEdge_keeps {q s} {x0 x1} (h : Keeps q s) : Keeps q (placeEdge x0 x1 s) := by
  unfold placeEdge
  with_reducible exact Keeps.ite (setSticky_keeps (h)) (h)

theorem trigOutOccurrence_keeps {q s} {x0 x1 x2} (h : Keeps q s) : Keeps q (trigOutOccurrence x0 x1 x2 s) := by
  unfold trigOutOccurrence
  lift_lets
  intro u1
  split
  · with_reducible exact driveTrigOut_keeps (placeEdge_keeps (h))
  · with_reducible exact driveTrigOut_keeps (placeEdge_keeps (h))
  · with_reducible exact h

theorem trigOutTick_keeps {q s} {x0 x1} (h : Keeps q s) : Keeps q (trigOutTick x0 x1 s) := by
  unfold trigOutTick
  lift_lets
  intro u1
  intro u2
  intro u3
  intro u4
  intro u5
  intro u6
  intro u7
  intro u8
  have h8 : Keeps q u8 := Keeps.mk_fab (h)
  clear_value u8
  with_reducible exact Keeps.ite (emit_keeps (h8)) (h8)

theorem trigOutTicks_keeps {q s} {x0 x1} (h : Keeps q s) : Keeps q (trigOutTicks x0 x1 s) := by
  induction x1 generalizing x0 s
  · rw [trigOutTicks]
    with_reducible exact h
  · rename_i n ih
    rw [trigOutTicks]
    with_reducible exact trigOutTick_keeps (ih (h))

theorem putTrigIn_keeps {q s} {x0 x1} (h : Keeps q s) : Keeps q (putTrigIn x0 x1 s) := by
  unfold putTrigIn
  lift_lets
  intro u1
  with_reducible exact Keeps.mk_fab (h)

theorem acceptEdge_keeps {q s} {x0 x1 x2} (h : Keeps q s) : Keeps q (acceptEdge x0 x1 x2 s) := by
  unfold acceptEdge
  lift_lets
  intro u1
  intro u2
  with_reducible exact Keeps.ite (bump_keeps (putTrigIn_keeps (h))) (fireStamped_keeps (setSticky_keeps (putTrigIn_keeps (h))))

theorem trigInTick_keeps {q s} {x0} (h : Keeps q s) : Keeps q (trigInTick x0 s) := by
  unfold trigInTick
  split
  · with_reducible exact h
  · with_reducible exact Keeps.ite (acceptEdge_keeps (h)) (h)

theorem trigInTicks_keeps {q s} {x0} (h : Keeps q s) : Keeps q (trigInTicks x0 s) := by
  induction x0 generalizing s
  · rw [trigInTicks]
    with_reducible exact h
  · rename_i n ih
    rw [trigInTicks]
    with_reducible exact trigInTick_keeps (ih (h))

theorem trigInEdge_keeps {q s} {x0 x1 x2} (h : Keeps q s) : Keeps q (trigInEdge x0 x1 x2 s) := by
  unfold trigInEdge
  lift_lets
  intro u1
  intro u2
  intro u3
  with_reducible exact Keeps.ite (h) (Keeps.ite (putTrigIn_keeps (h)) (Keeps.ite (putTrigIn_keeps (h)) (trigInTick_keeps (putTrigIn_keeps (h)))))

theorem takeBhSeq_keeps {q s} {x0} (h : Keeps q s) : Keeps q (takeBhSeq x0 s).2 := by
  dsimp only [takeBhSeq]
  with_reducible exact Keeps.mk h

theorem putBh_keeps {q s} {x0 x1} (h : Keeps q s) : Keeps q (putBh x0 x1 s) := by
  unfold putBh
  lift_lets
  intro u1
  with_reducible exact Keeps.mk (h)

theorem queueBh_keeps {q s} {x0 x1 x2} (h : Keeps q s) : Keeps q (queueBh x0 x1 x2 s) := by
  unfold queueBh
  lift_lets
  intro u1
  intro u2
  with_reducible exact Keeps.ite (emit_keeps (putBh_keeps (h))) (putBh_keeps (h))

theorem bhSend_keeps {q s} {x0 x1 x2} (h : Keeps q s) : Keeps q (bhSend x0 x1 x2 s) := by
  induction x1 generalizing x2 s with
  | zero => exact h
  | succ n ih =>
    dsimp only [bhSend]
    refine Keeps.ite (putBh_keeps h) ?_
    cases (bhLink s x0).queue with
    | nil => exact putBh_keeps h
    | cons f r => exact ih (emit_keeps (putBh_keeps h))

theorem bhPrune_keeps {q s} {x0} (h : Keeps q s) : Keeps q (bhPrune x0 s) := by
  unfold bhPrune
  lift_lets
  intro u1
  with_reducible exact Keeps.ite (Keeps.ite (putBh_keeps (h)) (h)) (putBh_keeps (h))

theorem bhMarkers_keeps {q s} {x0} (h : Keeps q s) : Keeps q (bhMarkers x0 s) := by
  unfold bhMarkers
  lift_lets
  intro u1
  intro u2
  with_reducible exact Keeps.ite (Keeps.ite (emit_keeps (putBh_keeps (h))) (putBh_keeps (h))) (h)

theorem bhTicks_keeps {q s} {x0} (h : Keeps q s) : Keeps q (bhTicks x0 s) := by
  induction x0 generalizing s
  · rw [bhTicks]
    with_reducible exact h
  · rename_i n ih
    rw [bhTicks]
    with_reducible exact bhMarkers_keeps (bhSend_keeps (bhPrune_keeps (ih (h))))

theorem originateBh_keeps {q s} {x0 x1 x2 x3 x4 x5 x6 x7} (h : Keeps q s) : Keeps q (originateBh x0 x1 x2 x3 x4 x5 x6 x7 s) := by
  unfold originateBh
  lift_lets
  intro u1
  have h1 : Keeps q u1.2 := takeBhSeq_keeps (h)
  clear_value u1
  with_reducible exact queueBh_keeps (h1)

theorem sendCascade_keeps {q s} {x0 x1 x2 x3 x4} (h : Keeps q s) : Keeps q (sendCascade x0 x1 x2 x3 x4 s) := by
  unfold sendCascade
  with_reducible exact originateBh_keeps (h)

theorem sendTrigger_keeps {q s} {x0 x1 x2 x3} (h : Keeps q s) : Keeps q (sendTrigger x0 x1 x2 x3 s) := by
  unfold sendTrigger
  lift_lets
  intro u1
  have h1 : Keeps q u1.2 := takeBhSeq_keeps (h)
  clear_value u1
  intro u2
  intro u3
  with_reducible exact Keeps.foldl (h1) (fun s x h => queueBh_keeps (queueBh_keeps (h)))

theorem forwardTrigger_keeps {q s} {x0 x1 x2 x3 x4 x5} (h : Keeps q s) : Keeps q (forwardTrigger x0 x1 x2 x3 x4 x5 s) := by
  unfold forwardTrigger
  with_reducible exact Keeps.foldl (h) (fun s x h => queueBh_keeps (h))

theorem scheduleFire_keeps {q s} {x0} (h : Keeps q s) : Keeps q (scheduleFire x0 s) := by
  dsimp only [scheduleFire]
  split
  · exact Keeps.mk_sched h (by simp only [List.length_append, List.length_singleton]; omega)
  · exact refuseFire_keeps h

theorem exportOccurrence_keeps {q s} {x0 x1} (h : Keeps q s) : Keeps q (exportOccurrence x0 x1 s) := by
  unfold exportOccurrence
  lift_lets
  intro u1
  intro u2
  with_reducible exact Keeps.ite (h) (scheduleFire_keeps (Keeps.ite (h) (sendTrigger_keeps (h))))

theorem brewFire_keeps {q s} {x0 x1} (h : Keeps q s) : Keeps q (brewFire x0 x1 s) := by
  dsimp only [brewFire]
  with_reducible exact arrive_keeps h

theorem receiveTrigger_keeps {q s} {x0 x1 x2} (h : Keeps q s) : Keeps q (receiveTrigger x0 x1 x2 s) := by
  unfold receiveTrigger
  lift_lets
  intro u1
  with_reducible exact Keeps.ite (refuseFire_keeps (h)) (Keeps.ite (fire_keeps (bump_keeps (setSticky_keeps (brewFire_keeps (h))))) (scheduleFire_keeps (h)))

theorem triggerFrame_keeps {q s} {x0 x1 x2 x3 x4 x5 x6 x7} (h : Keeps q s) : Keeps q (triggerFrame x0 x1 x2 x3 x4 x5 x6 x7 s) := by
  dsimp only [triggerFrame]
  with_reducible exact Keeps.ite (bump_keeps h) (Keeps.ite (forwardTrigger_keeps (bump_keeps h)) (receiveTrigger_keeps (Keeps.mk_fab (forwardTrigger_keeps (bump_keeps h)))))

theorem fireScheduled_keeps {q s} (h : Keeps q s) : Keeps q (fireScheduled s) := by
  dsimp only [fireScheduled]
  refine Keeps.foldl (Keeps.mk_sched h (Nat.le_trans (List.length_filter_le _ _) h.sched)) (fun s x h => brewFire_keeps h)

theorem bar0FireAll_keeps {q s} {x0} (h : Keeps q s) : Keeps q (bar0FireAll x0 s) := by
  dsimp only [bar0FireAll]
  with_reducible exact Keeps.foldl h (fun s x h => bar0Fire_keeps h)

theorem execGristCellFire_keeps {q s} {x0} (h : Keeps q s) : Answers (Keeps q) (execGristCellFire x0 s) := by
  dsimp only [execGristCellFire]
  with_reducible exact Keeps.answers_ite (Keeps.answers (fire_keeps (Keeps.mk_fab h))) (Keeps.answers h)

theorem execTrigInEdge_keeps {q s} {x0 x1 x2} (h : Keeps q s) : Answers (Keeps q) (execTrigInEdge x0 x1 x2 s) := by
  dsimp only [execTrigInEdge]
  with_reducible exact Keeps.answers_ite (Keeps.answers h) (Keeps.answers (trigInEdge_keeps h))

theorem execTrigInStuck_keeps {q s} {x0} (h : Keeps q s) : Answers (Keeps q) (execTrigInStuck x0 s) := by
  dsimp only [execTrigInStuck]
  with_reducible exact Keeps.answers_ite (Keeps.answers h) (Keeps.answers (fire_keeps (setSticky_keeps (setSticky_keeps (Keeps.mk_fab h)))))

theorem execTrigOutPulseEnd_keeps {q s} {x0} (h : Keeps q s) : Answers (Keeps q) (execTrigOutPulseEnd x0 s) := by
  dsimp only [execTrigOutPulseEnd]
  with_reducible exact Keeps.answers_ite (Keeps.answers (driveTrigOut_keeps h)) (Keeps.answers h)

theorem execVectorTimer_keeps {q s} {x0} (h : Keeps q s) : Answers (Keeps q) (execVectorTimer x0 s) := by
  dsimp only [execVectorTimer]
  with_reducible exact Keeps.answers_ite (Keeps.answers (sendVector_keeps h)) (Keeps.answers h)

theorem unmaskVector_keeps {q s} {x0} (h : Keeps q s) : Keeps q (unmaskVector x0 s) := by
  unfold unmaskVector
  lift_lets
  intro u1
  intro u2
  split
  · with_reducible exact Keeps.mk (h)
  · with_reducible exact Keeps.mk_fab (h)
  · with_reducible exact Keeps.mk_fab (h)
  · with_reducible exact Keeps.mk_fab (h)

theorem execMsixVectorUnmask_keeps {q s} {x0} (h : Keeps q s) : Answers (Keeps q) (execMsixVectorUnmask x0 s) := by
  unfold execMsixVectorUnmask
  lift_lets
  intro u1
  have h1 : Keeps q u1 := unmaskVector_keeps (h)
  clear_value u1
  with_reducible refine Keeps.answers_ite ?_ ?_
  · with_reducible refine Keeps.answers ?_
    with_reducible exact h1
  · with_reducible refine Keeps.answers ?_
    with_reducible refine Keeps.foldl ?_ ?_
    · with_reducible exact h1
    · intro t2 x2 h2
      dsimp -zeta only
      lift_lets
      intro u3
      with_reducible exact sendVector_keeps (Keeps.mk_fab (h2))

theorem clearSrcStatus_keeps {q s} {x0 x1 x2} (h : Keeps q s) : Keeps q (clearSrcStatus x0 x1 x2 s) := by
  induction x2 with
  | zero => exact h
  | succ n ih =>
    simp only [clearSrcStatus]
    exact Keeps.ite (Keeps.mk_fab ih) ih

theorem execSrcStatusWrite_keeps {q s} {x0 x1} (h : Keeps q s) : Answers (Keeps q) (execSrcStatusWrite x0 x1 s) := by
  unfold execSrcStatusWrite
  with_reducible refine Keeps.answers_ite ?_ ?_
  · with_reducible refine Keeps.answers ?_
    with_reducible exact updateIntx_keeps (clearSrcStatus_keeps (barAccess_keeps (h)))
  · with_reducible refine Keeps.answers ?_
    with_reducible exact barRefused_keeps (h)

theorem execTrigger_keeps {q s} {x0 x1 x2 x3 x4 x5 x6 x7} (h : Keeps q s) : Answers (Keeps q) (execTrigger x0 x1 x2 x3 x4 x5 x6 x7 s) := by
  dsimp only [execTrigger]
  with_reducible exact Keeps.answers_ite (Keeps.answers (triggerFrame_keeps h)) (Keeps.answers h)

theorem execScheduledFire_keeps {q s} (h : Keeps q s) : Answers (Keeps q) (execScheduledFire s) := by
  dsimp only [execScheduledFire]
  with_reducible exact Keeps.answers (fireScheduled_keeps h)

end Sys2Proof.Machine
end

