-- ==== Sys2Proof/Laws/KeepsTimekeeper.lean ====
section
/-! SUPPORT. What Timekeeper.lean defines keeps soundness and the queue. -/

namespace Sys2Proof.Machine

open Sys2Proof

theorem ppsStart_keeps {q s} {x0} (h : Keeps q s) : Keeps q (ppsStart x0 s) := by
  unfold ppsStart
  lift_lets
  intro u1
  intro u2
  intro u3
  have h3 : Keeps q u3 := Keeps.mk (h)
  clear_value u3
  intro u4
  have h4 : Keeps q u4 := Keeps.ite (emit_keeps (h3)) (h3)
  clear_value u4
  with_reducible exact fireStamped_keeps (h4)

theorem ppsFlush_keeps {q s} (h : Keeps q s) : Keeps q (ppsFlush s) := by
  unfold ppsFlush
  lift_lets
  intro u1
  split
  · with_reducible exact h
  · with_reducible exact ppsStart_keeps (Keeps.mk (h))

theorem ppsTick_keeps {q s} {x0 x1} (h : Keeps q s) : Keeps q (ppsTick x0 x1 s) := by
  unfold ppsTick
  lift_lets
  intro u1
  with_reducible exact Keeps.ite (Keeps.mk (h)) (h)

theorem ppsPolarityWritten_keeps {q s} {x0} (h : Keeps q s) : Keeps q (ppsPolarityWritten x0 s) := by
  dsimp only [ppsPolarityWritten]
  with_reducible exact Keeps.ite (putObj_keeps h) (emit_keeps (putObj_keeps h))

theorem setArmed_keeps {q s} {x0 x1} (h : Keeps q s) : Keeps q (setArmed x0 x1 s) := by
  dsimp only [setArmed]
  with_reducible exact Keeps.mk h

theorem armCompare_keeps {q s} {x0} (h : Keeps q s) : Keeps q (armCompare x0 s) := by
  dsimp only [armCompare]
  with_reducible exact Keeps.ite (setArmed_keeps h) (setArmed_keeps h)

theorem rearmCompare_keeps {q s} {x0} (h : Keeps q s) : Keeps q (rearmCompare x0 s) := by
  unfold rearmCompare
  with_reducible exact setArmed_keeps (h)

theorem promoteArmed_keeps {q s} (h : Keeps q s) : Keeps q (promoteArmed s) := by
  unfold promoteArmed
  lift_lets
  intro u1
  with_reducible exact Keeps.mk (h)

theorem fireCompare_keeps {q s} {x0 x1} (h : Keeps q s) : Keeps q (fireCompare x0 x1 s) := by
  unfold fireCompare
  lift_lets
  intro u1
  intro u2
  intro u3
  intro u4
  have h4 : Keeps q u4 := setSticky_keeps (h)
  clear_value u4
  intro u5
  have h5 : Keeps q u5 := fireAt_keeps (h4)
  clear_value u5
  intro u6
  intro u7
  with_reducible exact Keeps.ite (Keeps.ite (rearmCompare_keeps (putObj_keeps (addObj_keeps (setSticky_keeps (h5))))) (rearmCompare_keeps (putObj_keeps (h5)))) (setArmed_keeps (h5))

theorem evalCompare_keeps {q s} {x0} (h : Keeps q s) : Keeps q (evalCompare x0 s) := by
  dsimp only [evalCompare]
  with_reducible exact Keeps.ite h (fireCompare_keeps h)

theorem stepPastCompares_keeps {q s} {x0 x1 x2} (h : Keeps q s) : Keeps q (stepPastCompares x0 x1 x2 s) := by
  induction x2 with
  | zero => exact h
  | succ n ih =>
    simp only [stepPastCompares]
    exact Keeps.ite (fireCompare_keeps ih) ih

theorem stepPast_keeps {q s} {x0 x1} (h : Keeps q s) : Keeps q (stepPast x0 x1 s) := by
  unfold stepPast
  lift_lets
  intro u1
  have h1 : Keeps q u1 := stepPastCompares_keeps (h)
  clear_value u1
  intro u2
  intro u3
  have h3 : Keeps q u3 := by
    dsimp only [u3]
    split
    · with_reducible exact Keeps.ite (Keeps.mk (h1)) (h1)
    · with_reducible exact h1
  clear_value u3
  intro u4
  intro u5
  intro u6
  have h6 : Keeps q u6 := Keeps.ite (Keeps.mk (h3)) (h3)
  clear_value u6
  intro u7
  split
  · with_reducible exact Keeps.ite (Keeps.mk (h6)) (h6)
  · with_reducible exact h6

theorem applyStep_keeps {q s} (h : Keeps q s) : Keeps q (applyStep s) := by
  unfold applyStep
  lift_lets
  intro u1
  intro u2
  intro u3
  split
  · with_reducible exact h
  · lift_lets
    intro u4
    have h4 : Keeps q u4 := moveTime_keeps (Keeps.mk (h))
    clear_value u4
    intro u5
    have h5 : Keeps q u5 := putObj_keeps (bump_keeps (setSticky_keeps (h4)))
    clear_value u5
    intro u6
    have h6 : Keeps q u6 := fire_keeps (h5)
    clear_value u6
    with_reducible exact Keeps.ite (stepPast_keeps (h6)) (h6)

theorem takeIncrement_keeps {q s} (h : Keeps q s) : Keeps q (takeIncrement s) := by
  dsimp only [takeIncrement]
  split
  · with_reducible exact h
  · with_reducible exact Keeps.mk h

theorem gristFires_keeps {q s} {x0} (h : Keeps q s) : Keeps q (gristFires x0 s) := by
  induction x0 with
  | zero => exact h
  | succ n ih =>
    simp only [gristFires]
    exact Keeps.ite (fire_keeps (Keeps.mk_fab ih)) ih

theorem rollSecond_keeps {q s} (h : Keeps q s) : Keeps q (rollSecond s) := by
  dsimp only [rollSecond]
  with_reducible exact Keeps.ite h (putObj_keeps (Keeps.mk h))

theorem gristEnd_keeps {q s} (h : Keeps q s) : Keeps q (gristEnd s) :=
  gristClears_keeps (gristTicks_keeps (gristFires_keeps h))

theorem openTick_keeps {q s} (h : Keeps q s) : Keeps q (openTick s) := by
  unfold openTick
  lift_lets
  intro u1
  intro u2
  with_reducible exact Keeps.mk_fab (h)

theorem fireCrossings_keeps {q s} (h : Keeps q s) : Keeps q (fireCrossings s) := by
  unfold fireCrossings
  lift_lets
  intro u1
  with_reducible exact Keeps.foldl (Keeps.mk_fab (h)) (fun s x h => fireAt_keeps (h))

theorem promote_keeps {q s} (h : Keeps q s) : Keeps q (promote s) := by
  unfold promote
  lift_lets
  intro u1
  have h1 : Keeps q u1 := promoteArmed_keeps (h)
  clear_value u1
  intro u2
  intro u3
  with_reducible exact Keeps.mk (h1)

theorem publish_keeps {q s} {x0 x1 x2} (h : Keeps q s) : Keeps q (publish x0 x1 x2 s) := by
  unfold publish
  with_reducible exact bhTicks_keeps (fireCrossings_keeps (trigInTicks_keeps (trigOutTicks_keeps (updateIntx_keeps (promote_keeps (ppsTick_keeps (h)))))))

theorem kilnTick_keeps {q s} (h : Keeps q s) : Keeps q (kilnTick s) := by
  unfold kilnTick
  lift_lets
  intro u1
  have h1 : Keeps q u1 := gristEnd_keeps (ppsFlush_keeps (h))
  clear_value u1
  with_reducible exact rollSecond_keeps (takeIncrement_keeps (publish_keeps (applyStep_keeps (accumulate_keeps (openTick_keeps (h1))))))

theorem setIncrement_keeps {q s} {x0} (h : Keeps q s) : Keeps q (setIncrement x0 s) := by
  dsimp only [setIncrement]
  with_reducible exact putObj_keeps (Keeps.mk h)

theorem setClamped_keeps {q s} {x0} (h : Keeps q s) : Keeps q (setClamped x0 s) := by
  unfold setClamped
  with_reducible exact Keeps.ite (setSticky_keeps (setIncrement_keeps (h))) (Keeps.ite (setSticky_keeps (setIncrement_keeps (h))) (setIncrement_keeps (h)))

theorem servoAdjust_keeps {q s} (h : Keeps q s) : Keeps q (servoAdjust s) := by
  unfold servoAdjust
  with_reducible exact setClamped_keeps (Keeps.mk (h))

theorem servoToward_keeps {q s} {x0} (h : Keeps q s) : Keeps q (servoToward x0 s) := by
  unfold servoToward
  lift_lets
  intro u1
  intro u2
  with_reducible exact setClamped_keeps (Keeps.mk (h))

theorem slew_keeps {q s} {x0} (h : Keeps q s) : Keeps q (slew x0 s) := by
  unfold slew
  with_reducible exact setSticky_keeps (setIncrement_keeps (h))

theorem addStep_keeps {q s} {x0} (h : Keeps q s) : Keeps q (addStep x0 s) := by
  dsimp only [addStep]
  with_reducible exact Keeps.mk h

theorem setTime_keeps {q s} {x0} (h : Keeps q s) : Keeps q (setTime x0 s) := by
  dsimp only [setTime]
  with_reducible exact Keeps.mk h

theorem gainLock_keeps {q s} (h : Keeps q s) : Keeps q (gainLock s) := by
  dsimp only [gainLock]
  with_reducible exact Keeps.ite h (fire_keeps (putObj_keeps h))

theorem loseLock_keeps {q s} (h : Keeps q s) : Keeps q (loseLock s) := by
  dsimp only [loseLock]
  with_reducible exact Keeps.ite (fire_keeps (setSticky_keeps (putObj_keeps h))) h

theorem servoUpdate_keeps {q s} {x0} (h : Keeps q s) : Keeps q (servoUpdate x0 s) := by
  dsimp only [servoUpdate]
  with_reducible exact Keeps.ite (addStep_keeps (Keeps.ite (Keeps.ite (gainLock_keeps (Keeps.mk (putObj_keeps h))) (Keeps.mk (putObj_keeps h))) (Keeps.ite (loseLock_keeps (Keeps.mk (putObj_keeps h))) (Keeps.mk (putObj_keeps h))))) (servoAdjust_keeps (Keeps.ite (Keeps.ite (gainLock_keeps (Keeps.mk (putObj_keeps h))) (Keeps.mk (putObj_keeps h))) (Keeps.ite (loseLock_keeps (Keeps.mk (putObj_keeps h))) (Keeps.mk (putObj_keeps h)))))

theorem setSource_keeps {q s} {x0} (h : Keeps q s) : Keeps q (setSource x0 s) := by
  unfold setSource
  lift_lets
  intro u1
  intro u2
  have h2 : Keeps q u2 := loseLock_keeps (putObj_keeps (Keeps.mk (h)))
  clear_value u2
  with_reducible exact Keeps.ite (h) (Keeps.ite (gainLock_keeps (h2)) (h2))

theorem setBhLocked_keeps {q s} {x0} (h : Keeps q s) : Keeps q (setBhLocked x0 s) := by
  unfold setBhLocked
  lift_lets
  intro u1
  intro u2
  have h2 : Keeps q u2 := fire_keeps (putObj_keeps (Keeps.mk (h)))
  clear_value u2
  with_reducible exact Keeps.ite (h) (Keeps.ite (Keeps.ite (gainLock_keeps (h2)) (loseLock_keeps (h2))) (h2))

theorem topologyFault_keeps {q s} {x0} (h : Keeps q s) : Keeps q (topologyFault x0 s) := by
  dsimp only [topologyFault]
  with_reducible exact recordFault_keeps (fire_keeps (putObj_keeps h))

theorem refuseLink_keeps {q s} {x0} (h : Keeps q s) : Keeps q (refuseLink x0 s) := by
  unfold refuseLink
  lift_lets
  intro u1
  with_reducible exact setBhLocked_keeps (topologyFault_keeps (Keeps.mk (h)))

theorem takeBeacon_keeps {q s} {x0 x1} (h : Keeps q s) : Keeps q (takeBeacon x0 x1 s) := by
  unfold takeBeacon
  lift_lets
  intro u1
  with_reducible exact putObj_keeps (Keeps.mk (h))

theorem takeOffset_keeps {q s} {x0} (h : Keeps q s) : Keeps q (takeOffset x0 s) := by
  unfold takeOffset
  lift_lets
  intro u1
  intro u2
  intro u3
  intro u4
  have h4 : Keeps q u4 := Keeps.mk (h)
  clear_value u4
  intro u5
  have h5 : Keeps q u5 := putObj_keeps (h4)
  clear_value u5
  with_reducible exact Keeps.ite (setBhLocked_keeps (h5)) (Keeps.ite (setBhLocked_keeps (h5)) (h5))

theorem follow_keeps {q s} {x0} (h : Keeps q s) : Keeps q (follow x0 s) := by
  unfold follow
  lift_lets
  intro u1
  have h1 : Keeps q u1 := putObj_keeps (h)
  clear_value u1
  intro u2
  with_reducible exact Keeps.ite (addStep_keeps (Keeps.mk (h1))) (Keeps.ite (Keeps.mk (h1)) (Keeps.ite (slew_keeps (Keeps.mk (h1))) (Keeps.ite (Keeps.mk (h1)) (servoToward_keeps (Keeps.mk (h1))))))

theorem beacon_keeps {q s} {x0 x1 x2} (h : Keeps q s) : Keeps q (beacon x0 x1 x2 s) := by
  unfold beacon
  lift_lets
  intro u1
  intro u2
  intro u3
  have h3 : Keeps q u3 := takeOffset_keeps (takeBeacon_keeps (h))
  clear_value u3
  with_reducible exact Keeps.ite (h) (Keeps.ite (refuseLink_keeps (h)) (Keeps.ite (follow_keeps (h3)) (h3)))

theorem probeReply_keeps {q s} {x0 x1 x2 x3} (h : Keeps q s) : Keeps q (probeReply x0 x1 x2 x3 s) := by
  dsimp only [probeReply]
  split
  · with_reducible exact h
  · with_reducible exact Keeps.ite (Keeps.mk h) (putObj_keeps (Keeps.mk h))

theorem announceOn_keeps {q s} {x0 x1} (h : Keeps q s) : Keeps q (announceOn x0 x1 s) := by
  dsimp only [announceOn]
  with_reducible exact Keeps.ite (Keeps.ite (Keeps.mk h) (Keeps.mk h)) (Keeps.ite (fire_keeps (setSticky_keeps (putObj_keeps (Keeps.ite (Keeps.mk h) (Keeps.mk h))))) (putObj_keeps (Keeps.ite (Keeps.mk h) (Keeps.mk h))))

theorem announceRoll_keeps {q s} (h : Keeps q s) : Keeps q (announceRoll s) := by
  unfold announceRoll
  lift_lets
  intro u1
  with_reducible exact Keeps.mk (h)

theorem takeSnapshot_keeps {q s} {x0} (h : Keeps q s) : Keeps q (takeSnapshot x0 s) := by
  dsimp only [takeSnapshot]
  with_reducible exact fire_keeps (setSticky_keeps (putObj_keeps (putObj_keeps (Keeps.mk h))))

theorem evalSnapshot_keeps {q s} (h : Keeps q s) : Keeps q (evalSnapshot s) := by
  dsimp only [evalSnapshot]
  with_reducible exact Keeps.ite (takeSnapshot_keeps h) (Keeps.ite (takeSnapshot_keeps h) h)

theorem armSnapshot_keeps {q s} {x0} (h : Keeps q s) : Keeps q (armSnapshot x0 s) := by
  dsimp only [armSnapshot]
  with_reducible refine putObj_keeps ?_
  with_reducible refine Keeps.mk ?_
  split
  · with_reducible exact Keeps.ite (evalSnapshot_keeps h) h
  · with_reducible exact h

theorem execTkLatch_keeps {q s} {x0} (h : Keeps q s) : Answers (Keeps q) (execTkLatch x0 s) := by
  unfold execTkLatch
  lift_lets
  intro u1
  intro u2
  have h2 : Keeps q u2 := barAccess_keeps (h)
  clear_value u2
  intro u3
  with_reducible refine Keeps.answers_ite ?_ ?_
  · with_reducible refine Keeps.answers ?_
    with_reducible exact barRefused_keeps (h)
  · with_reducible refine Keeps.answers ?_
    with_reducible exact Keeps.mk (h2)

theorem execTimeCompare_keeps {q s} {x0} (h : Keeps q s) : Answers (Keeps q) (execTimeCompare x0 s) := by
  dsimp only [execTimeCompare]
  with_reducible exact Keeps.answers (evalCompare_keeps h)

theorem execSnapshot_keeps {q s} (h : Keeps q s) : Answers (Keeps q) (execSnapshot s) := by
  dsimp only [execSnapshot]
  with_reducible exact Keeps.answers (evalSnapshot_keeps h)

theorem execHoldoverLimit_keeps {q s} (h : Keeps q s) : Answers (Keeps q) (execHoldoverLimit s) := by
  unfold execHoldoverLimit
  lift_lets
  intro u1
  with_reducible refine Keeps.answers ?_
  with_reducible exact loseLock_keeps (Keeps.mk (h))

theorem execPpsOutPulse_keeps {q s} (h : Keeps q s) : Answers (Keeps q) (execPpsOutPulse s) := by
  unfold execPpsOutPulse
  with_reducible refine Keeps.answers ?_
  with_reducible exact ppsFlush_keeps (h)

theorem execPpsOutPulseEnd_keeps {q s} (h : Keeps q s) : Answers (Keeps q) (execPpsOutPulseEnd s) := by
  dsimp only [execPpsOutPulseEnd]
  with_reducible exact Keeps.answers_ite (Keeps.answers (Keeps.ite (emit_keeps (Keeps.mk h)) (Keeps.mk h))) (Keeps.answers h)

theorem execPpsInEdge_keeps {q s} {x0 x1} (h : Keeps q s) : Answers (Keeps q) (execPpsInEdge x0 x1 s) := by
  unfold execPpsInEdge
  lift_lets
  intro u1
  intro u2
  intro u3
  intro u4
  have h4 : Keeps q u4 := fireStamped_keeps (putObj_keeps (h))
  clear_value u4
  intro u5
  intro u6
  with_reducible refine Keeps.answers_ite ?_ ?_
  · with_reducible refine Keeps.answers ?_
    with_reducible exact h
  · with_reducible refine Keeps.answers_ite ?_ ?_
    · with_reducible refine Keeps.answers ?_
      with_reducible exact bump_keeps (h4)
    · with_reducible refine Keeps.answers ?_
      with_reducible exact Keeps.ite (servoUpdate_keeps (h4)) (h4)

theorem execPpsInMissing_keeps {q s} (h : Keeps q s) : Answers (Keeps q) (execPpsInMissing s) := by
  dsimp only [execPpsInMissing]
  with_reducible exact Keeps.answers_ite (Keeps.answers h) (Keeps.answers (fire_keeps (setSticky_keeps h)))

theorem beaconTo_keeps {q s} {x0 x1} (h : Keeps q s) : Keeps q (beaconTo x0 x1 s) := by
  unfold beaconTo
  with_reducible exact originateBh_keeps (laneNow_keeps h)

theorem execBeaconSend_keeps {q s} (h : Keeps q s) : Answers (Keeps q) (execBeaconSend s) := by
  unfold execBeaconSend
  lift_lets
  intro u1
  intro u2
  intro u3
  with_reducible refine Keeps.answers_ite ?_ ?_
  · with_reducible refine Keeps.answers ?_
    with_reducible exact h
  · with_reducible refine Keeps.answers ?_
    with_reducible exact Keeps.foldl (h) (fun s x h => beaconTo_keeps (h))

theorem execProbeSend_keeps {q s} {x0} (h : Keeps q s) : Answers (Keeps q) (execProbeSend x0 s) := by
  dsimp only [execProbeSend]
  with_reducible exact Keeps.answers_ite (Keeps.answers (sendCascade_keeps (Keeps.mk h))) (Keeps.answers h)

theorem execProbe_keeps {q s} {x0 x1 x2} (h : Keeps q s) : Answers (Keeps q) (execProbe x0 x1 x2 s) := by
  unfold execProbe
  with_reducible refine Keeps.answers_ite ?_ ?_
  · with_reducible refine Keeps.answers ?_
    with_reducible exact originateBh_keeps (bump_keeps (h))
  · with_reducible refine Keeps.answers ?_
    with_reducible exact h

theorem execProbeReply_keeps {q s} {x0 x1 x2 x3} (h : Keeps q s) : Answers (Keeps q) (execProbeReply x0 x1 x2 x3 s) := by
  unfold execProbeReply
  with_reducible refine Keeps.answers_ite ?_ ?_
  · with_reducible refine Keeps.answers ?_
    with_reducible exact probeReply_keeps (bump_keeps (h))
  · with_reducible refine Keeps.answers ?_
    with_reducible exact h

theorem announceUp_keeps {q s} {x0} (h : Keeps q s) : Keeps q (announceUp x0 s) := by
  unfold announceUp
  split
  · with_reducible exact sendCascade_keeps (h)
  · with_reducible exact h

theorem announceForward_keeps {q s} {x0 x1 x2 x3} (h : Keeps q s) : Keeps q (announceForward x0 x1 x2 x3 s) := by
  unfold announceForward
  split
  · with_reducible exact queueBh_keeps (h)
  · with_reducible exact h

theorem execAddressAnnounce_keeps {q s} {x0} (h : Keeps q s) : Answers (Keeps q) (execAddressAnnounce x0 s) := by
  unfold execAddressAnnounce
  split
  · with_reducible refine Keeps.answers_ite ?_ ?_
    · with_reducible refine Keeps.answers ?_
      with_reducible exact h
    · with_reducible refine Keeps.answers ?_
      with_reducible exact announceUp_keeps (announceOn_keeps (announceRoll_keeps (h)))
  · lift_lets
    intro u1
    with_reducible refine Keeps.answers_ite ?_ ?_
    · with_reducible refine Keeps.answers ?_
      with_reducible exact announceForward_keeps (Keeps.foldl (bump_keeps (h)) (fun s x h => announceOn_keeps (h)))
    · with_reducible refine Keeps.answers ?_
      with_reducible exact h

end Sys2Proof.Machine
end

