-- ==== Sys2Proof/Laws/KeepsQueues.lean ====
section
/-! SUPPORT. What Queues.lean defines keeps soundness and the queue. -/

namespace Sys2Proof.Machine

open Sys2Proof

theorem hostWrite_keeps {q s} {x0 x1} (h : Keeps q s) : Keeps q (hostWrite x0 x1 s) := by
  dsimp only [hostWrite]
  with_reducible exact emitAll_keeps h

theorem putCq_keeps {q s} {x0 x1} (h : Keeps q s) : Keeps q (putCq x0 x1 s) := by
  dsimp only [putCq]
  with_reducible exact Keeps.mk h

theorem putRing_keeps {q s} {x0 x1} (h : Keeps q s) : Keeps q (putRing x0 x1 s) := by
  dsimp only [putRing]
  with_reducible exact Keeps.mk h

theorem writeEntry_keeps {q s} {x0 x1} (h : Keeps q s) : Keeps q (writeEntry x0 x1 s) := by
  dsimp only [writeEntry]
  with_reducible exact fire_keeps (putCq_keeps (emit_keeps h))

theorem lostNotice_keeps {q s} {x0 x1 x2 x3 x4 x5} (h : Keeps q s) : Keeps q (lostNotice x0 x1 x2 x3 x4 x5 s) := by
  dsimp only [lostNotice]
  with_reducible exact Keeps.ite h (Keeps.ite (writeEntry_keeps h) (bump_keeps h))

end Sys2Proof.Machine
end

