-- ==== Sys2Proof/Laws/KeepsCasks.lean ====
section
/-! SUPPORT. What Casks.lean defines keeps soundness and the queue. -/

namespace Sys2Proof.Machine

open Sys2Proof

theorem writePerformed_keeps {q s} {x0 x1} (h : Keeps q s) : Keeps q (writePerformed x0 x1 s) := by
  dsimp only [writePerformed]
  with_reducible exact Keeps.ite h (writeMem_keeps (Keeps.mk h))

theorem putCask_keeps {q s} {x0 x1} (h : Keeps q s) : Keeps q (putCask x0 x1 s) := by
  dsimp only [putCask]
  with_reducible exact Keeps.mk h

theorem putFlow_keeps {q s} {x0 x1} (h : Keeps q s) : Keeps q (putFlow x0 x1 s) := by
  dsimp only [putFlow]
  with_reducible exact Keeps.mk h

theorem updateGlobal_keeps {q s} (h : Keeps q s) : Keeps q (updateGlobal s) := by
  dsimp only [updateGlobal]
  with_reducible exact Keeps.ite (fire_keeps (setSticky_keeps (Keeps.mk h))) (Keeps.ite (Keeps.mk h) (Keeps.mk h))

theorem updateFlowLevel_keeps {q s} {x0} (h : Keeps q s) : Keeps q (updateFlowLevel x0 s) := by
  dsimp only [updateFlowLevel]
  with_reducible exact Keeps.ite (fire_keeps (setSticky_keeps (putFlow_keeps h))) (Keeps.ite (putFlow_keeps h) (putFlow_keeps h))

theorem updateRing_keeps {q s} {x0} (h : Keeps q s) : Keeps q (updateRing x0 s) := by
  dsimp only [updateRing]
  with_reducible exact Keeps.ite (fire_keeps (setSticky_keeps (putRing_keeps h))) (Keeps.ite (putRing_keeps h) h)

theorem updateLevels_keeps {q s} {x0 x1} (h : Keeps q s) : Keeps q (updateLevels x0 x1 s) := by
  dsimp only [updateLevels]
  with_reducible exact updateRing_keeps (updateFlowLevel_keeps (updateGlobal_keeps h))

theorem showReleases_keeps {q s} (h : Keeps q s) : Keeps q (showReleases s) := by
  unfold showReleases
  lift_lets
  intro u1
  intro u2
  with_reducible exact Keeps.ite (h) (Keeps.foldl (updateGlobal_keeps (Keeps.mk (h))) (fun s x h => updateFlowLevel_keeps (h)))

theorem purgeStamps_keeps {q s} {x0} (h : Keeps q s) : Keeps q (purgeStamps x0 s) := by
  unfold purgeStamps
  lift_lets
  intro u1
  split
  · with_reducible exact h
  · lift_lets
    intro u2
    intro u3
    with_reducible exact addObj_keeps (Keeps.mk (h))

theorem countLost_keeps {q s} {x0 x1 x2 x3 x4 x5} (h : Keeps q s) : Keeps q (countLost x0 x1 x2 x3 x4 x5 s) := by
  unfold countLost
  lift_lets
  intro u1
  have h1 : Keeps q u1 := bump_keeps (bump_keeps (h))
  clear_value u1
  with_reducible exact purgeStamps_keeps (lostNotice_keeps (fire_keeps (h1)))

theorem releaseCask_keeps {q s} {x0} (h : Keeps q s) : Keeps q (releaseCask x0 s) := by
  unfold releaseCask
  lift_lets
  intro u1
  split
  · with_reducible exact h
  · lift_lets
    intro u2
    intro u3
    have h3 : Keeps q u3 := Keeps.mk (h)
    clear_value u3
    with_reducible exact updateRing_keeps (putCask_keeps (h3))

theorem loseCask_keeps {q s} {x0 x1} (h : Keeps q s) : Keeps q (loseCask x0 x1 s) := by
  dsimp only [loseCask]
  split
  · with_reducible exact h
  · split
    · with_reducible exact countLost_keeps (releaseCask_keeps h)
    · with_reducible exact releaseCask_keeps h

theorem loseCasks_keeps {q s} {x0 x1} (h : Keeps q s) : Keeps q (loseCasks x0 x1 s) := by
  induction x1 generalizing s with
  | nil => exact h
  | cons b t ih =>
    simp only [loseCasks]
    exact ih (loseCask_keeps h)

theorem loseAllCasks_keeps {q s} {x0} (h : Keeps q s) : Keeps q (loseAllCasks x0 s) := by
  dsimp only [loseAllCasks]
  with_reducible exact loseCasks_keeps h

theorem reserveCask_keeps {q s} {x0 x1 x2 x3} (h : Keeps q s) : Keeps q (reserveCask x0 x1 x2 x3 s).2 := by
  dsimp only [reserveCask]
  with_reducible exact updateLevels_keeps (putCask_keeps (takeChoice_keeps h))

theorem touchPage_keeps {q s} {x0 x1} (h : Keeps q s) : Keeps q (touchPage x0 x1 s).2 := by
  dsimp only [touchPage]
  split
  · with_reducible exact h
  · split
    · with_reducible exact h
    · with_reducible exact putCask_keeps (takeChoice_keeps h)

theorem writeCask_keeps {q s} {x0 x1 x2} (h : Keeps q s) : Keeps q (writeCask x0 x1 x2 s) := by
  induction x2 generalizing x1 s with
  | nil => exact h
  | cons b t ih =>
    simp only [writeCask]
    split
    · exact h
    · exact ih (writePerformed_keeps (touchPage_keeps h))

theorem setCaskState_keeps {q s} {x0 x1} (h : Keeps q s) : Keeps q (setCaskState x0 x1 s) := by
  dsimp only [setCaskState]
  split
  · with_reducible exact h
  · with_reducible exact updateRing_keeps (putCask_keeps h)

theorem putFrame_keeps {q s} {x0} (h : Keeps q s) : Keeps q (putFrame x0 s) := by
  unfold putFrame
  lift_lets
  intro u1
  with_reducible exact Keeps.mk (h)

theorem closeFrame_keeps {q s} {x0 x1} (h : Keeps q s) : Keeps q (closeFrame x0 x1 s) := by
  unfold closeFrame
  split
  · with_reducible exact h
  · with_reducible exact Keeps.ite (loseCask_keeps (h)) (setCaskState_keeps (putFrame_keeps (h)))

theorem closeAll_keeps {q s} {x0 x1} (h : Keeps q s) : Keeps q (closeAll x0 x1 s) := by
  induction x1 generalizing x0 s
  · rw [closeAll]
    with_reducible exact h
  · rename_i a t ih
    rw [closeAll]
    with_reducible exact ih (closeFrame_keeps (h))

theorem stopFlow_keeps {q s} {x0} (h : Keeps q s) : Keeps q (stopFlow x0 s) := by
  unfold stopFlow
  with_reducible exact closeAll_keeps (h)

theorem stopReceiving_keeps {q s} (h : Keeps q s) : Keeps q (stopReceiving s) := by
  unfold stopReceiving
  with_reducible exact closeAll_keeps (h)

theorem stopPort_keeps {q s} {x0} (h : Keeps q s) : Keeps q (stopPort x0 s) := by
  unfold stopPort
  with_reducible exact closeAll_keeps (h)

theorem invalidateSlot_keeps {q s} {x0} (h : Keeps q s) : Keeps q (invalidateSlot x0 s) := by
  dsimp only [invalidateSlot]
  with_reducible exact Keeps.foldl h (fun s x h => Keeps.ite (Keeps.mk (bump_keeps h)) (loseCask_keeps (bump_keeps h)))

theorem execCaskRelease_keeps {q s} {x0 x1} (h : Keeps q s) : Answers (Keeps q) (execCaskRelease x0 x1 s) := by
  dsimp only [execCaskRelease]
  split
  · with_reducible exact Keeps.answers_ite (Keeps.answers h) (Keeps.answers_ite (Keeps.answers (releaseCask_keeps h)) (Keeps.answers (loseCask_keeps h)))
  · with_reducible exact Keeps.answers h

end Sys2Proof.Machine
end

