-- ==== Sys2Proof/Laws/KeepsHydroAlign.lean ====
section
/-! SUPPORT. What HydroAlign.lean defines keeps soundness and the queue. -/

namespace Sys2Proof.Machine

open Sys2Proof

theorem hydroOpen_keeps {q s} {x0 x1 x2 x3 x4} (h : Keeps q s) : Keeps q (hydroOpen x0 x1 x2 x3 x4 s).2 := by
  unfold hydroOpen
  lift_lets
  intro u1
  intro u2
  intro u3
  intro u4
  have h4 : Keeps q u4.2 := Keeps.ite_snd (h) (takeChoice_keeps (h))
  clear_value u4
  intro u5
  with_reducible exact Keeps.ite_snd (h) (putFlow_keeps (h4))

theorem restartAlign_keeps {q s} {x0} (h : Keeps q s) : Keeps q (restartAlign x0 s) := by
  dsimp only [restartAlign]
  with_reducible exact Keeps.mk h

end Sys2Proof.Machine
end

