-- ==== Sys2Proof/Laws/KeepsHydro.lean ====
section
/-! SUPPORT. What Hydro.lean defines keeps soundness and the queue. -/

namespace Sys2Proof.Machine

open Sys2Proof

theorem putHydro_keeps {q s} {x0 x1} (h : Keeps q s) : Keeps q (putHydro x0 x1 s) := by
  dsimp only [putHydro]
  with_reducible exact putFrame_keeps h

theorem spoilReads_keeps {q s} {x0} (h : Keeps q s) : Keeps q (spoilReads x0 s) := by
  unfold spoilReads
  lift_lets
  intro u1
  with_reducible exact Keeps.mk (h)

theorem goldenUnfilled_keeps {q s} {x0 x1} (h : Keeps q s) : Keeps q (goldenUnfilled s x0 x1).2 := by
  dsimp only [goldenUnfilled]
  exact Keeps.ite_snd (takeChoice_keeps (x0 := 2) h) h

theorem fileRecord_keeps {q s} {x0 x1} (h : Keeps q s) : Keeps q (fileRecord x0 x1 s) := by
  dsimp only [fileRecord]
  with_reducible refine Keeps.ite ?_ ?_
  · with_reducible refine fire_keeps ?_
    with_reducible refine setSticky_keeps ?_
    with_reducible refine bump_keeps ?_
    with_reducible refine Keeps.ite ?_ ?_
    · with_reducible refine bump_keeps ?_
      with_reducible refine Keeps.ite ?_ ?_
      · with_reducible refine setSticky_keeps ?_
        with_reducible refine bump_keeps ?_
        split
        · with_reducible exact Keeps.ite (setSticky_keeps (bump_keeps (Keeps.ite (putBlob_keeps (Keeps.ite (putBlob_keeps (Keeps.ite (putBlob_keeps (putObj_keeps (Keeps.mk (putBlob_keeps h)))) (putObj_keeps (Keeps.mk (putBlob_keeps h))))) (Keeps.ite (putBlob_keeps (putObj_keeps (Keeps.mk (putBlob_keeps h)))) (putObj_keeps (Keeps.mk (putBlob_keeps h)))))) (Keeps.ite (putBlob_keeps (Keeps.ite (putBlob_keeps (putObj_keeps (Keeps.mk (putBlob_keeps h)))) (putObj_keeps (Keeps.mk (putBlob_keeps h))))) (Keeps.ite (putBlob_keeps (putObj_keeps (Keeps.mk (putBlob_keeps h)))) (putObj_keeps (Keeps.mk (putBlob_keeps h)))))))) (Keeps.ite (putBlob_keeps (Keeps.ite (putBlob_keeps (Keeps.ite (putBlob_keeps (putObj_keeps (Keeps.mk (putBlob_keeps h)))) (putObj_keeps (Keeps.mk (putBlob_keeps h))))) (Keeps.ite (putBlob_keeps (putObj_keeps (Keeps.mk (putBlob_keeps h)))) (putObj_keeps (Keeps.mk (putBlob_keeps h)))))) (Keeps.ite (putBlob_keeps (Keeps.ite (putBlob_keeps (putObj_keeps (Keeps.mk (putBlob_keeps h)))) (putObj_keeps (Keeps.mk (putBlob_keeps h))))) (Keeps.ite (putBlob_keeps (putObj_keeps (Keeps.mk (putBlob_keeps h)))) (putObj_keeps (Keeps.mk (putBlob_keeps h))))))
        · with_reducible exact Keeps.ite (putBlob_keeps (Keeps.ite (putBlob_keeps (Keeps.ite (putBlob_keeps (putObj_keeps (Keeps.mk (putBlob_keeps h)))) (putObj_keeps (Keeps.mk (putBlob_keeps h))))) (Keeps.ite (putBlob_keeps (putObj_keeps (Keeps.mk (putBlob_keeps h)))) (putObj_keeps (Keeps.mk (putBlob_keeps h)))))) (Keeps.ite (putBlob_keeps (Keeps.ite (putBlob_keeps (putObj_keeps (Keeps.mk (putBlob_keeps h)))) (putObj_keeps (Keeps.mk (putBlob_keeps h))))) (Keeps.ite (putBlob_keeps (putObj_keeps (Keeps.mk (putBlob_keeps h)))) (putObj_keeps (Keeps.mk (putBlob_keeps h)))))
      · split
        · with_reducible exact Keeps.ite (setSticky_keeps (bump_keeps (Keeps.ite (putBlob_keeps (Keeps.ite (putBlob_keeps (Keeps.ite (putBlob_keeps (putObj_keeps (Keeps.mk (putBlob_keeps h)))) (putObj_keeps (Keeps.mk (putBlob_keeps h))))) (Keeps.ite (putBlob_keeps (putObj_keeps (Keeps.mk (putBlob_keeps h)))) (putObj_keeps (Keeps.mk (putBlob_keeps h)))))) (Keeps.ite (putBlob_keeps (Keeps.ite (putBlob_keeps (putObj_keeps (Keeps.mk (putBlob_keeps h)))) (putObj_keeps (Keeps.mk (putBlob_keeps h))))) (Keeps.ite (putBlob_keeps (putObj_keeps (Keeps.mk (putBlob_keeps h)))) (putObj_keeps (Keeps.mk (putBlob_keeps h)))))))) (Keeps.ite (putBlob_keeps (Keeps.ite (putBlob_keeps (Keeps.ite (putBlob_keeps (putObj_keeps (Keeps.mk (putBlob_keeps h)))) (putObj_keeps (Keeps.mk (putBlob_keeps h))))) (Keeps.ite (putBlob_keeps (putObj_keeps (Keeps.mk (putBlob_keeps h)))) (putObj_keeps (Keeps.mk (putBlob_keeps h)))))) (Keeps.ite (putBlob_keeps (Keeps.ite (putBlob_keeps (putObj_keeps (Keeps.mk (putBlob_keeps h)))) (putObj_keeps (Keeps.mk (putBlob_keeps h))))) (Keeps.ite (putBlob_keeps (putObj_keeps (Keeps.mk (putBlob_keeps h)))) (putObj_keeps (Keeps.mk (putBlob_keeps h))))))
        · with_reducible exact Keeps.ite (putBlob_keeps (Keeps.ite (putBlob_keeps (Keeps.ite (putBlob_keeps (putObj_keeps (Keeps.mk (putBlob_keeps h)))) (putObj_keeps (Keeps.mk (putBlob_keeps h))))) (Keeps.ite (putBlob_keeps (putObj_keeps (Keeps.mk (putBlob_keeps h)))) (putObj_keeps (Keeps.mk (putBlob_keeps h)))))) (Keeps.ite (putBlob_keeps (Keeps.ite (putBlob_keeps (putObj_keeps (Keeps.mk (putBlob_keeps h)))) (putObj_keeps (Keeps.mk (putBlob_keeps h))))) (Keeps.ite (putBlob_keeps (putObj_keeps (Keeps.mk (putBlob_keeps h)))) (putObj_keeps (Keeps.mk (putBlob_keeps h)))))
    · with_reducible refine Keeps.ite ?_ ?_
      · with_reducible refine setSticky_keeps ?_
        with_reducible refine bump_keeps ?_
        split
        · with_reducible exact Keeps.ite (setSticky_keeps (bump_keeps (Keeps.ite (putBlob_keeps (Keeps.ite (putBlob_keeps (Keeps.ite (putBlob_keeps (putObj_keeps (Keeps.mk (putBlob_keeps h)))) (putObj_keeps (Keeps.mk (putBlob_keeps h))))) (Keeps.ite (putBlob_keeps (putObj_keeps (Keeps.mk (putBlob_keeps h)))) (putObj_keeps (Keeps.mk (putBlob_keeps h)))))) (Keeps.ite (putBlob_keeps (Keeps.ite (putBlob_keeps (putObj_keeps (Keeps.mk (putBlob_keeps h)))) (putObj_keeps (Keeps.mk (putBlob_keeps h))))) (Keeps.ite (putBlob_keeps (putObj_keeps (Keeps.mk (putBlob_keeps h)))) (putObj_keeps (Keeps.mk (putBlob_keeps h)))))))) (Keeps.ite (putBlob_keeps (Keeps.ite (putBlob_keeps (Keeps.ite (putBlob_keeps (putObj_keeps (Keeps.mk (putBlob_keeps h)))) (putObj_keeps (Keeps.mk (putBlob_keeps h))))) (Keeps.ite (putBlob_keeps (putObj_keeps (Keeps.mk (putBlob_keeps h)))) (putObj_keeps (Keeps.mk (putBlob_keeps h)))))) (Keeps.ite (putBlob_keeps (Keeps.ite (putBlob_keeps (putObj_keeps (Keeps.mk (putBlob_keeps h)))) (putObj_keeps (Keeps.mk (putBlob_keeps h))))) (Keeps.ite (putBlob_keeps (putObj_keeps (Keeps.mk (putBlob_keeps h)))) (putObj_keeps (Keeps.mk (putBlob_keeps h))))))
        · with_reducible exact Keeps.ite (putBlob_keeps (Keeps.ite (putBlob_keeps (Keeps.ite (putBlob_keeps (putObj_keeps (Keeps.mk (putBlob_keeps h)))) (putObj_keeps (Keeps.mk (putBlob_keeps h))))) (Keeps.ite (putBlob_keeps (putObj_keeps (Keeps.mk (putBlob_keeps h)))) (putObj_keeps (Keeps.mk (putBlob_keeps h)))))) (Keeps.ite (putBlob_keeps (Keeps.ite (putBlob_keeps (putObj_keeps (Keeps.mk (putBlob_keeps h)))) (putObj_keeps (Keeps.mk (putBlob_keeps h))))) (Keeps.ite (putBlob_keeps (putObj_keeps (Keeps.mk (putBlob_keeps h)))) (putObj_keeps (Keeps.mk (putBlob_keeps h)))))
      · split
        · with_reducible exact Keeps.ite (setSticky_keeps (bump_keeps (Keeps.ite (putBlob_keeps (Keeps.ite (putBlob_keeps (Keeps.ite (putBlob_keeps (putObj_keeps (Keeps.mk (putBlob_keeps h)))) (putObj_keeps (Keeps.mk (putBlob_keeps h))))) (Keeps.ite (putBlob_keeps (putObj_keeps (Keeps.mk (putBlob_keeps h)))) (putObj_keeps (Keeps.mk (putBlob_keeps h)))))) (Keeps.ite (putBlob_keeps (Keeps.ite (putBlob_keeps (putObj_keeps (Keeps.mk (putBlob_keeps h)))) (putObj_keeps (Keeps.mk (putBlob_keeps h))))) (Keeps.ite (putBlob_keeps (putObj_keeps (Keeps.mk (putBlob_keeps h)))) (putObj_keeps (Keeps.mk (putBlob_keeps h)))))))) (Keeps.ite (putBlob_keeps (Keeps.ite (putBlob_keeps (Keeps.ite (putBlob_keeps (putObj_keeps (Keeps.mk (putBlob_keeps h)))) (putObj_keeps (Keeps.mk (putBlob_keeps h))))) (Keeps.ite (putBlob_keeps (putObj_keeps (Keeps.mk (putBlob_keeps h)))) (putObj_keeps (Keeps.mk (putBlob_keeps h)))))) (Keeps.ite (putBlob_keeps (Keeps.ite (putBlob_keeps (putObj_keeps (Keeps.mk (putBlob_keeps h)))) (putObj_keeps (Keeps.mk (putBlob_keeps h))))) (Keeps.ite (putBlob_keeps (putObj_keeps (Keeps.mk (putBlob_keeps h)))) (putObj_keeps (Keeps.mk (putBlob_keeps h))))))
        · with_reducible exact Keeps.ite (putBlob_keeps (Keeps.ite (putBlob_keeps (Keeps.ite (putBlob_keeps (putObj_keeps (Keeps.mk (putBlob_keeps h)))) (putObj_keeps (Keeps.mk (putBlob_keeps h))))) (Keeps.ite (putBlob_keeps (putObj_keeps (Keeps.mk (putBlob_keeps h)))) (putObj_keeps (Keeps.mk (putBlob_keeps h)))))) (Keeps.ite (putBlob_keeps (Keeps.ite (putBlob_keeps (putObj_keeps (Keeps.mk (putBlob_keeps h)))) (putObj_keeps (Keeps.mk (putBlob_keeps h))))) (Keeps.ite (putBlob_keeps (putObj_keeps (Keeps.mk (putBlob_keeps h)))) (putObj_keeps (Keeps.mk (putBlob_keeps h)))))
  · with_reducible refine Keeps.ite ?_ ?_
    · with_reducible refine fire_keeps ?_
      with_reducible refine setSticky_keeps ?_
      with_reducible refine bump_keeps ?_
      with_reducible refine Keeps.ite ?_ ?_
      · with_reducible refine bump_keeps ?_
        with_reducible refine Keeps.ite ?_ ?_
        · with_reducible refine setSticky_keeps ?_
          with_reducible refine bump_keeps ?_
          split
          · with_reducible exact Keeps.ite (setSticky_keeps (bump_keeps (Keeps.ite (putBlob_keeps (Keeps.ite (putBlob_keeps (Keeps.ite (putBlob_keeps (putObj_keeps (Keeps.mk (putBlob_keeps h)))) (putObj_keeps (Keeps.mk (putBlob_keeps h))))) (Keeps.ite (putBlob_keeps (putObj_keeps (Keeps.mk (putBlob_keeps h)))) (putObj_keeps (Keeps.mk (putBlob_keeps h)))))) (Keeps.ite (putBlob_keeps (Keeps.ite (putBlob_keeps (putObj_keeps (Keeps.mk (putBlob_keeps h)))) (putObj_keeps (Keeps.mk (putBlob_keeps h))))) (Keeps.ite (putBlob_keeps (putObj_keeps (Keeps.mk (putBlob_keeps h)))) (putObj_keeps (Keeps.mk (putBlob_keeps h)))))))) (Keeps.ite (putBlob_keeps (Keeps.ite (putBlob_keeps (Keeps.ite (putBlob_keeps (putObj_keeps (Keeps.mk (putBlob_keeps h)))) (putObj_keeps (Keeps.mk (putBlob_keeps h))))) (Keeps.ite (putBlob_keeps (putObj_keeps (Keeps.mk (putBlob_keeps h)))) (putObj_keeps (Keeps.mk (putBlob_keeps h)))))) (Keeps.ite (putBlob_keeps (Keeps.ite (putBlob_keeps (putObj_keeps (Keeps.mk (putBlob_keeps h)))) (putObj_keeps (Keeps.mk (putBlob_keeps h))))) (Keeps.ite (putBlob_keeps (putObj_keeps (Keeps.mk (putBlob_keeps h)))) (putObj_keeps (Keeps.mk (putBlob_keeps h))))))
          · with_reducible exact Keeps.ite (putBlob_keeps (Keeps.ite (putBlob_keeps (Keeps.ite (putBlob_keeps (putObj_keeps (Keeps.mk (putBlob_keeps h)))) (putObj_keeps (Keeps.mk (putBlob_keeps h))))) (Keeps.ite (putBlob_keeps (putObj_keeps (Keeps.mk (putBlob_keeps h)))) (putObj_keeps (Keeps.mk (putBlob_keeps h)))))) (Keeps.ite (putBlob_keeps (Keeps.ite (putBlob_keeps (putObj_keeps (Keeps.mk (putBlob_keeps h)))) (putObj_keeps (Keeps.mk (putBlob_keeps h))))) (Keeps.ite (putBlob_keeps (putObj_keeps (Keeps.mk (putBlob_keeps h)))) (putObj_keeps (Keeps.mk (putBlob_keeps h)))))
        · split
          · with_reducible exact Keeps.ite (setSticky_keeps (bump_keeps (Keeps.ite (putBlob_keeps (Keeps.ite (putBlob_keeps (Keeps.ite (putBlob_keeps (putObj_keeps (Keeps.mk (putBlob_keeps h)))) (putObj_keeps (Keeps.mk (putBlob_keeps h))))) (Keeps.ite (putBlob_keeps (putObj_keeps (Keeps.mk (putBlob_keeps h)))) (putObj_keeps (Keeps.mk (putBlob_keeps h)))))) (Keeps.ite (putBlob_keeps (Keeps.ite (putBlob_keeps (putObj_keeps (Keeps.mk (putBlob_keeps h)))) (putObj_keeps (Keeps.mk (putBlob_keeps h))))) (Keeps.ite (putBlob_keeps (putObj_keeps (Keeps.mk (putBlob_keeps h)))) (putObj_keeps (Keeps.mk (putBlob_keeps h)))))))) (Keeps.ite (putBlob_keeps (Keeps.ite (putBlob_keeps (Keeps.ite (putBlob_keeps (putObj_keeps (Keeps.mk (putBlob_keeps h)))) (putObj_keeps (Keeps.mk (putBlob_keeps h))))) (Keeps.ite (putBlob_keeps (putObj_keeps (Keeps.mk (putBlob_keeps h)))) (putObj_keeps (Keeps.mk (putBlob_keeps h)))))) (Keeps.ite (putBlob_keeps (Keeps.ite (putBlob_keeps (putObj_keeps (Keeps.mk (putBlob_keeps h)))) (putObj_keeps (Keeps.mk (putBlob_keeps h))))) (Keeps.ite (putBlob_keeps (putObj_keeps (Keeps.mk (putBlob_keeps h)))) (putObj_keeps (Keeps.mk (putBlob_keeps h))))))
          · with_reducible exact Keeps.ite (putBlob_keeps (Keeps.ite (putBlob_keeps (Keeps.ite (putBlob_keeps (putObj_keeps (Keeps.mk (putBlob_keeps h)))) (putObj_keeps (Keeps.mk (putBlob_keeps h))))) (Keeps.ite (putBlob_keeps (putObj_keeps (Keeps.mk (putBlob_keeps h)))) (putObj_keeps (Keeps.mk (putBlob_keeps h)))))) (Keeps.ite (putBlob_keeps (Keeps.ite (putBlob_keeps (putObj_keeps (Keeps.mk (putBlob_keeps h)))) (putObj_keeps (Keeps.mk (putBlob_keeps h))))) (Keeps.ite (putBlob_keeps (putObj_keeps (Keeps.mk (putBlob_keeps h)))) (putObj_keeps (Keeps.mk (putBlob_keeps h)))))
      · with_reducible refine Keeps.ite ?_ ?_
        · with_reducible refine setSticky_keeps ?_
          with_reducible refine bump_keeps ?_
          split
          · with_reducible exact Keeps.ite (setSticky_keeps (bump_keeps (Keeps.ite (putBlob_keeps (Keeps.ite (putBlob_keeps (Keeps.ite (putBlob_keeps (putObj_keeps (Keeps.mk (putBlob_keeps h)))) (putObj_keeps (Keeps.mk (putBlob_keeps h))))) (Keeps.ite (putBlob_keeps (putObj_keeps (Keeps.mk (putBlob_keeps h)))) (putObj_keeps (Keeps.mk (putBlob_keeps h)))))) (Keeps.ite (putBlob_keeps (Keeps.ite (putBlob_keeps (putObj_keeps (Keeps.mk (putBlob_keeps h)))) (putObj_keeps (Keeps.mk (putBlob_keeps h))))) (Keeps.ite (putBlob_keeps (putObj_keeps (Keeps.mk (putBlob_keeps h)))) (putObj_keeps (Keeps.mk (putBlob_keeps h)))))))) (Keeps.ite (putBlob_keeps (Keeps.ite (putBlob_keeps (Keeps.ite (putBlob_keeps (putObj_keeps (Keeps.mk (putBlob_keeps h)))) (putObj_keeps (Keeps.mk (putBlob_keeps h))))) (Keeps.ite (putBlob_keeps (putObj_keeps (Keeps.mk (putBlob_keeps h)))) (putObj_keeps (Keeps.mk (putBlob_keeps h)))))) (Keeps.ite (putBlob_keeps (Keeps.ite (putBlob_keeps (putObj_keeps (Keeps.mk (putBlob_keeps h)))) (putObj_keeps (Keeps.mk (putBlob_keeps h))))) (Keeps.ite (putBlob_keeps (putObj_keeps (Keeps.mk (putBlob_keeps h)))) (putObj_keeps (Keeps.mk (putBlob_keeps h))))))
          · with_reducible exact Keeps.ite (putBlob_keeps (Keeps.ite (putBlob_keeps (Keeps.ite (putBlob_keeps (putObj_keeps (Keeps.mk (putBlob_keeps h)))) (putObj_keeps (Keeps.mk (putBlob_keeps h))))) (Keeps.ite (putBlob_keeps (putObj_keeps (Keeps.mk (putBlob_keeps h)))) (putObj_keeps (Keeps.mk (putBlob_keeps h)))))) (Keeps.ite (putBlob_keeps (Keeps.ite (putBlob_keeps (putObj_keeps (Keeps.mk (putBlob_keeps h)))) (putObj_keeps (Keeps.mk (putBlob_keeps h))))) (Keeps.ite (putBlob_keeps (putObj_keeps (Keeps.mk (putBlob_keeps h)))) (putObj_keeps (Keeps.mk (putBlob_keeps h)))))
        · split
          · with_reducible exact Keeps.ite (setSticky_keeps (bump_keeps (Keeps.ite (putBlob_keeps (Keeps.ite (putBlob_keeps (Keeps.ite (putBlob_keeps (putObj_keeps (Keeps.mk (putBlob_keeps h)))) (putObj_keeps (Keeps.mk (putBlob_keeps h))))) (Keeps.ite (putBlob_keeps (putObj_keeps (Keeps.mk (putBlob_keeps h)))) (putObj_keeps (Keeps.mk (putBlob_keeps h)))))) (Keeps.ite (putBlob_keeps (Keeps.ite (putBlob_keeps (putObj_keeps (Keeps.mk (putBlob_keeps h)))) (putObj_keeps (Keeps.mk (putBlob_keeps h))))) (Keeps.ite (putBlob_keeps (putObj_keeps (Keeps.mk (putBlob_keeps h)))) (putObj_keeps (Keeps.mk (putBlob_keeps h)))))))) (Keeps.ite (putBlob_keeps (Keeps.ite (putBlob_keeps (Keeps.ite (putBlob_keeps (putObj_keeps (Keeps.mk (putBlob_keeps h)))) (putObj_keeps (Keeps.mk (putBlob_keeps h))))) (Keeps.ite (putBlob_keeps (putObj_keeps (Keeps.mk (putBlob_keeps h)))) (putObj_keeps (Keeps.mk (putBlob_keeps h)))))) (Keeps.ite (putBlob_keeps (Keeps.ite (putBlob_keeps (putObj_keeps (Keeps.mk (putBlob_keeps h)))) (putObj_keeps (Keeps.mk (putBlob_keeps h))))) (Keeps.ite (putBlob_keeps (putObj_keeps (Keeps.mk (putBlob_keeps h)))) (putObj_keeps (Keeps.mk (putBlob_keeps h))))))
          · with_reducible exact Keeps.ite (putBlob_keeps (Keeps.ite (putBlob_keeps (Keeps.ite (putBlob_keeps (putObj_keeps (Keeps.mk (putBlob_keeps h)))) (putObj_keeps (Keeps.mk (putBlob_keeps h))))) (Keeps.ite (putBlob_keeps (putObj_keeps (Keeps.mk (putBlob_keeps h)))) (putObj_keeps (Keeps.mk (putBlob_keeps h)))))) (Keeps.ite (putBlob_keeps (Keeps.ite (putBlob_keeps (putObj_keeps (Keeps.mk (putBlob_keeps h)))) (putObj_keeps (Keeps.mk (putBlob_keeps h))))) (Keeps.ite (putBlob_keeps (putObj_keeps (Keeps.mk (putBlob_keeps h)))) (putObj_keeps (Keeps.mk (putBlob_keeps h)))))
    · with_reducible refine Keeps.ite ?_ ?_
      · with_reducible refine bump_keeps ?_
        with_reducible refine Keeps.ite ?_ ?_
        · with_reducible refine setSticky_keeps ?_
          with_reducible refine bump_keeps ?_
          split
          · with_reducible exact Keeps.ite (setSticky_keeps (bump_keeps (Keeps.ite (putBlob_keeps (Keeps.ite (putBlob_keeps (Keeps.ite (putBlob_keeps (putObj_keeps (Keeps.mk (putBlob_keeps h)))) (putObj_keeps (Keeps.mk (putBlob_keeps h))))) (Keeps.ite (putBlob_keeps (putObj_keeps (Keeps.mk (putBlob_keeps h)))) (putObj_keeps (Keeps.mk (putBlob_keeps h)))))) (Keeps.ite (putBlob_keeps (Keeps.ite (putBlob_keeps (putObj_keeps (Keeps.mk (putBlob_keeps h)))) (putObj_keeps (Keeps.mk (putBlob_keeps h))))) (Keeps.ite (putBlob_keeps (putObj_keeps (Keeps.mk (putBlob_keeps h)))) (putObj_keeps (Keeps.mk (putBlob_keeps h)))))))) (Keeps.ite (putBlob_keeps (Keeps.ite (putBlob_keeps (Keeps.ite (putBlob_keeps (putObj_keeps (Keeps.mk (putBlob_keeps h)))) (putObj_keeps (Keeps.mk (putBlob_keeps h))))) (Keeps.ite (putBlob_keeps (putObj_keeps (Keeps.mk (putBlob_keeps h)))) (putObj_keeps (Keeps.mk (putBlob_keeps h)))))) (Keeps.ite (putBlob_keeps (Keeps.ite (putBlob_keeps (putObj_keeps (Keeps.mk (putBlob_keeps h)))) (putObj_keeps (Keeps.mk (putBlob_keeps h))))) (Keeps.ite (putBlob_keeps (putObj_keeps (Keeps.mk (putBlob_keeps h)))) (putObj_keeps (Keeps.mk (putBlob_keeps h))))))
          · with_reducible exact Keeps.ite (putBlob_keeps (Keeps.ite (putBlob_keeps (Keeps.ite (putBlob_keeps (putObj_keeps (Keeps.mk (putBlob_keeps h)))) (putObj_keeps (Keeps.mk (putBlob_keeps h))))) (Keeps.ite (putBlob_keeps (putObj_keeps (Keeps.mk (putBlob_keeps h)))) (putObj_keeps (Keeps.mk (putBlob_keeps h)))))) (Keeps.ite (putBlob_keeps (Keeps.ite (putBlob_keeps (putObj_keeps (Keeps.mk (putBlob_keeps h)))) (putObj_keeps (Keeps.mk (putBlob_keeps h))))) (Keeps.ite (putBlob_keeps (putObj_keeps (Keeps.mk (putBlob_keeps h)))) (putObj_keeps (Keeps.mk (putBlob_keeps h)))))
        · split
          · with_reducible exact Keeps.ite (setSticky_keeps (bump_keeps (Keeps.ite (putBlob_keeps (Keeps.ite (putBlob_keeps (Keeps.ite (putBlob_keeps (putObj_keeps (Keeps.mk (putBlob_keeps h)))) (putObj_keeps (Keeps.mk (putBlob_keeps h))))) (Keeps.ite (putBlob_keeps (putObj_keeps (Keeps.mk (putBlob_keeps h)))) (putObj_keeps (Keeps.mk (putBlob_keeps h)))))) (Keeps.ite (putBlob_keeps (Keeps.ite (putBlob_keeps (putObj_keeps (Keeps.mk (putBlob_keeps h)))) (putObj_keeps (Keeps.mk (putBlob_keeps h))))) (Keeps.ite (putBlob_keeps (putObj_keeps (Keeps.mk (putBlob_keeps h)))) (putObj_keeps (Keeps.mk (putBlob_keeps h)))))))) (Keeps.ite (putBlob_keeps (Keeps.ite (putBlob_keeps (Keeps.ite (putBlob_keeps (putObj_keeps (Keeps.mk (putBlob_keeps h)))) (putObj_keeps (Keeps.mk (putBlob_keeps h))))) (Keeps.ite (putBlob_keeps (putObj_keeps (Keeps.mk (putBlob_keeps h)))) (putObj_keeps (Keeps.mk (putBlob_keeps h)))))) (Keeps.ite (putBlob_keeps (Keeps.ite (putBlob_keeps (putObj_keeps (Keeps.mk (putBlob_keeps h)))) (putObj_keeps (Keeps.mk (putBlob_keeps h))))) (Keeps.ite (putBlob_keeps (putObj_keeps (Keeps.mk (putBlob_keeps h)))) (putObj_keeps (Keeps.mk (putBlob_keeps h))))))
          · with_reducible exact Keeps.ite (putBlob_keeps (Keeps.ite (putBlob_keeps (Keeps.ite (putBlob_keeps (putObj_keeps (Keeps.mk (putBlob_keeps h)))) (putObj_keeps (Keeps.mk (putBlob_keeps h))))) (Keeps.ite (putBlob_keeps (putObj_keeps (Keeps.mk (putBlob_keeps h)))) (putObj_keeps (Keeps.mk (putBlob_keeps h)))))) (Keeps.ite (putBlob_keeps (Keeps.ite (putBlob_keeps (putObj_keeps (Keeps.mk (putBlob_keeps h)))) (putObj_keeps (Keeps.mk (putBlob_keeps h))))) (Keeps.ite (putBlob_keeps (putObj_keeps (Keeps.mk (putBlob_keeps h)))) (putObj_keeps (Keeps.mk (putBlob_keeps h)))))
      · with_reducible refine Keeps.ite ?_ ?_
        · with_reducible refine setSticky_keeps ?_
          with_reducible refine bump_keeps ?_
          split
          · with_reducible exact Keeps.ite (setSticky_keeps (bump_keeps (Keeps.ite (putBlob_keeps (Keeps.ite (putBlob_keeps (Keeps.ite (putBlob_keeps (putObj_keeps (Keeps.mk (putBlob_keeps h)))) (putObj_keeps (Keeps.mk (putBlob_keeps h))))) (Keeps.ite (putBlob_keeps (putObj_keeps (Keeps.mk (putBlob_keeps h)))) (putObj_keeps (Keeps.mk (putBlob_keeps h)))))) (Keeps.ite (putBlob_keeps (Keeps.ite (putBlob_keeps (putObj_keeps (Keeps.mk (putBlob_keeps h)))) (putObj_keeps (Keeps.mk (putBlob_keeps h))))) (Keeps.ite (putBlob_keeps (putObj_keeps (Keeps.mk (putBlob_keeps h)))) (putObj_keeps (Keeps.mk (putBlob_keeps h)))))))) (Keeps.ite (putBlob_keeps (Keeps.ite (putBlob_keeps (Keeps.ite (putBlob_keeps (putObj_keeps (Keeps.mk (putBlob_keeps h)))) (putObj_keeps (Keeps.mk (putBlob_keeps h))))) (Keeps.ite (putBlob_keeps (putObj_keeps (Keeps.mk (putBlob_keeps h)))) (putObj_keeps (Keeps.mk (putBlob_keeps h)))))) (Keeps.ite (putBlob_keeps (Keeps.ite (putBlob_keeps (putObj_keeps (Keeps.mk (putBlob_keeps h)))) (putObj_keeps (Keeps.mk (putBlob_keeps h))))) (Keeps.ite (putBlob_keeps (putObj_keeps (Keeps.mk (putBlob_keeps h)))) (putObj_keeps (Keeps.mk (putBlob_keeps h))))))
          · with_reducible exact Keeps.ite (putBlob_keeps (Keeps.ite (putBlob_keeps (Keeps.ite (putBlob_keeps (putObj_keeps (Keeps.mk (putBlob_keeps h)))) (putObj_keeps (Keeps.mk (putBlob_keeps h))))) (Keeps.ite (putBlob_keeps (putObj_keeps (Keeps.mk (putBlob_keeps h)))) (putObj_keeps (Keeps.mk (putBlob_keeps h)))))) (Keeps.ite (putBlob_keeps (Keeps.ite (putBlob_keeps (putObj_keeps (Keeps.mk (putBlob_keeps h)))) (putObj_keeps (Keeps.mk (putBlob_keeps h))))) (Keeps.ite (putBlob_keeps (putObj_keeps (Keeps.mk (putBlob_keeps h)))) (putObj_keeps (Keeps.mk (putBlob_keeps h)))))
        · split
          · with_reducible exact Keeps.ite (setSticky_keeps (bump_keeps (Keeps.ite (putBlob_keeps (Keeps.ite (putBlob_keeps (Keeps.ite (putBlob_keeps (putObj_keeps (Keeps.mk (putBlob_keeps h)))) (putObj_keeps (Keeps.mk (putBlob_keeps h))))) (Keeps.ite (putBlob_keeps (putObj_keeps (Keeps.mk (putBlob_keeps h)))) (putObj_keeps (Keeps.mk (putBlob_keeps h)))))) (Keeps.ite (putBlob_keeps (Keeps.ite (putBlob_keeps (putObj_keeps (Keeps.mk (putBlob_keeps h)))) (putObj_keeps (Keeps.mk (putBlob_keeps h))))) (Keeps.ite (putBlob_keeps (putObj_keeps (Keeps.mk (putBlob_keeps h)))) (putObj_keeps (Keeps.mk (putBlob_keeps h)))))))) (Keeps.ite (putBlob_keeps (Keeps.ite (putBlob_keeps (Keeps.ite (putBlob_keeps (putObj_keeps (Keeps.mk (putBlob_keeps h)))) (putObj_keeps (Keeps.mk (putBlob_keeps h))))) (Keeps.ite (putBlob_keeps (putObj_keeps (Keeps.mk (putBlob_keeps h)))) (putObj_keeps (Keeps.mk (putBlob_keeps h)))))) (Keeps.ite (putBlob_keeps (Keeps.ite (putBlob_keeps (putObj_keeps (Keeps.mk (putBlob_keeps h)))) (putObj_keeps (Keeps.mk (putBlob_keeps h))))) (Keeps.ite (putBlob_keeps (putObj_keeps (Keeps.mk (putBlob_keeps h)))) (putObj_keeps (Keeps.mk (putBlob_keeps h))))))
          · with_reducible exact Keeps.ite (putBlob_keeps (Keeps.ite (putBlob_keeps (Keeps.ite (putBlob_keeps (putObj_keeps (Keeps.mk (putBlob_keeps h)))) (putObj_keeps (Keeps.mk (putBlob_keeps h))))) (Keeps.ite (putBlob_keeps (putObj_keeps (Keeps.mk (putBlob_keeps h)))) (putObj_keeps (Keeps.mk (putBlob_keeps h)))))) (Keeps.ite (putBlob_keeps (Keeps.ite (putBlob_keeps (putObj_keeps (Keeps.mk (putBlob_keeps h)))) (putObj_keeps (Keeps.mk (putBlob_keeps h))))) (Keeps.ite (putBlob_keeps (putObj_keeps (Keeps.mk (putBlob_keeps h)))) (putObj_keeps (Keeps.mk (putBlob_keeps h)))))

theorem execHydroCompare_keeps {q s} {x0} (h : Keeps q s) : Answers (Keeps q) (execHydroCompare x0 s) := by
  dsimp only [execHydroCompare]
  split
  · with_reducible exact Keeps.answers h
  · split
    · with_reducible exact Keeps.answers h
    · with_reducible exact Keeps.answers_ite (Keeps.answers (putHydro_keeps h)) (Keeps.answers (putHydro_keeps h))

theorem execGoldenReadReturn_keeps {q s} {x0} (h : Keeps q s) : Answers (Keeps q) (execGoldenReadReturn x0 s) := by
  dsimp only [execGoldenReadReturn]
  split
  · with_reducible exact Keeps.answers h
  · split
    · with_reducible exact Keeps.answers h
    · with_reducible exact Keeps.answers_ite (Keeps.answers (putHydro_keeps (bump_keeps h))) (Keeps.answers_ite (Keeps.answers (putHydro_keeps (goldenUnfilled_keeps h))) (Keeps.answers (putHydro_keeps (goldenUnfilled_keeps h))))

theorem execGoldenDeadline_keeps {q s} {x0} (h : Keeps q s) : Answers (Keeps q) (execGoldenDeadline x0 s) := by
  dsimp only [execGoldenDeadline]
  split
  · with_reducible exact Keeps.answers h
  · split
    · with_reducible exact Keeps.answers h
    · with_reducible exact Keeps.answers (putHydro_keeps (bump_keeps h))

theorem execHydroClose_keeps {q s} {x0} (h : Keeps q s) : Answers (Keeps q) (execHydroClose x0 s) := by
  dsimp only [execHydroClose]
  split
  · with_reducible exact Keeps.answers h
  · with_reducible exact Keeps.answers (putHydro_keeps h)

theorem execSelftestDone_keeps {q s} {x0 x1} (h : Keeps q s) : Answers (Keeps q) (execSelftestDone x0 x1 s) := by
  dsimp only [execSelftestDone]
  with_reducible exact Keeps.answers_ite (Keeps.answers (putObj_keeps h)) (Keeps.answers h)

end Sys2Proof.Machine
end

