-- ==== Sys2Proof/Laws/KeepsCellar.lean ====
section
/-! SUPPORT. What Cellar.lean defines keeps soundness and the queue. -/

namespace Sys2Proof.Machine

open Sys2Proof

theorem setBoil_keeps {q s} {x0 x1 x2} (h : Keeps q s) : Keeps q (setBoil x0 x1 x2 s) := by
  dsimp only [setBoil]
  with_reducible exact Keeps.ite (bump_keeps (putObj_keeps h)) (Keeps.ite (putObj_keeps h) h)

theorem setDebt_keeps {q s} {x0 x1 x2} (h : Keeps q s) : Keeps q (setDebt x0 x1 x2 s) := by
  dsimp only [setDebt]
  with_reducible exact Keeps.ite (putObj_keeps (Keeps.mk h)) (Keeps.mk h)

theorem forceRefresh_keeps {q s} {x0} (h : Keeps q s) : Keeps q (forceRefresh x0 s) := by
  dsimp only [forceRefresh]
  with_reducible exact fire_keeps (setSticky_keeps (bump_keeps h))

theorem refreshDue_keeps {q s} {x0 x1} (h : Keeps q s) : Keeps q (refreshDue x0 x1 s) := by
  dsimp only [refreshDue]
  with_reducible exact Keeps.ite (Keeps.ite (forceRefresh_keeps h) (setDebt_keeps h)) (Keeps.ite (setDebt_keeps h) h)

theorem loseSlot_keeps {q s} {x0 x1} (h : Keeps q s) : Keeps q (loseSlot x0 x1 s) := by
  exact Keeps.mk_tabs h h.objs h.blobs (tabSorted_filter h.mem)

theorem assignSpare_keeps {q s} {x0 x1 x2} (h : Keeps q s) : Keeps q (assignSpare x0 x1 x2 s) := by
  dsimp only [assignSpare]
  with_reducible exact Keeps.ite (putObj_keeps (loseSlot_keeps (putObj_keeps (putObj_keeps (putObj_keeps h))))) (Keeps.ite (putObj_keeps (loseSlot_keeps (Keeps.mk (putObj_keeps (putObj_keeps (putObj_keeps h)))))) (putObj_keeps (putObj_keeps (putObj_keeps (putObj_keeps h)))))

theorem noteSpare_keeps {q s} {x0 x1} (h : Keeps q s) : Keeps q (noteSpare x0 x1 s) := by
  exact Keeps.mk_lists h (by rw [List.length_map]; exact h.retired) h.log

theorem pcLeaves_keeps {q s} {x0} (h : Keeps q s) : Keeps q (pcLeaves x0 s) := by
  unfold pcLeaves
  lift_lets
  intro u1
  intro u2
  intro u3
  have h3 : Keeps q u3 := putObj_keeps (putObj_keeps (putObj_keeps (h)))
  clear_value u3
  intro u4
  have h4 : Keeps q u4 := fire_keeps (setSticky_keeps (h3))
  clear_value u4
  intro u5
  have h5 : Keeps q u5 := Keeps.ite (invalidateSlot_keeps (h4)) (Keeps.ite (spoilReads_keeps (h4)) (h4))
  clear_value u5
  intro u6
  with_reducible refine Keeps.ite ?_ ?_
  · with_reducible exact putObj_keeps (h4)
  · split
    · with_reducible exact noteSpare_keeps (assignSpare_keeps (h5))
    · with_reducible exact Keeps.mk (h5)

theorem pcFault_keeps {q s} {x0 x1 x2} (h : Keeps q s) : Keeps q (pcFault x0 x1 x2 s) := by
  unfold pcFault
  lift_lets
  intro u1
  have h1 : Keeps q u1.1 := recordFault_keeps (h)
  clear_value u1
  with_reducible refine Keeps.ite ?_ ?_
  · with_reducible exact h
  · split
    · with_reducible exact h1
    · with_reducible exact pcLeaves_keeps (Keeps.ite (h1) (bump_keeps (h1)))
    · with_reducible exact bump_keeps (h1)

theorem cellarReinstate_keeps {q s} {x0 x1} (h : Keeps q s) : Keeps q (cellarReinstate x0 x1 s) := by
  dsimp only [cellarReinstate]
  with_reducible exact Keeps.ite (putObj_keeps (putObj_keeps (putObj_keeps (putObj_keeps (dropRetired_keeps h))))) h

theorem correctedReads_keeps {q s} {x0 x1} (h : Keeps q s) : Keeps q (correctedReads x0 x1 s) := by
  dsimp only [correctedReads]
  with_reducible exact Keeps.ite (fire_keeps (setSticky_keeps (Keeps.mk (addObj_keeps h)))) (Keeps.mk (addObj_keeps h))

theorem countRead_keeps {q s} {x0 x1} (h : Keeps q s) : Keeps q (countRead x0 x1 s) := by
  unfold countRead
  lift_lets
  intro u1
  split
  · dsimp -zeta only [u1]
    with_reducible exact Keeps.ite (h) (bump_keeps (h))
  · with_reducible refine Keeps.ite ?_ ?_
    · with_reducible refine bump_keeps ?_
      dsimp -zeta only [u1]
      with_reducible exact Keeps.ite (h) (bump_keeps (h))
    · with_reducible refine correctedReads_keeps ?_
      dsimp -zeta only [u1]
      with_reducible exact Keeps.ite (h) (bump_keeps (h))
  · with_reducible refine bump_keeps ?_
    dsimp -zeta only [u1]
    with_reducible exact Keeps.ite (h) (bump_keeps (h))

theorem badRead_keeps {q s} {x0 x1 x2 x3} (h : Keeps q s) : Keeps q (badRead x0 x1 x2 x3 s) := by
  dsimp only [badRead]
  with_reducible refine pcFault_keeps ?_
  with_reducible refine Keeps.ite ?_ ?_
  · split
    · with_reducible exact Keeps.mk (Keeps.ite (Keeps.mk (countRead_keeps (fire_keeps (setSticky_keeps (countRead_keeps h))))) (countRead_keeps (fire_keeps (setSticky_keeps (countRead_keeps h)))))
    · with_reducible exact Keeps.ite (Keeps.mk (countRead_keeps (fire_keeps (setSticky_keeps (countRead_keeps h))))) (countRead_keeps (fire_keeps (setSticky_keeps (countRead_keeps h))))
  · with_reducible exact countRead_keeps (fire_keeps (setSticky_keeps (countRead_keeps h)))

theorem repairRow_keeps {q s} {x0 x1 x2} (h : Keeps q s) : Keeps q (repairRow x0 x1 x2 s) := by
  dsimp only [repairRow]
  with_reducible exact Keeps.ite (pcFault_keeps (Keeps.mk h)) (setSticky_keeps (bump_keeps (putObj_keeps (Keeps.mk h))))

theorem startTest_keeps {q s} (h : Keeps q s) : Keeps q (startTest s) := by
  dsimp only [startTest]
  with_reducible exact Keeps.foldl (putObj_keeps (Keeps.mk h)) (fun s x h => putObj_keeps (Keeps.ite (loseSlot_keeps h) h))

theorem endTest_keeps {q s} {x0} (h : Keeps q s) : Keeps q (endTest x0 s) := by
  dsimp only [endTest]
  with_reducible exact putObj_keeps (Keeps.mk (Keeps.foldl (Keeps.foldl h (fun s x h => Keeps.ite (addObj_keeps h) h)) (fun s x h => putObj_keeps h)))

theorem execRefreshDue_keeps {q s} {x0 x1} (h : Keeps q s) : Answers (Keeps q) (execRefreshDue x0 x1 s) := by
  dsimp only [execRefreshDue]
  with_reducible exact Keeps.answers_ite (Keeps.answers (refreshDue_keeps h)) (Keeps.answers h)

theorem execForcedRefresh_keeps {q s} {x0 x1} (h : Keeps q s) : Answers (Keeps q) (execForcedRefresh x0 x1 s) := by
  dsimp only [execForcedRefresh]
  with_reducible exact Keeps.answers_ite (Keeps.answers (forceRefresh_keeps (setDebt_keeps h))) (Keeps.answers h)

theorem execRefreshRepayment_keeps {q s} {x0 x1} (h : Keeps q s) : Answers (Keeps q) (execRefreshRepayment x0 x1 s) := by
  dsimp only [execRefreshRepayment]
  with_reducible exact Keeps.answers_ite (Keeps.answers (setDebt_keeps h)) (Keeps.answers h)

theorem execCeThreshold_keeps {q s} {x0 x1} (h : Keeps q s) : Answers (Keeps q) (execCeThreshold x0 x1 s) := by
  dsimp only [execCeThreshold]
  with_reducible exact Keeps.answers_ite (Keeps.answers (correctedReads_keeps h)) (Keeps.answers h)

theorem execSpareFillComplete_keeps {q s} {x0} (h : Keeps q s) : Answers (Keeps q) (execSpareFillComplete x0 s) := by
  dsimp only [execSpareFillComplete]
  with_reducible exact Keeps.answers_ite (Keeps.answers (putObj_keeps h)) (Keeps.answers h)

theorem execReadRecalibration_keeps {q s} {x0} (h : Keeps q s) : Answers (Keeps q) (execReadRecalibration x0 s) := by
  dsimp only [execReadRecalibration]
  with_reducible exact Keeps.answers h

theorem execCellarTestDone_keeps {q s} {x0} (h : Keeps q s) : Answers (Keeps q) (execCellarTestDone x0 s) := by
  dsimp only [execCellarTestDone]
  with_reducible exact Keeps.answers_ite (Keeps.answers (endTest_keeps h)) (Keeps.answers h)

end Sys2Proof.Machine
end

