-- ==== Sys2Proof/Laws/KeepsUnderback.lean ====
section
/-! SUPPORT. What Underback.lean defines keeps soundness and the queue. -/

namespace Sys2Proof.Machine

open Sys2Proof

theorem putUb_keeps {q s} {x0 x1} (h : Keeps q s) : Keeps q (putUb x0 x1 s) := by
  dsimp only [putUb]
  with_reducible exact Keeps.mk h

theorem ubClock_keeps {q s} {x0} (h : Keeps q s) : Keeps q (ubClock x0 s) := by
  dsimp only [ubClock]
  with_reducible exact Keeps.ite (fire_keeps (setSticky_keeps (bump_keeps (putObj_keeps (Keeps.ite (putObj_keeps h) h))))) (Keeps.ite (fire_keeps (putObj_keeps (Keeps.ite (putObj_keeps h) h))) (Keeps.ite (putObj_keeps h) h))

theorem passNotice_keeps {q s} {x0} (h : Keeps q s) : Keeps q (passNotice x0 s) := by
  dsimp only [passNotice]
  with_reducible exact Keeps.mk h

theorem putRegion_keeps {q s} {x0 x1} (h : Keeps q s) : Keeps q (putRegion x0 x1 s) := by
  dsimp only [putRegion]
  with_reducible exact Keeps.mk h

theorem updateBoil_keeps {q s} (h : Keeps q s) : Keeps q (updateBoil s) := by
  dsimp only [updateBoil]
  with_reducible exact Keeps.ite (setBoil_keeps (fire_keeps (setSticky_keeps (Keeps.mk h)))) (Keeps.ite (setBoil_keeps (Keeps.mk h)) h)

theorem dropStaged_keeps {q s} {x0 x1} (h : Keeps q s) : Keeps q (dropStaged x0 x1 s) := by
  dsimp only [dropStaged]
  with_reducible exact updateBoil_keeps (putRegion_keeps h)

theorem ubCut_keeps {q s} {x0 x1 x2} (h : Keeps q s) : Keeps q (ubCut x0 x1 x2 s) := by
  unfold ubCut
  lift_lets
  intro u1
  intro u2
  intro u3
  intro u4
  have h4 : Keeps q u4.2 := laneNow_keeps (h)
  clear_value u4
  intro u5
  intro u6
  have h6 : Keeps q u6 := by
    dsimp only [u6]
    split
    · with_reducible exact putUb_keeps (h)
    · with_reducible exact bump_keeps (putUb_keeps (h4))
  clear_value u6
  intro u7
  have h7 : Keeps q u7 := setSticky_keeps (addObj_keeps (bump_keeps (h6)))
  clear_value u7
  with_reducible exact passNotice_keeps (h7)

theorem ubDiscard_keeps {q s} {x0 x1} (h : Keeps q s) : Keeps q (ubDiscard x0 x1 s) := by
  dsimp only [ubDiscard]
  with_reducible exact passNotice_keeps (bump_keeps (putUb_keeps h))

theorem ubRewind_keeps {q s} {x0 x1} (h : Keeps q s) : Keeps q (ubRewind x0 x1 s) := ubDiscard_keeps (setSticky_keeps h)

theorem flushNotices_keeps {q s} {x0 x1} (h : Keeps q s) : Keeps q (flushNotices x0 x1 s) := by
  induction x1 generalizing s with
  | nil => exact h
  | cons b t ih =>
    simp only [flushNotices]
    exact ih (passNotice_keeps (setSticky_keeps (bump_keeps h)))

theorem ubFlush_keeps {q s} {x0} (h : Keeps q s) : Keeps q (ubFlush x0 s) := by
  dsimp only [ubFlush]
  with_reducible exact ubClock_keeps (flushNotices_keeps (putUb_keeps h))

theorem ubFlushLane_keeps {q s} {x0} (h : Keeps q s) : Keeps q (ubFlushLane x0 s) := by
  dsimp only [ubFlushLane]
  with_reducible exact ubFlush_keeps h

theorem ubLaneLost_keeps {q s} {x0} (h : Keeps q s) : Keeps q (ubLaneLost x0 s) := by
  dsimp only [ubLaneLost]
  split
  · with_reducible exact h
  · with_reducible exact Keeps.ite (putUb_keeps h) (ubClock_keeps (ubRewind_keeps h))

theorem ubEmpty_keeps {q s} {x0} (h : Keeps q s) : Keeps q (ubEmpty x0 s) := by
  dsimp only [ubEmpty]
  with_reducible exact ubClock_keeps (putUb_keeps h)

theorem ubRetire_keeps {q s} {x0} (h : Keeps q s) : Keeps q (ubRetire x0 s) := by
  unfold ubRetire
  lift_lets
  intro u1
  have h1 : Keeps q u1 := ubLaneLost_keeps (h)
  clear_value u1
  with_reducible exact ubEmpty_keeps (Keeps.foldl (h1) (fun s x h => dropStaged_keeps (h)))

theorem emptyUnderbacks_keeps {q s} (h : Keeps q s) : Keeps q (emptyUnderbacks s) := by
  unfold emptyUnderbacks
  lift_lets
  intro u1
  have h1 : Keeps q u1 := Keeps.foldl (h) (fun s x h => Keeps.ite (h) (ubEmpty_keeps (h)))
  clear_value u1
  intro u2
  with_reducible exact updateBoil_keeps (Keeps.mk (h1))

theorem stageWord_keeps {q s} {x0 x1 x2} (h : Keeps q s) : Keeps q (stageWord x0 x1 x2 s) := by
  unfold stageWord
  lift_lets
  intro u1
  intro u2
  intro u3
  intro u4
  with_reducible exact updateBoil_keeps (putRegion_keeps (h))

theorem countCheck_keeps {q s} {x0 x1} (h : Keeps q s) : Keeps q (countCheck x0 x1 s) := by
  unfold countCheck
  split
  · with_reducible exact h
  · with_reducible exact bump_keeps (h)
  · with_reducible exact setSticky_keeps (bump_keeps (h))
  · with_reducible exact setSticky_keeps (bump_keeps (h))

theorem crossRead_keeps {q s} {x0 x1} (h : Keeps q s) : Keeps q (crossRead x0 x1 s) := by
  unfold crossRead
  lift_lets
  intro u1
  intro u2
  split
  · with_reducible exact setSticky_keeps (bump_keeps (h))
  · lift_lets
    intro u3
    intro u4
    have h4 : Keeps q u4 := countCheck_keeps (putUb_keeps (h))
    clear_value u4
    intro u5
    with_reducible refine Keeps.ite ?_ ?_
    · split
      · with_reducible exact Keeps.ite (putRegion_keeps (h4)) (h4)
      · with_reducible exact h4
    · with_reducible refine Keeps.ite ?_ ?_
      · with_reducible exact h
      · split
        · with_reducible exact countCheck_keeps (putUb_keeps (h))
        · with_reducible exact Keeps.ite (stageWord_keeps (countCheck_keeps (putUb_keeps (h)))) (ubDiscard_keeps (countCheck_keeps (putUb_keeps (h))))

theorem writeWord_keeps {q s} {x0 x1} (h : Keeps q s) : Keeps q (writeWord x0 x1 s) := by
  dsimp only [writeWord]
  with_reducible exact putUb_keeps h

theorem feedWord_keeps {q s} {x0 x1 x2 x3} (h : Keeps q s) : Keeps q (feedWord x0 x1 x2 x3 s) := by
  unfold feedWord
  lift_lets
  intro u1
  intro u2
  have h2 : Keeps q u2 := crossRead_keeps (h)
  clear_value u2
  with_reducible exact Keeps.ite (ubClock_keeps (writeWord_keeps (h))) (Keeps.ite (ubClock_keeps (ubCut_keeps (h2))) (ubClock_keeps (writeWord_keeps (h2))))

theorem feedAll_keeps {q s} {x0 x1 x2} (h : Keeps q s) : Keeps q (feedAll x0 x1 x2 s) := by
  induction x2 generalizing s with
  | nil => exact h
  | cons b t ih =>
    cases t with
    | nil => exact h
    | cons b' t =>
      simp only [feedAll]
      exact Keeps.ite (ih (feedWord_keeps h)) h

theorem feedCur_keeps {q s} {x0 x1} (h : Keeps q s) : Keeps q (feedCur x0 x1 s) := by
  dsimp only [feedCur]
  with_reducible exact feedAll_keeps h

theorem makeRoom_keeps {q s} {x0} (h : Keeps q s) : Keeps q (makeRoom x0 s) := by
  unfold makeRoom
  with_reducible exact Keeps.ite (crossRead_keeps (h)) (h)

theorem commitLast_keeps {q s} {x0 x1} (h : Keeps q s) : Keeps q (commitLast x0 x1 s) := by
  unfold commitLast
  lift_lets
  intro u1
  intro u2
  intro u3
  have h3 : Keeps q u3 := makeRoom_keeps (h)
  clear_value u3
  intro u4
  intro u5
  intro u6
  have h6 : Keeps q u6 := bump_keeps (putUb_keeps (h3))
  clear_value u6
  intro u7
  have h7 : Keeps q u7 := by
    dsimp only [u7]
    split
    · with_reducible exact bump_keeps (h6)
    · with_reducible exact h6
  clear_value u7
  with_reducible exact Keeps.ite (ubClock_keeps (ubCut_keeps (h3))) (ubClock_keeps (h7))

theorem ubFinish_keeps {q s} {x0} (h : Keeps q s) : Keeps q (ubFinish x0 s) := by
  unfold ubFinish
  lift_lets
  intro u1
  split
  · with_reducible exact h
  · lift_lets
    intro u2
    have h2 : Keeps q u2 := feedCur_keeps (h)
    clear_value u2
    intro u3
    have h3 : Keeps q u3 := makeRoom_keeps (h2)
    clear_value u3
    with_reducible exact Keeps.ite (putUb_keeps (h)) (Keeps.ite (h2) (Keeps.ite (Keeps.ite (ubClock_keeps (ubCut_keeps (h3))) (ubClock_keeps (ubRewind_keeps (h3)))) (commitLast_keeps (h2))))

theorem ubStart_keeps {q s} {x0 x1 x2 x3 x4 x5 x6} (h : Keeps q s) : Keeps q (ubStart x0 x1 x2 x3 x4 x5 x6 s) := by
  dsimp only [ubStart]
  with_reducible exact putUb_keeps (ubFinish_keeps h)

theorem execPacketCommit_keeps {q s} {x0} (h : Keeps q s) : Answers (Keeps q) (execPacketCommit x0 s) := by
  dsimp only [execPacketCommit]
  split
  · with_reducible exact Keeps.answers_ite (Keeps.answers h) (Keeps.answers (ubFinish_keeps h))
  · with_reducible exact Keeps.answers h

theorem execPacketRewind_keeps {q s} {x0} (h : Keeps q s) : Answers (Keeps q) (execPacketRewind x0 s) := by
  dsimp only [execPacketRewind]
  split
  · with_reducible exact Keeps.answers_ite (Keeps.answers (ubFinish_keeps h)) (Keeps.answers h)
  · with_reducible exact Keeps.answers h

theorem fillChain_keeps {q s} {x0 x1 x2} (h : Keeps q s) : Keeps q (fillChain x0 x1 x2 s).1 := by
  induction x2 generalizing s with
  | nil => exact h
  | cons b t ih =>
    cases t with
    | nil => exact h
    | cons b' t =>
      simp only [fillChain]
      exact Keeps.ite_fst h (ih (ubClock_keeps (writeWord_keeps h)))

theorem execChainFullCut_keeps {q s} {x0} (h : Keeps q s) : Answers (Keeps q) (execChainFullCut x0 s) := by
  dsimp only [execChainFullCut]
  split
  · with_reducible exact Keeps.answers h
  · with_reducible exact Keeps.answers_ite (Keeps.answers h) (Keeps.answers_ite (Keeps.answers (ubClock_keeps (ubCut_keeps (fillChain_keeps h)))) (Keeps.answers h))

theorem ubStep_keeps {q s} {x0 x1 x2 x3} (h : Keeps q s) : Keeps q (ubStep x0 x1 x2 x3 s) := by
  unfold ubStep
  lift_lets
  intro u1
  with_reducible refine Keeps.ite ?_ ?_
  · with_reducible refine crossRead_keeps ?_
    dsimp -zeta only [u1]
    lift_lets
    intro u2
    split
    · with_reducible exact h
    · with_reducible exact Keeps.ite (ubCut_keeps (h)) (writeWord_keeps (putUb_keeps (h)))
  · dsimp -zeta only [u1]
    lift_lets
    intro u3
    split
    · with_reducible exact crossRead_keeps (h)
    · with_reducible exact Keeps.ite (ubCut_keeps (crossRead_keeps (h))) (writeWord_keeps (putUb_keeps (crossRead_keeps (h))))

theorem execCrossingRead_keeps {q s} {x0 x1} (h : Keeps q s) : Answers (Keeps q) (execCrossingRead x0 x1 s) := by
  unfold execCrossingRead
  lift_lets
  intro u1
  with_reducible refine Keeps.answers ?_
  with_reducible refine ubClock_keeps ?_
  split
  · with_reducible exact ubStep_keeps (h)
  · with_reducible exact crossRead_keeps (h)

end Sys2Proof.Machine
end

