-- ==== Sys2Proof/Laws/KeepsLanes.lean ====
section
/-! SUPPORT. What Lanes.lean defines keeps soundness and the queue. -/

namespace Sys2Proof.Machine

open Sys2Proof

theorem putLaneX_keeps {q s} {x0 x1} (h : Keeps q s) : Keeps q (putLaneX x0 x1 s) := by
  dsimp only [putLaneX]
  with_reducible exact Keeps.mk h

theorem putPortX_keeps {q s} {x0 x1} (h : Keeps q s) : Keeps q (putPortX x0 x1 s) := by
  dsimp only [putPortX]
  with_reducible exact Keeps.mk h

theorem updatePort_keeps {q s} {x0} (h : Keeps q s) : Keeps q (updatePort x0 s) := by
  dsimp only [updatePort]
  with_reducible exact Keeps.ite (Keeps.ite (putPortX_keeps h) (emit_keeps (putPortX_keeps h))) (fire_keeps (Keeps.ite (putPortX_keeps h) (emit_keeps (putPortX_keeps h))))

theorem updateLanePort_keeps {q s} {x0} (h : Keeps q s) : Keeps q (updateLanePort x0 s) := by
  dsimp only [updateLanePort]
  with_reducible exact updatePort_keeps h

theorem dropAlign_keeps {q s} {x0 x1} (h : Keeps q s) : Keeps q (dropAlign x0 x1 s) := by
  dsimp only [dropAlign]
  with_reducible exact putPortX_keeps h

theorem zeroTaps_keeps {q s} {x0 x1} (h : Keeps q s) : Keeps q (zeroTaps x0 x1 s) := by
  induction x1 generalizing x0 s
  · rw [zeroTaps]
    with_reducible exact h
  · rename_i n ih
    rw [zeroTaps]
    with_reducible exact putLane_keeps (ih (h))

theorem setLaneState_keeps {q s} {x0 x1} (h : Keeps q s) : Keeps q (setLaneState x0 x1 s) := by
  unfold setLaneState
  lift_lets
  intro u1
  intro u2
  intro u3
  have h3 : Keeps q u3 := putLane_keeps (h)
  clear_value u3
  intro u4
  have h4 : Keeps q u4 := Keeps.ite (h3) (putLane_keeps (putLane_keeps (h3)))
  clear_value u4
  intro u5
  have h5 : Keeps q u5 := Keeps.ite (h4) (putLane_keeps (h4))
  clear_value u5
  intro u6
  have h6 : Keeps q u6 := Keeps.ite (zeroTaps_keeps (h5)) (h5)
  clear_value u6
  intro u7
  have h7 : Keeps q u7 := Keeps.ite (h6) (putLane_keeps (h6))
  clear_value u7
  intro u8
  have h8 : Keeps q u8 := putLaneX_keeps (h7)
  clear_value u8
  intro u9
  have h9 : Keeps q u9 := Keeps.ite (bumpLane_keeps (h8)) (h8)
  clear_value u9
  intro u10
  have h10 : Keeps q u10 := Keeps.ite (dropAlign_keeps (ubLaneLost_keeps (h9))) (h9)
  clear_value u10
  with_reducible exact updateLanePort_keeps (h10)

theorem enterSignalWait_keeps {q s} {x0} (h : Keeps q s) : Keeps q (enterSignalWait x0 s) := by
  dsimp only [enterSignalWait]
  with_reducible exact Keeps.ite (setLaneState_keeps (setLaneState_keeps h)) (setLaneState_keeps h)

theorem afterPll_keeps {q s} {x0} (h : Keeps q s) : Keeps q (afterPll x0 s) := by
  dsimp only [afterPll]
  with_reducible exact setLaneState_keeps h

theorem selfCheck_keeps {q s} {x0} (h : Keeps q s) : Keeps q (selfCheck x0 s) := by
  unfold selfCheck
  lift_lets
  intro u1
  have h1 : Keeps q u1 := setLaneState_keeps (h)
  clear_value u1
  with_reducible exact Keeps.ite (setLaneState_keeps (h1)) (setLaneState_keeps (h1))

theorem putRef_keeps {q s} {x0 x1 x2} (h : Keeps q s) : Keeps q (putRef x0 x1 x2 s) := by
  unfold putRef
  lift_lets
  intro u1
  with_reducible exact Keeps.mk (h)

theorem settlePll_keeps {q s} {x0} (h : Keeps q s) : Keeps q (settlePll x0 s) := by
  dsimp only [settlePll]
  with_reducible exact Keeps.ite (putObj_keeps (putObj_keeps h)) h

theorem recordNoRetire_keeps {q s} {x0 x1 x2} (h : Keeps q s) : Keeps q (recordNoRetire x0 x1 x2 s) := by
  dsimp only [recordNoRetire]
  with_reducible exact addLog_keeps (Keeps.mk_flt h)

theorem cascadeLanesOut_keeps {q s} {x0} (h : Keeps q s) : Keeps q (cascadeLanesOut x0 s) := by
  unfold cascadeLanesOut
  lift_lets
  intro u1
  have h1 : Keeps q u1 := Keeps.foldl (h) (fun s x h => setLaneState_keeps (h))
  clear_value u1
  intro u2
  with_reducible exact Keeps.ite (setBhLocked_keeps (Keeps.mk (h1))) (h1)

theorem retireCascade_keeps {q s} {x0} (h : Keeps q s) : Keeps q (retireCascade x0 s) := by
  unfold retireCascade
  with_reducible exact Keeps.ite (h) (cascadeLanesOut_keeps (addRetired_keeps (addLog_keeps (h))))

theorem laneOut_keeps {q s} {x0 x1} (h : Keeps q s) : Keeps q (laneOut x0 x1 s) := by
  unfold laneOut
  lift_lets
  intro u1
  have h1 : Keeps q u1 := putLane_keeps (stickyLane_keeps (h))
  clear_value u1
  intro u2
  have h2 : Keeps q u2 := stopPort_keeps (ubRetire_keeps (setLaneState_keeps (h1)))
  clear_value u2
  with_reducible exact settlePll_keeps (Keeps.ite (retireCascade_keeps (h2)) (h2))

theorem relockOthers_keeps {q s} {x0} (h : Keeps q s) : Keeps q (relockOthers x0 s) := by
  unfold relockOthers
  lift_lets
  intro u1
  with_reducible refine Keeps.ite ?_ ?_
  · with_reducible refine Keeps.foldl ?_ ?_
    · with_reducible exact h
    · intro t2 x2 h2
      lift_lets
      intro u3
      intro u4
      have h4 : Keeps q u4 := bumpLane_keeps (selfCheck_keeps (h2))
      clear_value u4
      intro u5
      with_reducible exact Keeps.ite (putLaneX_keeps (h4)) (h2)
  · with_reducible exact h

theorem relockLane_keeps {q s} {x0 x1} (h : Keeps q s) : Keeps q (relockLane x0 x1 s) := by
  unfold relockLane
  lift_lets
  intro u1
  have h1 : Keeps q u1 := bumpLane_keeps (h)
  clear_value u1
  intro u2
  intro u3
  have h3 : Keeps q u3 := Keeps.ite (setLaneState_keeps (h1)) (selfCheck_keeps (h1))
  clear_value u3
  intro u4
  with_reducible exact Keeps.ite (putLaneX_keeps (setLaneState_keeps (h1))) (relockOthers_keeps (putLaneX_keeps (h3)))

theorem cascadeBack_keeps {q s} {x0} (h : Keeps q s) : Keeps q (cascadeBack x0 s) := by
  unfold cascadeBack
  lift_lets
  intro u1
  intro u2
  intro u3
  have h3 : Keeps q u3 := dropRetired_keeps (Keeps.mk (h))
  clear_value u3
  with_reducible exact Keeps.ite (Keeps.foldl (h3) (fun s x h => Keeps.ite (setLaneState_keeps (h)) (h))) (h)

theorem sameTickFault_keeps {q s} {x0 x1} (h : Keeps q s) : Keeps q (sameTickFault x0 x1 s) := by
  unfold sameTickFault
  lift_lets
  intro u1
  intro u2
  have h2 : Keeps q u2 := putLane_keeps (h)
  clear_value u2
  intro u3
  intro u4
  intro u5
  intro u6
  intro u7
  have h7 : Keeps q u7 := relabelFault_keeps (h2)
  clear_value u7
  intro u8
  intro u9
  have h9 : Keeps q u9 := dropRetired_keeps (h7)
  clear_value u9
  intro u10
  intro u11
  have h11 : Keeps q u11 := Keeps.mk_flt (h9)
  clear_value u11
  with_reducible exact Keeps.ite (h) (Keeps.ite (relockLane_keeps (cascadeBack_keeps (putLane_keeps (h11)))) (Keeps.ite (Keeps.ite (putLane_keeps (h7)) (laneOut_keeps (addRetired_keeps (h7)))) (Keeps.ite (h7) (relockLane_keeps (h7)))))

theorem recordLaneFault_keeps {q s} {x0 x1} (h : Keeps q s) : Keeps q (recordLaneFault x0 x1 s) := by
  unfold recordLaneFault
  lift_lets
  intro u1
  have h1 : Keeps q u1 := fire_keeps (putLane_keeps (bumpLane_keeps (h)))
  clear_value u1
  with_reducible refine Keeps.ite ?_ ?_
  · with_reducible exact relockLane_keeps (recordNoRetire_keeps (h1))
  · split
    · rename_i e2
      have h2 := Keeps.of_fst e2 (recordFault_keeps (h1))
      with_reducible exact relockOthers_keeps (laneOut_keeps (h2))
    · rename_i e3
      have h3 := Keeps.of_fst e3 (recordFault_keeps (h1))
      with_reducible exact relockLane_keeps (h3)
    · rename_i e4
      have h4 := Keeps.of_fst e4 (recordFault_keeps (h1))
      with_reducible exact h4
    · rename_i e5
      have h5 := Keeps.of_fst e5 (recordFault_keeps (h1))
      with_reducible exact h5

theorem laneFault_keeps {q s} {x0 x1} (h : Keeps q s) : Keeps q (laneFault x0 x1 s) := by
  unfold laneFault
  lift_lets
  intro u1
  with_reducible exact Keeps.ite (sameTickFault_keeps (h)) (Keeps.ite (h) (Keeps.ite (Keeps.ite (setLaneState_keeps (h)) (h)) (recordLaneFault_keeps (h))))

theorem startLane_keeps {q s} {x0} (h : Keeps q s) : Keeps q (startLane x0 s) := by
  unfold startLane
  lift_lets
  intro u1
  intro u2
  have h2 : Keeps q u2 := putLaneX_keeps (setLaneState_keeps (h))
  clear_value u2
  with_reducible exact Keeps.ite (laneFault_keeps (h2)) (Keeps.ite (afterPll_keeps (h2)) (h2))

theorem resumeLane_keeps {q s} {x0} (h : Keeps q s) : Keeps q (resumeLane x0 s) := by
  unfold resumeLane
  with_reducible exact Keeps.ite (enterSignalWait_keeps (h)) (selfCheck_keeps (h))

theorem relane_keeps {q s} {x0} (h : Keeps q s) : Keeps q (relane x0 s) := by
  unfold relane
  lift_lets
  intro u1
  intro u2
  with_reducible exact Keeps.ite (Keeps.ite (h) (setLaneState_keeps (h))) (Keeps.ite (h) (Keeps.ite (setLaneState_keeps (h)) (Keeps.ite (Keeps.ite (setLaneState_keeps (h)) (Keeps.ite (h) (startLane_keeps (h)))) (Keeps.ite (h) (Keeps.ite (resumeLane_keeps (h)) (startLane_keeps (h)))))))

theorem relaneList_keeps {q s} {x0} (h : Keeps q s) : Keeps q (relaneList x0 s) := by
  dsimp only [relaneList]
  with_reducible exact Keeps.foldl (Keeps.foldl h (fun s x h => relane_keeps h)) (fun s x h => Keeps.ite (settlePll_keeps h) h)

theorem relaneAll_keeps {q s} (h : Keeps q s) : Keeps q (relaneAll s) := by
  dsimp only [relaneAll]
  with_reducible exact relaneList_keeps h

theorem restartLane_keeps {q s} {x0} (h : Keeps q s) : Keeps q (restartLane x0 s) := by
  unfold restartLane
  lift_lets
  intro u1
  with_reducible exact selfCheck_keeps (putLaneX_keeps (h))

theorem reinstateLane_keeps {q s} {x0} (h : Keeps q s) : Keeps q (reinstateLane x0 s) := by
  dsimp only [reinstateLane]
  with_reducible exact Keeps.ite h (Keeps.ite (ubFlushLane_keeps (putLane_keeps (dropRetired_keeps h))) (Keeps.ite (setLaneState_keeps (ubFlushLane_keeps (putLane_keeps (dropRetired_keeps h)))) (startLane_keeps (ubFlushLane_keeps (putLane_keeps (dropRetired_keeps h))))))

theorem reinstateCascade_keeps {q s} {x0} (h : Keeps q s) : Keeps q (reinstateCascade x0 s) := by
  dsimp only [reinstateCascade]
  with_reducible exact Keeps.ite h (Keeps.foldl (dropRetired_keeps h) (fun s x h => Keeps.ite h (startLane_keeps h)))

theorem quadRestart_keeps {q s} {x0} (h : Keeps q s) : Keeps q (quadRestart x0 s) := by
  dsimp only [quadRestart]
  with_reducible exact Keeps.foldl (Keeps.foldl (Keeps.foldl (putObj_keeps (putObj_keeps h)) (fun s x h => ubEmpty_keeps h)) (fun s x h => Keeps.ite (setLaneState_keeps h) (Keeps.ite (setLaneState_keeps h) (startLane_keeps h)))) (fun s x h => updatePort_keeps (Keeps.ite (setSticky_keeps (dropAlign_keeps h)) (dropAlign_keeps h)))

theorem setQuadMode_keeps {q s} {x0 x1} (h : Keeps q s) : Keeps q (setQuadMode x0 x1 s) := by
  dsimp only [setQuadMode]
  with_reducible exact quadRestart_keeps (putObj_keeps h)

theorem lineRate_keeps {q s} {x0 x1} (h : Keeps q s) : Keeps q (lineRate x0 x1 s).2 := by
  dsimp only [lineRate]
  split
  · with_reducible exact h
  · with_reducible exact h
  · dsimp only
    with_reducible exact takeChoice_keeps h
  · with_reducible exact h

theorem lineBits_keeps {q s} {x0 x1 x2} (h : Keeps q s) : Keeps q (lineBits x0 x1 x2 s) := by
  induction x1 generalizing x0 x2 s
  · rw [lineBits]
    with_reducible exact h
  · rename_i n ih
    rw [lineBits]
    lift_lets
    intro u1
    intro u2
    intro u3
    have h3 : Keeps q u3 := putLaneX_keeps (h)
    clear_value u3
    intro u4
    have h4 : Keeps q u4 := addObj_keeps (h3)
    clear_value u4
    intro u5
    have h5 : Keeps q u5 := putLane_keeps (h4)
    clear_value u5
    intro u6
    have h6 : Keeps q u6 := Keeps.ite (Keeps.ite (h5) (setLaneState_keeps (h5))) (Keeps.ite (laneFault_keeps (stickyLane_keeps (h5))) (h5))
    clear_value u6
    with_reducible exact Keeps.ite (h) (ih (h6))

theorem chkRun_keeps {q s} {x0 x1} (h : Keeps q s) : Keeps q (chkRun x0 x1 s) := by
  dsimp only [chkRun]
  with_reducible exact Keeps.ite h (Keeps.ite (stickyLane_keeps (addObj_keeps (addObj_keeps (putLane_keeps (putLaneX_keeps h))))) (addObj_keeps (addObj_keeps (putLane_keeps (putLaneX_keeps h)))))

theorem genSeed_keeps {q s} {x0} (h : Keeps q s) : Keeps q (genSeed x0 s).2 := by
  unfold genSeed
  lift_lets
  intro u1
  have h1 : Keeps q u1.2 := takeFree_keeps (h)
  clear_value u1
  with_reducible exact h1

theorem genRun_keeps {q s} {x0 x1} (h : Keeps q s) : Keeps q (genRun x0 x1 s).2 := by
  unfold genRun
  lift_lets
  intro u1
  intro u2
  intro u3
  have h3 : Keeps q u3.2 := Keeps.ite_snd (genSeed_keeps (h)) (h)
  clear_value u3
  intro u4
  with_reducible exact addObj_keeps (putLaneX_keeps (h3))

theorem testSends_keeps {q s} {x0 x1} (h : Keeps q s) : Keeps q (testSends x0 x1 s).2 := by
  unfold testSends
  with_reducible exact Keeps.ite_snd (h) (Keeps.ite_snd (h) (genRun_keeps (h)))

theorem testRun_keeps {q s} {x0 x1} (h : Keeps q s) : Keeps q (testRun x0 x1 s) := by
  unfold testRun
  lift_lets
  intro u1
  have h1 : Keeps q u1.2 := testSends_keeps (h)
  clear_value u1
  intro u2
  intro u3
  have h3 : Keeps q u3 := Keeps.ite (h1) (emit_keeps (h1))
  clear_value u3
  with_reducible exact chkRun_keeps (h3)

theorem prbsInject_keeps {q s} {x0} (h : Keeps q s) : Keeps q (prbsInject x0 s) := by
  dsimp only [prbsInject]
  with_reducible exact Keeps.ite (bumpLane_keeps (putLaneX_keeps h)) h

theorem prbsClear_keeps {q s} {x0} (h : Keeps q s) : Keeps q (prbsClear x0 s) := by
  dsimp only [prbsClear]
  with_reducible exact putLane_keeps (putLane_keeps (putLane_keeps h))

theorem laneConfigured_keeps {q s} {x0} (h : Keeps q s) : Keeps q (laneConfigured x0 s) := by
  dsimp only [laneConfigured]
  with_reducible exact Keeps.ite h (Keeps.ite (restartLane_keeps h) (relaneList_keeps h))

theorem testWritten_keeps {q s} {x0} (h : Keeps q s) : Keeps q (testWritten x0 s) := by
  dsimp only [testWritten]
  with_reducible exact Keeps.ite (Keeps.ite (startLane_keeps (putLane_keeps (putLaneX_keeps h))) (relaneList_keeps (putLane_keeps (putLaneX_keeps h)))) h

theorem execQuadPllLock_keeps {q s} {x0 x1} (h : Keeps q s) : Answers (Keeps q) (execQuadPllLock x0 x1 s) := by
  unfold execQuadPllLock
  lift_lets
  intro u1
  intro u2
  have h2 : Keeps q u2.2 := lineRate_keeps (h)
  clear_value u2
  intro u3
  have h3 : Keeps q u3 := putObj_keeps (putObj_keeps (h2))
  clear_value u3
  intro u4
  have h4 : Keeps q u4 := putRef_keeps (h3)
  clear_value u4
  with_reducible refine Keeps.answers_ite ?_ ?_
  · with_reducible refine Keeps.answers ?_
    with_reducible exact h
  · with_reducible refine Keeps.answers ?_
    with_reducible exact Keeps.foldl (h4) (fun s x h => Keeps.ite (afterPll_keeps (h)) (h))

theorem execPllLockTimeout_keeps {q s} {x0} (h : Keeps q s) : Answers (Keeps q) (execPllLockTimeout x0 s) := by
  unfold execPllLockTimeout
  lift_lets
  intro u1
  intro u2
  intro u3
  have h3 : Keeps q u3 := setSticky_keeps (h)
  clear_value u3
  with_reducible refine Keeps.answers_ite ?_ ?_
  · with_reducible refine Keeps.answers ?_
    with_reducible exact h
  · with_reducible refine Keeps.answers ?_
    with_reducible exact Keeps.foldl (h3) (fun s x h => Keeps.ite (sameTickFault_keeps (h)) (recordLaneFault_keeps (h)))

theorem quadRefLost_keeps {q s} {x0} (h : Keeps q s) : Keeps q (quadRefLost x0 s) := by
  unfold quadRefLost
  lift_lets
  intro u1
  have h1 : Keeps q u1 := setSticky_keeps (h)
  clear_value u1
  intro u2
  have h2 : Keeps q u2 := putObj_keeps (putObj_keeps (h1))
  clear_value u2
  with_reducible exact Keeps.foldl (h2) (fun s x h => Keeps.ite (h) (Keeps.ite (h) (laneFault_keeps (h))))

theorem execReferenceLost_keeps {q s} {x0} (h : Keeps q s) : Answers (Keeps q) (execReferenceLost x0 s) := by
  unfold execReferenceLost
  lift_lets
  intro u1
  have h1 : Keeps q u1 := putRef_keeps (h)
  clear_value u1
  with_reducible refine Keeps.answers_ite ?_ ?_
  · with_reducible refine Keeps.answers ?_
    with_reducible exact h
  · with_reducible refine Keeps.answers ?_
    with_reducible exact Keeps.foldl (h1) (fun s x h => quadRefLost_keeps (h))

theorem execReferenceReturn_keeps {q s} {x0} (h : Keeps q s) : Answers (Keeps q) (execReferenceReturn x0 s) := by
  unfold execReferenceReturn
  lift_lets
  intro u1
  with_reducible refine Keeps.answers ?_
  with_reducible refine Keeps.foldl ?_ ?_
  · with_reducible exact putRef_keeps (h)
  · intro t2 x2 h2
    lift_lets
    intro u3
    with_reducible exact putLaneX_keeps (h2)

theorem execSelfCheckDone_keeps {q s} {x0 x1} (h : Keeps q s) : Answers (Keeps q) (execSelfCheckDone x0 x1 s) := by
  dsimp only [execSelfCheckDone]
  with_reducible exact Keeps.answers_ite (Keeps.answers h) (Keeps.answers_ite (Keeps.answers (enterSignalWait_keeps h)) (Keeps.answers (laneFault_keeps (stickyLane_keeps h))))

theorem execSignalDetect_keeps {q s} {x0} (h : Keeps q s) : Answers (Keeps q) (execSignalDetect x0 s) := by
  dsimp only [execSignalDetect]
  with_reducible exact Keeps.answers_ite (Keeps.answers (setLaneState_keeps (putLane_keeps h))) (Keeps.answers (putLane_keeps h))

theorem execLossOfSignal_keeps {q s} {x0} (h : Keeps q s) : Answers (Keeps q) (execLossOfSignal x0 s) := by
  dsimp only [execLossOfSignal]
  with_reducible exact Keeps.answers_ite (Keeps.answers h) (Keeps.answers_ite (Keeps.answers (laneFault_keeps (stickyLane_keeps (bumpLane_keeps (putLane_keeps h))))) (Keeps.answers (stickyLane_keeps (bumpLane_keeps (putLane_keeps h)))))

theorem execCdrLock_keeps {q s} {x0} (h : Keeps q s) : Answers (Keeps q) (execCdrLock x0 s) := by
  unfold execCdrLock
  lift_lets
  intro u1
  intro u2
  have h2 : Keeps q u2 := setLaneState_keeps (h)
  clear_value u2
  intro u3
  intro u4
  with_reducible refine Keeps.answers_ite ?_ ?_
  · with_reducible refine Keeps.answers ?_
    with_reducible exact putLaneX_keeps (h2)
  · with_reducible refine Keeps.answers_ite ?_ ?_
    · with_reducible refine Keeps.answers ?_
      with_reducible exact putLaneX_keeps (h)
    · with_reducible refine Keeps.answers ?_
      with_reducible exact h

theorem execCdrLockLost_keeps {q s} {x0} (h : Keeps q s) : Answers (Keeps q) (execCdrLockLost x0 s) := by
  unfold execCdrLockLost
  lift_lets
  intro u1
  intro u2
  intro u3
  have h3 : Keeps q u3 := putLaneX_keeps (h)
  clear_value u3
  with_reducible refine Keeps.answers_ite ?_ ?_
  · with_reducible refine Keeps.answers ?_
    with_reducible exact laneFault_keeps (stickyLane_keeps (h3))
  · with_reducible refine Keeps.answers ?_
    with_reducible exact h

theorem putTaps_keeps {q s} {x0 x1 x2} (h : Keeps q s) : Keeps q (putTaps x0 x1 x2 s) := by
  induction x2 generalizing x1 s with
  | nil => exact h
  | cons b t ih =>
    simp only [putTaps]
    exact Keeps.ite h (ih (putLane_keeps h))

theorem chooseCtle_keeps {q s} {x0} (h : Keeps q s) : Keeps q (chooseCtle x0 s).2 := by
  unfold chooseCtle
  lift_lets
  intro u1
  intro u2
  have h2 : Keeps q u2.2 := takeChoice_keeps (h)
  clear_value u2
  with_reducible exact h2

theorem execAdaptationDone_keeps {q s} {x0 x1 x2} (h : Keeps q s) : Answers (Keeps q) (execAdaptationDone x0 x1 x2 s) := by
  unfold execAdaptationDone
  lift_lets
  intro u1
  intro u2
  have h2 : Keeps q u2.2 := chooseCtle_keeps (h)
  clear_value u2
  intro u3
  have h3 : Keeps q u3 := Keeps.ite (h) (putLane_keeps (h2))
  clear_value u3
  with_reducible refine Keeps.answers_ite ?_ ?_
  · with_reducible refine Keeps.answers ?_
    with_reducible exact setLaneState_keeps (putTaps_keeps (h3))
  · with_reducible refine Keeps.answers ?_
    with_reducible exact h

theorem execBlockLock_keeps {q s} {x0 x1} (h : Keeps q s) : Answers (Keeps q) (execBlockLock x0 x1 s) := by
  unfold execBlockLock
  with_reducible refine Keeps.answers_ite ?_ ?_
  · with_reducible refine Keeps.answers ?_
    with_reducible exact lineBits_keeps (h)
  · with_reducible refine Keeps.answers ?_
    with_reducible exact h

theorem execBlockLockLost_keeps {q s} {x0 x1} (h : Keeps q s) : Answers (Keeps q) (execBlockLockLost x0 x1 s) := by
  unfold execBlockLockLost
  with_reducible refine Keeps.answers_ite ?_ ?_
  · with_reducible refine Keeps.answers ?_
    with_reducible exact lineBits_keeps (h)
  · with_reducible refine Keeps.answers_ite ?_ ?_
    · with_reducible refine Keeps.answers ?_
      with_reducible exact laneFault_keeps (stickyLane_keeps (h))
    · with_reducible refine Keeps.answers ?_
      with_reducible exact h

theorem execHuntTimeout_keeps {q s} {x0} (h : Keeps q s) : Answers (Keeps q) (execHuntTimeout x0 s) := by
  dsimp only [execHuntTimeout]
  with_reducible exact Keeps.answers_ite (Keeps.answers (laneFault_keeps (stickyLane_keeps h))) (Keeps.answers h)

theorem execAlignmentLock_keeps {q s} {x0} (h : Keeps q s) : Answers (Keeps q) (execAlignmentLock x0 s) := by
  unfold execAlignmentLock
  lift_lets
  intro u1
  intro u2
  intro u3
  intro u4
  intro u5
  intro u6
  intro u7
  have h7 : Keeps q u7 := putPortX_keeps (h)
  clear_value u7
  intro u8
  have h8 : Keeps q u8 := Keeps.foldl (h7) (fun s x h => Keeps.ite (setLaneState_keeps (h)) (h))
  clear_value u8
  with_reducible refine Keeps.answers_ite ?_ ?_
  · with_reducible refine Keeps.answers ?_
    with_reducible exact h
  · with_reducible refine Keeps.answers_ite ?_ ?_
    · with_reducible refine Keeps.answers ?_
      with_reducible exact updatePort_keeps (h8)
    · with_reducible refine Keeps.answers ?_
      with_reducible exact h

theorem execEfomWindow_keeps {q s} {x0 x1 x2 x3} (h : Keeps q s) : Answers (Keeps q) (execEfomWindow x0 x1 x2 x3 s) := by
  dsimp only [execEfomWindow]
  with_reducible exact Keeps.answers_ite (Keeps.answers_ite (Keeps.answers (putTaps_keeps (putLane_keeps (putLane_keeps h)))) (Keeps.answers (putLane_keeps (putLane_keeps h)))) (Keeps.answers h)

theorem execEyeFault_keeps {q s} {x0} (h : Keeps q s) : Answers (Keeps q) (execEyeFault x0 s) := by
  dsimp only [execEyeFault]
  with_reducible exact Keeps.answers_ite (Keeps.answers (laneFault_keeps (stickyLane_keeps h))) (Keeps.answers h)

theorem execRelockTimeout_keeps {q s} {x0} (h : Keeps q s) : Answers (Keeps q) (execRelockTimeout x0 s) := by
  dsimp only [execRelockTimeout]
  with_reducible exact Keeps.answers_ite (Keeps.answers (laneFault_keeps h)) (Keeps.answers h)

theorem afterTopology_keeps {q s} {x0 x1} (h : Keeps q s) : Keeps q (afterTopology x0 x1 s) := by
  unfold afterTopology
  with_reducible exact Keeps.ite (cascadeLanesOut_keeps (h)) (h)

theorem execBeacon_keeps {q s} {x0 x1 x2} (h : Keeps q s) : Answers (Keeps q) (execBeacon x0 x1 x2 s) := by
  unfold execBeacon
  with_reducible refine Keeps.answers_ite ?_ ?_
  · with_reducible refine Keeps.answers ?_
    with_reducible exact afterTopology_keeps (beacon_keeps (bump_keeps (h)))
  · with_reducible refine Keeps.answers ?_
    with_reducible exact h

theorem execBeaconLoss_keeps {q s} {x0} (h : Keeps q s) : Answers (Keeps q) (execBeaconLoss x0 s) := by
  unfold execBeaconLoss
  lift_lets
  intro u1
  with_reducible refine Keeps.answers_ite ?_ ?_
  · with_reducible refine Keeps.answers ?_
    with_reducible exact afterTopology_keeps (topologyFault_keeps (setSticky_keeps (setBhLocked_keeps (Keeps.mk (h)))))
  · with_reducible refine Keeps.answers ?_
    with_reducible exact h

theorem execPrbsCheckerLock_keeps {q s} {x0 x1} (h : Keeps q s) : Answers (Keeps q) (execPrbsCheckerLock x0 x1 s) := by
  unfold execPrbsCheckerLock
  with_reducible refine Keeps.answers_ite ?_ ?_
  · with_reducible refine Keeps.answers ?_
    with_reducible exact testRun_keeps (h)
  · with_reducible refine Keeps.answers ?_
    with_reducible exact h

end Sys2Proof.Machine
end

