-- ==== Sys2Proof/Laws/KeepsNet.lean ====
section
/-! SUPPORT. What Net.lean defines keeps soundness and the queue. -/

namespace Sys2Proof.Machine

open Sys2Proof

theorem txFrame_keeps {q s} {x0 x1 x2} (h : Keeps q s) : Keeps q (txFrame x0 x1 x2 s) := by
  unfold txFrame
  with_reducible exact emit_keeps (addObj_keeps (bump_keeps (h)))

theorem txFirmware_keeps {q s} {x0 x1 x2} (h : Keeps q s) : Keeps q (txFirmware x0 x1 x2 s) := by
  unfold txFirmware
  lift_lets
  intro u1
  with_reducible exact Keeps.ite (h) (Keeps.ite (putPortX_keeps (h)) (txFrame_keeps (h)))

theorem sendWaiting_keeps {q s} {x0} (h : Keeps q s) : Keeps q (sendWaiting x0 s) := by
  unfold sendWaiting
  lift_lets
  intro u1
  with_reducible exact Keeps.ite (h) (Keeps.foldl (putPortX_keeps (h)) (fun s x h => txFrame_keeps (h)))

theorem sendFrame_keeps {q s} {x0 x1} (h : Keeps q s) : Keeps q (sendFrame x0 x1 s) := by
  unfold sendFrame
  with_reducible exact txFirmware_keeps (h)

theorem sendFirmware_keeps {q s} {x0 x1 x2 x3} (h : Keeps q s) : Keeps q (sendFirmware x0 x1 x2 x3 s) := by
  unfold sendFirmware
  with_reducible exact sendFrame_keeps (h)

theorem sendIgmp_keeps {q s} {x0 x1 x2} (h : Keeps q s) : Keeps q (sendIgmp x0 x1 x2 s) := by
  unfold sendIgmp
  with_reducible exact sendFirmware_keeps (h)

theorem sendMld_keeps {q s} {x0 x1 x2} (h : Keeps q s) : Keeps q (sendMld x0 x1 x2 s) := by
  unfold sendMld
  with_reducible exact sendFirmware_keeps (h)

theorem sendReport_keeps {q s} {x0 x1} (h : Keeps q s) : Keeps q (sendReport x0 x1 s) := by
  unfold sendReport
  lift_lets
  intro u1
  intro u2
  split
  · with_reducible exact Keeps.ite (h) (sendIgmp_keeps (h))
  · with_reducible exact Keeps.ite (sendIgmp_keeps (h)) (sendIgmp_keeps (h))
  · with_reducible exact sendIgmp_keeps (h)
  · with_reducible exact sendMld_keeps (h)
  · with_reducible exact sendMld_keeps (h)

theorem leaveGroup_keeps {q s} {x0} (h : Keeps q s) : Keeps q (leaveGroup x0 s) := by
  unfold leaveGroup
  with_reducible exact Keeps.ite (h) (sendReport_keeps (h))

theorem updateJoin_keeps {q s} {x0} (h : Keeps q s) : Keeps q (updateJoin x0 s) := by
  induction x0 generalizing s
  · rw [updateJoin]
    lift_lets
    intro u1
    intro u2
    have h2 : Keeps q u2 := Keeps.mk (h)
    clear_value u2
    intro u3
    have h3 : Keeps q u3 := by
      dsimp only [u3]
      split
      · with_reducible exact leaveGroup_keeps (h2)
      · with_reducible exact h2
    clear_value u3
    with_reducible refine Keeps.ite ?_ ?_
    · with_reducible exact h
    · split
      · with_reducible exact sendReport_keeps (h3)
      · with_reducible exact h3
  · rename_i n ih
    rw [updateJoin]
    lift_lets
    intro u4
    intro u5
    have h5 : Keeps q u5 := Keeps.mk (h)
    clear_value u5
    intro u6
    have h6 : Keeps q u6 := by
      dsimp only [u6]
      split
      · with_reducible exact leaveGroup_keeps (h5)
      · with_reducible exact h5
    clear_value u6
    with_reducible refine Keeps.ite ?_ ?_
    · with_reducible exact h
    · split
      · with_reducible exact sendReport_keeps (h6)
      · with_reducible exact h6

theorem noteQuery_keeps {q s} {x0 x1 x2} (h : Keeps q s) : Keeps q (noteQuery x0 x1 x2 s) := by
  unfold noteQuery
  lift_lets
  intro u1
  intro u2
  with_reducible exact Keeps.ite (Keeps.ite (h) (Keeps.ite (putPortX_keeps (h)) (putPortX_keeps (h)))) (Keeps.ite (putPortX_keeps (h)) (h))

theorem answerQuery_keeps {q s} {x0 x1 x2} (h : Keeps q s) : Keeps q (answerQuery x0 x1 x2 s) := by
  unfold answerQuery
  lift_lets
  intro u1
  intro u2
  with_reducible exact Keeps.foldl (noteQuery_keeps (h)) (fun s x h => sendReport_keeps (h))

theorem sendException_keeps {q s} {x0 x1 x2 x3} (h : Keeps q s) : Keeps q (sendException x0 x1 x2 x3 s) := by
  dsimp only [sendException]
  with_reducible exact Keeps.ite (bump_keeps h) (bump_keeps (Keeps.mk h))

theorem firmwareFrame_keeps {q s} {x0 x1 x2} (h : Keeps q s) : Keeps q (firmwareFrame x0 x1 x2 s) := by
  unfold firmwareFrame
  lift_lets
  intro u1
  intro u2
  with_reducible refine Keeps.ite ?_ ?_
  · with_reducible refine Keeps.ite ?_ ?_
    · with_reducible exact sendException_keeps (h)
    · split
      · with_reducible exact sendFirmware_keeps (h)
      · with_reducible exact h
  · split
    · with_reducible exact h
    · with_reducible refine Keeps.ite ?_ ?_
      · with_reducible exact sendFirmware_keeps (h)
      · with_reducible refine Keeps.ite ?_ ?_
        · with_reducible exact Keeps.ite (answerQuery_keeps (h)) (sendException_keeps (h))
        · split
          · with_reducible exact h
          · lift_lets
            intro u3
            with_reducible exact Keeps.ite (Keeps.ite (sendFirmware_keeps (h)) (h)) (Keeps.ite (sendFirmware_keeps (h)) (Keeps.ite (answerQuery_keeps (h)) (sendException_keeps (h))))

end Sys2Proof.Machine
end

