-- ==== Sys2Proof/Laws/KeepsPosition.lean ====
section
/-! SUPPORT. What Position.lean defines keeps soundness and the queue. -/

namespace Sys2Proof.Machine

open Sys2Proof

theorem putEnc_keeps {q s} {x0 x1} (h : Keeps q s) : Keeps q (putEnc x0 x1 s) := by
  dsimp only [putEnc]
  with_reducible exact Keeps.mk h

theorem putCmp_keeps {q s} {x0 x1} (h : Keeps q s) : Keeps q (putCmp x0 x1 s) := by
  dsimp only [putCmp]
  with_reducible exact Keeps.mk h

theorem putPosition_keeps {q s} {x0 x1} (h : Keeps q s) : Keeps q (putPosition x0 x1 s) := by
  dsimp only [putPosition]
  with_reducible exact putInt_keeps h

theorem giveAnswer_keeps {q s} {x0} (h : Keeps q s) : Keeps q (giveAnswer x0 s).2 := by
  unfold giveAnswer
  lift_lets
  intro u1
  have h1 : Keeps q u1.2 := takeChoice_keeps (h)
  clear_value u1
  split
  · with_reducible exact h
  · with_reducible exact h1

theorem answerOne_keeps {q s} {x0 x1} (h : Keeps q s) : Keeps q (answerOne x0 x1 s) := by
  unfold answerOne
  split
  · with_reducible exact h
  · lift_lets
    intro u1
    have h1 : Keeps q u1.2 := giveAnswer_keeps (h)
    clear_value u1
    intro u2
    with_reducible exact putEnc_keeps (h1)

theorem askPosition_keeps {q s} {x0 x1} (h : Keeps q s) : Keeps q (askPosition x0 x1 s) := by
  unfold askPosition
  lift_lets
  intro u1
  with_reducible exact answerOne_keeps (Keeps.ite (h) (putEnc_keeps (h)))

theorem answerSoftware_keeps {q s} {x0} (h : Keeps q s) : Keeps q (answerSoftware x0 s) := by
  unfold answerSoftware
  split
  · with_reducible exact h
  · split
    · with_reducible exact h
    · lift_lets
      intro u1
      have h1 : Keeps q u1.2 := giveAnswer_keeps (h)
      clear_value u1
      intro u2
      with_reducible exact putEnc_keeps (putObj_keeps (putInt_keeps (h1)))

theorem answerAll_keeps {q s} {x0} (h : Keeps q s) : Keeps q (answerAll x0 s) := by
  unfold answerAll
  with_reducible exact answerSoftware_keeps (Keeps.foldl (h) (fun s x h => answerOne_keeps (h)))

theorem queryAt_keeps {q s} {x0 x1} (h : Keeps q s) : Keeps q (queryAt x0 x1 s) := by
  dsimp only [queryAt]
  with_reducible exact answerAll_keeps (putEnc_keeps (putObj_keeps h))

theorem invalidate_keeps {q s} {x0} (h : Keeps q s) : Keeps q (invalidate x0 s) := by
  dsimp only [invalidate]
  with_reducible exact Keeps.ite (setSticky_keeps (putEnc_keeps (putObj_keeps (putObj_keeps h)))) (putObj_keeps (putObj_keeps h))

theorem markBehind_keeps {q s} {x0} (h : Keeps q s) : Keeps q (markBehind x0 s) := by
  dsimp only [markBehind]
  with_reducible exact Keeps.ite (putCmp_keeps (fire_keeps (setSticky_keeps (setSticky_keeps h)))) (fire_keeps (setSticky_keeps (setSticky_keeps h)))

theorem checkBehind_keeps {q s} {x0} (h : Keeps q s) : Keeps q (checkBehind x0 s) := by
  dsimp only [checkBehind]
  with_reducible exact Keeps.ite (markBehind_keeps h) h

theorem armUnit_keeps {q s} {x0} (h : Keeps q s) : Keeps q (armUnit x0 s) := by
  dsimp only [armUnit]
  with_reducible exact checkBehind_keeps (putObj_keeps (putCmp_keeps (putObj_keeps h)))

theorem cmpModeWritten_keeps {q s} {x0 x1} (h : Keeps q s) : Keeps q (cmpModeWritten x0 x1 s) := by
  dsimp only [cmpModeWritten]
  with_reducible exact Keeps.ite (putObj_keeps (putObj_keeps h)) (Keeps.ite (putObj_keeps (putObj_keeps h)) (armUnit_keeps (putObj_keeps h)))

theorem cmpStart_keeps {q s} {x0} (h : Keeps q s) : Keeps q (cmpStart x0 s) := by
  dsimp only [cmpStart]
  with_reducible exact Keeps.ite h (armUnit_keeps h)

theorem disarmUnit_keeps {q s} {x0} (h : Keeps q s) : Keeps q (disarmUnit x0 s) := by
  dsimp only [disarmUnit]
  with_reducible exact putObj_keeps h

theorem unitFire_keeps {q s} {x0 x1 x2} (h : Keeps q s) : Keeps q (unitFire x0 x1 x2 s) := by
  dsimp only [unitFire]
  with_reducible exact Keeps.ite (fire_keeps (setSticky_keeps (fireAt_keeps (putObj_keeps (setSticky_keeps (bump_keeps h)))))) (fireAt_keeps (putObj_keeps (setSticky_keeps (bump_keeps h))))

theorem afterFire_keeps {q s} {x0 x1 x2} (h : Keeps q s) : Keeps q (afterFire x0 x1 x2 s) := by
  dsimp only [afterFire]
  split
  · with_reducible exact Keeps.ite (disarmUnit_keeps (putObj_keeps (putCmp_keeps h))) (putObj_keeps (putCmp_keeps h))
  · split
    · with_reducible exact checkBehind_keeps (putObj_keeps (putCmp_keeps h))
    · with_reducible exact disarmUnit_keeps (putCmp_keeps h)
  · with_reducible exact disarmUnit_keeps (putCmp_keeps h)

theorem evalUnit_keeps {q s} {x0 x1} (h : Keeps q s) : Keeps q (evalUnit x0 x1 s) := by
  dsimp only [evalUnit]
  with_reducible refine Keeps.ite ?_ ?_
  · with_reducible exact h
  · with_reducible refine Keeps.ite ?_ ?_
    · with_reducible exact afterFire_keeps (unitFire_keeps (setSticky_keeps h))
    · with_reducible refine Keeps.ite ?_ ?_
      · split
        · with_reducible exact Keeps.ite (putCmp_keeps h) h
        · with_reducible exact h
      · with_reducible exact afterFire_keeps (unitFire_keeps (addObj_keeps h))

theorem jumpBehind_keeps {q s} {x0} (h : Keeps q s) : Keeps q (jumpBehind x0 s) := by
  dsimp only [jumpBehind]
  with_reducible exact Keeps.foldl h (fun s x h => checkBehind_keeps h)

theorem crossing_keeps {q s} {x0 x1 x2} (h : Keeps q s) : Keeps q (crossing x0 x1 x2 s) := by
  unfold crossing
  lift_lets
  intro u1
  intro u2
  have h2 : Keeps q u2 := bump_keeps (h)
  clear_value u2
  intro u3
  have h3 : Keeps q u3 := bump_keeps (putObj_keeps (putObj_keeps (putObj_keeps (putInt_keeps (h2)))))
  clear_value u3
  split
  · with_reducible exact putEnc_keeps (putObj_keeps (h2))
  · lift_lets
    intro u4
    intro u5
    have h5 : Keeps q u5 := putEnc_keeps (h2)
    clear_value u5
    intro u6
    have h6 : Keeps q u6 := putInt_keeps (h5)
    clear_value u6
    intro u7
    have h7 : Keeps q u7 := Keeps.ite (putObj_keeps (h6)) (h6)
    clear_value u7
    with_reducible exact Keeps.ite (putEnc_keeps (h3)) (Keeps.ite (h5) (Keeps.ite (putObj_keeps (h7)) (h7)))

theorem takeCrossing_keeps {q s} {x0 x1} (h : Keeps q s) : Keeps q (takeCrossing x0 x1 s) := by
  unfold takeCrossing
  split
  · with_reducible exact crossing_keeps (h)
  · with_reducible exact h

theorem evalChannel_keeps {q s} {x0} (h : Keeps q s) : Keeps q (evalChannel x0 s) := by
  unfold evalChannel
  lift_lets
  intro u1
  split
  · with_reducible exact h
  · lift_lets
    intro u2
    have h2 : Keeps q u2 := takeCrossing_keeps (putEnc_keeps (h))
    clear_value u2
    intro u3
    have h3 : Keeps q u3 := Keeps.foldl (h2) (fun s x h => evalUnit_keeps (h))
    clear_value u3
    intro u4
    intro u5
    have h5 : Keeps q u5 := putEnc_keeps (h3)
    clear_value u5
    with_reducible exact answerAll_keeps (Keeps.ite (jumpBehind_keeps (h5)) (h5))

theorem evalAvailable_keeps {q s} {x0 x1} (h : Keeps q s) : Keeps q (evalAvailable x0 x1 s) := by
  induction x1 generalizing x0 s
  · rw [evalAvailable]
    with_reducible exact h
  · rename_i n ih
    rw [evalAvailable]
    with_reducible exact Keeps.ite (ih (evalChannel_keeps (h))) (h)

theorem cmpTargetWritten_keeps {q s} {x0 x1 x2} (h : Keeps q s) : Keeps q (cmpTargetWritten x0 x1 x2 s) := by
  unfold cmpTargetWritten
  lift_lets
  intro u1
  intro u2
  have h2 : Keeps q u2 := evalAvailable_keeps (h)
  clear_value u2
  intro u3
  have h3 : Keeps q u3 := putObj_keeps (h2)
  clear_value u3
  intro u4
  with_reducible exact Keeps.ite (checkBehind_keeps (putCmp_keeps (h3))) (h3)

theorem encFault_keeps {q s} {x0 x1 x2} (h : Keeps q s) : Keeps q (encFault x0 x1 x2 s) := by
  unfold encFault
  lift_lets
  intro u1
  intro u2
  have h2 : Keeps q u2 := putObj_keeps (bump_keeps (h))
  clear_value u2
  intro u3
  have h3 : Keeps q u3 := setSticky_keeps (h2)
  clear_value u3
  intro u4
  have h4 : Keeps q u4 := invalidate_keeps (fireStamped_keeps (h3))
  clear_value u4
  intro u5
  intro u6
  have h6 : Keeps q u6 := putEnc_keeps (h4)
  clear_value u6
  intro u7
  have h7 : Keeps q u7.1 := recordFault_keeps (h6)
  clear_value u7
  intro u8
  with_reducible exact Keeps.ite (setSticky_keeps (putObj_keeps (putEnc_keeps (h7)))) (h7)

theorem encReinstate_keeps {q s} {x0} (h : Keeps q s) : Keeps q (encReinstate x0 s) := by
  dsimp only [encReinstate]
  with_reducible exact Keeps.ite (putEnc_keeps (dropRetired_keeps (putObj_keeps h))) h

theorem speedUpdate_keeps {q s} {x0} (h : Keeps q s) : Keeps q (speedUpdate x0 s) := by
  unfold speedUpdate
  split
  · with_reducible exact h
  · lift_lets
    intro u1
    intro u2
    intro u3
    have h3 : Keeps q u3 := putEnc_keeps (h)
    clear_value u3
    with_reducible refine Keeps.ite ?_ ?_
    · split
      · with_reducible exact h3
      · lift_lets
        intro u4
        intro u5
        have h5 : Keeps q u5 := putInt_keeps (h3)
        clear_value u5
        with_reducible exact Keeps.ite (putObj_keeps (h5)) (h5)
    · split
      · with_reducible exact h3
      · lift_lets
        intro u6
        with_reducible exact Keeps.ite (putInt_keeps (h3)) (h3)

theorem standstill_keeps {q s} {x0} (h : Keeps q s) : Keeps q (standstill x0 s) := by
  dsimp only [standstill]
  with_reducible exact putEnc_keeps (putObj_keeps (putObj_keeps (putInt_keeps h)))

theorem autocalUpdate_keeps {q s} {x0 x1} (h : Keeps q s) : Keeps q (autocalUpdate x0 x1 s) := by
  unfold autocalUpdate
  lift_lets
  intro u1
  intro u2
  intro u3
  intro u4
  have h4 : Keeps q u4 := putInt_keeps (putInt_keeps (h))
  clear_value u4
  intro u5
  with_reducible exact putObj_keeps (h4)

theorem autocal_keeps {q s} {x0 x1 x2 x3 x4 x5} (h : Keeps q s) : Keeps q (autocal x0 x1 x2 x3 x4 x5 s) := by
  dsimp only [autocal]
  with_reducible exact Keeps.ite (putEnc_keeps h) (putEnc_keeps (Keeps.ite (autocalUpdate_keeps h) h))

theorem markZ_keeps {q s} {x0} (h : Keeps q s) : Keeps q (markZ x0 s) := by
  unfold markZ
  lift_lets
  intro u1
  intro u2
  have h2 : Keeps q u2 := putEnc_keeps (h)
  clear_value u2
  intro u3
  with_reducible exact Keeps.ite (emit_keeps (h2)) (h2)

theorem quadShift_keeps {q s} {x0 x1 x2} (h : Keeps q s) : Keeps q (quadShift x0 x1 x2 s) := by
  dsimp only [quadShift]
  with_reducible exact putEnc_keeps h

theorem homeTo_keeps {q s} {x0 x1} (h : Keeps q s) : Keeps q (homeTo x0 x1 s) := by
  unfold homeTo
  lift_lets
  intro u1
  intro u2
  intro u3
  have h3 : Keeps q u3 := putEnc_keeps (h)
  clear_value u3
  intro u4
  have h4 : Keeps q u4 := putObj_keeps (putPosition_keeps (h3))
  clear_value u4
  with_reducible exact quadShift_keeps (h4)

theorem markSample_keeps {q s} {x0 x1 x2 x3} (h : Keeps q s) : Keeps q (markSample x0 x1 x2 x3 s) := by
  unfold markSample
  lift_lets
  intro u1
  have h1 : Keeps q u1 := putObj_keeps (putInt_keeps (h))
  clear_value u1
  intro u2
  have h2 : Keeps q u2 := fireStamped_keeps (setSticky_keeps (bump_keeps (h1)))
  clear_value u2
  intro u3
  intro u4
  have h4 : Keeps q u4 := markZ_keeps (homeTo_keeps (h2))
  clear_value u4
  with_reducible exact Keeps.ite (markZ_keeps (h2)) (Keeps.ite (putObj_keeps (h4)) (h4))

theorem takeSample_keeps {q s} {x0 x1 x2 x3 x4 x5 x6 x7 x8} (h : Keeps q s) : Keeps q (takeSample x0 x1 x2 x3 x4 x5 x6 x7 x8 s) := by
  unfold takeSample
  lift_lets
  intro u1 u2 u3
  clear_value u1 u2
  have h3 : Keeps q u3 := by
    dsimp only [u3]
    split
    · with_reducible exact encFault_keeps h
    · with_reducible exact h
  clear_value u3
  intro u4 u5 u6 u7 u8 u9 u10 u11 u12 u13
  clear_value u4 u5 u6 u7 u8 u9 u10 u11 u12
  have h13 : Keeps q u13 := putObj_keeps h3
  clear_value u13
  intro u14 u15 u16 u17
  clear_value u14 u15 u16
  have h17 : Keeps q u17 := putEnc_keeps h13
  clear_value u17
  intro u18
  have h18 : Keeps q u18 := putPosition_keeps h17
  clear_value u18
  intro u19
  have h19 : Keeps q u19 := Keeps.ite (quadShift_keeps h18) h18
  clear_value u19
  intro u20
  have h20 : Keeps q u20 := Keeps.ite h19 (autocal_keeps h19)
  clear_value u20
  intro u21
  have h21 : Keeps q u21 := Keeps.ite (markSample_keeps h20) h20
  clear_value u21
  with_reducible exact Keeps.ite (setSticky_keeps h21) h21

theorem encSample_keeps {q s} {x0 x1 x2 x3 x4} (h : Keeps q s) : Keeps q (encSample x0 x1 x2 x3 x4 s) := by
  unfold encSample
  with_reducible refine Keeps.ite ?_ ?_
  · with_reducible exact h
  · lift_lets
    intro u1 u2 u3
    clear_value u1 u2
    have h3 : Keeps q u3 := putObj_keeps (putObj_keeps h)
    clear_value u3
    intro u4 u5 u6 u7 u8
    clear_value u4 u5 u6 u7
    have h8 : Keeps q u8 := putEnc_keeps h3
    clear_value u8
    intro u9 u10 u11
    clear_value u9 u10 u11
    split
    · with_reducible exact Keeps.ite (encFault_keeps h8) (Keeps.ite h8 (takeSample_keeps (putEnc_keeps h8)))
    · with_reducible exact takeSample_keeps h8

theorem encDisabled_keeps {q s} {x0} (h : Keeps q s) : Keeps q (encDisabled x0 s) := by
  unfold encDisabled
  lift_lets
  intro u1
  have h1 : Keeps q u1 := invalidate_keeps h
  clear_value u1
  intro u2
  clear_value u2
  with_reducible exact putEnc_keeps h1

theorem encEnableWritten_keeps {q s} {x0 x1} (h : Keeps q s) : Keeps q (encEnableWritten x0 x1 s) := by
  unfold encEnableWritten
  lift_lets
  intro u1 u2
  clear_value u1
  have h2 : Keeps q u2 := putObj_keeps h
  clear_value u2
  with_reducible exact Keeps.ite (encDisabled_keeps h2) h2

theorem encGeometryWritten_keeps {q s} {x0 x1 x2} (h : Keeps q s) : Keeps q (encGeometryWritten x0 x1 x2 s) := by
  dsimp only [encGeometryWritten]
  with_reducible exact invalidate_keeps (putObj_keeps h)

theorem positionWritten_keeps {q s} {x0 x1} (h : Keeps q s) : Keeps q (positionWritten x0 x1 s) := by
  dsimp only [positionWritten]
  with_reducible exact putEnc_keeps h

theorem listWritten_keeps {q s} {x0} (h : Keeps q s) : Keeps q (listWritten x0 s) := by
  unfold listWritten
  lift_lets
  intro u1
  with_reducible exact Keeps.mk h

theorem execEncoderSample_keeps {q s} {x0 x1 x2 x3 x4} (h : Keeps q s) : Answers (Keeps q) (execEncoderSample x0 x1 x2 x3 x4 s) := by
  dsimp only [execEncoderSample]
  with_reducible exact Keeps.answers_ite (Keeps.answers (encSample_keeps h)) (Keeps.answers h)

theorem execPositionCompare_keeps {q s} {x0} (h : Keeps q s) : Answers (Keeps q) (execPositionCompare x0 s) := by
  dsimp only [execPositionCompare]
  with_reducible exact Keeps.answers_ite (Keeps.answers (evalChannel_keeps h)) (Keeps.answers h)

theorem execSpeedUpdate_keeps {q s} {x0} (h : Keeps q s) : Answers (Keeps q) (execSpeedUpdate x0 s) := by
  dsimp only [execSpeedUpdate]
  with_reducible exact Keeps.answers_ite (Keeps.answers (speedUpdate_keeps h)) (Keeps.answers h)

theorem execStandstillTimeout_keeps {q s} {x0} (h : Keeps q s) : Answers (Keeps q) (execStandstillTimeout x0 s) := by
  unfold execStandstillTimeout
  with_reducible refine Keeps.answers_ite ?_ ?_
  · lift_lets
    intro u1
    have h1 : Keeps q u1 := evalAvailable_keeps h
    clear_value u1
    with_reducible refine Keeps.answers ?_
    with_reducible exact Keeps.ite (standstill_keeps h1) h1
  · with_reducible refine Keeps.answers ?_
    with_reducible exact h

theorem execQuadOutputEdge_keeps {q s} {x0} (h : Keeps q s) : Answers (Keeps q) (execQuadOutputEdge x0 s) := by
  dsimp only [execQuadOutputEdge]
  with_reducible exact Keeps.answers_ite (Keeps.answers h) (Keeps.answers (emit_keeps (putEnc_keeps h)))

end Sys2Proof.Machine
end

