-- ==== Sys2Proof/Laws/KeepsLauter.lean ====
section
/-! SUPPORT. What Lauter.lean defines keeps soundness and the queue. -/

namespace Sys2Proof.Machine

open Sys2Proof

theorem usedStamps_keeps {q s} {x0 x1 x2} (h : Keeps q s) : Keeps q (usedStamps x0 x1 x2 s) := by
  dsimp only [usedStamps]
  split
  · with_reducible exact Keeps.mk h
  · with_reducible exact h

theorem clearStamps_keeps {q s} {x0} (h : Keeps q s) : Keeps q (clearStamps x0 s) := by
  dsimp only [clearStamps]
  with_reducible exact Keeps.mk h

theorem stampOccurrence_keeps {q s} {x0 x1 x2} (h : Keeps q s) : Keeps q (stampOccurrence x0 x1 x2 s) := by
  unfold stampOccurrence
  with_reducible refine Keeps.ite ?_ ?_
  · with_reducible exact h
  · lift_lets
    intro u1 u2 u3 u4 u5
    clear_value u1 u2 u3
    have h5 : Keeps q u5 := Keeps.mk h
    clear_value u5
    with_reducible exact purgeStamps_keeps (Keeps.ite h5 (askPosition_keeps h5))

theorem positionAt_keeps {q s} {x0 x1} (h : Keeps q s) : Keeps q (positionAt x0 x1 s).2 := by
  unfold positionAt
  with_reducible refine Keeps.ite_snd ?_ ?_
  · with_reducible exact h
  · split
    · with_reducible exact h
    · split
      · with_reducible exact giveAnswer_keeps h
      · with_reducible exact giveAnswer_keeps h

theorem withPosition_keeps {q s} {x0} (h : Keeps q s) : Keeps q (withPosition x0 s).2 := by
  dsimp only [withPosition]
  with_reducible exact positionAt_keeps h

theorem arrivalStamp_keeps {q s} {x0 x1} (h : Keeps q s) : Keeps q (arrivalStamp x0 x1 s).2 := by
  dsimp only [arrivalStamp]
  split
  · with_reducible exact withPosition_keeps h
  · dsimp only
    with_reducible exact takeFree_keeps h

theorem stampFor_keeps {q s} {x0 x1 x2 x3} (h : Keeps q s) : Keeps q (stampFor x0 x1 x2 x3 s).2 := by
  unfold stampFor
  split
  · with_reducible exact arrivalStamp_keeps h
  · split
    · with_reducible exact withPosition_keeps h
    · with_reducible exact arrivalStamp_keeps h

theorem countMissing_keeps {q s} {x0 x1 x2} (h : Keeps q s) : Keeps q (countMissing x0 x1 x2 s) := by
  unfold countMissing
  split
  · lift_lets
    intro u1
    clear_value u1
    with_reducible exact Keeps.ite h (setSticky_keeps (addObj_keeps h))
  · with_reducible exact setSticky_keeps (addObj_keeps h)
  · with_reducible exact h

theorem tryComplete_keeps {q s} {x0 x1} (h : Keeps q s) : Keeps q (tryComplete x0 x1 s) := by
  dsimp only [tryComplete]
  split
  · with_reducible exact h
  · split
    · with_reducible exact h
    · with_reducible exact Keeps.ite (closeFrame_keeps h) h

theorem served_keeps {q s} {x0} (h : Keeps q s) : Keeps q (served x0 s) := by
  unfold served
  lift_lets
  intro u1
  with_reducible exact Keeps.mk h

theorem refuse_keeps {q s} {x0 x1 x2} (h : Keeps q s) : Keeps q (refuse x0 x1 x2 s) := by
  unfold refuse
  lift_lets
  intro u1
  clear_value u1
  with_reducible exact putFlow_keeps h

theorem openFrame_keeps {q s} {x0 x1 x2 x3 x4} (h : Keeps q s) : Keeps q (openFrame x0 x1 x2 x3 x4 s) := by
  unfold openFrame
  lift_lets
  intro u1
  have h1 : Keeps q u1 := by
    dsimp only [u1]
    split
    · with_reducible exact closeFrame_keeps h
    · with_reducible exact h
  clear_value u1
  intro u2 u3
  clear_value u2
  have h3 : Keeps q u3 := served_keeps (putObj_keeps h1)
  clear_value u3
  intro u4 u5
  clear_value u4
  have h5 : Keeps q u5 := refuse_keeps h3
  clear_value u5
  intro u6
  have h6 : Keeps q u6 := setSticky_keeps (bump_keeps h5)
  clear_value u6
  intro u7
  have h7 : Keeps q u7.2 := reserveCask_keeps h3
  clear_value u7
  intro u8 u9
  have h9 : Keeps q u9.2 := hydroOpen_keeps h7
  clear_value u9
  intro u10 u11 u12 u13
  clear_value u11 u12
  have h13 : Keeps q u13 := putFlow_keeps h9
  clear_value u13
  intro u14
  split
  · with_reducible exact countLost_keeps h6
  · with_reducible exact flowSignal_keeps (Keeps.mk h13)

theorem copyToHydro_keeps {q s} {x0 x1 x2} (h : Keeps q s) : Keeps q (copyToHydro x0 x1 x2 s) := by
  dsimp only [copyToHydro]
  split
  · with_reducible exact h
  · split
    · with_reducible exact h
    · with_reducible exact putHydro_keeps (Keeps.ite (bump_keeps h) h)

theorem issue_keeps {q s} {x0 x1 x2} (h : Keeps q s) : Keeps q (issue x0 x1 x2 s) := by
  dsimp only [issue]
  split
  · with_reducible exact h
  · with_reducible exact copyToHydro_keeps (Keeps.ite (putObj_keeps (Keeps.mk (touchPage_keeps h))) (Keeps.mk (touchPage_keeps h)))

theorem placeOne_keeps {q s} {x0 x1 x2 x3 x4} (h : Keeps q s) : Keeps q (placeOne x0 x1 x2 x3 x4 s) := by
  unfold placeOne
  lift_lets
  intro u1
  clear_value u1
  with_reducible exact Keeps.ite (served_keeps (issue_keeps h)) (setSticky_keeps (putRegion_keeps h))

theorem placePieces_keeps {q s} {x0 x1 x2 x3} (h : Keeps q s) : Keeps q (placePieces x0 x1 x2 x3 s) := by
  induction x3 generalizing x0 x1 x2 s
  · rw [placePieces]
    with_reducible exact h
  · rename_i a t ih
    rw [placePieces]
    with_reducible exact ih (placeOne_keeps h)

theorem issueWaiting_keeps {q s} (h : Keeps q s) : Keeps q (issueWaiting s) := by
  unfold issueWaiting
  with_reducible refine Keeps.ite ?_ ?_
  · with_reducible exact h
  · split
    · with_reducible exact h
    · split
      · with_reducible exact h
      · lift_lets
        intro u1
        clear_value u1
        with_reducible exact updateBoil_keeps (served_keeps (issue_keeps (putRegion_keeps h)))

theorem askArrival_keeps {q s} {x0 x1} (h : Keeps q s) : Keeps q (askArrival x0 x1 s) := by
  dsimp only [askArrival]
  with_reducible exact Keeps.ite (askPosition_keeps h) h

theorem placeRuns_keeps {q s} {x0 x1 x2 x3} (h : Keeps q s) : Keeps q (placeRuns x0 x1 x2 x3 s) := by
  dsimp only [placeRuns]
  split
  · with_reducible exact h
  · with_reducible exact Keeps.foldl (askArrival_keeps (putFrame_keeps h)) (fun s x h => placePieces_keeps h)

theorem countStale_keeps {q s} {x0} (h : Keeps q s) : Keeps q (countStale x0 s) := by
  dsimp only [countStale]
  with_reducible exact setSticky_keeps (bump_keeps h)

theorem countDuplicate_keeps {q s} {x0} (h : Keeps q s) : Keeps q (countDuplicate x0 s) := by
  dsimp only [countDuplicate]
  with_reducible exact setSticky_keeps (bump_keeps h)

theorem headerError_keeps {q s} {x0 x1 x2} (h : Keeps q s) : Keeps q (headerError x0 x1 x2 s) := by
  dsimp only [headerError]
  with_reducible exact sendException_keeps (bump_keeps h)

theorem placeSt_keeps {q s} {x0 x1 x2 x3} (h : Keeps q s) : Keeps q (placeSt x0 x1 x2 x3 s) := by
  unfold placeSt
  split
  · with_reducible exact headerError_keeps h
  · lift_lets
    intro u1 u2 u3 u4 u5
    clear_value u1 u2 u3 u4
    have h5 : Keeps q u5 := putFlow_keeps h
    clear_value u5
    intro u6 u7
    clear_value u6
    have h7 : Keeps q u7 := Keeps.ite (openFrame_keeps h5) h5
    clear_value u7
    with_reducible refine Keeps.ite ?_ ?_
    · with_reducible exact headerError_keeps h
    · with_reducible refine Keeps.ite ?_ ?_
      · with_reducible exact countDuplicate_keeps h
      · with_reducible refine Keeps.ite ?_ ?_
        · with_reducible exact countStale_keeps h5
        · with_reducible refine Keeps.ite ?_ ?_
          · with_reducible exact bump_keeps h5
          · with_reducible refine Keeps.ite ?_ ?_
            · with_reducible exact h5
            · split
              · with_reducible exact h7
              · lift_lets
                intro u8 u9
                clear_value u8 u9
                with_reducible exact tryComplete_keeps (placeRuns_keeps h7)

theorem noteLeader_keeps {q s} {x0 x1 x2 x3} (h : Keeps q s) : Keeps q (noteLeader x0 x1 x2 x3 s).2 := by
  unfold noteLeader
  lift_lets
  intro u1 u2 u3
  clear_value u1 u2
  have h3 : Keeps q u3 := Keeps.ite h (putObj_keeps h)
  clear_value u3
  intro u4 u5 u6
  clear_value u4 u5 u6
  with_reducible refine Keeps.ite_snd ?_ ?_
  · split
    · with_reducible exact putFlow_keeps h3
    · lift_lets
      intro u7
      clear_value u7
      with_reducible exact Keeps.ite_snd (putFlow_keeps h3) (putFlow_keeps h3)
  · with_reducible exact putFlow_keeps h3

theorem strayPacket_keeps {q s} {x0 x1 x2} {f : State → State} (hf : ∀ s, Keeps q s → Keeps q (f s)) (h : Keeps q s) :
    Keeps q (strayPacket x0 x1 x2 f s) := by
  unfold strayPacket
  exact Keeps.ite (countStale_keeps h) (Keeps.ite (bump_keeps h) (hf _ h))

theorem leaderOpens_keeps {q s} {x0 x1 x2 x3 x4} (h : Keeps q s) : Keeps q (leaderOpens x0 x1 x2 x3 x4 s) := by
  unfold leaderOpens
  with_reducible refine Keeps.ite ?_ ?_
  · with_reducible exact h
  · lift_lets
    intro u1
    have h1 : Keeps q u1.2 := noteLeader_keeps h
    clear_value u1
    intro u2
    have h2 : Keeps q u2 := openFrame_keeps h1
    clear_value u2
    with_reducible refine Keeps.ite ?_ ?_
    · with_reducible exact h1
    · split
      · with_reducible exact h2
      · lift_lets
        intro u3
        clear_value u3
        with_reducible exact askArrival_keeps (putFrame_keeps h2)

theorem placeLeader_keeps {q s} {x0 x1 x2 x3} (h : Keeps q s) : Keeps q (placeLeader x0 x1 x2 x3 s) := by
  unfold placeLeader
  split
  · with_reducible refine Keeps.ite ?_ ?_
    · with_reducible exact headerError_keeps h
    · lift_lets
      intro u1
      have h1 : Keeps q u1.2 := noteLeader_keeps h
      clear_value u1
      intro u2
      clear_value u2
      with_reducible exact askArrival_keeps (putFrame_keeps h1)
  · split
    · with_reducible exact headerError_keeps h
    · with_reducible exact strayPacket_keeps (fun s h => leaderOpens_keeps h) h

theorem placePayload_keeps {q s} {x0 x1 x2 x3} (h : Keeps q s) : Keeps q (placePayload x0 x1 x2 x3 s) := by
  unfold placePayload
  split
  · with_reducible exact strayPacket_keeps (fun s h => bump_keeps h) h
  · with_reducible refine Keeps.ite ?_ ?_
    · with_reducible exact bump_keeps h
    · with_reducible refine Keeps.ite ?_ ?_
      · with_reducible exact headerError_keeps h
      · with_reducible refine Keeps.ite ?_ ?_
        · with_reducible exact countDuplicate_keeps h
        · lift_lets
          intro u1 u2 u3
          clear_value u1 u2 u3
          with_reducible exact tryComplete_keeps (placeRuns_keeps h)

theorem placeTrailer_keeps {q s} {x0 x1 x2 x3} (h : Keeps q s) : Keeps q (placeTrailer x0 x1 x2 x3 s) := by
  unfold placeTrailer
  with_reducible refine Keeps.ite ?_ ?_
  · with_reducible exact headerError_keeps h
  · split
    · with_reducible exact strayPacket_keeps (fun s h => bump_keeps h) h
    · split
      · with_reducible exact headerError_keeps h
      · lift_lets
        intro u1 u2 u3
        clear_value u1 u2 u3
        with_reducible exact tryComplete_keeps (putFrame_keeps h)

theorem placeGvsp_keeps {q s} {x0 x1 x2} (h : Keeps q s) : Keeps q (placeGvsp x0 x1 x2 s) := by
  dsimp only [placeGvsp]
  split
  · with_reducible exact headerError_keeps h
  · with_reducible refine Keeps.ite ?_ ?_
    · with_reducible exact headerError_keeps h
    · split
      · with_reducible exact placeLeader_keeps h
      · with_reducible exact placeTrailer_keeps h
      · with_reducible exact placePayload_keeps h
      · with_reducible exact headerError_keeps h

theorem placeFlow_keeps {q s} {x0 x1 x2} (h : Keeps q s) : Keeps q (placeFlow x0 x1 x2 s) := by
  unfold placeFlow
  split
  · with_reducible exact Keeps.ite (placeGvsp_keeps h) (placeSt_keeps h)
  · split
    · with_reducible exact placeSt_keeps h
    · with_reducible exact placeGvsp_keeps h
    · with_reducible exact h

theorem passPacket_keeps {q s} {x0 x1} (h : Keeps q s) : Keeps q (passPacket x0 x1 s) := by
  unfold passPacket
  lift_lets
  intro u1 u2
  clear_value u1 u2
  with_reducible exact updateBoil_keeps (putRegion_keeps h)

theorem placePacket_keeps {q s} {x0} (h : Keeps q s) : Keeps q (placePacket x0 s) := by
  unfold placePacket
  split
  · with_reducible exact h
  · with_reducible refine passPacket_keeps ?_
    split
    · with_reducible exact firmwareFrame_keeps h
    · with_reducible exact sendException_keeps h
    · with_reducible exact Keeps.ite h (placeFlow_keeps h)

theorem lineStamps_keeps {q s} {x0 x1 x2} (h : Keeps q s) : Keeps q (lineStamps x0 x1 x2 s).2 := by
  induction x2 with
  | zero => exact h
  | succ n ih =>
    simp only [lineStamps]
    exact stampFor_keeps ih

theorem writeRecords_keeps {q s} {x0 x1 x2 x3} (h : Keeps q s) : Keeps q (writeRecords x0 x1 x2 x3 s) := by
  induction x3 generalizing x2 s with
  | nil => exact h
  | cons b t ih =>
    simp only [writeRecords]
    exact ih (writeCask_keeps h)

theorem dropOldest_keeps {q s} {x0 x1} (h : Keeps q s) : Keeps q (dropOldest x0 x1 s) := by
  induction x1 generalizing s with
  | nil => exact h
  | cons b t ih =>
    obtain ⟨i, c⟩ := b
    simp only [dropOldest]
    exact Keeps.ite h (Keeps.ite (ih (setSticky_keeps (bump_keeps (loseCask_keeps h)))) (ih h))

theorem commitCask_keeps {q s} {x0 x1 x2} (h : Keeps q s) : Keeps q (commitCask x0 x1 x2 s) := by
  dsimp only [commitCask]
  split
  · with_reducible exact h
  · with_reducible exact updateLevels_keeps (putCask_keeps (Keeps.mk h))

theorem commitFrame_keeps {q s} {x0 x1} (h : Keeps q s) : Keeps q (commitFrame x0 x1 s) := by
  unfold commitFrame
  lift_lets
  intro u1 u2 u3
  clear_value u1 u2
  have h3 : Keeps q u3 := countMissing_keeps h
  clear_value u3
  intro u4
  have h4 : Keeps q u4.2 := stampFor_keeps h3
  clear_value u4
  intro u5 u6
  have h6 : Keeps q u6.2 := lineStamps_keeps h4
  clear_value u6
  intro u7
  have h7 : Keeps q u7 := Keeps.ite (writeRecords_keeps h6) h4
  clear_value u7
  intro u8
  have h8 : Keeps q u8 := commitCask_keeps h7
  clear_value u8
  intro u9 u10
  have h10 : Keeps q u10 := Keeps.mk h8
  clear_value u10
  intro u11
  have h11 : Keeps q u11 := bump_keeps h10
  clear_value u11
  intro u12
  have h12 : Keeps q u12 := Keeps.ite h11 (bump_keeps h11)
  clear_value u12
  intro u13
  have h13 : Keeps q u13 := by
    dsimp only [u13]
    split
    · with_reducible exact fileRecord_keeps h12
    · with_reducible exact h12
  clear_value u13
  intro u14 u15
  clear_value u14
  have h15 : Keeps q u15 := putFlow_keeps h13
  clear_value u15
  intro u16
  have h16 : Keeps q u16 := purgeStamps_keeps (usedStamps_keeps h15)
  clear_value u16
  with_reducible exact flowSignal_keeps (dropOldest_keeps h16)

theorem execPlacementComplete_keeps {q s} {x0} (h : Keeps q s) : Answers (Keeps q) (execPlacementComplete x0 s) := by
  dsimp only [execPlacementComplete]
  split
  · with_reducible exact Keeps.answers h
  · split
    · with_reducible exact Keeps.answers (tryComplete_keeps (issueWaiting_keeps (Keeps.mk (Keeps.ite (writePerformed_keeps h) h))))
    · with_reducible exact Keeps.answers (issueWaiting_keeps (Keeps.mk (Keeps.ite (writePerformed_keeps h) h)))

theorem addNotice_keeps {q s} {x0 x1} (h : Keeps q s) : Keeps q (addNotice x0 x1 s) := by
  dsimp only [addNotice]
  split
  · with_reducible exact putFrame_keeps h
  · with_reducible exact putFlow_keeps h

theorem execRewindNotice_keeps {q s} (h : Keeps q s) : Answers (Keeps q) (execRewindNotice s) := by
  dsimp only [execRewindNotice]
  split
  · with_reducible exact Keeps.answers h
  · split
    · with_reducible exact Keeps.answers (addNotice_keeps (dropStaged_keeps (Keeps.mk h)))
    · with_reducible exact Keeps.answers (dropStaged_keeps (Keeps.mk h))

theorem execStraggleTimeout_keeps {q s} {x0} (h : Keeps q s) : Answers (Keeps q) (execStraggleTimeout x0 s) := by
  dsimp only [execStraggleTimeout]
  split
  · with_reducible exact Keeps.answers (closeFrame_keeps h)
  · with_reducible exact Keeps.answers h

theorem flowFault_keeps {q s} {x0} (h : Keeps q s) : Keeps q (flowFault x0 s) := by
  dsimp only [flowFault]
  with_reducible exact Keeps.ite (stopFlow_keeps (recordFault_keeps h)) (recordFault_keeps h)

theorem execFrameIdleTimeout_keeps {q s} {x0} (h : Keeps q s) : Answers (Keeps q) (execFrameIdleTimeout x0 s) := by
  dsimp only [execFrameIdleTimeout]
  split
  · with_reducible exact Keeps.answers (flowFault_keeps (closeFrame_keeps h))
  · with_reducible exact Keeps.answers h

theorem execFrameCommit_keeps {q s} {x0} (h : Keeps q s) : Answers (Keeps q) (execFrameCommit x0 s) := by
  dsimp only [execFrameCommit]
  split
  · with_reducible exact Keeps.answers (commitFrame_keeps h)
  · with_reducible exact Keeps.answers h

theorem sendResend_keeps {q s} {x0 x1 x2 x3} (h : Keeps q s) : Keeps q (sendResend x0 x1 x2 x3 s) := by
  dsimp only [sendResend]
  with_reducible exact sendFirmware_keeps (takeFree_keeps h)

theorem execResendRequest_keeps {q s} {x0 x1 x2} (h : Keeps q s) : Answers (Keeps q) (execResendRequest x0 x1 x2 s) := by
  dsimp only [execResendRequest]
  split
  · with_reducible exact Keeps.answers h
  · with_reducible exact Keeps.answers_ite (Keeps.answers (bump_keeps (sendResend_keeps (putFrame_keeps h)))) (Keeps.answers h)

end Sys2Proof.Machine
end

