-- ==== Sys2Proof/Laws/KeepsTags.lean ====
section
/-! SUPPORT. What Tags.lean defines keeps soundness and the queue. -/

namespace Sys2Proof.Machine

open Sys2Proof

theorem hostRead_keeps {q s} {x0 x1 x2} (h : Keeps q s) : Keeps q (hostRead x0 x1 x2 s) := by
  dsimp only [hostRead]
  with_reducible exact Keeps.ite h (emit_keeps (Keeps.mk (takeChoice_keeps h)))

theorem freeTag_keeps {q s} {x0} (h : Keeps q s) : Keeps q (freeTag x0 s) := by
  dsimp only [freeTag]
  with_reducible exact Keeps.mk h

theorem tlbTouch_keeps {q s} {x0} (h : Keeps q s) : Keeps q (tlbTouch x0 s) := by
  dsimp only [tlbTouch]
  with_reducible exact Keeps.mk h

theorem tlbDrop_keeps {q s} {x0} (h : Keeps q s) : Keeps q (tlbDrop x0 s) := by
  dsimp only [tlbDrop]
  with_reducible exact Keeps.mk h

theorem tlbForget_keeps {q s} {x0} (h : Keeps q s) : Keeps q (tlbForget x0 s) := by
  unfold tlbForget
  lift_lets
  intro u1
  intro u2
  with_reducible exact tlbDrop_keeps (Keeps.mk (h))

theorem startWalk_keeps {q s} {x0 x1 x2} (h : Keeps q s) : Keeps q (startWalk x0 x1 x2 s) := by
  dsimp only [startWalk]
  with_reducible exact Keeps.ite h (hostRead_keeps (bump_keeps (bump_keeps h)))

theorem translate_keeps {q s} {x0 x1 x2 x3} (h : Keeps q s) : Keeps q (translate x0 x1 x2 x3 s).2 := by
  dsimp only [translate]
  split
  · with_reducible exact tlbTouch_keeps (bump_keeps h)
  · with_reducible exact startWalk_keeps h

theorem cacheEight_keeps {q s} {x0 x1 x2 x3 x4} (h : Keeps q s) : Keeps q (cacheEight x0 x1 x2 x3 x4 s) := by
  induction x4 with
  | zero => exact h
  | succ n ih =>
    simp only [cacheEight]
    exact Keeps.ite (tlbTouch_keeps ih) ih

theorem walkReturn_keeps {q s} {x0 x1 x2 x3 x4} (h : Keeps q s) : Keeps q (walkReturn x0 x1 x2 x3 x4 s).2 := by
  dsimp only [walkReturn]
  with_reducible exact Keeps.ite_snd (Keeps.ite_snd h (hostRead_keeps (bump_keeps h))) (Keeps.ite_snd (tlbTouch_keeps (cacheEight_keeps h)) (cacheEight_keeps h))

end Sys2Proof.Machine
end

