-- ==== Sys2Proof/Laws/KeepsRacking.lean ====
section
/-! SUPPORT. What Racking.lean defines keeps soundness and the queue. -/

namespace Sys2Proof.Machine

open Sys2Proof

theorem unreserve_keeps {q s} {x0} (h : Keeps q s) : Keeps q (unreserve x0 s) := by
  dsimp only [unreserve]
  with_reducible exact putCq_keeps h

theorem writeReserved_keeps {q s} {x0 x1} (h : Keeps q s) : Keeps q (writeReserved x0 x1 s) := by
  dsimp only [writeReserved]
  with_reducible exact writeEntry_keeps (unreserve_keeps h)

theorem enableCq_keeps {q s} {x0} (h : Keeps q s) : Keeps q (enableCq x0 s) := by
  dsimp only [enableCq]
  with_reducible exact Keeps.ite (putObj_keeps h) (putCq_keeps (putObj_keeps h))

theorem disableCq_keeps {q s} {x0} (h : Keeps q s) : Keeps q (disableCq x0 s) := by
  dsimp only [disableCq]
  with_reducible exact putCq_keeps (putObj_keeps h)

theorem writeAbandoned_keeps {q s} {x0 x1} (h : Keeps q s) : Keeps q (writeAbandoned x0 x1 s) := by
  induction x1 generalizing s with
  | nil => exact h
  | cons b t ih =>
    simp only [writeAbandoned]
    exact ih (putRing_keeps (Keeps.ite (writeReserved_keeps h) h))

theorem stopDeliveries_keeps {q s} {x0 x1} (h : Keeps q s) : Keeps q (stopDeliveries x0 x1 s) := by
  dsimp only [stopDeliveries]
  with_reducible refine Keeps.foldl ?_ ?_
  · with_reducible exact h
  · intro s x h
    try dsimp only
    split
    · with_reducible exact Keeps.ite (loseCask_keeps (Keeps.mk (putRing_keeps h))) (setCaskState_keeps (Keeps.mk (putRing_keeps h)))
    · with_reducible exact Keeps.mk (putRing_keeps h)

theorem faultEntry_keeps {q s} {x0 x1} (h : Keeps q s) : Keeps q (faultEntry x0 x1 s).2 := by
  unfold faultEntry
  lift_lets
  intro u1
  have h1 : Keeps q u1.2 := takeChoice_keeps h
  clear_value u1
  intro u2
  have h2 : Keeps q u2.2 := takeChoice_keeps h1
  clear_value u2
  intro u3
  have h3 : Keeps q u3.2 := takeChoice_keeps h2
  clear_value u3
  with_reducible exact h3

theorem ringFault_keeps {q s} {x0 x1 x2} (h : Keeps q s) : Keeps q (ringFault x0 x1 x2 s) := by
  unfold ringFault
  lift_lets
  intro u1
  have h1 : Keeps q u1 := stopDeliveries_keeps h
  clear_value u1
  intro u2
  have h2 : Keeps q u2 := putObj_keeps h1
  clear_value u2
  intro u3 u4 u5
  clear_value u3 u4
  have h5 : Keeps q u5.2 := faultEntry_keeps h2
  clear_value u5
  intro u6
  have h6 : Keeps q u6 := Keeps.ite (writeEntry_keeps h5) h2
  clear_value u6
  with_reducible exact Keeps.ite h1 (logUntracked_keeps (setSticky_keeps h6))

theorem cqFault_keeps {q s} {x0} (h : Keeps q s) : Keeps q (cqFault x0 s) := by
  dsimp only [cqFault]
  with_reducible exact Keeps.foldl (logUntracked_keeps (putCq_keeps h)) (fun s x h => ringFault_keeps h)

theorem ringDrained_keeps {q s} {x0} (h : Keeps q s) : Keeps q (ringDrained x0 s) := by
  dsimp only [ringDrained]
  with_reducible exact Keeps.ite (putRing_keeps h) h

theorem enableRing_keeps {q s} {x0} (h : Keeps q s) : Keeps q (enableRing x0 s) := by
  unfold enableRing
  with_reducible refine Keeps.ite ?_ ?_
  · with_reducible exact putObj_keeps h
  · lift_lets
    intro u1 u2 u3
    clear_value u1
    have h3 : Keeps q u3 := Keeps.ite (Keeps.mk h) h
    clear_value u3
    intro u4 u5
    clear_value u4
    have h5 : Keeps q u5 := Keeps.ite (writeAbandoned_keeps h3) h3
    clear_value u5
    intro u6
    clear_value u6
    with_reducible exact putObj_keeps (putObj_keeps (tlbForget_keeps (putRing_keeps h5)))

theorem disableRing_keeps {q s} {x0} (h : Keeps q s) : Keeps q (disableRing x0 s) := by
  dsimp only [disableRing]
  with_reducible exact ringDrained_keeps (tlbDrop_keeps (putRing_keeps (putObj_keeps h)))

theorem nextRing_keeps {q s} (h : Keeps q s) : ∀ p, nextRing s = some p → Keeps q p.2 := by
  intro p e
  dsimp only [nextRing] at e
  split at e
  · cases e; exact Keeps.mk h
  · split at e
    · cases e
    · cases e; exact Keeps.mk h

theorem startDelivery_keeps {q s} {x0} (h : Keeps q s) : Keeps q (startDelivery x0 s) := by
  dsimp only [startDelivery]
  split
  · with_reducible exact h
  · split
    · with_reducible exact Keeps.ite (ringFault_keeps (Keeps.mk (setCaskState_keeps (putCq_keeps (putRing_keeps h))))) (Keeps.mk (setCaskState_keeps (putCq_keeps (putRing_keeps h))))
    · with_reducible exact Keeps.mk (setCaskState_keeps (putCq_keeps (putRing_keeps h)))

theorem countStalls_keeps {q s} (h : Keeps q s) : Keeps q (countStalls s) := by
  dsimp only [countStalls]
  with_reducible exact Keeps.foldl h (fun s x h => setSticky_keeps (bump_keeps (putRing_keeps h)))

theorem readPayload_keeps {q s} {x0 x1 x2} (h : Keeps q s) : Keeps q (readPayload x0 x1 x2 s).2 := by
  dsimp only [readPayload]
  with_reducible exact Keeps.mk (addObj_keeps (Keeps.ite (addObj_keeps (addObj_keeps (addObj_keeps h))) (addObj_keeps (addObj_keeps h))))

theorem putDelivery_keeps {q s} {x0} (h : Keeps q s) : Keeps q (putDelivery x0 s) := by
  dsimp only [putDelivery]
  with_reducible exact Keeps.mk h

theorem writePieces_keeps {q : List Instr} {x0 x1 x2} {x3 : Nat × State} (h : Keeps q x3.2) : Keeps q (writePieces x0 x1 x2 x3).2.2 := by
  induction x2 generalizing x3 with
  | nil => exact h
  | cons p t ih =>
    obtain ⟨n, s⟩ := x3
    simp only [writePieces]
    split
    · next s' e => exact Keeps.of_snd e (translate_keeps h)
    · next a s' e => exact ih (hostWrite_keeps (Keeps.of_snd e (translate_keeps h)))

theorem writeTag_keeps {q s} {x0 x1 x2} (h : Keeps q s) : Keeps q (writeTag x0 x1 x2 s) := by
  dsimp only [writeTag]
  split
  · rename_i e300
    with_reducible exact putDelivery_keeps (Keeps.of_snd e300 (translate_keeps h))
  · rename_i e300
    with_reducible exact Keeps.ite (hostRead_keeps (putDelivery_keeps (hostWrite_keeps (Keeps.of_snd e300 (translate_keeps h))))) (putDelivery_keeps (hostWrite_keeps (Keeps.of_snd e300 (translate_keeps h))))

theorem carryDelivery_keeps {q s} {x0} (h : Keeps q s) : Keeps q (carryDelivery x0 s) := by
  dsimp only [carryDelivery]
  split
  · exact h
  · split
    · exact h
    · next _ c _ _ k _ =>
      have h2 : Keeps q (if x0.payload.isNone = true then readPayload x0 c k s else (x0, s)).2 :=
        Keeps.ite_snd (readPayload_keeps h) h
      exact Keeps.ite (writeTag_keeps (writePieces_keeps h2)) (putDelivery_keeps (writePieces_keeps h2))

theorem postRing_keeps {q s} {x0 x1} (h : Keeps q s) : Keeps q (postRing x0 x1 s) := by
  unfold postRing
  lift_lets
  intro u1
  clear_value u1
  with_reducible exact Keeps.ite h (Keeps.ite (ringFault_keeps h) (putRing_keeps h))

theorem execRingPost_keeps {q s} {x0 x1} (h : Keeps q s) : Answers (Keeps q) (execRingPost x0 x1 s) := by
  unfold execRingPost
  with_reducible refine Keeps.answers ?_
  with_reducible exact bar0Write_keeps (fun s h => postRing_keeps h) h

theorem consumeCq_keeps {q s} {x0 x1} (h : Keeps q s) : Keeps q (consumeCq x0 x1 s) := by
  unfold consumeCq
  lift_lets
  intro u1
  clear_value u1
  with_reducible exact Keeps.ite h (Keeps.ite (Keeps.ite h (cqFault_keeps h)) (putCq_keeps h))

theorem execCqHead_keeps {q s} {x0 x1} (h : Keeps q s) : Answers (Keeps q) (execCqHead x0 x1 s) := by
  unfold execCqHead
  with_reducible refine Keeps.answers ?_
  with_reducible exact bar0Write_keeps (fun s h => consumeCq_keeps h) h

theorem consumeExc_keeps {q s} {x0} (h : Keeps q s) : Keeps q (consumeExc x0 s) := by
  unfold consumeExc
  lift_lets
  intro u1 u2
  clear_value u1
  with_reducible exact Keeps.ite (Keeps.mk h) h

theorem execExcHead_keeps {q s} {x0} (h : Keeps q s) : Answers (Keeps q) (execExcHead x0 s) := by
  unfold execExcHead
  with_reducible refine Keeps.answers ?_
  with_reducible exact bar0Write_keeps (fun s h => consumeExc_keeps h) h

theorem execDeliveryStart_keeps {q s} (h : Keeps q s) : Answers (Keeps q) (execDeliveryStart s) := by
  dsimp only [execDeliveryStart]
  refine Keeps.answers_ite (Keeps.answers h) ?_
  split
  · next r t e => exact Keeps.answers (startDelivery_keeps (nextRing_keeps (countStalls_keeps h) _ e))
  · exact Keeps.answers (countStalls_keeps h)

theorem execDeliveryDataDone_keeps {q s} {x0} (h : Keeps q s) : Answers (Keeps q) (execDeliveryDataDone x0 s) := by
  dsimp only [execDeliveryDataDone]
  split
  · with_reducible exact Keeps.answers_ite (Keeps.answers (carryDelivery_keeps h)) (Keeps.answers h)
  · with_reducible exact Keeps.answers h

theorem completeDelivery_keeps {q s} {x0 x1} (h : Keeps q s) : Keeps q (completeDelivery x0 x1 s) := by
  dsimp only [completeDelivery]
  with_reducible exact ringDrained_keeps (releaseCask_keeps (bump_keeps (bump_keeps (putRing_keeps (Keeps.mk (writeReserved_keeps h))))))

theorem execCompletionEntry_keeps {q s} {x0} (h : Keeps q s) : Answers (Keeps q) (execCompletionEntry x0 s) := by
  dsimp only [execCompletionEntry]
  split
  · with_reducible refine Keeps.answers_ite ?_ ?_
    · split
      · with_reducible exact Keeps.answers (completeDelivery_keeps h)
      · with_reducible exact Keeps.answers h
    · with_reducible exact Keeps.answers h
  · with_reducible exact Keeps.answers h

theorem execRingFault_keeps {q s} {x0 x1} (h : Keeps q s) : Answers (Keeps q) (execRingFault x0 x1 s) := by
  dsimp only [execRingFault]
  with_reducible exact Keeps.answers_ite (Keeps.answers (ringFault_keeps h)) (Keeps.answers h)

theorem dropException_keeps {q s} (h : Keeps q s) : Keeps q (dropException s) := by
  dsimp only [dropException]
  with_reducible exact setSticky_keeps (bump_keeps (Keeps.mk h))

theorem translateAll_keeps {q s} {x0 x1 x2 x3} (h : Keeps q s) : Keeps q (translateAll x0 x1 x2 x3 s).2 := by
  induction x3 generalizing s with
  | nil => exact h
  | cons p t ih =>
    simp only [translateAll]
    split
    · next s' e => exact Keeps.of_snd e (translate_keeps h)
    · next a s' e =>
      have h2 := Keeps.of_snd e (translate_keeps h)
      split
      · next s'' e2 => exact Keeps.of_snd e2 (ih h2)
      · next l s'' e2 => exact Keeps.of_snd e2 (ih h2)

theorem hostWrites_keeps {q s} {x0} (h : Keeps q s) : Keeps q (hostWrites x0 s) := by
  induction x0 generalizing s with
  | nil => exact h
  | cons b t ih =>
    simp only [hostWrites]
    exact ih (hostWrite_keeps h)

theorem postException_keeps {q s} {x0} (h : Keeps q s) : Keeps q (postException x0 s) := by
  dsimp only [postException]
  split
  · rename_i e300
    with_reducible exact Keeps.of_snd e300 (translate_keeps h)
  · rename_i e300
    with_reducible exact fire_keeps (bump_keeps (Keeps.mk (hostWrite_keeps (Keeps.of_snd e300 (translate_keeps h)))))

theorem writeException_keeps {q s} {x0} (h : Keeps q s) : Keeps q (writeException x0 s) := by
  dsimp only [writeException]
  split
  · rename_i e300
    with_reducible exact Keeps.of_snd e300 (translateAll_keeps h)
  · rename_i e300
    with_reducible refine Keeps.ite ?_ ?_
    · split
      · rename_i e298
        with_reducible exact Keeps.of_snd e298 (translate_keeps (hostWrites_keeps (Keeps.of_snd e300 (translateAll_keeps h))))
      · rename_i e298
        with_reducible exact hostRead_keeps (Keeps.mk (Keeps.of_snd e298 (translate_keeps (hostWrites_keeps (Keeps.of_snd e300 (translateAll_keeps h))))))
    · with_reducible exact postException_keeps (hostWrites_keeps (Keeps.of_snd e300 (translateAll_keeps h)))

theorem execExceptionEntry_keeps {q s} (h : Keeps q s) : Answers (Keeps q) (execExceptionEntry s) := by
  dsimp only [execExceptionEntry]
  split
  · with_reducible exact Keeps.answers h
  · with_reducible exact Keeps.answers_ite (Keeps.answers (dropException_keeps h)) (Keeps.answers_ite (Keeps.answers h) (Keeps.answers (writeException_keeps h)))

theorem enableExc_keeps {q s} (h : Keeps q s) : Keeps q (enableExc s) := by
  unfold enableExc
  with_reducible refine Keeps.ite ?_ ?_
  · with_reducible exact putObj_keeps h
  · lift_lets
    intro u1 u2
    clear_value u1
    with_reducible exact putObj_keeps (tlbForget_keeps (Keeps.mk h))

theorem disableExc_keeps {q s} (h : Keeps q s) : Keeps q (disableExc s) := by
  dsimp only [disableExc]
  with_reducible exact putObj_keeps (tlbDrop_keeps (Keeps.mk h))

theorem excFault_keeps {q s} (h : Keeps q s) : Keeps q (excFault s) := by
  dsimp only [excFault]
  with_reducible exact setSticky_keeps (Keeps.mk h)

theorem rackingWalkDone_keeps {q s} {x0 x1 x2 x3} (h : Keeps q s) : Keeps q (rackingWalkDone x0 x1 x2 x3 s) := by
  dsimp only [rackingWalkDone]
  split
  · rename_i e300
    with_reducible exact Keeps.of_snd e300 (walkReturn_keeps h)
  · rename_i e300
    with_reducible exact Keeps.ite (excFault_keeps (Keeps.of_snd e300 (walkReturn_keeps h))) (ringFault_keeps (Keeps.of_snd e300 (walkReturn_keeps h)))

theorem zeroReadDone_keeps {q s} {x0 x1} (h : Keeps q s) : Keeps q (zeroReadDone x0 x1 s) := by
  dsimp only [zeroReadDone]
  with_reducible refine Keeps.ite ?_ ?_
  · split
    · with_reducible exact Keeps.ite (postException_keeps h) h
    · with_reducible exact h
  · with_reducible exact Keeps.mk h

theorem rackingReadFailed_keeps {q s} {x0} (h : Keeps q s) : Keeps q (rackingReadFailed x0 s) := by
  dsimp only [rackingReadFailed]
  split
  · with_reducible exact Keeps.ite (excFault_keeps h) (ringFault_keeps h)
  · with_reducible exact Keeps.ite (excFault_keeps h) (ringFault_keeps h)
  · with_reducible exact h
  · with_reducible exact h
  · with_reducible exact h

theorem stopRacking_keeps {q s} (h : Keeps q s) : Keeps q (stopRacking s) := by
  dsimp only [stopRacking]
  with_reducible exact setSticky_keeps (Keeps.mk (stopDeliveries_keeps h))

theorem resumeRing_keeps {q s} {x0} (h : Keeps q s) : Keeps q (resumeRing x0 s) := by
  dsimp only [resumeRing]
  with_reducible exact writeAbandoned_keeps (putRing_keeps h)

theorem resumeRacking_keeps {q s} (h : Keeps q s) : Keeps q (resumeRacking s) := by
  dsimp only [resumeRacking]
  with_reducible exact Keeps.foldl (Keeps.mk h) (fun s x h => resumeRing_keeps h)

theorem resetRacking_keeps {q s} (h : Keeps q s) : Keeps q (resetRacking s) := by
  dsimp only [resetRacking]
  with_reducible exact Keeps.mk (putObj_keeps (Keeps.foldl (Keeps.foldl (stopDeliveries_keeps h) (fun s x h => putObj_keeps (putObj_keeps h))) (fun s x h => putObj_keeps h)))

end Sys2Proof.Machine
end

