-- ==== Sys2Proof/Laws/KeepsPorts.lean ====
section
/-! SUPPORT. What Ports.lean defines keeps soundness and the queue. -/

namespace Sys2Proof.Machine

open Sys2Proof

theorem restartAlignment_keeps {q s} {x0 x1} (h : Keeps q s) : Keeps q (restartAlignment x0 x1 s) := by
  dsimp only [restartAlignment]
  with_reducible exact updatePort_keeps (dropAlign_keeps h)

theorem portFault_keeps {q s} {x0 x1} (h : Keeps q s) : Keeps q (portFault x0 x1 s) := by
  unfold portFault
  lift_lets
  intro u1
  intro u2
  have h2 : Keeps q u2.1 := recordFault_keeps (h)
  clear_value u2
  intro u3
  have h3 : Keeps q u3 := by
    dsimp only [u3]
    with_reducible refine Keeps.ite ?_ ?_
    · with_reducible refine recordNoRetire_keeps ?_
      dsimp -zeta only [u1]
      with_reducible exact putObj_keeps (bump_keeps (h))
    · split
      · with_reducible exact h2
      · with_reducible refine stopPort_keeps ?_
        dsimp -zeta only [u1]
        with_reducible exact putObj_keeps (bump_keeps (h2))
      · dsimp -zeta only [u1]
        with_reducible exact putObj_keeps (bump_keeps (h2))
  clear_value u3
  with_reducible exact restartAlignment_keeps (h3)

theorem reinstatePort_keeps {q s} {x0} (h : Keeps q s) : Keeps q (reinstatePort x0 s) := by
  dsimp only [reinstatePort]
  with_reducible exact Keeps.ite h (updatePort_keeps (ubFlushLane_keeps (dropRetired_keeps h)))

theorem sendPause_keeps {q s} {x0 x1 x2} (h : Keeps q s) : Keeps q (sendPause x0 x1 x2 s) := by
  dsimp only [sendPause]
  with_reducible exact bump_keeps (emit_keeps h)

theorem pauseRequest_keeps {q s} {x0} (h : Keeps q s) : Keeps q (pauseRequest x0 s) := by
  dsimp only [pauseRequest]
  with_reducible exact Keeps.ite h (Keeps.ite h (Keeps.ite (putPortX_keeps h) (sendPause_keeps (putPortX_keeps h))))

theorem setStops_keeps {q s} {x0 x1} (h : Keeps q s) : Keeps q (setStops x0 x1 s) := by
  dsimp only [setStops]
  with_reducible exact putPortX_keeps h

theorem matchFlow_keeps {q s} {x0 x1 x2} (h : Keeps q s) : Keeps q (matchFlow x0 x1 x2 s).2 := by
  dsimp only [matchFlow]
  split
  · with_reducible exact h
  · with_reducible exact h
  · dsimp only
    with_reducible exact takeChoice_keeps h

theorem classifyUdp_keeps {q s} {x0 x1 x2} (h : Keeps q s) : Keeps q (classifyUdp x0 x1 x2 s).2 := by
  dsimp only [classifyUdp]
  split
  · rename_i e300
    with_reducible exact Keeps.of_snd e300 (matchFlow_keeps h)
  · rename_i e300
    with_reducible exact Keeps.ite_snd (Keeps.of_snd e300 (matchFlow_keeps h)) (Keeps.of_snd e300 (matchFlow_keeps h))

theorem classify_keeps {q s} {x0 x1} (h : Keeps q s) : Keeps q (classify x0 x1 s).2 := by
  dsimp only [classify]
  with_reducible refine Keeps.ite_snd ?_ ?_
  · with_reducible exact h
  · with_reducible refine Keeps.ite_snd ?_ ?_
    · with_reducible exact h
    · split
      · with_reducible exact h
      · with_reducible exact Keeps.ite_snd h (Keeps.ite_snd h (Keeps.ite_snd h (Keeps.ite_snd h (classifyUdp_keeps h))))

theorem enterFrame_keeps {q s} {x0 x1 x2 x3 x4} (h : Keeps q s) : Keeps q (enterFrame x0 x1 x2 x3 x4 s) := by
  dsimp only [enterFrame]
  with_reducible refine Keeps.ite ?_ ?_
  · split
    · with_reducible exact Keeps.ite (classify_keeps (Keeps.ite (Keeps.ite (bump_keeps h) h) (addObj_keeps (bump_keeps (Keeps.ite (bump_keeps h) h))))) (bump_keeps (classify_keeps (Keeps.ite (Keeps.ite (bump_keeps h) h) (addObj_keeps (bump_keeps (Keeps.ite (bump_keeps h) h))))))
    · with_reducible exact classify_keeps (Keeps.ite (Keeps.ite (bump_keeps h) h) (addObj_keeps (bump_keeps (Keeps.ite (bump_keeps h) h))))
    · with_reducible exact classify_keeps (Keeps.ite (Keeps.ite (bump_keeps h) h) (addObj_keeps (bump_keeps (Keeps.ite (bump_keeps h) h))))
  · with_reducible exact ubStart_keeps (classify_keeps (Keeps.ite (Keeps.ite (bump_keeps h) h) (addObj_keeps (bump_keeps (Keeps.ite (bump_keeps h) h)))))

theorem receiveFrame_keeps {q s} {x0 x1 x2 x3} (h : Keeps q s) : Keeps q (receiveFrame x0 x1 x2 x3 s) := by
  dsimp only [receiveFrame]
  with_reducible refine Keeps.ite ?_ ?_
  · with_reducible refine enterFrame_keeps ?_
    split
    · with_reducible exact bump_keeps h
    · with_reducible exact h
  · with_reducible refine Keeps.ite ?_ ?_
    · with_reducible refine bump_keeps ?_
      split
      · with_reducible exact bump_keeps h
      · with_reducible exact h
    · split
      · with_reducible exact bump_keeps h
      · with_reducible exact h

theorem loopFrame_keeps {q s} {x0 x1 x2} (h : Keeps q s) : Keeps q (loopFrame x0 x1 x2 s) := by
  dsimp only [loopFrame]
  with_reducible refine Keeps.ite ?_ ?_
  · with_reducible refine enterFrame_keeps ?_
    split
    · with_reducible exact bump_keeps h
    · with_reducible exact h
  · with_reducible refine Keeps.ite ?_ ?_
    · with_reducible refine bump_keeps ?_
      split
      · with_reducible exact bump_keeps h
      · with_reducible exact h
    · split
      · with_reducible exact bump_keeps h
      · with_reducible exact h

theorem execPortFault_keeps {q s} {x0 x1} (h : Keeps q s) : Answers (Keeps q) (execPortFault x0 x1 s) := by
  dsimp only [execPortFault]
  split
  · with_reducible exact Keeps.answers_ite (Keeps.answers (portFault_keeps h)) (Keeps.answers h)
  · with_reducible exact Keeps.answers_ite (Keeps.answers (portFault_keeps h)) (Keeps.answers h)
  · with_reducible exact Keeps.answers_ite (Keeps.answers (portFault_keeps h)) (Keeps.answers h)

theorem execLocalOrRemoteFault_keeps {q s} {x0 x1 x2} (h : Keeps q s) : Answers (Keeps q) (execLocalOrRemoteFault x0 x1 x2 s) := by
  dsimp only [execLocalOrRemoteFault]
  with_reducible exact Keeps.answers_ite (Keeps.answers (updatePort_keeps (putPortX_keeps h))) (Keeps.answers h)

theorem execPauseRequest_keeps {q s} {x0} (h : Keeps q s) : Answers (Keeps q) (execPauseRequest x0 s) := by
  dsimp only [execPauseRequest]
  with_reducible exact Keeps.answers (pauseRequest_keeps h)

theorem execPauseRefresh_keeps {q s} {x0} (h : Keeps q s) : Answers (Keeps q) (execPauseRefresh x0 s) := by
  dsimp only [execPauseRefresh]
  with_reducible exact Keeps.answers_ite (Keeps.answers h) (Keeps.answers (sendPause_keeps h))

theorem execMulticastJoin_keeps {q s} {x0} (h : Keeps q s) : Answers (Keeps q) (execMulticastJoin x0 s) := by
  dsimp only [execMulticastJoin]
  with_reducible exact Keeps.answers (updateJoin_keeps h)

theorem execCascadeFrameDiscard_keeps {q s} {x0} (h : Keeps q s) : Answers (Keeps q) (execCascadeFrameDiscard x0 s) := by
  dsimp only [execCascadeFrameDiscard]
  with_reducible exact Keeps.answers_ite (Keeps.answers (bump_keeps h)) (Keeps.answers h)

end Sys2Proof.Machine
end

