-- ==== Sys2Proof/Laws/KeepsTap.lean ====
section
/-! SUPPORT. What Tap.lean defines keeps soundness and the queue. -/

namespace Sys2Proof.Machine

open Sys2Proof

theorem putTx_keeps {q s} {x0 x1} (h : Keeps q s) : Keeps q (putTx x0 x1 s) := by
  dsimp only [putTx]
  with_reducible exact Keeps.mk h

theorem skipFrames_keeps {q s} {x0 x1} (h : Keeps q s) : Keeps q (skipFrames x0 x1 s) := by
  dsimp only [skipFrames]
  with_reducible exact Keeps.ite h (setSticky_keeps (addObj_keeps h))

theorem tapEnter_keeps {q s} {x0} (h : Keeps q s) : Keeps q (tapEnter x0 s) := by
  dsimp only [tapEnter]
  split
  · with_reducible exact putTx_keeps h
  · with_reducible exact skipFrames_keeps (putTx_keeps h)
  · with_reducible exact putTx_keeps h
  · with_reducible exact putTx_keeps h

theorem markReplay_keeps {q s} {x0 x1} (h : Keeps q s) : Keeps q (markReplay x0 x1 s) := by
  dsimp only [markReplay]
  split
  · with_reducible exact putCask_keeps h
  · with_reducible exact h

theorem takeSource_keeps {q s} {x0 x1 x2 x3} (h : Keeps q s) : Keeps q (takeSource x0 x1 x2 x3 s).2.2 := by
  dsimp only [takeSource]
  split
  · exact h
  · exact h
  · split
    · exact h
    · split
      · exact markReplay_keeps h
      · exact releaseCask_keeps (bump_keeps h)
  · split
    · exact h
    · split
      · exact h
      · split
        · exact h
        · split
          · exact h
          · exact h

theorem driveBoil_keeps {q s} {x0 x1} (h : Keeps q s) : Keeps q (driveBoil x0 x1 s) := by
  dsimp only [driveBoil]
  with_reducible exact Keeps.ite (fire_keeps (setBoil_keeps h)) (setBoil_keeps h)

theorem updateTapBoil_keeps {q s} {x0} (h : Keeps q s) : Keeps q (updateTapBoil x0 s) := by
  dsimp only [updateTapBoil]
  with_reducible exact driveBoil_keeps (driveBoil_keeps (putTx_keeps h))

theorem tapPrefetch_keeps {q s} {x0} (h : Keeps q s) : Keeps q (tapPrefetch x0 s) := by
  dsimp only [tapPrefetch]
  with_reducible refine Keeps.ite ?_ ?_
  · with_reducible exact h
  · split
    · split
      · with_reducible exact putTx_keeps h
      · with_reducible exact h
    · split
      · with_reducible exact Keeps.ite (putTx_keeps h) h
      · with_reducible exact h
    · with_reducible exact h

theorem tapRequest_keeps {q s} {x0} (h : Keeps q s) : Keeps q (tapRequest x0 s) := by
  dsimp only [tapRequest]
  split
  · with_reducible exact h
  · split
    · with_reducible refine Keeps.ite ?_ ?_
      · with_reducible exact h
      · split
        · rename_i e297
          with_reducible exact Keeps.of_snd e297 (translate_keeps h)
        · rename_i e297
          with_reducible exact hostRead_keeps (Keeps.of_snd e297 (translate_keeps h))
    · with_reducible exact h
    · with_reducible exact h
    · with_reducible exact h

theorem tapData_keeps {q s} {x0 x1 x2 x3} (h : Keeps q s) : Keeps q (tapData x0 x1 x2 x3 s) := by
  dsimp only [tapData]
  split
  · with_reducible exact h
  · with_reducible exact Keeps.ite h (updateTapBoil_keeps (tapRequest_keeps (putTx_keeps (Keeps.ite (setSticky_keeps (addObj_keeps h)) h))))

theorem tapFetch_keeps {q s} {x0 x1} (h : Keeps q s) : Keeps q (tapFetch x0 x1 s) := by
  dsimp only [tapFetch]
  split
  · with_reducible exact updateTapBoil_keeps (tapPrefetch_keeps h)
  · split
    · with_reducible exact updateTapBoil_keeps (tapRequest_keeps (tapPrefetch_keeps h))
    · with_reducible exact updateTapBoil_keeps (tapPrefetch_keeps (Keeps.ite (putTx_keeps (tapPrefetch_keeps h)) (setSticky_keeps (addObj_keeps (putTx_keeps (tapPrefetch_keeps h))))))

theorem notePair_keeps {q s} {x0 x1} (h : Keeps q s) : Keeps q (notePair x0 x1 s) := by
  dsimp only [notePair]
  with_reducible exact Keeps.ite h (Keeps.mk h)

theorem startFrame_keeps {q s} {x0 x1} (h : Keeps q s) : Keeps q (startFrame x0 x1 s) := by
  dsimp only [startFrame]
  have h2 := takeSource_keeps (x0 := x0) (x1 := (txOf s x0).k) (x2 := txSettings s x0) (x3 := txOf s x0) h
  split
  · next x t e => rw [e] at h2; exact putTx_keeps h2
  · next x t e => rw [e] at h2; exact skipFrames_keeps (putTx_keeps h2)
  · next v x t e => rw [e] at h2; exact tapRequest_keeps (notePair_keeps (Keeps.ite (flowSignal_keeps (putTx_keeps h2)) (putTx_keeps h2)))

theorem releaseReplay_keeps {q s} {x0} (h : Keeps q s) : Keeps q (releaseReplay x0 s) := by
  dsimp only [releaseReplay]
  with_reducible exact Keeps.ite (Keeps.foldl h (fun s x h => releaseCask_keeps h)) h

theorem endRun_keeps {q s} {x0} (h : Keeps q s) : Keeps q (endRun x0 s) := by
  dsimp only [endRun]
  with_reducible exact updateTapBoil_keeps (releaseReplay_keeps (putTx_keeps h))

theorem settleTx_keeps {q s} {x0} (h : Keeps q s) : Keeps q (settleTx x0 s) := by
  dsimp only [settleTx]
  with_reducible exact Keeps.ite h (Keeps.ite (endRun_keeps h) (Keeps.ite (releaseReplay_keeps (putTx_keeps h)) h))

theorem gridStart_keeps {q s} {x0} (h : Keeps q s) : Keeps q (gridStart x0 s) := by
  unfold gridStart
  lift_lets
  intro u1 u2
  clear_value u1
  have h2 : Keeps q u2 := startFrame_keeps (putTx_keeps h)
  clear_value u2
  with_reducible exact Keeps.ite h (Keeps.ite h (updateTapBoil_keeps (tapPrefetch_keeps (settleTx_keeps (putTx_keeps h2)))))

theorem usePacket_keeps {q s} {x0 x1} (h : Keeps q s) : Keeps q (usePacket x0 x1 s) := by
  dsimp only [usePacket]
  split
  · with_reducible exact h
  · with_reducible exact settleTx_keeps (putTx_keeps (Keeps.ite (bump_keeps h) h))

theorem underrun_keeps {q s} {x0} (h : Keeps q s) : Keeps q (underrun x0 s) := by
  dsimp only [underrun]
  with_reducible exact recordFault_keeps (fire_keeps (setSticky_keeps (bump_keeps h)))

theorem sendPacket_keeps {q s} {x0 x1 x2} (h : Keeps q s) : Keeps q (sendPacket x0 x1 x2 s) := by
  unfold sendPacket
  lift_lets
  intro u1 u2 u3 u4 u5 u6 u7 u8
  clear_value u1 u2 u3 u4 u5 u6
  have h8 : Keeps q u8 := Keeps.ite (setSticky_keeps (bump_keeps h)) h
  clear_value u8
  intro u9
  have h9 : Keeps q u9 := bump_keeps h8
  clear_value u9
  with_reducible exact Keeps.ite (loopFrame_keeps h9) (txFrame_keeps h9)

theorem countUnder_keeps {q s} {x0 x1} (h : Keeps q s) : Keeps q (countUnder x0 x1 s) := by
  dsimp only [countUnder]
  split
  · with_reducible exact putTx_keeps (underrun_keeps h)
  · with_reducible exact h

theorem duePacket_keeps {q s} {x0 x1 x2} (h : Keeps q s) : Keeps q (duePacket x0 x1 x2 s) := by
  dsimp only [duePacket]
  with_reducible exact Keeps.ite (tapRequest_keeps (updateTapBoil_keeps (tapPrefetch_keeps (Keeps.ite (usePacket_keeps (putTx_keeps (setSticky_keeps (bump_keeps h)))) (Keeps.ite (usePacket_keeps h) (Keeps.ite (Keeps.ite (usePacket_keeps (Keeps.ite (underrun_keeps h) h)) (countUnder_keeps h)) (usePacket_keeps (sendPacket_keeps h)))))))) (Keeps.ite (usePacket_keeps (putTx_keeps (setSticky_keeps (bump_keeps h)))) (Keeps.ite (usePacket_keeps h) (Keeps.ite (Keeps.ite (usePacket_keeps (Keeps.ite (underrun_keeps h) h)) (countUnder_keeps h)) (usePacket_keeps (sendPacket_keeps h)))))

theorem packetAt_keeps {q s} {x0 x1} (h : Keeps q s) : Keeps q (packetAt x0 x1 s) := by
  dsimp only [packetAt]
  split
  · with_reducible exact h
  · with_reducible exact duePacket_keeps h

theorem dropHeld_keeps {q s} {x0 x1} (h : Keeps q s) : Keeps q (dropHeld x0 x1 s) := by
  induction x1 generalizing s with
  | zero => exact h
  | succ n ih =>
    simp only [dropHeld]
    split
    · exact h
    · exact Keeps.ite (ih (usePacket_keeps (setSticky_keeps (bump_keeps h)))) h

theorem stopEnds_keeps {q s} {x0 x1} (h : Keeps q s) : Keeps q (stopEnds x0 x1 s) := by
  unfold stopEnds
  lift_lets
  intro u1 u2
  clear_value u1
  have h2 : Keeps q u2 := putPortX_keeps h
  clear_value u2
  intro u3
  have h3 : Keeps q u3 := Keeps.ite (sendWaiting_keeps h2) h2
  clear_value u3
  with_reducible refine Keeps.foldl ?_ ?_
  · with_reducible exact h3
  · intro t4 x4 h4
    split
    · with_reducible exact Keeps.ite (dropHeld_keeps h4) h4
    · with_reducible exact h4

theorem macControl_keeps {q s} {x0 x1} (h : Keeps q s) : Keeps q (macControl x0 x1 s) := by
  dsimp only [macControl]
  with_reducible exact Keeps.ite (bump_keeps h) (Keeps.foldl (setStops_keeps (bump_keeps h)) (fun s x h => stopEnds_keeps h))

theorem stopTx_keeps {q s} {x0} (h : Keeps q s) : Keeps q (stopTx x0 s) := by
  dsimp only [stopTx]
  with_reducible exact Keeps.ite (endRun_keeps h) (putTx_keeps h)

theorem stopTransmit_keeps {q s} {x0} (h : Keeps q s) : Keeps q (stopTransmit x0 s) := by
  dsimp only [stopTransmit]
  with_reducible exact Keeps.foldl h (fun s x h => Keeps.ite h (stopTx_keeps h))

theorem abandonTx_keeps {q s} (h : Keeps q s) : Keeps q (abandonTx s) := by
  dsimp only [abandonTx]
  with_reducible exact driveBoil_keeps (driveBoil_keeps (Keeps.mk h))

theorem txTypeWritten_keeps {q s} {x0} (h : Keeps q s) : Keeps q (txTypeWritten x0 s) := by
  dsimp only [txTypeWritten]
  with_reducible exact Keeps.ite (stopTx_keeps h) h

theorem tapEnable_keeps {q s} {x0} (h : Keeps q s) : Keeps q (tapEnable x0 s) := by
  unfold tapEnable
  lift_lets
  intro u1 u2
  clear_value u1 u2
  with_reducible exact Keeps.ite (putObj_keeps h) (putObj_keeps (tlbForget_keeps (putTx_keeps h)))

theorem tapDisable_keeps {q s} {x0} (h : Keeps q s) : Keeps q (tapDisable x0 s) := by
  dsimp only [tapDisable]
  with_reducible exact putObj_keeps (tlbDrop_keeps (putTx_keeps h))

theorem tapFault_keeps {q s} {x0 x1} (h : Keeps q s) : Keeps q (tapFault x0 x1 s) := by
  dsimp only [tapFault]
  with_reducible exact Keeps.ite h (settleTx_keeps (putTx_keeps h))

theorem tapWalkDone_keeps {q s} {x0 x1 x2 x3} (h : Keeps q s) : Keeps q (tapWalkDone x0 x1 x2 x3 s) := by
  dsimp only [tapWalkDone]
  split
  · rename_i e300
    with_reducible exact tapFault_keeps (Keeps.of_snd e300 (walkReturn_keeps h))
  · rename_i e300
    with_reducible exact tapRequest_keeps (Keeps.of_snd e300 (walkReturn_keeps h))

theorem tapHostReset_keeps {q s} (h : Keeps q s) : Keeps q (tapHostReset s) := by
  dsimp only [tapHostReset]
  with_reducible exact Keeps.foldl h (fun s x h => settleTx_keeps (putObj_keeps (tlbDrop_keeps (putTx_keeps h))))

theorem execTapEntry_keeps {q s} {x0} (h : Keeps q s) : Answers (Keeps q) (execTapEntry x0 s) := by
  dsimp only [execTapEntry]
  with_reducible exact Keeps.answers_ite (Keeps.answers (tapPrefetch_keeps (tapEnter_keeps h))) (Keeps.answers h)

theorem execPacketDue_keeps {q s} {x0 x1} (h : Keeps q s) : Answers (Keeps q) (execPacketDue x0 x1 s) := by
  dsimp only [execPacketDue]
  with_reducible exact Keeps.answers (packetAt_keeps h)

theorem execTapFetchComplete_keeps {q s} {x0 x1} (h : Keeps q s) : Answers (Keeps q) (execTapFetchComplete x0 x1 s) := by
  dsimp only [execTapFetchComplete]
  with_reducible exact Keeps.answers (tapFetch_keeps h)

theorem postTx_keeps {q s} {x0 x1} (h : Keeps q s) : Keeps q (postTx x0 x1 s) := by
  unfold postTx
  lift_lets
  intro u1 u2
  clear_value u1 u2
  with_reducible exact Keeps.ite h (Keeps.ite (tapFault_keeps h) (putTx_keeps h))

theorem execTxPost_keeps {q s} {x0 x1} (h : Keeps q s) : Answers (Keeps q) (execTxPost x0 x1 s) := by
  unfold execTxPost
  with_reducible refine Keeps.answers ?_
  with_reducible exact bar0Write_keeps (fun s h => postTx_keeps h) h

theorem execTapStop_keeps {q s} {x0} (h : Keeps q s) : Answers (Keeps q) (execTapStop x0 s) := by
  dsimp only [execTapStop]
  with_reducible exact Keeps.answers_ite (Keeps.answers (settleTx_keeps (putTx_keeps h))) (Keeps.answers h)

theorem triggerStart_keeps {q s} {x0} (h : Keeps q s) : Keeps q (triggerStart x0 s) := by
  dsimp only [triggerStart]
  with_reducible refine Keeps.ite ?_ ?_
  · with_reducible exact h
  · split
    · with_reducible exact h
    · split
      · with_reducible exact h
      · with_reducible exact Keeps.ite h (updateTapBoil_keeps (putTx_keeps (startFrame_keeps (Keeps.mk_fab h))))

theorem execReplayCaskDone_keeps {q s} {x0} (h : Keeps q s) : Answers (Keeps q) (execReplayCaskDone x0 s) := by
  dsimp only [execReplayCaskDone]
  with_reducible refine Keeps.answers_ite ?_ ?_
  · split
    · with_reducible exact Keeps.answers (releaseCask_keeps h)
    · with_reducible exact Keeps.answers h
  · with_reducible exact Keeps.answers h

theorem execTransmitCutTimeout_keeps {q s} {x0} (h : Keeps q s) : Answers (Keeps q) (execTransmitCutTimeout x0 s) := by
  dsimp only [execTransmitCutTimeout]
  with_reducible exact Keeps.answers_ite (Keeps.answers (endRun_keeps (setSticky_keeps (bump_keeps h)))) (Keeps.answers h)

theorem execFrameReceive_keeps {q s} {x0 x1 x2 x3 x4} (h : Keeps q s) : Answers (Keeps q) (execFrameReceive x0 x1 x2 x3 x4 s) := by
  dsimp only [execFrameReceive]
  with_reducible refine Keeps.answers_ite ?_ ?_
  · with_reducible exact Keeps.answers h
  · with_reducible refine Keeps.answers_ite ?_ ?_
    · split
      · with_reducible exact Keeps.answers (bump_keeps (Keeps.ite h (addObj_keeps (addObj_keeps h))))
      · with_reducible exact Keeps.answers_ite (Keeps.answers (Keeps.ite h (addObj_keeps (addObj_keeps h)))) (Keeps.answers (macControl_keeps (Keeps.ite h (addObj_keeps (addObj_keeps h)))))
    · with_reducible exact Keeps.answers (receiveFrame_keeps (Keeps.ite h (addObj_keeps (addObj_keeps h))))

theorem execPauseReceive_keeps {q s} {x0 x1} (h : Keeps q s) : Answers (Keeps q) (execPauseReceive x0 x1 s) := by
  dsimp only [execPauseReceive]
  with_reducible refine Keeps.answers_ite ?_ ?_
  · with_reducible exact Keeps.answers h
  · split
    · with_reducible exact Keeps.answers (bump_keeps h)
    · with_reducible exact Keeps.answers (macControl_keeps h)

theorem execPauseStopEnd_keeps {q s} {x0 x1} (h : Keeps q s) : Answers (Keeps q) (execPauseStopEnd x0 x1 s) := by
  dsimp only [execPauseStopEnd]
  with_reducible exact Keeps.answers_ite (Keeps.answers (stopEnds_keeps h)) (Keeps.answers h)

end Sys2Proof.Machine
end

