-- ==== Sys2Proof/Laws/KeepsHostLink.lean ====
section
/-! SUPPORT. What HostLink.lean defines keeps soundness and the queue. -/

namespace Sys2Proof.Machine

open Sys2Proof

theorem linkUp_keeps {q s} {x0 x1 x2} (h : Keeps q s) : Keeps q (linkUp x0 x1 x2 s) := by
  dsimp only [linkUp]
  with_reducible exact Keeps.mk (Keeps.ite (setSticky_keeps (putObj_keeps (putObj_keeps (putObj_keeps h)))) (putObj_keeps (putObj_keeps (putObj_keeps h))))

theorem linkDown_keeps {q s} (h : Keeps q s) : Keeps q (linkDown s) := by
  dsimp only [linkDown]
  with_reducible exact Keeps.mk (putObj_keeps (putObj_keeps (putObj_keeps h)))

theorem configReset_keeps {q s} (h : Keeps q s) : Keeps q (configReset s) := by
  dsimp only [configReset]
  with_reducible exact putObj_keeps (Keeps.mk_fab h)

theorem setStopped_keeps {q s} {x0} (h : Keeps q s) : Keeps q (setStopped x0 s) := by
  dsimp only [setStopped]
  with_reducible exact putObj_keeps h

theorem stopRequests_keeps {q s} (h : Keeps q s) : Keeps q (stopRequests s) := by
  dsimp only [stopRequests]
  with_reducible exact fire_keeps (setStopped_keeps (stopRacking_keeps (Keeps.mk (Keeps.ite h (setSticky_keeps h)))))

theorem sendHeld_keeps {q s} {x0} (h : Keeps q s) : Keeps q (sendHeld x0 s) := by
  induction x0 generalizing s with
  | nil => exact h
  | cons v t ih =>
    simp only [sendHeld]
    refine ih (Keeps.ite ?_ h)
    split
    · exact bump_keeps (emit_keeps (Keeps.mk_fab h))
    · exact bump_keeps (emit_keeps (Keeps.mk_fab h))
    · exact Keeps.mk_fab h
    · exact h

theorem resumeTaps_keeps {q s} (h : Keeps q s) : Keeps q (resumeTaps s) := by
  dsimp only [resumeTaps]
  with_reducible exact Keeps.foldl h (fun s x h => tapRequest_keeps h)

theorem resumeRequests_keeps {q s} (h : Keeps q s) : Keeps q (resumeRequests s) := by
  dsimp only [resumeRequests]
  with_reducible exact resumeTaps_keeps (setStopped_keeps (sendHeld_keeps h))

theorem resetMailboxes_keeps {q s} (h : Keeps q s) : Keeps q (resetMailboxes s) := by
  dsimp only [resetMailboxes]
  with_reducible exact Keeps.mk h

theorem resetEventsHost_keeps {q s} (h : Keeps q s) : Keeps q (resetEventsHost s) := by
  dsimp only [resetEventsHost]
  with_reducible exact Keeps.mk_fab h

theorem linkToL2_keeps {q s} {x0} (h : Keeps q s) : Keeps q (linkToL2 x0 s) := by
  dsimp only [linkToL2]
  with_reducible exact Keeps.ite (Keeps.mk h) h

theorem hostReset_keeps {q s} {x0} (h : Keeps q s) : Keeps q (hostReset x0 s) := by
  dsimp only [hostReset]
  with_reducible refine fire_keeps ?_
  with_reducible refine Keeps.ite ?_ ?_
  · with_reducible refine setStopped_keeps ?_
    with_reducible refine updateIntx_keeps ?_
    with_reducible refine configReset_keeps ?_
    split
    · with_reducible exact bump_keeps (setSticky_keeps (setSticky_keeps (tapHostReset_keeps (resetRacking_keeps (resetEventsHost_keeps (resetMailboxes_keeps (Keeps.mk (Keeps.ite (setSticky_keeps (linkToL2_keeps h)) (linkToL2_keeps h)))))))))
    · with_reducible exact bump_keeps (setSticky_keeps (setSticky_keeps (tapHostReset_keeps (resetRacking_keeps (resetEventsHost_keeps (resetMailboxes_keeps (Keeps.mk (Keeps.ite (setSticky_keeps (linkToL2_keeps h)) (linkToL2_keeps h)))))))))
    · with_reducible exact linkDown_keeps (bump_keeps (setSticky_keeps (setSticky_keeps (tapHostReset_keeps (resetRacking_keeps (resetEventsHost_keeps (resetMailboxes_keeps (Keeps.mk (Keeps.ite (setSticky_keeps (linkToL2_keeps h)) (linkToL2_keeps h))))))))))
    · with_reducible exact linkDown_keeps (bump_keeps (setSticky_keeps (Keeps.mk (setSticky_keeps (tapHostReset_keeps (resetRacking_keeps (resetEventsHost_keeps (resetMailboxes_keeps (Keeps.mk (Keeps.ite (setSticky_keeps (linkToL2_keeps h)) (linkToL2_keeps h)))))))))))
  · with_reducible refine updateIntx_keeps ?_
    with_reducible refine configReset_keeps ?_
    split
    · with_reducible exact bump_keeps (setSticky_keeps (setSticky_keeps (tapHostReset_keeps (resetRacking_keeps (resetEventsHost_keeps (resetMailboxes_keeps (Keeps.mk (Keeps.ite (setSticky_keeps (linkToL2_keeps h)) (linkToL2_keeps h)))))))))
    · with_reducible exact bump_keeps (setSticky_keeps (setSticky_keeps (tapHostReset_keeps (resetRacking_keeps (resetEventsHost_keeps (resetMailboxes_keeps (Keeps.mk (Keeps.ite (setSticky_keeps (linkToL2_keeps h)) (linkToL2_keeps h)))))))))
    · with_reducible exact linkDown_keeps (bump_keeps (setSticky_keeps (setSticky_keeps (tapHostReset_keeps (resetRacking_keeps (resetEventsHost_keeps (resetMailboxes_keeps (Keeps.mk (Keeps.ite (setSticky_keeps (linkToL2_keeps h)) (linkToL2_keeps h))))))))))
    · with_reducible exact linkDown_keeps (bump_keeps (setSticky_keeps (Keeps.mk (setSticky_keeps (tapHostReset_keeps (resetRacking_keeps (resetEventsHost_keeps (resetMailboxes_keeps (Keeps.mk (Keeps.ite (setSticky_keeps (linkToL2_keeps h)) (linkToL2_keeps h)))))))))))

theorem failRequest_keeps {q s} {x0} (h : Keeps q s) : Keeps q (failRequest x0 s) := by
  dsimp only [failRequest]
  split
  · with_reducible exact rackingReadFailed_keeps h
  · with_reducible exact rackingReadFailed_keeps h
  · with_reducible exact tapFault_keeps h
  · with_reducible exact tapData_keeps h
  · with_reducible exact h

theorem giveData_keeps {q s} {x0 x1} (h : Keeps q s) : Keeps q (giveData x0 x1 s) := by
  dsimp only [giveData]
  split
  · with_reducible exact rackingWalkDone_keeps h
  · with_reducible exact zeroReadDone_keeps h
  · with_reducible exact tapRequest_keeps (tapWalkDone_keeps h)
  · with_reducible exact tapData_keeps h
  · with_reducible exact bump_keeps h

theorem returnTag_keeps {q s} {x0} (h : Keeps q s) : Keeps q (returnTag x0 s) := by
  dsimp only [returnTag]
  with_reducible exact Keeps.mk h

theorem lateCompletion_keeps {q s} {x0 x1} (h : Keeps q s) : Keeps q (lateCompletion x0 x1 s) := by
  dsimp only [lateCompletion]
  with_reducible exact Keeps.ite (returnTag_keeps (logAer_keeps (bump_keeps (setSticky_keeps h)))) (logAer_keeps (bump_keeps (setSticky_keeps h)))

theorem completion_keeps {q s} {x0 x1} (h : Keeps q s) : Keeps q (completion x0 x1 s) := by
  dsimp only [completion]
  split
  · with_reducible exact giveData_keeps (freeTag_keeps h)
  · with_reducible exact Keeps.ite (lateCompletion_keeps h) (logAer_keeps h)

theorem timeoutTag_keeps {q s} {x0} (h : Keeps q s) : Keeps q (timeoutTag x0 s) := by
  dsimp only [timeoutTag]
  with_reducible exact failRequest_keeps (fire_keeps (logAer_keeps (bump_keeps (setSticky_keeps (Keeps.mk (freeTag_keeps h))))))

theorem poisonedCompletion_keeps {q s} {x0} (h : Keeps q s) : Keeps q (poisonedCompletion x0 s) := by
  dsimp only [poisonedCompletion]
  split
  · with_reducible exact Keeps.ite (bump_keeps (freeTag_keeps h)) (failRequest_keeps (logAer_keeps (bump_keeps (setSticky_keeps (freeTag_keeps h)))))
  · with_reducible exact Keeps.ite (lateCompletion_keeps h) (logAer_keeps h)

theorem winAttrWritten_keeps {q s} {x0 x1} (h : Keeps q s) : Keeps q (winAttrWritten x0 x1 s) := by
  dsimp only [winAttrWritten]
  with_reducible exact putObj_keeps (Keeps.mk h)

theorem bar2Access_keeps {q s} {x0} (h : Keeps q s) : Keeps q (bar2Access x0 s) := by
  dsimp only [bar2Access]
  split
  · split
    · with_reducible exact emit_keeps (bump_keeps h)
    · with_reducible exact emit_keeps (Keeps.ite (Keeps.mk h) h)
  · with_reducible refine Keeps.ite ?_ ?_
    · with_reducible exact logAer_keeps h
    · split
      · with_reducible exact bump_keeps h
      · with_reducible exact writePerformed_keeps h

theorem execPerstDeassert_keeps {q s} (h : Keeps q s) : Answers (Keeps q) (execPerstDeassert s) := by
  dsimp only [execPerstDeassert]
  with_reducible exact Keeps.answers (Keeps.mk h)

theorem execLinkUp_keeps {q s} {x0 x1 x2} (h : Keeps q s) : Answers (Keeps q) (execLinkUp x0 x1 x2 s) := by
  dsimp only [execLinkUp]
  with_reducible exact Keeps.answers_ite (Keeps.answers h) (Keeps.answers (linkUp_keeps h))

theorem execHostReset_keeps {q s} {x0} (h : Keeps q s) : Answers (Keeps q) (execHostReset x0 s) := by
  dsimp only [execHostReset]
  split
  · with_reducible exact Keeps.answers_ite (Keeps.answers (hostReset_keeps h)) (Keeps.answers h)
  · with_reducible exact Keeps.answers_ite (Keeps.answers (hostReset_keeps h)) (Keeps.answers h)
  · with_reducible exact Keeps.answers_ite (Keeps.answers (hostReset_keeps h)) (Keeps.answers h)
  · with_reducible exact Keeps.answers_ite (Keeps.answers h) (Keeps.answers_ite (Keeps.answers (linkDown_keeps (Keeps.mk h))) (Keeps.answers (hostReset_keeps h)))

theorem execBusMasterDisable_keeps {q s} {x0} (h : Keeps q s) : Answers (Keeps q) (execBusMasterDisable x0 s) := by
  dsimp only [execBusMasterDisable]
  with_reducible exact Keeps.answers_ite (Keeps.answers h) (Keeps.answers_ite (Keeps.answers (stopRequests_keeps (Keeps.mk h))) (Keeps.answers (stopRequests_keeps (Keeps.mk h))))

theorem execBusMasterEnable_keeps {q s} {x0} (h : Keeps q s) : Answers (Keeps q) (execBusMasterEnable x0 s) := by
  unfold execBusMasterEnable
  with_reducible refine Keeps.answers_ite ?_ ?_
  · lift_lets
    intro u1 u2 u3
    clear_value u1
    have h3 : Keeps q u3 := Keeps.mk h
    clear_value u3
    intro u4
    have h4 : Keeps q u4 := putObj_keeps h3
    clear_value u4
    with_reducible refine Keeps.answers ?_
    with_reducible exact Keeps.ite (resumeRequests_keeps h4) (Keeps.ite (stopRequests_keeps h4) h4)
  · with_reducible refine Keeps.answers ?_
    with_reducible exact h

theorem execL1Entry_keeps {q s} (h : Keeps q s) : Answers (Keeps q) (execL1Entry s) := by
  dsimp only [execL1Entry]
  with_reducible exact Keeps.answers_ite (Keeps.answers (Keeps.mk h)) (Keeps.answers h)

theorem execL1Exit_keeps {q s} (h : Keeps q s) : Answers (Keeps q) (execL1Exit s) := by
  dsimp only [execL1Exit]
  with_reducible exact Keeps.answers (Keeps.mk h)

theorem execWalkReadComplete_keeps {q s} {x0 x1} (h : Keeps q s) : Answers (Keeps q) (execWalkReadComplete x0 x1 s) := by
  dsimp only [execWalkReadComplete]
  split
  · with_reducible exact Keeps.answers h
  · split
    · with_reducible exact Keeps.answers (giveData_keeps (freeTag_keeps h))
    · with_reducible exact Keeps.answers (giveData_keeps (freeTag_keeps h))
    · with_reducible exact Keeps.answers h
    · with_reducible exact Keeps.answers h
    · with_reducible exact Keeps.answers h

theorem execNpCompletion_keeps {q s} {x0 x1} (h : Keeps q s) : Answers (Keeps q) (execNpCompletion x0 x1 s) := by
  dsimp only [execNpCompletion]
  with_reducible exact Keeps.answers_ite (Keeps.answers (completion_keeps h)) (Keeps.answers h)

theorem execCompletionTimeout_keeps {q s} {x0} (h : Keeps q s) : Answers (Keeps q) (execCompletionTimeout x0 s) := by
  dsimp only [execCompletionTimeout]
  split
  · with_reducible exact Keeps.answers (timeoutTag_keeps h)
  · with_reducible exact Keeps.answers h

theorem execLateCompletion_keeps {q s} {x0 x1} (h : Keeps q s) : Answers (Keeps q) (execLateCompletion x0 x1 s) := by
  dsimp only [execLateCompletion]
  with_reducible exact Keeps.answers_ite (Keeps.answers (lateCompletion_keeps h)) (Keeps.answers h)

theorem execQuarantineExpiry_keeps {q s} {x0} (h : Keeps q s) : Answers (Keeps q) (execQuarantineExpiry x0 s) := by
  dsimp only [execQuarantineExpiry]
  with_reducible exact Keeps.answers (returnTag_keeps h)

theorem execPoisonedCompletion_keeps {q s} {x0} (h : Keeps q s) : Answers (Keeps q) (execPoisonedCompletion x0 s) := by
  dsimp only [execPoisonedCompletion]
  with_reducible exact Keeps.answers_ite (Keeps.answers (poisonedCompletion_keeps h)) (Keeps.answers h)

theorem execBar2Access_keeps {q s} {x0} (h : Keeps q s) : Answers (Keeps q) (execBar2Access x0 s) := by
  unfold execBar2Access
  with_reducible refine Keeps.answers_ite ?_ ?_
  · with_reducible refine Keeps.answers ?_
    with_reducible exact h
  · lift_lets
    intro u1
    clear_value u1
    with_reducible refine Keeps.answers_ite ?_ ?_
    · with_reducible refine Keeps.answers ?_
      with_reducible exact bar2Access_keeps (barAccess_keeps h)
    · with_reducible refine Keeps.answers ?_
      with_reducible exact barRefused_keeps h

theorem execBar0PartialWrite_keeps {q s} (h : Keeps q s) : Answers (Keeps q) (execBar0PartialWrite s) := by
  unfold execBar0PartialWrite
  with_reducible refine Keeps.answers_ite ?_ ?_
  · with_reducible refine Keeps.answers ?_
    with_reducible exact bump_keeps (barAccess_keeps h)
  · with_reducible refine Keeps.answers ?_
    with_reducible exact barRefused_keeps h

theorem execInterruptFormChange_keeps {q s} {x0 x1} (h : Keeps q s) : Answers (Keeps q) (execInterruptFormChange x0 x1 s) := by
  unfold execInterruptFormChange
  with_reducible refine Keeps.answers_ite ?_ ?_
  · lift_lets
    intro u1 u2
    have h2 : Keeps q u2 := updateIntx_keeps (Keeps.mk h)
    clear_value u2
    with_reducible refine Keeps.answers ?_
    with_reducible exact Keeps.ite h2 (sendHeld_keeps h2)
  · with_reducible refine Keeps.answers ?_
    with_reducible exact h

end Sys2Proof.Machine
end

