-- ==== Sys2Proof/Laws/KeepsLamps.lean ====
section
/-! SUPPORT. What Lamps.lean defines keeps soundness and the queue. -/

namespace Sys2Proof.Machine

open Sys2Proof

theorem putLamp_keeps {q s} {x0 x1} (h : Keeps q s) : Keeps q (putLamp x0 x1 s) := by
  dsimp only [putLamp]
  with_reducible exact Keeps.mk h

theorem writeRecord_keeps {q s} {x0 x1} (h : Keeps q s) : Keeps q (writeRecord x0 x1 s) := by
  dsimp only [writeRecord]
  with_reducible exact emit_keeps h

theorem startWriteback_keeps {q s} {x0 x1} (h : Keeps q s) : Keeps q (startWriteback x0 x1 s) := by
  dsimp only [startWriteback]
  with_reducible exact Keeps.ite (putLamp_keeps h) (Keeps.ite (writeRecord_keeps (putLamp_keeps h)) (Keeps.ite (startStore_keeps (putLamp_keeps h)) h))

theorem writebackDone_keeps {q s} {x0} (h : Keeps q s) : Keeps q (writebackDone x0 s) := by
  dsimp only [writebackDone]
  split
  · with_reducible exact h
  · split
    · with_reducible exact startWriteback_keeps (putLamp_keeps (bump_keeps (putObj_keeps h)))
    · with_reducible exact putLamp_keeps (bump_keeps (putObj_keeps h))

theorem writeExact_keeps {q s} {x0} (h : Keeps q s) : Keeps q (writeExact x0 s) := by
  dsimp only [writeExact]
  with_reducible exact startWriteback_keeps h

theorem writeAllExact_keeps {q s} (h : Keeps q s) : Keeps q (writeAllExact s) := by
  unfold writeAllExact
  with_reducible exact Keeps.foldl h (fun s x h => writeExact_keeps h)

theorem lampFaultAgain_keeps {q s} {x0 x1} (h : Keeps q s) : Keeps q (lampFaultAgain x0 x1 s) := by
  unfold lampFaultAgain
  lift_lets
  intro u1 u2
  clear_value u1
  have h2 : Keeps q u2 := setSticky_keeps h
  clear_value u2
  intro u3
  have h3 : Keeps q u3.1 := recordFault_keeps (putObj_keeps h2)
  clear_value u3
  with_reducible exact Keeps.ite h2 (Keeps.ite (setSticky_keeps h3) (Keeps.ite (putObj_keeps (relabelFault_keeps h2)) h2))

theorem lampFault_keeps {q s} {x0 x1} (h : Keeps q s) : Keeps q (lampFault x0 x1 s) := by
  unfold lampFault
  with_reducible refine Keeps.ite ?_ ?_
  · with_reducible exact lampFaultAgain_keeps h
  · lift_lets
    intro u1
    have h1 : Keeps q u1 := fire_keeps (setSticky_keeps (putObj_keeps (bump_keeps h)))
    clear_value u1
    intro u2
    have h2 : Keeps q u2.1 := recordFault_keeps h1
    clear_value u2
    with_reducible exact Keeps.ite (setSticky_keeps h2) h2

theorem lampReinstate_keeps {q s} {x0} (h : Keeps q s) : Keeps q (lampReinstate x0 s) := by
  unfold lampReinstate
  with_reducible refine Keeps.ite ?_ ?_
  · with_reducible exact h
  · lift_lets
    intro u1
    have h1 : Keeps q u1 := dropRetired_keeps h
    clear_value u1
    intro u2
    have h2 : Keeps q u2 := writeExact_keeps h1
    clear_value u2
    intro u3 u4
    clear_value u3
    have h4 : Keeps q u4 := putLamp_keeps h2
    clear_value u4
    with_reducible exact Keeps.ite (setSticky_keeps h4) h4

theorem strobeOff_keeps {q s} {x0 x1} (h : Keeps q s) : Keeps q (strobeOff x0 x1 s) := by
  dsimp only [strobeOff]
  split
  · with_reducible exact h
  · with_reducible exact emit_keeps (putLamp_keeps h)

theorem checkLife_keeps {q s} {x0} (h : Keeps q s) : Keeps q (checkLife x0 s) := by
  unfold checkLife
  lift_lets
  intro u1 u2 u3
  clear_value u1 u2
  have h3 : Keeps q u3 := Keeps.ite (fire_keeps (setSticky_keeps (putLamp_keeps h))) h
  clear_value u3
  intro u4
  clear_value u4
  with_reducible exact Keeps.ite (fire_keeps (setSticky_keeps (putLamp_keeps h3))) h3

theorem countFlash_keeps {q s} {x0} (h : Keeps q s) : Keeps q (countFlash x0 s) := by
  unfold countFlash
  lift_lets
  intro u1
  have h1 : Keeps q u1 := bump_keeps h
  clear_value u1
  intro u2 u3
  clear_value u2
  have h3 : Keeps q u3 := checkLife_keeps (Keeps.ite (startWriteback_keeps h1) h1)
  clear_value u3
  with_reducible exact Keeps.ite (setSticky_keeps h3) h3

theorem strobeOccurrence_keeps {q s} {x0 x1 x2} (h : Keeps q s) : Keeps q (strobeOccurrence x0 x1 x2 s) := by
  unfold strobeOccurrence
  with_reducible refine Keeps.ite ?_ ?_
  · with_reducible exact bump_keeps (checkLife_keeps h)
  · lift_lets
    intro u1 u2 u3
    clear_value u1 u2
    have h3 : Keeps q u3 := Keeps.ite (setSticky_keeps h) h
    clear_value u3
    intro u4
    have h4 : Keeps q u4 := Keeps.ite (setSticky_keeps h3) h3
    clear_value u4
    intro u5 u6
    clear_value u5
    have h6 : Keeps q u6 := emit_keeps (putLamp_keeps h4)
    clear_value u6
    with_reducible exact countFlash_keeps (fire_keeps h6)

theorem strobesOff_keeps {q s} (h : Keeps q s) : Keeps q (strobesOff s) := by
  dsimp only [strobesOff]
  with_reducible exact Keeps.foldl h (fun s x h => strobeOff_keeps h)

theorem takeLimits_keeps {q s} {x0 x1} (h : Keeps q s) : Keeps q (takeLimits x0 x1 s) := by
  dsimp only [takeLimits]
  with_reducible exact putBlob_keeps (putBlob_keeps (putBlob_keeps (putBlob_keeps (putObj_keeps (putObj_keeps (putObj_keeps (putObj_keeps h)))))))

theorem takeStored_keeps {q s} {x0 x1} (h : Keeps q s) : Keeps q (takeStored x0 x1 s) := by
  dsimp only [takeStored]
  split
  · with_reducible exact putObj_keeps (putLamp_keeps h)
  · with_reducible exact setSticky_keeps (putObj_keeps (putLamp_keeps h))

theorem takeHead_keeps {q s} {x0 x1} (h : Keeps q s) : Keeps q (takeHead x0 x1 s) := by
  dsimp only [takeHead]
  with_reducible exact putLamp_keeps (putObj_keeps (putObj_keeps (takeStored_keeps (takeLimits_keeps h))))

theorem headFound_keeps {q s} {x0 x1} (h : Keeps q s) : Keeps q (headFound x0 x1 s) := by
  unfold headFound
  lift_lets
  intro u1 u2 u3
  clear_value u1
  have h3 : Keeps q u3 := Keeps.ite (takeStored_keeps (takeLimits_keeps h)) h
  clear_value u3
  intro u4
  clear_value u4
  with_reducible exact Keeps.ite (takeHead_keeps h) (Keeps.ite (putLamp_keeps h3) (fire_keeps (setSticky_keeps (bump_keeps (takeHead_keeps h)))))

theorem headGone_keeps {q s} {x0} (h : Keeps q s) : Keeps q (headGone x0 s) := by
  unfold headGone
  lift_lets
  intro u1 u2
  clear_value u1
  have h2 : Keeps q u2 := putLamp_keeps h
  clear_value u2
  intro u3
  have h3 : Keeps q u3 := putObj_keeps (putObj_keeps (putObj_keeps h2))
  clear_value u3
  with_reducible exact Keeps.ite (setSticky_keeps h3) h3

theorem headMissed_keeps {q s} {x0 x1} (h : Keeps q s) : Keeps q (headMissed x0 x1 s) := by
  unfold headMissed
  lift_lets
  intro u1
  have h1 : Keeps q u1 := Keeps.ite (lampFault_keeps h) h
  clear_value u1
  intro u2 u3
  clear_value u2
  have h3 : Keeps q u3 := putLamp_keeps h1
  clear_value u3
  with_reducible exact Keeps.ite (headGone_keeps h3) h3

theorem headPoll_keeps {q s} {x0 x1} (h : Keeps q s) : Keeps q (headPoll x0 x1 s) := by
  unfold headPoll
  split
  · with_reducible exact headMissed_keeps h
  · with_reducible exact Keeps.ite (headFound_keeps h) (headMissed_keeps h)

theorem execStrobeDelivery_keeps {q s} {x0} (h : Keeps q s) : Answers (Keeps q) (execStrobeDelivery x0 s) := by
  dsimp only [execStrobeDelivery]
  split
  · with_reducible exact Keeps.answers h
  · with_reducible exact Keeps.answers (strobeOccurrence_keeps (putLamp_keeps h))

theorem pulsePeak_keeps {q s} {x0 x1} (h : Keeps q s) : Keeps q (pulsePeak x0 x1 s) := by
  unfold pulsePeak
  lift_lets
  intro u1 u2 u3
  clear_value u1 u2
  have h3 : Keeps q u3 := putObj_keeps (putLamp_keeps h)
  clear_value u3
  intro u4
  clear_value u4
  with_reducible exact Keeps.ite (lampFault_keeps h3) h3

theorem execPulseEnd_keeps {q s} {x0 x1} (h : Keeps q s) : Answers (Keeps q) (execPulseEnd x0 x1 s) := by
  unfold execPulseEnd
  split
  · with_reducible refine Keeps.answers ?_
    with_reducible exact Keeps.ite (pulsePeak_keeps h) h
  · with_reducible refine Keeps.answers ?_
    with_reducible exact Keeps.ite (pulsePeak_keeps (strobeOff_keeps h)) h

theorem execStrobeGapEnd_keeps {q s} {x0} (h : Keeps q s) : Answers (Keeps q) (execStrobeGapEnd x0 s) := by
  dsimp only [execStrobeGapEnd]
  with_reducible exact Keeps.answers_ite (Keeps.answers h) (Keeps.answers (putLamp_keeps h))

theorem writebackComplete_keeps {q s} {x0 x1} (h : Keeps q s) : Keeps q (writebackComplete x0 x1 s) := by
  unfold writebackComplete
  lift_lets
  intro u1 u2
  clear_value u1
  have h2 : Keeps q u2 := lampFault_keeps h
  clear_value u2
  intro u3
  clear_value u3
  split
  · with_reducible exact h
  · with_reducible exact Keeps.ite h (Keeps.ite (writebackDone_keeps h) (Keeps.ite (putLamp_keeps h2) (putLamp_keeps h2)))

theorem retryWriteback_keeps {q s} {x0} (h : Keeps q s) : Keeps q (retryWriteback x0 s) := by
  unfold retryWriteback
  lift_lets
  intro u1
  clear_value u1
  split
  · with_reducible exact Keeps.ite (writeRecord_keeps (putLamp_keeps h)) h
  · with_reducible exact h

theorem lampRetries_keeps {q s} (h : Keeps q s) : Keeps q (lampRetries s) := by
  unfold lampRetries
  with_reducible exact Keeps.foldl h (fun s x h => retryWriteback_keeps h)

theorem execHeadPoll_keeps {q s} {x0 x1} (h : Keeps q s) : Answers (Keeps q) (execHeadPoll x0 x1 s) := by
  unfold execHeadPoll
  with_reducible refine Keeps.answers_ite ?_ ?_
  · with_reducible refine Keeps.answers ?_
    with_reducible exact h
  · with_reducible refine Keeps.answers ?_
    with_reducible exact checkLife_keeps (headPoll_keeps h)

theorem execInterlockFall_keeps {q s} {x0} (h : Keeps q s) : Answers (Keeps q) (execInterlockFall x0 s) := by
  dsimp only [execInterlockFall]
  with_reducible exact Keeps.answers_ite (Keeps.answers (Keeps.foldl h (fun s x h => strobeOff_keeps h))) (Keeps.answers (fire_keeps (bump_keeps (putObj_keeps (Keeps.foldl h (fun s x h => strobeOff_keeps h))))))

theorem execInterlockPermit_keeps {q s} {x0} (h : Keeps q s) : Answers (Keeps q) (execInterlockPermit x0 s) := by
  dsimp only [execInterlockPermit]
  with_reducible exact Keeps.answers_ite (Keeps.answers h) (Keeps.answers (fire_keeps (bump_keeps (putObj_keeps h))))

theorem execOvercurrent_keeps {q s} {x0 x1} (h : Keeps q s) : Answers (Keeps q) (execOvercurrent x0 x1 s) := by
  unfold execOvercurrent
  lift_lets
  intro u1 u2 u3
  clear_value u1 u2 u3
  split
  · with_reducible refine Keeps.answers_ite ?_ ?_
    · with_reducible refine Keeps.answers ?_
      with_reducible exact lampFault_keeps (putObj_keeps (putLamp_keeps (strobeOff_keeps h)))
    · with_reducible refine Keeps.answers ?_
      with_reducible exact h
  · with_reducible refine Keeps.answers ?_
    with_reducible exact h

end Sys2Proof.Machine
end

