-- ==== Sys2Proof/Laws/KeepsModes.lean ====
section
/-! SUPPORT. What Modes.lean defines keeps soundness and the queue. -/

namespace Sys2Proof.Machine

open Sys2Proof

theorem moveCasks_keeps {q s} {x0 x1 x2} (h : Keeps q s) : Keeps q (moveCasks x0 x1 x2 s) := by
  dsimp only [moveCasks]
  with_reducible exact Keeps.foldl h (fun s x h => Keeps.ite (setCaskState_keeps h) h)

theorem releaseCasks_keeps {q s} {x0} (h : Keeps q s) : Keeps q (releaseCasks x0 s) := by
  dsimp only [releaseCasks]
  with_reducible exact loseCasks_keeps h

theorem stopAllDeliveries_keeps {q s} (h : Keeps q s) : Keeps q (stopAllDeliveries s) := by
  dsimp only [stopAllDeliveries]
  with_reducible exact stopDeliveries_keeps h

theorem clearEngine_keeps {q s} (h : Keeps q s) : Keeps q (clearEngine s) := by
  dsimp only [clearEngine]
  with_reducible exact Keeps.mk h

theorem clearBoil_keeps {q s} (h : Keeps q s) : Keeps q (clearBoil s) := by
  dsimp only [clearBoil]
  with_reducible exact Keeps.foldl h (fun s x h => putObj_keeps h)

theorem finishAccesses_keeps {q s} (h : Keeps q s) : Keeps q (finishAccesses s) := by
  unfold finishAccesses
  lift_lets
  intro u1 u2 u3
  clear_value u1
  with_reducible exact Keeps.foldl (Keeps.mk h) (fun s x h => Keeps.ite (writePerformed_keeps h) h)

theorem hbmSleep_keeps {q s} (h : Keeps q s) : Keeps q (hbmSleep s) := by
  unfold hbmSleep
  with_reducible refine Keeps.ite ?_ ?_
  · with_reducible exact h
  · lift_lets
    intro u1
    have h1 : Keeps q u1 := finishAccesses_keeps h
    clear_value u1
    intro u2
    with_reducible exact Keeps.mk h1

theorem hbmLost_keeps {q s} (h : Keeps q s) : Keeps q (hbmLost s) := by
  dsimp only [hbmLost]
  with_reducible exact Keeps.mk (loseMem_keeps h)

theorem startReceiving_keeps {q s} (h : Keeps q s) : Keeps q (startReceiving s) := by
  dsimp only [startReceiving]
  with_reducible exact Keeps.foldl (Keeps.mk h) (fun s x h => clearStamps_keeps h)

theorem flushLanes_keeps {q s} {x0} (h : Keeps q s) : Keeps q (flushLanes x0 s) := by
  dsimp only [flushLanes]
  with_reducible exact Keeps.foldl h (fun s x h => Keeps.ite (Keeps.mk (ubFlush_keeps h)) h)

theorem enterDormant_keeps {q s} (h : Keeps q s) : Keeps q (enterDormant s) := by
  unfold enterDormant
  lift_lets
  intro u1
  have h1 : Keeps q u1 := emptyUnderbacks_keeps h
  clear_value u1
  intro u2
  have h2 : Keeps q u2 := hbmLost_keeps (loseAllCasks_keeps h1)
  clear_value u2
  intro u3
  with_reducible exact Keeps.ite (Keeps.mk h2) (hbmSleep_keeps h1)

theorem leaveDormant_keeps {q s} (h : Keeps q s) : Keeps q (leaveDormant s) := by
  dsimp only [leaveDormant]
  with_reducible exact Keeps.mk (setSticky_keeps h)

theorem enterEffects_keeps {q s} {x0 x1} (h : Keeps q s) : Keeps q (enterEffects x0 x1 s) := by
  dsimp only [enterEffects]
  split
  · with_reducible exact leaveDormant_keeps (Keeps.ite (startReceiving_keeps h) h)
  · with_reducible exact enterDormant_keeps (Keeps.ite (startReceiving_keeps h) h)
  · with_reducible exact moveCasks_keeps (Keeps.ite (startReceiving_keeps h) h)
  · with_reducible exact moveCasks_keeps (Keeps.ite (startReceiving_keeps h) h)
  · with_reducible exact moveCasks_keeps (Keeps.ite (startReceiving_keeps h) h)
  · with_reducible exact moveCasks_keeps (Keeps.ite (startReceiving_keeps h) h)
  · with_reducible exact flushLanes_keeps (clearEngine_keeps (loseAllCasks_keeps (stopAllDeliveries_keeps (Keeps.ite (startReceiving_keeps h) h))))
  · with_reducible exact Keeps.ite (startReceiving_keeps h) h

theorem settleMode_keeps {q s} {x0} (h : Keeps q s) : Keeps q (settleMode x0 s) := by
  dsimp only [settleMode]
  with_reducible exact relaneAll_keeps (fire_keeps (putObj_keeps (Keeps.mk h)))

theorem beginTransition_keeps {q s} {x0} (h : Keeps q s) : Keeps q (beginTransition x0 s) := by
  dsimp only [beginTransition]
  with_reducible exact stopTransmit_keeps (Keeps.mk h)

theorem acceptRequest_keeps {q s} {x0} (h : Keeps q s) : Keeps q (acceptRequest x0 s) := by
  dsimp only [acceptRequest]
  with_reducible exact beginTransition_keeps (putObj_keeps h)

theorem settleShutdown_keeps {q s} (h : Keeps q s) : Keeps q (settleShutdown s) := by
  dsimp only [settleShutdown]
  with_reducible exact Keeps.ite (putObj_keeps (Keeps.mk h)) h

theorem finishTransition_keeps {q s} {x0} (h : Keeps q s) : Keeps q (finishTransition x0 s) := by
  unfold finishTransition
  lift_lets
  intro u1 u2
  clear_value u1
  have h2 : Keeps q u2 := settleMode_keeps (enterEffects_keeps h)
  clear_value u2
  intro u3 u4 u5
  clear_value u3
  have h5 : Keeps q u5 := Keeps.mk h2
  clear_value u5
  with_reducible refine Keeps.ite ?_ ?_
  · with_reducible exact Keeps.ite (acceptRequest_keeps h5) (beginTransition_keeps h5)
  · split
    · with_reducible exact settleShutdown_keeps (Keeps.ite (acceptRequest_keeps h5) h5)
    · with_reducible exact settleShutdown_keeps h5

theorem enterLimp_keeps {q s} (h : Keeps q s) : Keeps q (enterLimp s) := by
  dsimp only [enterLimp]
  with_reducible exact settleMode_keeps (Keeps.mk (Keeps.ite (hbmSleep_keeps (flushLanes_keeps (clearBoil_keeps (clearEngine_keeps (loseAllCasks_keeps (abandonTx_keeps (stopAllDeliveries_keeps h))))))) (startReceiving_keeps (hbmSleep_keeps (flushLanes_keeps (clearBoil_keeps (clearEngine_keeps (loseAllCasks_keeps (abandonTx_keeps (stopAllDeliveries_keeps h))))))))))

theorem ppsLow_keeps {q s} (h : Keeps q s) : Keeps q (ppsLow s) := by
  unfold ppsLow
  lift_lets
  intro u1 u2 u3
  clear_value u1
  have h3 : Keeps q u3 := Keeps.mk h
  clear_value u3
  with_reducible exact Keeps.ite (emit_keeps h3) h3

theorem haltPins_keeps {q s} (h : Keeps q s) : Keeps q (haltPins s) := by
  unfold haltPins
  lift_lets
  intro u1
  have h1 : Keeps q u1 := Keeps.foldl h (fun s x h => Keeps.ite (driveTrigOut_keeps h) h)
  clear_value u1
  with_reducible exact strobesOff_keeps (ppsLow_keeps h1)

theorem enterHalt_keeps {q s} (h : Keeps q s) : Keeps q (enterHalt s) := by
  unfold enterHalt
  lift_lets
  intro u1
  have h1 : Keeps q u1 := emptyUnderbacks_keeps (abandonTx_keeps (haltPins_keeps h))
  clear_value u1
  intro u2 u3
  have h3 : Keeps q u3 := Keeps.mk h1
  clear_value u3
  intro u4
  have h4 : Keeps q u4 := hbmSleep_keeps (clearBoil_keeps h3)
  clear_value u4
  intro u5 u6
  have h6 : Keeps q u6 := Keeps.mk h4
  clear_value u6
  with_reducible exact writeAllExact_keeps (settleMode_keeps h6)

theorem haltBy_keeps {q s} {x0} (h : Keeps q s) : Keeps q (haltBy x0 s) := by
  dsimp only [haltBy]
  with_reducible exact Keeps.ite h (Keeps.ite (setSticky_keeps (Keeps.mk h)) (enterHalt_keeps (setSticky_keeps (Keeps.mk h))))

theorem limpBy_keeps {q s} {x0} (h : Keeps q s) : Keeps q (limpBy x0 s) := by
  unfold limpBy
  with_reducible refine Keeps.ite ?_ ?_
  · with_reducible exact h
  · lift_lets
    intro u1 u2
    have h2 : Keeps q u2 := setSticky_keeps (Keeps.mk h)
    clear_value u2
    intro u3 u4
    have h4 : Keeps q u4 := Keeps.mk h2
    clear_value u4
    intro u5
    with_reducible exact Keeps.ite h2 (Keeps.ite (haltBy_keeps h2) (Keeps.ite h2 (Keeps.ite (Keeps.mk h4) (enterLimp_keeps h4))))

theorem settleCauses_keeps {q s} (h : Keeps q s) : Keeps q (settleCauses s) := by
  dsimp only [settleCauses]
  with_reducible exact Keeps.ite (haltBy_keeps (Keeps.mk h)) (Keeps.ite (limpBy_keeps (Keeps.mk h)) (Keeps.mk h))

theorem takeRequest_keeps {q s} {x0} (h : Keeps q s) : Keeps q (takeRequest x0 s) := by
  dsimp only [takeRequest]
  with_reducible exact Keeps.ite (haltBy_keeps (putObj_keeps h)) (Keeps.ite (Keeps.mk h) (acceptRequest_keeps h))

theorem stagedRequest_keeps {q s} {x0 x1} (h : Keeps q s) : Keeps q (stagedRequest x0 x1 s) := by
  dsimp only [stagedRequest]
  split
  · with_reducible exact Keeps.ite (takeRequest_keeps h) h
  · with_reducible exact h

theorem advanceTransition_keeps {q s} {x0} (h : Keeps q s) : Keeps q (advanceTransition x0 s) := by
  dsimp only [advanceTransition]
  with_reducible exact Keeps.ite h (Keeps.ite (Keeps.ite (stopReceiving_keeps h) h) (Keeps.ite (Keeps.ite (stopReceiving_keeps h) h) (Keeps.ite (Keeps.ite (Keeps.ite (Keeps.mk (Keeps.ite (moveCasks_keeps (Keeps.ite (stopReceiving_keeps h) h)) (Keeps.ite (stopReceiving_keeps h) h))) (finishTransition_keeps (Keeps.ite (moveCasks_keeps (Keeps.ite (stopReceiving_keeps h) h)) (Keeps.ite (stopReceiving_keeps h) h)))) (finishTransition_keeps (releaseCasks_keeps (Keeps.ite (moveCasks_keeps (Keeps.ite (stopReceiving_keeps h) h)) (Keeps.ite (stopReceiving_keeps h) h))))) (finishTransition_keeps (Keeps.ite (stopReceiving_keeps h) h)))))

theorem wakeUp_keeps {q s} {x0} (h : Keeps q s) : Keeps q (wakeUp x0 s) := by
  dsimp only [wakeUp]
  with_reducible exact Keeps.ite (beginTransition_keeps (assertWake_keeps (Keeps.mk h))) (Keeps.ite (Keeps.mk h) h)

theorem wakeFires_keeps {q s} {x0} (h : Keeps q s) : Keeps q (wakeFires x0 s) := by
  dsimp only [wakeFires]
  with_reducible exact Keeps.ite (setSticky_keeps (Keeps.ite (wakeUp_keeps (fire_keeps (putObj_keeps (Keeps.mk h)))) (fire_keeps (putObj_keeps (Keeps.mk h))))) (Keeps.ite (wakeUp_keeps (fire_keeps (putObj_keeps (Keeps.mk h)))) (fire_keeps (putObj_keeps (Keeps.mk h))))

theorem evalWake_keeps {q s} (h : Keeps q s) : Keeps q (evalWake s) := by
  dsimp only [evalWake]
  with_reducible exact Keeps.ite (wakeFires_keeps h) h

theorem wakeAtWritten_keeps {q s} {x0} (h : Keeps q s) : Keeps q (wakeAtWritten x0 s) := by
  dsimp only [wakeAtWritten]
  with_reducible exact Keeps.ite (wakeFires_keeps (putObj_keeps (Keeps.mk h))) (putObj_keeps (Keeps.mk h))

theorem keepRepairs_keeps {q s} {x0} (h : Keeps q s) : Keeps q (keepRepairs x0 s) := by
  unfold keepRepairs
  lift_lets
  intro u1 u2
  clear_value u1
  with_reducible exact Keeps.foldl (Keeps.mk h) (fun s x h => putObj_keeps h)

theorem coldReset_keeps {q s} {x0} (h : Keeps q s) : Keeps q (coldReset x0 s) :=
  keepRepairs_keeps (putObj_keeps ⟨⟨⟨rfl, rfl, rfl⟩, Nat.zero_le _, Nat.zero_le _, Nat.zero_le _⟩, h.2⟩)

theorem clearHydro_keeps {q s} (h : Keeps q s) : Keeps q (clearHydro s) := by
  exact Keeps.mk_tabs h (tabSorted_filter h.objs) (tabSorted_filter h.blobs) h.mem

theorem warmReset_keeps {q s} {x0} (h : Keeps q s) : Keeps q (warmReset x0 s) := by
  unfold warmReset
  lift_lets
  intro u1
  have h1 : Keeps q u1 := abandonTx_keeps (stopAllDeliveries_keeps h)
  clear_value u1
  intro u2
  have h2 : Keeps q u2 := clearEngine_keeps (loseAllCasks_keeps h1)
  clear_value u2
  intro u3
  have h3 : Keeps q u3 := Keeps.ite (emit_keeps (hostReset_keeps h2)) (resetRacking_keeps h2)
  clear_value u3
  intro u4
  have h4 : Keeps q u4 := hbmSleep_keeps (clearBoil_keeps (clearHydro_keeps (strobesOff_keeps h3)))
  clear_value u4
  intro u5 u6 u7 u8
  have h8 : Keeps q u8 := Keeps.mk h4
  clear_value u8
  intro u9
  have h9 : Keeps q u9 := Keeps.foldl h8 (fun s x h => putObj_keeps h)
  clear_value u9
  intro u10
  have h10 : Keeps q u10 := putObj_keeps (putObj_keeps (putObj_keeps h9))
  clear_value u10
  with_reducible exact putObj_keeps (settleMode_keeps (putObj_keeps h10))

theorem settleWarm_keeps {q s} (h : Keeps q s) : Keeps q (settleWarm s) := by
  dsimp only [settleWarm]
  split
  · with_reducible exact Keeps.ite (warmReset_keeps h) h
  · with_reducible exact h

theorem storeImage_keeps {q s} {x0} (h : Keeps q s) : Keeps q (storeImage x0 s) := by
  dsimp only [storeImage]
  with_reducible exact Keeps.mk h

theorem commitImage_keeps {q s} (h : Keeps q s) : Keeps q (commitImage s) := by
  unfold commitImage
  lift_lets
  intro u1 u2
  clear_value u1
  have h2 : Keeps q u2.2 := takeChoice_keeps h
  clear_value u2
  intro u3 u4
  have h4 : Keeps q u4 := startStore_keeps (putObj_keeps (putObj_keeps h2))
  clear_value u4
  intro u5
  split
  · with_reducible exact Keeps.ite (putObj_keeps h2) (Keeps.ite (Keeps.mk h4) h4)
  · with_reducible exact putObj_keeps h
  · with_reducible exact putObj_keeps h
  · with_reducible exact putObj_keeps h

theorem trySlot_keeps {q s} {x0} (h : Keeps q s) : Keeps q (trySlot x0 s).2 := by
  dsimp only [trySlot]
  split
  · with_reducible exact h
  · with_reducible exact setSticky_keeps h
  · with_reducible exact setSticky_keeps h
  · with_reducible exact h

theorem runSlot_keeps {q s} {x0} (h : Keeps q s) : Keeps q (runSlot x0 s) := by
  dsimp only [runSlot]
  with_reducible exact putObj_keeps (Keeps.mk h)

theorem loadImage_keeps {q s} (h : Keeps q s) : Keeps q (loadImage s) := by
  dsimp only [loadImage]
  split
  · rename_i e300
    with_reducible exact runSlot_keeps (Keeps.of_snd e300 (trySlot_keeps (putObj_keeps h)))
  · rename_i e300
    split
    · rename_i e299
      with_reducible exact runSlot_keeps (Keeps.of_snd e299 (trySlot_keeps (Keeps.of_snd e300 (trySlot_keeps (putObj_keeps h)))))
    · rename_i e299
      with_reducible exact putObj_keeps (Keeps.mk (Keeps.of_snd e299 (trySlot_keeps (Keeps.of_snd e300 (trySlot_keeps (putObj_keeps h))))))

theorem startShutdown_keeps {q s} (h : Keeps q s) : Keeps q (startShutdown s) := by
  dsimp only [startShutdown]
  with_reducible exact Keeps.ite (acceptRequest_keeps (writeAllExact_keeps (Keeps.mk h))) (settleShutdown_keeps (writeAllExact_keeps (Keeps.mk h)))

theorem execColdReset_keeps {q s} {x0} (h : Keeps q s) : Answers (Keeps q) (execColdReset x0 s) := by
  dsimp only [execColdReset]
  with_reducible exact Keeps.answers (coldReset_keeps h)

theorem execColdExit_keeps {q s} (h : Keeps q s) : Answers (Keeps q) (execColdExit s) := by
  dsimp only [execColdExit]
  with_reducible exact Keeps.answers_ite (Keeps.answers (Keeps.mk h)) (Keeps.answers h)

theorem execKilnBrownOut_keeps {q s} (h : Keeps q s) : Answers (Keeps q) (execKilnBrownOut s) := by
  dsimp only [execKilnBrownOut]
  with_reducible exact Keeps.answers (coldReset_keeps (takeChoice_keeps h))

theorem execBootImageLoad_keeps {q s} (h : Keeps q s) : Answers (Keeps q) (execBootImageLoad s) := by
  dsimp only [execBootImageLoad]
  with_reducible exact Keeps.answers_ite (Keeps.answers (loadImage_keeps h)) (Keeps.answers h)

theorem execBootBist_keeps {q s} {x0 x1 x2} (h : Keeps q s) : Answers (Keeps q) (execBootBist x0 x1 x2 s) := by
  dsimp only [execBootBist]
  with_reducible exact Keeps.answers_ite (Keeps.answers_ite (Keeps.answers (Keeps.mk (Keeps.ite (Keeps.ite (Keeps.ite h (setSticky_keeps h)) (setSticky_keeps (Keeps.ite h (setSticky_keeps h)))) (setSticky_keeps (Keeps.ite (Keeps.ite h (setSticky_keeps h)) (setSticky_keeps (Keeps.ite h (setSticky_keeps h)))))))) (Keeps.answers (haltBy_keeps (Keeps.ite (Keeps.ite (Keeps.ite h (setSticky_keeps h)) (setSticky_keeps (Keeps.ite h (setSticky_keeps h)))) (setSticky_keeps (Keeps.ite (Keeps.ite h (setSticky_keeps h)) (setSticky_keeps (Keeps.ite h (setSticky_keeps h))))))))) (Keeps.answers h)

theorem execTransitionComplete_keeps {q s} (h : Keeps q s) : Answers (Keeps q) (execTransitionComplete s) := by
  dsimp only [execTransitionComplete]
  split
  · with_reducible exact Keeps.answers h
  · with_reducible exact Keeps.answers_ite (Keeps.answers h) (Keeps.answers (advanceTransition_keeps h))

theorem execDrainComplete_keeps {q s} (h : Keeps q s) : Answers (Keeps q) (execDrainComplete s) := by
  dsimp only [execDrainComplete]
  split
  · with_reducible exact Keeps.answers h
  · with_reducible exact Keeps.answers_ite (Keeps.answers (finishTransition_keeps h)) (Keeps.answers h)

theorem execFirmwareWatchdog_keeps {q s} (h : Keeps q s) : Answers (Keeps q) (execFirmwareWatchdog s) := by
  dsimp only [execFirmwareWatchdog]
  with_reducible exact Keeps.answers_ite (Keeps.answers h) (Keeps.answers_ite (Keeps.answers (haltBy_keeps (logUntracked_keeps h))) (Keeps.answers (limpBy_keeps (logUntracked_keeps h))))

theorem execLimpCause_keeps {q s} {x0} (h : Keeps q s) : Answers (Keeps q) (execLimpCause x0 s) := by
  dsimp only [execLimpCause]
  with_reducible exact Keeps.answers (limpBy_keeps h)

theorem execWatchdogGraceEnd_keeps {q s} (h : Keeps q s) : Answers (Keeps q) (execWatchdogGraceEnd s) := by
  dsimp only [execWatchdogGraceEnd]
  with_reducible exact Keeps.answers_ite (Keeps.answers (enterLimp_keeps h)) (Keeps.answers h)

theorem execHaltCause_keeps {q s} {x0} (h : Keeps q s) : Answers (Keeps q) (execHaltCause x0 s) := by
  dsimp only [execHaltCause]
  with_reducible exact Keeps.answers (haltBy_keeps h)

theorem execWakeCompare_keeps {q s} (h : Keeps q s) : Answers (Keeps q) (execWakeCompare s) := by
  dsimp only [execWakeCompare]
  with_reducible exact Keeps.answers_ite (Keeps.answers h) (Keeps.answers (evalWake_keeps h))

theorem execWakeAhead_keeps {q s} (h : Keeps q s) : Answers (Keeps q) (execWakeAhead s) := by
  dsimp only [execWakeAhead]
  split
  · with_reducible exact Keeps.answers h
  · with_reducible exact Keeps.answers_ite (Keeps.answers (wakeUp_keeps h)) (Keeps.answers h)

theorem execWritebackComplete_keeps {q s} {x0 x1} (h : Keeps q s) : Answers (Keeps q) (execWritebackComplete x0 x1 s) := by
  dsimp only [execWritebackComplete]
  with_reducible exact Keeps.answers (settleShutdown_keeps (writebackComplete_keeps h))

end Sys2Proof.Machine
end

