-- ==== Sys2Proof/Laws/KeepsDeliver.lean ====
section
/-! SUPPORT. What Deliver.lean defines keeps soundness and the queue. -/

namespace Sys2Proof.Machine

open Sys2Proof

theorem gristArrive_keeps {q s} {x0} (h : Keeps q s) : Keeps q (gristArrive x0 s) := by
  dsimp only [gristArrive]
  with_reducible exact Keeps.mk_fab h

theorem flowTrigger_keeps {q s} {x0 x1} (h : Keeps q s) : Keeps q (flowTrigger x0 x1 s) := by
  dsimp only [flowTrigger]
  split
  · with_reducible exact stampOccurrence_keeps h
  · with_reducible exact Keeps.mk_fab h
  · with_reducible exact h

theorem captureTime_keeps {q s} {x0 x1} (h : Keeps q s) : Keeps q (captureTime x0 x1 s) := by
  dsimp only [captureTime]
  with_reducible exact bump_keeps (putObj_keeps h)

theorem consume_keeps {q s} {x0 x1 x2} (h : Keeps q s) : Keeps q (consume x0 x1 x2 s) := by
  dsimp only [consume]
  with_reducible exact Keeps.ite (gristArrive_keeps h) (Keeps.ite (trigOutOccurrence_keeps h) (Keeps.ite (putLamp_keeps h) (Keeps.ite (cmpStart_keeps h) (Keeps.ite (flowTrigger_keeps h) (Keeps.ite (exportOccurrence_keeps h) (Keeps.ite (captureTime_keeps h) (Keeps.ite (Keeps.ite (wakeUp_keeps h) h) (Keeps.ite (Keeps.mk h) h))))))))

theorem countOcc_keeps {q s} {x0 x1} (h : Keeps q s) : Keeps q (countOcc x0 x1 s) := by
  dsimp only [countOcc]
  with_reducible exact setSticky_keeps (putObj_keeps (bump_keeps h))

theorem meetConsumer_keeps {q s} {x0 x1 x2} (h : Keeps q s) : Keeps q (meetConsumer x0 x1 x2 s) := by
  dsimp only [meetConsumer]
  with_reducible exact Keeps.ite (overflowDrop_keeps h) (Keeps.ite (countOcc_keeps h) (Keeps.ite (Keeps.mk_fab (countOcc_keeps h)) (consume_keeps (countOcc_keeps h))))

theorem deliver_keeps {q s} {x0 x1 x2} (h : Keeps q s) : Keeps q (deliver x0 x1 x2 s) := by
  dsimp only [deliver]
  with_reducible exact Keeps.ite (bump_keeps (addObj_keeps (Keeps.mk_fab h))) (Keeps.ite (stormTrip_keeps (stormCount_keeps (addObj_keeps (Keeps.mk_fab h)))) (meetConsumer_keeps (stormCount_keeps (addObj_keeps (Keeps.mk_fab h)))))

theorem execOccurrenceDelivery_keeps {q s} {x0} (h : Keeps q s) : Answers (Keeps q) (execOccurrenceDelivery x0 s) := by
  dsimp only [execOccurrenceDelivery]
  split
  · with_reducible exact Keeps.answers h
  · with_reducible exact Keeps.answers_ite (Keeps.answers (deliver_keeps h)) (Keeps.answers h)

theorem execPendingDelivery_keeps {q s} {x0} (h : Keeps q s) : Answers (Keeps q) (execPendingDelivery x0 s) := by
  dsimp only [execPendingDelivery]
  split
  · with_reducible exact Keeps.answers h
  · with_reducible exact Keeps.answers_ite (Keeps.answers (consume_keeps (dropPending_keeps h))) (Keeps.answers h)

end Sys2Proof.Machine
end

