-- ==== Sys2Proof/Laws/KeepsFaults.lean ====
section
/-! SUPPORT. What Faults.lean defines keeps soundness and the queue. -/

namespace Sys2Proof.Machine

open Sys2Proof

theorem pcRetrain_keeps {q s} {x0 x1} (h : Keeps q s) : Keeps q (pcRetrain x0 x1 s) := by
  dsimp only [pcRetrain]
  with_reducible exact Keeps.ite (addLog_keeps (bump_keeps h)) (cellarReinstate_keeps h)

theorem reinstateRes_keeps {q s} {x0 x1} (h : Keeps q s) : Keeps q (reinstateRes x0 x1 s) := by
  dsimp only [reinstateRes]
  with_reducible refine Keeps.ite ?_ ?_
  · with_reducible exact h
  · split
    · with_reducible exact reinstateLane_keeps h
    · with_reducible exact reinstatePort_keeps h
    · with_reducible exact dropRetired_keeps h
    · with_reducible exact dropRetired_keeps h
    · with_reducible exact pcRetrain_keeps h
    · with_reducible exact lampReinstate_keeps h
    · with_reducible exact encReinstate_keeps h
    · with_reducible exact reinstateCascade_keeps h
    · with_reducible exact h

theorem clearList_keeps {q s} {x0} (h : Keeps q s) : Keeps q (clearList x0 s) := by
  dsimp only [clearList]
  with_reducible exact startStore_keeps (Keeps.foldl h (fun s x h => reinstateRes_keeps h))

theorem stepDown_keeps {q s} {x0} (h : Keeps q s) : Keeps q (stepDown x0 s) := by
  unfold stepDown
  lift_lets
  intro u1
  have h1 : Keeps q u1 := Keeps.ite (bump_keeps h) h
  clear_value u1
  intro u2
  have h2 : Keeps q u2 := setSticky_keeps (setSticky_keeps (putObj_keeps h1))
  clear_value u2
  intro u3
  with_reducible exact logUntracked_keeps (fire_keeps (Keeps.mk_flt h2))

theorem supplyFalls_keeps {q s} {x0} (h : Keeps q s) : Keeps q (supplyFalls x0 s) := by
  dsimp only [supplyFalls]
  with_reducible exact Keeps.ite (Keeps.ite (stepDown_keeps (bump_keeps h)) (Keeps.ite (stepDown_keeps (bump_keeps h)) h)) (Keeps.ite (stepDown_keeps h) h)

theorem putHot_keeps {q s} {x0 x1 x2} (h : Keeps q s) : Keeps q (putHot x0 x1 x2 s) := by
  dsimp only [putHot]
  with_reducible exact Keeps.mk_flt h

theorem thermWarn_keeps {q s} {x0 x1} (h : Keeps q s) : Keeps q (thermWarn x0 x1 s) := by
  dsimp only [thermWarn]
  with_reducible exact Keeps.ite (logUntracked_keeps (fire_keeps (setSticky_keeps (setSticky_keeps (bump_keeps (putHot_keeps (putHot_keeps (putHot_keeps h)))))))) (Keeps.ite (putHot_keeps (putHot_keeps (putHot_keeps h))) (putHot_keeps (putHot_keeps h)))

theorem thermReading_keeps {q s} {x0 x1} (h : Keeps q s) : Keeps q (thermReading x0 x1 s) := by
  dsimp only [thermReading]
  with_reducible exact Keeps.ite (Keeps.mk (logUntracked_keeps (setSticky_keeps (Keeps.ite (Keeps.mk (logUntracked_keeps (fire_keeps (setSticky_keeps (setSticky_keeps (putHot_keeps (putHot_keeps (thermWarn_keeps h)))))))) (putHot_keeps (putHot_keeps (thermWarn_keeps h))))))) (Keeps.ite (Keeps.mk (logUntracked_keeps (fire_keeps (setSticky_keeps (setSticky_keeps (putHot_keeps (putHot_keeps (thermWarn_keeps h)))))))) (putHot_keeps (putHot_keeps (thermWarn_keeps h))))

theorem stackReading_keeps {q s} {x0 x1} (h : Keeps q s) : Keeps q (stackReading x0 x1 s) := by
  dsimp only [stackReading]
  with_reducible exact thermReading_keeps (Keeps.ite (setSticky_keeps (putObj_keeps (putInt_keeps h))) (Keeps.ite (putObj_keeps (putInt_keeps h)) (putInt_keeps h)))

theorem execSupplySag_keeps {q s} {x0} (h : Keeps q s) : Answers (Keeps q) (execSupplySag x0 s) := by
  dsimp only [execSupplySag]
  with_reducible exact Keeps.answers_ite (Keeps.answers h) (Keeps.answers (supplyFalls_keeps h))

theorem execGovernorStepEnd_keeps {q s} {x0} (h : Keeps q s) : Answers (Keeps q) (execGovernorStepEnd x0 s) := by
  unfold execGovernorStepEnd
  with_reducible refine Keeps.answers_ite ?_ ?_
  · lift_lets
    intro u1
    with_reducible refine Keeps.answers ?_
    with_reducible exact putObj_keeps (Keeps.mk_flt h)
  · with_reducible refine Keeps.answers ?_
    with_reducible exact h

theorem execCoreRailFault_keeps {q s} (h : Keeps q s) : Answers (Keeps q) (execCoreRailFault s) := by
  dsimp only [execCoreRailFault]
  with_reducible exact Keeps.answers_ite (Keeps.answers h) (Keeps.answers (limpBy_keeps (logUntracked_keeps (setSticky_keeps h))))

theorem execThermalReading_keeps {q s} {x0} (h : Keeps q s) : Answers (Keeps q) (execThermalReading x0 s) := by
  dsimp only [execThermalReading]
  with_reducible exact Keeps.answers_ite (Keeps.answers h) (Keeps.answers (settleCauses_keeps (thermReading_keeps (putInt_keeps (Keeps.foldl h (fun s x h => putInt_keeps h))))))

theorem execStackTempRead_keeps {q s} {x0 x1} (h : Keeps q s) : Answers (Keeps q) (execStackTempRead x0 x1 s) := by
  dsimp only [execStackTempRead]
  with_reducible exact Keeps.answers_ite (Keeps.answers h) (Keeps.answers (settleCauses_keeps (stackReading_keeps h)))

theorem execUncorrectableRead_keeps {q s} {x0 x1 x2 x3} (h : Keeps q s) : Answers (Keeps q) (execUncorrectableRead x0 x1 x2 x3 s) := by
  dsimp only [execUncorrectableRead]
  with_reducible exact Keeps.answers_ite (Keeps.answers (settleCauses_keeps (badRead_keeps (setSticky_keeps h)))) (Keeps.answers h)

theorem execRowRepair_keeps {q s} {x0 x1 x2 x3} (h : Keeps q s) : Answers (Keeps q) (execRowRepair x0 x1 x2 x3 s) := by
  dsimp only [execRowRepair]
  with_reducible exact Keeps.answers_ite (Keeps.answers (settleCauses_keeps (repairRow_keeps h))) (Keeps.answers h)

theorem execPcRetire_keeps {q s} {x0 x1} (h : Keeps q s) : Answers (Keeps q) (execPcRetire x0 x1 s) := by
  dsimp only [execPcRetire]
  with_reducible exact Keeps.answers_ite (Keeps.answers (settleCauses_keeps (pcFault_keeps h))) (Keeps.answers h)

theorem execScrub_keeps {q s} {x0 x1 x2 x3 x4} (h : Keeps q s) : Answers (Keeps q) (execScrub x0 x1 x2 x3 x4 s) := by
  dsimp only [execScrub]
  with_reducible exact Keeps.answers_ite (Keeps.answers_ite (Keeps.answers (settleCauses_keeps (badRead_keeps (setSticky_keeps (putObj_keeps h))))) (Keeps.answers (countRead_keeps (putObj_keeps h)))) (Keeps.answers h)

end Sys2Proof.Machine
end

