-- ==== Sys2Proof/Laws/KeepsLimits.lean ====
section
/-! SUPPORT. What Limits.lean defines keeps soundness and the queue. -/

namespace Sys2Proof.Machine

open Sys2Proof

theorem planView_keeps {q s} {x0} (h : Keeps q s) : Keeps q (planView x0 s) := by
  dsimp only [planView]
  with_reducible refine Keeps.foldl ?_ ?_
  · with_reducible exact h
  · intro s x h
    try dsimp only
    split
    · with_reducible exact putObj_keeps h
    · with_reducible exact putBlob_keeps h

end Sys2Proof.Machine
end

