-- ==== Sys2Proof/Laws/KeepsPtp.lean ====
section
/-! SUPPORT. What Ptp.lean defines keeps soundness and the queue. -/

namespace Sys2Proof.Machine

open Sys2Proof

theorem ptpUpdate_keeps {q s} {x0} (h : Keeps q s) : Keeps q (ptpUpdate x0 s) := by
  unfold ptpUpdate
  with_reducible exact Keeps.ite (servoUpdate_keeps (h)) (putObj_keeps (h))

theorem ptpException_keeps {q s} (h : Keeps q s) : Keeps q (ptpException s) := by
  unfold ptpException
  with_reducible exact bump_keeps (h)

theorem ptpAnnounce_keeps {q s} {x0 x1} (h : Keeps q s) : Keeps q (ptpAnnounce x0 x1 s) := by
  unfold ptpAnnounce
  lift_lets
  intro u1
  intro u2
  intro u3
  intro u4
  have h4 : Keeps q u4 := putObj_keeps (Keeps.mk (h))
  clear_value u4
  with_reducible exact Keeps.ite (ptpException_keeps (h)) (Keeps.ite (h) (Keeps.ite (Keeps.ite (putInt_keeps (h4)) (h4)) (putObj_keeps (Keeps.mk (h)))))

theorem ptpSyncDone_keeps {q s} {x0 x1} (h : Keeps q s) : Keeps q (ptpSyncDone x0 x1 s) := by
  unfold ptpSyncDone
  lift_lets
  intro u1
  intro u2
  have h2 : Keeps q u2 := Keeps.mk (h)
  clear_value u2
  intro u3
  intro u4
  with_reducible exact ptpUpdate_keeps (h2)

theorem sendPtp_keeps {q s} {x0 x1 x2} (h : Keeps q s) : Keeps q (sendPtp x0 x1 x2 s) := by
  unfold sendPtp
  with_reducible exact txFirmware_keeps (h)

theorem ptpMessage_keeps {q s} {x0 x1 x2} (h : Keeps q s) : Keeps q (ptpMessage x0 x1 x2 s) := by
  unfold ptpMessage
  lift_lets
  intro u1
  intro u2
  with_reducible refine Keeps.ite ?_ ?_
  · with_reducible exact ptpException_keeps (h)
  · with_reducible refine Keeps.ite ?_ ?_
    · with_reducible exact ptpException_keeps (h)
    · split
      · with_reducible exact Keeps.ite (ptpException_keeps (h)) (Keeps.ite (Keeps.mk (h)) (ptpSyncDone_keeps (h)))
      · split
        · with_reducible exact Keeps.ite (ptpSyncDone_keeps (h)) (ptpException_keeps (h))
        · with_reducible exact ptpException_keeps (h)
      · lift_lets
        intro u3
        split
        · lift_lets
          intro u4
          with_reducible exact Keeps.ite (putObj_keeps (Keeps.mk (h))) (ptpException_keeps (h))
        · with_reducible exact ptpException_keeps (h)
      · with_reducible exact Keeps.ite (sendPtp_keeps (h)) (ptpException_keeps (h))
      · with_reducible exact ptpAnnounce_keeps (h)
      · with_reducible exact ptpException_keeps (h)
      · with_reducible exact ptpException_keeps (h)
      · with_reducible exact ptpException_keeps (h)

theorem loadProfile_keeps {q s} {x0} (h : Keeps q s) : Keeps q (loadProfile x0 s) := by
  unfold loadProfile
  with_reducible exact Keeps.ite (putInt_keeps (putObj_keeps (putInt_keeps (putInt_keeps (putObj_keeps (h)))))) (putInt_keeps (putObj_keeps (putInt_keeps (putInt_keeps (putObj_keeps (h))))))

theorem ptpRestart_keeps {q s} (h : Keeps q s) : Keeps q (ptpRestart s) := by
  unfold ptpRestart
  lift_lets
  intro u1
  intro u2
  have h2 : Keeps q u2 := Keeps.mk (h)
  clear_value u2
  with_reducible exact putObj_keeps (h2)

theorem execPtpMessage_keeps {q s} {x0 x1 x2} (h : Keeps q s) : Answers (Keeps q) (execPtpMessage x0 x1 x2 s) := by
  unfold execPtpMessage
  with_reducible refine Keeps.answers_ite ?_ ?_
  · with_reducible refine Keeps.answers ?_
    with_reducible exact ptpMessage_keeps (h)
  · with_reducible refine Keeps.answers ?_
    with_reducible exact h

theorem execPtpAnnounceTimeout_keeps {q s} (h : Keeps q s) : Answers (Keeps q) (execPtpAnnounceTimeout s) := by
  unfold execPtpAnnounceTimeout
  lift_lets
  intro u1
  intro u2
  have h2 : Keeps q u2 := ptpRestart_keeps (h)
  clear_value u2
  with_reducible refine Keeps.answers_ite ?_ ?_
  · with_reducible refine Keeps.answers ?_
    with_reducible exact Keeps.ite (putObj_keeps (h2)) (h2)
  · with_reducible refine Keeps.answers ?_
    with_reducible exact h

theorem execPtpMessageInterval_keeps {q s} {x0 x1} (h : Keeps q s) : Answers (Keeps q) (execPtpMessageInterval x0 x1 s) := by
  unfold execPtpMessageInterval
  lift_lets
  intro u1
  intro u2
  intro u3
  intro u4
  with_reducible refine Keeps.answers_ite ?_ ?_
  · with_reducible refine Keeps.answers ?_
    with_reducible exact h
  · split
    · with_reducible refine Keeps.answers_ite ?_ ?_
      · with_reducible refine Keeps.answers ?_
        with_reducible exact h
      · with_reducible refine Keeps.answers_ite ?_ ?_
        · with_reducible refine Keeps.answers ?_
          with_reducible exact sendPtp_keeps (sendPtp_keeps (h))
        · with_reducible refine Keeps.answers ?_
          with_reducible exact sendPtp_keeps (h)
    · with_reducible refine Keeps.answers_ite ?_ ?_
      · with_reducible refine Keeps.answers ?_
        with_reducible exact h
      · with_reducible refine Keeps.answers ?_
        with_reducible exact sendPtp_keeps (h)
    · with_reducible refine Keeps.answers_ite ?_ ?_
      · with_reducible refine Keeps.answers ?_
        with_reducible exact sendPtp_keeps (Keeps.mk (h))
      · with_reducible refine Keeps.answers ?_
        with_reducible exact h

end Sys2Proof.Machine
end

