-- ==== Sys2Proof/Laws/KeepsEffects.lean ====
section
/-! SUPPORT. What Effects.lean defines keeps soundness and the queue. -/

namespace Sys2Proof.Machine

open Sys2Proof

theorem stickyWrite_keeps {q s} {x0 x1 x2 x3} (h : Keeps q s) : Keeps q (stickyWrite x0 x1 x2 x3 s) := by
  dsimp only [stickyWrite]
  with_reducible exact putObj_keeps h

theorem retrainFails_keeps {q s} {x0 x1} (h : Keeps q s) : Keeps q (retrainFails x0 x1 s).2 := by
  cases x0 with
  | some l => cases x1 <;> exact h
  | none =>
    induction x1 generalizing s with
    | nil => exact h
    | cons p t ih =>
      simp only [retrainFails]
      exact ih (takeChoice_keeps h)

theorem effModes_keeps {q s} {x0 x1 x2} (h : Keeps q s) : Keeps q (effModes x0 x1 x2 s) := by
  dsimp only [effModes]
  with_reducible refine Keeps.ite ?_ ?_
  · split
    · with_reducible exact takeRequest_keeps h
    · with_reducible exact h
  · with_reducible exact Keeps.ite (relaneAll_keeps (putObj_keeps h)) (Keeps.ite (Keeps.mk h) (Keeps.ite (startShutdown_keeps h) (Keeps.ite (wakeAtWritten_keeps h) (Keeps.ite (storeImage_keeps h) (Keeps.ite (commitImage_keeps h) (putObj_keeps h))))))

theorem closeSessions_keeps {q s} {x0} (h : Keeps q s) : Keeps q (closeSessions x0 s) := by
  dsimp only [closeSessions]
  with_reducible exact Keeps.mk h

theorem effDict_keeps {q s} {x0 x1 x2 x3} (h : Keeps q s) : Keeps q (effDict x0 x1 x2 x3 s) := by
  unfold effDict
  with_reducible refine Keeps.ite ?_ ?_
  · with_reducible exact closeSessions_keeps (putBlob_keeps h)
  · with_reducible refine Keeps.ite ?_ ?_
    · with_reducible exact closeSessions_keeps (putObj_keeps h)
    · with_reducible refine Keeps.ite ?_ ?_
      · lift_lets
        intro u1
        have h1 : Keeps q u1 := takeChoice_keeps h
        clear_value u1
        intro u2 u3
        clear_value u3
        with_reducible exact Keeps.ite h1 (Keeps.mk h1)
      · with_reducible exact putObj_keeps h

theorem requad_keeps {q s} {x0 x1} (h : Keeps q s) : Keeps q (requad x0 x1 s) := by
  dsimp only [requad]
  with_reducible exact Keeps.foldl h (fun s x h => Keeps.ite (quadRestart_keeps h) h)

theorem setUpstream_keeps {q s} {x0} (h : Keeps q s) : Keeps q (setUpstream x0 s) := by
  unfold setUpstream
  lift_lets
  intro u1 u2 u3
  clear_value u1 u2
  have h3 : Keeps q u3 := putObj_keeps h
  clear_value u3
  intro u4 u5
  have h5 : Keeps q u5 := Keeps.ite h3 (putObj_keeps (setBhLocked_keeps (Keeps.mk h3)))
  clear_value u5
  intro u6 u7
  clear_value u6
  have h7 : Keeps q u7 := Keeps.ite (setSource_keeps h5) (Keeps.ite (setSource_keeps h5) h5)
  clear_value u7
  intro u8
  have h8 : Keeps q u8 := Keeps.ite h7 (startStore_keeps h7)
  clear_value u8
  with_reducible exact requad_keeps h8

theorem effTime_keeps {q s} {x0 x1 x2} (h : Keeps q s) : Keeps q (effTime x0 x1 x2 s) := by
  dsimp only [effTime]
  with_reducible exact Keeps.ite (setIncrement_keeps h) (Keeps.ite (addStep_keeps h) (Keeps.ite (setTime_keeps h) (Keeps.ite (setSource_keeps h) (Keeps.ite (ppsPolarityWritten_keeps h) (Keeps.ite (loadProfile_keeps (putObj_keeps h)) (Keeps.ite (ptpRestart_keeps (putObj_keeps h)) (Keeps.ite (setUpstream_keeps h) (Keeps.ite (requad_keeps (putObj_keeps h)) (Keeps.ite (armCompare_keeps (putObj_keeps h)) (Keeps.ite (Keeps.ite (armCompare_keeps (putObj_keeps (evalCompare_keeps h))) (putObj_keeps (evalCompare_keeps h))) (putObj_keeps h)))))))))))

theorem effCounters_keeps {q s} {x0 x1} (h : Keeps q s) : Keeps q (effCounters x0 x1 s) := by
  dsimp only [effCounters]
  with_reducible exact Keeps.ite (armSnapshot_keeps h) (Keeps.ite (Keeps.mk h) (putObj_keeps h))

theorem effEvents_keeps {q s} {x0 x1 x2 x3} (h : Keeps q s) : Keeps q (effEvents x0 x1 x2 x3 s) := by
  unfold effEvents
  with_reducible exact Keeps.ite (softFire_keeps h) (Keeps.ite (Keeps.foldl h (fun s x h => softFire_keeps h)) (Keeps.ite (dropPending_keeps (putFab_keeps h)) (Keeps.ite (gristWritten_keeps h) (putFab_keeps h))))

theorem effQuad_keeps {q s} {x0 x1 x2 x3} (h : Keeps q s) : Keeps q (effQuad x0 x1 x2 x3 s) := by
  dsimp only [effQuad]
  with_reducible exact Keeps.ite (setQuadMode_keeps h) (Keeps.ite (Keeps.ite (quadRestart_keeps (putObj_keeps h)) (putObj_keeps h)) (Keeps.ite (prbsInject_keeps h) (Keeps.ite (prbsClear_keeps h) (Keeps.ite (reinstateLane_keeps h) (Keeps.ite (laneConfigured_keeps (putObj_keeps h)) (Keeps.ite (testWritten_keeps (putObj_keeps h)) (putObj_keeps h)))))))

theorem effPort_keeps {q s} {x0 x1 x2} (h : Keeps q s) : Keeps q (effPort x0 x1 x2 s) := by
  dsimp only [effPort]
  with_reducible exact Keeps.ite (reinstatePort_keeps h) (Keeps.ite (Keeps.ite (putObj_keeps h) (restartAlignment_keeps (putObj_keeps h))) (putObj_keeps h))

theorem effFlow_keeps {q s} {x0 x1 x2} (h : Keeps q s) : Keeps q (effFlow x0 x1 x2 s) := by
  dsimp only [effFlow]
  with_reducible exact Keeps.ite (putObj_keeps (Keeps.ite (stopFlow_keeps h) h)) (Keeps.ite (txTypeWritten_keeps (putObj_keeps h)) (putObj_keeps h))

theorem effUnderback_keeps {q s} {x0 x1 x2} (h : Keeps q s) : Keeps q (effUnderback x0 x1 x2 s) := by
  unfold effUnderback
  with_reducible exact Keeps.ite (Keeps.ite (ubFlush_keeps h) h) (Keeps.ite (ubClock_keeps (putObj_keeps h)) (putObj_keeps h))

theorem effLauter_keeps {q s} {x0 x1 x2} (h : Keeps q s) : Keeps q (effLauter x0 x1 x2 s) := by
  dsimp only [effLauter]
  with_reducible exact Keeps.ite (clearStamps_keeps h) (Keeps.ite (updateBoil_keeps (putObj_keeps h)) (Keeps.ite (updateGlobal_keeps (putObj_keeps h)) (Keeps.ite (updateFlowLevel_keeps (putObj_keeps h)) (putObj_keeps h))))

theorem effCellar_keeps {q s} {x0 x1 x2 x3} (h : Keeps q s) : Keeps q (effCellar x0 x1 x2 x3 s) := by
  dsimp only [effCellar]
  with_reducible exact Keeps.ite (pcRetrain_keeps (retrainFails_keeps h)) (Keeps.ite (startTest_keeps h) (putObj_keeps h))

theorem effRacking_keeps {q s} {x0 x1 x2} (h : Keeps q s) : Keeps q (effRacking x0 x1 x2 s) := by
  dsimp only [effRacking]
  with_reducible exact Keeps.ite (resumeRacking_keeps h) (Keeps.ite (Keeps.ite (Keeps.ite (enableRing_keeps h) h) (disableRing_keeps h)) (Keeps.ite (Keeps.ite (enableCq_keeps h) (disableCq_keeps h)) (Keeps.ite (Keeps.ite (Keeps.ite (enableExc_keeps h) h) (disableExc_keeps h)) (Keeps.ite (updateRing_keeps (putObj_keeps h)) (putObj_keeps h)))))

theorem effTap_keeps {q s} {x0 x1 x2 x3} (h : Keeps q s) : Keeps q (effTap x0 x1 x2 x3 s) := by
  unfold effTap
  with_reducible exact Keeps.ite (Keeps.ite (Keeps.ite (tapEnable_keeps h) h) (tapDisable_keeps h)) (Keeps.ite (sendFrame_keeps h) (putObj_keeps h))

theorem effHydro_keeps {q s} {x0 x1 x2} (h : Keeps q s) : Keeps q (effHydro x0 x1 x2 s) := by
  dsimp only [effHydro]
  with_reducible exact Keeps.ite (putFlow_keeps (putObj_keeps h)) (Keeps.ite (restartAlign_keeps (putObj_keeps h)) (putObj_keeps h))

theorem effPos_keeps {q s} {x0 x1 x2 x3} (h : Keeps q s) : Keeps q (effPos x0 x1 x2 x3 s) := by
  unfold effPos
  with_reducible exact Keeps.ite (encEnableWritten_keeps h) (Keeps.ite (encGeometryWritten_keeps h) (Keeps.ite (positionWritten_keeps h) (Keeps.ite (queryAt_keeps h) (Keeps.ite (encReinstate_keeps h) (Keeps.ite (cmpModeWritten_keeps h) (Keeps.ite (cmpTargetWritten_keeps h) (Keeps.ite (listWritten_keeps h) (putObj_keeps h))))))))

theorem headUserPages_keeps {q s} {x0 x1 x2} (h : Keeps q s) : Keeps q (headUserPages x0 x1 x2 s) := by
  induction x1 generalizing x2 s with
  | zero => exact h
  | succ n ih =>
    simp only [headUserPages]
    exact ih (emit_keeps h)

theorem effLamp_keeps {q s} {x0 x1 x2 x3} (h : Keeps q s) : Keeps q (effLamp x0 x1 x2 x3 s) := by
  unfold effLamp
  with_reducible exact Keeps.ite (lampReinstate_keeps h) (Keeps.ite (headUserPages_keeps (putBlob_keeps h)) (putFab_keeps h))

theorem effHost_keeps {q s} {x0 x1 x2} (h : Keeps q s) : Keeps q (effHost x0 x1 x2 s) := by
  dsimp only [effHost]
  with_reducible exact Keeps.ite (winAttrWritten_keeps h) (putObj_keeps h)

theorem effFaults_keeps {q s} {x0 x1 x2} (h : Keeps q s) : Keeps q (effFaults x0 x1 x2 s) := by
  dsimp only [effFaults]
  with_reducible exact Keeps.ite (reinstateRes_keeps (retrainFails_keeps h)) (Keeps.ite (clearList_keeps (retrainFails_keeps h)) (Keeps.ite (putFab_keeps h) (putObj_keeps h)))

theorem startSelftest_keeps {q s} {x0} (h : Keeps q s) : Keeps q (startSelftest x0 s) := by
  dsimp only [startSelftest]
  with_reducible exact putObj_keeps h

theorem effect_keeps {q s} {x0 x1 x2 x3 x4} (h : Keeps q s) : Keeps q (effect x0 x1 x2 x3 x4 s) := by
  unfold effect
  lift_lets
  intro u1 u2 u3
  clear_value u1 u2 u3
  with_reducible refine Keeps.ite ?_ ?_
  · with_reducible exact effQuad_keeps h
  · split
    · with_reducible exact effModes_keeps h
    · with_reducible exact effDict_keeps h
    · with_reducible exact effTime_keeps h
    · with_reducible exact effEvents_keeps h
    · with_reducible exact effPort_keeps h
    · with_reducible exact effFlow_keeps h
    · with_reducible exact effUnderback_keeps h
    · with_reducible exact effLauter_keeps h
    · with_reducible exact effLauter_keeps h
    · with_reducible exact effCellar_keeps h
    · with_reducible exact effRacking_keeps h
    · with_reducible exact effTap_keeps h
    · with_reducible exact Keeps.ite (startSelftest_keeps h) (putObj_keeps h)
    · with_reducible exact Keeps.ite (startSelftest_keeps h) (effHydro_keeps h)
    · with_reducible exact effPos_keeps h
    · with_reducible exact effLamp_keeps h
    · with_reducible exact effHost_keeps h
    · with_reducible exact effFaults_keeps h
    · with_reducible exact effCounters_keeps h
    · with_reducible exact putObj_keeps h

theorem applyWrite_keeps {q s} {x0 x1 x2 x3 x4} (h : Keeps q s) : Keeps q (applyWrite x0 x1 x2 x3 x4 s) := by
  dsimp only [applyWrite]
  split
  · with_reducible exact h
  · with_reducible exact Keeps.ite (startStore_keeps (Keeps.ite (stickyWrite_keeps h) (effect_keeps h))) (Keeps.ite (stickyWrite_keeps h) (effect_keeps h))

end Sys2Proof.Machine
end

