-- ==== Sys2Proof/Laws/KeepsPlans.lean ====
section
/-! SUPPORT. What Plans.lean defines keeps soundness and the queue. -/

namespace Sys2Proof.Machine

open Sys2Proof

theorem putPlan_keeps {q s} {x0 x1} (h : Keeps q s) : Keeps q (putPlan x0 x1 s) := by
  dsimp only [putPlan]
  split <;> with_reducible exact Keeps.mk h

theorem setPlanState_keeps {q s} {x0 x1} (h : Keeps q s) : Keeps q (setPlanState x0 x1 s) := by
  dsimp only [setPlanState]
  with_reducible exact putPlan_keeps h

theorem sealPlan_keeps {q s} {x0} (h : Keeps q s) : Keeps q (sealPlan x0 s).2 := by
  dsimp only [sealPlan]
  with_reducible refine Keeps.ite_snd ?_ ?_
  · with_reducible exact h
  · split
    · with_reducible exact setPlanState_keeps h
    · with_reducible exact putObj_keeps (putObj_keeps h)

theorem clearPlan_keeps {q s} {x0} (h : Keeps q s) : Keeps q (clearPlan x0 s).2 := by
  dsimp only [clearPlan]
  with_reducible exact Keeps.ite_snd h (putPlan_keeps h)

theorem savePlan_keeps {q s} {x0} (h : Keeps q s) : Keeps q (savePlan x0 s).2 := by
  dsimp only [savePlan]
  with_reducible exact Keeps.ite_snd h (Keeps.ite_snd h (startStore_keeps (Keeps.mk h)))

theorem planWrite_keeps {q s} {x0} (h : Keeps q s) : ∀ p, planWrite x0 s = some p → Keeps q p.2 := by
  intro p e
  dsimp only [planWrite] at e
  split at e
  · cases e; exact sealPlan_keeps h
  · split at e
    · cases e; exact clearPlan_keeps h
    · split at e
      · cases e; exact savePlan_keeps h
      · cases e

theorem schedulePitch_keeps {q s} {x0} (h : Keeps q s) : Keeps q (schedulePitch x0 s) := by
  dsimp only [schedulePitch]
  with_reducible exact setPlanState_keeps (Keeps.mk h)

theorem unschedule_keeps {q s} {x0} (h : Keeps q s) : Keeps q (unschedule x0 s) := by
  dsimp only [unschedule]
  with_reducible exact setPlanState_keeps (Keeps.mk h)

theorem armPitch_keeps {q s} {x0} (h : Keeps q s) : Keeps q (armPitch x0 s) := by
  dsimp only [armPitch]
  with_reducible exact Keeps.mk h

theorem putEntry_keeps {q s} {x0} (h : Keeps q s) : Keeps q (putEntry x0 s) := by
  unfold putEntry
  split
  · with_reducible exact putObj_keeps h
  · with_reducible exact putBlob_keeps h

theorem applyEntry_keeps {q s} {x0} (h : Keeps q s) : Keeps q (applyEntry x0 s) := by
  unfold applyEntry
  with_reducible exact applyWrite_keeps h

theorem applyEntries_keeps {q s} {x0} (h : Keeps q s) : Keeps q (applyEntries x0 s) := by
  unfold applyEntries
  lift_lets
  intro u1 u2
  clear_value u1
  have h2 : Keeps q u2 := Keeps.foldl h (fun s x h => putEntry_keeps h)
  clear_value u2
  intro u3
  have h3 : Keeps q u3 := Keeps.foldl h2 (fun s x h => applyEntry_keeps h)
  clear_value u3
  with_reducible exact Keeps.foldl h3 (fun s x h => applyEntry_keeps h)

theorem applyRequest_keeps {q s} {x0 x1} (h : Keeps q s) : Keeps q (applyRequest x0 x1 s) := by
  dsimp only [applyRequest]
  split
  · with_reducible exact stagedRequest_keeps h
  · with_reducible exact h

theorem recordPitch_keeps {q s} {x0 x1} (h : Keeps q s) : Keeps q (recordPitch x0 x1 s) := by
  dsimp only [recordPitch]
  with_reducible exact fire_keeps (Keeps.ite (bump_keeps (setSticky_keeps (bump_keeps (putObj_keeps (putObj_keeps (setPlanState_keeps (Keeps.ite (setPlanState_keeps h) h))))))) (bump_keeps (putObj_keeps (putObj_keeps (setPlanState_keeps (Keeps.ite (setPlanState_keeps h) h))))))

theorem takePitch_keeps {q s} {x0} (h : Keeps q s) : Keeps q (takePitch x0 s) := by
  dsimp only [takePitch]
  with_reducible exact Keeps.ite (setSticky_keeps (unschedule_keeps h)) (applyRequest_keeps (recordPitch_keeps (applyEntries_keeps (Keeps.mk h))))

theorem duePitch_keeps {q s} (h : Keeps q s) : Keeps q (duePitch s) := by
  unfold duePitch
  split
  · with_reducible exact h
  · with_reducible exact Keeps.ite (settleCauses_keeps (takePitch_keeps h)) h

theorem pitchAtFrame_keeps {q s} {x0 x1} (h : Keeps q s) : Keeps q (pitchAtFrame x0 x1 s) := by
  dsimp only [pitchAtFrame]
  split
  · with_reducible exact h
  · with_reducible exact Keeps.ite (settleCauses_keeps (takePitch_keeps h)) h

theorem pitchTimedOut_keeps {q s} {x0} (h : Keeps q s) : Keeps q (pitchTimedOut x0 s) := by
  dsimp only [pitchTimedOut]
  with_reducible exact Keeps.ite (putObj_keeps (setSticky_keeps (unschedule_keeps h))) (setSticky_keeps (unschedule_keeps h))

theorem execPitchTakesPlace_keeps {q s} (h : Keeps q s) : Answers (Keeps q) (execPitchTakesPlace s) := by
  dsimp only [execPitchTakesPlace]
  split
  · with_reducible exact Keeps.answers h
  · with_reducible exact Keeps.answers_ite (Keeps.answers (settleCauses_keeps (takePitch_keeps h))) (Keeps.answers h)

theorem execBoundaryTimeout_keeps {q s} (h : Keeps q s) : Answers (Keeps q) (execBoundaryTimeout s) := by
  dsimp only [execBoundaryTimeout]
  split
  · with_reducible exact Keeps.answers h
  · with_reducible exact Keeps.answers_ite (Keeps.answers (pitchTimedOut_keeps h)) (Keeps.answers h)

theorem execPacketPlace_keeps {q s} {x0} (h : Keeps q s) : Answers (Keeps q) (execPacketPlace x0 s) := by
  dsimp only [execPacketPlace]
  split
  · with_reducible exact Keeps.answers (placePacket_keeps h)
  · with_reducible exact Keeps.answers (placePacket_keeps (pitchAtFrame_keeps h))

theorem execTapFrameStart_keeps {q s} {x0} (h : Keeps q s) : Answers (Keeps q) (execTapFrameStart x0 s) := by
  dsimp only [execTapFrameStart]
  with_reducible exact Keeps.answers_ite (Keeps.answers (gridStart_keeps (pitchAtFrame_keeps h))) (Keeps.answers (gridStart_keeps h))

theorem execTapTrigger_keeps {q s} {x0} (h : Keeps q s) : Answers (Keeps q) (execTapTrigger x0 s) := by
  dsimp only [execTapTrigger]
  with_reducible exact Keeps.answers_ite (Keeps.answers (triggerStart_keeps (pitchAtFrame_keeps h))) (Keeps.answers (triggerStart_keeps h))

end Sys2Proof.Machine
end

