-- ==== Sys2Proof/Laws/KeepsServe.lean ====
section
/-! SUPPORT. What Serve.lean defines keeps soundness and the queue. -/

namespace Sys2Proof.Machine

open Sys2Proof

theorem dropTransfer_keeps {q s} {x0 x1} (h : Keeps q s) : Keeps q (dropTransfer x0 x1 s) := by
  dsimp only [dropTransfer]
  with_reducible exact Keeps.mk h

theorem commitLive_keeps {q s} {x0 x1 x2} (h : Keeps q s) : Keeps q (commitLive x0 x1 x2 s).2 := by
  dsimp only [commitLive]
  split
  · next r e => exact planWrite_keeps h r e
  · exact Keeps.ite_snd (applyWrite_keeps h) h

theorem commitStaged_keeps {q s} {x0 x1 x2 x3} (h : Keeps q s) : Keeps q (commitStaged x0 x1 x2 x3 s).2 := by
  dsimp only [commitStaged]
  with_reducible exact Keeps.ite_snd (putPlan_keeps h) h

theorem serveRead_keeps {q s} {x0 x1 x2 x3} (h : Keeps q s) : Keeps q (serveRead x0 x1 x2 x3 s).2 := by
  dsimp only [serveRead]
  with_reducible refine Keeps.ite_snd ?_ ?_
  · with_reducible exact h
  · split
    · with_reducible exact h
    · with_reducible exact Keeps.ite_snd h h

theorem serveReadBlock_keeps {q s} {x0 x1 x2 x3} (h : Keeps q s) : Keeps q (serveReadBlock x0 x1 x2 x3 s).2 := by
  dsimp only [serveReadBlock]
  with_reducible refine Keeps.ite_snd ?_ ?_
  · with_reducible exact h
  · split
    · with_reducible exact h
    · with_reducible exact Keeps.ite_snd h h

theorem serveWrite_keeps {q s} {x0 x1 x2 x3} (h : Keeps q s) : Keeps q (serveWrite x0 x1 x2 x3 s).2 := by
  dsimp only [serveWrite]
  split
  · with_reducible exact h
  · with_reducible refine Keeps.ite_snd ?_ ?_
    · with_reducible exact h
    · with_reducible refine Keeps.ite_snd ?_ ?_
      · with_reducible exact h
      · dsimp only
        with_reducible exact Keeps.ite_snd (commitLive_keeps h) (commitStaged_keeps h)

theorem serveWriteBlock_keeps {q s} {x0 x1 x2 x3} (h : Keeps q s) : Keeps q (serveWriteBlock x0 x1 x2 x3 s).2 := by
  dsimp only [serveWriteBlock]
  with_reducible refine Keeps.ite_snd ?_ ?_
  · with_reducible exact h
  · with_reducible refine Keeps.ite_snd ?_ ?_
    · with_reducible exact h
    · with_reducible refine Keeps.ite_snd ?_ ?_
      · with_reducible exact h
      · with_reducible refine Keeps.ite_snd ?_ ?_
        · with_reducible exact h
        · with_reducible refine Keeps.ite_snd ?_ ?_
          · with_reducible exact Keeps.mk (dropTransfer_keeps h)
          · split
            · with_reducible exact h
            · with_reducible refine Keeps.ite_snd ?_ ?_
              · with_reducible exact h
              · with_reducible refine Keeps.ite_snd ?_ ?_
                · with_reducible exact dropTransfer_keeps (Keeps.ite_snd (commitLive_keeps h) (commitStaged_keeps h))
                · dsimp only
                  with_reducible exact Keeps.ite_snd (commitLive_keeps h) (commitStaged_keeps h)

theorem serveSubscribe_keeps {q s} {x0 x1 x2 x3} (h : Keeps q s) : Keeps q (serveSubscribe x0 x1 x2 x3 s).2 := by
  dsimp only [serveSubscribe]
  with_reducible exact Keeps.ite_snd h (Keeps.ite_snd h (Keeps.ite_snd (Keeps.mk h) (Keeps.ite_snd h (Keeps.mk h))))

theorem servePitch_keeps {q s} {x0} (h : Keeps q s) : Keeps q (servePitch x0 s).2 := by
  dsimp only [servePitch]
  with_reducible exact Keeps.ite_snd h (schedulePitch_keeps h)

theorem serveAbortPlan_keeps {q s} {x0} (h : Keeps q s) : Keeps q (serveAbortPlan x0 s).2 := by
  dsimp only [serveAbortPlan]
  with_reducible refine Keeps.ite_snd ?_ ?_
  · with_reducible exact h
  · split
    · with_reducible exact h
    · with_reducible exact unschedule_keeps h

theorem serveAbortBlob_keeps {q s} {x0 x1 x2 x3} (h : Keeps q s) : Keeps q (serveAbortBlob x0 x1 x2 x3 s).2 := by
  dsimp only [serveAbortBlob]
  with_reducible exact Keeps.ite_snd (dropTransfer_keeps h) h

theorem serveOpen_keeps {q s} {x0} (h : Keeps q s) : Keeps q (serveOpen x0 s).2 := by
  dsimp only [serveOpen]
  split
  · with_reducible exact h
  · with_reducible exact Keeps.ite_snd h (Keeps.mk (takeFree_keeps (takeChoice_keeps h)))

theorem serveProof_keeps {q s} {x0} (h : Keeps q s) : Keeps q (serveProof x0 s).2 := by
  dsimp only [serveProof]
  split
  · with_reducible exact h
  · with_reducible exact Keeps.ite_snd h (Keeps.ite_snd h (Keeps.ite_snd (Keeps.mk h) (closeSessions_keeps h)))

theorem carryIndex_keeps {q} {x0 x1} {a : Answer × State} (h : Keeps q a.2) : Keeps q (carryIndex x0 x1 a).2 := by
  unfold carryIndex
  exact Keeps.ite_snd h h

theorem serveObject_keeps {q s} {x0 x1} (h : Keeps q s) : Keeps q (serveObject x0 x1 s).2 := by
  dsimp only [serveObject]
  with_reducible refine Keeps.ite_snd ?_ ?_
  · with_reducible exact h
  · split
    · with_reducible exact serveRead_keeps h
    · with_reducible exact serveWrite_keeps h
    · with_reducible exact serveReadBlock_keeps h
    · with_reducible exact serveWriteBlock_keeps h
    · with_reducible exact serveSubscribe_keeps h
    · with_reducible exact servePitch_keeps h
    · with_reducible exact Keeps.ite_snd (serveAbortPlan_keeps h) (serveAbortBlob_keeps h)

theorem serve_keeps {q s} {x0} (h : Keeps q s) : Keeps q (serve x0 s).2 := by
  unfold serve
  refine Keeps.ite_snd h (Keeps.ite_snd h (Keeps.ite_snd (serveOpen_keeps h) (Keeps.ite_snd (Keeps.ite_snd h (serveProof_keeps h)) (Keeps.ite_snd h ?_))))
  split
  · exact h
  · exact carryIndex_keeps (serveObject_keeps h)

end Sys2Proof.Machine
end

