-- ==== Sys2Proof/Laws/KeepsLinob.lean ====
section
/-! SUPPORT. What Linob.lean defines keeps soundness and the queue. -/

namespace Sys2Proof.Machine

open Sys2Proof

theorem sendLinob_keeps {q s} {x0 x1} (h : Keeps q s) : Keeps q (sendLinob x0 x1 s) := by
  dsimp only [sendLinob]
  split
  · with_reducible exact emit_keeps h
  · split
    · with_reducible exact sendCascade_keeps h
    · with_reducible exact h

theorem mapSession_keeps {q s} {x0 x1} (h : Keeps q s) : Keeps q (mapSession x0 x1 s) := by
  dsimp only [mapSession]
  with_reducible exact Keeps.mk h

theorem putMbox_keeps {q s} {x0 x1} (h : Keeps q s) : Keeps q (putMbox x0 x1 s) := by
  dsimp only [putMbox]
  with_reducible exact Keeps.mk h

theorem mailboxDone_keeps {q s} {x0 x1 x2} (h : Keeps q s) : Keeps q (mailboxDone x0 x1 x2 s) := by
  dsimp only [mailboxDone]
  with_reducible exact fire_keeps (putMbox_keeps h)

theorem linobReply_keeps {q s} {x0 x1 x2 x3 x4 x5 x6} (h : Keeps q s) : Keeps q (linobReply x0 x1 x2 x3 x4 x5 x6 s) := by
  dsimp only [linobReply]
  with_reducible exact sendLinob_keeps (mapSession_keeps h)

theorem respond_keeps {q s} {x0 x1 x2 x3} (h : Keeps q s) : Keeps q (respond x0 x1 x2 x3 s) := by
  dsimp only [respond]
  split
  · with_reducible exact h
  · with_reducible exact mailboxDone_keeps h
  · with_reducible exact linobReply_keeps h
  · with_reducible exact putObj_keeps h

theorem holdReply_keeps {q s} {x0} (h : Keeps q s) : Keeps q (holdReply x0 s) := by
  dsimp only [holdReply]
  with_reducible exact Keeps.mk h

theorem serverFault_keeps {q s} {x0 x1} (h : Keeps q s) : Keeps q (serverFault x0 x1 s) := by
  unfold serverFault
  with_reducible exact respond_keeps (setSticky_keeps (logUntracked_keeps h))

theorem request_keeps {q s} {x0 x1} (h : Keeps q s) : Keeps q (request x0 x1 s) := by
  unfold request
  lift_lets
  intro u1
  have h1 : Keeps q u1 := duePitch_keeps h
  clear_value u1
  intro u2
  have h2 : Keeps q u2.2 := serve_keeps h1
  clear_value u2
  intro u3
  have h3 : Keeps q u3 := respond_keeps h2
  clear_value u3
  intro u4
  have h4 : Keeps q u4 := Keeps.ite (holdReply_keeps h3) (respond_keeps h3)
  clear_value u4
  with_reducible exact Keeps.ite (serverFault_keeps h1) (settleWarm_keeps (settleCauses_keeps h4))

theorem mailboxRequest_keeps {q s} {x0 x1 x2 x3 x4 x5 x6} (h : Keeps q s) : Keeps q (mailboxRequest x0 x1 x2 x3 x4 x5 x6 s) := by
  unfold mailboxRequest
  with_reducible refine Keeps.ite ?_ ?_
  · with_reducible exact bar0Write_keeps (fun s h => h) h
  · lift_lets
    intro u1
    have h1 : Keeps q u1 := barAccess_keeps h
    clear_value u1
    intro u2 u3 u4
    clear_value u2 u3
    have h4 : Keeps q u4 := putMbox_keeps h1
    clear_value u4
    intro u5 u6 u7
    clear_value u5 u6
    have h7 : Keeps q u7 := putMbox_keeps h4
    clear_value u7
    intro u8
    clear_value u8
    with_reducible exact Keeps.ite (bump_keeps h4) (request_keeps h7)

theorem malformed_keeps {q s} (h : Keeps q s) : Keeps q (malformed s) := by
  dsimp only [malformed]
  with_reducible exact bump_keeps h

theorem authFailure_keeps {q s} (h : Keeps q s) : Keeps q (authFailure s) := by
  dsimp only [authFailure]
  with_reducible exact bump_keeps h

theorem replayed_keeps {q s} (h : Keeps q s) : Keeps q (replayed s) := by
  dsimp only [replayed]
  with_reducible exact bump_keeps h

theorem versionReply_keeps {q s} {x0 x1 x2} (h : Keeps q s) : Keeps q (versionReply x0 x1 x2 s) := by
  dsimp only [versionReply]
  with_reducible exact respond_keeps h

theorem receiveOpen_keeps {q s} {x0 x1 x2} (h : Keeps q s) : Keeps q (receiveOpen x0 x1 x2 s) := by
  unfold receiveOpen
  with_reducible exact Keeps.ite (authFailure_keeps h) (Keeps.ite (versionReply_keeps h) (request_keeps h))

theorem receiveSession_keeps {q s} {x0 x1 x2 x3} (h : Keeps q s) : Keeps q (receiveSession x0 x1 x2 x3 s) := by
  unfold receiveSession
  split
  · with_reducible exact authFailure_keeps h
  · with_reducible refine Keeps.ite ?_ ?_
    · with_reducible exact authFailure_keeps h
    · with_reducible refine Keeps.ite ?_ ?_
      · with_reducible exact replayed_keeps h
      · with_reducible refine Keeps.ite ?_ ?_
        · with_reducible exact Keeps.ite h (sendLinob_keeps h)
        · lift_lets
          intro u1
          have h1 : Keeps q u1 := mapSession_keeps h
          clear_value u1
          intro u2
          clear_value u2
          with_reducible exact Keeps.ite (versionReply_keeps h1) (request_keeps h1)

theorem receiveLinob_keeps {q s} {x0 x1 x2} (h : Keeps q s) : Keeps q (receiveLinob x0 x1 x2 s) := by
  unfold receiveLinob
  split
  · with_reducible exact malformed_keeps h
  · with_reducible exact Keeps.ite (malformed_keeps h) (Keeps.ite (receiveOpen_keeps h) (receiveSession_keeps h))

theorem takeBroadcast_keeps {q s} {x0 x1 x2} (h : Keeps q s) : Keeps q (takeBroadcast x0 x1 x2 s) := by
  unfold takeBroadcast
  lift_lets
  intro u1 u2 u3
  clear_value u1
  have h3 : Keeps q u3 := Keeps.mk h
  clear_value u3
  intro u4
  clear_value u4
  with_reducible exact Keeps.ite (authFailure_keeps h) (Keeps.ite (replayed_keeps h) (Keeps.ite (respond_keeps h3) (request_keeps h3)))

theorem receiveBroadcast_keeps {q s} {x0 x1} (h : Keeps q s) : Keeps q (receiveBroadcast x0 x1 s) := by
  unfold receiveBroadcast
  split
  · with_reducible exact malformed_keeps h
  · with_reducible exact Keeps.ite (malformed_keeps h) (takeBroadcast_keeps h)

theorem floodLinob_keeps {q s} {x0 x1 x2 x3 x4} (h : Keeps q s) : Keeps q (floodLinob x0 x1 x2 x3 x4 s) := by
  unfold floodLinob
  with_reducible exact Keeps.foldl h (fun s x h => queueBh_keeps h)

theorem arrivesWith_keeps {q s} {x0 x1} (h : Keeps q s) : Keeps q (arrivesWith x0 x1 s) := by
  induction x1 generalizing x0 with
  | mailbox => exact mailboxRequest_keeps h
  | mgmt => exact Keeps.ite (receiveLinob_keeps h) h
  | cascade => exact Keeps.ite (Keeps.ite (receiveLinob_keeps (bump_keeps h)) (bump_keeps h)) h
  | broadcast =>
    exact Keeps.ite (Keeps.ite (receiveBroadcast_keeps (floodLinob_keeps (bump_keeps h))) (floodLinob_keeps (bump_keeps h))) h
  | firmware => exact Keeps.ite (request_keeps h) h
  | faulted _ ih => exact ih

theorem arrives_keeps {q s} {x0} (h : Keeps q s) : Keeps q (arrives x0 s) := by
  unfold arrives
  with_reducible exact arrivesWith_keeps h

theorem execRead_keeps {q s} {x0} (h : Keeps q s) : Answers (Keeps q) (execRead x0 s) := by
  dsimp only [execRead]
  with_reducible exact Keeps.answers_ite (Keeps.answers (arrives_keeps h)) (Keeps.answers h)

theorem execWrite_keeps {q s} {x0} (h : Keeps q s) : Answers (Keeps q) (execWrite x0 s) := by
  dsimp only [execWrite]
  with_reducible exact Keeps.answers_ite (Keeps.answers (arrives_keeps h)) (Keeps.answers h)

theorem execReadBlock_keeps {q s} {x0} (h : Keeps q s) : Answers (Keeps q) (execReadBlock x0 s) := by
  dsimp only [execReadBlock]
  with_reducible exact Keeps.answers_ite (Keeps.answers (arrives_keeps h)) (Keeps.answers h)

theorem execWriteBlock_keeps {q s} {x0} (h : Keeps q s) : Answers (Keeps q) (execWriteBlock x0 s) := by
  dsimp only [execWriteBlock]
  with_reducible exact Keeps.answers_ite (Keeps.answers (arrives_keeps h)) (Keeps.answers h)

theorem execSubscribe_keeps {q s} {x0} (h : Keeps q s) : Answers (Keeps q) (execSubscribe x0 s) := by
  dsimp only [execSubscribe]
  with_reducible exact Keeps.answers_ite (Keeps.answers (arrives_keeps h)) (Keeps.answers h)

theorem execSessionOpen_keeps {q s} {x0} (h : Keeps q s) : Answers (Keeps q) (execSessionOpen x0 s) := by
  dsimp only [execSessionOpen]
  with_reducible exact Keeps.answers_ite (Keeps.answers (arrives_keeps h)) (Keeps.answers h)

theorem execSessionProof_keeps {q s} {x0} (h : Keeps q s) : Answers (Keeps q) (execSessionProof x0 s) := by
  dsimp only [execSessionProof]
  with_reducible exact Keeps.answers_ite (Keeps.answers (arrives_keeps h)) (Keeps.answers h)

theorem execPitch_keeps {q s} {x0} (h : Keeps q s) : Answers (Keeps q) (execPitch x0 s) := by
  dsimp only [execPitch]
  with_reducible exact Keeps.answers_ite (Keeps.answers (arrives_keeps h)) (Keeps.answers h)

theorem execAbort_keeps {q s} {x0} (h : Keeps q s) : Answers (Keeps q) (execAbort x0 s) := by
  dsimp only [execAbort]
  with_reducible exact Keeps.answers_ite (Keeps.answers (arrives_keeps h)) (Keeps.answers h)

theorem sendNotify_keeps {q s} {x0 x1 x2} (h : Keeps q s) : Keeps q (sendNotify x0 x1 x2 s) := by
  dsimp only [sendNotify]
  split
  · with_reducible exact sendLinob_keeps (mapSession_keeps h)
  · with_reducible exact h

theorem execNotify_keeps {q s} {x0} (h : Keeps q s) : Answers (Keeps q) (execNotify x0 s) := by
  dsimp only [execNotify]
  split
  · with_reducible exact Keeps.answers h
  · with_reducible refine Keeps.answers_ite ?_ ?_
    · with_reducible exact Keeps.answers h
    · split
      · with_reducible exact Keeps.answers (sendNotify_keeps (Keeps.mk h))
      · with_reducible exact Keeps.answers (Keeps.mk h)

theorem execMailboxOverrun_keeps {q s} {x0 x1} (h : Keeps q s) : Answers (Keeps q) (execMailboxOverrun x0 x1 s) := by
  unfold execMailboxOverrun
  with_reducible refine Keeps.answers ?_
  with_reducible exact bar0Write_keeps (fun s h => Keeps.ite (bump_keeps h) h) h

theorem forwardOut_keeps {q s} {x0 x1 x2} (h : Keeps q s) : Keeps q (forwardOut x0 x1 x2 s) := by
  dsimp only [forwardOut]
  split
  · with_reducible exact h
  · with_reducible exact sendCascade_keeps (Keeps.mk h)

theorem execLinobForward_keeps {q s} {x0 x1 x2} (h : Keeps q s) : Answers (Keeps q) (execLinobForward x0 x1 x2 s) := by
  dsimp only [execLinobForward]
  split
  · with_reducible exact Keeps.answers_ite (Keeps.answers h) (Keeps.answers_ite (Keeps.answers (Keeps.mk h)) (Keeps.answers (forwardOut_keeps h)))
  · with_reducible refine Keeps.answers_ite ?_ ?_
    · with_reducible exact Keeps.answers h
    · with_reducible refine Keeps.answers_ite ?_ ?_
      · with_reducible exact Keeps.answers (Keeps.mk (bump_keeps h))
      · with_reducible refine Keeps.answers_ite ?_ ?_
        · split
          · with_reducible exact Keeps.answers (sendLinob_keeps (bump_keeps h))
          · with_reducible exact Keeps.answers (bump_keeps h)
        · split
          · with_reducible exact Keeps.answers (bump_keeps h)
          · with_reducible exact Keeps.answers_ite (Keeps.answers (bump_keeps h)) (Keeps.answers (queueBh_keeps (bump_keeps h)))

theorem execBlockTransferTimeout_keeps {q s} {x0 x1} (h : Keeps q s) : Answers (Keeps q) (execBlockTransferTimeout x0 x1 s) := by
  dsimp only [execBlockTransferTimeout]
  with_reducible exact Keeps.answers (dropTransfer_keeps h)

theorem execHalfOpenTimeout_keeps {q s} {x0} (h : Keeps q s) : Answers (Keeps q) (execHalfOpenTimeout x0 s) := by
  dsimp only [execHalfOpenTimeout]
  with_reducible exact Keeps.answers (closeSessions_keeps h)

theorem execSessionTimeout_keeps {q s} {x0} (h : Keeps q s) : Answers (Keeps q) (execSessionTimeout x0 s) := by
  dsimp only [execSessionTimeout]
  with_reducible exact Keeps.answers (closeSessions_keeps h)

theorem execArmingEnd_keeps {q s} (h : Keeps q s) : Answers (Keeps q) (execArmingEnd s) := by
  dsimp only [execArmingEnd]
  split
  · with_reducible exact Keeps.answers h
  · with_reducible exact Keeps.answers_ite (Keeps.answers h) (Keeps.answers (respond_keeps (armPitch_keeps h)))

theorem storeItem_keeps {q s} {x0} (h : Keeps q s) : Keeps q (storeItem x0 s) := by
  unfold storeItem
  lift_lets
  intro u1 u2 u3
  clear_value u2
  have h3 : Keeps q u3 := Keeps.mk h
  clear_value u3
  split
  · with_reducible exact writebackDone_keeps h3
  · with_reducible exact h3

theorem storeFails_keeps {q s} (h : Keeps q s) : Keeps q (storeFails s) := by
  dsimp only [storeFails]
  with_reducible exact setSticky_keeps (logUntracked_keeps (fire_keeps (setSticky_keeps h)))

theorem execPersistStore_keeps {q s} {x0} (h : Keeps q s) : Answers (Keeps q) (execPersistStore x0 s) := by
  unfold execPersistStore
  split
  · with_reducible refine Keeps.answers ?_
    with_reducible exact h
  · lift_lets
    intro u1 u2
    have h2 : Keeps q u2 := Keeps.mk h
    clear_value u2
    intro u3
    have h3 : Keeps q u3 := Keeps.ite (storeItem_keeps h2) (storeFails_keeps h2)
    clear_value u3
    with_reducible refine Keeps.answers ?_
    with_reducible exact settleWarm_keeps (settleShutdown_keeps h3)

theorem sendMgmt_keeps {q s} {x0 x1 x2} (h : Keeps q s) : Keeps q (sendMgmt x0 x1 x2 s) := by
  dsimp only [sendMgmt]
  with_reducible exact emit_keeps h

theorem execManagementPortFrame_keeps {q s} {x0} (h : Keeps q s) : Answers (Keeps q) (execManagementPortFrame x0 s) := by
  dsimp only [execManagementPortFrame]
  with_reducible refine Keeps.answers_ite ?_ ?_
  · with_reducible exact Keeps.answers h
  · split
    · with_reducible exact Keeps.answers (sendMgmt_keeps h)
    · with_reducible exact Keeps.answers (Keeps.mk h)

end Sys2Proof.Machine
end

