-- ==== Sys2Proof/Laws/KeepsBoot.lean ====
section
/-! SUPPORT. What Boot.lean defines keeps soundness and the queue. -/

namespace Sys2Proof.Machine

open Sys2Proof

theorem restorePc_keeps {q s} {x0} (h : Keeps q s) : Keeps q (restorePc x0 s) := by
  dsimp only [restorePc]
  with_reducible exact Keeps.ite (assignSpare_keeps (putObj_keeps (putObj_keeps (putObj_keeps h)))) (Keeps.ite (putObj_keeps (putObj_keeps (putObj_keeps (putObj_keeps h)))) (putObj_keeps (putObj_keeps (putObj_keeps h))))

theorem restoreList_keeps {q s} (h : Keeps q s) : Keeps q (restoreList s) := by
  dsimp only [restoreList]
  exact Keeps.ite (Keeps.foldl (putObj_keeps (Keeps.mk_lists h (List.length_take_le _ _) h.log)) (fun s x h => restorePc_keeps h)) h

theorem restoreOther_keeps {q s} (h : Keeps q s) : Keeps q (restoreOther s) := by
  unfold restoreOther
  with_reducible exact Keeps.ite h (Keeps.foldl h (fun s x h => Keeps.ite (putLane_keeps h) (Keeps.ite (putObj_keeps h) h)))

theorem trainPc_keeps {q s} {x0} (h : Keeps q s) : Keeps q (trainPc x0 s) := by
  dsimp only [trainPc]
  with_reducible exact Keeps.ite h (putObj_keeps h)

theorem failTraining_keeps {q s} {x0 x1} (h : Keeps q s) : Keeps q (failTraining x0 x1 s) := by
  dsimp only [failTraining]
  with_reducible exact Keeps.foldl h (fun s x h => pcFault_keeps h)

theorem trainAll_keeps {q s} {x0 x1} (h : Keeps q s) : Keeps q (trainAll x0 x1 s) := by
  dsimp only [trainAll]
  with_reducible exact failTraining_keeps (Keeps.foldl (Keeps.mk h) (fun s x h => trainPc_keeps h))

theorem execHbmTraining_keeps {q s} {x0 x1} (h : Keeps q s) : Answers (Keeps q) (execHbmTraining x0 x1 s) := by
  dsimp only [execHbmTraining]
  with_reducible exact Keeps.answers_ite (Keeps.answers (settleCauses_keeps (Keeps.mk (Keeps.ite (trainAll_keeps (restoreList_keeps (hbmLost_keeps h))) (trainAll_keeps h))))) (Keeps.answers_ite (Keeps.answers (settleCauses_keeps (trainAll_keeps h))) (Keeps.answers h))

theorem takeDefaults_keeps {q s} (h : Keeps q s) : Keeps q (takeDefaults s) := by
  exact Keeps.mk_tabs h (tabSorted_filter h.objs) (tabSorted_filter h.blobs) h.mem

theorem clearConfigured_keeps {q s} (h : Keeps q s) : Keeps q (clearConfigured s) := by
  unfold clearConfigured
  lift_lets
  intro u1 u2 u3 u4
  with_reducible exact Keeps.mk_fab h

theorem applyStored_keeps {q s} {x0 x1} (h : Keeps q s) : Keeps q (applyStored x0 x1 s) := by
  unfold applyStored
  lift_lets
  intro u1 u2
  clear_value u1 u2
  split
  · with_reducible exact putBlob_keeps h
  · with_reducible exact Keeps.ite (loadProfile_keeps (putObj_keeps h)) (Keeps.ite (ptpRestart_keeps (putObj_keeps h)) (Keeps.ite (Keeps.ite (setSource_keeps (putObj_keeps h)) (putObj_keeps h)) (Keeps.ite (Keeps.ite (putObj_keeps (putObj_keeps h)) h) (putObj_keeps h))))

theorem applyPersistent_keeps {q s} (h : Keeps q s) : Keeps q (applyPersistent s) := by
  dsimp only [applyPersistent]
  split
  · with_reducible exact setSource_keeps (Keeps.foldl h (fun s x h => applyStored_keeps h))
  · with_reducible exact Keeps.foldl h (fun s x h => applyStored_keeps h)

theorem bootDictionary_keeps {q s} (h : Keeps q s) : Keeps q (bootDictionary s) := by
  unfold bootDictionary
  lift_lets
  intro u1 u2
  clear_value u1
  have h2 : Keeps q u2 := clearConfigured_keeps (takeDefaults_keeps h)
  clear_value u2
  intro u3
  have h3 : Keeps q u3 := applyPersistent_keeps h2
  clear_value u3
  intro u4
  have h4 : Keeps q u4 := restoreOther_keeps h3
  clear_value u4
  intro u5
  have h5 : Keeps q u5 := Keeps.foldl h4 (fun s x h => Keeps.ite h (encDisabled_keeps h))
  clear_value u5
  intro u6 u7
  with_reducible exact Keeps.mk h5

theorem bootPitch_keeps {q s} (h : Keeps q s) : Keeps q (bootPitch s) := by
  dsimp only [bootPitch]
  with_reducible exact Keeps.ite h (schedulePitch_keeps h)

theorem bootPin_keeps {q s} {x0} (h : Keeps q s) : Keeps q (bootPin x0 s) := by
  dsimp only [bootPin]
  with_reducible exact Keeps.ite (emit_keeps (Keeps.mk_fab h)) (Keeps.mk_fab h)

theorem bootPins_keeps {q s} (h : Keeps q s) : Keeps q (bootPins s) := by
  dsimp only [bootPins]
  with_reducible exact Keeps.ite (emit_keeps (Keeps.foldl h (fun s x h => bootPin_keeps h))) (Keeps.foldl h (fun s x h => bootPin_keeps h))

theorem bootEnds_keeps {q s} (h : Keeps q s) : Keeps q (bootEnds s) := by
  dsimp only [bootEnds]
  with_reducible exact Keeps.ite (Keeps.ite (haltBy_keeps (Keeps.ite (setSticky_keeps h) h)) (bootPins_keeps (bootPitch_keeps (enterLimp_keeps (Keeps.ite (setSticky_keeps h) h))))) (bootPins_keeps (bootPitch_keeps (settleMode_keeps (enterEffects_keeps (Keeps.ite (setSticky_keeps h) h)))))

theorem execBootComplete_keeps {q s} {x0} (h : Keeps q s) : Answers (Keeps q) (execBootComplete x0 s) := by
  dsimp only [execBootComplete]
  with_reducible exact Keeps.answers_ite (Keeps.answers (bootEnds_keeps (Keeps.mk (putObj_keeps (putObj_keeps (bootDictionary_keeps h)))))) (Keeps.answers h)

end Sys2Proof.Machine
end

