-- ==== Sys2Proof/Laws/KeepsTicks.lean ====
section
/-! SUPPORT. What Ticks.lean defines keeps soundness and the queue. -/

namespace Sys2Proof.Machine

open Sys2Proof

theorem tick_keeps {q s} (h : Keeps q s) : Keeps q (tick s) := by
  unfold tick
  with_reducible exact lampRetries_keeps (showReleases_keeps (kilnTick_keeps h))

theorem execKilnTick_keeps {q s} (h : Keeps q s) : Answers (Keeps q) (execKilnTick s) := by
  unfold execKilnTick
  with_reducible refine Keeps.answers_ite ?_ ?_
  · with_reducible refine Keeps.answers ?_
    with_reducible exact h
  · with_reducible refine Keeps.answers ?_
    with_reducible exact tick_keeps h

theorem execStepApply_keeps {q s} (h : Keeps q s) : Answers (Keeps q) (execStepApply s) := by
  unfold execStepApply
  with_reducible refine Keeps.answers_ite ?_ ?_
  · with_reducible refine Keeps.answers ?_
    with_reducible exact h
  · with_reducible refine Keeps.answers ?_
    with_reducible exact tick_keeps h

end Sys2Proof.Machine
end

