-- ==== Sys2Proof/Laws/KeepsWrites.lean ====
section
/-! SUPPORT. What Writes.lean defines keeps soundness and the queue. -/

namespace Sys2Proof.Machine

open Sys2Proof

theorem viaBytes_keeps {q s} {x0 x1 x2 x3 x4} (h : Keeps q s) : Keeps q (viaBytes x0 x1 x2 x3 x4 s) := by
  dsimp only [viaBytes]
  split
  · with_reducible exact Keeps.ite (request_keeps h) h
  · with_reducible exact mailboxRequest_keeps h
  · with_reducible refine Keeps.ite ?_ ?_
    · with_reducible exact h
    · split
      · with_reducible exact authFailure_keeps h
      · with_reducible exact receiveSession_keeps h
  · with_reducible exact Keeps.ite h (takeBroadcast_keeps h)

theorem viaWrite_keeps {q s} {x0 x1 x2 x3 x4} (h : Keeps q s) : Keeps q (viaWrite x0 x1 x2 x3 x4 s) := by
  dsimp only [viaWrite]
  with_reducible exact viaBytes_keeps h

theorem viaNum_keeps {q s} {x0 x1 x2 x3} (h : Keeps q s) : Keeps q (viaNum x0 x1 x2 x3 s) := by
  dsimp only [viaNum]
  with_reducible exact viaWrite_keeps h

theorem viaImage_keeps {q s} {x0 x1 x2 x3} (h : Keeps q s) : Keeps q (viaImage x0 x1 x2 x3 s) := by
  dsimp only [viaImage]
  split
  · with_reducible exact h
  · with_reducible refine request_keeps ?_
    split
    · with_reducible exact mapSession_keeps h
    · with_reducible exact h

theorem execWarmReset_keeps {q s} {x0 x1} (h : Keeps q s) : Answers (Keeps q) (execWarmReset x0 x1 s) := by
  dsimp only [execWarmReset]
  with_reducible exact Keeps.answers (viaNum_keeps h)

theorem execFwImageWrite_keeps {q s} {x0 x1} (h : Keeps q s) : Answers (Keeps q) (execFwImageWrite x0 x1 s) := by
  dsimp only [execFwImageWrite]
  with_reducible exact Keeps.answers_ite (Keeps.answers (viaWrite_keeps h)) (Keeps.answers (viaImage_keeps h))

theorem execFwCommit_keeps {q s} {x0 x1} (h : Keeps q s) : Answers (Keeps q) (execFwCommit x0 x1 s) := by
  dsimp only [execFwCommit]
  with_reducible exact Keeps.answers (viaNum_keeps h)

theorem execModeRequest_keeps {q s} {x0 x1} (h : Keeps q s) : Answers (Keeps q) (execModeRequest x0 x1 s) := by
  dsimp only [execModeRequest]
  with_reducible exact Keeps.answers (viaNum_keeps h)

theorem execShutdown_keeps {q s} {x0 x1} (h : Keeps q s) : Answers (Keeps q) (execShutdown x0 x1 s) := by
  dsimp only [execShutdown]
  with_reducible exact Keeps.answers (viaNum_keeps h)

theorem execWakeAtWrite_keeps {q s} {x0 x1} (h : Keeps q s) : Answers (Keeps q) (execWakeAtWrite x0 x1 s) := by
  dsimp only [execWakeAtWrite]
  with_reducible exact Keeps.answers (viaNum_keeps h)

theorem execPersistClear_keeps {q s} {x0 x1} (h : Keeps q s) : Answers (Keeps q) (execPersistClear x0 x1 s) := by
  dsimp only [execPersistClear]
  with_reducible exact Keeps.answers (viaNum_keeps h)

theorem execPlansSeal_keeps {q s} {x0 x1 x2} (h : Keeps q s) : Answers (Keeps q) (execPlansSeal x0 x1 x2 s) := by
  dsimp only [execPlansSeal]
  with_reducible exact Keeps.answers (viaNum_keeps h)

theorem execPlansClear_keeps {q s} {x0 x1 x2} (h : Keeps q s) : Answers (Keeps q) (execPlansClear x0 x1 x2 s) := by
  dsimp only [execPlansClear]
  with_reducible exact Keeps.answers (viaNum_keeps h)

theorem execPlansSave_keeps {q s} {x0 x1 x2} (h : Keeps q s) : Answers (Keeps q) (execPlansSave x0 x1 x2 s) := by
  dsimp only [execPlansSave]
  with_reducible exact Keeps.answers (viaNum_keeps h)

theorem execObjectWrite_keeps {q s} {x0 x1 x2 x3} (h : Keeps q s) : Answers (Keeps q) (execObjectWrite x0 x1 x2 x3 s) := by
  dsimp only [execObjectWrite]
  with_reducible exact Keeps.answers (viaBytes_keeps h)

theorem execTimeIncrementWrite_keeps {q s} {x0 x1} (h : Keeps q s) : Answers (Keeps q) (execTimeIncrementWrite x0 x1 s) := by
  dsimp only [execTimeIncrementWrite]
  with_reducible exact Keeps.answers (viaNum_keeps h)

theorem execTimeStep_keeps {q s} {x0 x1} (h : Keeps q s) : Answers (Keeps q) (execTimeStep x0 x1 s) := by
  dsimp only [execTimeStep]
  with_reducible exact Keeps.answers (viaNum_keeps h)

theorem execTimeSet_keeps {q s} {x0 x1} (h : Keeps q s) : Answers (Keeps q) (execTimeSet x0 x1 s) := by
  dsimp only [execTimeSet]
  with_reducible exact Keeps.answers (viaNum_keeps h)

theorem execBhUpstreamWrite_keeps {q s} {x0 x1} (h : Keeps q s) : Answers (Keeps q) (execBhUpstreamWrite x0 x1 s) := by
  dsimp only [execBhUpstreamWrite]
  with_reducible exact Keeps.answers (viaNum_keeps h)

theorem execCmpModeWrite_keeps {q s} {x0 x1 x2} (h : Keeps q s) : Answers (Keeps q) (execCmpModeWrite x0 x1 x2 s) := by
  dsimp only [execCmpModeWrite]
  with_reducible exact Keeps.answers (viaNum_keeps h)

theorem execCmpTargetWrite_keeps {q s} {x0 x1 x2} (h : Keeps q s) : Answers (Keeps q) (execCmpTargetWrite x0 x1 x2 s) := by
  dsimp only [execCmpTargetWrite]
  split
  · with_reducible exact Keeps.answers (viaNum_keeps h)
  · with_reducible exact Keeps.answers (viaNum_keeps h)

theorem execSnapshotAtWrite_keeps {q s} {x0 x1} (h : Keeps q s) : Answers (Keeps q) (execSnapshotAtWrite x0 x1 s) := by
  dsimp only [execSnapshotAtWrite]
  with_reducible exact Keeps.answers (viaNum_keeps h)

theorem execSnapshotNow_keeps {q s} {x0 x1} (h : Keeps q s) : Answers (Keeps q) (execSnapshotNow x0 x1 s) := by
  dsimp only [execSnapshotNow]
  with_reducible exact Keeps.answers (viaNum_keeps h)

theorem execFire_keeps {q s} {x0} (h : Keeps q s) : Answers (Keeps q) (execFire x0 s) := by
  unfold execFire
  split
  · with_reducible refine Keeps.answers ?_
    with_reducible exact bar0Write_keeps (fun s h => bar0Fire_keeps h) h
  · with_reducible refine Keeps.answers ?_
    with_reducible exact viaNum_keeps h

theorem execFireMask_keeps {q s} {x0} (h : Keeps q s) : Answers (Keeps q) (execFireMask x0 s) := by
  unfold execFireMask
  split
  · with_reducible refine Keeps.answers ?_
    with_reducible exact bar0Write_keeps (fun s h => bar0FireAll_keeps h) h
  · with_reducible refine Keeps.answers ?_
    with_reducible exact viaNum_keeps h

theorem execGristWrite_keeps {q s} {x0 x1 x2 x3} (h : Keeps q s) : Answers (Keeps q) (execGristWrite x0 x1 x2 x3 s) := by
  dsimp only [execGristWrite]
  with_reducible exact Keeps.answers (viaNum_keeps h)

theorem execQuadModeWrite_keeps {q s} {x0 x1 x2} (h : Keeps q s) : Answers (Keeps q) (execQuadModeWrite x0 x1 x2 s) := by
  dsimp only [execQuadModeWrite]
  with_reducible exact Keeps.answers (viaNum_keeps h)

theorem viaLane_keeps {q s} {x0 x1 x2 x3} (h : Keeps q s) : Keeps q (viaLane x0 x1 x2 x3 s) := by
  dsimp only [viaLane]
  with_reducible exact viaNum_keeps h

theorem execLaneConfigWrite_keeps {q s} {x0 x1 x2 x3} (h : Keeps q s) : Answers (Keeps q) (execLaneConfigWrite x0 x1 x2 x3 s) := by
  dsimp only [execLaneConfigWrite]
  with_reducible exact Keeps.answers (viaLane_keeps h)

theorem execLaneReinstate_keeps {q s} {x0 x1 x2} (h : Keeps q s) : Answers (Keeps q) (execLaneReinstate x0 x1 x2 s) := by
  dsimp only [execLaneReinstate]
  with_reducible exact Keeps.answers (viaLane_keeps h)

theorem execPrbsInject_keeps {q s} {x0 x1 x2} (h : Keeps q s) : Answers (Keeps q) (execPrbsInject x0 x1 x2 s) := by
  dsimp only [execPrbsInject]
  with_reducible exact Keeps.answers (viaLane_keeps h)

theorem execPrbsClear_keeps {q s} {x0 x1 x2} (h : Keeps q s) : Answers (Keeps q) (execPrbsClear x0 x1 x2 s) := by
  dsimp only [execPrbsClear]
  with_reducible exact Keeps.answers (viaLane_keeps h)

theorem execPortReinstate_keeps {q s} {x0 x1 x2} (h : Keeps q s) : Answers (Keeps q) (execPortReinstate x0 x1 x2 s) := by
  dsimp only [execPortReinstate]
  with_reducible exact Keeps.answers (viaNum_keeps h)

theorem execRawFrame_keeps {q s} {x0 x1 x2} (h : Keeps q s) : Answers (Keeps q) (execRawFrame x0 x1 x2 s) := by
  dsimp only [execRawFrame]
  with_reducible exact Keeps.answers_ite (Keeps.answers (viaWrite_keeps h)) (Keeps.answers (viaImage_keeps h))

theorem execUnderbackFlush_keeps {q s} {x0 x1 x2} (h : Keeps q s) : Answers (Keeps q) (execUnderbackFlush x0 x1 x2 s) := by
  dsimp only [execUnderbackFlush]
  with_reducible exact Keeps.answers (viaNum_keeps h)

theorem execStampClear_keeps {q s} {x0 x1 x2} (h : Keeps q s) : Answers (Keeps q) (execStampClear x0 x1 x2 s) := by
  dsimp only [execStampClear]
  with_reducible exact Keeps.answers (viaNum_keeps h)

theorem execCellarReinstate_keeps {q s} {x0 x1 x2 x3} (h : Keeps q s) : Answers (Keeps q) (execCellarReinstate x0 x1 x2 x3 s) := by
  dsimp only [execCellarReinstate]
  with_reducible exact Keeps.answers (viaWrite_keeps h)

theorem execCellarTestStart_keeps {q s} {x0 x1} (h : Keeps q s) : Answers (Keeps q) (execCellarTestStart x0 x1 s) := by
  dsimp only [execCellarTestStart]
  with_reducible exact Keeps.answers (viaNum_keeps h)

theorem execRingEnable_keeps {q s} {x0 x1} (h : Keeps q s) : Answers (Keeps q) (execRingEnable x0 x1 s) := by
  dsimp only [execRingEnable]
  with_reducible exact Keeps.answers (viaNum_keeps h)

theorem execRingDisable_keeps {q s} {x0 x1} (h : Keeps q s) : Answers (Keeps q) (execRingDisable x0 x1 s) := by
  dsimp only [execRingDisable]
  with_reducible exact Keeps.answers (viaNum_keeps h)

theorem execCqEnable_keeps {q s} {x0 x1 x2} (h : Keeps q s) : Answers (Keeps q) (execCqEnable x0 x1 x2 s) := by
  dsimp only [execCqEnable]
  with_reducible exact Keeps.answers (viaNum_keeps h)

theorem execExcEnable_keeps {q s} {x0 x1} (h : Keeps q s) : Answers (Keeps q) (execExcEnable x0 x1 s) := by
  dsimp only [execExcEnable]
  with_reducible exact Keeps.answers (viaNum_keeps h)

theorem execRackingResume_keeps {q s} {x0 x1} (h : Keeps q s) : Answers (Keeps q) (execRackingResume x0 x1 s) := by
  dsimp only [execRackingResume]
  with_reducible exact Keeps.answers (viaNum_keeps h)

theorem execTapHostEnable_keeps {q s} {x0 x1 x2} (h : Keeps q s) : Answers (Keeps q) (execTapHostEnable x0 x1 x2 s) := by
  dsimp only [execTapHostEnable]
  with_reducible exact Keeps.answers (viaNum_keeps h)

theorem execPatternSelftest_keeps {q s} {x0 x1} (h : Keeps q s) : Answers (Keeps q) (execPatternSelftest x0 x1 s) := by
  dsimp only [execPatternSelftest]
  with_reducible exact Keeps.answers (viaNum_keeps h)

theorem execHydroSelftest_keeps {q s} {x0 x1} (h : Keeps q s) : Answers (Keeps q) (execHydroSelftest x0 x1 s) := by
  dsimp only [execHydroSelftest]
  with_reducible exact Keeps.answers (viaNum_keeps h)

theorem execPositionWrite_keeps {q s} {x0 x1 x2} (h : Keeps q s) : Answers (Keeps q) (execPositionWrite x0 x1 x2 s) := by
  dsimp only [execPositionWrite]
  with_reducible exact Keeps.answers (viaNum_keeps h)

theorem execQueryAt_keeps {q s} {x0 x1 x2} (h : Keeps q s) : Answers (Keeps q) (execQueryAt x0 x1 x2 s) := by
  dsimp only [execQueryAt]
  with_reducible exact Keeps.answers (viaNum_keeps h)

theorem execCmpArm_keeps {q s} {x0 x1 x2} (h : Keeps q s) : Answers (Keeps q) (execCmpArm x0 x1 x2 s) := by
  dsimp only [execCmpArm]
  with_reducible exact Keeps.answers (viaNum_keeps h)

theorem execPosCmpTargetWrite_keeps {q s} {x0 x1 x2 x3} (h : Keeps q s) : Answers (Keeps q) (execPosCmpTargetWrite x0 x1 x2 x3 s) := by
  dsimp only [execPosCmpTargetWrite]
  with_reducible exact Keeps.answers (viaNum_keeps h)

theorem execPosReinstate_keeps {q s} {x0 x1 x2} (h : Keeps q s) : Answers (Keeps q) (execPosReinstate x0 x1 x2 s) := by
  dsimp only [execPosReinstate]
  with_reducible exact Keeps.answers (viaNum_keeps h)

theorem execLifeOverride_keeps {q s} {x0 x1 x2} (h : Keeps q s) : Answers (Keeps q) (execLifeOverride x0 x1 x2 s) := by
  dsimp only [execLifeOverride]
  with_reducible exact Keeps.answers (viaNum_keeps h)

theorem execLampReinstate_keeps {q s} {x0 x1 x2} (h : Keeps q s) : Answers (Keeps q) (execLampReinstate x0 x1 x2 s) := by
  dsimp only [execLampReinstate]
  with_reducible exact Keeps.answers (viaNum_keeps h)

theorem execHeadUserWrite_keeps {q s} {x0 x1 x2} (h : Keeps q s) : Answers (Keeps q) (execHeadUserWrite x0 x1 x2 s) := by
  dsimp only [execHeadUserWrite]
  with_reducible exact Keeps.answers (viaWrite_keeps h)

theorem execFaultsReinstate_keeps {q s} {x0 x1 x2} (h : Keeps q s) : Answers (Keeps q) (execFaultsReinstate x0 x1 x2 s) := by
  dsimp only [execFaultsReinstate]
  with_reducible exact Keeps.answers (viaWrite_keeps h)

theorem execListClear_keeps {q s} {x0 x1 x2} (h : Keeps q s) : Answers (Keeps q) (execListClear x0 x1 x2 s) := by
  dsimp only [execListClear]
  with_reducible exact Keeps.answers (viaWrite_keeps h)

theorem execWinAttrWrite_keeps {q s} {x0 x1 x2} (h : Keeps q s) : Answers (Keeps q) (execWinAttrWrite x0 x1 x2 s) := by
  dsimp only [execWinAttrWrite]
  with_reducible exact Keeps.answers (viaNum_keeps h)

end Sys2Proof.Machine
end

