-- ==== Sys2Proof/Laws/State.lean ====
section
/-! SUPPORT. What each shared operation leaves of State: one lemma per field, for the operations that are one update of the record. -/

namespace Sys2Proof.Machine

open Sys2Proof


/-! emit -/

@[simp] theorem emit_modes (e : Emission) (s : State) : (emit e s).modes = s.modes := rfl
@[simp] theorem emit_fresh (e : Emission) (s : State) : (emit e s).fresh = s.fresh := rfl
@[simp] theorem emit_dict (e : Emission) (s : State) : (emit e s).dict = s.dict := rfl
@[simp] theorem emit_time (e : Emission) (s : State) : (emit e s).time = s.time := rfl
@[simp] theorem emit_fab (e : Emission) (s : State) : (emit e s).fab = s.fab := rfl
@[simp] theorem emit_lp (e : Emission) (s : State) : (emit e s).lp = s.lp := rfl
@[simp] theorem emit_lau (e : Emission) (s : State) : (emit e s).lau = s.lau := rfl
@[simp] theorem emit_pos (e : Emission) (s : State) : (emit e s).pos = s.pos := rfl
@[simp] theorem emit_cel (e : Emission) (s : State) : (emit e s).cel = s.cel := rfl
@[simp] theorem emit_hyd (e : Emission) (s : State) : (emit e s).hyd = s.hyd := rfl
@[simp] theorem emit_tap (e : Emission) (s : State) : (emit e s).tap = s.tap := rfl
@[simp] theorem emit_lamp (e : Emission) (s : State) : (emit e s).lamp = s.lamp := rfl
@[simp] theorem emit_rk (e : Emission) (s : State) : (emit e s).rk = s.rk := rfl
@[simp] theorem emit_link (e : Emission) (s : State) : (emit e s).link = s.link := rfl
@[simp] theorem emit_flt (e : Emission) (s : State) : (emit e s).flt = s.flt := rfl
@[simp] theorem emit_objs (e : Emission) (s : State) : (emit e s).objs = s.objs := rfl
@[simp] theorem emit_blobs (e : Emission) (s : State) : (emit e s).blobs = s.blobs := rfl
@[simp] theorem emit_mem (e : Emission) (s : State) : (emit e s).mem = s.mem := rfl
@[simp] theorem emit_free (e : Emission) (s : State) : (emit e s).free = s.free := rfl
@[simp] theorem emit_pending (e : Emission) (s : State) : (emit e s).pending = s.pending := rfl

/-! emitAll -/

@[simp] theorem emitAll_modes (es : List Emission) (s : State) : (emitAll es s).modes = s.modes := rfl
@[simp] theorem emitAll_fresh (es : List Emission) (s : State) : (emitAll es s).fresh = s.fresh := rfl
@[simp] theorem emitAll_dict (es : List Emission) (s : State) : (emitAll es s).dict = s.dict := rfl
@[simp] theorem emitAll_time (es : List Emission) (s : State) : (emitAll es s).time = s.time := rfl
@[simp] theorem emitAll_fab (es : List Emission) (s : State) : (emitAll es s).fab = s.fab := rfl
@[simp] theorem emitAll_lp (es : List Emission) (s : State) : (emitAll es s).lp = s.lp := rfl
@[simp] theorem emitAll_lau (es : List Emission) (s : State) : (emitAll es s).lau = s.lau := rfl
@[simp] theorem emitAll_pos (es : List Emission) (s : State) : (emitAll es s).pos = s.pos := rfl
@[simp] theorem emitAll_cel (es : List Emission) (s : State) : (emitAll es s).cel = s.cel := rfl
@[simp] theorem emitAll_hyd (es : List Emission) (s : State) : (emitAll es s).hyd = s.hyd := rfl
@[simp] theorem emitAll_tap (es : List Emission) (s : State) : (emitAll es s).tap = s.tap := rfl
@[simp] theorem emitAll_lamp (es : List Emission) (s : State) : (emitAll es s).lamp = s.lamp := rfl
@[simp] theorem emitAll_rk (es : List Emission) (s : State) : (emitAll es s).rk = s.rk := rfl
@[simp] theorem emitAll_link (es : List Emission) (s : State) : (emitAll es s).link = s.link := rfl
@[simp] theorem emitAll_flt (es : List Emission) (s : State) : (emitAll es s).flt = s.flt := rfl
@[simp] theorem emitAll_objs (es : List Emission) (s : State) : (emitAll es s).objs = s.objs := rfl
@[simp] theorem emitAll_blobs (es : List Emission) (s : State) : (emitAll es s).blobs = s.blobs := rfl
@[simp] theorem emitAll_mem (es : List Emission) (s : State) : (emitAll es s).mem = s.mem := rfl
@[simp] theorem emitAll_free (es : List Emission) (s : State) : (emitAll es s).free = s.free := rfl
@[simp] theorem emitAll_pending (es : List Emission) (s : State) : (emitAll es s).pending = s.pending := rfl

/-! putObj -/

@[simp] theorem putObj_modes (id idx v : Nat) (s : State) : (putObj id idx v s).modes = s.modes := rfl
@[simp] theorem putObj_fresh (id idx v : Nat) (s : State) : (putObj id idx v s).fresh = s.fresh := rfl
@[simp] theorem putObj_dict (id idx v : Nat) (s : State) : (putObj id idx v s).dict = s.dict := rfl
@[simp] theorem putObj_time (id idx v : Nat) (s : State) : (putObj id idx v s).time = s.time := rfl
@[simp] theorem putObj_fab (id idx v : Nat) (s : State) : (putObj id idx v s).fab = s.fab := rfl
@[simp] theorem putObj_lp (id idx v : Nat) (s : State) : (putObj id idx v s).lp = s.lp := rfl
@[simp] theorem putObj_lau (id idx v : Nat) (s : State) : (putObj id idx v s).lau = s.lau := rfl
@[simp] theorem putObj_pos (id idx v : Nat) (s : State) : (putObj id idx v s).pos = s.pos := rfl
@[simp] theorem putObj_cel (id idx v : Nat) (s : State) : (putObj id idx v s).cel = s.cel := rfl
@[simp] theorem putObj_hyd (id idx v : Nat) (s : State) : (putObj id idx v s).hyd = s.hyd := rfl
@[simp] theorem putObj_tap (id idx v : Nat) (s : State) : (putObj id idx v s).tap = s.tap := rfl
@[simp] theorem putObj_lamp (id idx v : Nat) (s : State) : (putObj id idx v s).lamp = s.lamp := rfl
@[simp] theorem putObj_rk (id idx v : Nat) (s : State) : (putObj id idx v s).rk = s.rk := rfl
@[simp] theorem putObj_link (id idx v : Nat) (s : State) : (putObj id idx v s).link = s.link := rfl
@[simp] theorem putObj_flt (id idx v : Nat) (s : State) : (putObj id idx v s).flt = s.flt := rfl
@[simp] theorem putObj_blobs (id idx v : Nat) (s : State) : (putObj id idx v s).blobs = s.blobs := rfl
@[simp] theorem putObj_mem (id idx v : Nat) (s : State) : (putObj id idx v s).mem = s.mem := rfl
@[simp] theorem putObj_out (id idx v : Nat) (s : State) : (putObj id idx v s).out = s.out := rfl
@[simp] theorem putObj_free (id idx v : Nat) (s : State) : (putObj id idx v s).free = s.free := rfl
@[simp] theorem putObj_pending (id idx v : Nat) (s : State) : (putObj id idx v s).pending = s.pending := rfl

/-! putBlob -/

@[simp] theorem putBlob_modes (id idx : Nat) (v : List Byte) (s : State) : (putBlob id idx v s).modes = s.modes := rfl
@[simp] theorem putBlob_fresh (id idx : Nat) (v : List Byte) (s : State) : (putBlob id idx v s).fresh = s.fresh := rfl
@[simp] theorem putBlob_dict (id idx : Nat) (v : List Byte) (s : State) : (putBlob id idx v s).dict = s.dict := rfl
@[simp] theorem putBlob_time (id idx : Nat) (v : List Byte) (s : State) : (putBlob id idx v s).time = s.time := rfl
@[simp] theorem putBlob_fab (id idx : Nat) (v : List Byte) (s : State) : (putBlob id idx v s).fab = s.fab := rfl
@[simp] theorem putBlob_lp (id idx : Nat) (v : List Byte) (s : State) : (putBlob id idx v s).lp = s.lp := rfl
@[simp] theorem putBlob_lau (id idx : Nat) (v : List Byte) (s : State) : (putBlob id idx v s).lau = s.lau := rfl
@[simp] theorem putBlob_pos (id idx : Nat) (v : List Byte) (s : State) : (putBlob id idx v s).pos = s.pos := rfl
@[simp] theorem putBlob_cel (id idx : Nat) (v : List Byte) (s : State) : (putBlob id idx v s).cel = s.cel := rfl
@[simp] theorem putBlob_hyd (id idx : Nat) (v : List Byte) (s : State) : (putBlob id idx v s).hyd = s.hyd := rfl
@[simp] theorem putBlob_tap (id idx : Nat) (v : List Byte) (s : State) : (putBlob id idx v s).tap = s.tap := rfl
@[simp] theorem putBlob_lamp (id idx : Nat) (v : List Byte) (s : State) : (putBlob id idx v s).lamp = s.lamp := rfl
@[simp] theorem putBlob_rk (id idx : Nat) (v : List Byte) (s : State) : (putBlob id idx v s).rk = s.rk := rfl
@[simp] theorem putBlob_link (id idx : Nat) (v : List Byte) (s : State) : (putBlob id idx v s).link = s.link := rfl
@[simp] theorem putBlob_flt (id idx : Nat) (v : List Byte) (s : State) : (putBlob id idx v s).flt = s.flt := rfl
@[simp] theorem putBlob_objs (id idx : Nat) (v : List Byte) (s : State) : (putBlob id idx v s).objs = s.objs := rfl
@[simp] theorem putBlob_mem (id idx : Nat) (v : List Byte) (s : State) : (putBlob id idx v s).mem = s.mem := rfl
@[simp] theorem putBlob_out (id idx : Nat) (v : List Byte) (s : State) : (putBlob id idx v s).out = s.out := rfl
@[simp] theorem putBlob_free (id idx : Nat) (v : List Byte) (s : State) : (putBlob id idx v s).free = s.free := rfl
@[simp] theorem putBlob_pending (id idx : Nat) (v : List Byte) (s : State) : (putBlob id idx v s).pending = s.pending := rfl

/-! putInt -/

@[simp] theorem putInt_modes (id idx : Nat) (v : Int) (s : State) : (putInt id idx v s).modes = s.modes := putObj_modes _ _ _ s
@[simp] theorem putInt_fresh (id idx : Nat) (v : Int) (s : State) : (putInt id idx v s).fresh = s.fresh := putObj_fresh _ _ _ s
@[simp] theorem putInt_dict (id idx : Nat) (v : Int) (s : State) : (putInt id idx v s).dict = s.dict := putObj_dict _ _ _ s
@[simp] theorem putInt_time (id idx : Nat) (v : Int) (s : State) : (putInt id idx v s).time = s.time := putObj_time _ _ _ s
@[simp] theorem putInt_fab (id idx : Nat) (v : Int) (s : State) : (putInt id idx v s).fab = s.fab := putObj_fab _ _ _ s
@[simp] theorem putInt_lp (id idx : Nat) (v : Int) (s : State) : (putInt id idx v s).lp = s.lp := putObj_lp _ _ _ s
@[simp] theorem putInt_lau (id idx : Nat) (v : Int) (s : State) : (putInt id idx v s).lau = s.lau := putObj_lau _ _ _ s
@[simp] theorem putInt_pos (id idx : Nat) (v : Int) (s : State) : (putInt id idx v s).pos = s.pos := putObj_pos _ _ _ s
@[simp] theorem putInt_cel (id idx : Nat) (v : Int) (s : State) : (putInt id idx v s).cel = s.cel := putObj_cel _ _ _ s
@[simp] theorem putInt_hyd (id idx : Nat) (v : Int) (s : State) : (putInt id idx v s).hyd = s.hyd := putObj_hyd _ _ _ s
@[simp] theorem putInt_tap (id idx : Nat) (v : Int) (s : State) : (putInt id idx v s).tap = s.tap := putObj_tap _ _ _ s
@[simp] theorem putInt_lamp (id idx : Nat) (v : Int) (s : State) : (putInt id idx v s).lamp = s.lamp := putObj_lamp _ _ _ s
@[simp] theorem putInt_rk (id idx : Nat) (v : Int) (s : State) : (putInt id idx v s).rk = s.rk := putObj_rk _ _ _ s
@[simp] theorem putInt_link (id idx : Nat) (v : Int) (s : State) : (putInt id idx v s).link = s.link := putObj_link _ _ _ s
@[simp] theorem putInt_flt (id idx : Nat) (v : Int) (s : State) : (putInt id idx v s).flt = s.flt := putObj_flt _ _ _ s
@[simp] theorem putInt_blobs (id idx : Nat) (v : Int) (s : State) : (putInt id idx v s).blobs = s.blobs := putObj_blobs _ _ _ s
@[simp] theorem putInt_mem (id idx : Nat) (v : Int) (s : State) : (putInt id idx v s).mem = s.mem := putObj_mem _ _ _ s
@[simp] theorem putInt_out (id idx : Nat) (v : Int) (s : State) : (putInt id idx v s).out = s.out := putObj_out _ _ _ s
@[simp] theorem putInt_free (id idx : Nat) (v : Int) (s : State) : (putInt id idx v s).free = s.free := putObj_free _ _ _ s
@[simp] theorem putInt_pending (id idx : Nat) (v : Int) (s : State) : (putInt id idx v s).pending = s.pending := putObj_pending _ _ _ s

/-! addObj -/

@[simp] theorem addObj_modes (id idx n : Nat) (s : State) : (addObj id idx n s).modes = s.modes := putObj_modes _ _ _ s
@[simp] theorem addObj_fresh (id idx n : Nat) (s : State) : (addObj id idx n s).fresh = s.fresh := putObj_fresh _ _ _ s
@[simp] theorem addObj_dict (id idx n : Nat) (s : State) : (addObj id idx n s).dict = s.dict := putObj_dict _ _ _ s
@[simp] theorem addObj_time (id idx n : Nat) (s : State) : (addObj id idx n s).time = s.time := putObj_time _ _ _ s
@[simp] theorem addObj_fab (id idx n : Nat) (s : State) : (addObj id idx n s).fab = s.fab := putObj_fab _ _ _ s
@[simp] theorem addObj_lp (id idx n : Nat) (s : State) : (addObj id idx n s).lp = s.lp := putObj_lp _ _ _ s
@[simp] theorem addObj_lau (id idx n : Nat) (s : State) : (addObj id idx n s).lau = s.lau := putObj_lau _ _ _ s
@[simp] theorem addObj_pos (id idx n : Nat) (s : State) : (addObj id idx n s).pos = s.pos := putObj_pos _ _ _ s
@[simp] theorem addObj_cel (id idx n : Nat) (s : State) : (addObj id idx n s).cel = s.cel := putObj_cel _ _ _ s
@[simp] theorem addObj_hyd (id idx n : Nat) (s : State) : (addObj id idx n s).hyd = s.hyd := putObj_hyd _ _ _ s
@[simp] theorem addObj_tap (id idx n : Nat) (s : State) : (addObj id idx n s).tap = s.tap := putObj_tap _ _ _ s
@[simp] theorem addObj_lamp (id idx n : Nat) (s : State) : (addObj id idx n s).lamp = s.lamp := putObj_lamp _ _ _ s
@[simp] theorem addObj_rk (id idx n : Nat) (s : State) : (addObj id idx n s).rk = s.rk := putObj_rk _ _ _ s
@[simp] theorem addObj_link (id idx n : Nat) (s : State) : (addObj id idx n s).link = s.link := putObj_link _ _ _ s
@[simp] theorem addObj_flt (id idx n : Nat) (s : State) : (addObj id idx n s).flt = s.flt := putObj_flt _ _ _ s
@[simp] theorem addObj_blobs (id idx n : Nat) (s : State) : (addObj id idx n s).blobs = s.blobs := putObj_blobs _ _ _ s
@[simp] theorem addObj_mem (id idx n : Nat) (s : State) : (addObj id idx n s).mem = s.mem := putObj_mem _ _ _ s
@[simp] theorem addObj_out (id idx n : Nat) (s : State) : (addObj id idx n s).out = s.out := putObj_out _ _ _ s
@[simp] theorem addObj_free (id idx n : Nat) (s : State) : (addObj id idx n s).free = s.free := putObj_free _ _ _ s
@[simp] theorem addObj_pending (id idx n : Nat) (s : State) : (addObj id idx n s).pending = s.pending := putObj_pending _ _ _ s

/-! bump -/

@[simp] theorem bump_modes (id idx : Nat) (s : State) : (bump id idx s).modes = s.modes := addObj_modes _ _ _ s
@[simp] theorem bump_fresh (id idx : Nat) (s : State) : (bump id idx s).fresh = s.fresh := addObj_fresh _ _ _ s
@[simp] theorem bump_dict (id idx : Nat) (s : State) : (bump id idx s).dict = s.dict := addObj_dict _ _ _ s
@[simp] theorem bump_time (id idx : Nat) (s : State) : (bump id idx s).time = s.time := addObj_time _ _ _ s
@[simp] theorem bump_fab (id idx : Nat) (s : State) : (bump id idx s).fab = s.fab := addObj_fab _ _ _ s
@[simp] theorem bump_lp (id idx : Nat) (s : State) : (bump id idx s).lp = s.lp := addObj_lp _ _ _ s
@[simp] theorem bump_lau (id idx : Nat) (s : State) : (bump id idx s).lau = s.lau := addObj_lau _ _ _ s
@[simp] theorem bump_pos (id idx : Nat) (s : State) : (bump id idx s).pos = s.pos := addObj_pos _ _ _ s
@[simp] theorem bump_cel (id idx : Nat) (s : State) : (bump id idx s).cel = s.cel := addObj_cel _ _ _ s
@[simp] theorem bump_hyd (id idx : Nat) (s : State) : (bump id idx s).hyd = s.hyd := addObj_hyd _ _ _ s
@[simp] theorem bump_tap (id idx : Nat) (s : State) : (bump id idx s).tap = s.tap := addObj_tap _ _ _ s
@[simp] theorem bump_lamp (id idx : Nat) (s : State) : (bump id idx s).lamp = s.lamp := addObj_lamp _ _ _ s
@[simp] theorem bump_rk (id idx : Nat) (s : State) : (bump id idx s).rk = s.rk := addObj_rk _ _ _ s
@[simp] theorem bump_link (id idx : Nat) (s : State) : (bump id idx s).link = s.link := addObj_link _ _ _ s
@[simp] theorem bump_flt (id idx : Nat) (s : State) : (bump id idx s).flt = s.flt := addObj_flt _ _ _ s
@[simp] theorem bump_blobs (id idx : Nat) (s : State) : (bump id idx s).blobs = s.blobs := addObj_blobs _ _ _ s
@[simp] theorem bump_mem (id idx : Nat) (s : State) : (bump id idx s).mem = s.mem := addObj_mem _ _ _ s
@[simp] theorem bump_out (id idx : Nat) (s : State) : (bump id idx s).out = s.out := addObj_out _ _ _ s
@[simp] theorem bump_free (id idx : Nat) (s : State) : (bump id idx s).free = s.free := addObj_free _ _ _ s
@[simp] theorem bump_pending (id idx : Nat) (s : State) : (bump id idx s).pending = s.pending := addObj_pending _ _ _ s

/-! setSticky -/

/-- Setting a sticky bit notes it as set in this tick, so that a write of the tick spares it (R83). -/
@[simp] theorem setSticky_fresh (id idx mask : Nat) (s : State) : (setSticky id idx mask s).fresh =
    tabInsert (objKey id idx) (tabGet 0 (objKey id idx) s.fresh ||| mask) s.fresh := rfl
@[simp] theorem setSticky_modes (id idx mask : Nat) (s : State) : (setSticky id idx mask s).modes = s.modes := rfl
@[simp] theorem setSticky_dict (id idx mask : Nat) (s : State) : (setSticky id idx mask s).dict = s.dict := rfl
@[simp] theorem setSticky_time (id idx mask : Nat) (s : State) : (setSticky id idx mask s).time = s.time := rfl
@[simp] theorem setSticky_fab (id idx mask : Nat) (s : State) : (setSticky id idx mask s).fab = s.fab := rfl
@[simp] theorem setSticky_lp (id idx mask : Nat) (s : State) : (setSticky id idx mask s).lp = s.lp := rfl
@[simp] theorem setSticky_lau (id idx mask : Nat) (s : State) : (setSticky id idx mask s).lau = s.lau := rfl
@[simp] theorem setSticky_pos (id idx mask : Nat) (s : State) : (setSticky id idx mask s).pos = s.pos := rfl
@[simp] theorem setSticky_cel (id idx mask : Nat) (s : State) : (setSticky id idx mask s).cel = s.cel := rfl
@[simp] theorem setSticky_hyd (id idx mask : Nat) (s : State) : (setSticky id idx mask s).hyd = s.hyd := rfl
@[simp] theorem setSticky_tap (id idx mask : Nat) (s : State) : (setSticky id idx mask s).tap = s.tap := rfl
@[simp] theorem setSticky_lamp (id idx mask : Nat) (s : State) : (setSticky id idx mask s).lamp = s.lamp := rfl
@[simp] theorem setSticky_rk (id idx mask : Nat) (s : State) : (setSticky id idx mask s).rk = s.rk := rfl
@[simp] theorem setSticky_link (id idx mask : Nat) (s : State) : (setSticky id idx mask s).link = s.link := rfl
@[simp] theorem setSticky_flt (id idx mask : Nat) (s : State) : (setSticky id idx mask s).flt = s.flt := rfl
@[simp] theorem setSticky_blobs (id idx mask : Nat) (s : State) : (setSticky id idx mask s).blobs = s.blobs := rfl
@[simp] theorem setSticky_mem (id idx mask : Nat) (s : State) : (setSticky id idx mask s).mem = s.mem := rfl
@[simp] theorem setSticky_out (id idx mask : Nat) (s : State) : (setSticky id idx mask s).out = s.out := rfl
@[simp] theorem setSticky_free (id idx mask : Nat) (s : State) : (setSticky id idx mask s).free = s.free := rfl
@[simp] theorem setSticky_pending (id idx mask : Nat) (s : State) : (setSticky id idx mask s).pending = s.pending := rfl

/-! putLane -/

@[simp] theorem putLane_modes (id n v : Nat) (s : State) : (putLane id n v s).modes = s.modes := putObj_modes _ _ _ s
@[simp] theorem putLane_fresh (id n v : Nat) (s : State) : (putLane id n v s).fresh = s.fresh := putObj_fresh _ _ _ s
@[simp] theorem putLane_dict (id n v : Nat) (s : State) : (putLane id n v s).dict = s.dict := putObj_dict _ _ _ s
@[simp] theorem putLane_time (id n v : Nat) (s : State) : (putLane id n v s).time = s.time := putObj_time _ _ _ s
@[simp] theorem putLane_fab (id n v : Nat) (s : State) : (putLane id n v s).fab = s.fab := putObj_fab _ _ _ s
@[simp] theorem putLane_lp (id n v : Nat) (s : State) : (putLane id n v s).lp = s.lp := putObj_lp _ _ _ s
@[simp] theorem putLane_lau (id n v : Nat) (s : State) : (putLane id n v s).lau = s.lau := putObj_lau _ _ _ s
@[simp] theorem putLane_pos (id n v : Nat) (s : State) : (putLane id n v s).pos = s.pos := putObj_pos _ _ _ s
@[simp] theorem putLane_cel (id n v : Nat) (s : State) : (putLane id n v s).cel = s.cel := putObj_cel _ _ _ s
@[simp] theorem putLane_hyd (id n v : Nat) (s : State) : (putLane id n v s).hyd = s.hyd := putObj_hyd _ _ _ s
@[simp] theorem putLane_tap (id n v : Nat) (s : State) : (putLane id n v s).tap = s.tap := putObj_tap _ _ _ s
@[simp] theorem putLane_lamp (id n v : Nat) (s : State) : (putLane id n v s).lamp = s.lamp := putObj_lamp _ _ _ s
@[simp] theorem putLane_rk (id n v : Nat) (s : State) : (putLane id n v s).rk = s.rk := putObj_rk _ _ _ s
@[simp] theorem putLane_link (id n v : Nat) (s : State) : (putLane id n v s).link = s.link := putObj_link _ _ _ s
@[simp] theorem putLane_flt (id n v : Nat) (s : State) : (putLane id n v s).flt = s.flt := putObj_flt _ _ _ s
@[simp] theorem putLane_blobs (id n v : Nat) (s : State) : (putLane id n v s).blobs = s.blobs := putObj_blobs _ _ _ s
@[simp] theorem putLane_mem (id n v : Nat) (s : State) : (putLane id n v s).mem = s.mem := putObj_mem _ _ _ s
@[simp] theorem putLane_out (id n v : Nat) (s : State) : (putLane id n v s).out = s.out := putObj_out _ _ _ s
@[simp] theorem putLane_free (id n v : Nat) (s : State) : (putLane id n v s).free = s.free := putObj_free _ _ _ s
@[simp] theorem putLane_pending (id n v : Nat) (s : State) : (putLane id n v s).pending = s.pending := putObj_pending _ _ _ s

/-! bumpLane -/

@[simp] theorem bumpLane_modes (id n : Nat) (s : State) : (bumpLane id n s).modes = s.modes := bump_modes _ _ s
@[simp] theorem bumpLane_fresh (id n : Nat) (s : State) : (bumpLane id n s).fresh = s.fresh := bump_fresh _ _ s
@[simp] theorem bumpLane_dict (id n : Nat) (s : State) : (bumpLane id n s).dict = s.dict := bump_dict _ _ s
@[simp] theorem bumpLane_time (id n : Nat) (s : State) : (bumpLane id n s).time = s.time := bump_time _ _ s
@[simp] theorem bumpLane_fab (id n : Nat) (s : State) : (bumpLane id n s).fab = s.fab := bump_fab _ _ s
@[simp] theorem bumpLane_lp (id n : Nat) (s : State) : (bumpLane id n s).lp = s.lp := bump_lp _ _ s
@[simp] theorem bumpLane_lau (id n : Nat) (s : State) : (bumpLane id n s).lau = s.lau := bump_lau _ _ s
@[simp] theorem bumpLane_pos (id n : Nat) (s : State) : (bumpLane id n s).pos = s.pos := bump_pos _ _ s
@[simp] theorem bumpLane_cel (id n : Nat) (s : State) : (bumpLane id n s).cel = s.cel := bump_cel _ _ s
@[simp] theorem bumpLane_hyd (id n : Nat) (s : State) : (bumpLane id n s).hyd = s.hyd := bump_hyd _ _ s
@[simp] theorem bumpLane_tap (id n : Nat) (s : State) : (bumpLane id n s).tap = s.tap := bump_tap _ _ s
@[simp] theorem bumpLane_lamp (id n : Nat) (s : State) : (bumpLane id n s).lamp = s.lamp := bump_lamp _ _ s
@[simp] theorem bumpLane_rk (id n : Nat) (s : State) : (bumpLane id n s).rk = s.rk := bump_rk _ _ s
@[simp] theorem bumpLane_link (id n : Nat) (s : State) : (bumpLane id n s).link = s.link := bump_link _ _ s
@[simp] theorem bumpLane_flt (id n : Nat) (s : State) : (bumpLane id n s).flt = s.flt := bump_flt _ _ s
@[simp] theorem bumpLane_blobs (id n : Nat) (s : State) : (bumpLane id n s).blobs = s.blobs := bump_blobs _ _ s
@[simp] theorem bumpLane_mem (id n : Nat) (s : State) : (bumpLane id n s).mem = s.mem := bump_mem _ _ s
@[simp] theorem bumpLane_out (id n : Nat) (s : State) : (bumpLane id n s).out = s.out := bump_out _ _ s
@[simp] theorem bumpLane_free (id n : Nat) (s : State) : (bumpLane id n s).free = s.free := bump_free _ _ s
@[simp] theorem bumpLane_pending (id n : Nat) (s : State) : (bumpLane id n s).pending = s.pending := bump_pending _ _ s

/-! stickyLane -/

@[simp] theorem stickyLane_fresh (id n mask : Nat) (s : State) : (stickyLane id n mask s).fresh =
    tabInsert (objKey (quadId id (n / 4)) (n % 4)) (tabGet 0 (objKey (quadId id (n / 4)) (n % 4)) s.fresh ||| mask) s.fresh := rfl
@[simp] theorem stickyLane_modes (id n mask : Nat) (s : State) : (stickyLane id n mask s).modes = s.modes := setSticky_modes _ _ _ s
@[simp] theorem stickyLane_dict (id n mask : Nat) (s : State) : (stickyLane id n mask s).dict = s.dict := setSticky_dict _ _ _ s
@[simp] theorem stickyLane_time (id n mask : Nat) (s : State) : (stickyLane id n mask s).time = s.time := setSticky_time _ _ _ s
@[simp] theorem stickyLane_fab (id n mask : Nat) (s : State) : (stickyLane id n mask s).fab = s.fab := setSticky_fab _ _ _ s
@[simp] theorem stickyLane_lp (id n mask : Nat) (s : State) : (stickyLane id n mask s).lp = s.lp := setSticky_lp _ _ _ s
@[simp] theorem stickyLane_lau (id n mask : Nat) (s : State) : (stickyLane id n mask s).lau = s.lau := setSticky_lau _ _ _ s
@[simp] theorem stickyLane_pos (id n mask : Nat) (s : State) : (stickyLane id n mask s).pos = s.pos := setSticky_pos _ _ _ s
@[simp] theorem stickyLane_cel (id n mask : Nat) (s : State) : (stickyLane id n mask s).cel = s.cel := setSticky_cel _ _ _ s
@[simp] theorem stickyLane_hyd (id n mask : Nat) (s : State) : (stickyLane id n mask s).hyd = s.hyd := setSticky_hyd _ _ _ s
@[simp] theorem stickyLane_tap (id n mask : Nat) (s : State) : (stickyLane id n mask s).tap = s.tap := setSticky_tap _ _ _ s
@[simp] theorem stickyLane_lamp (id n mask : Nat) (s : State) : (stickyLane id n mask s).lamp = s.lamp := setSticky_lamp _ _ _ s
@[simp] theorem stickyLane_rk (id n mask : Nat) (s : State) : (stickyLane id n mask s).rk = s.rk := setSticky_rk _ _ _ s
@[simp] theorem stickyLane_link (id n mask : Nat) (s : State) : (stickyLane id n mask s).link = s.link := setSticky_link _ _ _ s
@[simp] theorem stickyLane_flt (id n mask : Nat) (s : State) : (stickyLane id n mask s).flt = s.flt := setSticky_flt _ _ _ s
@[simp] theorem stickyLane_blobs (id n mask : Nat) (s : State) : (stickyLane id n mask s).blobs = s.blobs := setSticky_blobs _ _ _ s
@[simp] theorem stickyLane_mem (id n mask : Nat) (s : State) : (stickyLane id n mask s).mem = s.mem := setSticky_mem _ _ _ s
@[simp] theorem stickyLane_out (id n mask : Nat) (s : State) : (stickyLane id n mask s).out = s.out := setSticky_out _ _ _ s
@[simp] theorem stickyLane_free (id n mask : Nat) (s : State) : (stickyLane id n mask s).free = s.free := setSticky_free _ _ _ s
@[simp] theorem stickyLane_pending (id n mask : Nat) (s : State) : (stickyLane id n mask s).pending = s.pending := setSticky_pending _ _ _ s

/-! arrive -/

@[simp] theorem arrive_modes (a : Arrival) (s : State) : (arrive a s).modes = s.modes := rfl
@[simp] theorem arrive_fresh (a : Arrival) (s : State) : (arrive a s).fresh = s.fresh := rfl
@[simp] theorem arrive_dict (a : Arrival) (s : State) : (arrive a s).dict = s.dict := rfl
@[simp] theorem arrive_time (a : Arrival) (s : State) : (arrive a s).time = s.time := rfl
@[simp] theorem arrive_lp (a : Arrival) (s : State) : (arrive a s).lp = s.lp := rfl
@[simp] theorem arrive_lau (a : Arrival) (s : State) : (arrive a s).lau = s.lau := rfl
@[simp] theorem arrive_pos (a : Arrival) (s : State) : (arrive a s).pos = s.pos := rfl
@[simp] theorem arrive_cel (a : Arrival) (s : State) : (arrive a s).cel = s.cel := rfl
@[simp] theorem arrive_hyd (a : Arrival) (s : State) : (arrive a s).hyd = s.hyd := rfl
@[simp] theorem arrive_tap (a : Arrival) (s : State) : (arrive a s).tap = s.tap := rfl
@[simp] theorem arrive_lamp (a : Arrival) (s : State) : (arrive a s).lamp = s.lamp := rfl
@[simp] theorem arrive_rk (a : Arrival) (s : State) : (arrive a s).rk = s.rk := rfl
@[simp] theorem arrive_link (a : Arrival) (s : State) : (arrive a s).link = s.link := rfl
@[simp] theorem arrive_flt (a : Arrival) (s : State) : (arrive a s).flt = s.flt := rfl
@[simp] theorem arrive_objs (a : Arrival) (s : State) : (arrive a s).objs = s.objs := rfl
@[simp] theorem arrive_blobs (a : Arrival) (s : State) : (arrive a s).blobs = s.blobs := rfl
@[simp] theorem arrive_mem (a : Arrival) (s : State) : (arrive a s).mem = s.mem := rfl
@[simp] theorem arrive_out (a : Arrival) (s : State) : (arrive a s).out = s.out := rfl
@[simp] theorem arrive_free (a : Arrival) (s : State) : (arrive a s).free = s.free := rfl
@[simp] theorem arrive_pending (a : Arrival) (s : State) : (arrive a s).pending = s.pending := rfl

/-! loseMem -/

@[simp] theorem loseMem_modes (lo hi : Nat) (s : State) : (loseMem lo hi s).modes = s.modes := rfl
@[simp] theorem loseMem_fresh (lo hi : Nat) (s : State) : (loseMem lo hi s).fresh = s.fresh := rfl
@[simp] theorem loseMem_dict (lo hi : Nat) (s : State) : (loseMem lo hi s).dict = s.dict := rfl
@[simp] theorem loseMem_time (lo hi : Nat) (s : State) : (loseMem lo hi s).time = s.time := rfl
@[simp] theorem loseMem_fab (lo hi : Nat) (s : State) : (loseMem lo hi s).fab = s.fab := rfl
@[simp] theorem loseMem_lp (lo hi : Nat) (s : State) : (loseMem lo hi s).lp = s.lp := rfl
@[simp] theorem loseMem_lau (lo hi : Nat) (s : State) : (loseMem lo hi s).lau = s.lau := rfl
@[simp] theorem loseMem_pos (lo hi : Nat) (s : State) : (loseMem lo hi s).pos = s.pos := rfl
@[simp] theorem loseMem_cel (lo hi : Nat) (s : State) : (loseMem lo hi s).cel = s.cel := rfl
@[simp] theorem loseMem_hyd (lo hi : Nat) (s : State) : (loseMem lo hi s).hyd = s.hyd := rfl
@[simp] theorem loseMem_tap (lo hi : Nat) (s : State) : (loseMem lo hi s).tap = s.tap := rfl
@[simp] theorem loseMem_lamp (lo hi : Nat) (s : State) : (loseMem lo hi s).lamp = s.lamp := rfl
@[simp] theorem loseMem_rk (lo hi : Nat) (s : State) : (loseMem lo hi s).rk = s.rk := rfl
@[simp] theorem loseMem_link (lo hi : Nat) (s : State) : (loseMem lo hi s).link = s.link := rfl
@[simp] theorem loseMem_flt (lo hi : Nat) (s : State) : (loseMem lo hi s).flt = s.flt := rfl
@[simp] theorem loseMem_objs (lo hi : Nat) (s : State) : (loseMem lo hi s).objs = s.objs := rfl
@[simp] theorem loseMem_blobs (lo hi : Nat) (s : State) : (loseMem lo hi s).blobs = s.blobs := rfl
@[simp] theorem loseMem_out (lo hi : Nat) (s : State) : (loseMem lo hi s).out = s.out := rfl
@[simp] theorem loseMem_free (lo hi : Nat) (s : State) : (loseMem lo hi s).free = s.free := rfl
@[simp] theorem loseMem_pending (lo hi : Nat) (s : State) : (loseMem lo hi s).pending = s.pending := rfl

/-! takeFree -/

@[simp] theorem takeFree_modes (s : State) : (takeFree s).2.modes = s.modes := rfl
@[simp] theorem takeFree_fresh (s : State) : (takeFree s).2.fresh = s.fresh := rfl
@[simp] theorem takeFree_dict (s : State) : (takeFree s).2.dict = s.dict := rfl
@[simp] theorem takeFree_time (s : State) : (takeFree s).2.time = s.time := rfl
@[simp] theorem takeFree_fab (s : State) : (takeFree s).2.fab = s.fab := rfl
@[simp] theorem takeFree_lp (s : State) : (takeFree s).2.lp = s.lp := rfl
@[simp] theorem takeFree_lau (s : State) : (takeFree s).2.lau = s.lau := rfl
@[simp] theorem takeFree_pos (s : State) : (takeFree s).2.pos = s.pos := rfl
@[simp] theorem takeFree_cel (s : State) : (takeFree s).2.cel = s.cel := rfl
@[simp] theorem takeFree_hyd (s : State) : (takeFree s).2.hyd = s.hyd := rfl
@[simp] theorem takeFree_tap (s : State) : (takeFree s).2.tap = s.tap := rfl
@[simp] theorem takeFree_lamp (s : State) : (takeFree s).2.lamp = s.lamp := rfl
@[simp] theorem takeFree_rk (s : State) : (takeFree s).2.rk = s.rk := rfl
@[simp] theorem takeFree_link (s : State) : (takeFree s).2.link = s.link := rfl
@[simp] theorem takeFree_flt (s : State) : (takeFree s).2.flt = s.flt := rfl
@[simp] theorem takeFree_objs (s : State) : (takeFree s).2.objs = s.objs := rfl
@[simp] theorem takeFree_blobs (s : State) : (takeFree s).2.blobs = s.blobs := rfl
@[simp] theorem takeFree_mem (s : State) : (takeFree s).2.mem = s.mem := rfl
@[simp] theorem takeFree_out (s : State) : (takeFree s).2.out = s.out := rfl
@[simp] theorem takeFree_free (s : State) : (takeFree s).2.free = s.free + 1 := rfl
@[simp] theorem takeFree_pending (s : State) : (takeFree s).2.pending = s.pending := rfl

/-! takeChoice -/

@[simp] theorem takeChoice_modes (n : Nat) (s : State) : (takeChoice n s).2.modes = s.modes := rfl
@[simp] theorem takeChoice_fresh (n : Nat) (s : State) : (takeChoice n s).2.fresh = s.fresh := rfl
@[simp] theorem takeChoice_dict (n : Nat) (s : State) : (takeChoice n s).2.dict = s.dict := rfl
@[simp] theorem takeChoice_time (n : Nat) (s : State) : (takeChoice n s).2.time = s.time := rfl
@[simp] theorem takeChoice_fab (n : Nat) (s : State) : (takeChoice n s).2.fab = s.fab := rfl
@[simp] theorem takeChoice_lp (n : Nat) (s : State) : (takeChoice n s).2.lp = s.lp := rfl
@[simp] theorem takeChoice_lau (n : Nat) (s : State) : (takeChoice n s).2.lau = s.lau := rfl
@[simp] theorem takeChoice_pos (n : Nat) (s : State) : (takeChoice n s).2.pos = s.pos := rfl
@[simp] theorem takeChoice_cel (n : Nat) (s : State) : (takeChoice n s).2.cel = s.cel := rfl
@[simp] theorem takeChoice_hyd (n : Nat) (s : State) : (takeChoice n s).2.hyd = s.hyd := rfl
@[simp] theorem takeChoice_tap (n : Nat) (s : State) : (takeChoice n s).2.tap = s.tap := rfl
@[simp] theorem takeChoice_lamp (n : Nat) (s : State) : (takeChoice n s).2.lamp = s.lamp := rfl
@[simp] theorem takeChoice_rk (n : Nat) (s : State) : (takeChoice n s).2.rk = s.rk := rfl
@[simp] theorem takeChoice_link (n : Nat) (s : State) : (takeChoice n s).2.link = s.link := rfl
@[simp] theorem takeChoice_flt (n : Nat) (s : State) : (takeChoice n s).2.flt = s.flt := rfl
@[simp] theorem takeChoice_objs (n : Nat) (s : State) : (takeChoice n s).2.objs = s.objs := rfl
@[simp] theorem takeChoice_blobs (n : Nat) (s : State) : (takeChoice n s).2.blobs = s.blobs := rfl
@[simp] theorem takeChoice_mem (n : Nat) (s : State) : (takeChoice n s).2.mem = s.mem := rfl
@[simp] theorem takeChoice_out (n : Nat) (s : State) : (takeChoice n s).2.out = s.out := rfl
@[simp] theorem takeChoice_free (n : Nat) (s : State) : (takeChoice n s).2.free = s.free + 1 := rfl
@[simp] theorem takeChoice_pending (n : Nat) (s : State) : (takeChoice n s).2.pending = s.pending := rfl

end Sys2Proof.Machine
end

