-- ==== Sys2Proof/Laws/Ops.lean ====
section
/-! SUPPORT. What the shared operations do: reading an object after a write of it or of another, reading a byte after a write, and the fields that firing a source, recording a fault and storing leave alone. -/

namespace Sys2Proof.Machine

open Sys2Proof

/-! ### Objects -/

/-- Different objects have different keys. -/
theorem objKey_ne {id id' i j : Nat} (h : id ≠ id') : objKey id i ≠ objKey id' j := by
  simp only [objKey]; omega

/-- Indices of one object have one key only when they are one index. -/
theorem objKey_idx {id i j : Nat} (hi : i < 65536) (hj : j < 65536) : objKey id i = objKey id j ↔ i = j := by
  simp only [objKey]; omega

/-- An object index reads as it was put. -/
@[simp] theorem getObj_putObj_self (id idx v : Nat) (s : State) : getObj (putObj id idx v s) id idx = v := by
  simp [getObj, putObj, tabGet_put_self]

/-- Another index of the same object reads as before. -/
theorem getObj_putObj_idx {id i j v : Nat} {s : State} (hi : i < 65536) (hj : j < 65536) (h : i ≠ j) :
    getObj (putObj id i v s) id j = getObj s id j := by
  simp only [getObj, putObj]; exact tabGet_put_ne (fun e => h ((objKey_idx hi hj).1 e))

/-- Another object reads as before. -/
theorem getObj_putObj_ne {id id' i j v : Nat} {s : State} (h : id ≠ id') : getObj (putObj id i v s) id' j = getObj s id' j := by
  simp only [getObj, putObj]; exact tabGet_put_ne (objKey_ne h)

/-- What adding to an object gives. -/
@[simp] theorem getObj_addObj_self (id idx n : Nat) (s : State) : getObj (addObj id idx n s) id idx = (getObj s id idx + n) % 2 ^ objBits id := by
  simp [addObj]

@[simp] theorem getObj_bump_self (id idx : Nat) (s : State) : getObj (bump id idx s) id idx = (getObj s id idx + 1) % 2 ^ objBits id := by
  simp [bump]

@[simp] theorem getObj_setSticky_self (id idx m : Nat) (s : State) : getObj (setSticky id idx m s) id idx = getObj s id idx ||| m := by
  simp [setSticky]

theorem getObj_addObj_ne {id id' i j n : Nat} {s : State} (h : id ≠ id') : getObj (addObj id i n s) id' j = getObj s id' j := getObj_putObj_ne h

theorem getObj_bump_ne {id id' i j : Nat} {s : State} (h : id ≠ id') : getObj (bump id i s) id' j = getObj s id' j := getObj_putObj_ne h

theorem getObj_setSticky_ne {id id' i j m : Nat} {s : State} (h : id ≠ id') : getObj (setSticky id i m s) id' j = getObj s id' j := getObj_putObj_ne h

/-- A string reads as it was put. -/
@[simp] theorem getBlob_putBlob_self (id idx : Nat) (v : List Byte) (s : State) : getBlob (putBlob id idx v s) id idx = v := by
  simp [getBlob, putBlob, tabGet_put_self]

theorem getBlob_putBlob_ne {id id' i j : Nat} {v : List Byte} {s : State} (h : id ≠ id') :
    getBlob (putBlob id i v s) id' j = getBlob s id' j := by
  simp only [getBlob, putBlob]; exact tabGet_put_ne (objKey_ne h)

/-- Objects are read from the table of objects alone. -/
theorem getObj_congr {s t : State} (h : t.objs = s.objs) (id idx : Nat) : getObj t id idx = getObj s id idx := by
  simp only [getObj, h]

/-! ### Memory -/

/-- Reading a byte that a write has covered, or one it has not. -/
theorem readByte_writeMem (bs : List Byte) : ∀ (a b : Nat) (s : State), readByte (writeMem a bs s) b =
    if h : a ≤ b ∧ b - a < bs.length then bs[b - a]'h.2 else readByte s b := by
  induction bs with
  | nil => intro a b s; simp [writeMem]
  | cons x t ih =>
    intro a b s
    rw [writeMem, ih]
    by_cases h : a + 1 ≤ b ∧ b - (a + 1) < t.length
    · have h' : a ≤ b ∧ b - a < (x :: t).length := by simp only [List.length_cons]; omega
      rw [dif_pos h, dif_pos h']
      have e : b - a = b - (a + 1) + 1 := by omega
      simp [e]
    · rw [dif_neg h]
      by_cases hb : b = a
      · subst hb
        have h' : b ≤ b ∧ b - b < (x :: t).length := by simp
        rw [dif_pos h']
        simp [readByte, memFind, tabFind_insert]
      · have h' : ¬(a ≤ b ∧ b - a < (x :: t).length) := by simp only [List.length_cons]; omega
        rw [dif_neg h']
        have hne : a ≠ b := fun e => hb e.symm
        simp [readByte, memFind, tabFind_insert, hne, unlistedByte]

/-- A write keeps the canonical form of memory. -/
theorem writeMem_wf (bs : List Byte) : ∀ (a : Nat) (s : State), memWf s = true → memWf (writeMem a bs s) = true := by
  induction bs with
  | nil => intro a s h; exact h
  | cons x t ih => intro a s h; exact ih _ _ (tabSorted_insert h)

/-- So does losing a range. -/
theorem loseMem_wf (lo hi : Nat) (s : State) (h : memWf s = true) : memWf (loseMem lo hi s) = true := tabSorted_filter h


/-! ### Fields that a write of memory leaves alone -/

@[simp] theorem writeMem_modes (bs : List Byte) : ∀ (a : Nat) (s : State), (writeMem a bs s).modes = s.modes := by
  induction bs with
  | nil => intros; rfl
  | cons b t ih => intro a s; rw [writeMem, ih]
@[simp] theorem writeMem_fresh (bs : List Byte) : ∀ (a : Nat) (s : State), (writeMem a bs s).fresh = s.fresh := by
  induction bs with
  | nil => intros; rfl
  | cons b t ih => intro a s; rw [writeMem, ih]
@[simp] theorem writeMem_dict (bs : List Byte) : ∀ (a : Nat) (s : State), (writeMem a bs s).dict = s.dict := by
  induction bs with
  | nil => intros; rfl
  | cons b t ih => intro a s; rw [writeMem, ih]
@[simp] theorem writeMem_time (bs : List Byte) : ∀ (a : Nat) (s : State), (writeMem a bs s).time = s.time := by
  induction bs with
  | nil => intros; rfl
  | cons b t ih => intro a s; rw [writeMem, ih]
@[simp] theorem writeMem_fab (bs : List Byte) : ∀ (a : Nat) (s : State), (writeMem a bs s).fab = s.fab := by
  induction bs with
  | nil => intros; rfl
  | cons b t ih => intro a s; rw [writeMem, ih]
@[simp] theorem writeMem_lp (bs : List Byte) : ∀ (a : Nat) (s : State), (writeMem a bs s).lp = s.lp := by
  induction bs with
  | nil => intros; rfl
  | cons b t ih => intro a s; rw [writeMem, ih]
@[simp] theorem writeMem_lau (bs : List Byte) : ∀ (a : Nat) (s : State), (writeMem a bs s).lau = s.lau := by
  induction bs with
  | nil => intros; rfl
  | cons b t ih => intro a s; rw [writeMem, ih]
@[simp] theorem writeMem_pos (bs : List Byte) : ∀ (a : Nat) (s : State), (writeMem a bs s).pos = s.pos := by
  induction bs with
  | nil => intros; rfl
  | cons b t ih => intro a s; rw [writeMem, ih]
@[simp] theorem writeMem_cel (bs : List Byte) : ∀ (a : Nat) (s : State), (writeMem a bs s).cel = s.cel := by
  induction bs with
  | nil => intros; rfl
  | cons b t ih => intro a s; rw [writeMem, ih]
@[simp] theorem writeMem_hyd (bs : List Byte) : ∀ (a : Nat) (s : State), (writeMem a bs s).hyd = s.hyd := by
  induction bs with
  | nil => intros; rfl
  | cons b t ih => intro a s; rw [writeMem, ih]
@[simp] theorem writeMem_tap (bs : List Byte) : ∀ (a : Nat) (s : State), (writeMem a bs s).tap = s.tap := by
  induction bs with
  | nil => intros; rfl
  | cons b t ih => intro a s; rw [writeMem, ih]
@[simp] theorem writeMem_lamp (bs : List Byte) : ∀ (a : Nat) (s : State), (writeMem a bs s).lamp = s.lamp := by
  induction bs with
  | nil => intros; rfl
  | cons b t ih => intro a s; rw [writeMem, ih]
@[simp] theorem writeMem_rk (bs : List Byte) : ∀ (a : Nat) (s : State), (writeMem a bs s).rk = s.rk := by
  induction bs with
  | nil => intros; rfl
  | cons b t ih => intro a s; rw [writeMem, ih]
@[simp] theorem writeMem_link (bs : List Byte) : ∀ (a : Nat) (s : State), (writeMem a bs s).link = s.link := by
  induction bs with
  | nil => intros; rfl
  | cons b t ih => intro a s; rw [writeMem, ih]
@[simp] theorem writeMem_flt (bs : List Byte) : ∀ (a : Nat) (s : State), (writeMem a bs s).flt = s.flt := by
  induction bs with
  | nil => intros; rfl
  | cons b t ih => intro a s; rw [writeMem, ih]
@[simp] theorem writeMem_objs (bs : List Byte) : ∀ (a : Nat) (s : State), (writeMem a bs s).objs = s.objs := by
  induction bs with
  | nil => intros; rfl
  | cons b t ih => intro a s; rw [writeMem, ih]
@[simp] theorem writeMem_blobs (bs : List Byte) : ∀ (a : Nat) (s : State), (writeMem a bs s).blobs = s.blobs := by
  induction bs with
  | nil => intros; rfl
  | cons b t ih => intro a s; rw [writeMem, ih]
@[simp] theorem writeMem_out (bs : List Byte) : ∀ (a : Nat) (s : State), (writeMem a bs s).out = s.out := by
  induction bs with
  | nil => intros; rfl
  | cons b t ih => intro a s; rw [writeMem, ih]
@[simp] theorem writeMem_free (bs : List Byte) : ∀ (a : Nat) (s : State), (writeMem a bs s).free = s.free := by
  induction bs with
  | nil => intros; rfl
  | cons b t ih => intro a s; rw [writeMem, ih]
@[simp] theorem writeMem_pending (bs : List Byte) : ∀ (a : Nat) (s : State), (writeMem a bs s).pending = s.pending := by
  induction bs with
  | nil => intros; rfl
  | cons b t ih => intro a s; rw [writeMem, ih]

/-! ### assertWake -/

@[simp] theorem assertWake_modes (s : State) : (assertWake s).modes = s.modes := by
  simp only [assertWake]; split <;> simp
@[simp] theorem assertWake_fresh (s : State) : (assertWake s).fresh = s.fresh := by
  simp only [assertWake]; split <;> simp
@[simp] theorem assertWake_dict (s : State) : (assertWake s).dict = s.dict := by
  simp only [assertWake]; split <;> simp
@[simp] theorem assertWake_time (s : State) : (assertWake s).time = s.time := by
  simp only [assertWake]; split <;> simp
@[simp] theorem assertWake_fab (s : State) : (assertWake s).fab = s.fab := by
  simp only [assertWake]; split <;> simp
@[simp] theorem assertWake_lp (s : State) : (assertWake s).lp = s.lp := by
  simp only [assertWake]; split <;> simp
@[simp] theorem assertWake_lau (s : State) : (assertWake s).lau = s.lau := by
  simp only [assertWake]; split <;> simp
@[simp] theorem assertWake_pos (s : State) : (assertWake s).pos = s.pos := by
  simp only [assertWake]; split <;> simp
@[simp] theorem assertWake_cel (s : State) : (assertWake s).cel = s.cel := by
  simp only [assertWake]; split <;> simp
@[simp] theorem assertWake_hyd (s : State) : (assertWake s).hyd = s.hyd := by
  simp only [assertWake]; split <;> simp
@[simp] theorem assertWake_tap (s : State) : (assertWake s).tap = s.tap := by
  simp only [assertWake]; split <;> simp
@[simp] theorem assertWake_lamp (s : State) : (assertWake s).lamp = s.lamp := by
  simp only [assertWake]; split <;> simp
@[simp] theorem assertWake_rk (s : State) : (assertWake s).rk = s.rk := by
  simp only [assertWake]; split <;> simp
@[simp] theorem assertWake_flt (s : State) : (assertWake s).flt = s.flt := by
  simp only [assertWake]; split <;> simp
@[simp] theorem assertWake_objs (s : State) : (assertWake s).objs = s.objs := by
  simp only [assertWake]; split <;> simp
@[simp] theorem assertWake_blobs (s : State) : (assertWake s).blobs = s.blobs := by
  simp only [assertWake]; split <;> simp
@[simp] theorem assertWake_mem (s : State) : (assertWake s).mem = s.mem := by
  simp only [assertWake]; split <;> simp
@[simp] theorem assertWake_free (s : State) : (assertWake s).free = s.free := by
  simp only [assertWake]; split <;> simp
@[simp] theorem assertWake_pending (s : State) : (assertWake s).pending = s.pending := by
  simp only [assertWake]; split <;> simp

/-! ### updateIntx -/

@[simp] theorem updateIntx_modes (s : State) : (updateIntx s).modes = s.modes := by
  simp only [updateIntx]; try (repeat' split) <;> simp
@[simp] theorem updateIntx_fresh (s : State) : (updateIntx s).fresh = s.fresh := by
  simp only [updateIntx]; try (repeat' split) <;> simp
@[simp] theorem updateIntx_dict (s : State) : (updateIntx s).dict = s.dict := by
  simp only [updateIntx]; try (repeat' split) <;> simp
@[simp] theorem updateIntx_time (s : State) : (updateIntx s).time = s.time := by
  simp only [updateIntx]; try (repeat' split) <;> simp
@[simp] theorem updateIntx_lp (s : State) : (updateIntx s).lp = s.lp := by
  simp only [updateIntx]; try (repeat' split) <;> simp
@[simp] theorem updateIntx_lau (s : State) : (updateIntx s).lau = s.lau := by
  simp only [updateIntx]; try (repeat' split) <;> simp
@[simp] theorem updateIntx_pos (s : State) : (updateIntx s).pos = s.pos := by
  simp only [updateIntx]; try (repeat' split) <;> simp
@[simp] theorem updateIntx_cel (s : State) : (updateIntx s).cel = s.cel := by
  simp only [updateIntx]; try (repeat' split) <;> simp
@[simp] theorem updateIntx_hyd (s : State) : (updateIntx s).hyd = s.hyd := by
  simp only [updateIntx]; try (repeat' split) <;> simp
@[simp] theorem updateIntx_tap (s : State) : (updateIntx s).tap = s.tap := by
  simp only [updateIntx]; try (repeat' split) <;> simp
@[simp] theorem updateIntx_lamp (s : State) : (updateIntx s).lamp = s.lamp := by
  simp only [updateIntx]; try (repeat' split) <;> simp
@[simp] theorem updateIntx_rk (s : State) : (updateIntx s).rk = s.rk := by
  simp only [updateIntx]; try (repeat' split) <;> simp
@[simp] theorem updateIntx_flt (s : State) : (updateIntx s).flt = s.flt := by
  simp only [updateIntx]; try (repeat' split) <;> simp
@[simp] theorem updateIntx_objs (s : State) : (updateIntx s).objs = s.objs := by
  simp only [updateIntx]; try (repeat' split) <;> simp
@[simp] theorem updateIntx_blobs (s : State) : (updateIntx s).blobs = s.blobs := by
  simp only [updateIntx]; try (repeat' split) <;> simp
@[simp] theorem updateIntx_mem (s : State) : (updateIntx s).mem = s.mem := by
  simp only [updateIntx]; try (repeat' split) <;> simp
@[simp] theorem updateIntx_free (s : State) : (updateIntx s).free = s.free := by
  simp only [updateIntx]; try (repeat' split) <;> simp
@[simp] theorem updateIntx_pending (s : State) : (updateIntx s).pending = s.pending := by
  simp only [updateIntx]; try (repeat' split) <;> simp

/-! ### sendVector -/

@[simp] theorem sendVector_modes (v : Nat) (s : State) : (sendVector v s).modes = s.modes := by
  simp only [sendVector]; try (repeat' split) <;> simp
@[simp] theorem sendVector_fresh (v : Nat) (s : State) : (sendVector v s).fresh = s.fresh := by
  simp only [sendVector]; try (repeat' split) <;> simp
@[simp] theorem sendVector_dict (v : Nat) (s : State) : (sendVector v s).dict = s.dict := by
  simp only [sendVector]; try (repeat' split) <;> simp
@[simp] theorem sendVector_time (v : Nat) (s : State) : (sendVector v s).time = s.time := by
  simp only [sendVector]; try (repeat' split) <;> simp
@[simp] theorem sendVector_lp (v : Nat) (s : State) : (sendVector v s).lp = s.lp := by
  simp only [sendVector]; try (repeat' split) <;> simp
@[simp] theorem sendVector_lau (v : Nat) (s : State) : (sendVector v s).lau = s.lau := by
  simp only [sendVector]; try (repeat' split) <;> simp
@[simp] theorem sendVector_pos (v : Nat) (s : State) : (sendVector v s).pos = s.pos := by
  simp only [sendVector]; try (repeat' split) <;> simp
@[simp] theorem sendVector_cel (v : Nat) (s : State) : (sendVector v s).cel = s.cel := by
  simp only [sendVector]; try (repeat' split) <;> simp
@[simp] theorem sendVector_hyd (v : Nat) (s : State) : (sendVector v s).hyd = s.hyd := by
  simp only [sendVector]; try (repeat' split) <;> simp
@[simp] theorem sendVector_tap (v : Nat) (s : State) : (sendVector v s).tap = s.tap := by
  simp only [sendVector]; try (repeat' split) <;> simp
@[simp] theorem sendVector_lamp (v : Nat) (s : State) : (sendVector v s).lamp = s.lamp := by
  simp only [sendVector]; try (repeat' split) <;> simp
@[simp] theorem sendVector_rk (v : Nat) (s : State) : (sendVector v s).rk = s.rk := by
  simp only [sendVector]; try (repeat' split) <;> simp
@[simp] theorem sendVector_flt (v : Nat) (s : State) : (sendVector v s).flt = s.flt := by
  simp only [sendVector]; try (repeat' split) <;> simp
@[simp] theorem sendVector_blobs (v : Nat) (s : State) : (sendVector v s).blobs = s.blobs := by
  simp only [sendVector]; try (repeat' split) <;> simp
@[simp] theorem sendVector_mem (v : Nat) (s : State) : (sendVector v s).mem = s.mem := by
  simp only [sendVector]; try (repeat' split) <;> simp
@[simp] theorem sendVector_free (v : Nat) (s : State) : (sendVector v s).free = s.free := by
  simp only [sendVector]; try (repeat' split) <;> simp
@[simp] theorem sendVector_pending (v : Nat) (s : State) : (sendVector v s).pending = s.pending := by
  simp only [sendVector]; try (repeat' split) <;> simp

/-! ### countVector -/

@[simp] theorem countVector_modes (v : Nat) (s : State) : (countVector v s).modes = s.modes := by
  simp only [countVector]; try (repeat' split) <;> simp
@[simp] theorem countVector_fresh (v : Nat) (s : State) : (countVector v s).fresh = s.fresh := by
  simp only [countVector]; try (repeat' split) <;> simp
@[simp] theorem countVector_dict (v : Nat) (s : State) : (countVector v s).dict = s.dict := by
  simp only [countVector]; try (repeat' split) <;> simp
@[simp] theorem countVector_time (v : Nat) (s : State) : (countVector v s).time = s.time := by
  simp only [countVector]; try (repeat' split) <;> simp
@[simp] theorem countVector_lp (v : Nat) (s : State) : (countVector v s).lp = s.lp := by
  simp only [countVector]; try (repeat' split) <;> simp
@[simp] theorem countVector_lau (v : Nat) (s : State) : (countVector v s).lau = s.lau := by
  simp only [countVector]; try (repeat' split) <;> simp
@[simp] theorem countVector_pos (v : Nat) (s : State) : (countVector v s).pos = s.pos := by
  simp only [countVector]; try (repeat' split) <;> simp
@[simp] theorem countVector_cel (v : Nat) (s : State) : (countVector v s).cel = s.cel := by
  simp only [countVector]; try (repeat' split) <;> simp
@[simp] theorem countVector_hyd (v : Nat) (s : State) : (countVector v s).hyd = s.hyd := by
  simp only [countVector]; try (repeat' split) <;> simp
@[simp] theorem countVector_tap (v : Nat) (s : State) : (countVector v s).tap = s.tap := by
  simp only [countVector]; try (repeat' split) <;> simp
@[simp] theorem countVector_lamp (v : Nat) (s : State) : (countVector v s).lamp = s.lamp := by
  simp only [countVector]; try (repeat' split) <;> simp
@[simp] theorem countVector_rk (v : Nat) (s : State) : (countVector v s).rk = s.rk := by
  simp only [countVector]; try (repeat' split) <;> simp
@[simp] theorem countVector_flt (v : Nat) (s : State) : (countVector v s).flt = s.flt := by
  simp only [countVector]; try (repeat' split) <;> simp
@[simp] theorem countVector_blobs (v : Nat) (s : State) : (countVector v s).blobs = s.blobs := by
  simp only [countVector]; try (repeat' split) <;> simp
@[simp] theorem countVector_mem (v : Nat) (s : State) : (countVector v s).mem = s.mem := by
  simp only [countVector]; try (repeat' split) <;> simp
@[simp] theorem countVector_free (v : Nat) (s : State) : (countVector v s).free = s.free := by
  simp only [countVector]; try (repeat' split) <;> simp
@[simp] theorem countVector_pending (v : Nat) (s : State) : (countVector v s).pending = s.pending := by
  simp only [countVector]; try (repeat' split) <;> simp

/-! ### fireAt -/

@[simp] theorem fireAt_modes (src ts due : Nat) (late : Bool) (s : State) : (fireAt src ts due late s).modes = s.modes := by
  simp only [fireAt]; try (repeat' split) <;> simp
@[simp] theorem fireAt_fresh (src ts due : Nat) (late : Bool) (s : State) : (fireAt src ts due late s).fresh = s.fresh := by
  simp only [fireAt]; try (repeat' split) <;> simp
@[simp] theorem fireAt_dict (src ts due : Nat) (late : Bool) (s : State) : (fireAt src ts due late s).dict = s.dict := by
  simp only [fireAt]; try (repeat' split) <;> simp
@[simp] theorem fireAt_time (src ts due : Nat) (late : Bool) (s : State) : (fireAt src ts due late s).time = s.time := by
  simp only [fireAt]; try (repeat' split) <;> simp
@[simp] theorem fireAt_lp (src ts due : Nat) (late : Bool) (s : State) : (fireAt src ts due late s).lp = s.lp := by
  simp only [fireAt]; try (repeat' split) <;> simp
@[simp] theorem fireAt_lau (src ts due : Nat) (late : Bool) (s : State) : (fireAt src ts due late s).lau = s.lau := by
  simp only [fireAt]; try (repeat' split) <;> simp
@[simp] theorem fireAt_pos (src ts due : Nat) (late : Bool) (s : State) : (fireAt src ts due late s).pos = s.pos := by
  simp only [fireAt]; try (repeat' split) <;> simp
@[simp] theorem fireAt_cel (src ts due : Nat) (late : Bool) (s : State) : (fireAt src ts due late s).cel = s.cel := by
  simp only [fireAt]; try (repeat' split) <;> simp
@[simp] theorem fireAt_hyd (src ts due : Nat) (late : Bool) (s : State) : (fireAt src ts due late s).hyd = s.hyd := by
  simp only [fireAt]; try (repeat' split) <;> simp
@[simp] theorem fireAt_tap (src ts due : Nat) (late : Bool) (s : State) : (fireAt src ts due late s).tap = s.tap := by
  simp only [fireAt]; try (repeat' split) <;> simp
@[simp] theorem fireAt_lamp (src ts due : Nat) (late : Bool) (s : State) : (fireAt src ts due late s).lamp = s.lamp := by
  simp only [fireAt]; try (repeat' split) <;> simp
@[simp] theorem fireAt_rk (src ts due : Nat) (late : Bool) (s : State) : (fireAt src ts due late s).rk = s.rk := by
  simp only [fireAt]; try (repeat' split) <;> simp
@[simp] theorem fireAt_flt (src ts due : Nat) (late : Bool) (s : State) : (fireAt src ts due late s).flt = s.flt := by
  simp only [fireAt]; try (repeat' split) <;> simp
@[simp] theorem fireAt_blobs (src ts due : Nat) (late : Bool) (s : State) : (fireAt src ts due late s).blobs = s.blobs := by
  simp only [fireAt]; try (repeat' split) <;> simp
@[simp] theorem fireAt_mem (src ts due : Nat) (late : Bool) (s : State) : (fireAt src ts due late s).mem = s.mem := by
  simp only [fireAt]; try (repeat' split) <;> simp
@[simp] theorem fireAt_free (src ts due : Nat) (late : Bool) (s : State) : (fireAt src ts due late s).free = s.free := by
  simp only [fireAt]; try (repeat' split) <;> simp
@[simp] theorem fireAt_pending (src ts due : Nat) (late : Bool) (s : State) : (fireAt src ts due late s).pending = s.pending := by
  simp only [fireAt]; try (repeat' split) <;> simp

/-! ### crossFire -/

@[simp] theorem crossFire_modes (src ts : Nat) (s : State) : (crossFire src ts s).modes = s.modes := rfl
@[simp] theorem crossFire_dict (src ts : Nat) (s : State) : (crossFire src ts s).dict = s.dict := rfl
@[simp] theorem crossFire_time (src ts : Nat) (s : State) : (crossFire src ts s).time = s.time := rfl
@[simp] theorem crossFire_lp (src ts : Nat) (s : State) : (crossFire src ts s).lp = s.lp := rfl
@[simp] theorem crossFire_lau (src ts : Nat) (s : State) : (crossFire src ts s).lau = s.lau := rfl
@[simp] theorem crossFire_pos (src ts : Nat) (s : State) : (crossFire src ts s).pos = s.pos := rfl
@[simp] theorem crossFire_cel (src ts : Nat) (s : State) : (crossFire src ts s).cel = s.cel := rfl
@[simp] theorem crossFire_hyd (src ts : Nat) (s : State) : (crossFire src ts s).hyd = s.hyd := rfl
@[simp] theorem crossFire_tap (src ts : Nat) (s : State) : (crossFire src ts s).tap = s.tap := rfl
@[simp] theorem crossFire_lamp (src ts : Nat) (s : State) : (crossFire src ts s).lamp = s.lamp := rfl
@[simp] theorem crossFire_rk (src ts : Nat) (s : State) : (crossFire src ts s).rk = s.rk := rfl
@[simp] theorem crossFire_link (src ts : Nat) (s : State) : (crossFire src ts s).link = s.link := rfl
@[simp] theorem crossFire_flt (src ts : Nat) (s : State) : (crossFire src ts s).flt = s.flt := rfl
@[simp] theorem crossFire_objs (src ts : Nat) (s : State) : (crossFire src ts s).objs = s.objs := rfl
@[simp] theorem crossFire_blobs (src ts : Nat) (s : State) : (crossFire src ts s).blobs = s.blobs := rfl
@[simp] theorem crossFire_mem (src ts : Nat) (s : State) : (crossFire src ts s).mem = s.mem := rfl
@[simp] theorem crossFire_out (src ts : Nat) (s : State) : (crossFire src ts s).out = s.out := rfl
@[simp] theorem crossFire_fresh (src ts : Nat) (s : State) : (crossFire src ts s).fresh = s.fresh := rfl
@[simp] theorem crossFire_pending (src ts : Nat) (s : State) : (crossFire src ts s).pending = s.pending := rfl

/-! ### fire -/

@[simp] theorem fire_modes (src : Nat) (s : State) : (fire src s).modes = s.modes := by
  simp only [fire]; try (repeat' split) <;> simp
@[simp] theorem fire_fresh (src : Nat) (s : State) : (fire src s).fresh = s.fresh := by
  simp only [fire]; try (repeat' split) <;> simp
@[simp] theorem fire_dict (src : Nat) (s : State) : (fire src s).dict = s.dict := by
  simp only [fire]; try (repeat' split) <;> simp
@[simp] theorem fire_time (src : Nat) (s : State) : (fire src s).time = s.time := by
  simp only [fire]; try (repeat' split) <;> simp
@[simp] theorem fire_lp (src : Nat) (s : State) : (fire src s).lp = s.lp := by
  simp only [fire]; try (repeat' split) <;> simp
@[simp] theorem fire_lau (src : Nat) (s : State) : (fire src s).lau = s.lau := by
  simp only [fire]; try (repeat' split) <;> simp
@[simp] theorem fire_pos (src : Nat) (s : State) : (fire src s).pos = s.pos := by
  simp only [fire]; try (repeat' split) <;> simp
@[simp] theorem fire_cel (src : Nat) (s : State) : (fire src s).cel = s.cel := by
  simp only [fire]; try (repeat' split) <;> simp
@[simp] theorem fire_hyd (src : Nat) (s : State) : (fire src s).hyd = s.hyd := by
  simp only [fire]; try (repeat' split) <;> simp
@[simp] theorem fire_tap (src : Nat) (s : State) : (fire src s).tap = s.tap := by
  simp only [fire]; try (repeat' split) <;> simp
@[simp] theorem fire_lamp (src : Nat) (s : State) : (fire src s).lamp = s.lamp := by
  simp only [fire]; try (repeat' split) <;> simp
@[simp] theorem fire_rk (src : Nat) (s : State) : (fire src s).rk = s.rk := by
  simp only [fire]; try (repeat' split) <;> simp
@[simp] theorem fire_flt (src : Nat) (s : State) : (fire src s).flt = s.flt := by
  simp only [fire]; try (repeat' split) <;> simp
@[simp] theorem fire_blobs (src : Nat) (s : State) : (fire src s).blobs = s.blobs := by
  simp only [fire]; try (repeat' split) <;> simp
@[simp] theorem fire_mem (src : Nat) (s : State) : (fire src s).mem = s.mem := by
  simp only [fire]; try (repeat' split) <;> simp
@[simp] theorem fire_pending (src : Nat) (s : State) : (fire src s).pending = s.pending := by
  simp only [fire]; try (repeat' split) <;> simp

/-! ### fireStamped -/

@[simp] theorem fireStamped_modes (src ts : Nat) (s : State) : (fireStamped src ts s).modes = s.modes := by
  simp only [fireStamped]; try (repeat' split) <;> simp
@[simp] theorem fireStamped_fresh (src ts : Nat) (s : State) : (fireStamped src ts s).fresh = s.fresh := by
  simp only [fireStamped]; try (repeat' split) <;> simp
@[simp] theorem fireStamped_dict (src ts : Nat) (s : State) : (fireStamped src ts s).dict = s.dict := by
  simp only [fireStamped]; try (repeat' split) <;> simp
@[simp] theorem fireStamped_time (src ts : Nat) (s : State) : (fireStamped src ts s).time = s.time := by
  simp only [fireStamped]; try (repeat' split) <;> simp
@[simp] theorem fireStamped_lp (src ts : Nat) (s : State) : (fireStamped src ts s).lp = s.lp := by
  simp only [fireStamped]; try (repeat' split) <;> simp
@[simp] theorem fireStamped_lau (src ts : Nat) (s : State) : (fireStamped src ts s).lau = s.lau := by
  simp only [fireStamped]; try (repeat' split) <;> simp
@[simp] theorem fireStamped_pos (src ts : Nat) (s : State) : (fireStamped src ts s).pos = s.pos := by
  simp only [fireStamped]; try (repeat' split) <;> simp
@[simp] theorem fireStamped_cel (src ts : Nat) (s : State) : (fireStamped src ts s).cel = s.cel := by
  simp only [fireStamped]; try (repeat' split) <;> simp
@[simp] theorem fireStamped_hyd (src ts : Nat) (s : State) : (fireStamped src ts s).hyd = s.hyd := by
  simp only [fireStamped]; try (repeat' split) <;> simp
@[simp] theorem fireStamped_tap (src ts : Nat) (s : State) : (fireStamped src ts s).tap = s.tap := by
  simp only [fireStamped]; try (repeat' split) <;> simp
@[simp] theorem fireStamped_lamp (src ts : Nat) (s : State) : (fireStamped src ts s).lamp = s.lamp := by
  simp only [fireStamped]; try (repeat' split) <;> simp
@[simp] theorem fireStamped_rk (src ts : Nat) (s : State) : (fireStamped src ts s).rk = s.rk := by
  simp only [fireStamped]; try (repeat' split) <;> simp
@[simp] theorem fireStamped_flt (src ts : Nat) (s : State) : (fireStamped src ts s).flt = s.flt := by
  simp only [fireStamped]; try (repeat' split) <;> simp
@[simp] theorem fireStamped_blobs (src ts : Nat) (s : State) : (fireStamped src ts s).blobs = s.blobs := by
  simp only [fireStamped]; try (repeat' split) <;> simp
@[simp] theorem fireStamped_mem (src ts : Nat) (s : State) : (fireStamped src ts s).mem = s.mem := by
  simp only [fireStamped]; try (repeat' split) <;> simp
@[simp] theorem fireStamped_pending (src ts : Nat) (s : State) : (fireStamped src ts s).pending = s.pending := by
  simp only [fireStamped]; try (repeat' split) <;> simp

/-- A kiln-domain source fires at once, at the tick time (R163). -/
theorem fire_kiln {src : Nat} (h : src < 0x100) (s : State) : fire src s = fireAt src (stampNow s) (now s) false s := by
  have : ¬ 0x100 ≤ src := by omega
  simp [fire, mashSource, this]

/-- So it does with the timestamp of its block. -/
theorem fireStamped_kiln {src : Nat} (h : src < 0x100) (ts : Nat) (s : State) : fireStamped src ts s = fireAt src ts (now s) false s := by
  have : ¬ 0x100 ≤ src := by omega
  simp [fireStamped, mashSource, this]

/-- A kiln-domain source takes no free value. -/
theorem fire_free {src : Nat} (h : src < 0x100) (s : State) : (fire src s).free = s.free := by rw [fire_kiln h]; simp

theorem fireStamped_free {src : Nat} (h : src < 0x100) (ts : Nat) (s : State) : (fireStamped src ts s).free = s.free := by
  rw [fireStamped_kiln h]; simp

/-! ### startStore -/

@[simp] theorem startStore_modes (i : StoreItem) (s : State) : (startStore i s).modes = s.modes := by
  simp only [startStore]; try (repeat' split) <;> simp
@[simp] theorem startStore_fresh (i : StoreItem) (s : State) : (startStore i s).fresh = s.fresh := by
  simp only [startStore]; try (repeat' split) <;> simp
@[simp] theorem startStore_time (i : StoreItem) (s : State) : (startStore i s).time = s.time := by
  simp only [startStore]; try (repeat' split) <;> simp
@[simp] theorem startStore_fab (i : StoreItem) (s : State) : (startStore i s).fab = s.fab := by
  simp only [startStore]; try (repeat' split) <;> simp
@[simp] theorem startStore_lp (i : StoreItem) (s : State) : (startStore i s).lp = s.lp := by
  simp only [startStore]; try (repeat' split) <;> simp
@[simp] theorem startStore_lau (i : StoreItem) (s : State) : (startStore i s).lau = s.lau := by
  simp only [startStore]; try (repeat' split) <;> simp
@[simp] theorem startStore_pos (i : StoreItem) (s : State) : (startStore i s).pos = s.pos := by
  simp only [startStore]; try (repeat' split) <;> simp
@[simp] theorem startStore_cel (i : StoreItem) (s : State) : (startStore i s).cel = s.cel := by
  simp only [startStore]; try (repeat' split) <;> simp
@[simp] theorem startStore_hyd (i : StoreItem) (s : State) : (startStore i s).hyd = s.hyd := by
  simp only [startStore]; try (repeat' split) <;> simp
@[simp] theorem startStore_tap (i : StoreItem) (s : State) : (startStore i s).tap = s.tap := by
  simp only [startStore]; try (repeat' split) <;> simp
@[simp] theorem startStore_lamp (i : StoreItem) (s : State) : (startStore i s).lamp = s.lamp := by
  simp only [startStore]; try (repeat' split) <;> simp
@[simp] theorem startStore_rk (i : StoreItem) (s : State) : (startStore i s).rk = s.rk := by
  simp only [startStore]; try (repeat' split) <;> simp
@[simp] theorem startStore_link (i : StoreItem) (s : State) : (startStore i s).link = s.link := by
  simp only [startStore]; try (repeat' split) <;> simp
@[simp] theorem startStore_flt (i : StoreItem) (s : State) : (startStore i s).flt = s.flt := by
  simp only [startStore]; try (repeat' split) <;> simp
@[simp] theorem startStore_objs (i : StoreItem) (s : State) : (startStore i s).objs = s.objs := by
  simp only [startStore]; try (repeat' split) <;> simp
@[simp] theorem startStore_blobs (i : StoreItem) (s : State) : (startStore i s).blobs = s.blobs := by
  simp only [startStore]; try (repeat' split) <;> simp
@[simp] theorem startStore_mem (i : StoreItem) (s : State) : (startStore i s).mem = s.mem := by
  simp only [startStore]; try (repeat' split) <;> simp
@[simp] theorem startStore_out (i : StoreItem) (s : State) : (startStore i s).out = s.out := by
  simp only [startStore]; try (repeat' split) <;> simp
@[simp] theorem startStore_free (i : StoreItem) (s : State) : (startStore i s).free = s.free := by
  simp only [startStore]; try (repeat' split) <;> simp
@[simp] theorem startStore_pending (i : StoreItem) (s : State) : (startStore i s).pending = s.pending := by
  simp only [startStore]; try (repeat' split) <;> simp

/-! ### addLog -/

@[simp] theorem addLog_modes (res cause cls action n : Nat) (s : State) : (addLog res cause cls action n s).modes = s.modes := by
  simp only [addLog]; try (repeat' split) <;> simp
@[simp] theorem addLog_dict (res cause cls action n : Nat) (s : State) : (addLog res cause cls action n s).dict = s.dict := by
  simp only [addLog]; try (repeat' split) <;> simp
@[simp] theorem addLog_time (res cause cls action n : Nat) (s : State) : (addLog res cause cls action n s).time = s.time := by
  simp only [addLog]; try (repeat' split) <;> simp
@[simp] theorem addLog_lp (res cause cls action n : Nat) (s : State) : (addLog res cause cls action n s).lp = s.lp := by
  simp only [addLog]; try (repeat' split) <;> simp
@[simp] theorem addLog_lau (res cause cls action n : Nat) (s : State) : (addLog res cause cls action n s).lau = s.lau := by
  simp only [addLog]; try (repeat' split) <;> simp
@[simp] theorem addLog_pos (res cause cls action n : Nat) (s : State) : (addLog res cause cls action n s).pos = s.pos := by
  simp only [addLog]; try (repeat' split) <;> simp
@[simp] theorem addLog_cel (res cause cls action n : Nat) (s : State) : (addLog res cause cls action n s).cel = s.cel := by
  simp only [addLog]; try (repeat' split) <;> simp
@[simp] theorem addLog_hyd (res cause cls action n : Nat) (s : State) : (addLog res cause cls action n s).hyd = s.hyd := by
  simp only [addLog]; try (repeat' split) <;> simp
@[simp] theorem addLog_tap (res cause cls action n : Nat) (s : State) : (addLog res cause cls action n s).tap = s.tap := by
  simp only [addLog]; try (repeat' split) <;> simp
@[simp] theorem addLog_lamp (res cause cls action n : Nat) (s : State) : (addLog res cause cls action n s).lamp = s.lamp := by
  simp only [addLog]; try (repeat' split) <;> simp
@[simp] theorem addLog_rk (res cause cls action n : Nat) (s : State) : (addLog res cause cls action n s).rk = s.rk := by
  simp only [addLog]; try (repeat' split) <;> simp
@[simp] theorem addLog_blobs (res cause cls action n : Nat) (s : State) : (addLog res cause cls action n s).blobs = s.blobs := by
  simp only [addLog]; try (repeat' split) <;> simp
@[simp] theorem addLog_mem (res cause cls action n : Nat) (s : State) : (addLog res cause cls action n s).mem = s.mem := by
  simp only [addLog]; try (repeat' split) <;> simp
@[simp] theorem addLog_free (res cause cls action n : Nat) (s : State) : (addLog res cause cls action n s).free = s.free := by
  simp only [addLog]; rw [fire_free (by decide)]; simp
@[simp] theorem addLog_pending (res cause cls action n : Nat) (s : State) : (addLog res cause cls action n s).pending = s.pending := by
  simp only [addLog]; try (repeat' split) <;> simp

/-! ### addRetired -/

@[simp] theorem addRetired_modes (res cause reason : Nat) (s : State) : (addRetired res cause reason s).modes = s.modes := by
  simp only [addRetired]; try (repeat' split) <;> simp
@[simp] theorem addRetired_time (res cause reason : Nat) (s : State) : (addRetired res cause reason s).time = s.time := by
  simp only [addRetired]; try (repeat' split) <;> simp
@[simp] theorem addRetired_fab (res cause reason : Nat) (s : State) : (addRetired res cause reason s).fab = s.fab := by
  simp only [addRetired]; try (repeat' split) <;> simp
@[simp] theorem addRetired_lp (res cause reason : Nat) (s : State) : (addRetired res cause reason s).lp = s.lp := by
  simp only [addRetired]; try (repeat' split) <;> simp
@[simp] theorem addRetired_lau (res cause reason : Nat) (s : State) : (addRetired res cause reason s).lau = s.lau := by
  simp only [addRetired]; try (repeat' split) <;> simp
@[simp] theorem addRetired_pos (res cause reason : Nat) (s : State) : (addRetired res cause reason s).pos = s.pos := by
  simp only [addRetired]; try (repeat' split) <;> simp
@[simp] theorem addRetired_cel (res cause reason : Nat) (s : State) : (addRetired res cause reason s).cel = s.cel := by
  simp only [addRetired]; try (repeat' split) <;> simp
@[simp] theorem addRetired_hyd (res cause reason : Nat) (s : State) : (addRetired res cause reason s).hyd = s.hyd := by
  simp only [addRetired]; try (repeat' split) <;> simp
@[simp] theorem addRetired_tap (res cause reason : Nat) (s : State) : (addRetired res cause reason s).tap = s.tap := by
  simp only [addRetired]; try (repeat' split) <;> simp
@[simp] theorem addRetired_lamp (res cause reason : Nat) (s : State) : (addRetired res cause reason s).lamp = s.lamp := by
  simp only [addRetired]; try (repeat' split) <;> simp
@[simp] theorem addRetired_rk (res cause reason : Nat) (s : State) : (addRetired res cause reason s).rk = s.rk := by
  simp only [addRetired]; try (repeat' split) <;> simp
@[simp] theorem addRetired_link (res cause reason : Nat) (s : State) : (addRetired res cause reason s).link = s.link := by
  simp only [addRetired]; try (repeat' split) <;> simp
@[simp] theorem addRetired_blobs (res cause reason : Nat) (s : State) : (addRetired res cause reason s).blobs = s.blobs := by
  simp only [addRetired]; try (repeat' split) <;> simp
@[simp] theorem addRetired_mem (res cause reason : Nat) (s : State) : (addRetired res cause reason s).mem = s.mem := by
  simp only [addRetired]; try (repeat' split) <;> simp
@[simp] theorem addRetired_out (res cause reason : Nat) (s : State) : (addRetired res cause reason s).out = s.out := by
  simp only [addRetired]; try (repeat' split) <;> simp
@[simp] theorem addRetired_free (res cause reason : Nat) (s : State) : (addRetired res cause reason s).free = s.free := by
  simp only [addRetired]; try (repeat' split) <;> simp
@[simp] theorem addRetired_pending (res cause reason : Nat) (s : State) : (addRetired res cause reason s).pending = s.pending := by
  simp only [addRetired]; try (repeat' split) <;> simp

/-! ### logUntracked -/

@[simp] theorem logUntracked_modes (res cause action : Nat) (s : State) : (logUntracked res cause action s).modes = s.modes := by
  simp only [logUntracked]; try (repeat' split) <;> simp
@[simp] theorem logUntracked_dict (res cause action : Nat) (s : State) : (logUntracked res cause action s).dict = s.dict := by
  simp only [logUntracked]; try (repeat' split) <;> simp
@[simp] theorem logUntracked_time (res cause action : Nat) (s : State) : (logUntracked res cause action s).time = s.time := by
  simp only [logUntracked]; try (repeat' split) <;> simp
@[simp] theorem logUntracked_lp (res cause action : Nat) (s : State) : (logUntracked res cause action s).lp = s.lp := by
  simp only [logUntracked]; try (repeat' split) <;> simp
@[simp] theorem logUntracked_lau (res cause action : Nat) (s : State) : (logUntracked res cause action s).lau = s.lau := by
  simp only [logUntracked]; try (repeat' split) <;> simp
@[simp] theorem logUntracked_pos (res cause action : Nat) (s : State) : (logUntracked res cause action s).pos = s.pos := by
  simp only [logUntracked]; try (repeat' split) <;> simp
@[simp] theorem logUntracked_cel (res cause action : Nat) (s : State) : (logUntracked res cause action s).cel = s.cel := by
  simp only [logUntracked]; try (repeat' split) <;> simp
@[simp] theorem logUntracked_hyd (res cause action : Nat) (s : State) : (logUntracked res cause action s).hyd = s.hyd := by
  simp only [logUntracked]; try (repeat' split) <;> simp
@[simp] theorem logUntracked_tap (res cause action : Nat) (s : State) : (logUntracked res cause action s).tap = s.tap := by
  simp only [logUntracked]; try (repeat' split) <;> simp
@[simp] theorem logUntracked_lamp (res cause action : Nat) (s : State) : (logUntracked res cause action s).lamp = s.lamp := by
  simp only [logUntracked]; try (repeat' split) <;> simp
@[simp] theorem logUntracked_rk (res cause action : Nat) (s : State) : (logUntracked res cause action s).rk = s.rk := by
  simp only [logUntracked]; try (repeat' split) <;> simp
@[simp] theorem logUntracked_blobs (res cause action : Nat) (s : State) : (logUntracked res cause action s).blobs = s.blobs := by
  simp only [logUntracked]; try (repeat' split) <;> simp
@[simp] theorem logUntracked_mem (res cause action : Nat) (s : State) : (logUntracked res cause action s).mem = s.mem := by
  simp only [logUntracked]; try (repeat' split) <;> simp
@[simp] theorem logUntracked_free (res cause action : Nat) (s : State) : (logUntracked res cause action s).free = s.free := by
  simp only [logUntracked]; try (repeat' split) <;> simp
@[simp] theorem logUntracked_pending (res cause action : Nat) (s : State) : (logUntracked res cause action s).pending = s.pending := by
  simp only [logUntracked]; try (repeat' split) <;> simp

/-! ### dropRetired -/

@[simp] theorem dropRetired_modes (res : Nat) (s : State) : (dropRetired res s).modes = s.modes := by
  simp only [dropRetired]; try (repeat' split) <;> simp
@[simp] theorem dropRetired_fresh (res : Nat) (s : State) : (dropRetired res s).fresh = s.fresh := by
  simp only [dropRetired]; try (repeat' split) <;> simp
@[simp] theorem dropRetired_time (res : Nat) (s : State) : (dropRetired res s).time = s.time := by
  simp only [dropRetired]; try (repeat' split) <;> simp
@[simp] theorem dropRetired_fab (res : Nat) (s : State) : (dropRetired res s).fab = s.fab := by
  simp only [dropRetired]; try (repeat' split) <;> simp
@[simp] theorem dropRetired_lp (res : Nat) (s : State) : (dropRetired res s).lp = s.lp := by
  simp only [dropRetired]; try (repeat' split) <;> simp
@[simp] theorem dropRetired_lau (res : Nat) (s : State) : (dropRetired res s).lau = s.lau := by
  simp only [dropRetired]; try (repeat' split) <;> simp
@[simp] theorem dropRetired_pos (res : Nat) (s : State) : (dropRetired res s).pos = s.pos := by
  simp only [dropRetired]; try (repeat' split) <;> simp
@[simp] theorem dropRetired_cel (res : Nat) (s : State) : (dropRetired res s).cel = s.cel := by
  simp only [dropRetired]; try (repeat' split) <;> simp
@[simp] theorem dropRetired_hyd (res : Nat) (s : State) : (dropRetired res s).hyd = s.hyd := by
  simp only [dropRetired]; try (repeat' split) <;> simp
@[simp] theorem dropRetired_tap (res : Nat) (s : State) : (dropRetired res s).tap = s.tap := by
  simp only [dropRetired]; try (repeat' split) <;> simp
@[simp] theorem dropRetired_lamp (res : Nat) (s : State) : (dropRetired res s).lamp = s.lamp := by
  simp only [dropRetired]; try (repeat' split) <;> simp
@[simp] theorem dropRetired_rk (res : Nat) (s : State) : (dropRetired res s).rk = s.rk := by
  simp only [dropRetired]; try (repeat' split) <;> simp
@[simp] theorem dropRetired_link (res : Nat) (s : State) : (dropRetired res s).link = s.link := by
  simp only [dropRetired]; try (repeat' split) <;> simp
@[simp] theorem dropRetired_objs (res : Nat) (s : State) : (dropRetired res s).objs = s.objs := by
  simp only [dropRetired]; try (repeat' split) <;> simp
@[simp] theorem dropRetired_blobs (res : Nat) (s : State) : (dropRetired res s).blobs = s.blobs := by
  simp only [dropRetired]; try (repeat' split) <;> simp
@[simp] theorem dropRetired_mem (res : Nat) (s : State) : (dropRetired res s).mem = s.mem := by
  simp only [dropRetired]; try (repeat' split) <;> simp
@[simp] theorem dropRetired_out (res : Nat) (s : State) : (dropRetired res s).out = s.out := by
  simp only [dropRetired]; try (repeat' split) <;> simp
@[simp] theorem dropRetired_free (res : Nat) (s : State) : (dropRetired res s).free = s.free := by
  simp only [dropRetired]; try (repeat' split) <;> simp
@[simp] theorem dropRetired_pending (res : Nat) (s : State) : (dropRetired res s).pending = s.pending := by
  simp only [dropRetired]; try (repeat' split) <;> simp

/-! ### The objects that an interrupt or a fire may count -/

theorem getObj_sendVector {id idx v : Nat} {s : State} (h : Oid.eventsVecSent ≠ id) : getObj (sendVector v s) id idx = getObj s id idx := by
  simp only [sendVector]
  repeat' split
  all_goals first | rfl | (rw [getObj_bump_ne h]; rfl) | exact getObj_congr (assertWake_objs _) _ _

theorem getObj_countVector {id idx v : Nat} {s : State} (h : Oid.eventsVecSent ≠ id) : getObj (countVector v s) id idx = getObj s id idx := by
  simp only [countVector]
  split
  · exact getObj_sendVector h
  · rfl

/-- Firing a source counts it, and a message of its vector; every other object reads as before. -/
theorem getObj_fireAt {id idx src ts due : Nat} {late : Bool} {s : State} (h1 : Oid.eventsSrcCount ≠ id) (h2 : Oid.eventsVecSent ≠ id) :
    getObj (fireAt src ts due late s) id idx = getObj s id idx := by
  have e0 : ∀ u : State, getObj (updateIntx u) id idx = getObj u id idx := fun u => getObj_congr (updateIntx_objs u) id idx
  have e1 : ∀ f, getObj { (bump Oid.eventsSrcCount src s) with fab := f } id idx = getObj s id idx := fun f => getObj_bump_ne h1
  simp only [fireAt]
  (repeat' split) <;> simp only [getObj_congr (arrive_objs _ _), e0, getObj_countVector h2, e1]

theorem getObj_fire {id idx src : Nat} {s : State} (h1 : Oid.eventsSrcCount ≠ id) (h2 : Oid.eventsVecSent ≠ id) :
    getObj (fire src s) id idx = getObj s id idx := by
  simp only [fire]; split
  · rfl
  · exact getObj_fireAt h1 h2


/-! ### relabelFault -/

@[simp] theorem relabelFault_modes (res cause cls action : Nat) (s : State) : (relabelFault res cause cls action s).modes = s.modes := rfl
@[simp] theorem relabelFault_dict (res cause cls action : Nat) (s : State) : (relabelFault res cause cls action s).dict = s.dict := rfl
@[simp] theorem relabelFault_time (res cause cls action : Nat) (s : State) : (relabelFault res cause cls action s).time = s.time := rfl
@[simp] theorem relabelFault_fab (res cause cls action : Nat) (s : State) : (relabelFault res cause cls action s).fab = s.fab := rfl
@[simp] theorem relabelFault_lp (res cause cls action : Nat) (s : State) : (relabelFault res cause cls action s).lp = s.lp := rfl
@[simp] theorem relabelFault_lau (res cause cls action : Nat) (s : State) : (relabelFault res cause cls action s).lau = s.lau := rfl
@[simp] theorem relabelFault_pos (res cause cls action : Nat) (s : State) : (relabelFault res cause cls action s).pos = s.pos := rfl
@[simp] theorem relabelFault_cel (res cause cls action : Nat) (s : State) : (relabelFault res cause cls action s).cel = s.cel := rfl
@[simp] theorem relabelFault_hyd (res cause cls action : Nat) (s : State) : (relabelFault res cause cls action s).hyd = s.hyd := rfl
@[simp] theorem relabelFault_tap (res cause cls action : Nat) (s : State) : (relabelFault res cause cls action s).tap = s.tap := rfl
@[simp] theorem relabelFault_lamp (res cause cls action : Nat) (s : State) : (relabelFault res cause cls action s).lamp = s.lamp := rfl
@[simp] theorem relabelFault_rk (res cause cls action : Nat) (s : State) : (relabelFault res cause cls action s).rk = s.rk := rfl
@[simp] theorem relabelFault_link (res cause cls action : Nat) (s : State) : (relabelFault res cause cls action s).link = s.link := rfl
@[simp] theorem relabelFault_objs (res cause cls action : Nat) (s : State) : (relabelFault res cause cls action s).objs = s.objs := rfl
@[simp] theorem relabelFault_blobs (res cause cls action : Nat) (s : State) : (relabelFault res cause cls action s).blobs = s.blobs := rfl
@[simp] theorem relabelFault_mem (res cause cls action : Nat) (s : State) : (relabelFault res cause cls action s).mem = s.mem := rfl
@[simp] theorem relabelFault_out (res cause cls action : Nat) (s : State) : (relabelFault res cause cls action s).out = s.out := rfl
@[simp] theorem relabelFault_free (res cause cls action : Nat) (s : State) : (relabelFault res cause cls action s).free = s.free := rfl
@[simp] theorem relabelFault_fresh (res cause cls action : Nat) (s : State) : (relabelFault res cause cls action s).fresh = s.fresh := rfl
@[simp] theorem relabelFault_pending (res cause cls action : Nat) (s : State) : (relabelFault res cause cls action s).pending = s.pending := rfl

/-! ### recordFault -/

@[simp] theorem recordFault_modes (res cause : Nat) (permanent : Bool) (s : State) : (recordFault res cause permanent s).1.modes = s.modes := by
  simp only [recordFault]; (repeat' split) <;> simp
@[simp] theorem recordFault_time (res cause : Nat) (permanent : Bool) (s : State) : (recordFault res cause permanent s).1.time = s.time := by
  simp only [recordFault]; (repeat' split) <;> simp
@[simp] theorem recordFault_lp (res cause : Nat) (permanent : Bool) (s : State) : (recordFault res cause permanent s).1.lp = s.lp := by
  simp only [recordFault]; (repeat' split) <;> simp
@[simp] theorem recordFault_lau (res cause : Nat) (permanent : Bool) (s : State) : (recordFault res cause permanent s).1.lau = s.lau := by
  simp only [recordFault]; (repeat' split) <;> simp
@[simp] theorem recordFault_pos (res cause : Nat) (permanent : Bool) (s : State) : (recordFault res cause permanent s).1.pos = s.pos := by
  simp only [recordFault]; (repeat' split) <;> simp
@[simp] theorem recordFault_cel (res cause : Nat) (permanent : Bool) (s : State) : (recordFault res cause permanent s).1.cel = s.cel := by
  simp only [recordFault]; (repeat' split) <;> simp
@[simp] theorem recordFault_hyd (res cause : Nat) (permanent : Bool) (s : State) : (recordFault res cause permanent s).1.hyd = s.hyd := by
  simp only [recordFault]; (repeat' split) <;> simp
@[simp] theorem recordFault_tap (res cause : Nat) (permanent : Bool) (s : State) : (recordFault res cause permanent s).1.tap = s.tap := by
  simp only [recordFault]; (repeat' split) <;> simp
@[simp] theorem recordFault_lamp (res cause : Nat) (permanent : Bool) (s : State) : (recordFault res cause permanent s).1.lamp = s.lamp := by
  simp only [recordFault]; (repeat' split) <;> simp
@[simp] theorem recordFault_rk (res cause : Nat) (permanent : Bool) (s : State) : (recordFault res cause permanent s).1.rk = s.rk := by
  simp only [recordFault]; (repeat' split) <;> simp
@[simp] theorem recordFault_blobs (res cause : Nat) (permanent : Bool) (s : State) : (recordFault res cause permanent s).1.blobs = s.blobs := by
  simp only [recordFault]; (repeat' split) <;> simp
@[simp] theorem recordFault_mem (res cause : Nat) (permanent : Bool) (s : State) : (recordFault res cause permanent s).1.mem = s.mem := by
  simp only [recordFault]; (repeat' split) <;> simp
@[simp] theorem recordFault_free (res cause : Nat) (permanent : Bool) (s : State) : (recordFault res cause permanent s).1.free = s.free := by
  simp only [recordFault]; (repeat' split) <;> simp
@[simp] theorem recordFault_pending (res cause : Nat) (permanent : Bool) (s : State) : (recordFault res cause permanent s).1.pending = s.pending := by
  simp only [recordFault]; (repeat' split) <;> simp

end Sys2Proof.Machine
end

