-- ==== Sys2Proof/Laws/WriteRow.lean ====
section
/-! SUPPORT. A WRITE of one object that its transport hands over and that passes the checks takes place: what the rows of one object have in common. -/

namespace Sys2Proof.Machine

open Sys2Proof

theorem leNat_leBytes (n v : Nat) : leNat (leBytes n v) = v % 256 ^ n := by
  induction n generalizing v with
  | zero => simp [leBytes, leNat, Nat.mod_one]
  | succ n ih =>
    rw [leBytes, leNat, ih, BitVec.toNat_ofNat]
    have e : 256 ^ (n + 1) = 256 * 256 ^ n := by rw [Nat.pow_succ, Nat.mul_comm]
    rw [e, Nat.mod_mul, show (2 : Nat) ^ 8 = 256 from rfl, Nat.mod_mod]

theorem beNat_beBytes (n v : Nat) : beNat (beBytes n v) = v % 256 ^ n := by
  simp [beNat, beBytes, leNat_leBytes]

theorem leBytes_length (n v : Nat) : (leBytes n v).length = n := by
  induction n generalizing v with
  | zero => rfl
  | succ n ih => simp [leBytes, ih]

theorem beBytes_length (n v : Nat) : (beBytes n v).length = n := by simp [beBytes, leBytes_length]

theorem numIn_numOut (le : Bool) (n v : Nat) : numIn le (numOut le n v) = v % 256 ^ n := by
  cases le <;> simp [numIn, numOut, leNat_leBytes, beNat_beBytes]

theorem numOut_length (le : Bool) (n v : Nat) : (numOut le n v).length = n := by
  cases le <;> simp [numOut, leBytes_length, beBytes_length]

theorem padTo_self (v : List Byte) : padTo v.length v = v := by simp [padTo]

theorem padTo_padded (n : Nat) (v : List Byte) (h : v.length ≤ n) : padTo v.length (padTo n v) = v := by
  have e : padTo n v = v ++ List.replicate (n - v.length) 0 := by
    unfold padTo
    rw [List.take_of_length_le]
    simp; omega
  rw [e, padTo, List.append_assoc, List.take_left']
  rfl

/-- A mailbox's request area begins with what the host wrote last. -/
theorem padTo_mailboxArea (v old : List Byte) (h : v.length ≤ 1984) : padTo v.length (mailboxArea v old) = v := by
  rw [mailboxArea, List.take_of_length_le h, padTo, List.append_assoc, List.take_left']
  rfl

/-- The index and the value a WRITE's payload carries. -/
theorem indexOf_valuePayload (q : Req) (r : ObjRow) (idx : Nat) (v : List Byte) (hr : objRow? q.id = some r)
    (hp : q.payload = writePayload q.le q.id idx v) (hi : idx < 65536) (hx : idx < r.indices ∨ r.indices = 0 ∧ idx = 0) :
    indexOf q r = (idx, v) := by
  have hl := numOut_length q.le 2 idx
  have hq : q.payload = (if r.indices = 0 then [] else numOut q.le 2 idx) ++ v := by rw [hp]; simp only [writePayload, hr]
  by_cases h0 : r.indices = 0
  · have hz : idx = 0 := by omega
    rw [if_pos h0, List.nil_append] at hq
    rw [indexOf, if_pos h0, hq, hz]
  · rw [if_neg h0] at hq
    have e1 : q.payload.take 2 = numOut q.le 2 idx := by rw [hq, List.take_left' hl]
    have e2 : q.payload.drop 2 = v := by rw [hq, List.drop_left' hl]
    rw [indexOf, if_neg h0, e1, e2, numIn_numOut, Nat.mod_eq_of_lt (by omega)]

/-- A direct WRITE that passes the checks is committed. -/
theorem serve_commit (q : Req) (idx : Nat) (v : PVal) (u : State)
    (hop : q.op = 2) (ht : q.target = 0) (hm : q.masked = false) (hh : q.header = 0)
    (hp : q.payload = valuePayload q.le q.id idx v) (hc : PassesChecks q idx v u) :
    serve q u = ({ status := (commitLive q idx v u).1, payload := writePayload q.le q.id idx [] }, (commitLive q idx v u).2) := by
  obtain ⟨r, hr, hid, hlt, hx, hsec, hsrv, hacc, hdec, hlive, htr, hcon⟩ := hc
  have hp' : q.payload = writePayload q.le q.id idx (encodeValue q.le r.type v) := by rw [hp]; simp [valuePayload, hr]
  have hio := indexOf_valuePayload q r idx _ hr hp' hlt hx
  have hop' : opStatus q = St.ok := by simp [opStatus, hop, hr]
  have hhs : headerStatus q = St.ok := by simp [headerStatus, ht, hh]
  have hist : indexStatus q r = St.ok := by
    have : r.indices = 0 ∨ idx < r.indices := by omega
    simp only [indexStatus, hio]; rcases this with h | h <;> simp [h]
  have hgiven : indexGiven q r = true := by
    by_cases h0 : r.indices = 0
    · simp [indexGiven, h0]
    · have : 2 ≤ q.payload.length := by
        rw [hp']; simp only [writePayload, hr, h0, if_false, List.length_append, numOut_length]; omega
      simp [indexGiven, this]
  have hobj : objectStatus u q r = St.ok := by
    simp [objectStatus, hgiven, hio, hist, hsec, hsrv, hacc, firstBad]
  have hout : indexOut q r idx = writePayload q.le q.id idx [] := by simp [indexOut, writePayload, hr]
  have hid' : ¬ (0x80 ≤ q.id / 65536) := by omega
  simp only [serve, hop', hhs, ne_eq, not_true, if_false, hop, hid', hr, serveObject, hobj, hio, serveWrite, writeValue, hm, ht,
    hdec, writtenPart, htr, carryIndex, hgiven, ← hout]
  by_cases hk : (commitLive q idx v u).1 = St.ok <;> simp [hlive, hk, ackOr, deny]

/-- A direct WRITE that passes the checks is served with the effect of its value: OK, or FLASH where a key object's flash operation has failed. -/
theorem commit_write (q : Req) (idx : Nat) (v : PVal) (u : State) (hc : PassesChecks q idx v u) (hn : planWrite q.id u = none) :
    commitLive q idx v u = (flashStatus q.id u (applyWrite q.id idx v (firerOf q.who) q.fails u), applyWrite q.id idx v (firerOf q.who) q.fails u) := by
  obtain ⟨r, -, -, -, -, -, -, -, -, -, -, hcon⟩ := hc
  simp [commitLive, hn, hcon]

/-- Only the key objects of flash operations answer with FLASH. -/
theorem flashStatus_other {id : Nat} (h1 : id ≠ Oid.modesFwCommit) (h2 : id ≠ Oid.dictPersistClear) (u t : State) :
    flashStatus id u t = St.ok := by simp [flashStatus, h1, h2]

/-- A request owed an answer, with its effect; a pitch that was due has taken place. -/
theorem request_of_serve (h : Handed) (b : State) (idx : Nat) (st : Nat) (t : State) (hb : h.before = duePitch b) (hop : h.req.op = 2)
    (hf : h.req.faulted = false) (hs : serve h.req h.before = ({ status := st, payload := writePayload h.req.le h.req.id idx [] }, t)) :
    request h.req h.reply b = answered h idx st t := by
  simp only [request, ← hb, hf, Bool.false_eq_true, if_false, hs, respond, answered, hop]

/-- What is handed over is a direct WRITE of the value, in one message, in the state that a due pitch leaves. -/
theorem handed_req {via : Via} {id idx : Nat} {v : PVal} {fails : Option (List Nat)} {s : State} {h : Handed}
    (hh : handed via id idx v fails s = some h) :
    (∃ g, conveyed via id idx v fails s = some g ∧ h.req = g.req ∧ h.reply = g.reply ∧ h.before = duePitch g.before) ∧
    h.req.payload.length ≤ 1408 ∧ h.req.faulted = false ∧
    h.req.op = 2 ∧ h.req.target = 0 ∧ h.req.masked = false ∧ h.req.header = 0 ∧ h.req.id = id ∧ h.req.fails = fails ∧
      h.req.payload = valuePayload h.req.le id idx v := by
  simp only [handed, Option.map_eq_some_iff, Option.filter_eq_some_iff, decide_eq_true_eq] at hh
  obtain ⟨g, ⟨hg, hl⟩, rfl⟩ := hh
  refine ⟨⟨g, hg, rfl, rfl, rfl⟩, hl, ?_⟩
  cases via <;> simp only [conveyed] at hg
  · split at hg
    · cases hg; simp
    · cases hg
  · split at hg
    · cases hg
    · split at hg
      · cases hg; simp
      · cases hg
  · split at hg
    · cases hg; simp
    · cases hg
  · split at hg
    · cases hg; simp
    · cases hg

/-- The request that a signed WRITE carries. -/
theorem linobReq_signed (who : Initiator) (src : Option Endpoint) (secure : Bool) (key : List Byte) (seq n id : Nat) (p : List Byte)
    (hp : p.length ≤ 1408) : linobReq who src secure (signedMsg key 2 seq n id p) =
      { who := who, src := src, secure := secure, le := false, op := 2, id := id, payload := p } := by
  have e : ¬ 1408 < p.length := by omega
  simp [linobReq, linobHeaderStatus, signedMsg, bit, e]

theorem signedMsg_trailer (key : List Byte) (op seq n id : Nat) (p : List Byte) :
    (signedMsg key op seq n id p).trailer = (hmacSha256 key (signedMsg key op seq n id p).body).take 16 := rfl
theorem signedMsg_session (key : List Byte) (op seq n id : Nat) (p : List Byte) : (signedMsg key op seq n id p).session = n := rfl
theorem signedMsg_seq (key : List Byte) (op seq n id : Nat) (p : List Byte) : (signedMsg key op seq n id p).seq = seq := rfl
theorem signedMsg_version (key : List Byte) (op seq n id : Nat) (p : List Byte) : (signedMsg key op seq n id p).version = 1 := rfl
theorem signedMsg_obj (key : List Byte) (op seq n id : Nat) (p : List Byte) : (signedMsg key op seq n id p).obj = id := rfl

/-- A row of one object hands its WRITE to the server. -/
theorem viaWrite_conveyed (via : Via) (id idx : Nat) (v : PVal) (fails : Option (List Nat)) (s : State) (g : Handed)
    (hh : conveyed via id idx v fails s = some g) (hl : g.req.payload.length ≤ 1408) (hid : id / 65536 < 0x80) :
    viaWrite via id idx v fails s = request g.req g.reply g.before := by
  cases via with
  | firmware =>
    simp only [conveyed] at hh
    split at hh
    · next hd =>
      cases hh
      simp only [viaWrite, viaBytes, hd, if_true]
      rfl
    · cases hh
  | mailbox m seq =>
    simp only [conveyed] at hh
    split at hh
    · next hd =>
      cases hh
      have hp : (valuePayload true id idx v).length ≤ 1408 := hl
      simp only [Bool.and_eq_true, bne_iff_ne] at hd
      have hb : (!bar0Writable s) = false := by simp [hd.1]
      show mailboxRequest m.val (BitVec.ofNat 32 (seq.toNat * 65536 + 2)) (BitVec.ofNat 32 id)
        (BitVec.ofNat 32 (valuePayload true id idx v).length) (valuePayload true id idx v) fails false s = _
      have h32 : id < 2 ^ 32 := by omega
      have hpl : (BitVec.ofNat 32 (valuePayload true id idx v).length).toNat = (valuePayload true id idx v).length := by
        simp; omega
      have hid' : (BitVec.ofNat 32 id).toNat = id := by simp; omega
      have hseq := seq.isLt
      have hcmd : (BitVec.ofNat 32 (seq.toNat * 65536 + 2)).toNat = seq.toNat * 65536 + 2 := by simp; omega
      have hdiv : (seq.toNat * 65536 + 2) / 65536 = seq.toNat := by omega
      have hreq : ∀ old, mailboxReq m.val (seq.toNat * 65536 + 2) id (valuePayload true id idx v).length
          (mailboxArea (valuePayload true id idx v) old) =
          { who := .mailbox m.val, secure := false, le := true, op := 2, id := id, payload := valuePayload true id idx v } := by
        intro old
        have e10 := padTo_mailboxArea (valuePayload true id idx v) old (by omega)
        have t10 : (seq.toNat * 65536 + 2).testBit 10 = false := by
          rw [Nat.testBit_eq_decide_div_mod_eq]; simp; omega
        have t11 : (seq.toNat * 65536 + 2).testBit 11 = false := by
          rw [Nat.testBit_eq_decide_div_mod_eq]; simp; omega
        have e1 : bits (seq.toNat * 65536 + 2) 15 12 = 0 := by simp [bits]; omega
        have e2 : bits (seq.toNat * 65536 + 2) 9 8 = 0 := by simp [bits]; omega
        have e3 : bits id 31 24 = 0 := by simp [bits]; omega
        have e4 : bits (valuePayload true id idx v).length 31 16 = 0 := by simp [bits]; omega
        have e5 : (seq.toNat * 65536 + 2) % 256 = 2 := by omega
        have e6 : (valuePayload true id idx v).length % 65536 = (valuePayload true id idx v).length := by omega
        have e7 : min (valuePayload true id idx v).length 1984 = (valuePayload true id idx v).length := by omega
        have e8 : id % 16777216 = id := by omega
        have e9 : ¬ 1984 < (valuePayload true id idx v).length := by omega
        simp [mailboxReq, mailboxHeader, bit, t10, t11, e1, e2, e3, e4, e5, e6, e7, e8, e9, e10]
      simp only [mailboxRequest, hb, Bool.false_eq_true, if_false, hcmd, hid', hpl, hreq, hdiv]
      rw [if_neg]
      · simp [doorbell]
      · exact hd.2
    · cases hh
  | session n seq =>
    simp only [conveyed] at hh
    split at hh
    · cases hh
    · next x hx =>
      split at hh
      · next hd =>
        cases hh
        have hp : (valuePayload false id idx v).length ≤ 1408 := hl
        simp only [Bool.and_eq_true, Bool.not_eq_true', decide_eq_true_eq] at hd
        obtain ⟨⟨h1, h2⟩, h3⟩ := hd
        have e1 : (!dictServed s) = false := by simp [h1]
        show (if !dictServed s then s else match sessionOf s n.toNat with
          | none => authFailure s
          | some x => receiveSession x.src (signedMsg x.key 2 seq.toNat n.toNat id (valuePayload false id idx v)) fails false s) = _
        have e3 : sessionOf s (signedMsg x.key 2 seq.toNat n.toNat id (valuePayload false id idx v)).session = some x := hx
        have e4 : ¬ seq.toNat < x.highest := by omega
        have e5 : ¬ seq.toNat = x.highest := by omega
        simp [e1, hx, receiveSession, h2, linobReq_signed _ _ _ _ _ _ _ _ hp, signedMsg_trailer, signedMsg_session, signedMsg_seq,
          signedMsg_version, signedMsg_obj, e4, e5]
      · cases hh
  | broadcast seq =>
    simp only [conveyed] at hh
    split at hh
    · next hd =>
      cases hh
      have hp : (valuePayload false id idx v).length ≤ 1408 := hl
      simp only [Bool.and_eq_true, Bool.not_eq_true', decide_eq_true_eq, bne_iff_ne] at hd
      obtain ⟨⟨⟨h1, h2⟩, h3⟩, h4⟩ := hd
      have e1 : (!dictServed s) = false := by simp [h1]
      show (if !dictServed s then s else
        takeBroadcast (signedMsg (getBlob s Oid.dictKey 7) 2 seq.toNat 0xFFFE id (valuePayload false id idx v)) fails false s) = _
      have e4 : ¬ seq.toNat < s.dict.bcastSeq := by omega
      simp [e1, takeBroadcast, h3, h2, linobReq_signed _ _ _ _ _ _ _ _ hp, signedMsg_trailer, signedMsg_session, signedMsg_seq,
        signedMsg_version, e4]
      rfl
    · cases hh

/-- What is handed over reaches the server in the state before a due pitch. -/
theorem viaWrite_handed {via : Via} {id idx : Nat} {v : PVal} {fails : Option (List Nat)} {s : State} {h : Handed}
    (hh : handed via id idx v fails s = some h) (hid : id / 65536 < 0x80) :
    ∃ b, h.before = duePitch b ∧ viaWrite via id idx v fails s = request h.req h.reply b := by
  obtain ⟨⟨g, hg, e1, e2, e3⟩, hl, -⟩ := handed_req hh
  exact ⟨g.before, e3, by rw [viaWrite_conveyed via id idx v fails s g hg (e1 ▸ hl) hid, e1, e2]⟩

/-- A row whose meaning is a WRITE of one object, handed over and past the checks: it is answered as it was committed. -/
theorem commitRow (c : Instr) (via : Via) (id idx : Nat) (v : PVal) (fails : Option (List Nat)) (f : Req → State → Nat × State)
    (hx : ∀ s, exec c s = .next (viaWrite via id idx v fails s))
    (hf : ∀ q u, PassesChecks q idx v u → q.id = id → q.fails = fails → commitLive q idx v u = f q u) :
    WriteRow c via id idx v fails f := by
  intro s h hh hc
  obtain ⟨-, -, e0, e1, e2, e3, e4, e5, e6, e7⟩ := handed_req hh
  have hid : id / 65536 < 0x80 := by
    obtain ⟨r, -, hid, -⟩ := hc
    rw [← e5]; exact hid
  obtain ⟨b, hb, e⟩ := viaWrite_handed hh hid
  have hs := serve_commit h.req idx v h.before e1 e2 e3 e4 (by rw [e5]; exact e7) hc
  rw [hf h.req h.before hc e5 e6] at hs
  rw [hx, e, request_of_serve h b idx _ _ hb e1 e0 hs]

/-- A row whose meaning is a WRITE of one object that starts no flash operation of a key: handed over and past the checks, it is answered OK with the effect of its value. -/
theorem writeRow (c : Instr) (via : Via) (id idx : Nat) (v : PVal) (fails : Option (List Nat)) (f : Req → State → State)
    (hx : ∀ s, exec c s = .next (viaWrite via id idx v fails s)) (hn : ∀ u, planWrite id u = none)
    (h1 : id ≠ Oid.modesFwCommit) (h2 : id ≠ Oid.dictPersistClear)
    (hf : ∀ q u, PassesChecks q idx v u → q.id = id → q.fails = fails → applyWrite id idx v (firerOf q.who) fails u = f q u) :
    WriteRow c via id idx v fails (fun q u => (St.ok, f q u)) := by
  refine commitRow c via id idx v fails _ hx ?_
  intro q u hc e5 e6
  rw [commit_write q idx v u hc (by rw [e5]; exact hn u), flashStatus_other (e5 ▸ h1) (e5 ▸ h2), e5, e6, hf q u hc e5 e6]

/-- The row of an object of quad q is that of its ID in group 0x10. -/
theorem objRow?_quad (id q : Nat) (hid : id / 65536 = 16) (hq : q < 16) :
    objRow? (quadId id q) = (objRow? id).map (fun r => { r with id := quadId id q }) := by
  have hg : quadId id q / 65536 = 16 + q := by unfold quadId; omega
  have e1 : isQuadGroup (16 + q) = true := by simp; omega
  have e2 : quadId id q - (16 + q - 16) * 65536 = id := by unfold quadId; omega
  have e3 : id - (16 - 16) * 65536 = id := by omega
  have e4 : isQuadGroup 16 = true := by decide
  simp only [objRow?, hg, hid, e1, e2, e3, e4, if_true, Option.map_map]
  rfl

/-- A write of an object of quad q acts on the quad. -/
theorem effect_quad (id q idx : Nat) (v : PVal) (f : Firer) (fails : Option (List Nat)) (s : State) (hid : id / 65536 = 16) (hq : q < 16) :
    effect (quadId id q) idx v f fails s = effQuad id q idx (valNum v) s := by
  have hg : quadId id q / 65536 = 16 + q := by unfold quadId; omega
  have e1 : isQuadGroup (16 + q) = true := by simp; omega
  have e3 : 16 + q - 16 = q := by omega
  have e2 : quadId id q - q * 65536 = id := by unfold quadId; omega
  simp only [effect, hg, e1, if_true, e3, e2]

/-- A write of a stored number of quad q: its effect, and its store where the object persists. -/
theorem applyWrite_quad (id q idx : Nat) (v : PVal) (f : Firer) (fails : Option (List Nat)) (s : State) (r : ObjRow)
    (hid : id / 65536 = 16) (hq : q < 16) (hr : objRow? id = some r) (hm : stickyBits r = 0) :
    applyWrite (quadId id q) idx v f fails s =
      if r.access.persist then startStore (.object (objKey (quadId id q) idx)) (effQuad id q idx (valNum v) s)
      else effQuad id q idx (valNum v) s := by
  have hr' : objRow? (quadId id q) = some { r with id := quadId id q } := by rw [objRow?_quad id q hid hq, hr]; rfl
  have hm' : stickyBits { r with id := quadId id q } = 0 := hm
  simp only [applyWrite, hr', hm', effect_quad id q idx v f fails s hid hq]
  simp

/-- No plan write is among the objects of the quads. -/
theorem planWrite_quad (id q : Nat) (s : State) (hid : id / 65536 = 16) (hq : q < 16) : planWrite (quadId id q) s = none := by
  have hg : quadId id q / 65536 = 16 + q := by unfold quadId; omega
  have e : ∀ k, k / 65536 = 124 → ¬ quadId id q / 16 * 16 = k := by intro k hk; omega
  simp only [planWrite]
  rw [if_neg (e _ (by decide)), if_neg (e _ (by decide)), if_neg (e _ (by decide))]

end Sys2Proof.Machine
end

