-- ==== Sys2Proof/Laws/Request.lean ====
section
/-! SUPPORT. A request that its transport hands over is served and answered: what the rows of Table 3.4 have in common. -/

namespace Sys2Proof.Machine

open Sys2Proof

theorem receiveLinob_handed (src : Endpoint) (d : List Byte) (s : State) (h : Handed) (hh : linobHanded src d s = some h) :
    dictServed s = true ∧ h.req.faulted = false ∧ receiveLinob src d false s = request h.req h.reply h.before := by
  simp only [linobHanded] at hh
  split at hh
  · next hd =>
    refine ⟨hd, ?_⟩
    split at hh
    · next m hm =>
      split at hh
      · next ho =>
        have e1 : ¬ 128 ≤ m.op := by omega
        simp only [conveyedLinob] at hh
        by_cases hz : m.session = 0
        · rw [if_pos hz] at hh
          split at hh
          · next hc =>
            cases hh
            exact ⟨rfl, by simp [receiveLinob, hm, e1, hz, receiveOpen, hc.1, hc.2]; rfl⟩
          · cases hh
        · rw [if_neg hz] at hh
          split at hh
          · cases hh
          · next x hx =>
            split at hh
            · next hc =>
              obtain ⟨c1, c2, c3, c4⟩ := hc
              cases hh
              rcases c3 with ⟨hf, c3⟩ | ⟨hf, c3⟩
              · refine ⟨rfl, ?_⟩
                simp [receiveLinob, hm, e1, hz, receiveSession, hx, c1, c2, c4, hf, c3]
                rfl
              · have e2 : ¬ m.seq < x.highest := by omega
                have e3 : ¬ m.seq = x.highest := by omega
                refine ⟨rfl, ?_⟩
                simp [receiveLinob, hm, e1, hz, receiveSession, hx, c1, c2, c4, hf, e2, e3]
                rfl
            · cases hh
      · cases hh
    · cases hh
  · cases hh

theorem linobHanded_op (src : Endpoint) (d : List Byte) (s : State) (h : Handed) (hh : linobHanded src d s = some h) :
    byteAt d 3 = h.req.op := by
  simp only [linobHanded] at hh
  split at hh
  · split at hh
    · next m hm =>
      have hop : m.op = byteAt d 3 := by
        simp only [parseMsg] at hm
        split at hm
        · cases hm
        · cases hm; rfl
      split at hh
      · simp only [conveyedLinob] at hh
        split at hh
        · split at hh
          · cases hh; exact hop.symm
          · cases hh
        · split at hh
          · cases hh
          · split at hh
            · cases hh; exact hop.symm
            · cases hh
      · cases hh
    · cases hh
  · cases hh

/-- A request that its transport delivers reaches the server. -/
theorem arrives_delivered (q : Transport) (s : State) (h : Handed) (hh : delivered q s = some h) :
    arrives q s = request h.req h.reply h.before ∧ transportOp q = h.req.op ∧ h.req.faulted = false := by
  simp only [arrives]
  cases q with
  | mailbox m cmd obj len req =>
    simp only [delivered] at hh
    split at hh
    · next hc =>
      cases hh
      simp only [Bool.and_eq_true, bne_iff_ne] at hc
      refine ⟨?_, rfl, rfl⟩
      have hb : (!bar0Writable s) = false := by simp [hc.1]
      simp only [arrivesWith, mailboxRequest, hb, Bool.false_eq_true, if_false]
      rw [if_neg (show ¬ (mboxOf (barAccess s) m.val).phase = .busy from hc.2)]
      rfl
    · cases hh
  | mgmt ip udp d =>
    have hr := receiveLinob_handed _ d s h hh
    exact ⟨by simp [arrivesWith, hr.1, hr.2.2], linobHanded_op _ d s h hh, hr.2.1⟩
  | cascade k src hops d =>
    simp only [delivered] at hh
    split at hh
    · next hl =>
      have hr := receiveLinob_handed _ d _ h hh
      exact ⟨by simp [arrivesWith, hl, hr.1, hr.2.2], linobHanded_op _ d _ h hh, hr.2.1⟩
    · cases hh
  | broadcast k src seq hops d =>
    simp only [delivered] at hh
    split at hh
    · next hl =>
      split at hh
      · cases hh
      · next m hm =>
        split at hh
        · next hc =>
          obtain ⟨c1, c2, c3, c4, c5, c6, c7⟩ := hc
          cases hh
          simp only [Bool.and_eq_true] at hl
          have hop : m.op = byteAt d 3 := by
            simp only [parseMsg] at hm
            split at hm
            · cases hm
            · cases hm; rfl
          refine ⟨?_, hop.symm, rfl⟩
          have e1 : ¬ 128 ≤ m.op := by omega
          have e2 := Nat.not_lt.mpr c6
          simp [arrivesWith, hl.1, hl.2, receiveBroadcast, hm, e1, takeBroadcast, c2, c3, c4, ← c5, e2, c7]
          rfl
        · cases hh
    · cases hh
  | firmware op flags obj payload =>
    simp only [delivered] at hh
    split at hh
    · next hd =>
      cases hh
      exact ⟨by simp [arrivesWith, hd]; rfl, rfl, rfl⟩
    · cases hh
  | faulted q => cases hh


/-- A request that its transport hands over reaches the server, in the state before a due pitch. -/
theorem arrives_carried (q : Transport) (s : State) (h : Handed) (hh : carried q s = some h) :
    (∃ b, h.before = duePitch b ∧ arrives q s = request h.req h.reply b) ∧ transportOp q = h.req.op ∧ h.req.faulted = false := by
  simp only [carried, Option.map_eq_some_iff] at hh
  obtain ⟨g, hg, rfl⟩ := hh
  obtain ⟨e1, e2, e3⟩ := arrives_delivered q s g hg
  exact ⟨⟨g.before, rfl, e1⟩, e2, e3⟩

/-- A request handed over and past steps 1 to 6 is answered as its operation on the object says; a refusal carries the index (R80). -/
theorem request_checked (h : Handed) (b : State) (r : ObjRow) (a : Answer) (t : State) (hb : h.before = duePitch b) (hf : h.req.faulted = false)
    (hc : Checked h r) (h7 : h.req.op ≠ 7) (h8 : h.req.op ≠ 8) (hs : carryIndex h.req r (serveObject h.req r h.before) = (a, t))
    (ha : a.ended = .none) (hd : a.held = false) : request h.req h.reply b = replied h a t := by
  obtain ⟨hr, hid, ho, hh, -⟩ := hc
  have e : ¬ 0x80 ≤ h.req.id / 65536 := by omega
  have hs' : serve h.req h.before = (a, t) := by simp [serve, ho, hh, h7, h8, e, hr, hs]
  simp only [request, ← hb, hf, Bool.false_eq_true, if_false, hs', ha, hd, respond, replied]

/-- An answer of OK needs no index carried into it. -/
theorem carryIndex_ok {q : Req} {r : ObjRow} {a : Answer × State} (h : a.1.status = St.ok) : carryIndex q r a = a := by
  simp [carryIndex, h]

end Sys2Proof.Machine
end

