-- ==== Sys2Proof/Machine/View.lean ====
section
/-! DEFINITION. What an outside party sees of a state, as functions of it: the words that a BAR0 read returns (Table 16.6), the bytes of configuration space that the manual fixes (Tables 16.2 and 16.3), and the states of the output pins (Table 2.6). A read of these has no row and no effect; TK_LATCH, which latches, has its own row. -/

namespace Sys2Proof.Machine

open Sys2Proof

/-! ### BAR0 (R490) -/

/-- The mode word (R43). -/
def modeWord (s : State) : Nat :=
  getObj s Oid.modesHaltCause % 65536 * 65536 + getObj s Oid.modesLimpCause % 256 * 256 + liveNum s Oid.modesCurrent 0 % 16

/-- LINK_WORD (Table 16.7). -/
def linkWord (s : State) : Nat :=
  getObj s Oid.hostlinkFlitMode * 4096 + getObj s Oid.hostlinkLinkSpeed % 16 * 256 + getObj s Oid.hostlinkLinkWidth % 256

/-- The identity block (Table 16.7) and the timekeeper's words in it (Table 4.1). -/
def identityWord (s : State) (o : Nat) : Nat :=
  match o with
  | 0x000 => 0x48544C44
  | 0x004 => modeWord s
  | 0x008 => 0x4144B101
  | 0x00C => linkWord s
  | 0x010 => hostState s
  | 0x040 => s.time.latchNs
  | 0x044 => s.time.latchSecLo
  | 0x048 => s.time.latchSecHi
  | 0x04C => s.time.latchShort
  | _ => 0

/-- Four bytes of a list from an offset, the first the least significant; bytes beyond its end are 0. -/
def listWord (b : List Byte) (o : Nat) : Nat :=
  (b.getD o 0).toNat + (b.getD (o + 1) 0).toNat * 256 + (b.getD (o + 2) 0).toNat * 65536 + (b.getD (o + 3) 0).toNat * 16777216

/-- MB_STATE (R99). -/
def mbState (x : Mailbox) : Nat :=
  x.seq.toNat * 65536 + x.status.toNat * 256 + (match x.phase with | .idle => 0 | .busy => 1 | .done => 2)

/-- A word of a mailbox (Table 3.5). -/
def mailboxWord (x : Mailbox) (o : Nat) : Nat :=
  if o = 0 then x.cmd.toNat
  else if o = 4 then x.obj.toNat
  else if o = 8 then x.len.toNat
  else if o = 0x10 then mbState x
  else if o = 0x14 then x.rsp.length
  else if o < 0x40 then 0
  else if o < 0x800 then listWord x.req (o - 0x40)
  else listWord x.rsp (o - 0x800)

/-- SRC_STATUS[w]: sources 16w to 16w + 15 (Table 5.4). -/
def srcStatusWord (s : State) (w : Nat) : Nat :=
  ((List.range 16).map (fun b => b2n (tabGet false (16 * w + b) s.fab.srcStatus) * 2 ^ b)).sum

/-- The event region (Table 5.4). -/
def eventWord (s : State) (o : Nat) : Nat :=
  if o < 0x400 then liveNum s Oid.eventsChCount (o / 4) % 2 ^ 31
  else if 0x800 ≤ o ∧ o < 0x8A0 then srcStatusWord s ((o - 0x800) / 4)
  else 0

/-- The words of rings, completion queues and the exception ring (Table 11.3). -/
def rackWord (s : State) (o : Nat) : Nat :=
  let e := s.rk.exc
  if o < 0x4000 then
    let x := ringOf s (o / 16)
    match o % 16 / 4 with
    | 0 => x.post
    | 1 => x.assigned
    | 2 => x.done
    | _ => ringFaultOf s (o / 16) % 256 * 256 + ringState s (o / 16)
  else if o < 0x5000 then
    let q := cqOf s ((o - 0x4000) / 16)
    match o % 16 / 4 with
    | 0 => q.head
    | 1 => q.tail
    | 2 => cqState s ((o - 0x4000) / 16)
    | _ => 0
  else if o = 0x5000 then e.head
  else if o = 0x5004 then e.tail
  else if o = 0x5008 then excState s
  else 0

/-- The words of the tap's host rings (Table 12.3). -/
def tapWord (s : State) (o : Nat) : Nat :=
  let r := (txOf s (o / 16)).ring
  match o % 16 / 4 with
  | 0 => r.post
  | 1 => r.taken
  | 2 => txDone r
  | _ => r.fault % 256 * 256 + tapStateOf s (o / 16)

/-- Four bytes of the shadow counter window. -/
def shadowWord (s : State) (o : Nat) : Nat :=
  (shadowByte s o).toNat + (shadowByte s (o + 1)).toNat * 256 + (shadowByte s (o + 2)).toNat * 65536 + (shadowByte s (o + 3)).toNat * 16777216

/-- The word that the map of BAR0 holds at an offset that is a multiple of 4; an offset that no table defines reads 0 (R6, Table 16.6). -/
def bar0Map (s : State) (o : Nat) : Nat :=
  if o < 0x1000 then identityWord s o
  else if o < 0x5000 then mailboxWord (mboxOf s ((o - 0x1000) / 0x1000)) (o % 0x1000)
  else if 0x10000 ≤ o ∧ o < 0x20000 then eventWord s (o - 0x10000)
  else if 0x100000 ≤ o ∧ o < 0x108000 then rackWord s (o - 0x100000)
  else if 0x108000 ≤ o ∧ o < 0x10C000 then tapWord s (o - 0x108000)
  else if 0x1000000 ≤ o ∧ o < 0x2000000 then shadowWord s (o - 0x1000000)
  else 0

/-- What a host that reads a word of BAR0 sees: all ones when the link is down, in D3hot, or before BAR0 is served (R2, R492, Table 16.10). -/
def bar0Read (s : State) (o : Nat) : BitVec 32 :=
  if bar0Served s then BitVec.ofNat 32 (bar0Map s (o / 4 * 4)) else 0xFFFFFFFF

/-! ### Configuration space (R484, R485) -/

/-- Byte i of a number, the least significant first. -/
def byteOf (v i : Nat) : Nat := v / 2 ^ (8 * i) % 256

/-- The Device Serial Number: `dict.mgmt_mac` in EUI-64 form, with 0xFFFE after its third byte (Table 16.3). -/
def serialEui (s : State) : Nat :=
  let m := liveNum s Oid.dictMgmtMac 0
  m / 2 ^ 24 * 2 ^ 40 + 0xFFFE * 2 ^ 24 + m % 2 ^ 24

/-- A byte of the header that Table 16.2 fixes; none where the base specification rules. -/
def configByte (s : State) (o : Nat) : Option Nat :=
  if o < 2 then some (byteOf 0x1D7B o)
  else if o < 4 then some (byteOf 0x4144 (o - 2))
  else if o = 8 then some 0xB1
  else if 9 ≤ o ∧ o < 12 then some (byteOf 0x040000 (o - 9))
  else if 0x2C ≤ o ∧ o < 0x2E then some (byteOf s.link.subVendor (o - 0x2C))
  else if 0x2E ≤ o ∧ o < 0x30 then some (byteOf s.link.subId (o - 0x2E))
  else if o = 0x34 then some 0x40
  else if o = 0x3D then some 0x01
  else none

/-- What a host's configuration request is answered with. -/
inductive ConfigAnswer where
  /-- no link, no answer -/
  | none
  /-- Configuration Request Retry Status (R56, R61) -/
  | retry
  /-- the byte that Table 16.2 fixes, or one that the base specification rules -/
  | data (b : Option Nat)
deriving DecidableEq, Repr

/-- A configuration read of a byte: from the start of training until Boot ends or recovery is entered it is answered with Configuration Request Retry Status (R56, R61). -/
def configRead (s : State) (o : Nat) : ConfigAnswer :=
  if !s.link.up then .none else if configServed s then .data (configByte s o) else .retry

/-- The size in bytes of a 64-bit BAR by its number (Table 16.2, R493). -/
def barSize (s : State) (b : Nat) : Nat :=
  match b with
  | 0 => 2 ^ 26
  | 2 => 2 ^ (30 + getObj s Oid.hostlinkBar2SizeActive)
  | 4 => 2 ^ 16
  | _ => 0

/-- The capabilities of the function and their offsets (Table 16.3). -/
inductive Capability where
  | powerManagement | msi | pciExpress | msix | advancedErrorReporting | deviceSerialNumber | secondaryPciExpress
  | dataLinkFeature | physicalLayer16 | physicalLayer32 | physicalLayer64 | laneMargining
deriving DecidableEq, Repr

/-- Where a capability stands in configuration space (Table 16.3). -/
def Capability.offset : Capability → Nat
  | .powerManagement => 0x40
  | .msi => 0x50
  | .pciExpress => 0x70
  | .msix => 0xB0
  | .advancedErrorReporting => 0x100
  | .deviceSerialNumber => 0x148
  | .secondaryPciExpress => 0x160
  | .dataLinkFeature => 0x190
  | .physicalLayer16 => 0x1A0
  | .physicalLayer32 => 0x1E0
  | .physicalLayer64 => 0x240
  | .laneMargining => 0x280

/-! ### Output pins (R77, Table 2.6). A pin holds the state of the mode being left until a transition completes, which is when `modes.current` changes. -/

/-- How a pin that can be released stands. -/
inductive PinLevel where
  | hiZ | low | high
deriving DecidableEq, Repr, Inhabited

/-- A driven level. -/
def PinLevel.of (b : Bool) : PinLevel := if b then .high else .low

/-- ALERT_N is asserted: in recovery, in Limp and in Halt, and elsewhere by the unmasked bits of `faults.alert_status` (R61, R511). -/
def alertAsserted (s : State) : Bool :=
  match s.modes.current with
  | .cold => false
  | .boot => s.modes.step = .recovery
  | .limp => true
  | .halt => true
  | _ => getObj s Oid.faultsAlertStatus &&& getObj s Oid.faultsAlertMask != 0

/-- WAKE_N is asserted (R187, Table 2.6). -/
def wakeAsserted (s : State) : Bool := s.modes.current = .dormant && s.link.l2 && s.link.wake

/-- PWR_SAG_N: low while `power.clock_step` is not 0 (R514, Table 2.6). -/
def sagPin (s : State) : PinLevel :=
  match s.modes.current with
  | .cold => .hiZ
  | .boot => .high
  | .dormant => .high
  | .halt => .high
  | _ => PinLevel.of (getObj s Oid.powerClockStep = 0)

/-- FC_OUT[q] is asserted in the present mode (R273, Table 2.6); in Boot it is asserted once it is driven. -/
def fcOutAsserted (s : State) (q : Nat) : Bool :=
  match s.modes.current with
  | .cold => false
  | .boot => true
  | .dormant => true
  | .ready => true
  | .diagnostic => true
  | .halt => true
  | .limp => if q = 0 then fcAsserted s 0 else true
  | _ => fcAsserted s q

/-- FC_OUT[q]: not driven in Cold, nor in Boot until it is configured, which is when the persistent values are taken. -/
def fcOutPin (s : State) (q : Nat) : PinLevel :=
  if s.modes.current = .cold || s.modes.current = .boot then .hiZ
  else PinLevel.of (fcOutAsserted s q != (getObj s Oid.underbackFcPolarity q = 1))

/-- TRIG_OUT[n]: inactive in Boot and Halt, else as the events have left it (R178, Table 2.6). -/
def trigOutPin (s : State) (n : Nat) : PinLevel :=
  let active := trigOutLive s.modes.current && (tabGet ({} : TrigOut) n s.fab.trigOut).active
  if s.modes.current = .cold then .hiZ
  else PinLevel.of (active != (fabObj s Oid.eventsTrigOutPolarity n = 1))

/-- PPS_OUT: low in Boot and Halt, else active during a pulse (R145, Table 2.6). -/
def ppsPin (s : State) : PinLevel :=
  if s.modes.current = .cold then .hiZ
  else if ppsLive s.modes.current then PinLevel.of (s.time.ppsActive != (getObj s Oid.timePpsOutPolarity = 1))
  else .low

/-- STROBE[n] is on: a pulse is in progress, in a mode in which strobes act (R465, Table 2.6). -/
def strobeOn (s : State) (n : Nat) : Bool :=
  match s.modes.current with
  | .cold => false
  | .boot => false
  | .halt => false
  | _ => (match (lampX s n).lit with | some (rise, _, _) => decide (rise ≤ now s) | none => false)

/-- ENCn_QA and ENCn_QB follow the output count where the output is enabled; after a cold reset they are not driven until Boot has taken the configuration (R54, R450, Table 2.6). -/
def quadPinLevels (s : State) (n : Nat) : PinLevel × PinLevel :=
  let m := (encOf s n).out % 4
  if s.modes.current = .cold || (s.modes.current = .boot && s.modes.bootCold) || !isOn s Oid.posQuadEnable n then (.hiZ, .hiZ)
  else (PinLevel.of (m = 1 || m = 2), PinLevel.of (m = 2 || m = 3))

/-- ENCn_QZ by `pos.quad_z`, where the output is enabled (R450, Table 2.6). -/
def quadPinZ (s : State) (n : Nat) : PinLevel :=
  if (quadPinLevels s n).1 = .hiZ then .hiZ
  else match quadPins s n (encOf s n).out with
    | .quadEdge _ _ _ z => PinLevel.of z
    | _ => .hiZ

/-- The encoder repeat buffers run whatever the mode (R75, Table 2.6). -/
def encRepeats (_ : State) : Bool := true

/-- How a serial link of the device's own stands. -/
inductive SerialPins where
  | idle | perLtssm (l1 : Bool) | active | idleCodeGroups
deriving DecidableEq, Repr

/-- PCIE_TX (Table 2.6): electrical idle in Cold, else as the link's state machine has it. -/
def pcieTx (s : State) : SerialPins := if s.modes.current = .cold then .idle else .perLtssm s.link.l1

/-- MGMT_SGMII_TX (Table 2.6). -/
def mgmtTx (s : State) : SerialPins :=
  match s.modes.current with
  | .cold => .idle
  | .halt => .idleCodeGroups
  | _ => .active

/-- How the pins of a bus stand between transactions, and whether transactions may move them (Table 2.6). -/
structure BusPins where
  level : PinLevel
  transactions : Bool
deriving DecidableEq, Repr

/-- MDC (Table 2.6). -/
def mdcPin (s : State) : BusPins :=
  match s.modes.current with
  | .cold => ⟨.hiZ, false⟩
  | .halt => ⟨.low, false⟩
  | _ => ⟨.low, true⟩

/-- MDIO (Table 2.6). -/
def mdioPin (s : State) : BusPins := ⟨.hiZ, s.modes.current != .cold && s.modes.current != .halt⟩

/-- The SPI pins: active in Boot, and elsewhere during flash writes (Table 2.6). -/
def spiActive (s : State) : Bool :=
  match s.modes.current with
  | .cold => false
  | .halt => false
  | .boot => true
  | _ => !s.dict.waiting.isEmpty

/-- HEAD_SCL and HEAD_SDA of channel n: released, but for the reads of Boot, transactions, and the one write-back of Halt (R75, Table 2.6). -/
def headBusPins (s : State) (n : Nat) : BusPins :=
  match s.modes.current with
  | .cold => ⟨.hiZ, false⟩
  | .halt => ⟨.hiZ, (lampX s n).wb.isSome⟩
  | _ => ⟨.hiZ, true⟩

/-- What a lane's transmitter does. -/
inductive TxPins where
  | electricalIdle | pcsIdle | cascadeIdle | active | prbs | recovered
deriving DecidableEq, Repr

/-- The coded stream of lane n: idle while the lane comes up (R199) and in Ready, where only firmware packets go with it. -/
def codedTx (s : State) (n : Nat) : TxPins :=
  if quadModeActive s (n / 4) = 5 then (if laneState s n = 7 then .active else .cascadeIdle)
  else if laneState s n = 7 && s.modes.current != .ready then .active else .pcsIdle

/-- A lane under test in Diagnostic: far-end loopback, the generator, else the coded stream, of which mode 6 has none (R213, R216, Table 6.1). -/
def testTx (s : State) (n : Nat) : TxPins :=
  if getLane s Oid.laneLoopback n = 2 then .recovered
  else if getLane s Oid.lanePrbsGen n != 0 then .prbs
  else if quadModeActive s (n / 4) = 6 then .electricalIdle
  else codedTx s n

/-- LANE_TX of lane n by mode and lane state (R193, R194, R199, Tables 2.6 and 6.2): sending from PLL lock on, but not in states 0, 1, 8 and 10. -/
def laneTx (s : State) (n : Nat) : TxPins :=
  let st := laneState s n
  let cascade : Bool := quadModeActive s (n / 4) = 5
  if st < 2 || st = 8 || st = 10 then .electricalIdle
  else match s.modes.current with
    | .cold => .electricalIdle
    | .boot => .electricalIdle
    | .halt => if cascade then codedTx s n else .electricalIdle
    | .dormant => if cascade then codedTx s n else .electricalIdle
    | .diagnostic => if st = 9 then testTx s n else codedTx s n
    | .limp => if cascade || n = 0 then codedTx s n else .electricalIdle
    | _ => codedTx s n

end Sys2Proof.Machine
end

