-- ==== Sys2Proof/WellFormed.lean ====
section
/-! DEFINITION. Well-formed commands: operands that the hardware can deliver. A value a requester writes may be anything its width holds, since the device itself refuses a bad one (R87); what the device measures or receives in a fixed layout has that layout. A meaning is total on every command, well-formed or not. -/

namespace Sys2Proof

/-- A measured or carried TIME96 holds less than 10^9 nanoseconds (Table 3.1). -/
def wfTime (t : Time96) : Bool := decide (t.ns.toNat < 1000000000)

/-- A mailbox holds 1,984 request bytes (Table 3.5); a cascade frame at most 1,440 bytes of Linob (Table 7.7). -/
def wfTransport : Transport → Bool
  | .mailbox _ _ _ _ req => decide (req.length ≤ 1984)
  | .mgmt _ _ _ => true
  | .cascade _ _ _ d => decide (d.length ≤ 1440)
  | .broadcast _ _ _ _ d => decide (d.length ≤ 1440)
  | .firmware _ _ _ _ => true
  | .faulted q => wfTransport q

/-- A Linob message is 32 to 1,440 bytes (R106, Table 7.7). -/
def wfLinob (m : List Byte) : Bool := decide (32 ≤ m.length) && decide (m.length ≤ 1440)

/-- An address announce frame carries 1 to 1,024 addresses (Table 7.7). -/
def wfAnnounce : Announce → Bool
  | .own => true
  | .received _ _ _ _ addrs => decide (1 ≤ addrs.length) && decide (addrs.length ≤ 1024)

/-- The decision feedback equaliser has 12 taps (R203). -/
def wfTaps (l : List Int) : Bool := l.length = 12

/-- The die has 16 sensors (R517). -/
def wfTemps (l : List Word) : Bool := l.length = 16

/-- A head's memory is 256 bytes (R468). -/
def wfHead : HeadReply → Bool
  | .noAck => true
  | .memory b => b.length = 256

/-- An image fits its slot of 16 MiB (Table of R59's section, R62). -/
def wfImage (b : List Byte) : Bool := decide (b.length ≤ 16777216)

/-- Well-formed commands. -/
def Instr.wf : Instr → Bool
  | .coldReset _ => true
  | .coldExit => true
  | .kilnBrownOut => true
  | .bootImageLoad => true
  | .bootBist _ _ _ => true
  | .hbmTraining _ _ => true
  | .bootComplete _ => true
  | .warmReset _ _ => true
  | .fwImageWrite _ image => wfImage image
  | .fwCommit _ _ => true
  | .modeRequest _ _ => true
  | .transitionComplete => true
  | .drainComplete => true
  | .transmitCutTimeout _ => true
  | .firmwareWatchdog => true
  | .limpCause _ => true
  | .watchdogGraceEnd => true
  | .haltCause _ => true
  | .shutdown _ _ => true
  | .wakeCompare => true
  | .wakeAhead => true
  | .wakeAtWrite _ _ => true
  | .read q => wfTransport q
  | .write q => wfTransport q
  | .readBlock q => wfTransport q
  | .writeBlock q => wfTransport q
  | .subscribe q => wfTransport q
  | .notify _ => true
  | .sessionOpen q => wfTransport q
  | .sessionProof q => wfTransport q
  | .pitch q => wfTransport q
  | .abort q => wfTransport q
  | .mailboxOverrun _ _ => true
  | .linobForward _ _ msg => wfLinob msg
  | .blockTransferTimeout _ _ => true
  | .halfOpenTimeout _ => true
  | .sessionTimeout _ => true
  | .persistStore _ => true
  | .persistClear _ _ => true
  | .plansSeal _ _ _ => true
  | .plansClear _ _ _ => true
  | .plansSave _ _ _ => true
  | .armingEnd => true
  | .pitchTakesPlace => true
  | .boundaryTimeout => true
  | .timeIncrementWrite _ _ => true
  | .timeStep _ _ => true
  | .timeSet _ _ => true
  | .stepApply => true
  | .tkLatch _ => true
  | .ptpMessage _ _ stamp => wfTime stamp
  | .holdoverLimit => true
  | .ppsOutPulse => true
  | .ppsOutPulseEnd => true
  | .ppsInEdge _ t => wfTime t
  | .ppsInMissing => true
  | .bhUpstreamWrite _ _ => true
  | .beaconSend => true
  | .beacon _ b arrival => wfTime b.time && wfTime arrival
  | .probeSend departure => wfTime departure
  | .probe _ arrival departure => wfTime arrival && wfTime departure
  | .probeReply _ t2 t3 t4 => wfTime t2 && wfTime t3 && wfTime t4
  | .beaconLoss _ => true
  | .addressAnnounce m => wfAnnounce m
  | .trigger _ _ _ _ _ _ _ t => wfTime t
  | .scheduledFire => true
  | .cmpModeWrite _ _ _ => true
  | .cmpTargetWrite _ _ _ => true
  | .timeCompare _ => true
  | .snapshotAtWrite _ _ => true
  | .snapshotNow _ _ => true
  | .snapshot => true
  | .occurrenceDelivery _ => true
  | .pendingDelivery _ => true
  | .fire _ => true
  | .fireMask _ => true
  | .gristCellFire _ => true
  | .gristWrite _ _ _ _ => true
  | .trigInEdge _ _ t => wfTime t
  | .trigInStuck _ => true
  | .trigOutPulseEnd _ => true
  | .vectorTimer _ => true
  | .quadModeWrite _ _ _ => true
  | .laneConfigWrite _ _ _ _ => true
  | .quadPllLock _ _ => true
  | .pllLockTimeout _ => true
  | .referenceLost _ => true
  | .referenceReturn _ => true
  | .selfCheckDone _ _ => true
  | .signalDetect _ => true
  | .lossOfSignal _ => true
  | .cdrLock _ => true
  | .cdrLockLost _ => true
  | .adaptationDone _ figures taps => decide (figures.length = 16) && wfTaps taps
  | .blockLock _ _ => true
  | .blockLockLost _ _ => true
  | .huntTimeout _ => true
  | .alignmentLock a => decide (a.marks.length = 0) || decide (a.marks.length = 4)
  | .efomWindow _ _ _ taps => wfTaps taps
  | .eyeFault _ => true
  | .relockTimeout _ => true
  | .laneReinstate _ _ _ => true
  | .prbsInject _ _ _ => true
  | .prbsClear _ _ _ => true
  | .prbsCheckerLock _ _ => true
  | .portFault _ _ => true
  | .portReinstate _ _ _ => true
  | .frameReceive _ _ _ _ stamp => wfTime stamp
  | .pauseReceive _ _ => true
  | .pauseStopEnd _ _ => true
  | .pauseRequest _ => true
  | .pauseRefresh _ => true
  | .multicastJoin _ => true
  | .rawFrame _ _ _ => true
  | .cascadeFrameDiscard _ => true
  | .packetCommit _ => true
  | .packetRewind _ => true
  | .chainFullCut _ => true
  | .crossingRead _ _ => true
  | .underbackFlush _ _ _ => true
  | .packetPlace _ => true
  | .placementComplete _ => true
  | .rewindNotice => true
  | .straggleTimeout _ => true
  | .frameIdleTimeout _ => true
  | .frameCommit _ => true
  | .resendRequest _ _ _ => true
  | .stampClear _ _ _ => true
  | .caskRelease _ _ => true
  | .refreshDue _ _ => true
  | .forcedRefresh _ _ => true
  | .refreshRepayment _ _ => true
  | .stackTempRead _ _ => true
  | .uncorrectableRead _ _ _ _ => true
  | .ceThreshold _ _ => true
  | .rowRepair _ _ _ _ => true
  | .pcRetire _ _ => true
  | .spareFillComplete _ => true
  | .cellarReinstate _ _ _ _ => true
  | .scrub _ _ _ _ _ => true
  | .readRecalibration _ => true
  | .cellarTestStart _ _ => true
  | .cellarTestDone _ => true
  | .ringPost _ _ => true
  | .ringEnable _ _ => true
  | .ringDisable _ _ => true
  | .cqEnable _ _ _ => true
  | .cqHead _ _ => true
  | .deliveryStart => true
  | .deliveryDataDone _ => true
  | .completionEntry _ => true
  | .walkReadComplete _ _ => true
  | .ringFault _ _ => true
  | .exceptionEntry => true
  | .excEnable _ _ => true
  | .rackingResume _ _ => true
  | .tapEntry _ => true
  | .tapFrameStart _ => true
  | .packetDue _ t => wfTime t
  | .tapFetchComplete _ _ => true
  | .txPost _ _ => true
  | .tapHostEnable _ _ _ => true
  | .tapStop _ => true
  | .tapTrigger _ => true
  | .replayCaskDone _ => true
  | .patternSelftest _ _ => true
  | .selftestDone _ _ => true
  | .hydroCompare _ => true
  | .goldenReadReturn _ => true
  | .goldenDeadline _ => true
  | .hydroClose _ => true
  | .hydroSelftest _ _ => true
  | .encoderSample _ _ _ _ _ => true
  | .positionCompare _ => true
  | .speedUpdate _ => true
  | .standstillTimeout _ => true
  | .positionWrite _ _ _ => true
  | .queryAt _ _ _ => true
  | .cmpArm _ _ _ => true
  | .posCmpTargetWrite _ _ _ _ => true
  | .quadOutputEdge _ => true
  | .posReinstate _ _ _ => true
  | .strobeDelivery _ => true
  | .pulseEnd _ _ => true
  | .strobeGapEnd _ => true
  | .writebackComplete _ _ => true
  | .headPoll _ r => wfHead r
  | .interlockFall _ => true
  | .interlockPermit _ => true
  | .overcurrent _ _ => true
  | .lifeOverride _ _ _ => true
  | .lampReinstate _ _ _ => true
  | .headUserWrite _ _ _ => true
  | .faultsReinstate _ _ _ => true
  | .listClear _ _ _ => true
  | .supplySag _ => true
  | .governorStepEnd _ => true
  | .coreRailFault => true
  | .thermalReading temps => wfTemps temps
  | .perstDeassert => true
  | .linkUp _ _ _ => true
  | .hostReset _ => true
  | .busMasterDisable _ => true
  | .busMasterEnable _ => true
  | .l1Entry => true
  | .l1Exit => true
  | .npCompletion _ _ => true
  | .completionTimeout _ => true
  | .lateCompletion _ _ => true
  | .quarantineExpiry _ => true
  | .poisonedCompletion _ => true
  | .bar2Access _ => true
  | .bar0PartialWrite => true
  | .winAttrWrite _ _ _ => true
  | .interruptFormChange _ _ => true
  | .objectWrite _ _ _ _ => true
  | .kilnTick => true
  | .localOrRemoteFault _ _ _ => true
  | .msixVectorUnmask _ => true
  | .srcStatusWrite _ _ => true
  | .excHead _ => true
  | .managementPortFrame _ => true
  | .ptpAnnounceTimeout => true
  | .ptpMessageInterval _ departure => wfTime departure

end Sys2Proof
end

