-- ==== Sys2Proof/Tests/Slice0.lean ====
section
/-! SUPPORT. Tests: an ill-formed command for each check of `Instr.wf`; for each statement of Certificates/Slice0 with hypotheses, a state and operands that meet all of them, clause by clause, at the ends of their ranges; and the spec's own worked values. -/

set_option linter.all false
set_option Elab.async false

namespace Sys2Proof.Tests

open Sys2Proof Sys2Proof.Machine

/-! ### Well-formed commands: what each check refuses -/

theorem test_wf_time : (Instr.timeSet .firmware { sec := 0, ns := 1000000000, frac := 0 }).wf = true ∧
    (Instr.ppsInEdge false { sec := 0, ns := 999999999, frac := 0 }).wf = true ∧
    (Instr.ppsInEdge false { sec := 0, ns := 1000000000, frac := 0 }).wf = false := by decide

theorem test_wf_mailbox : (Instr.read (.mailbox 3 0 0 0 (List.replicate 1984 0))).wf = true ∧
    (Instr.read (.mailbox 3 0 0 0 (List.replicate 1985 0))).wf = false := by decide +kernel

theorem test_wf_cascade : (Instr.read (.cascade 15 0 0 (List.replicate 1440 0))).wf = true ∧
    (Instr.read (.cascade 15 0 0 (List.replicate 1441 0))).wf = false ∧
    (Instr.read (.broadcast 15 0 0 0 (List.replicate 1441 0))).wf = false := by decide +kernel

theorem test_wf_linob : (Instr.linobForward (.quad 15 0 0 0) 0 (List.replicate 32 0)).wf = true ∧
    (Instr.linobForward (.quad 15 0 0 0) 0 (List.replicate 31 0)).wf = false ∧
    (Instr.linobForward (.quad 15 0 0 0) 0 (List.replicate 1441 0)).wf = false := by decide +kernel

theorem test_wf_announce : (Instr.addressAnnounce (.received 15 1 0 12 (List.replicate 1024 0))).wf = true ∧
    (Instr.addressAnnounce (.received 15 1 0 12 [])).wf = false ∧
    (Instr.addressAnnounce (.received 15 1 0 12 (List.replicate 1025 0))).wf = false := by decide +kernel

theorem test_wf_taps : (Instr.adaptationDone 63 (List.replicate 16 0) (List.replicate 12 0)).wf = true ∧
    (Instr.adaptationDone 63 (List.replicate 16 0) (List.replicate 11 0)).wf = false ∧
    (Instr.adaptationDone 63 (List.replicate 15 0) (List.replicate 12 0)).wf = false ∧ (Instr.efomWindow 63 0 64 []).wf = false := by decide

theorem test_wf_temps : (Instr.thermalReading (List.replicate 16 0)).wf = true ∧ (Instr.thermalReading (List.replicate 15 0)).wf = false := by
  decide +kernel

theorem test_wf_head : (Instr.headPoll 15 (.memory (List.replicate 256 0))).wf = true ∧ (Instr.headPoll 15 (.memory [])).wf = false := by
  decide +kernel

theorem test_wf_image : (Instr.fwImageWrite .firmware [1]).wf = true ∧
    ∀ b, 16777216 < b.length → (Instr.fwImageWrite .firmware b).wf = false :=
  ⟨by decide, fun b h => decide_eq_false (by omega)⟩

/-! ### States for the witnesses -/

/-- A device in Ready, its host link up with MSI-X in use, 100 s after kiln reset. -/
def ready : State := { State.reset with
  modes := { current := .ready, step := .done, hbm := .running }
  link := { up := true, perst := false, bme := true, mse := true, form := .msix }
  time := { sec := 100, ns := 5, ticks := 12500000000 } }

/-- The device in another mode. -/
def within (m : Mode) (s : State) : State := { s with modes := { s.modes with current := m } }

/-- Objects given values. -/
def ob (l : List (Nat × Nat × Nat)) (s : State) : State := l.foldl (fun s x => putObj x.1 x.2.1 x.2.2 s) s

/-- An object given a value, whatever its default is. -/
def given (id idx v : Nat) (s : State) : State := { s with objs := tabInsert (objKey id idx) v s.objs }

/-- A time of the timekeeper. -/
def at_ (sec ns : Nat) : Time96 := { sec := BitVec.ofNat 48 sec, ns := BitVec.ofNat 32 ns, frac := 0 }

/-- The row of an object. -/
def row (id : Nat) : ObjRow :=
  (objRow? id).getD { id := id, type := .u8, access := accRo, indices := 0, default := 0, limit := .any, counter := false }

/-- A request as its transport hands it over. -/
def handOver (q : Transport) (s : State) : Handed :=
  (carried q s).getD { req := firmwareReq 0 0 0 [], reply := .none, before := s }

/-- A Linob message. -/
def message (op session seq obj flags : Nat) (payload : List Byte) : List Byte :=
  beBytes 2 0x4C4E ++ beBytes 1 1 ++ beBytes 1 op ++ beBytes 4 seq ++ beBytes 2 session ++ beBytes 3 obj ++ beBytes 1 flags ++
    beBytes 2 payload.length ++ payload

/-- A message on session 0x0000, from a client of the management port. -/
def plainMessage (op obj : Nat) (payload : List Byte) : Transport := .mgmt 1 2 (message op 0 1 obj 0 payload ++ List.replicate 16 0)

/-- A session of that client. -/
def session5 (half : Bool) : Session :=
  { num := 5, half := half, slot := 1, secure := false, src := .mgmt 1 2, cn := List.replicate 16 1, dn := List.replicate 16 2
    key := List.replicate 32 3, highest := 4, stored := [], devSeq := 0 }

/-- A message of that session, with its trailer. -/
def sessionMessage (op seq obj : Nat) (payload : List Byte) : Transport :=
  .mgmt 1 2 (message op 5 seq obj 0 payload ++ (hmacSha256 (List.replicate 32 3) (message op 5 seq obj 0 payload)).take 16)

/-- A device with port 63 up: quad 15 in mode 1, lane 63 running. -/
def portReady : State := ob [(quadId Oid.quadMode 15, 0, 1)] (putLane Oid.laneState 63 7 (within .capture ready))

/-- Markers of the four lanes of a bonded port, the lanes crossed, 180 ns apart. -/
def bondedMarks : List LaneMark :=
  [{ body := .clause82 3, at_ := 0 }, { body := .clause82 2, at_ := 180000 }, { body := .clause82 1, at_ := 9 }, { body := .clause82 0, at_ := 0 }]

/-- A PAUSE frame of 65,535 quanta. -/
def pauseBytes : List Byte :=
  let b := beBytes 6 0x0180C2000001 ++ beBytes 6 9 ++ beBytes 2 0x8808 ++ beBytes 2 1 ++ beBytes 2 65535 ++ List.replicate 42 0
  b ++ leBytes 4 (ethFcs b)

/-- The settings of an area-scan frame of 8 by 4 samples in two packets. -/
def areaCfg : FrameCfg :=
  { gvsp := true, line := false, width := 8, lines := 4, format := 1, lineBytes := 8, stride := 64, pktBytes := 16, blockLines := 4
    unitBlocks := 1, policy := 1, side := false, stamped := false, encoder := 0xFF, exposure := 0, straggle := 0, resend := true
    ring := 1023, compress := false, rpolicy := 0, resendMax := 1 }

/-- A frame of that shape, block 65,535 of the last flow, in cask 3. -/
def areaFrame : Frame :=
  { flow := 4095, seq := 9, key := 65535, ext := false, cfg := areaCfg, cask := some 3, opened := 0, locked := true, first := some 0
    last := 0, accepted := 0, placed := 16, byLine := [], lineAt := [], maxLine := 0, leaders := [65535], trailers := [65535], ids := [(65535, 1)]
    ended := true, endAt := 0, rewound := 0, gaps := 0, ecc := false, loop := false, resends := [], cause := none, hydro := none }

/-- Its cask. -/
def areaCask : Cask := { state := 1, flow := 4095, seq := 9, reserved := 2, pages := [(0, 5)], cfg := some areaCfg }

/-- A UDP packet in an Ethernet frame. -/
def udpFrame (data : List Byte) : List Byte :=
  ethFrame 5 9 none 0x0800 (beBytes 1 0x45 ++ beBytes 1 0 ++ beBytes 2 (28 + data.length) ++ beBytes 4 0 ++ beBytes 1 64 ++ beBytes 1 17 ++
    beBytes 2 0 ++ beBytes 4 0x0A000001 ++ beBytes 4 0xEF000001 ++ beBytes 2 7 ++ beBytes 2 8 ++ beBytes 2 (8 + data.length) ++ beBytes 2 0 ++ data)

/-- A GVSP payload packet. -/
def payloadPacket (block id : Nat) (data : List Byte) : List Byte :=
  beBytes 2 0 ++ beBytes 2 block ++ beBytes 1 3 ++ beBytes 3 id ++ data

/-- A GVSP leader of an area-scan frame of 8 by 4 samples. -/
def leaderPacket (block : Nat) : List Byte :=
  beBytes 2 0 ++ beBytes 2 block ++ beBytes 1 1 ++ beBytes 3 0 ++
    (beBytes 2 0 ++ beBytes 2 1 ++ beBytes 8 0 ++ beBytes 4 0x01080001 ++ beBytes 4 8 ++ beBytes 4 4 ++ beBytes 4 0 ++ beBytes 4 0 ++ beBytes 4 0)

/-- A packet staged for the last flow on lane 63. -/
def staged (dest : Dest) (data : List Byte) : Staged :=
  { desc := { pkt := 7, dest := dest, ts := 3, len := data.length, loop := false, pri := 0 }, data := data, ready := true }

/-- The last flow in Capture with an open frame, and a packet waiting in the staging of lane 63. -/
def placing (p : Staged) : State :=
  { ob [(Oid.flowRxType, 4095, 2)] (within .capture ready) with
    lau := { regions := [(63, { packets := [p] })], frames := [areaFrame], casks := [(3, some areaCask)] } }

/-- Ring 1023 enabled with one slot posted beyond those assigned, its queue 255 enabled, and a committed cask for it. -/
def racking (c : Cask) (r : RingX) : State :=
  { ready with
    lau := { casks := [(3, some c)] }
    rk := { rings := [(1023, r)], cqs := [(255, { enabled := true, base := 0x1000, tail := 1024, head := 1023 })] }
    link := { ready.link with relaxed := false } }

/-- That ring. -/
def ring1023 : RingX := { enabled := true, cfg := { cq := 255 }, post := 2, assigned := 1 }

/-- A delivery of it. -/
def delivery1 : Delivery := { ring := 1023, count := 0, cask := 3, payload := some [1, 2, 3], tag := List.replicate 15 0 }

/-- Transmit flow 1023 on port 63 in Generate, 60 frames a second. -/
def sending (x : TxX) : State :=
  putTx 1023 x (ob [(Oid.flowTxType, 1023, 2), (Oid.flowTxPort, 1023, 63), (Oid.tapSource, 1023, 0), (Oid.tapRateNum, 1023, 60),
    (Oid.tapRateDen, 1023, 1), (Oid.tapStartMode, 1023, 0), (Oid.tapWidth, 1023, 8), (Oid.tapHeight, 1023, 4)] (within .generate portReady))

/-- The hydrometer's view of the open frame of `areaFrame`. -/
def judged (h : HydroFrame) (cause : Option Nat) : Frame := { areaFrame with hydro := some h, cause := cause }

/-- The state after TAP_ENTRY. -/
def tapEntryOf (t : TxFlow) (s : State) : State := match exec (.tapEntry t) s with | .next u => u | _ => s

/-- A valid head memory (R468). -/
def headMemory : List Byte :=
  let b := [0x4C, 0x48, 0x44, 0x31, 1] ++ List.replicate 0x33 0 ++ leBytes 8 1000 ++ leBytes 4 1000 ++ leBytes 2 10 ++ leBytes 2 500 ++ List.replicate 0x34 0
  b ++ leBytes 4 (crc32c b) ++ List.replicate 0x80 0

/-- Lamp channel 15 enabled, its interlock permitting. -/
def lampReady (x : LampX) : State :=
  putLamp 15 x (ob [(Oid.lampEnable, 15, 1), (Oid.lampIntlkLevel, 0, 15), (Oid.lampRequireHead, 15, 0), (Oid.lampWidthNs, 15, 5000)] ready)

/-- Encoder channel 7 enabled. -/
def encReady (x : EncX) : State := putEnc 7 x (ob [(Oid.posEnable, 7, 1)] ready)

/-- BAR2 window 63 on 4,096 bytes of the reference area, writable. -/
def windowed : State :=
  { ob [(Oid.hostlinkWinAttr, 63, 3), (Oid.cellarPcState, 0, 2)] (within .diagnostic ready) with
    link := { ready.link with windows := [(63, { on := true, target := refBase, size := 4096 })], l1 := false } }

/-- The first offset of that window. -/
def offset63 : BitVec 38 := BitVec.ofNat 38 (63 * bar2Span windowed)

/-- A device with much to reset. -/
def busy : State :=
  { racking { areaCask with state := 5 } ring1023 with
    rk := { (racking areaCask ring1023).rk with deliveries := [delivery1] }
    link := { ready.link with d3hot := false, tags := [{ tag := 7, use := .zero 1023 0, addr := 64, len := 0 }, { tag := 9, use := .tapData 1023 0 64, addr := 128, len := 64 }] }
    dict := { ready.dict with mbox := [(3, { phase := .busy, rsp := [1] })] }
    fab := { ready.fab with unmasked := [(5, true)], pba := [(6, true)] }
    mem := [(5, 7)] }

/-! ### WRITEs of one object -/

/-- The checks of `PassesChecks`, evaluated. -/
def passes (q : Req) (idx : Nat) (v : PVal) (u : State) : Bool :=
  match objRow? q.id with
  | none => false
  | some r => decide (q.id / 65536 < 0x80 ∧ idx < 65536 ∧ (idx < r.indices ∨ r.indices = 0 ∧ idx = 0) ∧
      secStatus u q r idx = St.ok ∧ servedStatus u r idx = St.ok ∧ accessStatus u q r = St.ok ∧
      decodeValue q.le r.type (encodeValue q.le r.type v) = some v ∧
      liveStatus u q r idx v v = St.ok ∧ transferOn u q.id idx = none ∧ consistencyStatus u q.id idx (valNum v) = St.ok)

theorem passes_checks {q : Req} {idx : Nat} {v : PVal} {u : State} (h : passes q idx v u = true) : PassesChecks q idx v u := by
  unfold passes at h
  split at h
  · cases h
  · rename_i r hr
    exact ⟨r, hr, of_decide_eq_true h⟩

/-- A WRITE of a value to an object index in a state, and the repairs and tests that would fail. -/
structure Row where
  id    : Nat
  idx   : Nat
  v     : PVal
  fails : Option (List Nat) := none
  s     : State := ready

/-- What the hypotheses of a `WriteRow` ask of a row: it is handed over and passes the checks. -/
def Row.meets (via : Via) (w : Row) : Prop :=
  ∃ h, handed via w.id w.idx w.v w.fails w.s = some h ∧ PassesChecks h.req w.idx w.v h.before

/-- `Row.meets`, evaluated. -/
def Row.ok (via : Via) (w : Row) : Bool :=
  match handed via w.id w.idx w.v w.fails w.s with
  | none => false
  | some h => passes h.req w.idx w.v h.before

theorem Row.meets_of_ok {via : Via} {w : Row} (h : w.ok via = true) : w.meets via := by
  unfold Row.ok at h
  split at h
  · cases h
  · rename_i x hx
    exact ⟨x, hx, passes_checks h⟩

theorem Row.all_meet {via : Via} {l : List Row} (h : l.all (Row.ok via) = true) (w : Row) (hw : w ∈ l) : w.meets via :=
  Row.meets_of_ok (List.all_eq_true.mp h w hw)

/-- One WRITE for each row that `ModeAndPlanWrites` names. -/
def modeAndPlanWritesRows : List Row :=
  [
    { id := Oid.modesReset, idx := 0, v := .num 0x5741524D },
    { id := Oid.modesFwImage, idx := 0, v := .bytes (List.replicate 1408 7) },
    { id := Oid.modesFwCommit, idx := 0, v := .num 0x434F4D54 },
    { id := Oid.modesRequest, idx := 0, v := .num 11 },
    { id := Oid.modesRequest, idx := 0, v := .num 4 },
    { id := Oid.modesShutdown, idx := 0, v := .num 0x53485554 },
    { id := Oid.modesWakeAt, idx := 0, v := .num (Time96pack (at_ 99 999999999)) },
    { id := Oid.dictPersistClear, idx := 0, v := .num 0x434C5250 },
    { id := (Oid.plansSeal + planElem .b), idx := 0, v := .num 1 },
    { id := (Oid.plansClear + planElem .a), idx := 0, v := .num 1 },
    { id := (Oid.plansSave + planElem .b), idx := 0, v := .num 1 },
    { id := Oid.modesWakeEnable, idx := 0, v := .num 1 } ]

theorem witness_ModeAndPlanWrites : ∀ w ∈ modeAndPlanWritesRows, w.meets .firmware := Row.all_meet (by decide +kernel)

/-- One WRITE for each row that `TimeWrites` names. -/
def timeWritesRows : List Row :=
  [
    { id := Oid.timeIncrement, idx := 0, v := .num (8 * 2 ^ 32 + 1) },
    { id := Oid.timeStep, idx := 0, v := .num (2 ^ 64 - 1) },
    { id := Oid.timeSet, idx := 0, v := .num (Time96pack (at_ 0 999999999)) },
    { id := Oid.timeBhUpstream, idx := 0, v := .num 15 },
    { id := Oid.timeCmpMode, idx := 63, v := .num 2 },
    { id := Oid.timeCmpTarget, idx := 63, v := .num (Time96pack (at_ 101 0)) },
    { id := Oid.timeCmpShort, idx := 63, v := .num (2 ^ 32 - 1) },
    { id := Oid.countersSnapshotAt, idx := 0, v := .num (Time96pack (at_ 101 0)) },
    { id := Oid.countersSnapshotNow, idx := 0, v := .num 1 } ]

theorem witness_TimeWrites : ∀ w ∈ timeWritesRows, w.meets .firmware := Row.all_meet (by decide +kernel)

/-- One WRITE for each row that `FabricWrites` names. -/
def fabricWritesRows : List Row :=
  [
    { id := Oid.eventsFire, idx := 255, v := .num (2 ^ 32 - 1), s := ob [(Oid.eventsChOwner, 255, 2)] ready },
    { id := Oid.eventsFireMask, idx := 3, v := .num (2 ^ 63 + 1), s := ob [(Oid.eventsChOwner, 255, 2), (Oid.eventsChOwner, 192, 2)] ready },
    { id := (gristId .lut), idx := 63, v := .num 65535 },
    { id := (gristId .inputMode), idx := 63, v := .num 1 },
    { id := (gristId .register), idx := 63, v := .num 1 },
    { id := (gristId .dSelect), idx := 63, v := .num 1 },
    { id := (gristId .filter), idx := 63, v := .num 1 },
    { id := (gristId .edge), idx := 63, v := .num 1 },
    { id := (gristId .q), idx := 63, v := .num 0 } ]

theorem witness_FabricWrites : ∀ w ∈ fabricWritesRows, w.meets .firmware := Row.all_meet (by decide +kernel)

/-- One WRITE for each row that `LanePortAndStreamWrites` names. -/
def lanePortAndStreamWritesRows : List Row :=
  [
    { id := (quadId Oid.quadMode 15), idx := 0, v := .num 1 },
    { id := (quadId (laneItemObj .txPre) 15), idx := 3, v := .num 1 },
    { id := (quadId (laneItemObj .txMain) 15), idx := 3, v := .num 51 },
    { id := (quadId (laneItemObj .txPost) 15), idx := 3, v := .num 1 },
    { id := (quadId (laneItemObj .txSwing) 15), idx := 3, v := .num 1 },
    { id := (quadId (laneItemObj .rxInvert) 15), idx := 3, v := .num 1 },
    { id := (quadId (laneItemObj .txInvert) 15), idx := 3, v := .num 1 },
    { id := (quadId (laneItemObj .enable) 15), idx := 3, v := .num 0 },
    { id := (quadId Oid.laneReinstate 15), idx := 3, v := .num 1 },
    { id := (quadId Oid.lanePrbsInject 15), idx := 3, v := .num 1, s := within .diagnostic ready },
    { id := (quadId Oid.lanePrbsClear 15), idx := 3, v := .num 1, s := within .diagnostic ready },
    { id := Oid.portReinstate, idx := 63, v := .num 1 },
    { id := Oid.tapRawFrame, idx := 63, v := .bytes (List.replicate 1406 9), s := portReady },
    { id := Oid.underbackFlush, idx := 63, v := .num 1 },
    { id := Oid.lauterStampClear, idx := 31, v := .num 1 },
    { id := Oid.cellarReinstate, idx := 127, v := .num 1, fails := some [127], s := ob [(Oid.cellarPcState, 127, 5)] ready },
    { id := Oid.cellarTestStart, idx := 0, v := .num 1, s := within .diagnostic ready },
    { id := Oid.rackingRingEnable, idx := 1023, v := .num 1, s := ob [(Oid.rackingRingSlots, 1023, 64), (Oid.rackingRingSlotBytes, 1023, 32768), (Oid.rackingRingCq, 1023, 255)] (racking areaCask {}) },
    { id := Oid.rackingRingEnable, idx := 1023, v := .num 0, s := racking areaCask ring1023 },
    { id := Oid.rackingCqEnable, idx := 255, v := .num 1, s := ob [(Oid.rackingCqEntries, 255, 1024)] ready },
    { id := Oid.rackingCqEnable, idx := 254, v := .num 0, s := racking areaCask ring1023 },
    { id := Oid.rackingExcEnable, idx := 0, v := .num 1, s := ob [(Oid.rackingExcEntries, 0, 16), (Oid.rackingExcEntryBytes, 0, 9280)] ready },
    { id := Oid.rackingExcEnable, idx := 0, v := .num 0 },
    { id := Oid.rackingResume, idx := 0, v := .num 1 },
    { id := Oid.tapHostEnable, idx := 1023, v := .num 1 },
    { id := Oid.tapHostEnable, idx := 1023, v := .num 0 },
    { id := Oid.patternSelftest, idx := 0, v := .num 1, s := within .diagnostic ready },
    { id := Oid.hydroSelftest, idx := 0, v := .num 1, s := within .diagnostic ready } ]

theorem witness_LanePortAndStreamWrites : ∀ w ∈ lanePortAndStreamWritesRows, w.meets .firmware := Row.all_meet (by decide +kernel)

/-- One WRITE for each row that `MotionLampAndFaultWrites` names. -/
def motionLampAndFaultWritesRows : List Row :=
  [
    { id := Oid.posPosition, idx := 7, v := .num (2 ^ 64 - 1) },
    { id := Oid.posQueryAt, idx := 7, v := .num (Time96pack (at_ 99 0)) },
    { id := Oid.posCmpMode, idx := 31, v := .num 1 },
    { id := (cmpItemId .target), idx := 31, v := .num (2 ^ 64 - 1) },
    { id := (cmpItemId .period), idx := 31, v := .num 7 },
    { id := (cmpItemId .sense), idx := 31, v := .num 1 },
    { id := Oid.posReinstate, idx := 7, v := .num 1 },
    { id := Oid.lampLifeOverride, idx := 15, v := .num 1 },
    { id := Oid.lampReinstate, idx := 15, v := .num 1 },
    { id := Oid.lampHeadUser, idx := 15, v := .bytes (List.replicate 96 3) },
    { id := Oid.faultsReinstate, idx := 0, v := .num (resPc 127), fails := some [127], s := ob [(Oid.cellarPcState, 127, 5)] ready },
    { id := Oid.faultsListClear, idx := 0, v := .num 0x434C5254, fails := some [127] },
    { id := Oid.hostlinkWinAttr, idx := 63, v := .num 3 } ]

theorem witness_MotionLampAndFaultWrites : ∀ w ∈ motionLampAndFaultWritesRows, w.meets .firmware := Row.all_meet (by decide +kernel)

/-- What the hypotheses of `WritesBlocks` ask, evaluated. -/
def blocksOk (id idx : Nat) (b : List Byte) (s : State) : Bool :=
  match handedBlocks .firmware id idx b s with
  | none => false
  | some h => passes h.req idx (.bytes b) h.before

theorem meets_of_blocksOk {id idx : Nat} {b : List Byte} {s : State} (h : blocksOk id idx b s = true) :
    ∃ h, handedBlocks .firmware id idx b s = some h ∧ PassesChecks h.req idx (.bytes b) h.before := by
  unfold blocksOk at h
  split at h
  · cases h
  · rename_i x hx
    exact ⟨x, hx, passes_checks h⟩

theorem witness_moved_in_blocks :
    (∃ h, handedBlocks .firmware Oid.modesFwImage 0 (List.replicate 1409 7) ready = some h ∧
      PassesChecks h.req 0 (.bytes (List.replicate 1409 7)) h.before) ∧
    (∃ h, handedBlocks .firmware Oid.tapRawFrame 63 (List.replicate 1407 9) portReady = some h ∧
      PassesChecks h.req 63 (.bytes (List.replicate 1407 9)) h.before) :=
  ⟨meets_of_blocksOk (by decide +kernel), meets_of_blocksOk (by decide +kernel)⟩

/-- One WRITE over each of the other transports: the last mailbox, a session's last sequence, and a broadcast. -/
theorem witness_other_transports :
    let w : Row := { id := Oid.timeCmpShort, idx := 63, v := .num 5 }
    w.meets (.mailbox 3 65535) ∧
    { w with s := { ready with dict := { ready.dict with sessions := [session5 false] } } }.meets (.session 5 (2 ^ 32 - 1)) ∧
    { w with s := { ob [(Oid.dictKeyClass, 7, 1)] ready with blobs := [(objKey Oid.dictKey 7, [1])] } }.meets (.broadcast 0) :=
  ⟨Row.meets_of_ok (by decide +kernel), Row.meets_of_ok (by decide +kernel), Row.meets_of_ok (by decide +kernel)⟩

/-- A failed check of each kind that `Row.meets` rules out: an index too high, a read-only object, a value out of range, a mode that bars the object, a requester that is not secure. -/
theorem test_checks_refuse :
    ({ id := Oid.timeCmpShort, idx := 64, v := .num 5 } : Row).ok .firmware = false ∧
    ({ id := Oid.timeLastStep, idx := 0, v := .num 5 } : Row).ok .firmware = false ∧
    ({ id := Oid.timeBhUpstream, idx := 0, v := .num 16 } : Row).ok .firmware = false ∧
    ({ id := Oid.cellarTestStart, idx := 0, v := .num 1, s := within .capture ready } : Row).ok .firmware = false ∧
    ({ id := Oid.eventsChSecure, idx := 0, v := .num 1 } : Row).ok (.mailbox 0 1) = false := by decide +kernel

/-- An outcome is a next state. -/
def isNext : Host.Outcome State Fault Refusal → Bool
  | .next _ => true
  | _ => false

theorem next_of_isNext {o : Host.Outcome State Fault Refusal} (h : isNext o = true) : ∃ t, o = .next t := by
  cases o with
  | next t => exact ⟨t, rfl⟩
  | fault f => cases h
  | refused r => cases h

theorem witness_QuadsAndPrbs_frame :
    (∃ t, exec (.prbsCheckerLock 63 [true, false, true]) (putLane Oid.lanePrbsChk 63 3 ready) = .next t) ∧
    ¬(Oid.timeStatus / 65536 = 0x10 + 15 ∧ 0 = 3) := ⟨next_of_isNext (by decide +kernel), by decide⟩

theorem witness_StepKeepsSound : Sound { ready with pending := [.kilnTick] } ∧ ∃ t, step { ready with pending := [.kilnTick] } = .next t :=
  ⟨by unfold Sound Canonical Bounded; decide +kernel, next_of_isNext (by decide +kernel)⟩

theorem witness_RepairsAndSpares_choice :
    (∀ w ∈ [(20, 6, some 30), (0, 6, some 30), (0, 0, none)], let p := w.1
     let s : State := ob [(Oid.cellarPcState, 30, w.2.1)] ready
     let part := getObj s Oid.cellarPcPartition p
     let slot := getObj s Oid.cellarPcSlot p
     let u := fire 0x170 (setSticky Oid.cellarStatus 0 8
       (putObj Oid.cellarPcSlot p 0xFF (putObj Oid.cellarPcPartition p 4 (putObj Oid.cellarPcState p 5 s))))
     let v := if part = 0 then invalidateSlot slot u else if part = 1 then spoilReads (inSlot 1 slot) u else u
     (part < 3) ∧ (chooseSpare v p = w.2.2)) := by
  decide +kernel

/-! ### The spec's worked values -/

/-- A run of commands. -/
def run (l : List Instr) (s : State) : State := l.foldl (fun s c => match exec c s with | .next t => t | _ => s) s

/-- Bytes given as numbers. -/
def bytes (l : List Nat) : List Byte := l.map (BitVec.ofNat 8)

/-- Packing object IDs (00_scope). -/
theorem test_object_ids : Oid.flowRxJoin = 0x24 * 65536 + 0x009 * 16 ∧ Oid.posList = 0x58 * 65536 + 0x1F0 * 16 ∧
    Oid.timeCmpTarget / 65536 = 0x08 := by decide

/-- The check values of CRC-32C, CRC-32 and SHA-256. -/
theorem test_checksums :
    let d := bytes [0x31, 0x32, 0x33, 0x34, 0x35, 0x36, 0x37, 0x38, 0x39]
    crc32c d = 0xE3069283 ∧ ethFcs d = 0xCBF43926 ∧
    (sha256 (bytes [0x61, 0x62, 0x63])).take 8 = bytes [0xBA, 0x78, 0x16, 0xBF, 0x8F, 0x01, 0xCF, 0xEA] := by decide +kernel

/-- A staged WRITE over Linob (03_dictionary, after R127): bytes 0 to 16 as the table gives them, the trailer under the session key. -/
theorem test_staged_write :
    let s : State := { ready with dict := { ready.dict with
      planA := { state := .active, entries := [] }, sessions := [{ session5 false with num := 0x1357, secure := true, highest := 41 }] } }
    let m := bytes [0x4C, 0x4E, 1, 2, 0, 0, 0, 0x2A, 0x13, 0x57, 1, 0, 0x60, 2, 0, 1, 0]
    let t := run [.write (.mgmt 1 2 (m ++ (hmacSha256 (List.replicate 32 3) m).take 16))] s
    t.dict.planB.state = .opened ∧ t.dict.planB.entries.map (fun e => (e.id, e.value)) = [(0x010060, .num 0)] ∧
    t.out.map (fun e => match e with | .linob _ b => b.take 16 | _ => []) =
      [bytes [0x4C, 0x4E, 1, 0x82, 0, 0, 0, 0x2A, 0x13, 0x57, 1, 0, 0x60, 0, 0, 0]] := by decide +kernel

/-- A forward step across a second boundary (04_timekeeper, R138's section). -/
theorem test_step_across_second :
    let s := setArmed 5 1 (ob [(Oid.timeCmpMode, 5, 1), (Oid.timeCmpTarget, 5, Time96pack (at_ 42 0)), (Oid.timeIncrement, 0, 8 * 2 ^ 32),
      (Oid.timePpsOutEnable, 0, 1)] { ready with time := { ready.time with sec := 41, ns := 999998992, frac := 0 } })
    let u := run [.timeStep .firmware 0x5DC00000000] s
    let t := run [.kilnTick] u
    let v := run [.timeCompare 5, .ppsOutPulse] t
    getObj u Oid.timeStepCount = 0 ∧ t.time.sec = 42 ∧ t.time.ns = 500 ∧ t.time.ppsDue = some (Time96pack (at_ 42 500)) ∧ v.time.ppsActive = true ∧
    getObj v Oid.timeCmpStatus 5 &&& 3 = 3 ∧ getObj v Oid.timeLastStep = Time96pack (at_ 42 500) := by decide +kernel

/-- One hop (04_timekeeper, after R149): t1 to t4 give 513.25 ns, in 2^-16 ns. -/
theorem test_hop_delay :
    hopDelay (1000 * 65536) (1512 * 65536 + 16384) (1712 * 65536 + 16384) (2226 * 65536 + 32768) 0 = 513 * 65536 + 16384 := by decide +kernel

/-- The grist cell of 05_event_fabric (after R179): cell 2 in hold mode, look-up table 0x8888. -/
def cell2 : State :=
  ob [(Oid.timeIncrement, 0, 8 * 2 ^ 32), (0x0C0000, 0x50, 10), (0x0C0000, 0x65, 11), (0x0C0000, 0xC2, 12), (Oid.eventsChConsumer, 10, 0x008),
    (Oid.eventsChConsumer, 11, 0x009), (Oid.eventsChConsumer, 12, 0x103), (Oid.eventsChEnable, 10, 1), (Oid.eventsChEnable, 11, 1),
    (Oid.eventsChEnable, 12, 1), (Oid.eventsGristLut, 2, 0x8888), (Oid.eventsGristInputMode, 2, 10), (Oid.eventsTrigInEdge, 0, 1),
    (Oid.eventsTrigInFilter, 0, 2), (Oid.eventsTrigInMinInterval, 0, 1), (Oid.eventsTrigOutWidth, 3, 1000)]
    { ready with time := { ready.time with sec := 12, ns := 4008, frac := 0 } }

/-- That example, step by step: the part, the compare, the cell, and the edge of TRIG_OUT[3] 32 ns after the due time 4,552. -/
theorem test_both_in_place :
    let a := run [.trigInEdge 0 true (at_ 12 4003), .kilnTick, .kilnTick] cell2
    let b := run [.kilnTick, .occurrenceDelivery 10, .kilnTick, .gristCellFire 2] a
    let c := run [.kilnTick, .occurrenceDelivery 11, .kilnTick, .gristCellFire 2] (fire 0x65 { b with time := { b.time with ns := 4536 } })
    let d := run [.kilnTick, .occurrenceDelivery 12, .trigOutPulseEnd 3] c
    getObj a 0x0C0030 0x50 = 1 ∧ a.fab.arrivals.map (fun x => x.ts) = [Time96pack (at_ 12 4003)] ∧ getObj b 0x0C0030 0xC2 = 0 ∧
    getObj c 0x0C0030 0xC2 = 1 ∧ d.time.ns = 4560 ∧
    d.out = [.trigOut 3 (Time96pack (at_ 12 4584)) true, .trigOut 3 (Time96pack (at_ 12 5584)) false] := by decide +kernel

/-- A read of TK_LATCH three eighths into a tick of 8 ns gives 3 ns more; in Dormant, the tick after it (R133, Table 4.2). -/
theorem test_tk_latch :
    let s : State := { ready with time := { ready.time with sec := 12, ns := 4000, frac := 0, inc := 8 * 2 ^ 32 } }
    (run [.tkLatch 0x6000] s).time.latchNs = 4003 ∧ (run [.tkLatch 0x6000] (within .dormant s)).time.latchNs = 4008 ∧
    (run [.tkLatch 0] (within .dormant s)).time.latchNs = 4000 := by decide +kernel

/-- Flow signal 0 selects the receive frame starts of flow 17 (events.flow_signal_sel). -/
theorem test_flow_signal :
    let s := ob [(Oid.eventsFlowSignalSel, 0, 2 ^ 30 + 17)] ready
    let fires (t : State) := t.fab.cross.map (fun c => c.src)
    fires (flowSignal 1 17 s) = [0x160] ∧ fires (flowSignal 2 17 s) = [] ∧ fires (flowSignal 1 16 s) = [] := by decide +kernel

/-- An idle TRIG_OUT made active low rises, a tick of 8 ns later (R164, R178). -/
theorem test_trig_out_polarity :
    let s : State := { ready with time := { ready.time with sec := 12, ns := 4000, frac := 0, inc := 8 * 2 ^ 32 }, out := [] }
    (run [.write (.firmware 2 0 (BitVec.ofNat 24 Oid.eventsTrigOutPolarity) [5, 0, 1, 0]), .kilnTick] s).out =
      [.trigOut 5 (Time96pack (at_ 12 4008)) true] := by decide +kernel

/-- The ST 2110-20 packet of 07_ports_flows, with one pixel group of payload in place of 240. -/
def st2110 : List Byte :=
  let h (c : Nat) := bytes [0x45, 0] ++ beBytes 2 53 ++ beBytes 4 0 ++ bytes [64, 17] ++ beBytes 2 c ++ bytes [10, 0, 0, 9] ++ bytes [239, 10, 20, 30]
  let f := bytes [0x01, 0, 0x5E, 0x0A, 0x14, 0x1E, 2, 0, 0, 0, 0, 9, 0x81, 0, 0x80, 0x64, 8, 0] ++ h (inetSum 0 (h 0)) ++ beBytes 2 5004 ++
    beBytes 2 5004 ++ beBytes 2 33 ++ beBytes 2 0 ++ bytes [0x80, 96] ++ beBytes 2 1 ++ beBytes 4 1 ++ beBytes 4 1 ++ beBytes 2 0 ++
    beBytes 2 5 ++ beBytes 2 3 ++ beBytes 2 1440 ++ List.replicate 5 5
  f ++ leBytes 4 (ethFcs f)

/-- It is flow 17's on port 8, and dropped by R234 on port 9. -/
theorem test_st2110_packet :
    let s := run [.multicastJoin 17] (ob [(quadId Oid.quadMode 2, 0, 2), (Oid.flowRxType, 17, 1), (Oid.flowRxPort, 17, 8),
      (Oid.flowRxDstAddr, 17, 0xFFFFEF0A141E), (Oid.flowRxDstPort, 17, 5004), (Oid.flowRxVlan, 17, 100), (Oid.flowRxRtpPt, 17, 96),
      (Oid.flowRxJoin, 17, 1)] (putLane Oid.laneState 9 7 (putLane Oid.laneState 8 7
        (given Oid.portMacAddr 8 1 (given Oid.portMacAddr 9 2 (within .capture ready))))))
    let t := run [.frameReceive 8 st2110 0 0 (at_ 100 5), .packetCommit 8] s
    let u := run [.frameReceive 9 st2110 0 0 (at_ 100 5)] s
    getObj t Oid.portRxFrames 8 = 1 ∧ getObj t Oid.flowRxPackets 17 = 1 ∧
    getObj u Oid.portRxDmacDrops 9 = 1 ∧ getObj u Oid.portRxFrames 9 = 0 := by decide +kernel

/-- The stall of 08_underback at step 4: B's word 23 meets 63 words; its 17 words to come are dropped and its 23 stored ones freed. -/
theorem test_stall :
    let w (k l : Nat) : UbWord := { kind := l, last := 31, data := [], pkt := k }
    let d (k : Nat) : UbDesc := { pkt := k, dest := .flow 40, ts := 0, len := 1268, loop := false, pri := 0 }
    let s : State := { ob [(quadId Oid.quadMode 2, 0, 2)] (within .capture ready) with lau := { ub := [(8,
      { chain := List.replicate 39 (w 0 0) ++ [w 0 1] ++ List.replicate 23 (w 1 0), descs := [d 0],
        cur := some { desc := d 1, todo := List.replicate 17 [], bad := false, drop := false } })] } }
    let t := run [.chainFullCut 8] s
    ubOccupancy s 8 = 63 ∧ ubOccupancy t 8 = 40 ∧ getObj t Oid.underbackCutPackets 8 = 1 ∧ getObj t Oid.underbackGapMarkers 8 = 1 ∧
    getObj t Oid.underbackWordsDropped 8 = 17 ∧ (ubOf t 8).marker.map (fun m => (m.words, m.cuts, m.flow)) = some (17, 1, 40) := by decide +kernel

/-- The SRD of 09_lauter_casks at 3,000 by 1,800: image byte 26,100 and five placements. -/
theorem test_srd_placements :
    let k : FrameCfg := { areaCfg with gvsp := false, width := 3000, lines := 1800, format := 0x30, lineBytes := lineBytesOf 0x30 3000, stride := strideOf (lineBytesOf 0x30 3000) }
    k.lineBytes = 7500 ∧ k.stride = 7520 ∧
    (srdRuns k [{ len := 1200, row := 3, off := 1440 }] (List.replicate 1200 0)).map (fun r => (r.1, r.2.length)) = [(26100, 1200)] ∧
    (runPieces k 26100 (List.replicate 1200 0)).map (fun p => (p.1, p.2.length)) =
      [(26160, 208), (26368, 256), (26624, 256), (26880, 256), (27136, 224)] := by decide +kernel

/-- The line-scan flow of 09_lauter_casks: records at 134,217,728, a cask of 2,050 pages, 1,024 packets a block. -/
theorem test_line_scan_cask :
    let k : FrameCfg := { areaCfg with line := true, width := 16384, format := 3, lineBytes := lineBytesOf 3 16384, stride := strideOf (lineBytesOf 3 16384), blockLines := 256, unitBlocks := 16, lines := 4096, pktBytes := 8192, side := true }
    recordBase k = 134217728 ∧ caskPages k = 2050 ∧ blockPackets k = 1024 := by decide +kernel

/-- The pages of 10_cellar (after R323): page 0x00_0123 in capture slot 51, PC 108; page 0x16_8064 in reference slot 4, PC 21. -/
theorem test_pages : pageSlot 0x000123 = 51 ∧ servingPc ready 0 51 = some 108 ∧ pageSlot 0x168064 = 4 ∧ servingPc ready 1 4 = some 21 := by
  decide +kernel

/-- The Mono8 line of 11_racking (after R373), coded with code 0. -/
theorem test_alf_line :
    let ss := [100, 101, 103, 103, 102, 102, 104, 105, 105, 106, 106, 107, 108, 108, 108, 109]
    (List.range 9).map (fun k => ((alfResiduals 1 ss).map (riceLen 8 k)).sum) = [60, 64, 71, 84, 92, 102, 115, 129, 144] ∧
    alfLine 1 (bytes ss) = bytes [0x0C, 0, 0, 0, 0x07, 0xFF, 0xFE, 0x46, 0xF2, 0x7B, 0x33, 0x63, 0, 0, 0, 0] := by decide +kernel

/-- The cameras of 11_racking: the bound of an ALF stream, the need of a slot and the pages of a frame. -/
theorem test_slot_need :
    let k : FrameCfg := { areaCfg with width := 5120, lines := 5120, format := 3, lineBytes := lineBytesOf 3 5120, stride := strideOf (lineBytesOf 3 5120), compress := true }
    alfBound k.lines k.lineBytes = 52449312 ∧ slotNeed k = 52457472 ∧ caskPages k = 800 := by decide +kernel

/-- The 1080p59.94 flow of 12_tap: packets, RTP timestamps and the first release times. The example's p16 and all that follows from it differ from R395's own formula, which the model computes (log entry 45). -/
theorem test_pacing :
    let cfg := txSettings (ob [(Oid.flowTxType, 5, 1), (Oid.tapPixelFormat, 5, 0x30), (Oid.tapWidth, 5, 1920), (Oid.tapHeight, 5, 1080),
      (Oid.tapPayloadBytes, 5, 1200), (Oid.tapRateNum, 5, 60000), (Oid.tapRateDen, 5, 1001), (Oid.tapActiveNum, 5, 1080),
      (Oid.tapActiveDen, 5, 1125), (Oid.tapTrOffsetNs, 5, 637674)] ready) 5
    let due (j : Nat) := packetDue 5 { k := 0, start := 1700000000500000000, cfg := cfg, src := .pattern, npk := 4320, j := j }
    packetsOf (txGeo cfg 5 0) = 4320 ∧ due 0 = 1700000000500637674 ∧ due 1 = 1700000000500641381 ∧ due 2 = 1700000000500645088 ∧
    rtpStamp 1700000000500000000 = 0x16A73FC8 ∧ rtpStamp 1700000000516683333 = 380061093 := by decide +kernel

/-- The ramp of 13_hydrometer: Y 533 at x 1,000, Cb and Cr 512. -/
theorem test_ramp :
    let cfg := [(objKey (Oid.patternOffset + 1) 0, 32768), (objKey (Oid.patternOffset + 2) 0, 32768), (objKey Oid.patternKind 0, 3),
      (objKey Oid.patternAmp 0, 65536), (objKey (Oid.patternParam + 1) 0, 1920)]
    [0, 1, 2].map (fun c => patternSample cfg 0 0x30 c { width := 1920, x := 1000, y := 540, f := 1 }) = [533, 512, 512] := by decide +kernel

/-- The late completion of 16_host_link: ring 12 faults with code 3 and source 0x17F fires; the late completion returns the tag. -/
theorem test_late_completion :
    let s : State := { ready with rk := { rings := [(12, { enabled := true })] }
                                  link := { ready.link with tags := [{ tag := 0x1A2B, use := .walk 12 0 false, addr := 64, len := 8 }] } }
    let t := run [.completionTimeout 0x1A2B] s
    let u := run [.lateCompletion 0x1A2B true] t
    ringFaultOf t 12 = 3 ∧ 0x17F ∈ t.fab.cross.map (fun c => c.src) ∧ t.link.quar.length = 1 ∧
    getObj u Oid.hostlinkLateCompletions = 1 ∧ u.link.quar = [] := by decide +kernel

/-- The two windows of 16_host_link in a BAR2 of 16 GiB. -/
theorem test_windows :
    let s : State := let s := ob [(Oid.hostlinkBar2SizeActive, 0, 4), (Oid.hostlinkWinAttr, 3, 3), (Oid.hostlinkWinAttr, 4, 1)] ready
      { s with link := { s.link with windows := [(3, { on := true, target := 0x1680000000, size := 0x10000000 }),
                                                 (4, { on := true, target := 0, size := 0x8000000 })] } }
    bar2Span s = 2 ^ 28 ∧ bar2Translate s 0x30001000 256 true = some 0x1680001000 ∧ bar2Translate s 0x3FFFFFFC 4 false = some 0x168FFFFFFC ∧
    bar2Translate s 0x40000000 64 true = none ∧ bar2Translate s 0x48000000 64 false = none := by decide +kernel

/-- Step 1 of 14_position's example: a target behind is reported and the unit stays armed. -/
theorem test_target_behind :
    let s := ob [(Oid.posEnable, 2, 1), (Oid.posPosition, 2, 100000), (Oid.posPositionValid, 2, 1), (Oid.posCmpChannel, 4, 2), (Oid.posCmpTarget, 4, 99500)]
      (putEnc 2 { sampling := true, shown := 100000, samples := [{ t := 0, p := 100000, valid := true, jump := false }] } ready)
    let t := run [.cmpArm .firmware 4 1] s
    getObj t Oid.posCmpStatus 4 = 4 ∧ getObj t Oid.posStatus 2 = 8 ∧ getObj t 0x0C0030 0x8A = 1 ∧ getObj t Oid.posCmpState 4 = 1 := by decide +kernel

/-- The load transient of 17_faults_power: 3/4, then 1/2, then back by way of 3/4, each step held 1,000 ns, one sag in all. -/
theorem test_load_transient :
    let later (s : State) : State := { s with time := { s.time with ns := s.time.ns + 1000 } }
    let look (s : State) := (getObj s Oid.powerClockStep, getObj s Oid.powerStepsHalf, getObj s Oid.powerSagCount)
    let a := run [.supplySag 699] ready
    let b := run [.supplySag 684] a
    let c := run [.governorStepEnd 711] (later b)
    look a = (1, 0, 1) ∧ look b = (2, 1, 1) ∧ look (run [.governorStepEnd 711] b) = (2, 1, 1) ∧ look c = (1, 1, 1) ∧
    look (run [.governorStepEnd 711] (later c)) = (0, 1, 1) := by decide +kernel

/-- What a host sees in Ready: the presence word, the mode word, the part's word (Tables 16.7, 2.1), and Table 16.2's IDs. -/
theorem test_view_identity :
    bar0Read ready 0 = 0x48544C44 ∧ bar0Read ready 4 % 16 = 3 ∧ bar0Read ready 8 = 0x4144B101 ∧
    (List.range 4).map (configByte ready) = [some 0x7B, some 0x1D, some 0x44, some 0x41] := by decide +kernel

/-! ### The other statements, clause by clause -/

theorem witness_StepApplyMovesTime :
    (let p : PendStep := { set := some (Time96pack (at_ 7 999999999)), add := 3 * 2 ^ 32 }
     let s : State := { ready with time := { ready.time with step := some p, frac := 2 ^ 32 - 1 } }
     (s.modes.current ≠ .cold) ∧ (s.time.step = some p) ∧ (s.time.ns < 1000000000) ∧ (s.time.frac < 2 ^ 32) ∧ (s.time.inc < 1000000000 * 2 ^ 32) ∧
       (s.time.sec + 1 < 2 ^ 64)) ∧
    (let p : PendStep := { add := -(200 * 10 ^ 9 * 2 ^ 32) }
     let s : State := { ready with time := { ready.time with step := some p, ns := 999999999 } }
     (s.modes.current ≠ .cold) ∧ (s.time.step = some p) ∧ (s.time.ns < 1000000000) ∧ (s.time.frac < 2 ^ 32) ∧ (s.time.inc < 1000000000 * 2 ^ 32) ∧
       (s.time.sec + 1 < 2 ^ 64)) ∧
    ready.time.step = none ∧ (within .cold ready).modes.current = .cold := by
  decide +kernel

theorem witness_KilnTickAddsIncrement :
    (let s : State := { ready with time := { ready.time with ns := 999999999, frac := 2 ^ 32 - 1 } }
     (s.modes.current ≠ .cold) ∧ (s.time.step = none) ∧ (s.time.ns < 1000000000) ∧ (s.time.frac < 2 ^ 32) ∧ (s.time.inc < 1000000000 * 2 ^ 32) ∧
       (s.time.sec + 1 < 2 ^ 64)) ∧
    (within .cold ready).modes.current = .cold := by
  decide +kernel

theorem witness_LatchesAndSnapshots :
    bar0Served ready = true ∧ coreRuns ready = true ∧ coreRuns (within .dormant ready) = false ∧
    (let u : Nat := Time96pack (at_ 100 5)
     let s : State := { ready with time := { ready.time with snapArmed := some u, snapTick := 12499999999 } }
     (s.time.snapArmed = some u) ∧ (u ≤ now s) ∧ (s.time.snapTick < s.time.ticks) ∧ (getObj s Oid.countersSnapshotPeriod = 0)) := by
  decide +kernel

theorem witness_CompareFiresAtTarget :
    (let s : State := setArmed 63 1 (ob [(Oid.timeCmpMode, 63, 1), (Oid.timeCmpTarget, 63, Time96pack (at_ 100 5))] ready)
     (tabGet 0 63 s.time.cmpArmed = 1) ∧ (getObj s Oid.timeCmpMode 63 = 1) ∧ (getObj s Oid.timeCmpTarget 63 ≤ now s)) ∧
    (let s : State := setArmed 0 2 (ob [(Oid.timeCmpMode, 0, 2), (Oid.timeCmpTarget, 0, Time96pack (at_ 100 0)), (Oid.timeCmpPeriod, 0, 5)] ready)
     (tabGet 0 0 s.time.cmpArmed = 2) ∧ (getObj s Oid.timeCmpMode 0 = 2) ∧ (getObj s Oid.timeCmpTarget 0 ≤ now s) ∧
       (tUnits (now s) - tUnits (getObj s Oid.timeCmpTarget 0) ≤ getObj s Oid.timeCmpPeriod 0 * 65536)) ∧
    (let s : State := setArmed 0 1 (ob [(Oid.timeCmpMode, 0, 2), (Oid.timeCmpTarget, 0, Time96pack (at_ 99 0)), (Oid.timeCmpPeriod, 0, 5)] ready)
     (tabGet 0 0 s.time.cmpArmed = 1) ∧ (getObj s Oid.timeCmpMode 0 = 2) ∧ (getObj s Oid.timeCmpTarget 0 ≤ now s) ∧
       (getObj s Oid.timeCmpPeriod 0 * 65536 < tUnits (now s) - tUnits (getObj s Oid.timeCmpTarget 0))) ∧
    (tabGet 0 63 ready.time.cmpArmed = 0) ∧
    (let s : State := setArmed 0 1 (ob [(Oid.timeCmpMode, 0, 1), (Oid.timeCmpTarget, 0, Time96pack (at_ 100 6))] ready)
     (getObj s Oid.timeCmpMode 0 = 1) ∧ (now s < getObj s Oid.timeCmpTarget 0)) := by
  decide +kernel

theorem witness_ClockPortsAndPulses :
    (isOn (ob [(Oid.timeLocked, 0, 1)] ready) Oid.timeLocked = true) ∧
    (let s : State := ob [(Oid.timePpsInEdge, 0, 1)] ready
     (getObj s Oid.timePpsInEdge ≠ 0) ∧ (s.modes.current ≠ .cold)) ∧
    (let s : State := ob [(Oid.timePpsOutEnable, 0, 1)] { ready with time := { ready.time with ppsDue := some 9 } }
     (s.time.ppsDue = some 9) ∧ (s.time.ppsActive = false) ∧ (ppsLive s.modes.current = true)) ∧
    (ready.time.ppsDue = none) ∧
    (let s : State := { ready with time := { ready.time with ppsActive := true } }
     (s.time.ppsActive = true) ∧ (ppsLive s.modes.current = true)) ∧
    (let ts (n : Nat) := kilnStamp ready (Time96pack (at_ 100 n))
     let s : State := ob [(Oid.timePpsInEdge, 0, 1), (Oid.timePpsInLast, 0, Time96pack (at_ 100 0))] ready
     (s.modes.current ≠ .cold) ∧ (getObj s Oid.timePpsInEdge = 1) ∧ (getObj s Oid.timePpsInLast ≠ 0) ∧
       (tUnits (getObj s Oid.timePpsInLast) ≤ tUnits (ts 899999999)) ∧
       (tUnits (ts 899999999) < tUnits (getObj s Oid.timePpsInLast) + 900000000 * 65536) ∧ (getObj s Oid.timeSource ≠ 2) ∧
       (tUnits (getObj s Oid.timePpsInLast) + 900000000 * 65536 ≤ tUnits (ts 900000000))) ∧
    (let s : State := ob [(Oid.timePtpPort, 0, 63), (Oid.timePtpState, 0, 9)] portReady
     (portUp s 63 = true) ∧ (getObj s Oid.timePtpPort = 63) ∧ (ptpRuns s = true) ∧ (getObj s Oid.timePtpDomain = 0) ∧ (getObj s Oid.timePtpState = 9) ∧
       (isStopped s 63 0 = false) ∧ (getObj s Oid.timePtpRole = 0)) ∧
    (let s : State := ob [(Oid.timePtpPort, 0, 63), (Oid.timePtpState, 0, 6), (Oid.timePtpStepMode, 0, 1)] portReady
     (portUp s 63 = true) ∧ (getObj s Oid.timePtpPort = 63) ∧ (ptpRuns s = true) ∧ (getObj s Oid.timePtpDomain = 0) ∧ (getObj s Oid.timePtpState = 6) ∧
       (isStopped s 63 0 = false) ∧ (getObj s Oid.timePtpStepMode = 1)) ∧
    (let s : State := ob [(Oid.timePtpPort, 0, 62), (Oid.timePtpState, 0, 6), (Oid.timePtpStepMode, 0, 2)] portReady
     (portUp s 63 = true) ∧ (getObj s Oid.timePtpPort ≠ 63) ∧ (getObj s Oid.timePtpState = 6) ∧ (getObj s Oid.timePtpStepMode ≠ 1)) := by
  decide +kernel

theorem witness_BrewhouseTime :
    (let s : State := ob [(Oid.timeBhUpstream, 0, 15), (Oid.timeBhAddress, 0, 7)] { ready with time := { ready.time with probeT1 := [(15, 44)] } }
     let b : BeaconBody := { time := at_ 99 999999990, level := 5, root := 0, locked := true }
     (cascadeRuns s = true) ∧ (15 ∈ cascadeQuads s) ∧ (tabFind 15 s.time.probeT1 = some 44) ∧ (tabGet [] 15 s.time.probes = []) ∧
       (getObj s Oid.timeBhUpstream = 15) ∧ (getObj s Oid.timeBhUpstream ∈ openLinks s) ∧ (isOn s Oid.timeBhLocked = false) ∧
       (isRetired s (resCascade 15) = false) ∧ (b.level.toNat < 6) ∧ (b.root.toNat ≠ getObj s Oid.timeBhAddress) ∧
       (let u := topologyFault 15 (setSticky Oid.timeStatus 0 0x10
          { s with time := { s.time with beaconRun := 0, beaconOff := [], beaconMean := 0 } })
        isRetired u (resCascade 15) = isRetired s (resCascade 15))) ∧
    (let s : State := ob [(Oid.timeBhUpstream, 0, 15), (Oid.timeBhDownstream, 0, 6)] ready
     (cascadeRuns s = true) ∧ (1 ∈ cascadeQuads s) ∧ (1 ∈ openLinks s) ∧ (getObj s Oid.timeBhUpstream ≠ 1)) ∧
    (cascadeRuns (within .cold ready) = false ∨ (14 : Nat) ∉ cascadeQuads ready) := by
  decide +kernel

theorem witness_FiringASource :
    (let s : State := ob [(Oid.eventsSrcChannel, 639, 255), (Oid.eventsSrcCount, 639, 2 ^ 64 - 1)] ready
     (Sound s) ∧ (fabObj s Oid.eventsSrcVector 639 = 0xFFFF) ∧ (Oid.eventsSrcCount < 2 ^ 24) ∧ ¬(Oid.eventsSrcCount = Oid.eventsSrcCount ∧ 638 = 639)) := by
  unfold Sound Canonical Bounded; decide +kernel

theorem witness_OccurrencesAreDelivered :
    (let c : Chan := 255
     let a : Arrival := { chan := 255, tick := 9, ts := 1, due := 2, trig := none, orig := .host, late := false }
     let l : List Arrival := [{ chan := 255, tick := 9, ts := 3, due := 2, trig := some 4, orig := .mgmt, late := false }]
     let s : State := ob [(Oid.eventsChEnable, 255, 0)] { ready with fab := { ready.fab with arrivals := a :: l } }
     (firstArrivals s c.val = a :: l) ∧ (a.tick < s.time.ticks) ∧ (fabObj s Oid.eventsChEnable c.val = 0)) ∧
    (let c : Chan := 255
     let a : Arrival := { chan := 255, tick := 9, ts := 1, due := 2, trig := none, orig := .host, late := false }
     let l : List Arrival := [{ chan := 255, tick := 9, ts := 3, due := 2, trig := some 4, orig := .mgmt, late := false }]
     let s : State := ob [(Oid.eventsChEnable, 255, 1), (Oid.eventsChConsumer, 255, 0x110)] { ready with fab := { ready.fab with arrivals := a :: l } }
     (firstArrivals s c.val = a :: l) ∧ (a.tick < s.time.ticks) ∧ (fabObj s Oid.eventsChEnable c.val ≠ 0) ∧ ((stormCount c.val s).2 = false)) ∧
    (let c : Chan := 0
     let s : State := ready
     (firstArrivals s c.val = [])) ∧
    (let c : Chan := 7
     let o : Occ := { ts := 1, due := 2, trig := 3, late := false }
     let s : State := ob [(Oid.eventsChConsumer, 7, 0x110)] { ready with fab := { ready.fab with pend := [(7, some o)] } }
     (tabGet none c.val s.fab.pend = some o) ∧ (fabObj s Oid.eventsChConsumer c.val ≠ 0xFFFF) ∧
       (consumerBusy s (fabObj s Oid.eventsChConsumer c.val) = false)) :=
  ⟨by decide +kernel, by decide +kernel, by decide +kernel, by decide +kernel⟩

theorem witness_FiresCellsAndVectors :
    ((bar0Writable ready = true) ∧ (fireAllowed ready 255 .bar0 false = true) ∧ (∀ c : Chan, fireAllowed ready c.val .bar0 false = true)) ∧
    (let s : State := ob [(Oid.eventsChOwner, 255, 1)] ready
     (bar0Writable s = true) ∧ (fireAllowed s 255 .bar0 false = false)) ∧
    (let s : State := { ready with fab := { ready.fab with grist := [(63, { fireNext := true })] } }
     (tabGet ({} : Grist) 63 s.fab.grist).fireNext = true) ∧
    (let s : State := ob [(Oid.eventsTrigInEdge, 15, 1), (Oid.eventsTrigInFilter, 15, 1)] ready
     (s.modes.current ≠ .cold) ∧ (edgeSelected (fabObj s Oid.eventsTrigInEdge 15) true = true) ∧
       ((tabGet ({} : TrigIn) 15 s.fab.trigIn).level ≠ true) ∧ ((tabGet ({} : TrigIn) 15 s.fab.trigIn).stuck = false) ∧
       (Time96pack (at_ 100 5) ≤ now s) ∧ (0 < fabObj s Oid.eventsTrigInFilter 15)) ∧
    (let s : State := ob [(Oid.eventsTrigInEdge, 15, 2), (Oid.eventsTrigInFilter, 15, 0)] { ready with fab := { ready.fab with trigIn := [(15, { level := true })] } }
     (s.modes.current ≠ .cold) ∧ (edgeSelected (fabObj s Oid.eventsTrigInEdge 15) false = true) ∧
       ((tabGet ({} : TrigIn) 15 s.fab.trigIn).level ≠ false) ∧ ((tabGet ({} : TrigIn) 15 s.fab.trigIn).stuck = false) ∧
       (Time96pack (at_ 100 5) ≤ now s) ∧ (fabObj s Oid.eventsTrigInFilter 15 = 0) ∧ ((tabGet ({} : TrigIn) 15 s.fab.trigIn).lastTick = none)) ∧
    (let s : State := ob [(Oid.eventsTrigInEdge, 15, 1), (Oid.eventsTrigInStuck, 15, 10)] { ready with fab := { ready.fab with trigIn := [(15, { level := true })] } }
     (fabObj s Oid.eventsTrigInStuck 15 ≠ 0) ∧ (fabObj s Oid.eventsTrigInEdge 15 = 1) ∧ ((tabGet ({} : TrigIn) 15 s.fab.trigIn).level = true) ∧
       ((tabGet ({} : TrigIn) 15 s.fab.trigIn).stuck = false)) ∧
    (let s : State := { ready with fab := { ready.fab with trigOut := [(15, { active := true, pulsing := true, ends := 77 })] } }
     ((tabGet ({} : TrigOut) 15 s.fab.trigOut).pulsing = true) ∧ ((tabGet ({} : TrigOut) 15 s.fab.trigOut).active = true) ∧
       (trigOutLive s.modes.current = true)) ∧
    (let s : State := { ready with fab := { ready.fab with vec := [(2047, { count := 2, timer := true })], unmasked := [(2047, true)], pba := [(2047, true)] } }
     ((tabGet ({} : Vec) 2047 s.fab.vec).timer = true) ∧ (0 < (tabGet ({} : Vec) 2047 s.fab.vec).count) ∧ (s.link.form = .msix) ∧
       (vecMasked s 2047 = false) ∧ (busStopped s = false) ∧ (s.fab.pba.filter (fun p => p.2 && decide (p.1 = 2047)) = [(2047, true)]) ∧
       (s.fab.pba.filter (fun p => p.2 && decide (p.1 = 0)) = [])) ∧
    (bar0Served { ready with fab := { ready.fab with srcStatus := [(624, true), (626, true)] } } = true) ∧
    (let s : State := { ready with fab := { ready.fab with grist := [(63, { clear := true, fireNext := true, acc := true })] } }
     ((tabGet ({} : Grist) 63 s.fab.grist).clear = true) ∧ (tabFind (objKey Oid.eventsGristQ 63) s.fab.prev = none)) ∧
    (fabObj (ob [(Oid.eventsGristLut, 63, 1)] ready) Oid.eventsGristRegister 63 = 0) ∧
    (∀ e : Fin 3, let s : State := ob [(Oid.eventsGristLut, 0, 1), (Oid.eventsGristRegister, 0, 1), (Oid.eventsGristEdge, 0, e.val)] ready
     (fabObj s Oid.eventsGristRegister 0 ≠ 0) ∧ (tabFind (objKey Oid.eventsGristQ 0) s.fab.prev = none) ∧ (fabObj s Oid.eventsGristEdge 0 = e.val)) := by
  decide +kernel

theorem witness_BrewhouseTriggers :
    (let s : State := ob [(Oid.timeBhUpstream, 0, 15), (Oid.timeBhDownstream, 0, 6), (Oid.eventsChOwner, 200, 3)] { ready with fab := { ready.fab with trigSeen := [(9, 3)] } }
     (1 ∈ openLinks s) ∧ (s.modes.current ≠ .cold) ∧ (s.modes.current ≠ .boot) ∧ (s.time.cutOff = false) ∧ ((9, 4) ∉ s.fab.trigSeen) ∧
       (now s ≤ Time96pack (at_ 100 5)) ∧ (s.fab.sched.length < 64) ∧ (fireAllowed s 200 .cascade false = true) ∧
       (openLinks s).Nodup ∧ (∀ k ∈ openLinks s, (bhLink s k).left = 0 ∧ (bhLink s k).queue = [])) ∧
    (let l : List BhFrame := [{ rank := 1, typ := 4, flags := 0, dest := 0, src := 1, hops := 2, seq := 3, pre := [], stamped := false, post := [] }]
     l.Pairwise (fun a b => a.rank ≤ b.rank)) := by
  decide +kernel

theorem witness_LaneFaultRetriesOrRetires :
    let meets (n cause : Nat) (s : State) : Prop :=
      (n < 64) ∧ (s.modes.current ≠ .diagnostic) ∧ (laneRetired s n = false) ∧ ((laneX s n).relock = false) ∧
        ((tabGet [] (resLane n) s.flt.history).head? ≠ some s.time.ticks)
    let after (n cause : Nat) (s : State) :=
      (recordFault (resLane n) cause (lanePermanent cause) (fire (0x100 + n) (putLane Oid.laneFaultCause n cause (bumpLane Oid.laneFaults n s)))).2
    (meets 63 6 (putLane Oid.laneState 63 2 ready) ∧ after 63 6 (putLane Oid.laneState 63 2 ready) = .retire) ∧
    (meets 63 3 (putLane Oid.laneState 63 7 ready) ∧ after 63 3 (putLane Oid.laneState 63 7 ready) = .retry) := by
  decide +kernel

theorem witness_LanesComeUp :
    (let s : State := ob [(quadId Oid.quadMode 15, 0, 1)] (putLane Oid.laneState 60 1 ready)
     (pllLocked s 15 = false) ∧ (refIsLost s 15 = false) ∧ (quadModeActive s 15 = 1) ∧ ((quadLanes 15).any (fun n => laneState s n = 1) = true)) ∧
    (∀ k : Fin 3, laneState (putLane Oid.laneState 63 (k.val + 2) ready) 63 = k.val + 2) ∧
    (∀ held : Bool, let s : State := putLaneX 63 { cdr := true, held := held } (putLane Oid.laneSignal 63 1 (putLane Oid.laneState 63 5 ready))
     (laneState s 63 = 5) ∧ ((laneX s 63).cdr = true) ∧ (getLane s Oid.laneSignal 63 = 1) ∧ ((laneX s 63).held = held)) ∧
    (List.replicate 16 (7 : Byte)).length = 16 ∧
    (let s : State := ob [(quadId Oid.quadMode 15, 0, 1)] (putLane Oid.laneState 63 6 ready)
     let b : List Bool := [false, true] ++ List.replicate 64 false
     (Sound s) ∧ (laneState s 63 = 6) ∧ (getLane s Oid.laneBlockLock 63 = 0) ∧ ((laneX s 63).good = 0) ∧ ((laneX s 63).fill = 0) ∧
       ((laneX s 63).slip = false) ∧ (getLane s Oid.laneRxInvert 63 = 0) ∧ (waitsForAlignment s 63 = false) ∧ (b.length = 66 ∧ b[0]? ≠ b[1]?) ∧
       ((List.replicate 63 b).length < 64) ∧ ((List.replicate 64 b).length = 64)) := by
  unfold Sound Canonical Bounded; decide +kernel

theorem witness_LaneLosses :
    (let s : State := putLane Oid.laneSignal 63 1 (putLane Oid.laneState 63 4 ready)
     (getLane s Oid.laneSignal 63 = 1) ∧ (4 ≤ laneState s 63) ∧ (laneState s 63 ≤ 7)) ∧
    (let s : State := putLane Oid.laneState 63 5 ready
     (5 ≤ laneState s 63) ∧ (laneState s 63 ≤ 7)) ∧
    (let s : State := putLane Oid.laneState 63 6 ready
     (laneState s 63 = 6) ∧ (getLane s Oid.laneBlockLock 63 = 0)) ∧
    (let s : State := putLane Oid.laneEfomMin 63 10 (putLane Oid.laneEfom 63 9 (putLane Oid.laneState 63 7 ready))
     (laneState s 63 = 7) ∧ (getLane s Oid.laneEfom 63 < getLane s Oid.laneEfomMin 63)) ∧
    (let s : State := putLaneX 63 { relock := true } (putLane Oid.laneState 63 6 ready)
     ((laneX s 63).relock = true) ∧ (4 ≤ laneState s 63) ∧ (laneState s 63 ≤ 6)) ∧
    (let b : List Bool := List.replicate 66 true
     let s : State := putLaneX 63 { bad := 15, seen := 62 } (putLane Oid.laneBlockLock 63 1 (putLane Oid.laneState 63 7 ready))
     (getLane s Oid.laneBlockLock 63 = 1) ∧ (laneState s 63 = 7) ∧ ((laneX s 63).bad = 15) ∧ ((laneX s 63).seen < 63) ∧
       ((laneX s 63).fill = 0) ∧ ((laneX s 63).slip = false) ∧ (b.length = 66) ∧ (b[0]? = b[1]?)) := by
  decide +kernel

theorem witness_QuadsAndPrbs :
    (let s : State := putLane Oid.laneState 63 1 ready
     (pllLocked s 15 = false) ∧ (refIsLost s 15 = false) ∧ ((quadLanes 15).filter (fun n => laneState s n = 1) ≠ [])) ∧
    (tabGet false 16 ready.lp.refLost = false ∧ ((quadLanes 15).all (fun n => laneState ready n = 0)) = true) ∧
    (let s : State := ob [(quadId Oid.quadMode 15, 0, 1)] (putLane Oid.laneState 63 7 ready)
     (quadModeActive s 15 = 1) ∧ (laneState s 63 = 7)) ∧
    (let s : State := ob [(quadId Oid.quadMode 15, 0, 3)] (putLane Oid.laneState 60 7 (putLane Oid.laneState 61 7 (putLane Oid.laneState 62 7 (putLane Oid.laneState 63 7 ready))))
     (isBonded s 15 = true) ∧ (∀ k : Fin 4, laneState s (60 + k.val) = 7)) ∧
    (laneOrder false bondedMarks = some [3, 2, 1, 0]) ∧
    (let s : State := ob [(quadId Oid.quadMode 15, 0, 1)] (putLane Oid.lanePrbsGen 63 3 (putLane Oid.lanePrbsChk 63 3 (putLane Oid.laneState 63 9 (within .diagnostic ready))))
     (prbsActs s 63 = true)) := by
  decide +kernel

theorem witness_RefusedRequestChangesNothing :
    let q : Req := { who := .mailbox 0, src := none, secure := false, le := true, op := 2, id := Oid.timeStep, payload := [] }
    let s : State := ready
    ((serve q s).1.status ≠ St.ok) ∧ (¬(q.op = 8 ∧ (serve q s).1.status = St.proofFailed)) ∧ (¬(q.id / 16 * 16 = Oid.plansSeal ∧
      (serve q s).1.status = St.consistency)) ∧ (¬((q.id = Oid.modesFwCommit ∨ q.id = Oid.dictPersistClear) ∧ (serve q s).1.status = St.flash)) := by
  decide +kernel

theorem witness_StickyWriteClears :
    (let id : Nat := Oid.timeStatus
     let idx : Nat := 0
     let r : ObjRow := row Oid.timeStatus
     let s : State := ob [(Oid.timeStatus, 0, 0xE)] ready
     (Sound s) ∧ (objRow? id = some r) ∧ (stickyBits r ≠ 0) ∧ (idx < 65536)) ∧
    (let id : Nat := Oid.timeStatus
     let idx : Nat := 0
     let r : ObjRow := row Oid.timeStatus
     let jd : Nat := Oid.timeStatus
     let j : Nat := 1
     let s : State := ob [(Oid.timeStatus, 0, 0xE)] ready
     (Sound s) ∧ (objRow? id = some r) ∧ (stickyBits r ≠ 0) ∧ (idx < 65536) ∧ (j < 65536) ∧ (¬(jd = id ∧ j = idx))) ∧
    (let id : Nat := Oid.timeStatus
     let idx : Nat := 0
     let r : ObjRow := row Oid.timeStatus
     let s : State := ob [(Oid.timeStatus, 0, 0xE)] ready
     (Sound s) ∧ (objRow? id = some r) ∧ (stickyBits r ≠ 0) ∧ (idx < 65536)) :=
  ⟨by unfold Sound Canonical Bounded; decide +kernel, by unfold Sound Canonical Bounded; decide +kernel,
   by unfold Sound Canonical Bounded; decide +kernel⟩

theorem witness_DictionaryReads :
    (let q : Transport := .firmware 1 0 (BitVec.ofNat 24 Oid.timeCmpTarget) [63, 0]
     let s : State := ob [(Oid.timeCmpTarget, 63, 77)] ready
     let h : Handed := handOver q s
     let r : ObjRow := row Oid.timeCmpTarget
     let v : PVal := .num 77
     (carried q s = some h) ∧ (h.req.op = 1) ∧ (Checked h r) ∧ ((indexOf h.req r).2 = []) ∧ (targetValue h.before h.req (indexOf h.req r).1 = some v) ∧
       ((indexOut h.req r (indexOf h.req r).1 ++ encodeValue h.req.le r.type v).length ≤ responseMax h.req.who)) ∧
    (let q : Transport := .firmware 1 1 (BitVec.ofNat 24 Oid.timeCmpTarget) [63, 0]
     let s : State := ready
     let h : Handed := handOver q s
     let r : ObjRow := row Oid.timeCmpTarget
     (carried q s = some h) ∧ (h.req.op = 1) ∧ (Checked h r) ∧ ((indexOf h.req r).2 = []) ∧ (targetValue h.before h.req (indexOf h.req r).1 = none)) ∧
    (let q : Transport := .firmware 3 0 (BitVec.ofNat 24 Oid.lampHeadUser) [15, 0, 2, 0, 0, 0, 3, 0]
     let s : State := { ready with blobs := [(objKey Oid.lampHeadUser 15, [1, 2, 3, 4, 5, 6])] }
     let h : Handed := handOver q s
     let r : ObjRow := row Oid.lampHeadUser
     let b : List Byte := [1, 2, 3, 4, 5, 6]
     let off : Nat := 2
     let count : Nat := 3
     (carried q s = some h) ∧ (h.req.op = 3) ∧ (Checked h r) ∧ (isBytes r.type = true) ∧
       ((indexOf h.req r).2 = numOut h.req.le 4 off ++ numOut h.req.le 2 count) ∧ (off ≤ b.length) ∧ (off < 2 ^ 32) ∧ (count < 2 ^ 16) ∧
       (targetValue h.before h.req (indexOf h.req r).1 = some (.bytes b))) :=
  ⟨by unfold Checked; decide +kernel, by unfold Checked; decide +kernel, by unfold Checked; decide +kernel⟩

theorem witness_DictionaryWrites :
    (let q : Transport := .firmware 2 0 (BitVec.ofNat 24 Oid.modesWakeEnable) [1]
     let s : State := ready
     let h : Handed := handOver q s
     let r : ObjRow := row Oid.modesWakeEnable
     let v : PVal := .num 1
     let i := indexOf h.req r
     (carried q s = some h) ∧ (h.req.op = 2) ∧ (h.req.target = 0) ∧ (Checked h r) ∧ (writeValue h.before h.req r i.1 i.2 = some v) ∧
       (liveStatus h.before h.req r i.1 (writtenPart h.req r i.2 v) v = St.ok) ∧ (transferOn h.before h.req.id i.1 = none) ∧
       (planWrite h.req.id h.before = none) ∧ (consistencyStatus h.before h.req.id i.1 (valNum v) = St.ok)) ∧
    (let q : Transport := .firmware 2 2 (BitVec.ofNat 24 Oid.modesWakeEnable) [1]
     let s : State := ready
     let h : Handed := handOver q s
     let r : ObjRow := row Oid.modesWakeEnable
     let v : PVal := .num 1
     let i := indexOf h.req r
     let p := targetPlan h.req.target
     (carried q s = some h) ∧ (h.req.op = 2) ∧ (h.req.target ≠ 0) ∧ (Checked h r) ∧ (writeValue h.before h.req r i.1 i.2 = some v) ∧
       (stagedStatus h.before h.req r i.1 (writtenPart h.req r i.2 v) v = St.ok) ∧ (transferOn h.before h.req.id i.1 = none) ∧
       (stageStatus r (planOf h.before p) (entryOf h.req r i.1 v) = St.ok)) ∧
    (let q : Transport := .firmware 4 0 (BitVec.ofNat 24 Oid.posList) [4, 0, 0, 0, 5, 6, 7, 8]
     let s : State := { ready with dict := { ready.dict with transfers := [{ id := Oid.posList, index := 0, who := .firmware, plan := none, data := [1, 2, 3, 4] }] } }
     let h : Handed := handOver q s
     let r : ObjRow := row Oid.posList
     let off : Nat := 4
     let data : List Byte := [5, 6, 7, 8]
     let i := indexOf h.req r
     (carried q s = some h) ∧ (h.req.op = 4) ∧ (h.req.target = 0) ∧ (h.req.final = false) ∧ (Checked h r) ∧ (isBytes r.type = true) ∧
       (i.2 = numOut h.req.le 4 off ++ data) ∧ (off < 2 ^ 32) ∧ (off + data.length ≤ maxBytes r.type) ∧
       (blockStatus h.req (transferOn h.before h.req.id i.1) off = St.ok)) ∧
    (let q : Transport := .firmware 4 8 (BitVec.ofNat 24 Oid.posList) [4, 0, 0, 0, 5, 6, 0, 0]
     let s : State := { ready with dict := { ready.dict with transfers := [{ id := Oid.posList, index := 0, who := .firmware, plan := none, data := [1, 2, 3, 4] }] } }
     let h : Handed := handOver q s
     let r : ObjRow := row Oid.posList
     let off : Nat := 4
     let data : List Byte := [5, 6, 0, 0]
     let v : PVal := .bytes [1, 2, 3, 4, 5, 6, 0, 0]
     let i := indexOf h.req r
     (carried q s = some h) ∧ (h.req.op = 4) ∧ (h.req.target = 0) ∧ (h.req.final = true) ∧ (Checked h r) ∧ (isBytes r.type = true) ∧
       (i.2 = numOut h.req.le 4 off ++ data) ∧ (off < 2 ^ 32) ∧ (off + data.length ≤ maxBytes r.type) ∧
       (blockStatus h.req (transferOn h.before h.req.id i.1) off = St.ok) ∧
       (decodeValue h.req.le r.type (((transferOn h.before h.req.id i.1).map (fun t => t.data)).getD [] ++ data) = some v) ∧
       (liveStatus h.before h.req r i.1 v v = St.ok) ∧ (planWrite h.req.id h.before = none) ∧
       (consistencyStatus h.before h.req.id i.1 (valNum v) = St.ok)) :=
  ⟨by unfold Checked; decide +kernel, by unfold Checked; decide +kernel, by unfold Checked; decide +kernel, by unfold Checked; decide +kernel⟩

theorem witness_Subscriptions :
    (let q : Transport := sessionMessage 5 5 Oid.timeCmpTarget [0, 63, 0, 0, 0, 0, 0, 0, 0, 0]
     let s : State := { ready with dict := { ready.dict with sessions := [session5 false], subs := [{ session := 5, id := Oid.timeCmpTarget, index := 63, mode := 1, minMs := 0, periodMs := 0, last := none, changes := 0, sinceMs := 0 }] } }
     let h : Handed := handOver q s
     let r : ObjRow := row Oid.timeCmpTarget
     let i := indexOf h.req r
     (carried q s = some h) ∧ (h.req.op = 5) ∧ (Checked h r) ∧ (subValueStatus h.req i.2 = St.ok) ∧ (isBlob r.type = false) ∧ (r.access.right ≠ .wo) ∧
       (h.req.id / 65536 ≠ 0x02) ∧ (byteAt i.2 0 = 0)) ∧
    (let q : Transport := sessionMessage 5 5 Oid.timeCmpTarget [0, 63, 2, 0, 0, 0, 0, 0, 0, 9]
     let s : State := { ready with dict := { ready.dict with sessions := [session5 false] } }
     let h : Handed := handOver q s
     let r : ObjRow := row Oid.timeCmpTarget
     let i := indexOf h.req r
     (carried q s = some h) ∧ (h.req.op = 5) ∧ (Checked h r) ∧ (subValueStatus h.req i.2 = St.ok) ∧ (isBlob r.type = false) ∧ (r.access.right ≠ .wo) ∧
       (h.req.id / 65536 ≠ 0x02)) ∧
    (let k : Fin 256 := 0
     let x : Sub := { session := 5, id := Oid.timeCmpTarget, index := 63, mode := 2, minMs := 0, periodMs := 10, last := none, changes := 0, sinceMs := 9 }
     let s : State := { ready with dict := { ready.dict with sessions := [session5 false], subs := [x] } }
     (s.dict.subs[k.val]? = some x) ∧ (dictServed s = true) ∧ (x.mode = 2) ∧ (x.periodMs ≤ x.sinceMs + 1)) ∧
    (let k : Fin 256 := 0
     let w : PVal := .num 3
     let x : Sub := { session := 5, id := Oid.timeCmpTarget, index := 63, mode := 1, minMs := 10, periodMs := 0, last := some w, changes := 0, sinceMs := 9 }
     let s : State := { ready with dict := { ready.dict with sessions := [session5 false], subs := [x] } }
     (s.dict.subs[k.val]? = some x) ∧ (dictServed s = true) ∧ (x.mode = 1) ∧ (x.last = some w) ∧ (w ≠ liveValue s x.id x.index) ∧
       (max 1 x.minMs ≤ x.sinceMs + 1)) :=
  ⟨by unfold Checked; decide +kernel, by unfold Checked; decide +kernel, by decide +kernel, by decide +kernel⟩

theorem witness_Sessions :
    (let q : Transport := plainMessage 7 0 ([7, 0, 0, 0] ++ List.replicate 16 9)
     let s : State := { ob [(Oid.dictKeyClass, 7, 2)] ready with blobs := [(objKey Oid.dictKey 7, [1])], dict := { ready.dict with sessions := [session5 false] } }
     let h : Handed := handOver q s
     let src : Endpoint := .mgmt 1 2
     (carried q s = some h) ∧ (h.req.op = 7) ∧ (headerStatus h.req = St.ok) ∧ (opStatus h.req = St.ok) ∧ (h.req.src = some src) ∧
       (openStatus h.before h.req = St.ok)) ∧
    (let s : State := { ob [(Oid.dictKeyClass, 1, 1)] ready with blobs := [(objKey Oid.dictKey 1, [1])], dict := { ready.dict with sessions := [session5 true] } }
     let q : Transport := sessionMessage 8 5 0 (clientProof [1] (List.replicate 16 1) (List.replicate 16 2) 5)
     let h : Handed := handOver q s
     let x : Session := { session5 true with highest := 5 }
     (carried q s = some h) ∧ (h.req.op = 8) ∧ (headerStatus h.req = St.ok) ∧ (opStatus h.req = St.ok) ∧ (isSessionZero h.req.who = false) ∧
       (sessionOf h.before (sessionNum h.req.who) = some x) ∧ (x.half = true) ∧ (h.req.payload.length = 16) ∧
       (h.req.payload = clientProof (getBlob h.before Oid.dictKey x.slot) x.cn x.dn x.num)) ∧
    (let s : State := { ob [(Oid.dictKeyClass, 1, 1)] ready with blobs := [(objKey Oid.dictKey 1, [1])], dict := { ready.dict with sessions := [session5 true] } }
     let q : Transport := sessionMessage 8 5 0 (List.replicate 16 0)
     let h : Handed := handOver q s
     let x : Session := { session5 true with highest := 5 }
     (carried q s = some h) ∧ (h.req.op = 8) ∧ (headerStatus h.req = St.ok) ∧ (opStatus h.req = St.ok) ∧ (isSessionZero h.req.who = false) ∧
       (sessionOf h.before (sessionNum h.req.who) = some x) ∧ (x.half = true) ∧ (h.req.payload.length = 16) ∧
       (h.req.payload ≠ clientProof (getBlob h.before Oid.dictKey x.slot) x.cn x.dn x.num)) ∧
    (let n : BitVec 16 := 5
     let x : Session := session5 false
     let s : State := { ready with dict := { ready.dict with sessions := [session5 false], subs := [{ session := 5, id := Oid.timeCmpTarget, index := 63, mode := 1, minMs := 0, periodMs := 0, last := none, changes := 0, sinceMs := 0 }], transfers := [{ id := Oid.posList, index := 0, who := .mgmt 5, plan := none, data := [] }] } }
     (sessionOf s n.toNat = some x) ∧ ((∀ y ∈ s.dict.sessions, y.num = n.toNat → y = x)) ∧ (x.half = false)) :=
  ⟨by decide +kernel, by decide +kernel, by decide +kernel, by decide +kernel⟩

theorem witness_PitchOfAPlan :
    (let q : Transport := .firmware 9 0 (BitVec.ofNat 24 Oid.plansActive) ([1, 0, 0, 0] ++ List.replicate 12 0)
     let s : State := { ready with dict := { ready.dict with planB := { state := .sealed, entries := [{ id := Oid.modesWakeEnable, index := 0, value := .num 1, secure := false }] } } }
     let h : Handed := handOver q s
     let r : ObjRow := row Oid.plansActive
     (carried q s = some h) ∧ (h.req.op = 9) ∧ (Checked h r) ∧ (pitchStatus h.before h.req = St.ok)) ∧
    (let p : Pitch := { plan := .b, when_ := 2, flow := 0, time := 3, armed := false, secure := false, late := false, reply := .mailbox 3 7 }
     let s : State := { ready with dict := { ready.dict with pitch := some p } }
     (s.dict.pitch = some p) ∧ (p.armed = false)) ∧
    (let p : Pitch := { plan := .b, when_ := 2, flow := 0, time := Time96pack (at_ 100 5), armed := true, secure := false, late := false, reply := .mailbox 3 7 }
     let s : State := { ready with dict := { ready.dict with pitch := some p, planB := { state := .scheduled, entries := [{ id := Oid.modesWakeEnable, index := 0, value := .num 1, secure := false }] } } }
     (s.dict.pitch = some p) ∧ (pitchRuns s = true) ∧ (p.armed = true) ∧ (pitchDue p s = true) ∧ (holdsRwd (planOf s p.plan) = false)) ∧
    (let p : Pitch := { plan := .b, when_ := 1, flow := 0, time := 0, armed := true, secure := false, late := false, reply := .mailbox 3 7 }
     let s : State := { ready with dict := { ready.dict with pitch := some p, planB := { state := .scheduled, entries := [] } } }
     (s.dict.pitch = some p) ∧ (p.armed = true) ∧ (p.when_ = 1) ∧ (p.reply ≠ .bcast)) ∧
    (let p : Pitch := { plan := .b, when_ := 1, flow := 0, time := 0, armed := true, secure := false, late := false, reply := .mailbox 3 7 }
     let s : State := { ready with dict := { ready.dict with pitch := some p, planB := { state := .scheduled, entries := [] } } }
     let q : Transport := .firmware 10 0 (BitVec.ofNat 24 Oid.plansActive) [1]
     let h : Handed := handOver q s
     let r : ObjRow := row Oid.plansActive
     (carried q s = some h) ∧ (h.req.op = 10) ∧ (h.req.id = Oid.plansActive) ∧ (Checked h r) ∧ (abortStatus h.before h.req = St.ok) ∧
       (h.before.dict.pitch = some p) ∧ (p.armed = true)) ∧
    (let q : Transport := .firmware 10 0 (BitVec.ofNat 24 Oid.lampHeadUser) [15, 0]
     let s : State := { ready with dict := { ready.dict with transfers := [{ id := Oid.lampHeadUser, index := 15, who := .firmware, plan := none, data := [1] }] } }
     let h : Handed := handOver q s
     let r : ObjRow := row Oid.lampHeadUser
     (carried q s = some h) ∧ (h.req.op = 10) ∧ (h.req.id ≠ Oid.plansActive) ∧ (Checked h r) ∧ ((indexOf h.req r).2 = [])) :=
  ⟨by unfold Checked; decide +kernel, by decide +kernel, by decide +kernel, by decide +kernel, by unfold Checked; decide +kernel,
   by unfold Checked; decide +kernel⟩

theorem witness_ServiceEvents :
    (let m : Fin 4 := 3
     let s : State := putMbox 3 { mboxOf ready 3 with phase := .busy } ready
     (bar0Writable s = true) ∧ ((mboxOf s m.val).phase = .busy)) ∧
    (let dest : BitVec 10 := 9
     let q : Nat := 1
     let s : State := { ob [(Oid.timeBhDownstream, 0, 6)] ready with dict := { ready.dict with routes := [(9, 1)] } }
     (dest.toNat ≠ getObj s Oid.timeBhAddress) ∧ (dictServed s = true) ∧ (duplicated s dest.toNat = false) ∧ (routeTo s dest.toNat = some q)) ∧
    (let q : Quad := 2
     let hops : Byte := 1
     let dest : BitVec 10 := 9
     let k : Nat := 1
     let s : State := { ob [(Oid.timeBhDownstream, 0, 6)] ready with dict := { ready.dict with routes := [(9, 1)] } }
     let u := bump Oid.portBhFrames q.val s
     (linkTakes s q.val hops.toNat = true) ∧ (duplicated u dest.toNat = false) ∧ (dest.toNat ≠ getObj s Oid.timeBhAddress) ∧
       (routeTo u dest.toNat = some k) ∧ (k ≠ q.val)) ∧
    (let q : Quad := 2
     let src : BitVec 10 := 4
     let seq : Word := 3
     let hops : Byte := 1
     let dest : BitVec 10 := 7
     let msg : List Byte := message 1 5 6 7 0 [] ++ List.replicate 16 0
     let c : Client := { member := 4, session := 5, seq := 6, src := .mgmt 1 2 }
     let s : State := { ob [(Oid.timeBhDownstream, 0, 6), (Oid.timeBhAddress, 0, 7)] ready with dict := { ready.dict with clients := [c] } }
     let u := bump Oid.portBhFrames q.val s
     (linkTakes s q.val hops.toNat = true) ∧ (duplicated u dest.toNat = false) ∧ (dest.toNat = getObj s Oid.timeBhAddress) ∧
       (clientOf u src.toNat msg = some c)) ∧
    (let frame : List Byte := ethFrame 0xFFFFFFFFFFFF 5 none 0x0806 (beBytes 8 0x0001080006040001 ++ beBytes 6 5 ++ beBytes 4 0x0A000001 ++ beBytes 6 0 ++ beBytes 4 0x0A000002)
     let frame : List Byte := withFcs (frame ++ List.replicate 18 0)
     let s : State := given Oid.dictMgmtIpv4 0 0x0A000002 (given Oid.dictMgmtMac 0 9 ready)
     let dst : Nat := 5
     let etype : Nat := 0x0806
     let body : List Byte := beBytes 8 0x0001080006040002 ++ beBytes 6 9 ++ beBytes 4 0x0A000002 ++ beBytes 6 5 ++ beBytes 4 0x0A000001
     (dictServed s = true) ∧ (isLinobFrame s frame = false) ∧ (mgmtAnswer s frame = some (dst, etype, body))) ∧
    (let frame : List Byte := withFcs (ethFrame 0xFFFFFFFFFFFF 5 none 0x88CC (List.replicate 46 1))
     let s : State := ready
     (dictServed s = true) ∧ (isLinobFrame s frame = false) ∧ (mgmtAnswer s frame = none)) :=
  ⟨by decide +kernel, by decide +kernel, by decide +kernel, by decide +kernel, by decide +kernel, by decide +kernel⟩

theorem witness_ColdResetClears :
    ((63 < 65536) ∧ ¬(Oid.timeCmpMode = Oid.modesResetCause ∧ 63 = 0) ∧ (Oid.timeCmpMode ≠ Oid.cellarRepairs) ∧ (Oid.timeCmpMode ≠ Oid.cellarRepairsLeft)) ∧
    (∀ c : Bool, let s : State := { ready with dict := { ready.dict with flash := { first := { objs := [(1, .num 2)] }, clearPending := c } } }
     (s.dict.flash.clearPending = c)) ∧
    ((within .cold ready).modes.current = .cold) ∧ (ready.modes.current ≠ .cold) := by
  decide +kernel

theorem witness_BootInOrder :
    let at_step (x : BootStep) (cold : Bool) : State := { State.reset with modes := { State.reset.modes with step := x, bootCold := cold } }
    (State.reset.modes.current = .boot ∧ State.reset.modes.step = .kilnReset) ∧
    ((at_step .imageLoaded true).modes.current = .boot ∧ (at_step .imageLoaded true).modes.step = .imageLoaded) ∧
    (∀ c : Bool, (at_step .firmwareStarted c).modes.current = .boot ∧ (at_step .firmwareStarted c).modes.step = .firmwareStarted ∧
      (at_step .firmwareStarted c).modes.bootCold = c) ∧
    (let s : State := { ready with modes := { ready.modes with current := .dormant, target := some .ready, hbm := .poweredDown } }
     (s.modes.current = .dormant) ∧ (s.modes.target = some .ready) ∧ (s.modes.hbm = .poweredDown)) ∧
    ((at_step .trained true).modes.current = .boot ∧ (at_step .trained true).modes.step = .trained) := by
  decide +kernel

theorem witness_TransitionsEnd :
    (let b : Mode := .capture
     let s : State := { ready with modes := { ready.modes with target := some .capture } }
     (s.modes.target = some b) ∧ (s.modes.draining = false) ∧ (receives s.modes.current = false) ∧ (txStopping s = false) ∧
       (¬(s.modes.current = .dormant ∧ s.modes.hbm = .poweredDown)) ∧ (¬(b = .ready ∧ isRun s.modes.current = true))) ∧
    (let s : State := { ready with modes := { ready.modes with target := some .capture } }
     (s.modes.pendingReq = none) ∧ (s.modes.wakeQueued = false)) ∧
    (let s : State := { ob [(Oid.modesDrainOnStop, 0, 1)] (within .capture ready) with modes := { ready.modes with current := .capture, target := some .ready }, lau := { casks := [(3, some { state := 3, flow := 0, seq := 0, reserved := 1 })] } }
     let w := stopReceiving s
     (s.modes.target = some .ready) ∧ (s.modes.draining = false) ∧ (receives s.modes.current = true) ∧ (s.modes.current ≠ .burst) ∧
       (pipelineEmpty s = true) ∧ (txStopping w = false) ∧ (w.lau.frames = []) ∧ (getObj w Oid.modesDrainOnStop = 1) ∧ (drainOwed w = true)) ∧
    (let s : State := { ob [(Oid.modesDrainOnStop, 0, 0)] (within .capture ready) with modes := { ready.modes with current := .capture, target := some .ready }, lau := { casks := [(3, some { state := 3, flow := 0, seq := 0, reserved := 1 })] } }
     let w := stopReceiving s
     (s.modes.target = some .ready) ∧ (s.modes.draining = false) ∧ (receives s.modes.current = true) ∧ (s.modes.current ≠ .burst) ∧
       (pipelineEmpty s = true) ∧ (txStopping w = false) ∧ (w.lau.frames = []) ∧ (getObj w Oid.modesDrainOnStop ≠ 1)) ∧
    (let b : Mode := .ready
     let s : State := { ready with modes := { ready.modes with current := .capture, target := some .ready, draining := true } }
     (s.modes.target = some b) ∧ (s.modes.draining = true) ∧ (drainOwed s = false)) ∧
    (let t : TxFlow := 1023
     let s : State := putTx 1023 { entered := true, stopping := true, frames := [{ k := 0, start := 0, cfg := [], src := .pattern }] } ready
     ((txOf s t.val).stopping = true) ∧ (startedFrames (txOf s t.val) ≠ [])) ∧
    (let s : State := ob [(Oid.modesWakeEnable, 0, 1), (Oid.modesWakeAt, 0, Time96pack (at_ 100 5))] ready
     (s.modes.current ≠ .cold) ∧ (isOn s Oid.modesWakeEnable = true) ∧ (getObj s Oid.modesWakeAt ≤ now s)) ∧
    (let p : Pitch := { plan := .a, when_ := 2, flow := 0, time := Time96pack (at_ 100 5), armed := true, secure := false, late := false, reply := .none }
     let s : State := { within .dormant ready with dict := { ready.dict with pitch := some p } }
     (s.dict.pitch = some p) ∧ (p.when_ = 2) ∧ (p.time ≤ tAddNs (now s) (if bit (getObj s Oid.modesWakeSources) 1 then (wakeLead s : Int) else 0)) ∧
       (s.modes.current = .dormant) ∧ (s.modes.target = none)) :=
  ⟨by decide +kernel, by decide +kernel, by decide +kernel, by decide +kernel, by decide +kernel, by decide +kernel, by decide +kernel,
   by decide +kernel⟩

theorem witness_LimpAndHalt :
    (∀ m ∈ [Mode.ready, .capture], let s : State := within m ready
     (s.modes.current ≠ .cold) ∧ (s.modes.current ≠ .halt) ∧ (s.modes.current ≠ .limp) ∧ (s.modes.current ≠ .boot) ∧ (stagingFailed s = false)) ∧
    ((2 : Fin 4).val ≠ 3) ∧
    ({ ready with modes := { ready.modes with current := .capture, grace := true } } : State).modes.grace = true ∧
    ((within .limp ready).modes.current = .limp) ∧ ((within .limp ready).modes.current ≠ .cold) ∧ ((within .limp ready).lau.flight = []) := by
  decide +kernel

theorem witness_PortReception :
    ((portUp portReady 63 = true) ∧ (portExists portReady 63 = true) ∧ (portReceives ready 63 = false)) ∧
    (let s : State := putPortX 63 { (portX portReady 63) with aligned := true } (ob [(quadId Oid.quadMode 15, 0, 2), (Oid.portFec, 63, 2)] portReady)
     (portUp s 63 = true) ∧ (fecActive s 63 ≠ 0)) ∧
    (let s : State := putPortX 63 { (portX portReady 63) with remoteF := true } portReady
     (portLocked s 63 = true) ∧ ((portX s 63).remoteF = true) ∧ ((portX s 63).hiBer = false) ∧ ((portX s 63).localF = false)) ∧
    (∀ d ∈ [5, 4], let b : List Byte := beBytes 6 d ++ beBytes 6 9 ++ beBytes 2 0x88CC ++ List.replicate 46 0
     let fcs : List Byte := leBytes 4 (ethFcs b)
     let s : State := given Oid.portMacAddr 63 5 portReady
     (portReceives s 63 = true) ∧ (fecActive s 63 = 0) ∧ (isMacControl (b ++ fcs) = false) ∧ (fcs.length = 4) ∧ (60 ≤ b.length) ∧
       (b.length + 4 ≤ getObj s Oid.portMaxFrame 63) ∧ (leNat fcs = ethFcs b) ∧ (macAccepts s 63 (beNat (b.take 6)) = decide (d = 5)) ∧
       (isMacControl (b ++ [0, 0, 0, 0]) = false) ∧ (leNat [0, 0, 0, 0] ≠ ethFcs b) ∧
       (macAccepts (bump Oid.portRxFcsErrors 63 s) 63 (beNat (b.take 6)) = decide (d = 5))) ∧
    (let s : State := ob [(Oid.timeBhDownstream, 0, 6)] ready
     (cascadeRuns s = true) ∧ (1 ∈ cascadeQuads s)) ∧
    (let s : State := ob [(Oid.flowRxType, 4095, 1), (Oid.flowRxPort, 4095, 63), (Oid.flowRxJoin, 4095, 2), (Oid.flowRxDstAddr, 4095, mapped4 0xEF000001), (Oid.flowRxSrcAddr, 4095, mapped4 0x0A000001)] portReady
     (tabGet none 4095 s.lp.joined = none) ∧ ((wantedGroup s 4095).isSome = true)) ∧
    (let m : Member := { port := 63, group := mapped4 0xEF000001, src := 0 }
     let s : State := { portReady with lp := { portReady.lp with joined := [(4095, some m)] } }
     (tabGet none 4095 s.lp.joined = some m) ∧ (wantedGroup s 4095 = none) ∧ (∃ j ∈ s.lp.joined, j.2 = some m) ∧ (∀ j ∈ portReady.lp.joined, j.2 ≠ some m)) := by
  decide +kernel

theorem witness_FlowControl :
    (let s : State := ob [(Oid.portPauseHonour, 63, 0)] portReady
     (portReceives s 63 = true) ∧ (isMacControl pauseBytes = true) ∧ (macError s 63 pauseBytes = none) ∧ (isOn s Oid.portPauseHonour 63 = false)) ∧
    (let s : State := ob [(Oid.portPauseHonour, 63, 1), (Oid.portFlowCtrl, 63, 1)] portReady
     (Sound s) ∧ (portReceives s 63 = true) ∧ (isMacControl pauseBytes = true) ∧ (macError s 63 pauseBytes = none) ∧
       (isOn s Oid.portPauseHonour 63 = true) ∧ (getObj s Oid.portFlowCtrl 63 = 1) ∧ (be16 (pauseBytes.drop 14) 0 = 0x0001) ∧
       (be16 (pauseBytes.drop 14) 2 = 65535)) ∧
    (∀ k ∈ [0, 7], let s : State := putPortX 63 { (portX portReady 63) with stopped := [(k, 1)] } portReady
     (isStopped s 63 k = true) ∧ (∀ e ∈ s.tap.tx, e.2.frames = [])) ∧
    ((isStopped portReady 63 0 = false) ∧ (portUp portReady 63 = true) ∧ (heldPriorities portReady 63 = (portX portReady 63).held)) ∧
    (∀ c ∈ [1, 2], let s : State := ob [(Oid.portFlowCtrl, 63, c), (Oid.underbackPauseEnable, 63, 1), (Oid.underbackFcActive, 63, 1)] portReady
     (getObj s Oid.portFlowCtrl 63 = c) ∧ (portUp s 63 = true) ∧ (heldPriorities s 63 ≠ (portX s 63).held)) ∧
    (let s : State := ob [(Oid.portFlowCtrl, 63, 2), (Oid.underbackPauseEnable, 63, 1), (Oid.underbackFcActive, 63, 1)] (putPortX 63 { (portX portReady 63) with held := 0xFF } portReady)
     ((portX s 63).held ≠ 0) ∧ (portUp s 63 = true) ∧ (getObj s Oid.portFlowCtrl 63 ≠ 0)) := by
  unfold Sound Canonical Bounded; decide +kernel

theorem witness_PacketsThroughTheUnderback :
    let with_ (u : Ub) : State := { within .capture ready with lau := { ub := [(63, u)] } }
    let d : UbDesc := (staged (.flow 4095) [1, 2, 3]).desc
    let cur (bad : Bool) : UbCur := { desc := d, todo := [[1, 2, 3]], bad := bad, drop := false }
    (∀ bad : Bool, let s := with_ { cur := some (cur bad) }
     ((ubOf s (govLane s 63)).cur = some (cur bad)) ∧ ((cur bad).bad = bad) ∧ ((cur bad).drop = false) ∧ ((cur bad).todo = [[1, 2, 3]]) ∧
       (ubFull s (govLane s 63) = false)) ∧
    (let s := with_ { cur := some (cur false), chain := List.replicate 63 { kind := 0, last := 0, data := [], pkt := 6 } }
     ((ubOf s (govLane s 63)).cur = some (cur false)) ∧ ((cur false).drop = false) ∧ (ubFull s (govLane s 63) = true)) ∧
    (let s : State := within .capture ready
     ((ubOf s (govLane s 63)).cur = none) ∧ ((ubOf s (govLane s 63)).chain = [])) ∧
    (∀ k ∈ [0, 1], let w : UbWord := { kind := k, last := 0, data := List.replicate 32 1, pkt := 7 }
     let s := with_ { chain := [w], descs := [d] }
     ((ubOf s (govLane s 63)).cur = none) ∧ ((ubOf s (govLane s 63)).chain = w :: []) ∧ (w.kind ≠ 2) ∧ (regionFull s (govLane s 63) = false) ∧
       ((ubOf s (govLane s 63)).descs.find? (fun e => e.pkt = w.pkt) = some d)) ∧
    (let w : UbWord := { kind := 2, data := List.replicate 32 1 }
     let m : Marker := { pkt := 7, flowValid := true, flow := 4095, words := 3, cuts := 1, time := 9 }
     let s := with_ { chain := [w], marker := some m }
     ((ubOf s (govLane s 63)).cur = none) ∧ ((ubOf s (govLane s 63)).chain = w :: []) ∧ (w.kind = 2) ∧ ((ubOf s (govLane s 63)).marker = some m)) := by
  decide +kernel

theorem witness_RunsSplitIntoPlacements :
    (let k : FrameCfg := areaCfg
     (0 < k.lineBytes)) ∧
    (let k : FrameCfg := areaCfg
     (0 < k.lineBytes)) :=
  ⟨by decide +kernel, by decide +kernel⟩

theorem witness_PacketsArePlaced :
    (let s : State := { ob [(Oid.flowRxType, 4095, 2), (Oid.casksFlowQuota, 4095, 100), (Oid.lauterWidth, 4095, 8), (Oid.lauterHeight, 4095, 4)] (within .capture ready) with lau := { regions := [(63, { packets := [staged (.flow 4095) (udpFrame (leaderPacket 65535))] })] } }
     (opensFrame 63 s = some 4095)) ∧
    ((ready.dict.pitch = none) ∧ (readyPacket ready 63 = none)) ∧
    (∀ d ∈ [Dest.firmware, .exception 5], let p : Staged := staged d [1, 2]
     ((placing p).dict.pitch = none) ∧ (readyPacket (placing p) 63 = some p) ∧ (p.desc.dest = d)) ∧
    (let p : Staged := staged (.flow 4095) [1, 2]
     ∀ s ∈ [within .dormant (placing p), { placing p with flt := { retired := [{ res := resRxFlow 4095, cause := 1, reason := 1, spare := 0, time := 0 }] } }],
       (s.dict.pitch = none) ∧ (readyPacket s 63 = some p) ∧ (p.desc.dest = .flow 4095) ∧ (lauterRuns s 63 = false ∨ isRetired s (resRxFlow 4095) = true)) ∧
    (let p : Staged := staged (.flow 4095) [1, 2]
     let s : State := ob [(Oid.flowRxType, 4095, 1)] (placing p)
     (s.dict.pitch = none) ∧ (readyPacket s 63 = some p) ∧ (p.desc.dest = .flow 4095) ∧ (lauterRuns s 63 = true) ∧
       (isRetired s (resRxFlow 4095) = false) ∧ (getObj s Oid.flowRxType 4095 = 1) ∧ ((openFrames s 4095).find? (carriedBy p) = none) ∧
       ((frameUdp p.data).bind (parseSt (getObj s Oid.flowRxRtpPt 4095)) = none)) ∧
    (∀ b ∈ [65534, 1, 2], let m : GvspPacket := { ext := false, block := b, id := 1, format := 3, data := List.replicate 16 7 }
     let p : Staged := staged (.flow 4095) (udpFrame (payloadPacket b 1 (List.replicate 16 7)))
     let s : State := putFlow 4095 { (flowOf (placing p) 4095) with refused := [(2, 1)] } (placing p)
     (s.dict.pitch = none) ∧ (readyPacket s 63 = some p) ∧ (p.desc.dest = .flow 4095) ∧ (lauterRuns s 63 = true) ∧
       (isRetired s (resRxFlow 4095) = false) ∧ ((openFrames s 4095).find? (carriedBy p) = none) ∧ (getObj s Oid.flowRxType 4095 = 2) ∧
       ((frameUdp p.data).bind parseGvsp = some m) ∧ (m.block ≠ 0) ∧ (m.format = 3) ∧ (frameOfBlock s 4095 m.block = none) ∧
       (blockStale s 4095 m.block = decide (b = 65534)) ∧ (blockRefused s 4095 m.block m.ext = decide (b = 2))) ∧
    (∀ w ∈ [(2, 15), (1, 16), (2, 16)], ∀ lead ∈ [[], [65535]],
     let fr : Frame := { areaFrame with leaders := lead }
     let m : GvspPacket := { ext := false, block := 65535, id := w.1, format := 3, data := List.replicate w.2 7 }
     let p : Staged := staged (.flow 4095) (udpFrame (payloadPacket 65535 w.1 (List.replicate w.2 7)))
     let s : State := { placing p with lau := { (placing p).lau with frames := [fr] } }
     (s.dict.pitch = none) ∧ (readyPacket s 63 = some p) ∧ (p.desc.dest = .flow 4095) ∧ (lauterRuns s 63 = true) ∧
       (isRetired s (resRxFlow 4095) = false) ∧ ((openFrames s 4095).find? (carriedBy p) = some fr) ∧ (fr.cfg.gvsp = true) ∧
       ((frameUdp p.data).bind parseGvsp = some m) ∧ (m.block ≠ 0) ∧ (m.format = 3) ∧ (frameOfBlock s 4095 m.block = some (fr, 0)) ∧
       (m.block ∈ fr.leaders ↔ lead ≠ []) ∧ (payloadOk fr.cfg m.id m.data.length = decide (w.2 = 16)) ∧ ((m.block, m.id) ∈ fr.ids ↔ w.1 = 1)) := by
  refine ⟨?_, ?_, ?_, ?_, ?_, ?_, ?_⟩ <;> decide +kernel

theorem witness_FramesAndCasks :
    (∀ id ∈ [3, 4], let p : Placement := { cask := id, off := 0, addr := 65534, data := [1, 2, 3], live := true, pkt := 7 }
     let o : Placement := { p with addr := 0x10000 }
     let s : State := { placing (staged .firmware []) with lau := { (placing (staged .firmware [])).lau with flight := [o, p] } }
     (Sound s) ∧ (firstOfPc s 1 = some (1, p)) ∧ (p.live = true) ∧ (slotDead s p.addr = false) ∧ (∀ r ∈ s.lau.regions, r.2.waiting = []) ∧
       ((∀ fr ∈ s.lau.frames, fr.cask ≠ some p.cask) ↔ id = 4) ∧ (s.lau.flight[0]? = some o) ∧ (memSlot o.addr ≠ memSlot p.addr)) ∧
    (let s : State := placing (staged .firmware [])
     (idlest (openFrames s 4095) = some areaFrame) ∧ (openFrames s 4095 ≠ [])) ∧
    (let s : State := placing (staged .firmware [])
     (openFrames s 4095 = [areaFrame]) ∧ (areaFrame.ended = true) ∧ (areaFrame.placed < expectedTotal areaFrame.cfg) ∧
       (resendOutstanding s areaFrame = false)) ∧
    (let fr : Frame := areaFrame
     (fr.cask = some 3) ∧ (fr.placed ≠ 0) ∧ (2 ≠ 1 ∧ fr.cfg.policy = 1)) ∧
    (let fr : Frame := { areaFrame with cfg := { areaCfg with policy := 0 } }
     (fr.cask = some 3) ∧ (fr.placed ≠ 0) ∧ (fr.cfg.policy ≠ 1)) ∧
    (let fr : Frame := { areaFrame with cause := some 1 }
     let pre : List Frame := [{ areaFrame with seq := 8 }]
     let s : State := { placing (staged .firmware []) with lau := { (placing (staged .firmware [])).lau with frames := pre ++ fr :: [] } }
     (s.lau.frames = pre ++ fr :: []) ∧ ((∀ g ∈ pre, g.flow ≠ 4095 ∨ g.cause = none)) ∧ (fr.flow = 4095) ∧ (fr.cause.isSome = true) ∧
       (fr.cask = some 3) ∧ (fr.hydro = none) ∧ (caskBusy s 3 = false) ∧ (caskOf s 3 = some areaCask)) ∧
    (let n : Notice := { gap := true, flow := some 4095, lane := 63, pkt := 7 }
     let s : State := { placing (staged .firmware []) with lau := { (placing (staged .firmware [])).lau with notices := [n] } }
     (s.lau.notices = n :: []) ∧ (n.flow = some 4095) ∧ ((openFrames s 4095).getLast? = some areaFrame)) ∧
    (let fr : Frame := areaFrame
     let s : State := placing (staged .firmware [])
     (frameOfBlock s 4095 65535 = some (fr, 0)) ∧ (fr.cfg.resend = true) ∧ ((65535, 2) ∉ fr.ids) ∧ (2 ≤ blockPackets fr.cfg) ∧
       (65535 ∈ fr.trailers) ∧ (65535 ∈ fr.leaders) ∧ (tabGet (0, 0) (65535 * 2 ^ 32 + 2) fr.resends = (0, 0)) ∧ (0 < fr.cfg.resendMax)) ∧
    (let s : State := placing (staged .firmware [])
     (caskOf s 3 = some areaCask) ∧ (areaCask.state ≠ 5) ∧ (areaCask.replay = false) ∧ (areaCask.cfg = some areaCfg)) ∧
    (∀ c ∈ [{ areaCask with replay := true }, { areaCask with state := 5 }],
     let s : State := { placing (staged .firmware []) with lau := { casks := [(3, some c)] } }
     (caskOf s 3 = some c) ∧ (c.state = 5 ∨ c.replay = true)) := by
  simp only [Sound, Canonical, Bounded]
  refine ⟨?_, ?_, ?_, ?_, ?_, ?_, ?_, ?_, ?_, ?_⟩ <;> decide +kernel

theorem witness_RefreshDebt :
    (let p : Pc := 127
     let g : Fin 8 := 7
     let s : State := ob [(Oid.cellarPcState, 127, 2), (Oid.cellarPcPartition, 127, 2), (Oid.cellarBoilover, 2, 1)] { ready with cel := { debt := [(1023, 3)] } }
     (pcServes s p.val = true) ∧ (deferring s p.val = true) ∧ (debtOf s p.val g.val < 4)) ∧
    (let p : Pc := 127
     let g : Fin 8 := 7
     let s : State := ob [(Oid.cellarPcState, 127, 2), (Oid.cellarPcPartition, 127, 2), (Oid.cellarBoilover, 2, 1)] { ready with cel := { debt := [(1023, 4)] } }
     (pcServes s p.val = true) ∧ (deferring s p.val = true) ∧ (4 ≤ debtOf s p.val g.val)) ∧
    (let p : Pc := 127
     let g : Fin 8 := 7
     let s : State := ob [(Oid.cellarPcState, 127, 2), (Oid.cellarPcPartition, 127, 2), (Oid.cellarBoilover, 2, 1)] ready
     (pcServes s p.val = true) ∧ (deferring s p.val = true) ∧ (debtOf s p.val g.val = 0)) ∧
    (let p : Pc := 127
     let g : Fin 8 := 7
     let s : State := ob [(Oid.cellarPcState, 127, 2), (Oid.cellarPcPartition, 127, 2), (Oid.cellarBoilover, 2, 1)] { ready with cel := { debt := [(1023, 4)] } }
     (pcServes s p.val = true) ∧ (deferring s p.val = true) ∧ (0 < debtOf s p.val g.val)) ∧
    (let p : Pc := 127
     let s : State := ob [(Oid.cellarPcState, 127, 2), (Oid.cellarPcPartition, 127, 2), (Oid.cellarBoilover, 2, 1)] { ready with cel := { debt := [(1023, 4)] } }
     (pcServes s p.val = true) ∧ (deferring s p.val = true)) ∧
    (let p : Pc := 127
     let g : Fin 8 := 7
     let s : State := ob [(Oid.cellarPcState, 127, 2), (Oid.cellarPcPartition, 127, 2)] ready
     (pcServes s p.val = true) ∧ (deferring s p.val = false) ∧ (debtOf s p.val g.val = 0)) ∧
    (let p : Pc := 127
     let g : Fin 8 := 7
     let s : State := ob [(Oid.cellarPcState, 127, 2), (Oid.cellarPcPartition, 127, 2)] { ready with cel := { debt := [(1023, 4)] } }
     (pcServes s p.val = true) ∧ (deferring s p.val = false) ∧ (0 < debtOf s p.val g.val)) ∧
    (let p : Pc := 127
     let g : Fin 8 := 7
     let s : State := ob [(Oid.cellarPcState, 127, 2), (Oid.cellarPcPartition, 127, 2)] { ready with cel := { debt := [(1023, 3)] } }
     (pcServes s p.val = true) ∧ (deferring s p.val = false) ∧ (0 < debtOf s p.val g.val) ∧ (debtOf s p.val g.val < 4)) :=
  ⟨by decide +kernel, by decide +kernel, by decide +kernel, by decide +kernel, by decide +kernel, by decide +kernel, by decide +kernel,
   by decide +kernel⟩

theorem witness_CellarReads :
    (∀ second ∈ [HbmRead.corrected 1, .uncorrectable 1],
     let s : State := ob [(Oid.cellarPcState, 0, 2)] ready
     (pcServes s 0 = true) ∧ (isUncorrectable (.uncorrectable 3) = true) ∧ ((0, 64 / 32) ∉ s.cel.repaired) ∧
       ((unitAddr s 0 64).isSome = true) ∧ (getObj s Oid.cellarPcPartition 0 ≠ 2)) ∧
    (let s : State := ob [(Oid.cellarPcState, 127, 2), (Oid.cellarPcPartition, 127, 2), (Oid.cellarPcSlot, 127, 1)] ready
     (pcServes s 127 = true) ∧ ((127, 37748735 / 32) ∉ s.cel.repaired) ∧ (getObj s Oid.cellarPcPartition 127 = 2) ∧
       (servingPc s 2 (getObj s Oid.cellarPcSlot 127 ^^^ 1) = some 28)) ∧
    (∀ first ∈ [HbmRead.corrected 1, .uncorrectable 1],
     let s : State := ob [(Oid.cellarPcState, 20, 2), (Oid.cellarScrubHours, 0, 24)] ready
     (getObj s Oid.cellarScrubHours ≠ 0) ∧ (pcServes s 20 = true) ∧
       (getObj s Oid.cellarPcPartition 20 = 1 ∨ getObj s Oid.cellarPcPartition 20 = 2) ∧
       (isUncorrectable first = decide (first = .uncorrectable 1))) ∧
    (getObj (ob [(Oid.cellarScrubHours, 0, 0)] ready) Oid.cellarScrubHours 0 = 0) ∧
    (∀ n ∈ [(99, 100), (100, 100), (100, 101)],
     let s : State := ob [(Oid.cellarPcState, 20, 2), (Oid.cellarCeThreshold, 20, 100)] { ready with cel := { warned := [(20, n.2)] } }
     let w := (s.time.ticks - s.modes.bootEnd) / 125000000
     let old := tabGet (0, 0) 20 s.cel.window
     let c := if old.1 = w then old.2 + n.1 else n.1
     (pcServes s 20 = true) ∧ (c < getObj s Oid.cellarCeThreshold 20 ↔ n.1 = 99) ∧ (tabGet 0 20 s.cel.warned = w + 1 ↔ n.2 = 101)) ∧
    (ready.modes.current ≠ .cold) ∧ (85 < (86 : Word).toInt) ∧ ((79 : Word).toInt < 80) ∧ (80 ≤ (80 : Word).toInt) ∧ ((85 : Word).toInt ≤ 85) := by
  decide +kernel

theorem witness_RepairsAndSpares :
    (∀ n ∈ [3, 4],
     let s : State := ob [(Oid.cellarPcState, 20, 2)] { ready with cel := { used := [(1007, n)], marked := [(20, 1179647)] } }
     (pcServes s 20 = true) ∧ ((20, 1179647) ∈ s.cel.marked) ∧ (tabGet 0 (20 * 48 + 47) s.cel.used = n)) ∧
    (∀ l ∈ [[], [{ res := resPc 20, cause := 1, reason := 1, spare := 0, time := 0 }]],
     let s : State := ob [(Oid.cellarPcState, 20, 2)] { within .diagnostic ready with flt := { retired := l } }
     (s.modes.current ≠ .cold) ∧ (2 ≤ getObj s Oid.cellarPcState 20) ∧ (getObj s Oid.cellarPcState 20 ≠ 5) ∧
       ((recordFault (resPc 20) 5 true s).2 = .retire ↔ l = [])) ∧
    (getObj (ob [(Oid.cellarPcState, 31, 7)] ready) Oid.cellarPcState 31 = 7) ∧
    (let s : State := ob [(Oid.cellarTestState, 0, 1)] { ready with cel := { testing := [20, 21] } }
     (getObj s Oid.cellarTestState 0 = 1) ∧ (20 ∈ s.cel.testing)) := by
  decide +kernel

theorem witness_RingsQueuesAndExceptions :
    (let s : State := racking areaCask ring1023
     (bar0Writable s = true) ∧ ((ringOf s 1023).enabled = true) ∧ (countDiff 65 (ringOf s 1023).assigned ≤ (ringOf s 1023).cfg.slots) ∧
       ((ringOf s 1023).cfg.slots < countDiff 66 (ringOf s 1023).assigned) ∧ ((ringOf s 1022).enabled = false) ∧
       ((cqOf s 255).enabled = true) ∧ (countDiff (cqOf s 255).tail 0 ≤ (cqOf s 255).entries) ∧
       ((cqOf s 255).entries < countDiff (cqOf s 255).tail 1025) ∧ ((cqOf s 255).faulted = false) ∧ ((cqOf s 254).enabled = false)) ∧
    (bar0Served { ready with link := { ready.link with mse := false } } = false) ∧
    (let s : State := within .halt ready
     (bar0Served s = true) ∧ (s.modes.current = .halt)) ∧
    (let s : State := { ready with rk := { exc := { enabled := true, head := 4, tail := 5 } } }
     (bar0Writable s = true) ∧ (s.rk.exc.enabled = true) ∧ (countDiff s.rk.exc.tail 5 ≤ countDiff s.rk.exc.tail s.rk.exc.head)) ∧
    (let s : State := { racking areaCask ring1023 with rk := { (racking areaCask ring1023).rk with deliveries := [delivery1, { delivery1 with ring := 4 }] } }
     ((ringOf s 1023).enabled = true) ∧ (ringFaultOf s 1023 = 0) ∧ (s.rk.deliveries.filter (fun d => d.ring = 1023) = delivery1 :: []) ∧
       (delivery1.ring = 1023) ∧ ({ delivery1 with ring := 4 } ∈ s.rk.deliveries)) ∧
    (ringFaultOf (ob [(Oid.rackingRingFault, 1023, 2)] (racking areaCask ring1023)) 1023 ≠ 0) ∧
    (let f : ExcFrame := { reason := 5, port := 63, time := 3, data := [1] }
     let s : State := { ready with rk := { exc := { enabled := true, entries := 64, head := 0, tail := 64 }, excWait := [f] } }
     (s.rk.excWait = f :: []) ∧ (s.rk.exc.entries ≤ countDiff s.rk.exc.tail s.rk.exc.head)) ∧
    (let f : ExcFrame := { reason := 5, port := 63, time := 3, data := [1] }
     let s : State := { ready with rk := { exc := { enabled := true, entries := 64, head := 0, tail := 63 }, excWait := [f], tlb := [{ ring := 1024, page := 32, host := 0x9000 }] }, link := { ready.link with relaxed := false } }
     let e := s.rk.exc
     let body := wordBytes (excHeader e f) ++ f.data.take (e.entryBytes - 64)
     (s.rk.excWait = f :: []) ∧ (e.enabled = true) ∧ (e.faulted = false) ∧ (countDiff e.tail e.head < e.entries) ∧
       (hostWritable s = true) ∧ (s.rk.stopped = false) ∧ (f.written = false) ∧ (s.link.relaxed = false) ∧
       ((translateAll 1024 e.dir e.bigPage (splitPages (pageBytes e.bigPage) (body.length + 1) (excBase e + 4) body) s).1.isSome = true) ∧
       ((translate 1024 e.dir e.bigPage (excBase e) s).1.isSome = true)) := by
  refine ⟨?_, ?_, ?_, ?_, ?_, ?_, ?_, ?_⟩ <;> decide +kernel

theorem witness_FramesAreDelivered :
    (let s : State := racking { areaCask with state := 3 } ring1023
     let r : Nat := 1023
     let u : State := match nextRing s with | some (_, u) => u | none => s
     (nextRing s = some (r, u))) ∧
    (let s : State := racking { areaCask with state := 3 } ring1023
     let r : Nat := 1023
     let u : State := match nextRing (countStalls s) with | some (_, u) => u | none => s
     (rackingStarts s = true) ∧ (s.rk.deliveries.length < 64) ∧ (nextRing (countStalls s) = some (r, u))) ∧
    (let s : State := racking areaCask ring1023
     (rackingStarts s = true) ∧ (s.rk.deliveries.length < 64) ∧ (nextRing (countStalls s) = none)) ∧
    (let r : Nat := 1023
     let id : Nat := 3
     let c : Cask := { areaCask with state := 3 }
     let k : FrameCfg := areaCfg
     let s : State := racking c ring1023
     (ringHead s r = some (id, c)) ∧ (caskOf s id = some c) ∧ (c.cfg = some k) ∧ (slotNeed k ≤ (ringOf s r).cfg.slotBytes)) ∧
    (let k : Fin 64 := 0
     let d : Delivery := delivery1
     let s : State := { racking { areaCask with state := 5 } ring1023 with rk := { (racking areaCask ring1023).rk with deliveries := [delivery1] } }
     (s.rk.deliveries[k.val]? = some d) ∧ (rackingRuns s = true) ∧ (d.written = false)) ∧
    (let d : Delivery := { delivery1 with pieces := 3 }
     let c : Cask := { areaCask with state := 5 }
     let cfg : FrameCfg := areaCfg
     let s : State := { racking c ring1023 with rk := { (racking areaCask ring1023).rk with deliveries := [d], tlb := [{ ring := 1023, page := 0, host := 0x9000 }] } }
     let h : Nat := 0x9000
     let u : State := (translate 1023 0 false 0 s).2
     (caskOf s d.cask = some c) ∧ (c.cfg = some cfg) ∧ (d.payload.isSome = true) ∧ ((deliveryPieces (ringOf s d.ring) d).length ≤ d.pieces) ∧
       (s.link.relaxed = false) ∧
       (translate d.ring (ringOf s d.ring).cfg.dir (ringOf s d.ring).cfg.bigPage (d.count % (ringOf s d.ring).cfg.slots * (ringOf s d.ring).cfg.slotBytes) s = (some h, u))) ∧
    (let tag : Fin 16384 := 16383
     let e : TagEntry := { tag := 16383, use := .walk 1023 0 true, addr := 0, len := 8 }
     let ring : Nat := 1023
     let page : Nat := 0
     let table : Bool := true
     let s : State := { racking areaCask ring1023 with link := { ready.link with tags := [e] } }
     (tagEntry s tag.val = some e) ∧ (e.use = .walk ring page table)) ∧
    (let k : Fin 64 := 0
     let d : Delivery := { delivery1 with written := true, visible := true }
     let c : Cask := { areaCask with state := 5 }
     let s : State := { racking c ring1023 with rk := { (racking areaCask ring1023).rk with deliveries := [d] } }
     (s.rk.deliveries[k.val]? = some d) ∧ (rackingRuns s = true) ∧ (d.visible = true) ∧ (mustWait s d = false) ∧ (caskOf s d.cask = some c)) :=
  ⟨by decide +kernel, by decide +kernel, by decide +kernel, by decide +kernel, by decide +kernel, by decide +kernel, by decide +kernel,
   by decide +kernel⟩

theorem witness_FrameGridIsExact :
    let s : State := sending {}
    let t : Nat := 1023
    let x : TxX := { tNext := 5, rem := 59 }
    (0 < getObj s Oid.tapRateNum t) ∧ (x.rem < getObj s Oid.tapRateNum t) := by
  decide +kernel

theorem witness_FlowsStartFrames :
    (let t : TxFlow := 1023
     let s : State := sending {}
     (txMeets s t.val = true) ∧ (txLeaving s t.val = false) ∧ ((txOf s t.val).entered = false) ∧ (txFaulted s t.val = false) ∧
       ((txOf s t.val).stopping = false) ∧ (getObj s Oid.tapStartMode t.val = 0)) ∧
    (let t : TxFlow := 1023
     let s : State := ob [(Oid.tapStartMode, 1023, 1), (Oid.tapStartAt, 1023, Time96pack (at_ 99 7))] (sending {})
     let j : Nat := 59
     let u : State := tapEntryOf 1023 s
     let num := getObj s Oid.tapRateNum t.val
     let d := getObj s Oid.tapRateDen t.val * 1000000000
     (txMeets s t.val = true) ∧ (txLeaving s t.val = false) ∧ ((txOf s t.val).entered = false) ∧ (txFaulted s t.val = false) ∧
       ((txOf s t.val).stopping = false) ∧ (getObj s Oid.tapStartMode t.val = 1) ∧ (0 < num) ∧ (0 < d) ∧ (j < (txOf u t.val).k)) ∧
    (let t : TxFlow := 1023
     let s : State := ob [(Oid.tapStartMode, 1023, 1), (Oid.tapStartAt, 1023, Time96pack (at_ 99 7))] (sending {})
     let num := getObj s Oid.tapRateNum t.val
     let d := getObj s Oid.tapRateDen t.val * 1000000000
     (txMeets s t.val = true) ∧ (txLeaving s t.val = false) ∧ ((txOf s t.val).entered = false) ∧ (txFaulted s t.val = false) ∧
       ((txOf s t.val).stopping = false) ∧ (getObj s Oid.tapStartMode t.val = 1) ∧ (0 < num) ∧ (0 < d)) ∧
    (let t : TxFlow := 1023
     let s : State := ob [(Oid.tapStartMode, 1023, 2)] (sending {})
     (txMeets s t.val = true) ∧ (txLeaving s t.val = false) ∧ ((txOf s t.val).entered = false) ∧ (txFaulted s t.val = false) ∧
       ((txOf s t.val).stopping = false) ∧ (getObj s Oid.tapStartMode t.val = 2) ∧ (0 < getObj s Oid.tapRateNum t.val) ∧
       (0 < getObj s Oid.tapRateDen t.val * 1000000000)) ∧
    (let t : TxFlow := 1023
     let s : State := sending { entered := true }
     ((txMeets s t.val = false ∨ txLeaving s t.val = true ∨ (txOf s t.val).entered = true))) ∧
    (let s : State := sending { entered := true, tNext := 100 * 10 ^ 9 }
     (s.dict.pitch = none)) ∧
    (let t : TxFlow := 1023
     let s : State := sending { entered := true, tNext := 100 * 10 ^ 9 }
     (gridStarts t.val s = true)) ∧
    (let t : TxFlow := 1023
     let s : State := { ob [(Oid.tapStartMode, 1023, 3), (Oid.eventsFlowTriggerSel, 31, 2 ^ 31 + 1023)] (sending { entered := true }) with fab := { ready.fab with flowTrig := [(31, some { ts := 0, due := Time96pack (at_ 100 0), trig := 3, late := false })] } }
     (triggerStarts t.val s = true)) ∧
    (let t : TxFlow := 1023
     let s : State := sending { entered := true, tNext := 100 * 10 ^ 9 + 6 }
     (s.dict.pitch = none) ∧ (nowNs s < (txOf s t.val).tNext)) ∧
    (let t : TxFlow := 1023
     let s : State := sending { entered := true, tNext := 100 * 10 ^ 9 + 5 }
     (s.dict.pitch = none) ∧ ((txOf s t.val).entered = true) ∧ ((txOf s t.val).stopping = false) ∧ ((txOf s t.val).stopped = false) ∧
       (getObj s Oid.tapStartMode t.val ≤ 2) ∧ ((txOf s t.val).tNext ≤ nowNs s) ∧ (txFaulted s t.val = false) ∧
       (stopReached s t.val (txOf s t.val) (txOf s t.val).tNext = false) ∧ (cfgGet (txSettings s t.val) Oid.tapSource t.val = 0)) ∧
    (let t : TxFlow := 1023
     let k : Nat := 31
     let o : Occ := { ts := 0, due := Time96pack (at_ 100 0), trig := 3, late := false }
     let s : State := { ob [(Oid.tapStartMode, 1023, 3), (Oid.eventsFlowTriggerSel, 31, 2 ^ 31 + 1023)] (sending { entered := true }) with fab := { ready.fab with flowTrig := [(31, some o)] } }
     (s.dict.pitch = none) ∧ ((txOf s t.val).entered = true) ∧ ((txOf s t.val).stopping = false) ∧ ((txOf s t.val).stopped = false) ∧
       (2 < getObj s Oid.tapStartMode t.val) ∧ (txFaulted s t.val = false) ∧ (startedFrames (txOf s t.val) = []) ∧ (txTrigger s t.val = some k) ∧
       (tabGet none k s.fab.flowTrig = some o) ∧ (tNsec o.due + getObj s Oid.tapTriggerDelayNs t.val ≤ nowNs s) ∧
       (stopReached s t.val (txOf s t.val) (nowNs s) = false) ∧ (cfgGet (txSettings s t.val) Oid.tapSource t.val = 0)) :=
  ⟨by decide +kernel, by decide +kernel, by decide +kernel, by decide +kernel, by decide +kernel, by decide +kernel, by decide +kernel,
   by decide +kernel, by decide +kernel, by decide +kernel, by decide +kernel⟩

theorem witness_PacketsAreSent :
    (let p : Port := 63
     let t : Time96 := at_ 100 0
     let s : State := sending { entered := true }
     (dueFlows s p.val (Time96pack t) = [])) ∧
    (let p : Port := 63
     let t : Time96 := at_ 100 0
     let s : State := sending { entered := true, frames := [{ k := 0, start := 5, cfg := txSettings (sending {}) 1023, src := .pattern, npk := 3 }] }
     (dueFlows s p.val (Time96pack t) ≠ [])) ∧
    (let t : Nat := 1023
     let fr : TxFrame := { k := 0, start := 5, cfg := txSettings (sending {}) 1023, src := .pattern, npk := 3 }
     let s : State := sending { frames := [fr] }
     (cannotSend s t fr = false) ∧ (fr.dead = false) ∧ (payloadThere t fr = true) ∧ ((txOf s t).entered = false)) ∧
    (let t : TxFlow := 1023
     let s : State := sending { entered := true, frames := [{ k := 0, start := 5, cfg := txSettings (sending {}) 1023, src := .mem 64, npk := 3 }] }
     (tapLevel (txOf s t.val) ≤ getObj s Oid.tapBufferKib t.val * 1024)) ∧
    (let t : TxFlow := 1023
     let fr : TxFrame := { k := 0, start := 5, cfg := txSettings (sending {}) 1023, src := .mem 64, npk := 3 }
     let l : List TxFrame := []
     let a : Nat := 64
     let s : State := sending { entered := true, frames := [fr] }
     ((txOf s t.val).frames = fr :: l) ∧ (fr.src = .mem a) ∧ (fr.fetched < txTotal (txGeo fr.cfg t.val fr.k))) ∧
    (let t : TxFlow := 1023
     let v : Word := 64
     let s : State := sending { ring := { enabled := true } }
     (bar0Writable s = true) ∧ ((txOf s t.val).ring.enabled = true) ∧ ((txOf s t.val).ring.fault = 0) ∧
       (countDiff (v.toNat % 2 ^ 31) (txOf s t.val).ring.taken ≤ (txOf s t.val).ring.slots)) ∧
    (let t : TxFlow := 1023
     let v : Word := 65
     let s : State := sending { ring := { enabled := true } }
     (bar0Writable s = true) ∧ ((txOf s t.val).ring.enabled = true) ∧ ((txOf s t.val).ring.fault = 0) ∧
       ((txOf s t.val).ring.slots < countDiff (v.toNat % 2 ^ 31) (txOf s t.val).ring.taken)) ∧
    (let s : State := sending { ring := { enabled := true, fault := 5 } }
     (bar0Writable s = true) ∧ ((txOf s 1022).ring.enabled = false) ∧ ((txOf s 1023).ring.fault ≠ 0) ∧
       (bar0Served { s with link := { s.link with mse := false } } = false)) ∧
    (let t : TxFlow := 1023
     let s : State := ob [(Oid.tapFrameCount, 1023, 3)] (sending { entered := true, count := 3 })
     ((txOf s t.val).entered = true) ∧ ((txOf s t.val).stopping = false) ∧ ((txOf s t.val).stopped = false) ∧
       (stopReached s t.val (txOf s t.val) (if getObj s Oid.tapStartMode t.val ≤ 2 then (txOf s t.val).tNext else nowNs s) = true)) ∧
    (let t : TxFlow := 1023
     let id : Nat := 3
     let l : List Nat := []
     let s : State := { ob [(Oid.tapSource, 1023, 2), (Oid.tapSrcFlow, 1023, 4095), (Oid.tapReplayLoop, 1023, 0)] (sending {}) with lau := { casks := [(3, some { areaCask with state := 4, replay := true })] } }
     (getObj s Oid.tapSource t.val = 2) ∧ (isOn s Oid.tapReplayLoop t.val = false) ∧ (fetchedCasks s t.val = id :: l)) :=
  ⟨by decide +kernel, by decide +kernel, by decide +kernel, by decide +kernel, by decide +kernel, by decide +kernel, by decide +kernel, by decide +kernel,
   by decide +kernel, by decide +kernel⟩

theorem witness_RegionAccumulators :
    (let ds : List Int := []
     ((∀ d ∈ ds, -65535 ≤ d ∧ d ≤ 65535)) ∧ (ds = [])) ∧
    (let ds : List Int := [65535, -65535, 3]
     let d : Int := -65535
     ((∀ d ∈ ds, -65535 ≤ d ∧ d ≤ 65535)) ∧ (ds ≠ [])) ∧
    (let ds : List Int := [65535, -65535, 3]
     ((∀ d ∈ ds, -65535 ≤ d ∧ d ≤ 65535)) ∧ (ds ≠ [])) ∧
    (let ds : List Int := [65535, -65535, 3]
     ((∀ d ∈ ds, -65535 ≤ d ∧ d ≤ 65535))) :=
  ⟨by decide +kernel, by decide +kernel, by decide +kernel, by decide +kernel⟩

theorem witness_HydrometerSteps :
    (let f : Flow := 4095
     let c : HydroCopy := { off := 3, data := [1, 2] }
     let t : List HydroCopy := []
     let h : HydroFrame := { set := 7, cfg := [(objKey Oid.hydroRef 7, 1)], queue := [c] }
     let fr : Frame := judged h none
     let s : State := { placing (staged .firmware []) with lau := { frames := [fr] } }
     (hydroFrame f.val (fun h => !h.queue.isEmpty) s = some (fr, h)) ∧ (h.queue = c :: t) ∧ (cfgGet h.cfg Oid.hydroRef h.set = 1) ∧ (h.geom = false) ∧
       (h.aligned = true)) ∧
    (let f : Flow := 4095
     let c : HydroCopy := { off := 3, data := [1, 2] }
     let t : List HydroCopy := []
     let h : HydroFrame := { set := 7, cfg := [(objKey Oid.hydroRef 7, 1)], queue := [c], geom := true }
     let fr : Frame := judged h none
     let s : State := { placing (staged .firmware []) with lau := { frames := [fr] } }
     (hydroFrame f.val (fun h => !h.queue.isEmpty) s = some (fr, h)) ∧ (h.queue = c :: t) ∧
       ((cfgGet h.cfg Oid.hydroRef h.set ≠ 1 ∨ h.geom = true ∨ h.aligned = false))) ∧
    (let f : Flow := 4095
     let c : HydroCopy := { off := 3, data := [1, 2] }
     let t : List HydroCopy := []
     let h : HydroFrame := { set := 7, cfg := [(objKey Oid.hydroRef 7, 1)], reads := [c] }
     let fr : Frame := judged h none
     let s : State := { placing (staged .firmware []) with lau := { frames := [fr] }, cel := { poisoned := [goldenAddr h areaCfg 0 0 / 32 * 32] } }
     let gb := (pgOf fr.cfg.format).2
     let o := c.off % fr.cfg.stride / gb * gb
     let n := (c.off % fr.cfg.stride + c.data.length + gb - 1) / gb * gb - o
     let a := goldenAddr h fr.cfg (c.off / fr.cfg.stride) o
     (hydroFrame f.val (fun h => !h.reads.isEmpty) s = some (fr, h)) ∧ (h.reads = c :: t) ∧ (goldenPoisoned s a n = true)) ∧
    (let f : Flow := 4095
     let c : HydroCopy := { off := 3, data := [1, 2] }
     let t : List HydroCopy := []
     let h : HydroFrame := { set := 7, cfg := [(objKey Oid.hydroRef 7, 1)], reads := [c] }
     let fr : Frame := judged h none
     let s : State := { ob [(Oid.cellarPcState, 0, 2)] (placing (staged .firmware [])) with lau := { frames := [fr] } }
     let gb := (pgOf fr.cfg.format).2
     let o := c.off % fr.cfg.stride / gb * gb
     let n := (c.off % fr.cfg.stride + c.data.length + gb - 1) / gb * gb - o
     let a := goldenAddr h fr.cfg (c.off / fr.cfg.stride) o
     (hydroFrame f.val (fun h => !h.reads.isEmpty) s = some (fr, h)) ∧ (h.reads = c :: t) ∧ (c.bad = false) ∧ (goldenPoisoned s a n = false) ∧
       ((∀ i, i < n → pageFilling s (a + i) = false))) ∧
    (let f : Flow := 4095
     let c : HydroCopy := { off := 3, data := [1, 2] }
     let t : List HydroCopy := []
     let h : HydroFrame := { set := 7, cfg := [(objKey Oid.hydroRef 7, 1)], reads := [c] }
     let fr : Frame := judged h none
     let s : State := { placing (staged .firmware []) with lau := { frames := [fr] } }
     (hydroFrame f.val (fun h => !h.reads.isEmpty) s = some (fr, h)) ∧ (h.reads = c :: t)) ∧
    (let f : Flow := 4095
     let h : HydroFrame := { set := 7, cfg := [(objKey Oid.hydroRef 7, 1)] }
     let fr : Frame := judged h (some 1)
     let id : Nat := 3
     let pre : List Frame := [judged h none]
     let post : List Frame := []
     let s : State := { placing (staged .firmware []) with lau := { frames := pre ++ fr :: post, casks := [(3, some areaCask)] } }
     (s.lau.frames = pre ++ fr :: post) ∧ ((∀ g ∈ pre, g.flow ≠ f.val ∨ g.cause = none)) ∧ (fr.flow = f.val) ∧ (fr.cause.isSome = true) ∧
       (fr.cask = some id) ∧ (fr.hydro = some h) ∧ (h.closed = false) ∧ (h.queue = []) ∧ (h.reads = []) ∧ (caskBusy s id = false)) ∧
    (let s : State := ob [(Oid.hydroSelftest, 0, 1)] ready
     (getObj s Oid.hydroSelftest = 1)) ∧
    (let s : State := ob [(Oid.patternSelftest, 0, 1)] ready
     (getObj s Oid.patternSelftest = 1)) :=
  ⟨by decide +kernel, by decide +kernel, by decide +kernel, by decide +kernel, by decide +kernel, by decide +kernel, by decide +kernel,
   by decide +kernel⟩

theorem witness_PositionAtATime :
    (let a : EncSample := { t := Time96pack (at_ 1 0), p := 100, valid := true, jump := false }
     let b : EncSample := { t := Time96pack (at_ 1 200), p := 301, valid := true, jump := false }
     let t : Nat := Time96pack (at_ 1 199)
     (0 < (tNanos b.t : Int) - tNanos a.t) ∧ ((tNanos b.t : Int) - tNanos a.t ≤ 200) ∧ (tNanos a.t ≤ tNanos t) ∧ (tNanos t < tNanos b.t) ∧
       (a.p < 2 ^ 47) ∧ (b.p < 2 ^ 47) ∧ (a.p ≤ b.p)) ∧
    (let a : EncSample := { t := Time96pack (at_ 1 0), p := 2 ^ 48 - 1, valid := true, jump := false }
     let b : EncSample := { t := Time96pack (at_ 1 200), p := 200, valid := true, jump := false }
     (0 < (tNanos b.t : Int) - tNanos a.t) ∧ ((tNanos b.t : Int) - tNanos a.t ≤ 200)) ∧
    (∀ ns ∈ [0, 201], let a : EncSample := { t := Time96pack (at_ 1 0), p := 100, valid := true, jump := false }
     let b : EncSample := { t := Time96pack (at_ 1 ns), p := 301, valid := true, jump := false }
     (tNanos b.t : Int) - tNanos a.t ≤ 0 ∨ 200 < (tNanos b.t : Int) - tNanos a.t) ∧
    (tNanos (Time96pack (at_ 1 7)) ≤ tNanos (Time96pack (at_ 1 7))) ∧
    (let b : EncSample := { t := Time96pack (at_ 99 999999805), p := 200, valid := true, jump := false }
     let a : EncSample := { t := Time96pack (at_ 99 999999705), p := 100, valid := true, jump := false }
     let s : State := encReady { samples := [{ b with t := Time96pack (at_ 99 999999806) }, b, a] }
     (available s 7 = b :: [a]) ∧ (answerAt (available s 7) (Time96pack (at_ 99 999999804)) = some (some (199, true))) ∧
       (answerAt (available s 7) (Time96pack (at_ 99 999999704)) = some none)) := by
  decide +kernel

theorem witness_PositionFeedback :
    (let s : State := encReady {}
     (s.modes.current ≠ .cold) ∧ (isOn s Oid.posEnable 7 = true) ∧ (isOn s Oid.posRetired 7 = false) ∧ ((encOf s 7).held = none) ∧
       (isOn ready Oid.posEnable 7 = false) ∧ ((encOf s 7).pend = []) ∧ (stoodStill s 7 = true) ∧
       (stoodStill (encReady { lastX := some (100 * 10 ^ 9) }) 7 = false)) ∧
    (∀ ns ∈ [999999805, 999999806],
     let v : EncInterval := { pPrev := 0, p := 100, tPrev := Time96pack (at_ 99 999999646), t := Time96pack (at_ 99 ns), valid := true, after := 100 }
     let s : State := ob [(Oid.posCmpState, 31, 1), (Oid.posCmpChannel, 31, 7), (Oid.posCmpMode, 31, 1), (Oid.posCmpTarget, 31, 50)] (encReady { pend := [v] })
     (s.modes.current ≠ .cold) ∧ (isOn s Oid.posRetired 7 = false) ∧ ((encOf s 7).pend = v :: []) ∧
       (tNanos v.t + 200 ≤ tNanos (now s) ↔ ns = 999999805)) ∧
    (getObj ready Oid.posCmpState 31 ≠ 1) ∧
    (let new : EncSample := { t := Time96pack (at_ 1 160), p := 200, valid := true, jump := false }
     let s : State := encReady { samples := [new], lastX := some 1000000000, consec := 2, lastDt := 100 }
     (s.modes.current ≠ .cold) ∧ (isOn s Oid.posEnable 7 = true) ∧ (isOn s Oid.posRetired 7 = false) ∧ (available s 7 = new :: []) ∧
       (getObj s Oid.posSpeedMethod 7 = 0) ∧ ((encOf s 7).lastX = some 1000000000) ∧ (2 ≤ (encOf s 7).consec) ∧
       ((encOf s 7).lastDt < (tNanos new.t : Int) - 1000000000)) ∧
    (∀ l ∈ [99999999950, 100000000004],
     let s : State := ob [(Oid.posQuadEnable, 7, 1), (Oid.posQuadMinNs, 7, 50)] (encReady { out := 5, edgeAt := some l })
     (s.modes.current ≠ .cold) ∧ (isOn s Oid.posQuadEnable 7 = true) ∧ (isOn s Oid.posEnable 7 = true) ∧ (isOn s Oid.posRetired 7 = false) ∧
       (quadTarget s 7 ≠ (encOf s 7).out) ∧ (quadEdgeDue s 7 = decide (l = 99999999950))) := by
  decide +kernel

theorem witness_Strobes :
    ((lampX ready 15).occ = none) ∧ ((lampX ready 15).lit = none) ∧
    (∀ b ∈ [false, true], let o : Occ := { ts := 1, due := 2, trig := 3, late := false }
     let s : State := ob [(Oid.lampIntlkLevel, 0, if b then 15 else 7)] (lampReady { occ := some (3, o) })
     ((lampX s 15).occ = some (3, o)) ∧ (lampState (putLamp 15 { (lampX s 15) with occ := none } s) 15 = 1 ↔ b = true)) ∧
    (∀ d ∈ [12, 13, 14], let s : State := lampReady { lit := some (5, Time96pack (at_ 100 d), 1000) }
     ((lampX s 15).lit = some (5, Time96pack (at_ 100 d), 1000)) ∧ (nextTickTime s < Time96pack (at_ 100 d) ↔ d = 14)) ∧
    (∀ w ∈ [(99, 1000, 100), (100, 1000, 100), (99, 999, 100), (99, 1000, 0)],
     let s : State := ob [(Oid.lampOpenMinMa, 15, w.2.2), (Oid.lampIsnsScale, 15, 1000)] (lampReady { length := w.2.1, peakDue := true })
     let ma := min 65535 (w.1 * fabObj s Oid.lampIsnsScale 15 / 1000)
     let least := fabObj s Oid.lampOpenMinMa 15
     ((lampX s 15).peakDue = true) ∧ (least ≠ 0 ∧ 1000 ≤ (lampX s 15).length ∧ ma < least ↔ w = (99, 1000, 100))) ∧
    (∀ d ∈ [5, 6], let s : State := lampReady { busy := true, free := Time96pack (at_ 100 d) }
     ((lampX s 15).lit = none) ∧ ((lampX s 15).free ≤ now s ↔ d = 5)) := by
  decide +kernel

theorem witness_HeadsAndInterlocks :
    (∀ mv ∈ [100, 101], let s : State := ob [(Oid.lampIlimitMa, 15, 100), (Oid.lampIsnsScale, 15, 1000)] (lampReady { lit := some (5, 9, 1000) })
     let ma := min 65535 (mv * fabObj s Oid.lampIsnsScale 15 / 1000)
     ((lampX s 15).lit = some (5, 9, 1000)) ∧ (lampLimit s 15 = some 100) ∧ (100 < ma ↔ mv = 101)) ∧
    (∀ b ∈ [false, true], let s : State := ob [(Oid.lampIntlkLevel, 0, if b then 15 else 7)] (lampReady { lit := some (5, 9, 1000) })
     (s.modes.current ≠ .cold) ∧ ((getObj s Oid.lampIntlkLevel).testBit 3 = b) ∧ (2 ≠ 3)) ∧
    (let s : State := lampReady { wb := some 77, present := true }
     ((lampX s 15).wb = some 77) ∧ ((lampX s 15).wbNext = none) ∧ ((lampX s 15).retryAt = none) ∧ ((lampX s 15).present = true) ∧
       ((lampFault 15 2 s).modes.current ≠ .halt)) ∧
    (∀ d ∈ [5, 6], let s : State := lampReady { wb := some 77, retryAt := some (Time96pack (at_ 100 d)) }
     ((lampX s 15).wb = some 77) ∧ ((lampX s 15).retryAt = some (Time96pack (at_ 100 d))) ∧ (Time96pack (at_ 100 d) ≤ now s ↔ d = 5)) ∧
    (∀ k ∈ [0, 1, 2], let s : State := lampReady { present := true, misses := k }
     (s.modes.current ≠ .cold) ∧ (s.modes.current ≠ .halt) ∧ ((lampX s 15).present = true) ∧
       ((lampX (lampFault 15 1 s) 15).misses + 1 < 3 ↔ k ≠ 2) ∧ ((lampX s 15).misses = 2 ↔ k = 2)) ∧
    (∀ there ∈ [false, true],
     let s : State := { lampReady { present := there, misses := 2 } with blobs := [(objKey Oid.lampHeadSerial 15, List.replicate 16 0)] }
     (s.modes.current ≠ .cold) ∧ (s.modes.current ≠ .halt) ∧ (s.modes.current ≠ .boot) ∧ ((lampX s 15).present = there) ∧
       (headValid headMemory = true) ∧ (slice 0x28 16 headMemory = getBlob s Oid.lampHeadSerial 15)) := by
  refine ⟨?_, ?_, ?_, ?_, ?_, ?_⟩ <;> decide +kernel

theorem witness_PowerAndThermal :
    (∀ mv ∈ [5, 6, 9], ∀ k ∈ [0, 1, 2],
     let s : State := ob [(Oid.powerSagDeepMv, 0, 6), (Oid.powerSagMv, 0, 9), (Oid.powerClockStep, 0, k)] ready
     (s.modes.current ≠ .cold) ∧ (getObj s Oid.powerClockStep = k) ∧ (mv < getObj s Oid.powerSagDeepMv ↔ mv = 5) ∧
       (mv < getObj s Oid.powerSagMv ↔ mv ≠ 9)) ∧
    (∀ l ∈ [99999999012, 99999999013], ∀ mv ∈ [18, 19],
     let s : State := ob [(Oid.powerSagMv, 0, 9), (Oid.powerClockStep, 0, 2)] { ready with flt := { stepAt := l } }
     (getObj s Oid.powerClockStep ≠ 0) ∧ (s.flt.stepAt + 1000 < tNanos (now s) + 8 ↔ l = 99999999012) ∧
       (getObj s Oid.powerSagMv + 10 ≤ mv ↔ mv = 19)) ∧
    ((ready.modes.current ≠ .cold) ∧ ([-5, -4, -5, -5, -5, -5, -5, -5, -5, -5, -5, -5, -5, -5, -5, -5] : List Word).length = 16) ∧
    (let s : State := { ready with flt := { hot := [(33, 1), (34, 1)] } }
     (thermLimit s 4 1 ≤ 119) ∧ (hotCount s 4 1 = 1) ∧ (119 < thermLimit s 4 2) ∧ (thermLimit s 4 2 ≤ 120) ∧ (hotCount s 4 2 = 1)) := by
  decide +kernel

theorem witness_LinkFormsAndWindows :
    (∀ w ∈ [(3, 6), (4, 5), (4, 6)], let s : State := { ob [(Oid.hostlinkMaxSpeed, 0, w.2)] State.reset with link := { perst := false } }
     let code := min (5 + 1) (getObj s Oid.hostlinkMaxSpeed)
     (s.modes.current ≠ .cold) ∧ (s.link.perst = false) ∧ (s.link.up = false) ∧ (2 ^ w.1 < 16 ∨ code < 6 ↔ w ≠ (4, 6))) ∧
    (ready.link.up = true) ∧
    (let s : State := { within .dormant ready with link := { ready.link with aspmL1 := true } }
     (s.modes.current = .dormant) ∧ (s.link.up = true) ∧ (s.link.aspmL1 = true)) ∧
    ((ready.modes.current ≠ .dormant) ∧ (configServed ready = true) ∧ (ready.link.l2 = false) ∧ (ready.fab.pba = []) ∧ (bar0Served ready = true)) ∧
    (let s : State := windowed
     (s.link.up = true) ∧ (bar2Hit s (.write (offset63 + 4093) [1, 2, 3] false) = true) ∧ (bar0Served s = true) ∧
       (bar2Translate (barAccess s) (offset63 + 4093).toNat 3 true = some (refBase + 4093)) ∧ (slotDead s (refBase + 4093) = false) ∧
       (bar2Translate (barAccess s) (offset63 + 4094).toNat 3 true = none) ∧ (bar2Hit s (.write (offset63 + 4094) [1, 2, 3] false) = true) ∧
       (bar2Hit s (.write (offset63 + 4093) [1, 2, 3] true) = true)) ∧
    (let s : State := windowed
     (bar2Hit s (.read (offset63 + 4093) 3) = true) ∧ (bar2Hit s (.read (offset63 + 4094) 3) = true) ∧
       (bar2Translate (barAccess s) (offset63 + 4093).toNat 3 false = some (refBase + 4093)) ∧ (refBase + 4093 + 3 ≤ 0x20000000000) ∧
       (∀ n, n < 3 → unitPoisoned s (refBase + 4093 + n) = false) ∧ (bar2Translate (barAccess s) (offset63 + 4094).toNat 3 false = none)) ∧
    (∀ up ∈ [false, true], let s : State := { windowed with link := { windowed.link with up := up, mse := false } }
     (s.link.up = up) ∧ (bar0Served s = false) ∧ (bar2Hit s (.read offset63 3) = true) ∧ (bar2Hit s (.write offset63 [1] false) = true)) := by
  decide +kernel

theorem witness_HostResets :
    (let s : State := busy
     (configServed s = true) ∧ (s.link.up = true) ∧ (s.link.perst = false) ∧ (s.modes.current ≠ .cold) ∧ (s.modes.current ≠ .boot) ∧
       (s.link.bme = true) ∧ (s.link.d3hot = false)) ∧
    (let c : HostConfig := { busMaster := true, memSpace := true, relaxed := true, maxPayload := 2, maxRead := 5, extTag := true, tag10 := true, tag14 := true, cplSel := 15, aspmL1 := true }
     (c.busMaster = true) ∧ ({ c with busMaster := false }.busMaster = false)) := by
  decide +kernel

theorem witness_TagsAndCompletions :
    (let tag : Fin 16384 := 7
     let e : TagEntry := { tag := 7, use := .zero 1023 0, addr := 64, len := 0 }
     let s : State := busy
     (s.link.up = true) ∧ (tagEntry s tag.val = some e)) ∧
    (let tag : Fin 16384 := 8
     let s : State := busy
     (s.link.up = true) ∧ (tagEntry s tag.val = none) ∧ (quarantined s tag.val = false)) ∧
    (let tag : Fin 16384 := 9
     let e : TagEntry := { tag := 9, use := .tapData 1023 0 64, addr := 128, len := 64 }
     let s : State := busy
     (tagEntry s tag.val = some e)) ∧
    (let tag : Fin 16384 := 8
     let s : State := busy
     (tagEntry s tag.val = none)) ∧
    (let tag : Fin 16384 := 8
     let last : Bool := true
     let s : State := { busy with link := { busy.link with quar := [{ tag := 8, use := .discard, addr := 0, len := 0 }] } }
     (quarantined s tag.val = true) ∧ (last = true)) ∧
    (let tag : Fin 16384 := 8
     let last : Bool := false
     let s : State := { busy with link := { busy.link with quar := [{ tag := 8, use := .discard, addr := 0, len := 0 }] } }
     (quarantined s tag.val = true) ∧ (last = false)) ∧
    (let tag : Fin 16384 := 8
     let s : State := { busy with link := { busy.link with quar := [{ tag := 8, use := .discard, addr := 0, len := 0 }] } }
     (quarantined s tag.val = true)) ∧
    (let tag : Fin 16384 := 8
     let s : State := busy
     (quarantined s tag.val = false)) ∧
    (let tag : Fin 16384 := 9
     let e : TagEntry := { tag := 9, use := .tapData 1023 0 64, addr := 128, len := 64 }
     let s : State := busy
     (s.link.up = true) ∧ (tagEntry s tag.val = some e) ∧ (e.use ≠ .discard)) ∧
    (let tag : Fin 16384 := 8
     let e : TagEntry := { tag := 8, use := .discard, addr := 128, len := 64 }
     let s : State := { busy with link := { busy.link with tags := [e] } }
     (s.link.up = true) ∧ (tagEntry s tag.val = some e) ∧ (e.use = .discard)) :=
  ⟨by decide +kernel, by decide +kernel, by decide +kernel, by decide +kernel, by decide +kernel, by decide +kernel, by decide +kernel,
   by decide +kernel, by decide +kernel, by decide +kernel⟩

theorem witness_StepRunsFront :
    (let c : Instr := .l1Exit
     let rest : List Instr := [.stepApply]
     let s : State := { ready with pending := c :: rest }
     (s.pending = c :: rest)) ∧
    (let s : State := ready
     (s.pending = [])) :=
  ⟨by decide +kernel, by decide +kernel⟩

theorem witness_ResetState :
    (let id : Nat := Oid.timeCmpMode
     let r : ObjRow := row Oid.timeCmpMode
     (objRow? id = some r) ∧
       (¬(id = Oid.cellarPcPartition ∨ id = Oid.cellarPcSlot ∨ id = Oid.cellarShare ∨ id = Oid.cellarShare + 1 ∨ id = Oid.cellarShare + 2 ∨ id = Oid.portMacAddr ∨ id = Oid.portFec ∨ id = Oid.dictMgmtMac ∨ id = Oid.dictObjectCount))) ∧
    (let pc : Nat := 127
     (pc < 128)) :=
  ⟨by decide +kernel, by decide +kernel⟩

theorem witness_BlockDifference :
    (let a : Nat := 65535
     let b : Nat := 1
     (1 ≤ a) ∧ (a ≤ 65535) ∧ (1 ≤ b) ∧ (b ≤ 65535)) ∧
    (let a : Nat := 65535
     let n : Nat := 32767
     (1 ≤ a) ∧ (a ≤ 65535) ∧ (n ≤ 32767)) ∧
    (let a : Nat := 2 ^ 64 - 1
     let b : Nat := 0
     (a < 2 ^ 64) ∧ (b < 2 ^ 64)) ∧
    (let a : Nat := 1
     let n : Nat := 2 ^ 63 - 1
     (1 ≤ a) ∧ (a + n < 2 ^ 64) ∧ (n < 2 ^ 63)) ∧
    (let s : State := placing (staged .firmware [])
     (openFrames s 4095 = areaFrame :: []) ∧ (blockStale s 4095 65534 = true) ∧ (frameOfBlock s 4095 65535 = some (areaFrame, 0))) :=
  ⟨by decide +kernel, by decide +kernel, by decide +kernel, by decide +kernel, by decide +kernel⟩

theorem witness_DictionaryWrites_staged_block :
    let q : Transport := .firmware 4 10 (BitVec.ofNat 24 Oid.posList) [8, 0, 0, 0, 5, 6, 7, 8, 0, 0, 0, 0]
    let s : State := { ready with dict := { ready.dict with planA := { state := .active, entries := [] }, transfers := [{ id := Oid.posList, index := 0, who := .firmware, plan := some (targetPlan (handOver q ready).req.target), data := [1, 2, 3, 4, 0, 0, 0, 0] }] } }
    let h : Handed := handOver q s
    let r : ObjRow := row Oid.posList
    let off : Nat := 8
    let data : List Byte := [5, 6, 7, 8, 0, 0, 0, 0]
    let v : PVal := .bytes [1, 2, 3, 4, 0, 0, 0, 0, 5, 6, 7, 8, 0, 0, 0, 0]
    let i := indexOf h.req r
    let p := targetPlan h.req.target
    (carried q s = some h) ∧ (h.req.op = 4) ∧ (h.req.target ≠ 0) ∧ (h.req.final = true) ∧ (Checked h r) ∧ (isBytes r.type = true) ∧
      (i.2 = numOut h.req.le 4 off ++ data) ∧ (off < 2 ^ 32) ∧ (off + data.length ≤ maxBytes r.type) ∧
      (blockStatus h.req (transferOn h.before h.req.id i.1) off = St.ok) ∧
      (decodeValue h.req.le r.type (((transferOn h.before h.req.id i.1).map (fun t => t.data)).getD [] ++ data) = some v) ∧
      (stagedStatus h.before h.req r i.1 v v = St.ok) ∧ (stageStatus r (planOf h.before p) (entryOf h.req r i.1 v) = St.ok) ∧
      (Oid.modesRequest ≠ Oid.modesFwCommit) ∧ (Oid.modesRequest ≠ Oid.dictPersistClear) := by
  unfold Checked; decide +kernel

theorem witness_PitchOfAPlan_in_other_states :
    (let p : Pitch := { plan := .b, when_ := 2, flow := 0, time := Time96pack (at_ 100 5), armed := true, secure := false, late := false, reply := .mailbox 3 7 }
     let s : State := { within .capture ready with dict := { ready.dict with pitch := some p, planB := { state := .scheduled, entries := [{ id := Oid.timeBhAddress, index := 0, value := .num 1, secure := false }] } } }
     (s.dict.pitch = some p) ∧ (pitchRuns s = true) ∧ (p.armed = true) ∧ (pitchDue p s = true) ∧ (holdsRwd (planOf s p.plan) = true) ∧
       (s.modes.current ≠ .dormant) ∧ (s.modes.current ≠ .ready)) ∧
    (let p : Pitch := { plan := .b, when_ := 1, flow := 0, time := 0, armed := false, secure := false, late := false, reply := .mailbox 3 7 }
     let s : State := { ready with dict := { ready.dict with pitch := some p, planB := { state := .scheduled, entries := [] } } }
     let q : Transport := .firmware 10 0 (BitVec.ofNat 24 Oid.plansActive) [1]
     let h : Handed := handOver q s
     let r : ObjRow := row Oid.plansActive
     (carried q s = some h) ∧ (h.req.op = 10) ∧ (h.req.id = Oid.plansActive) ∧ (Checked h r) ∧ (abortStatus h.before h.req = St.ok) ∧
       (h.before.dict.pitch = some p) ∧ (p.armed = false)) := by
  unfold Checked; decide +kernel

theorem witness_ServiceEvents_store :
    let i : StoreItem := .object (objKey Oid.modesWakeEnable 0)
    let rest : List StoreItem := [.retiredList]
    let s : State := { ready with dict := { ready.dict with waiting := i :: rest } }
    (s.dict.waiting = i :: rest) ∧ (storeBytes (storedItem i { s with dict := { s.dict with waiting := rest } }) ≤ 262144) ∧
      (∀ n v, i ≠ .lampCount n v) :=
  ⟨by decide +kernel, by decide +kernel, fun _ _ => by simp⟩

end Sys2Proof.Tests
end

section
/-! SUPPORT. The lauter engine: how a run of image bytes is cut into placements (R287, R288). -/

namespace Sys2Proof.Machine

open Sys2Proof

/-- The cask offset that R287 computes for image byte i: the offset of its line, and its place in the line. -/
def imageOffset (k : FrameCfg) (i : Nat) : Nat := i / k.lineBytes * k.stride + (i - i / k.lineBytes * k.lineBytes)

/-- The bytes of the first placement of a run of len bytes at image byte i: as far as the line and the 256 bytes of cask offset reach (R288). -/
def pieceBytes (k : FrameCfg) (i len : Nat) : Nat :=
  min len (min (k.lineBytes - (i - i / k.lineBytes * k.lineBytes)) (256 - imageOffset k i % 256))

/-- What R288 asks of one placement: 1 to 256 bytes, in one 256 bytes of cask offset, one page and one line. -/
def PieceFits (k : FrameCfg) (p : Nat × List Byte) : Prop :=
  1 ≤ p.2.length ∧ p.1 % 256 + p.2.length ≤ 256 ∧ p.1 % 65536 + p.2.length ≤ 65536 ∧
    ∃ y c, p.1 = y * k.stride + c ∧ c + p.2.length ≤ k.lineBytes

/-- The offsets at which the bytes of a placement land. -/
def pieceOffsets (p : Nat × List Byte) : List Nat := (List.range p.2.length).map (fun n => p.1 + n)

@[simp] theorem splitRun_nil (k : FrameCfg) (fuel i : Nat) : splitRun k fuel i [] = [] := by
  cases fuel <;> rfl

theorem splitRun_of_ne_nil {k : FrameCfg} {bs : List Byte} (hk : 0 < k.lineBytes) (hbs : bs ≠ []) (fuel i : Nat) :
    splitRun k (fuel + 1) i bs = (imageOffset k i, bs.take (pieceBytes k i bs.length)) ::
      splitRun k fuel (i + pieceBytes k i bs.length) (bs.drop (pieceBytes k i bs.length)) := by
  have hmax : max 1 k.lineBytes = k.lineBytes := by omega
  simp [splitRun, hbs, hmax, pieceBytes, imageOffset]

theorem place_in_line_lt {k : FrameCfg} (hk : 0 < k.lineBytes) (i : Nat) : i - i / k.lineBytes * k.lineBytes < k.lineBytes := by
  rw [← Nat.mod_eq_sub_div_mul]
  exact Nat.mod_lt i hk

theorem pieceBytes_le (k : FrameCfg) (i len : Nat) : pieceBytes k i len ≤ len := Nat.min_le_left ..

theorem pieceBytes_pos {k : FrameCfg} {len : Nat} (hk : 0 < k.lineBytes) (hlen : 0 < len) (i : Nat) : 0 < pieceBytes k i len := by
  have hline := place_in_line_lt hk i
  unfold pieceBytes
  omega

theorem pieceBytes_in_line {k : FrameCfg} (hk : 0 < k.lineBytes) (i len : Nat) :
    i - i / k.lineBytes * k.lineBytes + pieceBytes k i len ≤ k.lineBytes := by
  have hline := place_in_line_lt hk i
  unfold pieceBytes
  omega

theorem pieceBytes_in_256 (k : FrameCfg) (i len : Nat) : imageOffset k i % 256 + pieceBytes k i len ≤ 256 := by
  unfold pieceBytes
  omega

/-- Within a line the offsets are consecutive. -/
theorem imageOffset_add {k : FrameCfg} {i n : Nat} (h : i - i / k.lineBytes * k.lineBytes + n < k.lineBytes) :
    imageOffset k (i + n) = imageOffset k i + n := by
  have hle : i / k.lineBytes * k.lineBytes ≤ i := Nat.div_mul_le_self ..
  have hline : (i + n) / k.lineBytes = i / k.lineBytes := by
    refine Nat.div_eq_of_lt_le ?_ ?_
    · omega
    · rw [Nat.succ_mul]; omega
  unfold imageOffset
  rw [hline]
  omega

/-- Induction over the placements of a run: what holds of the empty run, and of a run whenever it holds of what its first placement leaves, holds of every run. -/
theorem runPieces_induction {k : FrameCfg} (hk : 0 < k.lineBytes) {motive : Nat → List Byte → List (Nat × List Byte) → Prop}
    (nil : ∀ i, motive i [] [])
    (cons : ∀ i bs ps, bs ≠ [] →
      motive (i + pieceBytes k i bs.length) (bs.drop (pieceBytes k i bs.length)) ps →
      motive i bs ((imageOffset k i, bs.take (pieceBytes k i bs.length)) :: ps))
    (i : Nat) (bs : List Byte) : motive i bs (runPieces k i bs) := by
  have general : ∀ fuel i bs, bs.length ≤ fuel → motive i bs (splitRun k fuel i bs) := by
    intro fuel
    induction fuel with
    | zero =>
      intro i bs hfuel
      obtain rfl : bs = [] := List.length_eq_zero_iff.mp (Nat.le_zero.mp hfuel)
      exact nil i
    | succ fuel ih =>
      intro i bs hfuel
      by_cases hbs : bs = []
      · subst hbs
        exact nil i
      · rw [splitRun_of_ne_nil hk hbs]
        have hpos := pieceBytes_pos hk (List.length_pos_iff.mpr hbs) i
        exact cons i bs _ hbs (ih _ _ (by rw [List.length_drop]; omega))
  exact general bs.length i bs (Nat.le_refl _)

theorem firstPiece_fits {k : FrameCfg} {bs : List Byte} (hk : 0 < k.lineBytes) (hbs : bs ≠ []) (i : Nat) :
    PieceFits k (imageOffset k i, bs.take (pieceBytes k i bs.length)) := by
  have hlen : (bs.take (pieceBytes k i bs.length)).length = pieceBytes k i bs.length :=
    List.length_take_of_le (pieceBytes_le ..)
  have h256 := pieceBytes_in_256 k i bs.length
  unfold PieceFits
  rw [hlen]
  exact ⟨pieceBytes_pos hk (List.length_pos_iff.mpr hbs) i, h256, by omega,
    i / k.lineBytes, i - i / k.lineBytes * k.lineBytes, rfl, pieceBytes_in_line hk i _⟩

theorem runPieces_fit {k : FrameCfg} (hk : 0 < k.lineBytes) (i : Nat) (bs : List Byte) : ∀ p ∈ runPieces k i bs, PieceFits k p := by
  induction i, bs using runPieces_induction hk with
  | nil => simp
  | cons i bs ps hbs ih => exact List.forall_mem_cons.mpr ⟨firstPiece_fits hk hbs i, ih⟩

/-- The placements carry the run's bytes in their order, each once. -/
theorem runPieces_flatten {k : FrameCfg} (hk : 0 < k.lineBytes) (i : Nat) (bs : List Byte) :
    ((runPieces k i bs).map (fun p => p.2)).flatten = bs := by
  induction i, bs using runPieces_induction hk with
  | nil => rfl
  | cons i bs ps _ ih => rw [List.map_cons, List.flatten_cons, ih, List.take_append_drop]

theorem firstPiece_offsets {k : FrameCfg} (hk : 0 < k.lineBytes) (i : Nat) (bs : List Byte) :
    pieceOffsets (imageOffset k i, bs.take (pieceBytes k i bs.length)) =
      (List.range (pieceBytes k i bs.length)).map (fun n => imageOffset k (i + n)) := by
  have hline := pieceBytes_in_line hk i bs.length
  unfold pieceOffsets
  rw [List.length_take_of_le (pieceBytes_le ..)]
  refine List.map_congr_left fun n hn => (imageOffset_add ?_).symm
  have hn := List.mem_range.mp hn
  omega

/-- Byte n of a run at image byte i lands at the offset of image byte i + n (R287). -/
theorem runPieces_offsets {k : FrameCfg} (hk : 0 < k.lineBytes) (i : Nat) (bs : List Byte) :
    (runPieces k i bs).flatMap pieceOffsets = (List.range bs.length).map (fun n => imageOffset k (i + n)) := by
  induction i, bs using runPieces_induction hk with
  | nil => rfl
  | cons i bs ps _ ih =>
    have hsplit : bs.length = pieceBytes k i bs.length + (bs.drop (pieceBytes k i bs.length)).length := by
      rw [List.length_drop, Nat.add_sub_cancel' (pieceBytes_le ..)]
    conv => rhs; rw [hsplit, List.range_add, List.map_append, List.map_map]
    rw [List.flatMap_cons, firstPiece_offsets hk, ih]
    simp [Function.comp_def, Nat.add_assoc]

/-- Settles O35, by induction over the placements of the run: each ends at the line's end, at the next 256 bytes or at the run's end, whichever is first. -/
theorem runsSplitIntoPlacements : Obligations.RunsSplitIntoPlacements :=
  fun _ i bs hk => ⟨runPieces_fit hk i bs, runPieces_flatten hk i bs, runPieces_offsets hk i bs⟩

end Sys2Proof.Machine
end

section
/-! SUPPORT. Block IDs: their difference over the cycle (R541), and what is judged by it (R284). -/

namespace Sys2Proof.Machine

open Sys2Proof

/-- For IDs of 1 to 65,535 the difference is the plain one, moved into −32,767 to 32,767 by one turn of the cycle at most. -/
theorem blockDiff_standard {a b : Nat} (ha : 1 ≤ a) (ha' : a ≤ 65535) (hb : 1 ≤ b) (hb' : b ≤ 65535) :
    blockDiff false a b = if 32768 ≤ (b : Int) - a then (b : Int) - a - 65535
      else if (b : Int) - a < -32767 then (b : Int) - a + 65535 else (b : Int) - a := by
  simp only [blockDiff, Bool.false_eq_true, if_false]
  omega

/-- The pseudocode of R541, whose remainder takes the sign of the dividend. -/
theorem blockDiff_standard_eq_tmod {a b : Nat} (ha : 1 ≤ a) (ha' : a ≤ 65535) (hb : 1 ≤ b) (hb' : b ≤ 65535) :
    let d := ((b : Int) - a).tmod 65535
    let d := if d < 0 then d + 65535 else d
    blockDiff false a b = if 32768 ≤ d then d - 65535 else d := by
  have htmod : ((b : Int) - a).tmod 65535 = (b : Int) - a := by
    rw [Int.tmod_eq_emod]
    split <;> omega
  simp only [htmod, blockDiff_standard ha ha' hb hb']
  omega

theorem blockDiff_standard_bounds {a b : Nat} (ha : 1 ≤ a) (ha' : a ≤ 65535) (hb : 1 ≤ b) (hb' : b ≤ 65535) :
    -32767 ≤ blockDiff false a b ∧ blockDiff false a b ≤ 32767 := by
  rw [blockDiff_standard ha ha' hb hb']
  omega

theorem blockDiff_standard_eq_zero_iff {a b : Nat} (ha : 1 ≤ a) (ha' : a ≤ 65535) (hb : 1 ≤ b) (hb' : b ≤ 65535) :
    blockDiff false a b = 0 ↔ a = b := by
  rw [blockDiff_standard ha ha' hb hb']
  omega

theorem blockDiff_standard_swap {a b : Nat} (ha : 1 ≤ a) (ha' : a ≤ 65535) (hb : 1 ≤ b) (hb' : b ≤ 65535) :
    blockDiff false b a = -blockDiff false a b := by
  rw [blockDiff_standard ha ha' hb hb', blockDiff_standard hb hb' ha ha']
  omega

theorem addBlock_standard (a n : Nat) : addBlock false a n = (a + n - 1) % 65535 + 1 := rfl

theorem addBlock_standard_mem (a n : Nat) : 1 ≤ addBlock false a n ∧ addBlock false a n ≤ 65535 := by
  rw [addBlock_standard]
  omega

theorem blockDiff_addBlock_standard {a n : Nat} (ha : 1 ≤ a) (ha' : a ≤ 65535) (hn : n ≤ 32767) :
    blockDiff false a (addBlock false a n) = n := by
  obtain ⟨hb, hb'⟩ := addBlock_standard_mem a n
  rw [blockDiff_standard ha ha' hb hb', addBlock_standard]
  omega

theorem toSigned_eq_toInt (n v : Nat) (hn : 0 < n) : toSigned n v = (BitVec.ofNat n v).toInt := by
  have hpow : 2 ^ n = 2 * 2 ^ (n - 1) := by rw [← Nat.pow_succ']; congr 1; omega
  rw [BitVec.toInt_eq_toNat_cond, BitVec.toNat_ofNat, toSigned]
  split <;> split <;> omega

theorem blockDiff_extended (a b : Nat) : blockDiff true a b = toSigned 64 ((b + 2 ^ 64 - a) % 2 ^ 64) := if_pos rfl

theorem blockDiff_extended_eq_toInt {a b : Nat} (ha : a < 2 ^ 64) :
    blockDiff true a b = (BitVec.ofNat 64 b - BitVec.ofNat 64 a).toInt := by
  have hsub : BitVec.ofNat 64 ((b + 2 ^ 64 - a) % 2 ^ 64) = BitVec.ofNat 64 b - BitVec.ofNat 64 a := by
    apply BitVec.eq_of_toNat_eq
    simp only [BitVec.toNat_sub, BitVec.toNat_ofNat]
    omega
  rw [blockDiff_extended, toSigned_eq_toInt _ _ (by decide), hsub]

/-- Counting on short of the end of the cycle is plain addition. -/
theorem addBlock_extended {a n : Nat} (h : a + n < 2 ^ 64) : addBlock true a n = a + n := by
  have hnowrap : ¬ a + n < a := by omega
  simp only [addBlock, if_true, Nat.mod_eq_of_lt h, hnowrap, if_false]

theorem blockDiff_addBlock_extended {a n : Nat} (h : a + n < 2 ^ 64) (hn : n < 2 ^ 63) :
    blockDiff true a (addBlock true a n) = n := by
  have hdiff : (a + n + 2 ^ 64 - a) % 2 ^ 64 = n := by omega
  have hsmall : n % 2 ^ 64 = n := Nat.mod_eq_of_lt (by omega)
  rw [addBlock_extended h, blockDiff_extended, hdiff, toSigned, hsmall, if_pos hn]

/-- The ID after the last of either cycle is 1: 0 is skipped. -/
theorem addBlock_last : addBlock false 65535 1 = 1 ∧ addBlock true (2 ^ 64 - 1) 1 = 1 := by decide

theorem blockStale_iff {s : State} {f b : Nat} {fr : Frame} {l : List Frame} (h : openFrames s f = fr :: l) :
    blockStale s f b = true ↔ blockDiff fr.ext fr.key b < 0 := by
  simp only [blockStale, h, decide_eq_true_eq]

/-- A block is found in an open frame only, at its difference from the frame's first block. -/
theorem frameOfBlock_some {s : State} {f b j : Nat} {fr : Frame} (h : frameOfBlock s f b = some (fr, j)) :
    fr ∈ openFrames s f ∧ blockDiff fr.ext fr.key b = j := by
  obtain ⟨g, hmem, hg⟩ := List.exists_of_findSome?_eq_some h
  simp only at hg
  split at hg
  case isTrue =>
    split at hg
    case isTrue hin =>
      simp only [Bool.and_eq_true, decide_eq_true_eq] at hin
      obtain ⟨rfl, rfl⟩ := hg
      exact ⟨hmem, (Int.toNat_of_nonneg hin.1).symm⟩
    case isFalse => cases hg
  case isFalse =>
    split at hg
    case isTrue hzero =>
      obtain ⟨rfl, rfl⟩ := hg
      exact ⟨hmem, hzero⟩
    case isFalse => cases hg

/-- Settles O60: standard IDs through the plain difference within one turn of the cycle, extended ones through 64-bit words. -/
theorem blockDifference : Obligations.BlockDifference :=
  ⟨fun _ _ ha ha' hb hb' =>
      ⟨blockDiff_standard_eq_tmod ha ha' hb hb', (blockDiff_standard_bounds ha ha' hb hb').1, (blockDiff_standard_bounds ha ha' hb hb').2,
        blockDiff_standard_eq_zero_iff ha ha' hb hb', blockDiff_standard_swap ha ha' hb hb'⟩,
    fun a n ha ha' hn => ⟨(addBlock_standard_mem a n).1, (addBlock_standard_mem a n).2, blockDiff_addBlock_standard ha ha' hn⟩,
    fun _ _ ha _ => blockDiff_extended_eq_toInt ha,
    fun _ _ _ h hn => blockDiff_addBlock_extended h hn,
    addBlock_last,
    fun _ _ _ _ _ h => blockStale_iff h,
    fun _ _ _ _ _ h => frameOfBlock_some h⟩

end Sys2Proof.Machine
end

section
/-! SUPPORT. Every command keeps a sound state sound and the queue as it is: the meanings' laws put together at the dispatch. -/

namespace Sys2Proof.Machine

open Sys2Proof

theorem exec_keeps {q : List Instr} {s : State} (h : Keeps q s) (i : Instr) : Answers (Keeps q) (exec i s) :=
  match i with
  | .coldReset _ => execColdReset_keeps h
  | .coldExit => execColdExit_keeps h
  | .kilnBrownOut => execKilnBrownOut_keeps h
  | .bootImageLoad => execBootImageLoad_keeps h
  | .bootBist _ _ _ => execBootBist_keeps h
  | .hbmTraining _ _ => execHbmTraining_keeps h
  | .bootComplete _ => execBootComplete_keeps h
  | .warmReset _ _ => execWarmReset_keeps h
  | .fwImageWrite _ _ => execFwImageWrite_keeps h
  | .fwCommit _ _ => execFwCommit_keeps h
  | .modeRequest _ _ => execModeRequest_keeps h
  | .transitionComplete => execTransitionComplete_keeps h
  | .drainComplete => execDrainComplete_keeps h
  | .transmitCutTimeout _ => execTransmitCutTimeout_keeps h
  | .firmwareWatchdog => execFirmwareWatchdog_keeps h
  | .limpCause _ => execLimpCause_keeps h
  | .watchdogGraceEnd => execWatchdogGraceEnd_keeps h
  | .haltCause _ => execHaltCause_keeps h
  | .shutdown _ _ => execShutdown_keeps h
  | .wakeCompare => execWakeCompare_keeps h
  | .wakeAhead => execWakeAhead_keeps h
  | .wakeAtWrite _ _ => execWakeAtWrite_keeps h
  | .read _ => execRead_keeps h
  | .write _ => execWrite_keeps h
  | .readBlock _ => execReadBlock_keeps h
  | .writeBlock _ => execWriteBlock_keeps h
  | .subscribe _ => execSubscribe_keeps h
  | .notify _ => execNotify_keeps h
  | .sessionOpen _ => execSessionOpen_keeps h
  | .sessionProof _ => execSessionProof_keeps h
  | .pitch _ => execPitch_keeps h
  | .abort _ => execAbort_keeps h
  | .mailboxOverrun _ _ => execMailboxOverrun_keeps h
  | .linobForward _ _ _ => execLinobForward_keeps h
  | .blockTransferTimeout _ _ => execBlockTransferTimeout_keeps h
  | .halfOpenTimeout _ => execHalfOpenTimeout_keeps h
  | .sessionTimeout _ => execSessionTimeout_keeps h
  | .persistStore _ => execPersistStore_keeps h
  | .persistClear _ _ => execPersistClear_keeps h
  | .plansSeal _ _ _ => execPlansSeal_keeps h
  | .plansClear _ _ _ => execPlansClear_keeps h
  | .plansSave _ _ _ => execPlansSave_keeps h
  | .armingEnd => execArmingEnd_keeps h
  | .pitchTakesPlace => execPitchTakesPlace_keeps h
  | .boundaryTimeout => execBoundaryTimeout_keeps h
  | .timeIncrementWrite _ _ => execTimeIncrementWrite_keeps h
  | .timeStep _ _ => execTimeStep_keeps h
  | .timeSet _ _ => execTimeSet_keeps h
  | .stepApply => execStepApply_keeps h
  | .tkLatch _ => execTkLatch_keeps h
  | .ptpMessage _ _ _ => execPtpMessage_keeps h
  | .holdoverLimit => execHoldoverLimit_keeps h
  | .ppsOutPulse => execPpsOutPulse_keeps h
  | .ppsOutPulseEnd => execPpsOutPulseEnd_keeps h
  | .ppsInEdge _ _ => execPpsInEdge_keeps h
  | .ppsInMissing => execPpsInMissing_keeps h
  | .bhUpstreamWrite _ _ => execBhUpstreamWrite_keeps h
  | .beaconSend => execBeaconSend_keeps h
  | .beacon _ _ _ => execBeacon_keeps h
  | .probeSend _ => execProbeSend_keeps h
  | .probe _ _ _ => execProbe_keeps h
  | .probeReply _ _ _ _ => execProbeReply_keeps h
  | .beaconLoss _ => execBeaconLoss_keeps h
  | .addressAnnounce _ => execAddressAnnounce_keeps h
  | .trigger _ _ _ _ _ _ _ _ => execTrigger_keeps h
  | .scheduledFire => execScheduledFire_keeps h
  | .cmpModeWrite _ _ _ => execCmpModeWrite_keeps h
  | .cmpTargetWrite _ _ _ => execCmpTargetWrite_keeps h
  | .timeCompare _ => execTimeCompare_keeps h
  | .snapshotAtWrite _ _ => execSnapshotAtWrite_keeps h
  | .snapshotNow _ _ => execSnapshotNow_keeps h
  | .snapshot => execSnapshot_keeps h
  | .occurrenceDelivery _ => execOccurrenceDelivery_keeps h
  | .pendingDelivery _ => execPendingDelivery_keeps h
  | .fire _ => execFire_keeps h
  | .fireMask _ => execFireMask_keeps h
  | .gristCellFire _ => execGristCellFire_keeps h
  | .gristWrite _ _ _ _ => execGristWrite_keeps h
  | .trigInEdge _ _ _ => execTrigInEdge_keeps h
  | .trigInStuck _ => execTrigInStuck_keeps h
  | .trigOutPulseEnd _ => execTrigOutPulseEnd_keeps h
  | .vectorTimer _ => execVectorTimer_keeps h
  | .quadModeWrite _ _ _ => execQuadModeWrite_keeps h
  | .laneConfigWrite _ _ _ _ => execLaneConfigWrite_keeps h
  | .quadPllLock _ _ => execQuadPllLock_keeps h
  | .pllLockTimeout _ => execPllLockTimeout_keeps h
  | .referenceLost _ => execReferenceLost_keeps h
  | .referenceReturn _ => execReferenceReturn_keeps h
  | .selfCheckDone _ _ => execSelfCheckDone_keeps h
  | .signalDetect _ => execSignalDetect_keeps h
  | .lossOfSignal _ => execLossOfSignal_keeps h
  | .cdrLock _ => execCdrLock_keeps h
  | .cdrLockLost _ => execCdrLockLost_keeps h
  | .adaptationDone _ _ _ => execAdaptationDone_keeps h
  | .blockLock _ _ => execBlockLock_keeps h
  | .blockLockLost _ _ => execBlockLockLost_keeps h
  | .huntTimeout _ => execHuntTimeout_keeps h
  | .alignmentLock _ => execAlignmentLock_keeps h
  | .efomWindow _ _ _ _ => execEfomWindow_keeps h
  | .eyeFault _ => execEyeFault_keeps h
  | .relockTimeout _ => execRelockTimeout_keeps h
  | .laneReinstate _ _ _ => execLaneReinstate_keeps h
  | .prbsInject _ _ _ => execPrbsInject_keeps h
  | .prbsClear _ _ _ => execPrbsClear_keeps h
  | .prbsCheckerLock _ _ => execPrbsCheckerLock_keeps h
  | .portFault _ _ => execPortFault_keeps h
  | .portReinstate _ _ _ => execPortReinstate_keeps h
  | .frameReceive _ _ _ _ _ => execFrameReceive_keeps h
  | .pauseReceive _ _ => execPauseReceive_keeps h
  | .pauseStopEnd _ _ => execPauseStopEnd_keeps h
  | .pauseRequest _ => execPauseRequest_keeps h
  | .pauseRefresh _ => execPauseRefresh_keeps h
  | .multicastJoin _ => execMulticastJoin_keeps h
  | .rawFrame _ _ _ => execRawFrame_keeps h
  | .cascadeFrameDiscard _ => execCascadeFrameDiscard_keeps h
  | .packetCommit _ => execPacketCommit_keeps h
  | .packetRewind _ => execPacketRewind_keeps h
  | .chainFullCut _ => execChainFullCut_keeps h
  | .crossingRead _ _ => execCrossingRead_keeps h
  | .underbackFlush _ _ _ => execUnderbackFlush_keeps h
  | .packetPlace _ => execPacketPlace_keeps h
  | .placementComplete _ => execPlacementComplete_keeps h
  | .rewindNotice => execRewindNotice_keeps h
  | .straggleTimeout _ => execStraggleTimeout_keeps h
  | .frameIdleTimeout _ => execFrameIdleTimeout_keeps h
  | .frameCommit _ => execFrameCommit_keeps h
  | .resendRequest _ _ _ => execResendRequest_keeps h
  | .stampClear _ _ _ => execStampClear_keeps h
  | .caskRelease _ _ => execCaskRelease_keeps h
  | .refreshDue _ _ => execRefreshDue_keeps h
  | .forcedRefresh _ _ => execForcedRefresh_keeps h
  | .refreshRepayment _ _ => execRefreshRepayment_keeps h
  | .stackTempRead _ _ => execStackTempRead_keeps h
  | .uncorrectableRead _ _ _ _ => execUncorrectableRead_keeps h
  | .ceThreshold _ _ => execCeThreshold_keeps h
  | .rowRepair _ _ _ _ => execRowRepair_keeps h
  | .pcRetire _ _ => execPcRetire_keeps h
  | .spareFillComplete _ => execSpareFillComplete_keeps h
  | .cellarReinstate _ _ _ _ => execCellarReinstate_keeps h
  | .scrub _ _ _ _ _ => execScrub_keeps h
  | .readRecalibration p => execReadRecalibration_keeps (x0 := p) h
  | .cellarTestStart _ _ => execCellarTestStart_keeps h
  | .cellarTestDone _ => execCellarTestDone_keeps h
  | .ringPost _ _ => execRingPost_keeps h
  | .ringEnable _ _ => execRingEnable_keeps h
  | .ringDisable _ _ => execRingDisable_keeps h
  | .cqEnable _ _ _ => execCqEnable_keeps h
  | .cqHead _ _ => execCqHead_keeps h
  | .deliveryStart => execDeliveryStart_keeps h
  | .deliveryDataDone _ => execDeliveryDataDone_keeps h
  | .completionEntry _ => execCompletionEntry_keeps h
  | .walkReadComplete _ _ => execWalkReadComplete_keeps h
  | .ringFault _ _ => execRingFault_keeps h
  | .exceptionEntry => execExceptionEntry_keeps h
  | .excEnable _ _ => execExcEnable_keeps h
  | .rackingResume _ _ => execRackingResume_keeps h
  | .tapEntry _ => execTapEntry_keeps h
  | .tapFrameStart _ => execTapFrameStart_keeps h
  | .packetDue _ _ => execPacketDue_keeps h
  | .tapFetchComplete _ _ => execTapFetchComplete_keeps h
  | .txPost _ _ => execTxPost_keeps h
  | .tapHostEnable _ _ _ => execTapHostEnable_keeps h
  | .tapStop _ => execTapStop_keeps h
  | .tapTrigger _ => execTapTrigger_keeps h
  | .replayCaskDone _ => execReplayCaskDone_keeps h
  | .patternSelftest _ _ => execPatternSelftest_keeps h
  | .selftestDone _ _ => execSelftestDone_keeps h
  | .hydroCompare _ => execHydroCompare_keeps h
  | .goldenReadReturn _ => execGoldenReadReturn_keeps h
  | .goldenDeadline _ => execGoldenDeadline_keeps h
  | .hydroClose _ => execHydroClose_keeps h
  | .hydroSelftest _ _ => execHydroSelftest_keeps h
  | .encoderSample _ _ _ _ _ => execEncoderSample_keeps h
  | .positionCompare _ => execPositionCompare_keeps h
  | .speedUpdate _ => execSpeedUpdate_keeps h
  | .standstillTimeout _ => execStandstillTimeout_keeps h
  | .positionWrite _ _ _ => execPositionWrite_keeps h
  | .queryAt _ _ _ => execQueryAt_keeps h
  | .cmpArm _ _ _ => execCmpArm_keeps h
  | .posCmpTargetWrite _ _ _ _ => execPosCmpTargetWrite_keeps h
  | .quadOutputEdge _ => execQuadOutputEdge_keeps h
  | .posReinstate _ _ _ => execPosReinstate_keeps h
  | .strobeDelivery _ => execStrobeDelivery_keeps h
  | .pulseEnd _ _ => execPulseEnd_keeps h
  | .strobeGapEnd _ => execStrobeGapEnd_keeps h
  | .writebackComplete _ _ => execWritebackComplete_keeps h
  | .headPoll _ _ => execHeadPoll_keeps h
  | .interlockFall _ => execInterlockFall_keeps h
  | .interlockPermit _ => execInterlockPermit_keeps h
  | .overcurrent _ _ => execOvercurrent_keeps h
  | .lifeOverride _ _ _ => execLifeOverride_keeps h
  | .lampReinstate _ _ _ => execLampReinstate_keeps h
  | .headUserWrite _ _ _ => execHeadUserWrite_keeps h
  | .faultsReinstate _ _ _ => execFaultsReinstate_keeps h
  | .listClear _ _ _ => execListClear_keeps h
  | .supplySag _ => execSupplySag_keeps h
  | .governorStepEnd _ => execGovernorStepEnd_keeps h
  | .coreRailFault => execCoreRailFault_keeps h
  | .thermalReading _ => execThermalReading_keeps h
  | .perstDeassert => execPerstDeassert_keeps h
  | .linkUp _ _ _ => execLinkUp_keeps h
  | .hostReset _ => execHostReset_keeps h
  | .busMasterDisable _ => execBusMasterDisable_keeps h
  | .busMasterEnable _ => execBusMasterEnable_keeps h
  | .l1Entry => execL1Entry_keeps h
  | .l1Exit => execL1Exit_keeps h
  | .npCompletion _ _ => execNpCompletion_keeps h
  | .completionTimeout _ => execCompletionTimeout_keeps h
  | .lateCompletion _ _ => execLateCompletion_keeps h
  | .quarantineExpiry _ => execQuarantineExpiry_keeps h
  | .poisonedCompletion _ => execPoisonedCompletion_keeps h
  | .bar2Access _ => execBar2Access_keeps h
  | .bar0PartialWrite => execBar0PartialWrite_keeps h
  | .winAttrWrite _ _ _ => execWinAttrWrite_keeps h
  | .interruptFormChange _ _ => execInterruptFormChange_keeps h
  | .objectWrite _ _ _ _ => execObjectWrite_keeps h
  | .kilnTick => execKilnTick_keeps h
  | .localOrRemoteFault _ _ _ => execLocalOrRemoteFault_keeps h
  | .msixVectorUnmask _ => execMsixVectorUnmask_keeps h
  | .srcStatusWrite _ _ => execSrcStatusWrite_keeps h
  | .excHead _ => execExcHead_keeps h
  | .managementPortFrame _ => execManagementPortFrame_keeps h
  | .ptpAnnounceTimeout => execPtpAnnounceTimeout_keeps h
  | .ptpMessageInterval _ _ => execPtpMessageInterval_keeps h

/-- Settles O58: soundness does not read the queue, so the step's command meets a sound state. -/
theorem stepKeepsSound : Obligations.StepKeepsSound := by
  intro s t hs ht
  match hp : s.pending with
  | [] =>
    simp only [step, hp] at ht
    cases ht
    exact hs
  | c :: rest =>
    obtain ⟨u, hu, hk⟩ := exec_keeps (q := rest) (s := { s with pending := rest }) ⟨hs, rfl⟩ c
    simp only [step, hp, hu] at ht
    cases ht
    exact hk.1

end Sys2Proof.Machine
end

section
/-! SUPPORT. The kiln tick: what its events leave alone, and what it does to the time (R129, R130, R135 to R137). -/

namespace Sys2Proof.Machine
open Sys2Proof

/-- What a kiln tick moves by R129 alone: the time, the increments, a pending step and the count of ticks. -/
def clockOf (s : State) : Nat × Nat × Nat × Nat × Option Nat × Option PendStep × Nat :=
  (s.time.sec, s.time.ns, s.time.frac, s.time.inc, s.time.incNext, s.time.step, s.time.ticks)

/-- The parts of the state that no event of a kiln tick reaches. -/
def restOf (s : State) : PosState × CellarState × HydroState × TapState × FaultState × List (Nat × List Byte) × List Host.Cell :=
  (s.pos, s.cel, s.hyd, s.tap, s.flt, s.blobs, s.mem)

/-- The modes and the dictionary, which only a step of the time can reach in a tick. -/
def modesOf (s : State) : ModeState × DictState := (s.modes, s.dict)

/-- What the events of a kiln tick leave as it is. -/
def stillOf (s : State) := ((clockOf s, restOf s), modesOf s)

/-- What a step of the time leaves as the step itself put it: it may also mark the pitch and the wake as late. -/
def coreOf (s : State) := (clockOf s, restOf s)

theorem foldl_still {α β : Type} {π : State → β} {f : State → α → State} (hf : ∀ s x, π (f s x) = π s) (l : List α) (s : State) :
    π (l.foldl f s) = π s := by
  induction l generalizing s with
  | nil => rfl
  | cons x t ih => exact (ih _).trans (hf s x)

theorem fire_still (src : Nat) (s : State) : stillOf (fire src s) = stillOf s := by
  simp [stillOf, clockOf, restOf, modesOf]

theorem fireAt_still (src ts due : Nat) (late : Bool) (s : State) : stillOf (fireAt src ts due late s) = stillOf s := by
  simp [stillOf, clockOf, restOf, modesOf]
theorem ppsFlush_still (s : State) : stillOf (ppsFlush s) = stillOf s := by
  simp only [ppsFlush, ppsStart]
  split
  · rfl
  · split <;> simp [stillOf, clockOf, restOf, modesOf]
theorem gristFires_still (n : Nat) (s : State) : stillOf (gristFires n s) = stillOf s := by
  induction n with
  | zero => rfl
  | succ n ih =>
    simp only [gristFires]
    split
    · exact (fire_still _ _).trans ih
    · exact ih
theorem putGristQ_still (n v : Nat) (s : State) : stillOf (putGristQ n v s) = stillOf s := by
  simp only [putGristQ]; split <;> rfl

theorem gristTick_still (n : Nat) (s : State) : stillOf (gristTick n s) = stillOf s := by
  simp only [gristTick]
  split
  · rfl
  · exact (putGristQ_still _ _ _).trans rfl

theorem gristTicks_still (n : Nat) (s : State) : stillOf (gristTicks n s) = stillOf s := by
  induction n with
  | zero => rfl
  | succ n ih => exact (gristTick_still _ _).trans ih

theorem gristClear_still (n : Nat) (s : State) : stillOf (gristClear n s) = stillOf s := by
  simp only [gristClear]
  split
  · exact (putGristQ_still _ _ _).trans rfl
  · rfl

theorem gristClears_still (n : Nat) (s : State) : stillOf (gristClears n s) = stillOf s := by
  induction n with
  | zero => rfl
  | succ n ih => exact (gristClear_still _ _).trans ih

theorem gristEnd_still (s : State) : stillOf (gristEnd s) = stillOf s := by
  rw [gristEnd, gristClears_still, gristTicks_still, gristFires_still]

theorem ppsTick_still (t0 : Nat) (stepped : Bool) (s : State) : stillOf (ppsTick t0 stepped s) = stillOf s := by
  simp only [ppsTick]
  split <;> rfl

theorem trigOutTick_still (prev : List (Nat × Nat)) (n : Nat) (s : State) : stillOf (trigOutTick prev n s) = stillOf s := by
  simp only [trigOutTick]
  split <;> split <;> rfl

theorem trigOutTicks_still (prev : List (Nat × Nat)) (n : Nat) (s : State) : stillOf (trigOutTicks prev n s) = stillOf s := by
  induction n with
  | zero => rfl
  | succ n ih => exact (trigOutTick_still _ _ _).trans ih

theorem acceptEdge_still (n tick ts : Nat) (s : State) : stillOf (acceptEdge n tick ts s) = stillOf s := by
  simp only [acceptEdge, putTrigIn]
  split <;> split <;> simp [stillOf, clockOf, restOf, modesOf]

theorem trigInTick_still (n : Nat) (s : State) : stillOf (trigInTick n s) = stillOf s := by
  simp only [trigInTick]
  split
  · rfl
  · split
    · exact acceptEdge_still _ _ _ _
    · rfl

theorem trigInTicks_still (n : Nat) (s : State) : stillOf (trigInTicks n s) = stillOf s := by
  induction n with
  | zero => rfl
  | succ n ih => exact (trigInTick_still _ _).trans ih

theorem fireCrossings_still (s : State) : stillOf (fireCrossings s) = stillOf s :=
  (foldl_still (fun _ _ => fireAt_still _ _ _ _ _) _ _).trans rfl

theorem bhPrune_still (q : Nat) (s : State) : stillOf (bhPrune q s) = stillOf s := by
  simp only [bhPrune]
  split
  · split <;> rfl
  · rfl

theorem emit_putBh_still (e : Emission) (q : Nat) (l : BhLink) (s : State) : stillOf (emit e (putBh q l s)) = stillOf s := rfl

theorem bhSend_still (q fuel room : Nat) (s : State) : stillOf (bhSend q fuel room s) = stillOf s := by
  induction fuel generalizing room s with
  | zero => rfl
  | succ fuel ih =>
    simp only [bhSend]
    split
    · rfl
    · split
      · rfl
      · rw [ih, emit_putBh_still]

theorem bhMarkers_still (q : Nat) (s : State) : stillOf (bhMarkers q s) = stillOf s := by
  simp only [bhMarkers]
  split
  · split <;> rfl
  · rfl

theorem bhTicks_still (n : Nat) (s : State) : stillOf (bhTicks n s) = stillOf s := by
  induction n with
  | zero => rfl
  | succ n ih => rw [bhTicks, bhMarkers_still, bhSend_still, bhPrune_still, ih]

theorem updateIntx_still (s : State) : stillOf (updateIntx s) = stillOf s := by
  simp [stillOf, clockOf, restOf, modesOf]

theorem promote_still (s : State) : stillOf (promote s) = stillOf s := rfl

theorem publish_still (t0 : Nat) (stepped : Bool) (prev : List (Nat × Nat)) (s : State) : stillOf (publish t0 stepped prev s) = stillOf s := by
  rw [publish, bhTicks_still, fireCrossings_still, trigInTicks_still, trigOutTicks_still, updateIntx_still]
  exact (promote_still _).trans (ppsTick_still t0 stepped s)

theorem rollSecond_still (s : State) : stillOf (rollSecond s) = stillOf s := by
  simp only [rollSecond]
  split <;> rfl

theorem retryWriteback_still (n : Nat) (s : State) : stillOf (retryWriteback n s) = stillOf s := by
  simp only [retryWriteback]
  split
  · split <;> rfl
  · rfl

theorem lampRetries_still (s : State) : stillOf (lampRetries s) = stillOf s := foldl_still (fun _ _ => retryWriteback_still _ _) _ s

theorem updateGlobal_still (s : State) : stillOf (updateGlobal s) = stillOf s := by
  simp only [updateGlobal]
  split
  · exact (fire_still _ _).trans rfl
  · split <;> rfl

theorem updateFlowLevel_still (f : Nat) (s : State) : stillOf (updateFlowLevel f s) = stillOf s := by
  simp only [updateFlowLevel]
  split
  · exact (fire_still _ _).trans rfl
  · split <;> rfl

theorem showReleases_still (s : State) : stillOf (showReleases s) = stillOf s := by
  simp only [showReleases]
  split
  · rfl
  · exact (foldl_still (fun _ _ => updateFlowLevel_still _ _) _ _).trans (updateGlobal_still _)

theorem core_of_still {s t : State} (h : stillOf t = stillOf s) : coreOf t = coreOf s := congrArg (fun p => p.1) h

theorem modes_of_still {s t : State} (h : stillOf t = stillOf s) : modesOf t = modesOf s := congrArg (fun p => p.2) h

/-! ### Time -/

theorem timeUnits32_of_clock {s t : State} (h : clockOf t = clockOf s) : timeUnits32 t = timeUnits32 s := by
  simp only [clockOf, Prod.mk.injEq] at h
  simp only [timeUnits32, h]

/-- The time that step 1 of R129 gives, its fields within their ranges. -/
theorem accumulate_time {s : State} (hns : s.time.ns < 1000000000) (hinc : s.time.inc < 1000000000 * 2 ^ 32)
    (hsec : s.time.sec + 1 < 2 ^ 64) (hfrac : s.time.frac < 2 ^ 32) :
    timeUnits32 (accumulate s) = timeUnits32 s + s.time.inc ∧ (accumulate s).time.ns < 1000000000 ∧ (accumulate s).time.frac < 2 ^ 32 := by
  simp only [accumulate, timeUnits32, billion, decide_eq_true_eq]
  refine ⟨?_, ?_, by omega⟩
  · split <;> omega
  · split <;> omega

/-- The time moved by an offset, never below 0. -/
theorem moveTime_time (d : Int) (s : State) :
    timeUnits32 (moveTime d s) = max (timeUnits32 s + d) 0 ∧ (moveTime d s).time.ns < 1000000000 ∧ (moveTime d s).time.frac < 2 ^ 32 := by
  have hu : timeUnits32 (moveTime d s) = ((timeUnits32 s + d).toNat : Int) := by
    generalize hn : (timeUnits32 s + d).toNat = n
    simp only [moveTime, hn]
    simp only [timeUnits32, billion]
    omega
  refine ⟨by omega, ?_, ?_⟩ <;> simp only [moveTime, billion] <;> omega

/-! ### The tick -/

theorem takeIncrement_core {s t : State} (h : coreOf t = coreOf s) : coreOf (takeIncrement t) = coreOf (takeIncrement s) := by
  simp only [coreOf, clockOf, Prod.mk.injEq] at h ⊢
  obtain ⟨⟨hsec, hns, hfrac, hinc, hnext, hstep, hticks⟩, hrest⟩ := h
  simp only [takeIncrement, hnext]
  split
  · exact ⟨⟨hsec, hns, hfrac, hinc, hnext, hstep, hticks⟩, hrest⟩
  · exact ⟨⟨hsec, hns, hfrac, rfl, rfl, hstep, hticks⟩, hrest⟩

/-- The increment in force from the end of the tick (R129 step 4). -/
theorem clockOf_takeIncrement (s : State) : clockOf (takeIncrement s) =
    (s.time.sec, s.time.ns, s.time.frac, s.time.incNext.getD s.time.inc, none, s.time.step, s.time.ticks) := by
  simp only [takeIncrement]
  split
  · next h => simp [clockOf, h]
  · next h => simp [clockOf, h]

theorem restOf_takeIncrement (s : State) : restOf (takeIncrement s) = restOf s := by
  simp only [takeIncrement]; split <;> rfl

theorem takeIncrement_modes (s : State) : modesOf (takeIncrement s) = modesOf s := by
  simp only [takeIncrement]; split <;> rfl

/-- The state in which the tick applies a pending step: the tick before has ended, and step 1 of R129 is done. -/
def opened (s : State) : State := accumulate (openTick (gristEnd (ppsFlush s)))

theorem opened_kept (s : State) : (opened s).time.inc = s.time.inc ∧ (opened s).time.incNext = s.time.incNext ∧
    (opened s).time.step = s.time.step ∧ (opened s).time.ticks = s.time.ticks + 1 ∧ restOf (opened s) = restOf s ∧
    modesOf (opened s) = modesOf s := by
  have h : stillOf (gristEnd (ppsFlush s)) = stillOf s := (gristEnd_still _).trans (ppsFlush_still s)
  unfold opened
  generalize gristEnd (ppsFlush s) = u at h ⊢
  simp only [stillOf, clockOf, Prod.mk.injEq] at h
  obtain ⟨⟨⟨-, -, -, hinc, hnext, hstep, hticks⟩, hrest⟩, hmodes⟩ := h
  exact ⟨hinc, hnext, hstep, congrArg (· + 1) hticks, hrest, hmodes⟩

theorem opened_time {s : State} (hns : s.time.ns < 1000000000) (hfrac : s.time.frac < 2 ^ 32)
    (hinc : s.time.inc < 1000000000 * 2 ^ 32) (hsec : s.time.sec + 1 < 2 ^ 64) :
    timeUnits32 (opened s) = timeUnits32 s + s.time.inc ∧ (opened s).time.ns < 1000000000 ∧ (opened s).time.frac < 2 ^ 32 := by
  have h : stillOf (gristEnd (ppsFlush s)) = stillOf s := (gristEnd_still _).trans (ppsFlush_still s)
  unfold opened
  generalize gristEnd (ppsFlush s) = u at h ⊢
  have hunits : timeUnits32 u = timeUnits32 s := timeUnits32_of_clock (congrArg (fun p => p.1.1) h)
  simp only [stillOf, clockOf, Prod.mk.injEq] at h
  obtain ⟨⟨⟨esec, ens, efrac, einc, -⟩, -⟩, -⟩ := h
  rw [← hunits, ← einc]
  rw [← ens] at hns
  rw [← einc] at hinc
  rw [← esec] at hsec
  rw [← efrac] at hfrac
  exact accumulate_time (s := openTick u) hns hinc hsec hfrac

theorem kilnTick_opened (s : State) : kilnTick s = rollSecond (takeIncrement (publish (now (gristEnd (ppsFlush s)))
    (gristEnd (ppsFlush s)).time.step.isSome (gristEnd (ppsFlush s)).fab.prev (applyStep (opened s)))) := rfl

/-- The events of the tick leave its time and increment alone. -/
theorem tick_core (s : State) : coreOf (tick s) = coreOf (takeIncrement (applyStep (opened s))) := by
  rw [tick, core_of_still (lampRetries_still _), core_of_still (showReleases_still _), kilnTick_opened, core_of_still (rollSecond_still _)]
  exact takeIncrement_core (core_of_still (publish_still _ _ _ _))

theorem applyStep_none {s : State} (h : s.time.step = none) : applyStep s = s := by simp only [applyStep, h]

theorem tick_modes_of_no_step {s : State} (h : s.time.step = none) : modesOf (tick s) = modesOf s := by
  rw [tick, modes_of_still (lampRetries_still _), modes_of_still (showReleases_still _), kilnTick_opened,
    modes_of_still (rollSecond_still _), takeIncrement_modes, modes_of_still (publish_still _ _ _ _),
    applyStep_none ((opened_kept s).2.2.1.trans h)]
  exact (opened_kept s).2.2.2.2.2

/-- Settles O2: the tick adds the increment in force, and none of its events touches the time. -/
theorem kilnTickAddsIncrement : Obligations.KilnTickAddsIncrement := by
  unfold Obligations.KilnTickAddsIncrement
  constructor
  · intro s hmode hstep hns hfrac hinc hsec
    obtain ⟨einc, enext, estep, eticks, erest, -⟩ := opened_kept s
    obtain ⟨hunits, hns', hfrac'⟩ := opened_time hns hfrac hinc hsec
    have hmodes := tick_modes_of_no_step hstep
    have hcore := tick_core s
    rw [applyStep_none (estep.trans hstep)] at hcore
    simp only [coreOf, clockOf_takeIncrement, restOf_takeIncrement, erest] at hcore
    simp only [clockOf, restOf, modesOf, Prod.mk.injEq] at hcore hmodes
    obtain ⟨⟨tsec, tns, tfrac, tinc, tnext, -, tticks⟩, tpos, tcel, thyd, ttap, tflt, tblobs, tmem⟩ := hcore
    refine ⟨tick s, by simp only [exec, execKilnTick, hmode, if_false], ?_, lt_of_eq_of_lt tns hns', lt_of_eq_of_lt tfrac hfrac', ?_, tnext, tticks.trans eticks,
      hmodes.1, hmodes.2, tpos, tcel, thyd, ttap, tflt, tblobs, tmem⟩
    · rw [← hunits]
      simp only [timeUnits32, tsec, tns, tfrac]
    · rw [tinc, einc, enext]
  · intro s hcold
    simp only [exec, execKilnTick, hcold, if_true]

/-! ### A step of the time -/

theorem putObj_core (id idx v : Nat) (s : State) : coreOf (putObj id idx v s) = coreOf s := rfl
theorem addObj_core (id idx n : Nat) (s : State) : coreOf (addObj id idx n s) = coreOf s := rfl
theorem setSticky_core (id idx m : Nat) (s : State) : coreOf (setSticky id idx m s) = coreOf s := rfl
theorem setArmed_core (u a : Nat) (s : State) : coreOf (setArmed u a s) = coreOf s := rfl
theorem rearmCompare_core (u : Nat) (s : State) : coreOf (rearmCompare u s) = coreOf s := rfl
theorem fireAt_core (src ts due : Nat) (late : Bool) (s : State) : coreOf (fireAt src ts due late s) = coreOf s :=
  core_of_still (fireAt_still _ _ _ _ _)

theorem fireCompare_core (u : Nat) (late : Bool) (s : State) : coreOf (fireCompare u late s) = coreOf s := by
  unfold fireCompare
  extract_lets
  split
  · split
    · rw [rearmCompare_core, putObj_core, addObj_core, setSticky_core]
      exact (fireAt_core _ _ _ _ _).trans (setSticky_core _ _ _ _)
    · rw [rearmCompare_core, putObj_core]
      exact (fireAt_core _ _ _ _ _).trans (setSticky_core _ _ _ _)
  · rw [setArmed_core]
    exact (fireAt_core _ _ _ _ _).trans (setSticky_core _ _ _ _)

theorem stepPastCompares_core (t0 short0 n : Nat) (s : State) : coreOf (stepPastCompares t0 short0 n s) = coreOf s := by
  induction n with
  | zero => rfl
  | succ n ih =>
    simp only [stepPastCompares]
    split
    · exact (fireCompare_core _ _ _).trans ih
    · exact ih

theorem stepPast_core (t0 short0 : Nat) (s : State) : coreOf (stepPast t0 short0 s) = coreOf s := by
  unfold stepPast
  extract_lets compared _ snap w _ woken _
  have hcompared : coreOf compared = coreOf s := stepPastCompares_core t0 short0 64 s
  clear_value compared
  have hsnap : coreOf snap = coreOf compared := by
    simp only [snap]
    split
    · split <;> rfl
    · rfl
  clear_value snap
  have hwoken : coreOf woken = coreOf snap := by
    simp only [woken]
    split <;> rfl
  clear_value woken
  rw [← hcompared, ← hsnap, ← hwoken]
  split
  · split <;> rfl
  · rfl

theorem fire_core (src : Nat) (s : State) : coreOf (fire src s) = coreOf s := core_of_still (fire_still src s)

/-- A pending step moves the time and is pending no longer; what it fires leaves the time alone. -/
theorem applyStep_some {s : State} {p : PendStep} (h : s.time.step = some p) :
    coreOf (applyStep s) = coreOf (moveTime (stepOffset s p) { s with time := { s.time with step := none } }) := by
  simp only [applyStep, h]
  split
  · rw [stepPast_core, fire_core, putObj_core]
    rfl
  · rw [fire_core, putObj_core]
    rfl

/-- Where a step asked for takes the time that step 1 gave (R136): the offsets add, and a set gives the time they start from. -/
theorem stepOffset_target (s : State) (p : PendStep) : timeUnits32 s + stepOffset s p = (match p.set with
    | none => timeUnits32 s
    | some u => (((tSec u * 1000000000 + tNs u) * 2 ^ 32 + tFrac u * 65536 : Nat) : Int)) + p.add := by
  obtain ⟨set, add⟩ := p
  cases set with
  | none => rfl
  | some u => simp only [stepOffset, billion]; omega

/-- Settles O1: the tick applies the step to the accumulated time, and none of its events touches the time. -/
theorem stepApplyMovesTime : Obligations.StepApplyMovesTime := by
  unfold Obligations.StepApplyMovesTime
  refine ⟨?_, ?_, ?_⟩
  · intro s p hmode hstep hns hfrac hinc hsec
    obtain ⟨einc, enext, estep, eticks, erest, -⟩ := opened_kept s
    obtain ⟨hunits, -, -⟩ := opened_time hns hfrac hinc hsec
    have hcore := (tick_core s).trans (takeIncrement_core (applyStep_some (estep.trans hstep)))
    have htarget := stepOffset_target (opened s) p
    obtain ⟨hmoved, hns', hfrac'⟩ := moveTime_time (stepOffset (opened s) p) { opened s with time := { (opened s).time with step := none } }
    generalize hu : opened s = u at *
    simp only [coreOf, clockOf_takeIncrement, restOf_takeIncrement] at hcore
    simp only [clockOf, Prod.mk.injEq] at hcore
    obtain ⟨⟨tsec, tns, tfrac, tinc, -, tstep, tticks⟩, trest⟩ := hcore
    have hrest := trest.trans erest
    simp only [restOf, Prod.mk.injEq] at hrest
    obtain ⟨tpos, tcel, thyd, ttap, tflt, tblobs, tmem⟩ := hrest
    refine ⟨tick s, by simp only [exec, execStepApply, hmode, hstep, Option.isNone_some, decide_false, Bool.or_false, Bool.false_eq_true, if_false],
      tstep, ?_, lt_of_eq_of_lt tns hns', lt_of_eq_of_lt tfrac hfrac', ?_, tticks.trans eticks, tmem, tblobs, tpos, tcel, thyd, ttap, tflt⟩
    · calc timeUnits32 (tick s) = timeUnits32 (moveTime (stepOffset u p) { u with time := { u.time with step := none } }) := by
            simp only [timeUnits32, tsec, tns, tfrac]
        _ = max (timeUnits32 u + stepOffset u p) 0 := hmoved
        _ = _ := by rw [htarget, hunits] <;> rfl
    · rw [tinc, ← einc, ← enext]
      rfl
  · intro s hnone
    simp only [exec, execStepApply, hnone, Option.isNone_none, Bool.or_true, if_true]
  · intro s hcold
    simp only [exec, execStepApply, hcold, decide_true, Bool.true_or, if_true]

end Sys2Proof.Machine
end

section
/-! SUPPORT. Firing a source: its count wraps as a U32. -/

namespace Sys2Proof.Machine
open Sys2Proof

/-- The reset state with the count of source 639 at the largest value of a U32, the type of `events.src_count`. -/
def srcCountFull : State := putObj Oid.eventsSrcCount 639 (2 ^ 32 - 1) State.reset

theorem srcCountFull_sound : Sound srcCountFull := by
  unfold Sound Canonical Bounded
  decide +kernel

theorem fireAt_srcCountFull :
    getObj srcCountFull Oid.eventsSrcCount 639 = 2 ^ 32 - 1 ∧
    getObj (fireAt 639 0 0 false srcCountFull) Oid.eventsSrcCount 639 = 0 := by decide +kernel

/-- Refutes O7: `events.src_count` is a U32 (05 Table of objects, 0C.003.0), so a count of 2^32 − 1 wraps to 0, where the statement counts on modulo 2^64. -/
theorem not_firingASource : ¬ Obligations.FiringASource := by
  intro h
  obtain ⟨hbefore, hafter⟩ := fireAt_srcCountFull
  obtain ⟨hcount, -⟩ := h 639 0 0 false srcCountFull srcCountFull_sound (by decide) (by decide +kernel)
  rw [hbefore, hafter] at hcount
  exact absurd hcount (by decide)

end Sys2Proof.Machine
end

section
/-! SUPPORT. The brewhouse link (R147 to R153, R250): what each row sends and keeps. -/

namespace Sys2Proof.Machine
open Sys2Proof

/-! ### What the link rows take -/

theorem bhTakes_eq_true {s : State} {q : Nat} {hops : BitVec 8} (hruns : cascadeRuns s = true) (hq : q ∈ cascadeQuads s) (hhops : hops ≠ 0) :
    bhTakes s q hops.toNat = true := by
  have hne : hops.toNat ≠ 0 := fun e => hhops (BitVec.eq_of_toNat_eq e)
  simp [bhTakes, hruns, hq, hne]

theorem bhTakes_eq_false {s : State} {q : Nat} {hops : BitVec 8} (h : cascadeRuns s = false ∨ q ∉ cascadeQuads s ∨ hops = 0) :
    bhTakes s q hops.toNat = false := by
  rcases h with h | h | h <;> simp [bhTakes, h]

theorem openLinks_subset {s : State} {q : Nat} (h : q ∈ openLinks s) : q ∈ cascadeQuads s := (List.mem_filter.mp h).1

/-- A lane's instant lies in the present tick, at one of its 2^16 positions. -/
theorem laneNow_moment (s : State) : ∃ k, k < 65536 ∧ (laneNow s).1 = laneStamp (momentAt s k) :=
  ⟨_, Nat.mod_lt _ (by decide), rfl⟩

theorem meanInt_singleton (d : Int) : meanInt [d] = d := by simp [meanInt]

/-- The first probe of a link sets its hop delay. -/
theorem probeReply_first {s : State} {q t1 : Nat} (t2 t3 t4 : Nat) (h1 : tabFind q s.time.probeT1 = some t1) (h0 : tabGet [] q s.time.probes = []) :
    probeReply q t2 t3 t4 s =
      (let d := hopDelay t1 t2 t3 t4 (getInt s Oid.timeBhAsymmetry q)
       putObj Oid.timeBhHopDelay q (offsetQ32 d) { s with time := { s.time with
          probeT1 := tabErase q s.time.probeT1, probes := tabPut [] q [d] s.time.probes } }) := by
  have hint : getInt { s with time := { s.time with probeT1 := tabErase q s.time.probeT1 } } Oid.timeBhAsymmetry q =
      getInt s Oid.timeBhAsymmetry q := rfl
  unfold probeReply
  rw [h1]
  dsimp only
  rw [h0, hint]
  simp only [List.isEmpty_nil, Bool.not_true, Bool.false_and, Bool.false_eq_true, if_false, List.take, meanInt_singleton]

/-- A cascade link that is not newly retired takes no lanes out. -/
theorem afterTopology_of_kept {q : Nat} {before s : State} (h : isRetired s (resCascade q) = isRetired before (resCascade q)) :
    afterTopology q before s = s := by
  simp [afterTopology, h]

/-- Retirements are read from the fault state alone. -/
theorem isRetired_of_flt {s t : State} (h : t.flt = s.flt) (r : Nat) : isRetired t r = isRetired s r := by
  simp only [isRetired, h]

/-! ### What a beacon's offset leaves alone -/

/-- What a follower keeps of its parent, and the parts of the state that its servo does not reach. -/
def parentOf (s : State) := ((s.time.rootAddr, s.time.parentLock, s.time.beaconOff), getObj s Oid.timeBhLevel, s.mem, s.lau, s.dict, s.flt)

theorem fire_parent (src : Nat) (s : State) : parentOf (fire src s) = parentOf s := by
  simp [parentOf, getObj_fire (id := Oid.timeBhLevel) (by decide) (by decide)]

theorem putObj_parent {id idx v : Nat} {s : State} (h : id ≠ Oid.timeBhLevel) : parentOf (putObj id idx v s) = parentOf s := by
  simp [parentOf, getObj_putObj_ne h]

theorem setSticky_parent {id idx m : Nat} {s : State} (h : id ≠ Oid.timeBhLevel) : parentOf (setSticky id idx m s) = parentOf s :=
  putObj_parent h

theorem gainLock_parent (s : State) : parentOf (gainLock s) = parentOf s := by
  simp only [gainLock]
  split
  · rfl
  · rw [fire_parent, putObj_parent (by decide)]

theorem loseLock_parent (s : State) : parentOf (loseLock s) = parentOf s := by
  simp only [loseLock]
  split
  · rw [fire_parent, setSticky_parent (by decide), putObj_parent (by decide)]
  · rfl

theorem setBhLocked_parent (b : Bool) (s : State) : parentOf (setBhLocked b s) = parentOf s := by
  have hfire : ∀ u : State, parentOf u = parentOf s → parentOf (fire 0x049 (putObj Oid.timeBhLocked 0 (b2n b) u)) = parentOf s := fun u hu => by
    rw [fire_parent, putObj_parent (by decide), hu]
  simp only [setBhLocked]
  split
  · rfl
  · split
    · split
      · rw [gainLock_parent]; exact hfire _ rfl
      · rw [loseLock_parent]; exact hfire _ rfl
    · exact hfire _ rfl

theorem setIncrement_parent (v : Nat) (s : State) : parentOf (setIncrement v s) = parentOf s := putObj_parent (by decide)

theorem setClamped_parent (want : Int) (s : State) : parentOf (setClamped want s) = parentOf s := by
  simp only [setClamped]
  split
  · rw [setSticky_parent (by decide), setIncrement_parent]
  · split
    · rw [setSticky_parent (by decide), setIncrement_parent]
    · rw [setIncrement_parent]

theorem follow_parent (off : Int) (s : State) : parentOf (follow off s) = parentOf s := by
  have hput : parentOf (putObj Oid.timeOffset 0 (offsetQ32 off) s) = parentOf s := putObj_parent (by decide)
  simp only [follow]
  generalize putObj Oid.timeOffset 0 (offsetQ32 off) s = u at hput ⊢
  rw [← hput]
  split
  · rfl
  · split
    · rfl
    · split
      · rw [slew, setSticky_parent (by decide), setIncrement_parent]
        rfl
      · split
        · rfl
        · rw [servoToward, setClamped_parent]
          rfl

theorem takeOffset_parent (off : Int) (s : State) : parentOf (takeOffset off s) =
    ((s.time.rootAddr, s.time.parentLock, (off :: s.time.beaconOff).take 64), getObj s Oid.timeBhLevel, s.mem, s.lau, s.dict, s.flt) := by
  have hput : ∀ v (u : State), parentOf (putObj Oid.timeBhOffset 0 v u) = parentOf u := fun _ _ => putObj_parent (by decide)
  unfold takeOffset
  extract_lets
  split
  · exact (setBhLocked_parent _ _).trans (hput _ _)
  · split
    · exact (setBhLocked_parent _ _).trans (hput _ _)
    · exact hput _ _

/-- A beacon of the parent is taken: level, root, lock, and its offset. -/
theorem beacon_parent {q arrival : Nat} {b : BeaconBody} {s : State} (hup : getObj s Oid.timeBhUpstream = q)
    (hret : isRetired s (resCascade q) = false) (hlevel : b.level.toNat < 6) (hroot : b.root.toNat ≠ getObj s Oid.timeBhAddress) :
    parentOf (beacon q b arrival s) = ((b.root.toNat, b.locked, (((tUnits arrival : Int) - ((tUnits (Time96pack b.time) : Int) +
      toSigned 64 (getObj s Oid.timeBhHopDelay q) / 65536)) :: s.time.beaconOff).take 64), b.level.toNat + 1, s.mem, s.lau, s.dict, s.flt) := by
  have hlow : ¬ 6 < b.level.toNat + 1 := by omega
  simp only [beacon, hup, hret, hlow, hroot, ne_eq, not_true, decide_false, Bool.or_self, Bool.false_eq_true, if_false]
  split
  · rw [follow_parent, takeOffset_parent]
    simp [takeBeacon]
  · rw [takeOffset_parent]
    simp [takeBeacon]

/-! ### The rows -/

theorem exec_beaconSend {s : State} (h : cascadeRuns s = true) : exec .beaconSend s =
    .next (((openLinks s).filter (fun q => q ≠ getObj s Oid.timeBhUpstream)).foldl
      (fun t q => originateBh q 1 1 0 [] true (beBytes 1 (ownLevel s) ++ beBytes 1 (getObj s Oid.timeLocked) ++
        beBytes 2 (if getObj s Oid.timeBhUpstream = 0xFFFF then getObj s Oid.timeBhAddress else s.time.rootAddr))
        (laneNow t).1 (laneNow t).2) s) := by
  simp only [exec, execBeaconSend, h, Bool.not_true, Bool.false_eq_true, if_false]
  rfl

theorem exec_probeReply {s : State} {q : Quad} {hops : BitVec 8} {t1 : Nat} (t2 t3 t4 : Time96) (hruns : cascadeRuns s = true)
    (hq : q.val ∈ cascadeQuads s) (hhops : hops ≠ 0) (h1 : tabFind q.val s.time.probeT1 = some t1) (h0 : tabGet [] q.val s.time.probes = []) :
    exec (.probeReply ⟨q, hops⟩ t2 t3 t4) s = .next (
      let s1 := bump Oid.portBhFrames q.val s
      let d := hopDelay t1 (Time96pack t2) (Time96pack t3) (laneStamp (Time96pack t4)) (getInt s Oid.timeBhAsymmetry q.val)
      putObj Oid.timeBhHopDelay q.val (offsetQ32 d) { s1 with time := { s1.time with
        probeT1 := tabErase q.val s.time.probeT1, probes := tabPut [] q.val [d] s.time.probes } }) := by
  have hint : getInt (bump Oid.portBhFrames q.val s) Oid.timeBhAsymmetry q.val = getInt s Oid.timeBhAsymmetry q.val := by
    simp only [getInt, getObj_bump_ne (id := Oid.portBhFrames) (id' := Oid.timeBhAsymmetry) (by decide)]
  have htakes : bhTakes s q.val hops.toNat = true := bhTakes_eq_true hruns hq hhops
  simp only [exec, execProbeReply, htakes, if_true]
  rw [probeReply_first (s := bump Oid.portBhFrames q.val s) _ _ _ h1 h0, hint]
  rfl

theorem exec_beaconLoss {s u : State} {q : Quad} (hq : q.val ∈ cascadeQuads s) (hup : getObj s Oid.timeBhUpstream = q.val)
    (hlock : isOn s Oid.timeBhLocked = false)
    (hu : u = topologyFault q.val (setSticky Oid.timeStatus 0 0x10 { s with time := { s.time with beaconRun := 0, beaconOff := [], beaconMean := 0 } }))
    (hret : isRetired u (resCascade q.val) = isRetired s (resCascade q.val)) : exec (.beaconLoss q) s = .next u := by
  have hset : setBhLocked false { s with time := { s.time with beaconRun := 0, beaconOff := [], beaconMean := 0 } } =
      { s with time := { s.time with beaconRun := 0, beaconOff := [], beaconMean := 0 } } := if_pos hlock
  simp only [exec, execBeaconLoss, hq, hup, and_self, if_true, hset, ← hu]
  rw [afterTopology_of_kept hret]

/-- A beacon that its link does not take changes nothing; one of another member than the parent is only counted. -/
theorem exec_beacon_other {s : State} {q : Quad} {hops : BitVec 8} (b : BeaconBody) (a : Time96) (hruns : cascadeRuns s = true)
    (hq : q.val ∈ cascadeQuads s) (hhops : hops ≠ 0) (hup : getObj s Oid.timeBhUpstream ≠ q.val) :
    exec (.beacon ⟨q, hops⟩ b a) s = .next (bump Oid.portBhFrames q.val s) := by
  have htakes : bhTakes s q.val hops.toNat = true := bhTakes_eq_true hruns hq hhops
  have hup' : getObj (bump Oid.portBhFrames q.val s) Oid.timeBhUpstream ≠ q.val := by rwa [getObj_bump_ne (by decide)]
  simp only [exec, execBeacon, htakes, if_true, beacon, hup', ne_eq, not_false_eq_true, decide_true, Bool.true_or]
  rw [afterTopology_of_kept (isRetired_of_flt (bump_flt _ _ s) _)]

theorem exec_beacon_parent {s : State} {q : Quad} {hops : BitVec 8} {b : BeaconBody} (a : Time96) (hruns : cascadeRuns s = true)
    (hq : q.val ∈ cascadeQuads s) (hhops : hops ≠ 0) (hup : getObj s Oid.timeBhUpstream = q.val)
    (hret : isRetired s (resCascade q.val) = false) (hlevel : b.level.toNat < 6) (hroot : b.root.toNat ≠ getObj s Oid.timeBhAddress) :
    exec (.beacon ⟨q, hops⟩ b a) s = .next (beacon q.val b (laneStamp (Time96pack a)) (bump Oid.portBhFrames q.val s)) ∧
    parentOf (beacon q.val b (laneStamp (Time96pack a)) (bump Oid.portBhFrames q.val s)) =
      ((b.root.toNat, b.locked, (((tUnits (laneStamp (Time96pack a)) : Int) - ((tUnits (Time96pack b.time) : Int) +
        toSigned 64 (getObj s Oid.timeBhHopDelay q.val) / 65536)) :: s.time.beaconOff).take 64), b.level.toNat + 1, s.mem, s.lau, s.dict, s.flt) := by
  have hb := beacon_parent (arrival := laneStamp (Time96pack a)) (s := bump Oid.portBhFrames q.val s)
    (by rwa [getObj_bump_ne (by decide)]) hret hlevel (by rwa [getObj_bump_ne (by decide)])
  rw [getObj_bump_ne (by decide)] at hb
  have htakes : bhTakes s q.val hops.toNat = true := bhTakes_eq_true hruns hq hhops
  have hflt : (beacon q.val b (laneStamp (Time96pack a)) (bump Oid.portBhFrames q.val s)).flt = s.flt :=
    congrArg (fun p => p.2.2.2.2.2) hb
  refine ⟨?_, hb⟩
  simp only [exec, execBeacon, htakes, if_true]
  rw [afterTopology_of_kept (isRetired_of_flt hflt _)]

/-- Settles O6, row by row. -/
theorem brewhouseTime : Obligations.BrewhouseTime := by
  refine ⟨⟨fun s h => exec_beaconSend h, laneNow_moment, ?_, ?_, ?_, ?_, ?_, ?_, ?_⟩, ?_, ?_⟩
  · intro s d hup hruns
    simp only [exec, execProbeSend, hup, hruns, decide_true, Bool.and_self, if_true]
  · intro s q hops a d hruns hq hhops
    have htakes : bhTakes s q.val hops.toNat = true := bhTakes_eq_true hruns hq hhops
    simp only [exec, execProbe, htakes, if_true]
  · exact fun s q hops t1 t2 t3 t4 hruns hq hhops h1 h0 => exec_probeReply t2 t3 t4 hruns hq hhops h1 h0
  · intro s q hops b a h
    have htakes : bhTakes s q.val hops.toNat = false := bhTakes_eq_false h
    simp only [exec, execBeacon, htakes, Bool.false_eq_true, if_false]
  · exact fun s q hq hup hlock u hu hret => exec_beaconLoss hq hup hlock hu hret
  · intro s hruns hup
    refine ⟨_, rfl, ?_⟩
    simp only [exec, execAddressAnnounce, hruns, Bool.not_true, Bool.false_eq_true, if_false]
    rfl
  · intro s q src seq hops addrs hruns hq hhops
    have htakes : bhTakes s q.val hops.toNat = true := bhTakes_eq_true hruns (openLinks_subset hq) hhops
    simp only [exec, execAddressAnnounce, htakes, hq, decide_true, Bool.and_self, if_true]
  · exact fun s q hops b a hruns hq hhops hup => exec_beacon_other b a hruns hq hhops hup
  · intro s q hops b a hruns hq hhops hup hret hlevel hroot
    obtain ⟨hexec, hkept⟩ := exec_beacon_parent a hruns hq hhops hup hret hlevel hroot
    simp only [parentOf, Prod.mk.injEq] at hkept
    obtain ⟨⟨hrootAddr, hlocked, hoff⟩, hlev, hmem, hlau, hdict, -⟩ := hkept
    exact ⟨_, hexec, hrootAddr, hlocked, hlev, by rw [hoff]; rfl, hmem, hlau, hdict⟩

end Sys2Proof.Machine
end

section
/-! SUPPORT. A lane fault and the retry rule (R217 to R221, R505). -/

namespace Sys2Proof.Machine
open Sys2Proof

/-! ### What the tick still uses (R164) stays when a source fires -/

theorem updateIntx_prev (s : State) : (updateIntx s).fab.prev = s.fab.prev := by
  simp only [updateIntx]
  split
  · rfl
  · rw [assertWake_fab]
    rfl

theorem sendVector_prev (v : Nat) (s : State) : (sendVector v s).fab.prev = s.fab.prev := by
  simp only [sendVector]
  split
  · rw [assertWake_fab]
  · rfl
  · split <;> rfl
  · split <;> rfl

theorem countVector_prev (v : Nat) (s : State) : (countVector v s).fab.prev = s.fab.prev := by
  simp only [countVector]
  split
  · exact sendVector_prev v s
  · rfl

theorem fireAt_prev (src ts due : Nat) (late : Bool) (s : State) : (fireAt src ts due late s).fab.prev = s.fab.prev := by
  simp only [fireAt]
  split <;> split <;> simp only [arrive, updateIntx_prev, countVector_prev, bump_fab]

@[simp] theorem fire_prev (src : Nat) (s : State) : (fire src s).fab.prev = s.fab.prev := by
  simp only [fire]
  split
  · rfl
  · exact fireAt_prev _ _ _ _ _

/-- A fabric object reads from the table of objects and from what this tick still uses. -/
theorem fabObj_congr {s t : State} {id idx : Nat} (hprev : t.fab.prev = s.fab.prev) (hobj : getObj t id idx = getObj s id idx) :
    fabObj t id idx = fabObj s id idx := by
  simp only [fabObj, hprev, hobj]

/-- Every fabric object but the two counts of firing reads as before. -/
theorem fabObj_fire {id idx src : Nat} {s : State} (h1 : Oid.eventsSrcCount ≠ id) (h2 : Oid.eventsVecSent ≠ id) :
    fabObj (fire src s) id idx = fabObj s id idx :=
  fabObj_congr (fire_prev src s) (getObj_fire h1 h2)

/-! ### A lane fault (R217 to R221, R505) -/

/-- A lane fault that counts: the count, the cause and the source, before the retry rule. -/
def laneFaultCounted (n cause : Nat) (s : State) : State :=
  fire (0x100 + n) (putLane Oid.laneFaultCause n cause (bumpLane Oid.laneFaults n s))

/-- No fault limit of group 0x70 lies among the objects of a quad. -/
theorem laneFaultCounted_limits {n cause id : Nat} {s : State} (hn : n < 64) (hid : 0x700000 ≤ id) (h1 : Oid.eventsSrcCount ≠ id)
    (h2 : Oid.eventsVecSent ≠ id) : fabObj (laneFaultCounted n cause s) id = fabObj s id := by
  have hq : n / 4 < 16 := by omega
  rw [laneFaultCounted, fabObj_fire h1 h2]
  refine fabObj_congr (by rw [putLane, putObj_fab, bumpLane, bump_fab]) ?_
  rw [putLane, getObj_putObj_ne (by simp only [quadId, Oid.laneFaultCause]; omega), bumpLane,
    getObj_bump_ne (by simp only [quadId, Oid.laneFaults]; omega)]

theorem laneFaultCounted_flt (n cause : Nat) (s : State) : (laneFaultCounted n cause s).flt = s.flt := by
  rw [laneFaultCounted, fire_flt, putLane, putObj_flt, bumpLane, bump_flt]

theorem laneFaultCounted_time (n cause : Nat) (s : State) : (laneFaultCounted n cause s).time = s.time := by
  rw [laneFaultCounted, fire_time, putLane, putObj_time, bumpLane, bump_time]

theorem laneFaultCounted_modes (n cause : Nat) (s : State) : (laneFaultCounted n cause s).modes = s.modes := by
  rw [laneFaultCounted, fire_modes, putLane, putObj_modes, bumpLane, bump_modes]

theorem recentFaults_laneFaultCounted {n cause : Nat} {s : State} (hn : n < 64) :
    recentFaults (laneFaultCounted n cause s) (resLane n) = recentFaults s (resLane n) := by
  simp only [recentFaults, laneFaultCounted_flt, laneFaultCounted_time,
    laneFaultCounted_limits (id := Oid.faultsRetryWindow) hn (by decide) (by decide) (by decide)]

/-- The retry rule for a resource of a lane (R505): the first fault of a tick retires where it is permanent or one more than the window's limit. -/
theorem recordFault_lane {n cause : Nat} {perm : Bool} {s : State} (hn : n < 64) (hret : isRetired s (resLane n) = false)
    (htick : faultedTick s (resLane n) = false) :
    (recordFault (resLane n) cause perm s).2 =
      if perm = true ∨ fabObj s Oid.faultsRetryLimit < (recentFaults s (resLane n)).length + 1 then .retire else .retry := by
  have hkind : (0x1000 + n) / 4096 = 1 := by omega
  have hlimit : ∀ h, fabObj { s with flt := { s.flt with history := h } } Oid.faultsRetryLimit = fabObj s Oid.faultsRetryLimit := fun _ => rfl
  simp only [recordFault, hret, htick, resLane, hkind, hlimit]
  simp only [decide_true, Bool.false_eq_true, if_false, List.length_cons, Nat.reduceEqDiff, Bool.false_and, Bool.or_self, gt_iff_lt,
    Bool.or_eq_true, decide_eq_true_eq, decide_false]
  split <;> rfl

theorem laneFault_of_first {n cause : Nat} {s : State} (hmode : s.modes.current ≠ .diagnostic) (hret : laneRetired s n = false)
    (hrelock : (laneX s n).relock = false) (htick : faultedTick s (resLane n) = false) :
    laneFault n cause s = recordLaneFault n cause s := by
  simp only [laneFault, faultedNow, htick, hret, hrelock, Bool.false_and, Bool.false_eq_true, if_false]

/-- Settles O11: the count, the cause and the source first, then the verdict of the retry rule. -/
theorem laneFaultRetriesOrRetires : Obligations.LaneFaultRetriesOrRetires := by
  intro n cause s hn hmode hret hrelock hhead
  have htick : faultedTick s (resLane n) = false := decide_eq_false hhead
  have hfault := laneFault_of_first (cause := cause) hmode hret hrelock htick
  have hres : isRetired s (resLane n) = false := (Bool.or_eq_false_iff.mp hret).1
  have hmode' : (laneFaultCounted n cause s).modes.current ≠ .diagnostic := by rwa [laneFaultCounted_modes]
  have hverdict := recordFault_lane (cause := cause) (perm := lanePermanent cause) (s := laneFaultCounted n cause s) hn
    (by simpa only [isRetired, laneFaultCounted_flt] using hres)
    (by simpa only [faultedTick, laneFaultCounted_flt, laneFaultCounted_time] using htick)
  rw [recentFaults_laneFaultCounted hn, laneFaultCounted_limits hn (by decide) (by decide) (by decide)] at hverdict
  have hrecord : ∀ u v, recordFault (resLane n) cause (lanePermanent cause) (laneFaultCounted n cause s) = (u, v) →
      (v = .retire → laneFault n cause s = relockOthers n (laneOut n (if lanePermanent cause then 2 else 1) u)) ∧
      (v = .retry → laneFault n cause s = relockLane n cause u) := by
    intro u v huv
    rw [hfault]
    unfold recordLaneFault
    rw [← laneFaultCounted, if_neg hmode', huv]
    constructor <;> rintro rfl <;> rfl
  refine ⟨(hrecord _ _ rfl).1, (hrecord _ _ rfl).2, ?_⟩
  change ((recordFault (resLane n) cause (lanePermanent cause) (laneFaultCounted n cause s)).2 = _ ↔ _) ∧
    ((recordFault (resLane n) cause (lanePermanent cause) (laneFaultCounted n cause s)).2 = _ ∨
      (recordFault (resLane n) cause (lanePermanent cause) (laneFaultCounted n cause s)).2 = _)
  rw [hverdict]
  split
  · next h => exact ⟨⟨fun _ => h, fun _ => rfl⟩, .inl rfl⟩
  · next h => exact ⟨⟨fun e => Verdict.noConfusion e, fun e => absurd e h⟩, .inr rfl⟩

end Sys2Proof.Machine
end

section
/-! SUPPORT. Lane bring-up (R200, Table 6.2), the CTLE setting (R203) and block lock (R196). -/

namespace Sys2Proof.Machine
open Sys2Proof

/-! ### The hunt over whole blocks (R196) -/

/-- A whole block has been taken: the hunt over the bits after it goes on unless the lock has changed. -/
def huntAfter (cascade : Bool) (t : List Bool) (a : HuntAcc) (x : LaneX) : HuntAcc :=
  let w := wholeBlock cascade x a.locked
  let b := { a with x := w.1, invalid := a.invalid + b2n w.2.2 }
  if w.2.1 = a.locked then huntBits cascade t b else { b with locked := w.2.1, rest := t }

/-- What the payload of a block does not change: its header, the run of valid headers and the window's counts. -/
def headerOf (x : LaneX) : Bool × Nat × Nat × Nat := (x.valid, x.good, x.bad, x.seen)

/-- The last payload bits of a block complete it. -/
theorem huntBits_payload (cascade : Bool) (t l : List Bool) : ∀ a : HuntAcc, a.x.slip = false → l ≠ [] → l.length ≤ 64 →
    a.x.fill = 66 - l.length → ∃ y : LaneX, y.slip = false ∧ y.fill = 0 ∧ headerOf y = headerOf a.x ∧
      huntBits cascade (l ++ t) a = huntAfter cascade t a y := by
  induction l with
  | nil => exact fun _ _ h => absurd rfl h
  | cons b l ih =>
    intro a hslip _ hlen hfill
    rw [List.length_cons] at hlen hfill
    have h0 : a.x.fill ≠ 0 := by omega
    have h1 : a.x.fill ≠ 1 := by omega
    cases l with
    | nil =>
      refine ⟨(takeBit b a.x).1, ?_⟩
      have hlast : a.x.fill = 65 := hfill
      simp [huntBits, huntAfter, takeBit, hslip, hlast, headerOf]
    | cons c l =>
      have h65 : a.x.fill ≠ 65 := by rw [List.length_cons] at hfill; omega
      have htake : takeBit b a.x = ({ a.x with payload := a.x.payload + b2n b * 2 ^ (a.x.fill - 2), fill := a.x.fill + 1 }, false) := by
        simp only [takeBit, hslip, h0, h1, h65, Bool.false_eq_true, if_false]
      obtain ⟨y, hy⟩ := ih { a with x := (takeBit b a.x).1 } (by rw [htake]; exact hslip) (by simp) (by omega)
        (by rw [htake]; simp only [List.length_cons] at hfill hlen ⊢; omega)
      refine ⟨y, ?_⟩
      rw [htake] at hy
      have hstep : huntBits cascade (b :: c :: l ++ t) a = huntBits cascade (c :: l ++ t) { a with x := (takeBit b a.x).1 } := by
        simp [huntBits, htake]
      rw [hstep, htake]
      exact hy

/-- A block met at the candidate position: its header is valid where its two bits differ. -/
theorem huntBits_whole {cascade : Bool} {t b : List Bool} {a : HuntAcc} (hfill : a.x.fill = 0) (hslip : a.x.slip = false)
    (hlen : b.length = 66) : ∃ y : LaneX, y.slip = false ∧ y.fill = 0 ∧
      headerOf y = (decide (b[0]? ≠ b[1]?), a.x.good, a.x.bad, a.x.seen) ∧ huntBits cascade (b ++ t) a = huntAfter cascade t a y := by
  obtain ⟨h, c, l, rfl⟩ : ∃ h c l, b = h :: c :: l := by
    match b, hlen with
    | h :: c :: l, _ => exact ⟨h, c, l, rfl⟩
  simp only [List.length_cons, Nat.reduceEqDiff] at hlen
  have hvalid : (h != c) = decide ((h :: c :: l)[0]? ≠ (h :: c :: l)[1]?) := by
    cases h <;> cases c <;> rfl
  have hstep : huntBits cascade (h :: c :: l ++ t) a =
      huntBits cascade (l ++ t) { a with x := { a.x with fill := 2, head := h, payload := 0, control := h, valid := h != c, slip := false } } := by
    simp [huntBits, takeBit, hfill, hslip]
  obtain ⟨y, h1, h2, h3, h4⟩ := huntBits_payload cascade t l
    { a with x := { a.x with fill := 2, head := h, payload := 0, control := h, valid := h != c, slip := false } } rfl
    (by intro e; simp [e] at hlen) (by omega) (by simp only; omega)
  exact ⟨y, h1, h2, by rw [h3, ← hvalid]; rfl, hstep.trans h4⟩

/-- A block with a valid header, met at the candidate position. -/
theorem huntBits_block {cascade : Bool} {t b : List Bool} {a : HuntAcc} (hfill : a.x.fill = 0) (hslip : a.x.slip = false)
    (hlen : b.length = 66) (hhead : b[0]? ≠ b[1]?) : ∃ y : LaneX, y.slip = false ∧ y.fill = 0 ∧ y.valid = true ∧ y.good = a.x.good ∧
      huntBits cascade (b ++ t) a = huntAfter cascade t a y := by
  obtain ⟨y, h1, h2, h3, h4⟩ := huntBits_whole (cascade := cascade) (t := t) hfill hslip hlen
  rw [headerOf, decide_eq_true hhead] at h3
  simp only [Prod.mk.injEq] at h3
  obtain ⟨hvalid, hgood, -⟩ := h3
  exact ⟨y, h1, h2, hvalid, hgood, h4⟩

/-- A valid header in the hunt: one more in the run, which locks at 64. -/
theorem huntStep_hunting {h : BitVec 2} (hh : h = 1#2 ∨ h = 2#2) (x : LaneX) :
    (huntStep h x false).1.good = x.good + 1 ∧ (huntStep h x false).1.fill = x.fill ∧ (huntStep h x false).1.valid = x.valid ∧
    (huntStep h x false).2.1 = decide (x.good + 1 = 64) := by
  have hvalid : (decide (h = 1#2) || decide (h = 2#2)) = true := by simpa using hh
  simp only [huntStep, Bool.not_false, if_true, hvalid]
  split
  · next hgood => simp [hgood]
  · next hgood => simp [hgood]

theorem wholeBlock_hunting {cascade : Bool} {y : LaneX} (hvalid : y.valid = true) (hfill : y.fill = 0) :
    (wholeBlock cascade y false).1.good = y.good + 1 ∧ (wholeBlock cascade y false).1.slip = false ∧
    (wholeBlock cascade y false).1.fill = 0 ∧ (wholeBlock cascade y false).2.1 = decide (y.good + 1 = 64) := by
  obtain ⟨hgood, hfill', hvalid', hlock⟩ := huntStep_hunting (h := if y.control then 2#2 else 1#2) (by split <;> simp) y
  simp only [wholeBlock, hvalid, Bool.not_true, Bool.false_eq_true, if_false]
  generalize huntStep (if y.control then 2#2 else 1#2) y false = r at hgood hfill' hvalid' hlock ⊢
  have hslip : (!r.1.valid && (!false || !r.2.1)) = false := by rw [hvalid', hvalid]; rfl
  split <;> exact ⟨hgood, hslip, hfill'.trans hfill, hlock⟩

/-- Whole blocks with valid headers: fewer than 64 in a row leave the lane hunting, the 64th locks it. -/
theorem huntBits_blocks {cascade : Bool} (bs : List (List Bool)) : ∀ a : HuntAcc, a.locked = false → a.x.fill = 0 → a.x.slip = false →
    (∀ b ∈ bs, b.length = 66 ∧ b[0]? ≠ b[1]?) →
    (a.x.good + bs.length < 64 → (huntBits cascade bs.flatten a).locked = false ∧ (huntBits cascade bs.flatten a).rest = []) ∧
    (a.x.good + bs.length = 64 → bs ≠ [] → (huntBits cascade bs.flatten a).locked = true ∧ (huntBits cascade bs.flatten a).rest = []) := by
  induction bs with
  | nil => exact fun a hlock _ _ _ => ⟨fun _ => ⟨hlock, rfl⟩, fun _ h => absurd rfl h⟩
  | cons b bs ih =>
    intro a hlock hfill hslip hall
    obtain ⟨hlen, hhead⟩ := hall b (by simp)
    obtain ⟨y, yslip, yfill, yvalid, ygood, heq⟩ := huntBits_block (cascade := cascade) (t := bs.flatten) hfill hslip hlen hhead
    obtain ⟨wgood, wslip, wfill, wlock⟩ := wholeBlock_hunting (cascade := cascade) yvalid yfill
    rw [List.flatten_cons, heq, List.length_cons]
    simp only [huntAfter, hlock]
    by_cases hlast : y.good + 1 = 64
    · have hw : (wholeBlock cascade y false).2.1 = true := by simp [wlock, hlast]
      refine ⟨fun h => by omega, fun h _ => ?_⟩
      have hnil : bs = [] := List.length_eq_zero_iff.mp (by omega)
      simp [hw, hnil]
    · have hw : (wholeBlock cascade y false).2.1 = false := by simp [wlock, hlast]
      simp only [hw, if_true]
      have hih := ih { a with locked := false, x := (wholeBlock cascade y false).1, invalid := a.invalid + b2n (wholeBlock cascade y false).2.2 }
        rfl wfill wslip (fun c hc => hall c (by simp [hc]))
      simp only [wgood, ygood] at hih
      refine ⟨fun h => hih.1 (by omega), fun h _ => hih.2 (by omega) ?_⟩
      rintro rfl
      simp only [List.length_nil] at h
      omega

/-! ### Reading a lane's objects -/

theorem quadId_ne {a b q : Nat} (h : a ≠ b) : quadId a q ≠ quadId b q := fun e => h (Nat.add_right_cancel e)

@[simp] theorem getLane_putLane_self (id n v : Nat) (s : State) : getLane (putLane id n v s) id n = v := getObj_putObj_self _ _ _ _

theorem getLane_putLane_ne {id id' n v : Nat} {s : State} (h : id ≠ id') : getLane (putLane id n v s) id' n = getLane s id' n :=
  getObj_putObj_ne (quadId_ne h)

theorem getLane_congr {s t : State} (h : t.objs = s.objs) (id n : Nat) : getLane t id n = getLane s id n := getObj_congr h _ _

theorem laneState_eq_iff {s : State} {n st : Nat} (h : st ≠ 8) : laneState s n = st ↔ laneRetired s n = false ∧ getLane s Oid.laneState n = st := by
  simp only [laneState]
  split
  · next hr => simp [hr, Ne.symm h]
  · next hr => simp [hr]

/-- What block lock is judged by, with the time and the memory. -/
def lockView (n : Nat) (s : State) := (getLane s Oid.laneState n, getLane s Oid.laneBlockLock n, s.time, s.mem)

theorem putLane_lockView {id n v : Nat} {s : State} (h1 : id ≠ Oid.laneState) (h2 : id ≠ Oid.laneBlockLock) :
    lockView n (putLane id n v s) = lockView n s := by
  rw [lockView, getLane_putLane_ne h1, getLane_putLane_ne h2, putLane, putObj_time, putObj_mem, lockView]

theorem addObj_lockView {id n k : Nat} {s : State} (h1 : id ≠ Oid.laneState) (h2 : id ≠ Oid.laneBlockLock) :
    lockView n (addObj (quadId id (n / 4)) (n % 4) k s) = lockView n s := putLane_lockView h1 h2

theorem fire_lockView {n src : Nat} {s : State} (hn : n < 64) : lockView n (fire src s) = lockView n s := by
  have hread : ∀ id, id / 65536 = 16 → getLane (fire src s) id n = getLane s id n := by
    intro id hid
    have h1 : Oid.eventsSrcCount ≠ quadId id (n / 4) := by simp only [quadId, Oid.eventsSrcCount]; omega
    have h2 : Oid.eventsVecSent ≠ quadId id (n / 4) := by simp only [quadId, Oid.eventsVecSent]; omega
    exact getObj_fire h1 h2
  rw [lockView, hread _ (by decide), hread _ (by decide), fire_time, fire_mem, lockView]

theorem updatePort_lockView {n p : Nat} {s : State} (hn : n < 64) : lockView n (updatePort p s) = lockView n s := by
  simp only [updatePort]
  split
  · split <;> rfl
  · rw [fire_lockView hn]
    split <;> rfl

/-- Lane state 7 from state 6: no tap, figure or lock changes, the port follows. -/
theorem setLaneState_locked {n : Nat} {s : State} (hn : n < 64) (hold : getLane s Oid.laneState n = 6) :
    lockView n (setLaneState n 7 s) = (7, getLane s Oid.laneBlockLock n, s.time, s.mem) := by
  have hput : lockView n (putLane Oid.laneState n 7 s) = (7, getLane s Oid.laneBlockLock n, s.time, s.mem) := by
    rw [lockView, getLane_putLane_self, getLane_putLane_ne (by decide)]
    rfl
  unfold setLaneState
  extract_lets old x s1 s2 s3 s4 s5 s6 s7 s8
  have h8 : s8 = s7 := by simp [s8, old, hold]
  have h7 : s7 = bumpLane Oid.laneLinkUps n s6 := by simp [s7, old, hold]
  have h5 : s5 = putLane Oid.lanePrbsLock n 0 s1 := rfl
  rw [updateLanePort, updatePort_lockView hn, h8, h7, bumpLane, bump, addObj_lockView (by decide) (by decide)]
  change lockView n s5 = _
  rw [h5, putLane_lockView (by decide) (by decide), ← hput]

/-! ### BLOCK_LOCK (R196) -/

theorem getLane_putLaneX (id n m : Nat) (x : LaneX) (s : State) : getLane (putLaneX m x s) id n = getLane s id n := rfl

/-- What a hunting lane's bits come to, as far as the first change of lock. -/
def hunted (n : Nat) (bs : List Bool) (s : State) : HuntAcc :=
  huntBits (quadModeActive s (n / 4) = 5) bs { x := laneX s n, locked := false }

/-- The lane's objects after the bits of a hunt. -/
def afterHunt (n : Nat) (bs : List Bool) (s : State) : State :=
  putLane Oid.laneBlockLock n (b2n (hunted n bs s).locked)
    (addObj (quadId Oid.laneInvalidHeaders (n / 4)) (n % 4) (hunted n bs s).invalid (putLaneX n (hunted n bs s).x s))

theorem lineBits_nil (n fuel : Nat) (s : State) : lineBits n fuel [] s = s := by
  cases fuel <;> rfl

theorem lineBits_hunting {n fuel : Nat} {bs : List Bool} {s : State} (hst : laneState s n = 6) (hlock : getLane s Oid.laneBlockLock n = 0)
    (hbs : bs ≠ []) (hrest : (hunted n bs s).rest = []) : lineBits n (fuel + 1) bs s =
      if (hunted n bs s).locked then (if waitsForAlignment (afterHunt n bs s) n then afterHunt n bs s else setLaneState n 7 (afterHunt n bs s))
      else afterHunt n bs s := by
  have hbs' : bs.isEmpty = false := by simpa using hbs
  have hwas : decide (getLane s Oid.laneBlockLock n = 1) = false := by simp [hlock]
  unfold lineBits
  simp only [hst, hbs', hwas, decide_true, Bool.true_or, Bool.not_true, Bool.or_self, Bool.false_eq_true, if_false, Bool.not_false,
    Bool.true_and, Bool.false_and]
  rw [show huntBits _ bs _ = hunted n bs s from rfl, hrest, lineBits_nil]
  rfl

theorem rxBits_plain {n : Nat} {bs : List Bool} {s : State} (h : getLane s Oid.laneRxInvert n = 0) : rxBits n bs s = bs := by
  simp [rxBits, h]

/-! ### The quad mode in force does not hang on a lane's objects -/

theorem quadId_inj {a b p q : Nat} (ha : a / 65536 = 16) (hb : b / 65536 = 16) (h : quadId a p = quadId b q) : a = b := by
  simp only [quadId] at h
  omega

theorem quadModeActive_congr {s t : State} {q : Nat} (hup : getObj t Oid.timeBhUpstream = getObj s Oid.timeBhUpstream)
    (hdown : getObj t Oid.timeBhDownstream = getObj s Oid.timeBhDownstream)
    (hmode : getObj t (quadId Oid.quadMode q) = getObj s (quadId Oid.quadMode q)) : quadModeActive t q = quadModeActive s q := by
  have hquads : cascadeQuads t = cascadeQuads s := by simp only [cascadeQuads, hup, hdown]
  rw [quadModeActive, quadModeActive, hquads, hmode]

theorem quadModeActive_putLane {id n v q : Nat} {s : State} (hid : id / 65536 = 16) (hmode : id ≠ Oid.quadMode) :
    quadModeActive (putLane id n v s) q = quadModeActive s q := by
  refine quadModeActive_congr ?_ ?_ ?_
  · exact getObj_putObj_ne (by simp only [quadId, Oid.timeBhUpstream]; omega)
  · exact getObj_putObj_ne (by simp only [quadId, Oid.timeBhDownstream]; omega)
  · exact getObj_putObj_ne (fun e => hmode (quadId_inj hid (by decide) e))

theorem laneRetired_congr {s t : State} {n : Nat} (hflt : t.flt = s.flt) (hmode : quadModeActive t (n / 4) = quadModeActive s (n / 4)) :
    laneRetired t n = laneRetired s n := by
  simp only [laneRetired, isRetired_of_flt hflt, hmode]

theorem waitsForAlignment_congr {s t : State} {n : Nat} (hflt : t.flt = s.flt) (hmode : ∀ q, quadModeActive t q = quadModeActive s q) :
    waitsForAlignment t n = waitsForAlignment s n := by
  simp only [waitsForAlignment, hmode, laneRetired_congr hflt (hmode _)]

theorem afterHunt_flt (n : Nat) (bs : List Bool) (s : State) : (afterHunt n bs s).flt = s.flt := by
  rw [afterHunt, putLane, putObj_flt, addObj_flt]
  rfl

theorem afterHunt_mode (n : Nat) (bs : List Bool) (s : State) (q : Nat) : quadModeActive (afterHunt n bs s) q = quadModeActive s q := by
  rw [afterHunt, quadModeActive_putLane (by decide) (by decide)]
  exact quadModeActive_putLane (by decide) (by decide)

theorem afterHunt_lockView (n : Nat) (bs : List Bool) (s : State) :
    lockView n (afterHunt n bs s) = (getLane s Oid.laneState n, b2n (hunted n bs s).locked, s.time, s.mem) := by
  have hadd : lockView n (addObj (quadId Oid.laneInvalidHeaders (n / 4)) (n % 4) (hunted n bs s).invalid (putLaneX n (hunted n bs s).x s)) =
      lockView n s := addObj_lockView (by decide) (by decide)
  simp only [lockView, Prod.mk.injEq] at hadd
  obtain ⟨hstate, -, htime, hmem⟩ := hadd
  rw [lockView, afterHunt, getLane_putLane_self, getLane_putLane_ne (by decide), hstate, putLane, putObj_time, putObj_mem, htime, hmem]

/-- Fewer than 64 valid headers leave the lane hunting; the 64th gives it block lock and state 7. -/
theorem exec_blockLock {n : Lane} {s : State} {bs : List (List Bool)} (hst : laneState s n.val = 6) (hlock : getLane s Oid.laneBlockLock n.val = 0)
    (hgood : (laneX s n.val).good = 0) (hfill : (laneX s n.val).fill = 0) (hslip : (laneX s n.val).slip = false)
    (hinv : getLane s Oid.laneRxInvert n.val = 0) (hwait : waitsForAlignment s n.val = false)
    (hall : ∀ b ∈ bs, b.length = 66 ∧ b[0]? ≠ b[1]?) :
    (bs.length < 64 → ∃ t, exec (.blockLock n bs.flatten) s = .next t ∧ getLane t Oid.laneBlockLock n.val = 0 ∧
      t.time = s.time ∧ t.flt = s.flt ∧ t.mem = s.mem) ∧
    (bs.length = 64 → ∃ t, exec (.blockLock n bs.flatten) s = .next t ∧ getLane t Oid.laneBlockLock n.val = 1 ∧
      getLane t Oid.laneState n.val = 7 ∧ t.time = s.time ∧ t.mem = s.mem) := by
  have hexec : exec (.blockLock n bs.flatten) s = .next (lineBits n.val bs.flatten.length bs.flatten s) := by
    show execBlockLock n bs.flatten s = _
    simp only [execBlockLock, hst, hlock, rxBits_plain hinv, decide_true, Bool.and_self, if_true]
  have hstate := ((laneState_eq_iff (by decide)).mp hst).2
  obtain ⟨hshort, hfull⟩ := huntBits_blocks (cascade := quadModeActive s (n.val / 4) = 5) bs { x := laneX s n.val, locked := false } rfl hfill hslip hall
  simp only [hgood, Nat.zero_add] at hshort hfull
  have hview := afterHunt_lockView n.val bs.flatten s
  rw [hexec]
  match bs, hall with
  | [], _ => exact ⟨fun _ => ⟨s, rfl, hlock, rfl, rfl, rfl⟩, fun h64 => absurd h64 (by decide)⟩
  | b :: bs', hall =>
    have hne : (b :: bs').flatten ≠ [] := by
      intro e
      have hb := (hall b (by simp)).1
      simp only [List.flatten_cons, List.append_eq_nil_iff] at e
      simp [e.1] at hb
    obtain ⟨fuel, hfuel⟩ : ∃ k, (b :: bs').flatten.length = k + 1 :=
      Nat.exists_eq_succ_of_ne_zero (fun e => hne (List.length_eq_zero_iff.mp e))
    rw [hfuel]
    constructor
    · intro hlen
      obtain ⟨hl, hrest⟩ := hshort hlen
      have hl' : (hunted n.val (b :: bs').flatten s).locked = false := hl
      rw [lineBits_hunting hst hlock hne hrest, hl', if_neg Bool.false_ne_true]
      rw [hl'] at hview
      simp only [lockView, Prod.mk.injEq] at hview
      exact ⟨_, rfl, hview.2.1, hview.2.2.1, afterHunt_flt _ _ _, hview.2.2.2⟩
    · intro hlen
      obtain ⟨hl, hrest⟩ := hfull hlen (by simp)
      have hl' : (hunted n.val (b :: bs').flatten s).locked = true := hl
      have hwait' : waitsForAlignment (afterHunt n.val (b :: bs').flatten s) n.val = false :=
        (waitsForAlignment_congr (afterHunt_flt _ _ _) (afterHunt_mode _ _ _)).trans hwait
      rw [lineBits_hunting hst hlock hne hrest, hl', if_pos rfl, hwait', if_neg Bool.false_ne_true]
      rw [hl'] at hview
      simp only [lockView, Prod.mk.injEq] at hview
      obtain ⟨hstate', hlock', htime, hmem⟩ := hview
      have hset := setLaneState_locked (s := afterHunt n.val (b :: bs').flatten s) n.isLt (hstate'.trans hstate)
      rw [hlock', htime, hmem] at hset
      simp only [lockView, Prod.mk.injEq] at hset
      exact ⟨_, rfl, hset.2.1, hset.1, hset.2.2.1, hset.2.2.2⟩

/-! ### CTLE (R203) -/

theorem mem_bestCtle {best i : Nat} {l : List Byte} : ∀ k, i ∈ bestCtle best k l → ∃ j f, i = k + j ∧ l[j]? = some f ∧ f.toNat = best := by
  induction l with
  | nil => simp [bestCtle]
  | cons f l ih =>
    intro k h
    simp only [bestCtle, List.mem_append] at h
    rcases h with h | h
    · split at h
      · next hf => exact ⟨0, f, by simpa using h, rfl, hf⟩
      · cases h
    · obtain ⟨j, g, rfl, hj, hg⟩ := ih (k + 1) h
      exact ⟨j + 1, g, by omega, hj, hg⟩

theorem bestCtle_ne_nil {best : Nat} {l : List Byte} (h : ∃ f ∈ l, f.toNat = best) : ∀ k, bestCtle best k l ≠ [] := by
  induction l with
  | nil => simp at h
  | cons f l ih =>
    intro k
    simp only [bestCtle]
    split
    · simp
    · next hf =>
      obtain ⟨g, hg, hb⟩ := h
      rcases List.mem_cons.mp hg with rfl | hg
      · exact absurd hb hf
      · simpa using ih ⟨g, hg, hb⟩ (k + 1)

/-- The largest figure of merit of a list that starts from m. -/
theorem foldl_max_figures (l : List Byte) : ∀ m : Nat, m ≤ l.foldl (fun m f => max m f.toNat) m ∧
    (∀ g ∈ l, g.toNat ≤ l.foldl (fun m f => max m f.toNat) m) ∧
    (l.foldl (fun m f => max m f.toNat) m = m ∨ ∃ f ∈ l, f.toNat = l.foldl (fun m f => max m f.toNat) m) := by
  induction l with
  | nil => simp
  | cons f l ih =>
    intro m
    obtain ⟨hle, hall, hhit⟩ := ih (max m f.toNat)
    rw [List.foldl_cons]
    refine ⟨by omega, ?_, ?_⟩
    · intro g hg
      rcases List.mem_cons.mp hg with rfl | hg
      · omega
      · exact hall g hg
    · rcases hhit with h | ⟨g, hg, h⟩
      · rcases Nat.le_total m f.toNat with hm | hm
        · exact .inr ⟨f, by simp, by rw [h]; omega⟩
        · exact .inl (by rw [h]; omega)
      · exact .inr ⟨g, by simp [hg], h⟩

/-- The setting chosen among 16 is one with the largest figure. -/
theorem chooseCtle_largest {figures : List Byte} (s : State) (hlen : figures.length = 16) :
    ∃ f, figures[(chooseCtle figures s).1]? = some f ∧ ∀ g ∈ figures, g.toNat ≤ f.toNat := by
  obtain ⟨-, hall, hhit⟩ := foldl_max_figures figures 0
  have hmem : ∃ f ∈ figures, f.toNat = figures.foldl (fun m f => max m f.toNat) 0 := by
    rcases hhit with h | h
    · match figures, hlen with
      | f :: l, _ => exact ⟨f, by simp, by have := hall f (by simp); omega⟩
    · exact h
  have hne := bestCtle_ne_nil hmem 0
  have htake : figures.take 16 = figures := List.take_of_length_le (by omega)
  simp only [chooseCtle, htake]
  generalize hl : bestCtle (figures.foldl (fun m f => max m f.toNat) 0) 0 figures = l at hne ⊢
  have hlt : (takeChoice l.length s).1 < l.length := by
    have hpos := List.length_pos_iff.mpr hne
    have := Nat.mod_lt (Config.freeChoice s.free l.length) (show 0 < max l.length 1 by omega)
    simp only [takeChoice]
    omega
  have hin : l.getD (takeChoice l.length s).1 0 ∈ l := by
    rw [List.getD_eq_getElem?_getD, List.getElem?_eq_getElem hlt, Option.getD_some]
    exact List.getElem_mem hlt
  rw [← hl] at hin
  obtain ⟨j, f, hj, hf, hbest⟩ := mem_bestCtle 0 hin
  rw [hl] at hj
  refine ⟨f, by rw [hj, Nat.zero_add]; exact hf, fun g hg => ?_⟩
  rw [hbest]
  exact hall g hg

/-! ### Bring-up (R200, Table 6.2) -/

theorem laneState_putLane {id n v : Nat} {s : State} (hid : id / 65536 = 16) (hmode : id ≠ Oid.quadMode) (hst : id ≠ Oid.laneState) :
    laneState (putLane id n v s) n = laneState s n := by
  simp only [laneState, laneRetired_congr (s := s) (t := putLane id n v s) rfl (quadModeActive_putLane hid hmode), getLane_putLane_ne hst]

theorem lineRate_objs (q ref : Nat) (s : State) : (lineRate q ref s).2.objs = s.objs := by
  simp only [lineRate]
  split <;> rfl

theorem quadModeActive_putQuad {id q k v : Nat} {s : State} (hid : id / 65536 = 16) (hmode : id ≠ Oid.quadMode) :
    quadModeActive (putObj (quadId id k) 0 v s) q = quadModeActive s q := by
  refine quadModeActive_congr ?_ ?_ ?_
  · exact getObj_putObj_ne (by simp only [quadId, Oid.timeBhUpstream]; omega)
  · exact getObj_putObj_ne (by simp only [quadId, Oid.timeBhDownstream]; omega)
  · exact getObj_putObj_ne (fun e => hmode (quadId_inj hid (by decide) e))

theorem exec_quadPllLock {q : Quad} (ref : Word) {s : State} (hlock : pllLocked s q.val = false) (hlost : refIsLost s q.val = false)
    (hany : (quadLanes q.val).any (fun n => laneState s n = 1) = true) :
    exec (.quadPllLock q ref) s = .next ((quadLanes q.val).foldl (fun u n => if laneState u n = 1 then afterPll n u else u)
      (putRef (quadRef s q.val) true false (putObj (quadId Oid.quadRateActual q.val) 0 (lineRate q.val ref.toNat s).1
        (putObj (quadId Oid.quadPllLocked q.val) 0 1 (lineRate q.val ref.toNat s).2)))) := by
  show execQuadPllLock q ref s = _
  have hmode : ∀ v w, quadModeActive (putObj (quadId Oid.quadRateActual q.val) 0 v (putObj (quadId Oid.quadPllLocked q.val) 0 w
      (lineRate q.val ref.toNat s).2)) q.val = quadModeActive s q.val := fun v w => by
    rw [quadModeActive_putQuad (by decide) (by decide), quadModeActive_putQuad (by decide) (by decide)]
    have hobjs := lineRate_objs q.val ref.toNat s
    exact quadModeActive_congr (getObj_congr hobjs _ _) (getObj_congr hobjs _ _) (getObj_congr hobjs _ _)
  simp only [execQuadPllLock, hlock, hlost, hany, Bool.not_true, Bool.or_self, Bool.false_eq_true, if_false]
  rw [quadRef, hmode, ← quadRef]

/-- Settles O12: bring-up row by row, the largest figure, and the hunt's 64 headers. -/
theorem lanesComeUp : Obligations.LanesComeUp := by
  refine ⟨⟨?_, ?_, ?_, ?_, ?_, ?_, fun figures s hlen => chooseCtle_largest s hlen, ?_⟩,
    fun n s bs _ hst hlock hgood hfill hslip hinv hwait hall => exec_blockLock hst hlock hgood hfill hslip hinv hwait hall⟩
  · intro q ref s hlock hlost hany
    refine ⟨?_, exec_quadPllLock ref hlock hlost hany⟩
    rintro (h | h) <;> simp only [lineRate, h]
  · intro n s hst
    show execSelfCheckDone n true s = _
    simp only [execSelfCheckDone, hst, ne_eq, not_true, if_false, if_true]
  · intro n s hst
    show execSelfCheckDone n false s = _
    simp only [execSelfCheckDone, hst, ne_eq, not_true, if_false, Bool.false_eq_true]
  · intro n s hst
    show execSignalDetect n s = _
    have hst' := (laneState_putLane (v := 1) (s := s) (n := n.val) (id := Oid.laneSignal) (by decide) (by decide) (by decide)).trans hst
    simp only [execSignalDetect, hst', if_true]
  · intro n s hst
    refine ⟨_, rfl, ?_⟩
    show execCdrLock n s = _
    simp only [execCdrLock, hst, if_true]
  · intro n s figures taps hst hcdr hsig
    constructor <;> intro hheld <;> show execAdaptationDone n figures taps s = _
    · simp only [execAdaptationDone, hst, hcdr, hsig, hheld, decide_true, Bool.and_self, if_true]
    · simp only [execAdaptationDone, hst, hcdr, hsig, hheld, decide_true, Bool.and_self, if_true, Bool.false_eq_true, if_false]
  · intro n s fom w taps hst
    show execEfomWindow n fom w taps s = _
    simp [execEfomWindow, hst]

end Sys2Proof.Machine
end

section
/-! SUPPORT. Queue, frame grid (R389), region accumulators (R420), position at a time (R443). -/

namespace Sys2Proof.Machine
open Sys2Proof

/-! ### One command of the queue -/

/-- Settles O56, by the two branches of a step. -/
theorem stepRunsFront : Obligations.StepRunsFront := by
  unfold Obligations.StepRunsFront
  exact ⟨fun s c rest h => by rw [step, h], fun s h => by rw [step, h]⟩

/-! ### The frame grid (R389) -/

/-- One frame on: the rate's remainder carries a nanosecond when it passes the numerator. -/
theorem nextGrid_eq {s : State} {t A : Nat} {x : TxX} (hnum : 0 < getObj s Oid.tapRateNum t) :
    nextGrid s t { x with tNext := x.tNext + A / getObj s Oid.tapRateNum t, rem := A % getObj s Oid.tapRateNum t } =
      { x with
        k := x.k + 1
        tNext := x.tNext + (A + getObj s Oid.tapRateDen t * 1000000000) / getObj s Oid.tapRateNum t
        rem := (A + getObj s Oid.tapRateDen t * 1000000000) % getObj s Oid.tapRateNum t } := by
  unfold nextGrid
  simp only [billion]
  generalize getObj s Oid.tapRateNum t = num at *
  generalize getObj s Oid.tapRateDen t * 1000000000 = d
  rw [Nat.max_eq_right hnum, Nat.add_div hnum, Nat.add_mod_eq_ite]
  congr 1
  omega

/-- Settles O43, by induction on the number of frames. -/
theorem frameGridIsExact : Obligations.FrameGridIsExact := by
  unfold Obligations.FrameGridIsExact
  intro s t n x hnum hrem num d
  induction n with
  | zero => simp [Nat.repeat, num, Nat.div_eq_of_lt hrem, Nat.mod_eq_of_lt hrem]
  | succ n ih =>
    rw [Nat.repeat, ih, nextGrid_eq (x := { x with k := x.k + n }) hnum, Nat.succ_mul, ← Nat.add_assoc x.rem]
    rfl

/-! ### The accumulators of a region (R420) -/

/-- The sum of the squares of the differences. -/
def squares (ds : List Int) : Nat := (ds.map (fun d => d.natAbs * d.natAbs)).sum

theorem squares_append (ds : List Int) (d : Int) : squares (ds ++ [d]) = squares ds + d.natAbs * d.natAbs := by
  simp [squares]

/-- The accumulators after the samples. -/
def accumulated (ds : List Int) : RegAcc := ds.foldl (fun a d => accAdd d a) {}

theorem accumulated_append (ds : List Int) (d : Int) : accumulated (ds ++ [d]) = accAdd d (accumulated ds) := by
  simp [accumulated]

/-- Induction on a list by its last element. -/
theorem snocInduction {α : Type} {P : List α → Prop} (nil : P []) (append_singleton : ∀ l a, P l → P (l ++ [a])) (l : List α) : P l := by
  have hrev : ∀ r : List α, P r.reverse := by
    intro r
    induction r with
    | nil => exact nil
    | cons a r ih => exact List.reverse_cons ▸ append_singleton _ a ih
  exact List.reverse_reverse l ▸ hrev l.reverse

theorem accumulated_n (ds : List Int) : (accumulated ds).n = ds.length % 2 ^ 64 := by
  induction ds using snocInduction with
  | nil => rfl
  | append_singleton ds d ih => simp [accumulated_append, accAdd, ih]

theorem accumulated_sum (ds : List Int) : (accumulated ds).sum = ds.sum := by
  induction ds using snocInduction with
  | nil => rfl
  | append_singleton ds d ih => simp [accumulated_append, accAdd, ih]

/-- The squares saturate at 2^64 − 1, and that is kept. -/
theorem accumulated_sq (ds : List Int) : (accumulated ds).sq = min (2 ^ 64 - 1) (squares ds) ∧
    ((accumulated ds).sat = true ↔ 2 ^ 64 ≤ squares ds) := by
  induction ds using snocInduction with
  | nil => exact ⟨rfl, by decide⟩
  | append_singleton ds d ih =>
    obtain ⟨hsq, hsat⟩ := ih
    have hd : (d * d).toNat = d.natAbs * d.natAbs := by rw [← Int.natAbs_mul_self, Int.toNat_natCast]
    rw [accumulated_append, squares_append, accAdd, hd]
    simp only [Bool.or_eq_true, decide_eq_true_eq, hsat, hsq]
    generalize d.natAbs * d.natAbs = q
    generalize squares ds = t
    constructor
    · split <;> omega
    · omega

/-- With a sample taken, the least and the greatest are samples and bound them all. -/
theorem accumulated_extremes (ds : List Int) (hb : ∀ d ∈ ds, -65535 ≤ d ∧ d ≤ 65535) (hne : ds ≠ []) :
    (accumulated ds).mn ∈ ds ∧ (accumulated ds).mx ∈ ds ∧ ∀ d ∈ ds, (accumulated ds).mn ≤ d ∧ d ≤ (accumulated ds).mx := by
  induction ds using snocInduction with
  | nil => exact absurd rfl hne
  | append_singleton ds d ih =>
    obtain ⟨hlo, hhi⟩ := hb d (by simp)
    rw [accumulated_append]
    simp only [accAdd]
    by_cases hds : ds = []
    · subst hds
      have hmn : min (accumulated []).mn d = d := Int.min_eq_right (by show d ≤ 0x7FFFFFFF; omega)
      have hmx : max (accumulated []).mx d = d := Int.max_eq_right (by show -0x80000000 ≤ d; omega)
      simp [hmn, hmx]
    · obtain ⟨hmn, hmx, hall⟩ := ih (fun e he => hb e (by simp [he])) hds
      refine ⟨?_, ?_, fun e he => ?_⟩
      · rw [Int.min_def]
        split
        · exact List.mem_append_left _ hmn
        · exact List.mem_append_right _ List.mem_cons_self
      · rw [Int.max_def]
        split
        · exact List.mem_append_right _ List.mem_cons_self
        · exact List.mem_append_left _ hmx
      · rcases List.mem_append.mp he with he | he
        · obtain ⟨h1, h2⟩ := hall e he
          exact ⟨Int.le_trans (Int.min_le_left _ _) h1, Int.le_trans h2 (Int.le_max_left _ _)⟩
        · rw [List.mem_singleton] at he
          exact he ▸ ⟨Int.min_le_right _ _, Int.le_max_right _ _⟩

/-- Settles O46, by induction on the samples, one accumulator at a time. -/
theorem regionAccumulators : Obligations.RegionAccumulators := by
  unfold Obligations.RegionAccumulators
  intro ds hb a
  obtain ⟨hsq, hsat⟩ := accumulated_sq ds
  exact ⟨accumulated_n ds, accumulated_sum ds, hsq, hsat, fun h => by subst h; exact ⟨rfl, rfl⟩, accumulated_extremes ds hb⟩

/-! ### The position at a time (R443) -/

theorem toSigned_of_small {v : Nat} (h : v < 2 ^ 47) : toSigned 48 v = v := by
  unfold toSigned
  rw [Nat.mod_eq_of_lt (by omega), if_pos (by omega)]

theorem ofSigned_of_nonneg {v : Nat} (h : v < 2 ^ 48) : ofSigned 48 (v : Int) = v := by
  unfold ofSigned
  omega

theorem interpolate_within {t : Nat} {a b : EncSample} (h0 : 0 < (tNanos b.t : Int) - tNanos a.t) (h1 : (tNanos b.t : Int) - tNanos a.t ≤ 200) :
    interpolate t a b = wrap48 (toSigned 48 a.p + truncDiv (sx48 ((b.p : Int) - a.p) * ((tNanos t : Int) - tNanos a.t))
      ((tNanos b.t : Int) - tNanos a.t)) := by
  rw [interpolate, if_neg (by simp only [Bool.or_eq_true, decide_eq_true_eq]; omega)]

theorem interpolate_outside {t : Nat} {a b : EncSample} (h : (tNanos b.t : Int) - tNanos a.t ≤ 0 ∨ 200 < (tNanos b.t : Int) - tNanos a.t) :
    interpolate t a b = b.p := by
  rw [interpolate, if_pos (by simpa only [Bool.or_eq_true, decide_eq_true_eq] using h)]

/-- With no wrap in the step the position rises by the step's fraction, rounded down. -/
theorem interpolate_rising {t : Nat} {a b : EncSample} (h0 : 0 < (tNanos b.t : Int) - tNanos a.t) (h1 : (tNanos b.t : Int) - tNanos a.t ≤ 200)
    (hat : tNanos a.t ≤ tNanos t) (htb : tNanos t < tNanos b.t) (ha : a.p < 2 ^ 47) (hb : b.p < 2 ^ 47) (hab : a.p ≤ b.p) :
    interpolate t a b = a.p + (b.p - a.p) * (tNanos t - tNanos a.t) / (tNanos b.t - tNanos a.t) ∧
    a.p ≤ interpolate t a b ∧ interpolate t a b ≤ b.p := by
  have hle : (b.p - a.p) * (tNanos t - tNanos a.t) / (tNanos b.t - tNanos a.t) ≤ b.p - a.p :=
    Nat.div_le_of_le_mul (by rw [Nat.mul_comm]; exact Nat.mul_le_mul_right _ (by omega))
  have hstep : sx48 ((b.p : Int) - a.p) = ((b.p - a.p : Nat) : Int) := by
    rw [sx48, ← Int.natCast_sub hab, ofSigned_of_nonneg (by omega), toSigned_of_small (by omega)]
  have hval : interpolate t a b = a.p + (b.p - a.p) * (tNanos t - tNanos a.t) / (tNanos b.t - tNanos a.t) := by
    have hdiv : truncDiv (((b.p - a.p : Nat) : Int) * ((tNanos t - tNanos a.t : Nat) : Int)) ((tNanos b.t - tNanos a.t : Nat) : Int) =
        (((b.p - a.p) * (tNanos t - tNanos a.t) / (tNanos b.t - tNanos a.t) : Nat) : Int) := by
      rw [truncDiv, if_neg (by omega), ← Int.natCast_mul, Int.ofNat_tdiv]
    rw [interpolate_within h0 h1, hstep, ← Int.natCast_sub hat, ← Int.natCast_sub (show tNanos a.t ≤ tNanos b.t by omega), hdiv,
      toSigned_of_small ha, wrap48, ← Int.natCast_add, ofSigned_of_nonneg (by omega)]
  rw [hval]
  exact ⟨rfl, Nat.le_add_right _ _, by omega⟩

theorem encOf_putEnc_self (n : Nat) (x : EncX) (s : State) : encOf (putEnc n x s) n = x := tabGet_put_self

/-- Asking leaves the samples of every channel. -/
theorem available_asked (n t : Nat) (s : State) :
    available (putEnc n { encOf s n with asked := t :: (encOf s n).asked } s) n = available s n := by
  rw [available, encOf_putEnc_self]
  rfl

/-- An answer that is there is found at once. -/
theorem positionAnswer_answerOne {n t : Nat} {s : State} {r : Option (Nat × Bool)} (h : answerAt (available s n) t = some r) :
    positionAnswer (answerOne n t s) n t = some (giveAnswer r s).1 := by
  rw [answerOne, h]
  simp only [positionAnswer, encOf, putEnc, tabGet_put_self, tabFind_insert, if_true]

theorem positionAnswer_askPosition {n t : Nat} {s : State} {r : Option (Nat × Bool)} (h : answerAt (available s n) t = some r) :
    ∃ g, positionAnswer (askPosition n t s) n t = some (giveAnswer r g).1 := by
  unfold askPosition
  dsimp only
  split
  · exact ⟨_, positionAnswer_answerOne h⟩
  · exact ⟨_, positionAnswer_answerOne (by rw [available_asked, h])⟩

/-- A sample that the compares may use is 200 ns old (R437). -/
theorem available_old {n : Nat} {s : State} {e : EncSample} {l : List EncSample} (h : available s n = e :: l) :
    tNanos e.t + 200 ≤ tNanos (now s) := by
  rw [available] at h
  have hnot := List.head_dropWhile_not (fun e : EncSample => decide (tNanos (now s) < tNanos e.t + 200)) (l := (encOf s n).samples) (by rw [h]; simp)
  simp only [h, List.head_cons, decide_eq_false_iff_not] at hnot
  exact Nat.le_of_not_lt hnot

/-- Settles O48: the fraction of the step by arithmetic without wrap, the answers by the samples they rest on. -/
theorem positionAtATime : Obligations.PositionAtATime := by
  unfold Obligations.PositionAtATime
  refine ⟨fun t a b => interpolate_rising, fun t a b => interpolate_within, fun t a b => interpolate_outside, fun new l t h => by simp [answerAt, h],
    fun n s e l => available_old, fun n t s r h => ?_, fun n t s h => ?_⟩
  · obtain ⟨g, hg⟩ := positionAnswer_askPosition h
    exact hg
  · obtain ⟨g, hg⟩ := positionAnswer_askPosition h
    exact ⟨_, hg⟩

end Sys2Proof.Machine
end

section
/-! SUPPORT. The server: a request that fails a check leaves the state (R87). -/

namespace Sys2Proof.Machine
open Sys2Proof

/-! ### Refusals (R87) -/

/-- The answers that are no check of R87: a failed proof (R112), a failed seal (R120), a failed flash operation (Table 3.9). -/
def NoCheck (q : Req) (st : Nat) : Prop :=
  (q.op = 8 ∧ st = St.proofFailed) ∨ (q.id / 16 * 16 = Oid.plansSeal ∧ st = St.consistency) ∨
  ((q.id = Oid.modesFwCommit ∨ q.id = Oid.dictPersistClear) ∧ st = St.flash)

theorem planWrite_refused {id : Nat} {s : State} {r : Nat × State} (h : planWrite id s = some r) (hr : r.1 ≠ St.ok)
    (hseal : ¬(id / 16 * 16 = Oid.plansSeal ∧ r.1 = St.consistency)) : r.2 = s := by
  unfold planWrite at h
  split at h
  · next hid =>
    obtain rfl := Option.some.inj h
    unfold sealPlan at hr hseal ⊢
    split
    · rfl
    · next hopen =>
      split
      · next hnone => simp [hopen, hnone] at hr
      · next o c hsome => exact absurd ⟨hid, by simp [hopen, hsome]⟩ hseal
  · split at h
    · obtain rfl := Option.some.inj h
      unfold clearPlan at hr ⊢
      split
      · rfl
      · next hfree => simp [hfree] at hr
    · split at h
      · obtain rfl := Option.some.inj h
        unfold savePlan at hr ⊢
        dsimp only at hr ⊢
        split
        · rfl
        · next hstate =>
          split
          · rfl
          · next hroom => simp [hstate, hroom] at hr
      · exact absurd h (by simp)

theorem commitLive_refused {q : Req} {idx : Nat} {v : PVal} {s : State} (hr : (commitLive q idx v s).1 ≠ St.ok)
    (hn : ¬ NoCheck q (commitLive q idx v s).1) : (commitLive q idx v s).2 = s := by
  unfold commitLive at hr hn ⊢
  split at hr
  · next r hplan =>
    simp only [hplan] at hn ⊢
    exact planWrite_refused hplan hr (fun h => hn (.inr (.inl h)))
  · next hplan =>
    simp only [hplan] at hn ⊢
    split
    · next hc =>
      simp only [hc, if_true] at hr hn
      unfold flashStatus at hr hn
      split at hr
      · next hid =>
        split at hr
        · next hfail => exact absurd (.inr (.inr ⟨.inl hid, by rw [if_pos hid, if_pos hfail]⟩)) hn
        · exact absurd rfl hr
      · next hid =>
        split at hr
        · next hid2 =>
          split at hr
          · next hfail => exact absurd (.inr (.inr ⟨.inr hid2, by rw [if_neg hid, if_pos hid2, if_pos hfail]⟩)) hn
          · exact absurd rfl hr
        · exact absurd rfl hr
    · rfl

theorem commitStaged_refused {q : Req} {r : ObjRow} {idx : Nat} {v : PVal} {s : State} (hr : (commitStaged q r idx v s).1 ≠ St.ok) :
    (commitStaged q r idx v s).2 = s := by
  unfold commitStaged at hr ⊢
  dsimp only at hr ⊢
  split
  · next hc => simp [hc] at hr
  · rfl

/-- The commit of a value, live or staged. -/
def commitTo (q : Req) (r : ObjRow) (idx : Nat) (v : PVal) (s : State) : Nat × State :=
  if q.target = 0 then commitLive q idx v s else commitStaged q r idx v s

theorem commitTo_refused {q : Req} {r : ObjRow} {idx : Nat} {v : PVal} {s : State} (hr : (commitTo q r idx v s).1 ≠ St.ok)
    (hn : ¬ NoCheck q (commitTo q r idx v s).1) : (commitTo q r idx v s).2 = s := by
  unfold commitTo at hr hn ⊢
  split
  · next ht => simp only [ht, if_true] at hr hn; exact commitLive_refused hr hn
  · next ht => simp only [ht, if_false] at hr; exact commitStaged_refused hr

/-- An operation that leaves the state wherever it answers by a check. -/
def RefusesClean (q : Req) (s : State) (a : Answer × State) : Prop := a.1.status ≠ St.ok → ¬ NoCheck q a.1.status → a.2 = s

theorem refusesClean_same {q : Req} {s : State} {a : Answer} : RefusesClean q s (a, s) := fun _ _ => rfl

theorem refusesClean_ok {q : Req} {s t : State} {a : Answer} (h : a.status = St.ok) : RefusesClean q s (a, t) := fun hr => absurd h hr

theorem refusesClean_ite {q : Req} {s : State} {c : Prop} [Decidable c] {a b : Answer × State} (ha : RefusesClean q s a)
    (hb : RefusesClean q s b) : RefusesClean q s (if c then a else b) := by
  split
  · exact ha
  · exact hb

theorem ackOr_status {st : Nat} {p : List Byte} : (ackOr st p).status = st := by
  unfold ackOr deny
  split
  · next h => exact h.symm
  · rfl

theorem serveRead_clean (q : Req) (r : ObjRow) (idx : Nat) (body : List Byte) (s : State) : RefusesClean q s (serveRead q r idx body s) := by
  unfold serveRead
  dsimp only
  split
  · exact refusesClean_same
  · split
    · exact refusesClean_same
    · split <;> exact refusesClean_same

theorem serveReadBlock_clean (q : Req) (r : ObjRow) (idx : Nat) (body : List Byte) (s : State) :
    RefusesClean q s (serveReadBlock q r idx body s) := by
  unfold serveReadBlock
  dsimp only
  split
  · exact refusesClean_same
  · split
    · exact refusesClean_same
    · split <;> exact refusesClean_same

theorem serveWrite_clean (q : Req) (r : ObjRow) (idx : Nat) (body : List Byte) (s : State) : RefusesClean q s (serveWrite q r idx body s) := by
  unfold serveWrite
  dsimp only
  split
  · exact refusesClean_same
  · next v _ =>
    refine refusesClean_ite refusesClean_same (refusesClean_ite refusesClean_same fun hr hn => ?_)
    rw [ackOr_status] at hr hn
    exact commitTo_refused (r := r) hr hn

theorem serveWriteBlock_clean (q : Req) (r : ObjRow) (idx : Nat) (body : List Byte) (s : State) :
    RefusesClean q s (serveWriteBlock q r idx body s) := by
  unfold serveWriteBlock
  dsimp only
  refine refusesClean_ite refusesClean_same (refusesClean_ite refusesClean_same (refusesClean_ite refusesClean_same
    (refusesClean_ite refusesClean_same (refusesClean_ite (refusesClean_ok rfl) ?_))))
  split
  · exact refusesClean_same
  · exact refusesClean_ite refusesClean_same (refusesClean_ite (refusesClean_ok rfl) fun hr hn => commitTo_refused (r := r) hr hn)

theorem serveSubscribe_clean (q : Req) (r : ObjRow) (idx : Nat) (body : List Byte) (s : State) :
    RefusesClean q s (serveSubscribe q r idx body s) := by
  unfold serveSubscribe
  dsimp only
  split
  · exact refusesClean_same
  split
  · exact refusesClean_same
  split
  · exact refusesClean_ok rfl
  split
  · exact refusesClean_same
  · exact refusesClean_ok rfl

theorem servePitch_clean (q : Req) (s : State) : RefusesClean q s (servePitch q s) := by
  unfold servePitch
  dsimp only
  split
  · exact refusesClean_same
  · exact refusesClean_ok rfl

theorem serveAbortPlan_clean (q : Req) (s : State) : RefusesClean q s (serveAbortPlan q s) := by
  unfold serveAbortPlan
  dsimp only
  split
  · exact refusesClean_same
  · split
    · exact refusesClean_same
    · exact refusesClean_ok rfl

theorem serveAbortBlob_clean (q : Req) (r : ObjRow) (idx : Nat) (body : List Byte) (s : State) :
    RefusesClean q s (serveAbortBlob q r idx body s) := by
  unfold serveAbortBlob
  split
  · exact refusesClean_ok rfl
  · exact refusesClean_same

theorem serveOpen_clean (q : Req) (s : State) : RefusesClean q s (serveOpen q s) := by
  unfold serveOpen
  dsimp only
  split
  · exact refusesClean_same
  · split
    · exact refusesClean_same
    · exact refusesClean_ok rfl

/-- A failed proof is no check: SESSION_PROOF leaves the state on every other refusal. -/
theorem serveProof_clean {q : Req} (hq : q.op = 8) (s : State) : RefusesClean q s (serveProof q s) := by
  unfold serveProof
  dsimp only
  split
  · exact refusesClean_same
  split
  · exact refusesClean_same
  split
  · exact refusesClean_same
  split
  · exact refusesClean_ok rfl
  · exact fun _ hn => absurd (.inl ⟨hq, rfl⟩) hn

theorem serveObject_clean (q : Req) (r : ObjRow) (s : State) : RefusesClean q s (serveObject q r s) := by
  unfold serveObject
  dsimp only
  split
  · exact refusesClean_same
  split
  · exact serveRead_clean q r _ _ s
  · exact serveWrite_clean q r _ _ s
  · exact serveReadBlock_clean q r _ _ s
  · exact serveWriteBlock_clean q r _ _ s
  · exact serveSubscribe_clean q r _ _ s
  · exact servePitch_clean q s
  · split
    · exact serveAbortPlan_clean q s
    · exact serveAbortBlob_clean q r _ _ s

theorem carryIndex_clean {q : Req} {r : ObjRow} {s : State} {a : Answer × State} (h : RefusesClean q s a) : RefusesClean q s (carryIndex q r a) := by
  unfold carryIndex
  split
  · exact h
  · exact h

theorem serve_clean (q : Req) (s : State) : RefusesClean q s (serve q s) := by
  unfold serve
  split
  · exact refusesClean_same
  split
  · exact refusesClean_same
  split
  · exact serveOpen_clean q s
  split
  · next hq =>
    split
    · exact refusesClean_same
    · exact serveProof_clean hq s
  split
  · exact refusesClean_same
  split
  · exact refusesClean_same
  · exact carryIndex_clean (serveObject_clean q _ s)

/-- Settles O15, one operation of the server at a time. -/
theorem refusedRequestChangesNothing : Obligations.RefusedRequestChangesNothing := by
  unfold Obligations.RefusedRequestChangesNothing
  intro q s hr hproof hseal hflash
  exact serve_clean q s hr (fun h => h.elim hproof fun h => h.elim hseal hflash)

end Sys2Proof.Machine
end

section
/-! SUPPORT. A write of sticky bits against a memory of this tick's sets beyond the object's width (R83). -/

namespace Sys2Proof.Machine
open Sys2Proof

/-- The reset state with bit 0 of `cellar.status` set, and the memory of what hardware has set in this tick holding a bit that the object does not have. -/
def freshBeyond : State :=
  { putObj Oid.cellarStatus 0 1 State.reset with fresh := [(objKey Oid.cellarStatus 0, 2 ^ objBits Oid.cellarStatus)] }

theorem freshBeyond_sound : Sound freshBeyond := by
  unfold Sound Canonical Bounded
  decide +kernel

/-- The row of `cellar.status`: six sticky bits of 16. -/
def cellarStatusRow : ObjRow := ⟨0x380000, .bitset 2, ⟨.rw, false, false⟩, 0, 0, .bits 63 63, false⟩

theorem objRow_cellarStatus : objRow? Oid.cellarStatus = some cellarStatusRow := by decide

/-- Bit 0 is written as 1 and stays, though hardware has not set it in this tick. -/
theorem applyWrite_freshBeyond :
    (getObj (applyWrite Oid.cellarStatus 0 (.num 1) .mailbox none freshBeyond) Oid.cellarStatus 0).testBit 0 = true ∧
    (tabGet 0 (objKey Oid.cellarStatus 0) freshBeyond.fresh).testBit 0 = false := by decide +kernel

/-- Refutes O16: the write subtracts the bits set in this tick from the ones of the object's width, and a memory of them with a bit beyond that width, which `Sound` does not exclude, leaves nothing to clear: bit 0 of `cellar.status` stays set in `freshBeyond`. -/
theorem not_stickyWriteClears : ¬ Obligations.StickyWriteClears := by
  intro h
  obtain ⟨hstays, hnotFresh⟩ := applyWrite_freshBeyond
  obtain ⟨hbits, -⟩ := h Oid.cellarStatus 0 1 .mailbox none freshBeyond cellarStatusRow freshBeyond_sound objRow_cellarStatus (by decide) (by decide)
  have hclear := hbits 0
  rw [hstays, hnotFresh] at hclear
  simp [stickyBits, cellarStatusRow] at hclear

end Sys2Proof.Machine
end

section
/-! SUPPORT. Sessions: opening, proof and timeouts (R112, R113). -/

namespace Sys2Proof.Machine
open Sys2Proof

/-! ### Sessions (R112, R113) -/

/-- A request handed over is answered as the server answers it, unless that ends or holds another answer. -/
theorem arrives_replied {q : Transport} {s t : State} {h : Handed} {a : Answer} (hh : carried q s = some h)
    (hs : serve h.req h.before = (a, t)) (he : a.ended = .none) (hd : a.held = false) : arrives q s = replied h a t := by
  obtain ⟨⟨b, hb, harr⟩, -, hf⟩ := arrives_carried q s h hh
  rw [harr]
  simp only [request, ← hb, hf, Bool.false_eq_true, if_false, hs, he, hd, respond, replied]

theorem takes_of_carried {q : Transport} {s : State} {h : Handed} {op : Nat} (hh : carried q s = some h) (ho : h.req.op = op) :
    takes op q = true := by
  obtain ⟨-, hop, -⟩ := arrives_carried q s h hh
  simp [takes, hop, ho]

theorem freshSession_range (s : State) (n : Nat) : ∀ c, 1 ≤ c → c ≤ 0xFFFD → 1 ≤ freshSession s n c ∧ freshSession s n c ≤ 0xFFFD := by
  induction n with
  | zero => exact fun c h1 h2 => ⟨h1, h2⟩
  | succ n ih =>
    intro c h1 h2
    rw [freshSession]
    split
    · split
      · exact ih 1 (by omega) (by omega)
      · exact ih (c + 1) (by omega) (by omega)
    · exact ⟨h1, h2⟩

/-- The number k places after a candidate, in the cycle of session numbers. -/
def candidate (c k : Nat) : Nat := (c - 1 + k) % 0xFFFD + 1

theorem candidate_succ {c k : Nat} (h1 : 1 ≤ c) (h2 : c ≤ 0xFFFD) :
    candidate (if c = 0xFFFD then 1 else c + 1) k = candidate c (k + 1) := by
  unfold candidate
  split <;> omega

theorem candidate_inj {c j k : Nat} (hj : j < 16) (hk : k < 16) (h : candidate c j = candidate c k) : j = k := by
  unfold candidate at h
  omega

/-- A number found in use means that every candidate tried was in use. -/
theorem freshSession_used (s : State) (n : Nat) : ∀ c, 1 ≤ c → c ≤ 0xFFFD → freshSession s n c ∈ s.dict.sessions.map (fun x => x.num) →
    ∀ k, k < n → candidate c k ∈ s.dict.sessions.map (fun x => x.num) := by
  induction n with
  | zero => exact fun _ _ _ _ k hk => absurd hk (Nat.not_lt_zero k)
  | succ n ih =>
    intro c h1 h2 hmem k hk
    rw [freshSession] at hmem
    split at hmem
    · next hany =>
      cases k with
      | zero =>
        obtain ⟨x, hx, hnum⟩ := List.any_eq_true.mp hany
        rw [show candidate c 0 = x.num by rw [of_decide_eq_true hnum, candidate, Nat.add_zero, Nat.mod_eq_of_lt (by omega)]; omega]
        exact List.mem_map_of_mem hx
      | succ k =>
        rw [← candidate_succ h1 h2]
        exact ih _ (by split <;> omega) (by split <;> omega) hmem k (by omega)
    · next hany =>
      obtain ⟨x, hx, hnum⟩ := List.mem_map.mp hmem
      exact absurd (List.any_eq_true.mpr ⟨x, hx, decide_eq_true hnum⟩) hany

/-- With fewer than 16 sessions one of 16 candidates is free. -/
theorem freshSession_unused {s : State} {c : Nat} (h1 : 1 ≤ c) (h2 : c ≤ 0xFFFD) (hlen : s.dict.sessions.length < 16) :
    ∀ y ∈ s.dict.sessions, y.num ≠ freshSession s 16 c := by
  intro y hy hnum
  have hused := freshSession_used s 16 c h1 h2 (hnum ▸ List.mem_map_of_mem (f := fun x : Session => x.num) hy)
  have hsub : (List.range 16).map (candidate c) ⊆ s.dict.sessions.map (fun x => x.num) := by
    intro v hv
    obtain ⟨k, hk, rfl⟩ := List.mem_map.mp hv
    exact hused k (List.mem_range.mp hk)
  have hnodup : ((List.range 16).map (candidate c)).Nodup :=
    List.pairwise_map.mpr (List.nodup_range.imp_of_mem fun hj hk hne h =>
      hne (candidate_inj (List.mem_range.mp hj) (List.mem_range.mp hk) h))
  have hle := hnodup.length_le_of_subset hsub
  rw [List.length_map, List.length_map, List.length_range] at hle
  omega

theorem sessions_fewer_of_open {s : State} {q : Req} (h : openStatus s q = St.ok) : s.dict.sessions.length < 16 := by
  refine Nat.lt_of_not_le fun hlen => ?_
  unfold openStatus at h
  dsimp only at h
  rw [if_pos hlen] at h
  revert h
  split
  · decide
  split
  · decide
  split
  · decide
  split
  · decide
  · decide

/-- The session that an OPEN makes, its number and nonce drawn from the free values. -/
def sessionMade (q : Req) (src : Endpoint) (s : State) : Session :=
  let k := byteAt q.payload 0
  let n := freshSession s 16 ((takeChoice 0xFFFD s).1 + 1)
  let dn := beBytes 16 (takeFree (takeChoice 0xFFFD s).2).1.toNat
  let cn := slice 4 16 q.payload
  { num := n, half := true, slot := k, secure := getObj s Oid.dictKeyClass k = 2, src := src, cn := cn, dn := dn
    key := sessionKey (getBlob s Oid.dictKey k) cn dn n, highest := 0, stored := [], devSeq := 0 }

/-- SESSION_OPEN (R112): the new half-open session. -/
theorem serve_open {q : Req} {s : State} {src : Endpoint} (hop : q.op = 7) (hh : headerStatus q = St.ok) (ho : opStatus q = St.ok)
    (hsrc : q.src = some src) (hst : openStatus s q = St.ok) : ∃ x dn,
      serve q s = ({ status := St.ok, payload := dn, session := x.num, plain := true },
        { s with free := s.free + 2, dict := { s.dict with sessions := s.dict.sessions ++ [x] } }) ∧
      1 ≤ x.num ∧ x.num ≤ 0xFFFD ∧ (∀ y ∈ s.dict.sessions, y.num ≠ x.num) ∧ x.half = true ∧ x.src = src ∧ x.dn = dn ∧
      dn.length = 16 ∧ x.slot = byteAt q.payload 0 ∧ x.cn = slice 4 16 q.payload ∧
      (x.secure = true ↔ getObj s Oid.dictKeyClass x.slot = 2) ∧
      x.key = sessionKey (getBlob s Oid.dictKey x.slot) x.cn x.dn x.num := by
  have hlt : (takeChoice 0xFFFD s).1 < 0xFFFD := Nat.mod_lt _ (by decide)
  obtain ⟨hmin, hmax⟩ := freshSession_range s 16 ((takeChoice 0xFFFD s).1 + 1) (by omega) (by omega)
  have hfree := freshSession_unused (s := s) (c := (takeChoice 0xFFFD s).1 + 1) (by omega) (by omega) (sessions_fewer_of_open hst)
  have hserve : serve q s = serveOpen q s := by simp [serve, ho, hh, hop]
  rw [hserve, serveOpen, hsrc]
  dsimp only
  rw [if_neg (not_not_intro hst)]
  exact ⟨sessionMade q src s, (sessionMade q src s).dn, rfl, hmin, hmax, hfree, rfl, rfl, rfl, beBytes_length _ _, rfl, rfl, decide_eq_true_iff, rfl⟩

/-- SESSION_PROOF (R112) on a half-open session. -/
theorem serve_proof {q : Req} {s : State} {x : Session} (hop : q.op = 8) (hh : headerStatus q = St.ok) (ho : opStatus q = St.ok)
    (hz : isSessionZero q.who = false) (hx : sessionOf s (sessionNum q.who) = some x) (hhalf : x.half = true) (hlen : q.payload.length = 16) :
    serve q s = if q.payload = clientProof (getBlob s Oid.dictKey x.slot) x.cn x.dn x.num then
      ({ status := St.ok, payload := deviceProof (getBlob s Oid.dictKey x.slot) x.cn x.dn x.num }, mapSession x.num (fun y => { y with half := false }) s)
      else ({ status := St.proofFailed, plain := true }, closeSessions (fun y => y.num = x.num) s) := by
  rw [sessionOf] at hx
  have hserve : serve q s = serveProof q s := by simp [serve, ho, hh, hop, hz]
  rw [hserve, serveProof, hx]
  simp only [hhalf, hlen, Bool.not_true, Bool.false_eq_true, if_false, ne_eq, not_true_eq_false]
  rfl

theorem closeSessions_gone {p : Session → Bool} {s : State} {n : Nat} (hn : n ∈ (s.dict.sessions.filter p).map (fun x => x.num)) :
    (∀ u ∈ (closeSessions p s).dict.subs, u.session ≠ n) ∧
    ∀ u ∈ (closeSessions p s).dict.transfers, u.who ≠ .mgmt n ∧ u.who ≠ .cascade n := by
  constructor
  · intro u hu he
    obtain ⟨-, hkeep⟩ := List.mem_filter.mp hu
    exact of_decide_eq_true hkeep (he ▸ hn)
  · intro u hu
    obtain ⟨-, hkeep⟩ := List.mem_filter.mp hu
    constructor
    · intro he
      simp only [he] at hkeep
      exact of_decide_eq_true hkeep hn
    · intro he
      simp only [he] at hkeep
      exact of_decide_eq_true hkeep hn

/-- Settles O25: the fresh number by counting candidates, the proofs by the server's branches, the timeouts by what a closed session takes with it. -/
theorem sessions : Obligations.Sessions := by
  unfold Obligations.Sessions
  refine ⟨fun q s h src hh hop hhead hops hsrc hst => ?_, fun q s h x hh hop hhead hops hz hx hhalf hlen => ⟨fun hp => ?_, fun hp => ?_⟩,
    fun n s => ⟨_, rfl, rfl, rfl⟩, fun n s x hx huniq hhalf => ⟨_, rfl, rfl, ?_, ?_⟩⟩
  · obtain ⟨x, dn, hserve, hrest⟩ := serve_open hop hhead hops hsrc hst
    refine ⟨x, dn, _, ?_, rfl, hrest⟩
    show execSessionOpen q s = _
    rw [execSessionOpen, takes_of_carried hh hop, if_pos rfl, arrives_replied hh hserve rfl rfl]
  · show execSessionProof q s = _
    rw [execSessionProof, takes_of_carried hh hop, if_pos rfl,
      arrives_replied hh ((serve_proof hop hhead hops hz hx hhalf hlen).trans (if_pos hp)) rfl rfl]
  · show execSessionProof q s = _
    rw [execSessionProof, takes_of_carried hh hop, if_pos rfl,
      arrives_replied hh ((serve_proof hop hhead hops hz hx hhalf hlen).trans (if_neg hp)) rfl rfl]
  · refine List.filter_congr fun y hy => ?_
    by_cases hnum : y.num = n.toNat
    · simp [hnum, huniq y hy hnum, hhalf]
    · simp [hnum]
  · rw [sessionOf] at hx
    have hnum : x.num = n.toNat := by simpa using List.find?_some hx
    exact closeSessions_gone (List.mem_map.mpr ⟨x, List.mem_filter.mpr ⟨List.mem_of_find?_eq_some hx, by simp [hnum, hhalf]⟩, hnum⟩)

end Sys2Proof.Machine
end

section
/-! SUPPORT. Cold reset (R53): what it clears and what it keeps. -/

namespace Sys2Proof.Machine
open Sys2Proof

/-! ### Cold reset (R53) -/

theorem useSecond_spoil (f : Flash) : f.spoil.useSecond = f.useSecond := by
  unfold Flash.spoil
  by_cases h : f.useSecond = true
  · rw [if_pos h, h]
    simp only [Flash.useSecond, Bool.and_eq_true] at h ⊢
    simp [h.1]
  · rw [if_neg h, eq_false_of_ne_true h]
    simp [Flash.useSecond]

/-- A store that is cut spoils the copy not in use only (R90). -/
theorem store_spoil (f : Flash) : f.spoil.store = f.store := by
  rw [Flash.store, useSecond_spoil, Flash.store, Flash.spoil]
  by_cases h : f.useSecond = true
  · simp [h]
  · simp [h]

theorem spoil_kept (f : Flash) : f.spoil.imageA = f.imageA ∧ f.spoil.imageB = f.imageB ∧ f.spoil.clearPending = f.clearPending := by
  unfold Flash.spoil
  split
  · exact ⟨rfl, rfl, rfl⟩
  · exact ⟨rfl, rfl, rfl⟩

theorem cutStore_kept (s : State) : (cutStore s).imageA = s.dict.flash.imageA ∧ (cutStore s).imageB = s.dict.flash.imageB ∧
    (cutStore s).clearPending = s.dict.flash.clearPending ∧ (cutStore s).store = s.dict.flash.store := by
  unfold cutStore
  split
  · exact ⟨rfl, rfl, rfl, rfl⟩
  · obtain ⟨ha, hb, hc⟩ := spoil_kept s.dict.flash
    exact ⟨ha, hb, hc, store_spoil _⟩

theorem resetFlash_images (f : Flash) : (resetFlash f).imageA = f.imageA ∧ (resetFlash f).imageB = f.imageB := by
  unfold resetFlash
  dsimp only
  split
  · exact ⟨rfl, rfl⟩
  · exact ⟨rfl, rfl⟩

theorem resetFlash_of_kept {f : Flash} (h : f.clearPending = false) : resetFlash f = f := by
  simp [resetFlash, h]

/-- A clear that was asked for erases both copies. -/
theorem resetFlash_of_cleared {f : Flash} (h : f.clearPending = true) :
    (resetFlash f).store.objs = [] ∧ (resetFlash f).store.planA = none ∧ (resetFlash f).store.planB = none := by
  simp only [resetFlash, h, if_true, Flash.store]
  split
  · exact ⟨rfl, rfl, rfl⟩
  · exact ⟨rfl, rfl, rfl⟩

/-- Object writes, one for each entry of a table, change nothing but the table of objects. -/
theorem foldl_putObj_rest (l : List (Nat × Nat)) (s : State) : ∃ o,
    l.foldl (fun s o => putObj (o.1 / 65536) (o.1 % 65536) o.2 s) s = { s with objs := o } := by
  induction l generalizing s with
  | nil => exact ⟨s.objs, rfl⟩
  | cons e l ih =>
    obtain ⟨o, ho⟩ := ih (putObj (e.1 / 65536) (e.1 % 65536) e.2 s)
    exact ⟨o, by rw [List.foldl_cons, ho]; rfl⟩

theorem getObj_foldl_putObj (l : List (Nat × Nat)) (id idx : Nat) (hl : ∀ e ∈ l, e.1 / 65536 ≠ id) (s : State) :
    getObj (l.foldl (fun s o => putObj (o.1 / 65536) (o.1 % 65536) o.2 s) s) id idx = getObj s id idx := by
  induction l generalizing s with
  | nil => rfl
  | cons e l ih =>
    rw [List.foldl_cons, ih (fun e he => hl e (List.mem_cons_of_mem _ he)), getObj_putObj_ne (hl e List.mem_cons_self)]

/-- The counts kept over a cold reset change no other object, and nothing else but the record of the rows repaired. -/
theorem keepRepairs_rest (old s : State) : ∃ o,
    keepRepairs old s = { s with cel := { s.cel with repaired := old.cel.repaired, used := old.cel.used }, objs := o } :=
  foldl_putObj_rest _ _

theorem getObj_keepRepairs {id idx : Nat} {old s : State} (h1 : id ≠ Oid.cellarRepairs) (h2 : id ≠ Oid.cellarRepairsLeft) :
    getObj (keepRepairs old s) id idx = getObj s id idx := by
  refine getObj_foldl_putObj _ id idx (fun e he => ?_) _
  have hkey := (List.mem_filter.mp he).2
  simp only [Bool.or_eq_true, decide_eq_true_eq] at hkey
  rcases hkey with hkey | hkey
  · exact hkey ▸ h1.symm
  · exact hkey ▸ h2.symm

theorem getObj_coldReset {id idx cause : Nat} {s : State} (hidx : idx < 65536) (hcause : ¬(id = Oid.modesResetCause ∧ idx = 0))
    (h1 : id ≠ Oid.cellarRepairs) (h2 : id ≠ Oid.cellarRepairsLeft) : getObj (coldReset cause s) id idx = objDefault id idx := by
  rw [coldReset, getObj_keepRepairs h1 h2]
  by_cases hid : id = Oid.modesResetCause
  · subst hid
    rw [getObj_putObj_idx (by decide) hidx fun h => hcause ⟨rfl, h.symm⟩]
    rfl
  · rw [getObj_putObj_ne (Ne.symm hid)]
    rfl

theorem getObj_coldReset_cause (cause : Nat) (s : State) : getObj (coldReset cause s) Oid.modesResetCause = cause := by
  rw [coldReset, getObj_keepRepairs (by decide) (by decide), getObj_putObj_self]

/-- What a cold reset leaves of a state, apart from the objects. -/
theorem coldReset_rest (cause : Nat) (s : State) : ∃ o, coldReset cause s =
    { State.reset with
      modes := { State.reset.modes with current := .cold, hbmEpoch := s.modes.hbmEpoch + 1 }
      dict := { State.reset.dict with flash := resetFlash (cutStore s) }
      link := { State.reset.link with perst := s.link.perst }
      cel := { State.reset.cel with repaired := s.cel.repaired, used := s.cel.used }
      objs := o
      out := s.out
      free := s.free
      pending := s.pending } := keepRepairs_rest _ _

/-- Settles O28, by what the cold reset keeps: the flash, the repaired rows with their counts, and the pin of the host link. -/
theorem coldResetClears : Obligations.ColdResetClears := by
  unfold Obligations.ColdResetClears
  refine ⟨fun cause s => ⟨coldReset (coldCode cause) s, rfl, ?_⟩, fun s => ⟨coldReset (2 * (takeChoice 2 s).1) (takeChoice 2 s).2, rfl, ?_⟩,
    fun s h => ?_, fun s h => ?_⟩
  · obtain ⟨o, ho⟩ := coldReset_rest (coldCode cause) s
    obtain ⟨hiA, hiB⟩ := resetFlash_images (cutStore s)
    obtain ⟨hcA, hcB, hcp, hcs⟩ := cutStore_kept s
    refine ⟨by rw [ho], getObj_coldReset_cause _ s, fun id idx hidx hc h1 h2 => getObj_coldReset hidx hc h1 h2, ?_⟩
    rw [ho]
    exact ⟨rfl, rfl, rfl, rfl, rfl, rfl, rfl, rfl, rfl, rfl, rfl, rfl, rfl, rfl, rfl, rfl, rfl, rfl, hiA.trans hcA, hiB.trans hcB,
      fun h => by rw [resetFlash_of_kept (hcp.trans h), hcs], fun h => resetFlash_of_cleared (hcp.trans h)⟩
  · obtain ⟨o, ho⟩ := coldReset_rest (2 * (takeChoice 2 s).1) (takeChoice 2 s).2
    have hcause := getObj_coldReset_cause (2 * (takeChoice 2 s).1) (takeChoice 2 s).2
    have hlt : (takeChoice 2 s).1 < 2 := Nat.mod_lt _ (by decide)
    refine ⟨by rw [ho], by omega, ?_⟩
    rw [ho]
    exact ⟨rfl, rfl, rfl, rfl, rfl⟩
  · show execColdExit s = _
    rw [execColdExit, if_pos h]
  · show execColdExit s = _
    rw [execColdExit, if_neg h]

end Sys2Proof.Machine
end

section
/-! SUPPORT. A property of the modes, of the commands waiting and of the memory passes through every operation that does not write them. The laws `…_keeps` ask for a sound state; these ask for none, and they say of most operations that they leave the modes and the memory too. An operation that writes memory has its law for the modes and the queue (`Calm`), one that writes the modes for the queue alone (`Waits`). -/

namespace Sys2Proof.Machine
open Sys2Proof

/-- What a state's modes, queue and memory satisfy: a property that the other parts of the state do not bear on. -/
def Rests (P : ModeState → List Instr → List Host.Cell → Prop) (s : State) : Prop := P s.modes s.pending s.mem

/-- The modes and the queue of the state satisfy R, whatever its memory. -/
abbrev Calm (R : ModeState → List Instr → Prop) : State → Prop := Rests (fun m p _ => R m p)

/-- The queue of the state is q, whatever its modes and its memory. -/
abbrev Waits (q : List Instr) : State → Prop := Rests (fun _ p _ => p = q)

theorem Rests.ite {P : ModeState → List Instr → List Host.Cell → Prop} {a b : State} {c : Prop} [Decidable c] (ha : Rests P a) (hb : Rests P b) :
    Rests P (if c then a else b) := by split <;> assumption

theorem Rests.ite_fst {α : Type} {P : ModeState → List Instr → List Host.Cell → Prop} {a b : State × α} {c : Prop} [Decidable c] (ha : Rests P a.1)
    (hb : Rests P b.1) : Rests P (if c then a else b).1 := by split <;> assumption

theorem Rests.ite_snd {α : Type} {P : ModeState → List Instr → List Host.Cell → Prop} {a b : α × State} {c : Prop} [Decidable c] (ha : Rests P a.2)
    (hb : Rests P b.2) : Rests P (if c then a else b).2 := by split <;> assumption

theorem Rests.of_snd {α : Type} {P : ModeState → List Instr → List Host.Cell → Prop} {p : α × State} {a : α} {t : State} (e : p = (a, t)) (h : Rests P p.2) :
    Rests P t := by subst e; exact h

theorem Rests.of_fst {α : Type} {P : ModeState → List Instr → List Host.Cell → Prop} {p : State × α} {a : α} {t : State} (e : p = (t, a)) (h : Rests P p.1) :
    Rests P t := by subst e; exact h

theorem Rests.foldl {α : Type} {P : ModeState → List Instr → List Host.Cell → Prop} {f : State → α → State} {l : List α} {s : State} (h : Rests P s)
    (hf : ∀ s x, Rests P s → Rests P (f s x)) : Rests P (l.foldl f s) := by
  induction l generalizing s with
  | nil => exact h
  | cons x t ih => exact ih (hf s x h)

/-- An update of fields other than the modes, the queue and the memory. -/
theorem Rests.mk {P : ModeState → List Instr → List Host.Cell → Prop} {s : State} (h : Rests P s)
    {dict time fab lp lau pos cel hyd tap lamp rk link flt objs blobs out free fresh} :
    Rests P (State.mk s.modes dict time fab lp lau pos cel hyd tap lamp rk link flt objs blobs s.mem out free fresh s.pending) := h

/-- An update of fields other than the modes and the queue. -/
theorem Calm.mk {R : ModeState → List Instr → Prop} {s : State} (h : Calm R s)
    {dict time fab lp lau pos cel hyd tap lamp rk link flt objs blobs mem out free fresh} :
    Calm R (State.mk s.modes dict time fab lp lau pos cel hyd tap lamp rk link flt objs blobs mem out free fresh s.pending) := h

/-- An update of fields other than the queue. -/
theorem Waits.mk {q : List Instr} {s : State} (h : Waits q s)
    {modes dict time fab lp lau pos cel hyd tap lamp rk link flt objs blobs mem out free fresh} :
    Waits q (State.mk modes dict time fab lp lau pos cel hyd tap lamp rk link flt objs blobs mem out free fresh s.pending) := h

theorem Rests.answers {P : ModeState → List Instr → List Host.Cell → Prop} {s : State} (h : Rests P s) : Answers (Rests P) (.next s) := ⟨s, rfl, h⟩

theorem Rests.answers_ite {P : ModeState → List Instr → List Host.Cell → Prop} {a b : Host.Outcome State Fault Refusal} {c : Prop} [Decidable c]
    (ha : Answers (Rests P) a) (hb : Answers (Rests P) b) : Answers (Rests P) (if c then a else b) := by split <;> assumption

end Sys2Proof.Machine
end

section
/-! SUPPORT. The modes and the queue under the operations of the shared operations. -/

namespace Sys2Proof.Machine
open Sys2Proof

theorem putObj_rests {P s} {x0 x1 x2} (h : Rests P s) : Rests P (putObj x0 x1 x2 s) := h

theorem putBlob_rests {P s} {x0 x1 x2} (h : Rests P s) : Rests P (putBlob x0 x1 x2 s) := h

theorem putInt_rests {P s} {x0 x1 x2} (h : Rests P s) : Rests P (putInt x0 x1 x2 s) := by
  dsimp only [putInt]
  with_reducible exact putObj_rests h

theorem addObj_rests {P s} {x0 x1 x2} (h : Rests P s) : Rests P (addObj x0 x1 x2 s) := by
  dsimp only [addObj]
  with_reducible exact putObj_rests h

theorem bump_rests {P s} {x0 x1} (h : Rests P s) : Rests P (bump x0 x1 s) := by
  dsimp only [bump]
  with_reducible exact addObj_rests h

theorem setSticky_rests {P s} {x0 x1 x2} (h : Rests P s) : Rests P (setSticky x0 x1 x2 s) := by
  unfold setSticky
  with_reducible exact putObj_rests (Rests.mk h)

theorem putLane_rests {P s} {x0 x1 x2} (h : Rests P s) : Rests P (putLane x0 x1 x2 s) := by
  dsimp only [putLane]
  with_reducible exact putObj_rests h

theorem bumpLane_rests {P s} {x0 x1} (h : Rests P s) : Rests P (bumpLane x0 x1 s) := by
  dsimp only [bumpLane]
  with_reducible exact bump_rests h

theorem stickyLane_rests {P s} {x0 x1 x2} (h : Rests P s) : Rests P (stickyLane x0 x1 x2 s) := by
  dsimp only [stickyLane]
  with_reducible exact setSticky_rests h

theorem accumulate_rests {P s} (h : Rests P s) : Rests P (accumulate s) := by
  unfold accumulate
  extract_lets u1 u2 u3 u4
  with_reducible exact Rests.mk h

theorem moveTime_rests {P s} {x0} (h : Rests P s) : Rests P (moveTime x0 s) := by
  unfold moveTime
  extract_lets u1 u2 u3
  with_reducible exact Rests.mk h

theorem emit_rests {P s} {x0} (h : Rests P s) : Rests P (emit x0 s) := by
  dsimp only [emit]
  with_reducible exact Rests.mk h

theorem emitAll_rests {P s} {x0} (h : Rests P s) : Rests P (emitAll x0 s) := by
  dsimp only [emitAll]
  with_reducible exact Rests.mk h

theorem takeFree_rests {P s} (h : Rests P s) : Rests P (takeFree s).2 := by
  dsimp only [takeFree]
  with_reducible exact Rests.mk h

theorem takeChoice_rests {P s} {x0} (h : Rests P s) : Rests P (takeChoice x0 s).2 := by
  dsimp only [takeChoice]
  with_reducible exact Rests.mk h

theorem laneNow_rests {P s} (h : Rests P s) : Rests P (laneNow s).2 := by
  unfold laneNow
  extract_lets u1
  have h1 : Rests P u1.2 := takeChoice_rests h
  clear_value u1
  with_reducible exact h1

theorem assertWake_rests {P s} (h : Rests P s) : Rests P (assertWake s) := by
  dsimp only [assertWake]
  with_reducible exact Rests.ite (emit_rests (Rests.mk h)) h

theorem updateIntx_rests {P s} (h : Rests P s) : Rests P (updateIntx s) := by
  unfold updateIntx
  extract_lets u1 u2
  with_reducible exact Rests.ite h (assertWake_rests (emit_rests (Rests.mk h)))

theorem sendVector_rests {P s} {x0} (h : Rests P s) : Rests P (sendVector x0 s) := by
  dsimp only [sendVector]
  split
  · with_reducible exact assertWake_rests (Rests.mk h)
  · with_reducible exact Rests.mk h
  · with_reducible exact Rests.ite (Rests.mk h) (bump_rests (emit_rests (Rests.mk h)))
  · with_reducible exact Rests.ite (Rests.mk h) (bump_rests (emit_rests (Rests.mk h)))

theorem countVector_rests {P s} {x0} (h : Rests P s) : Rests P (countVector x0 s) := by
  dsimp only [countVector]
  with_reducible exact Rests.ite (sendVector_rests h) (Rests.mk h)

theorem arrive_rests {P s} {x0} (h : Rests P s) : Rests P (arrive x0 s) := by
  dsimp only [arrive]
  with_reducible exact Rests.mk h

theorem fireAt_rests {P s} {x0 x1 x2 x3} (h : Rests P s) : Rests P (fireAt x0 x1 x2 x3 s) := by
  dsimp only [fireAt]
  with_reducible exact Rests.ite (updateIntx_rests (Rests.ite (Rests.mk (bump_rests h)) (countVector_rests (Rests.mk (bump_rests h))))) (arrive_rests
                  (updateIntx_rests (Rests.ite (Rests.mk (bump_rests h)) (countVector_rests (Rests.mk (bump_rests h))))))

theorem crossFire_rests {P s} {x0 x1} (h : Rests P s) : Rests P (crossFire x0 x1 s) := by
  unfold crossFire
  extract_lets u1 u2 u3
  have h1 : Rests P u1.2 := takeChoice_rests h
  clear_value u1
  with_reducible exact Rests.mk (h1)

theorem fire_rests {P s} {x0} (h : Rests P s) : Rests P (fire x0 s) := by
  unfold fire
  extract_lets u1
  have h1 : Rests P u1.2 := takeChoice_rests h
  clear_value u1
  with_reducible exact Rests.ite (crossFire_rests (h1)) (fireAt_rests h)

theorem flowSignals_rests {P s} {x0 x1 x2} (h : Rests P s) : Rests P (flowSignals x0 x1 x2 s) := by
  induction x2 with
  | zero => exact h
  | succ n ih =>
    simp only [flowSignals]
    exact Rests.ite (fire_rests ih) ih

theorem flowSignal_rests {P s} {x0 x1} (h : Rests P s) : Rests P (flowSignal x0 x1 s) := flowSignals_rests h

theorem fireStamped_rests {P s} {x0 x1} (h : Rests P s) : Rests P (fireStamped x0 x1 s) := by
  unfold fireStamped
  with_reducible exact Rests.ite (crossFire_rests h) (fireAt_rests h)

theorem startStore_rests {P s} {x0} (h : Rests P s) : Rests P (startStore x0 s) := by
  dsimp only [startStore]
  with_reducible exact Rests.ite h (Rests.mk h)

theorem addLog_rests {P s} {x0 x1 x2 x3 x4} (h : Rests P s) : Rests P (addLog x0 x1 x2 x3 x4 s) :=
  fire_rests (setSticky_rests (Rests.mk (bump_rests h)))

theorem addRetired_rests {P s} {x0 x1 x2} (h : Rests P s) : Rests P (addRetired x0 x1 x2 s) := by
  dsimp only [addRetired]
  have h2 : Rests P (setSticky Oid.faultsAlertStatus 0 1 s) := setSticky_rests h
  with_reducible exact Rests.ite (startStore_rests (Rests.ite (Rests.mk h2) (setSticky_rests (Rests.mk h2)))) (Rests.ite (Rests.mk h2)
                  (setSticky_rests (Rests.mk h2)))

theorem relabelFault_rests {P s} {x0 x1 x2 x3} (h : Rests P s) : Rests P (relabelFault x0 x1 x2 x3 s) := h

theorem recordFault_rests {P s} {x0 x1 x2} (h : Rests P s) : Rests P (recordFault x0 x1 x2 s).1 := by
  unfold recordFault
  extract_lets u1 u2 u3 u4 u5
  have h5 : Rests P u5 := Rests.mk h
  clear_value u5
  with_reducible exact Rests.ite_fst (addLog_rests h) (Rests.ite_fst (Rests.ite_fst (addRetired_rests (relabelFault_rests h)) h) (Rests.ite_fst
                  (addLog_rests (h5)) (Rests.ite_fst (addRetired_rests (addLog_rests (h5))) (addLog_rests (h5)))))

theorem logUntracked_rests {P s} {x0 x1 x2} (h : Rests P s) : Rests P (logUntracked x0 x1 x2 s) := by
  dsimp only [logUntracked]
  with_reducible exact addLog_rests h

theorem dropRetired_rests {P s} {x0} (h : Rests P s) : Rests P (dropRetired x0 s) := by
  dsimp only [dropRetired]
  with_reducible exact Rests.ite (startStore_rests (Rests.mk h)) (Rests.mk h)

theorem writeMem_rests {R s} {x0 x1} (h : Calm R s) : Calm R (writeMem x0 x1 s) := by
  induction x1 generalizing x0 s with
  | nil => exact h
  | cons b t ih => exact ih (Calm.mk h)

theorem loseMem_rests {R s} {x0 x1} (h : Calm R s) : Calm R (loseMem x0 x1 s) := h

end Sys2Proof.Machine
end

section
/-! SUPPORT. The modes and the queue under the operations of the event fabric. -/

namespace Sys2Proof.Machine
open Sys2Proof

theorem putFab_rests {P s} {x0 x1 x2} (h : Rests P s) : Rests P (putFab x0 x1 x2 s) := by
  dsimp only [putFab]
  with_reducible refine putObj_rests ?_
  split
  · with_reducible exact h
  · with_reducible exact Rests.mk h

theorem dropPending_rests {P s} {x0} (h : Rests P s) : Rests P (dropPending x0 s) := by
  dsimp only [dropPending]
  with_reducible exact Rests.mk h

theorem softFire_rests {P s} {x0 x1 x2} (h : Rests P s) : Rests P (softFire x0 x1 x2 s) := by
  dsimp only [softFire]
  with_reducible exact arrive_rests h

theorem refuseFire_rests {P s} {x0} (h : Rests P s) : Rests P (refuseFire x0 s) := by
  unfold refuseFire
  with_reducible exact bump_rests (Rests.ite (setSticky_rests h) h)

theorem barAccess_rests {P s} (h : Rests P s) : Rests P (barAccess s) := by
  dsimp only [barAccess]
  with_reducible exact Rests.mk h

theorem logAer_rests {P s} {x0} (h : Rests P s) : Rests P (logAer x0 s) := by
  unfold logAer
  extract_lets u1
  with_reducible exact Rests.ite h (Rests.mk h)

theorem barRefused_rests {P s} {x0} (h : Rests P s) : Rests P (barRefused x0 s) := by
  unfold barRefused
  extract_lets u1
  have h1 : Rests P u1 := logAer_rests (barAccess_rests h)
  clear_value u1
  with_reducible exact Rests.ite h (Rests.ite (emit_rests (h1)) (h1))

theorem bar0Write_rests {P s} {f : State → State} (hf : ∀ s, Rests P s → Rests P (f s)) (h : Rests P s) : Rests P (bar0Write f s) := by
  unfold bar0Write
  exact Rests.ite (barRefused_rests h) (Rests.ite (hf _ (barAccess_rests h)) (barAccess_rests h))

theorem bar0Fire_rests {P s} {x0 x1} (h : Rests P s) : Rests P (bar0Fire x0 x1 s) := by
  dsimp only [bar0Fire]
  with_reducible exact Rests.ite (softFire_rests h) (refuseFire_rests h)

theorem stormCount_rests {P s} {x0} (h : Rests P s) : Rests P (stormCount x0 s).1 := by
  dsimp only [stormCount]
  with_reducible exact Rests.mk h

theorem stormTrip_rests {P s} {x0} (h : Rests P s) : Rests P (stormTrip x0 s) := by
  dsimp only [stormTrip]
  with_reducible exact fire_rests (setSticky_rests (setSticky_rests (bump_rests (dropPending_rests (putFab_rests h)))))

theorem overflowDrop_rests {P s} {x0} (h : Rests P s) : Rests P (overflowDrop x0 s) := by
  dsimp only [overflowDrop]
  with_reducible exact fire_rests (setSticky_rests (setSticky_rests (bump_rests h)))

theorem putGristQ_rests {P s} {x0 x1} (h : Rests P s) : Rests P (putGristQ x0 x1 s) := by
  dsimp only [putGristQ]
  with_reducible exact Rests.ite h (putObj_rests h)

theorem gristTick_rests {P s} {x0} (h : Rests P s) : Rests P (gristTick x0 s) := by
  dsimp only [gristTick]
  with_reducible exact Rests.ite (Rests.mk h) (putGristQ_rests (Rests.mk h))

theorem gristTicks_rests {P s} {x0} (h : Rests P s) : Rests P (gristTicks x0 s) := by
  induction x0 with
  | zero => exact h
  | succ n ih =>
    simp only [gristTicks]
    exact gristTick_rests ih

theorem gristClear_rests {P s} {x0} (h : Rests P s) : Rests P (gristClear x0 s) := by
  dsimp only [gristClear]
  with_reducible exact Rests.ite (putGristQ_rests (Rests.mk h)) h

theorem gristClears_rests {P s} {x0} (h : Rests P s) : Rests P (gristClears x0 s) := by
  induction x0 with
  | zero => exact h
  | succ n ih =>
    simp only [gristClears]
    exact gristClear_rests ih

theorem gristWritten_rests {P s} {x0 x1 x2} (h : Rests P s) : Rests P (gristWritten x0 x1 x2 s) := by
  dsimp only [gristWritten]
  with_reducible exact Rests.ite (putFab_rests h) (Rests.mk (putFab_rests h))

theorem driveTrigOut_rests {P s} {x0 x1 x2 x3 x4} (h : Rests P s) : Rests P (driveTrigOut x0 x1 x2 x3 x4 s) := by
  dsimp only [driveTrigOut]
  with_reducible exact Rests.ite (emit_rests (Rests.mk h)) (Rests.mk h)

theorem placeEdge_rests {P s} {x0 x1} (h : Rests P s) : Rests P (placeEdge x0 x1 s) := by
  unfold placeEdge
  with_reducible exact Rests.ite (setSticky_rests h) h

theorem trigOutOccurrence_rests {P s} {x0 x1 x2} (h : Rests P s) : Rests P (trigOutOccurrence x0 x1 x2 s) := by
  unfold trigOutOccurrence
  extract_lets u1
  split
  · with_reducible exact driveTrigOut_rests (placeEdge_rests h)
  · with_reducible exact driveTrigOut_rests (placeEdge_rests h)
  · with_reducible exact h

theorem trigOutTick_rests {P s} {x0 x1} (h : Rests P s) : Rests P (trigOutTick x0 x1 s) := by
  unfold trigOutTick
  extract_lets u1 u2 u3 u4 u5 u6 u7 u8
  have h8 : Rests P u8 := Rests.mk h
  clear_value u8
  with_reducible exact Rests.ite (emit_rests (h8)) (h8)

theorem trigOutTicks_rests {P s} {x0 x1} (h : Rests P s) : Rests P (trigOutTicks x0 x1 s) := by
  induction x1 generalizing x0 s
  · rw [trigOutTicks]
    with_reducible exact h
  · rename_i n ih
    rw [trigOutTicks]
    with_reducible exact trigOutTick_rests (ih h)

theorem putTrigIn_rests {P s} {x0 x1} (h : Rests P s) : Rests P (putTrigIn x0 x1 s) := by
  unfold putTrigIn
  extract_lets u1
  with_reducible exact Rests.mk h

theorem acceptEdge_rests {P s} {x0 x1 x2} (h : Rests P s) : Rests P (acceptEdge x0 x1 x2 s) := by
  unfold acceptEdge
  extract_lets u1 u2
  with_reducible exact Rests.ite (bump_rests (putTrigIn_rests h)) (fireStamped_rests (setSticky_rests (putTrigIn_rests h)))

theorem trigInTick_rests {P s} {x0} (h : Rests P s) : Rests P (trigInTick x0 s) := by
  unfold trigInTick
  split
  · with_reducible exact h
  · with_reducible exact Rests.ite (acceptEdge_rests h) h

theorem trigInTicks_rests {P s} {x0} (h : Rests P s) : Rests P (trigInTicks x0 s) := by
  induction x0 generalizing s
  · rw [trigInTicks]
    with_reducible exact h
  · rename_i n ih
    rw [trigInTicks]
    with_reducible exact trigInTick_rests (ih h)

theorem trigInEdge_rests {P s} {x0 x1 x2} (h : Rests P s) : Rests P (trigInEdge x0 x1 x2 s) := by
  unfold trigInEdge
  extract_lets u1 u2 u3
  with_reducible exact Rests.ite h (Rests.ite (putTrigIn_rests h) (Rests.ite (putTrigIn_rests h) (trigInTick_rests (putTrigIn_rests h))))

theorem takeBhSeq_rests {P s} {x0} (h : Rests P s) : Rests P (takeBhSeq x0 s).2 := by
  dsimp only [takeBhSeq]
  with_reducible exact Rests.mk h

theorem putBh_rests {P s} {x0 x1} (h : Rests P s) : Rests P (putBh x0 x1 s) := by
  unfold putBh
  extract_lets u1
  with_reducible exact Rests.mk h

theorem queueBh_rests {P s} {x0 x1 x2} (h : Rests P s) : Rests P (queueBh x0 x1 x2 s) := by
  unfold queueBh
  extract_lets u1 u2
  with_reducible exact Rests.ite (emit_rests (putBh_rests h)) (putBh_rests h)

theorem bhSend_rests {P s} {x0 x1 x2} (h : Rests P s) : Rests P (bhSend x0 x1 x2 s) := by
  induction x1 generalizing x2 s with
  | zero => exact h
  | succ n ih =>
    dsimp only [bhSend]
    refine Rests.ite (putBh_rests h) ?_
    cases (bhLink s x0).queue with
    | nil => exact putBh_rests h
    | cons f r => exact ih (emit_rests (putBh_rests h))

theorem bhPrune_rests {P s} {x0} (h : Rests P s) : Rests P (bhPrune x0 s) := by
  unfold bhPrune
  extract_lets u1
  with_reducible exact Rests.ite (Rests.ite (putBh_rests h) h) (putBh_rests h)

theorem bhMarkers_rests {P s} {x0} (h : Rests P s) : Rests P (bhMarkers x0 s) := by
  unfold bhMarkers
  extract_lets u1 u2
  with_reducible exact Rests.ite (Rests.ite (emit_rests (putBh_rests h)) (putBh_rests h)) h

theorem bhTicks_rests {P s} {x0} (h : Rests P s) : Rests P (bhTicks x0 s) := by
  induction x0 generalizing s
  · rw [bhTicks]
    with_reducible exact h
  · rename_i n ih
    rw [bhTicks]
    with_reducible exact bhMarkers_rests (bhSend_rests (bhPrune_rests (ih h)))

theorem originateBh_rests {P s} {x0 x1 x2 x3 x4 x5 x6 x7} (h : Rests P s) : Rests P (originateBh x0 x1 x2 x3 x4 x5 x6 x7 s) := by
  unfold originateBh
  extract_lets u1
  have h1 : Rests P u1.2 := takeBhSeq_rests h
  clear_value u1
  with_reducible exact queueBh_rests (h1)

theorem sendCascade_rests {P s} {x0 x1 x2 x3 x4} (h : Rests P s) : Rests P (sendCascade x0 x1 x2 x3 x4 s) := by
  unfold sendCascade
  with_reducible exact originateBh_rests h

theorem sendTrigger_rests {P s} {x0 x1 x2 x3} (h : Rests P s) : Rests P (sendTrigger x0 x1 x2 x3 s) := by
  unfold sendTrigger
  extract_lets u1 u2 u3
  have h1 : Rests P u1.2 := takeBhSeq_rests h
  clear_value u1
  with_reducible exact Rests.foldl (h1) (fun s x h => queueBh_rests (queueBh_rests h))

theorem forwardTrigger_rests {P s} {x0 x1 x2 x3 x4 x5} (h : Rests P s) : Rests P (forwardTrigger x0 x1 x2 x3 x4 x5 s) := by
  unfold forwardTrigger
  with_reducible exact Rests.foldl h (fun s x h => queueBh_rests h)

theorem scheduleFire_rests {P s} {x0} (h : Rests P s) : Rests P (scheduleFire x0 s) := by
  dsimp only [scheduleFire]
  split
  · exact Rests.mk h
  · exact refuseFire_rests h

theorem exportOccurrence_rests {P s} {x0 x1} (h : Rests P s) : Rests P (exportOccurrence x0 x1 s) := by
  unfold exportOccurrence
  extract_lets u1 u2
  with_reducible exact Rests.ite h (scheduleFire_rests (Rests.ite h (sendTrigger_rests h)))

theorem brewFire_rests {P s} {x0 x1} (h : Rests P s) : Rests P (brewFire x0 x1 s) := by
  dsimp only [brewFire]
  with_reducible exact arrive_rests h

theorem receiveTrigger_rests {P s} {x0 x1 x2} (h : Rests P s) : Rests P (receiveTrigger x0 x1 x2 s) := by
  unfold receiveTrigger
  extract_lets u1
  with_reducible exact Rests.ite (refuseFire_rests h) (Rests.ite (fire_rests (bump_rests (setSticky_rests (brewFire_rests h)))) (scheduleFire_rests
                  h))

theorem triggerFrame_rests {P s} {x0 x1 x2 x3 x4 x5 x6 x7} (h : Rests P s) : Rests P (triggerFrame x0 x1 x2 x3 x4 x5 x6 x7 s) := by
  dsimp only [triggerFrame]
  with_reducible exact Rests.ite (bump_rests h) (Rests.ite (forwardTrigger_rests (bump_rests h)) (receiveTrigger_rests (Rests.mk
                  (forwardTrigger_rests (bump_rests h)))))

theorem fireScheduled_rests {P s} (h : Rests P s) : Rests P (fireScheduled s) :=
  Rests.foldl (Rests.mk h) (fun _ _ h => brewFire_rests h)

theorem bar0FireAll_rests {P s} {x0} (h : Rests P s) : Rests P (bar0FireAll x0 s) := by
  dsimp only [bar0FireAll]
  with_reducible exact Rests.foldl h (fun s x h => bar0Fire_rests h)

theorem execGristCellFire_rests {P s} {x0} (h : Rests P s) : Answers (Rests P) (execGristCellFire x0 s) := by
  dsimp only [execGristCellFire]
  with_reducible exact Rests.answers_ite (Rests.answers (fire_rests (Rests.mk h))) (Rests.answers h)

theorem execTrigInEdge_rests {P s} {x0 x1 x2} (h : Rests P s) : Answers (Rests P) (execTrigInEdge x0 x1 x2 s) := by
  dsimp only [execTrigInEdge]
  with_reducible exact Rests.answers_ite (Rests.answers h) (Rests.answers (trigInEdge_rests h))

theorem execTrigInStuck_rests {P s} {x0} (h : Rests P s) : Answers (Rests P) (execTrigInStuck x0 s) := by
  dsimp only [execTrigInStuck]
  with_reducible exact Rests.answers_ite (Rests.answers h) (Rests.answers (fire_rests (setSticky_rests (setSticky_rests (Rests.mk h)))))

theorem execTrigOutPulseEnd_rests {P s} {x0} (h : Rests P s) : Answers (Rests P) (execTrigOutPulseEnd x0 s) := by
  dsimp only [execTrigOutPulseEnd]
  with_reducible exact Rests.answers_ite (Rests.answers (driveTrigOut_rests h)) (Rests.answers h)

theorem execVectorTimer_rests {P s} {x0} (h : Rests P s) : Answers (Rests P) (execVectorTimer x0 s) := by
  dsimp only [execVectorTimer]
  with_reducible exact Rests.answers_ite (Rests.answers (sendVector_rests h)) (Rests.answers h)

theorem unmaskVector_rests {P s} {x0} (h : Rests P s) : Rests P (unmaskVector x0 s) := by
  unfold unmaskVector
  extract_lets u1 u2
  split
  · with_reducible exact Rests.mk h
  · with_reducible exact Rests.mk h
  · with_reducible exact Rests.mk h
  · with_reducible exact Rests.mk h

theorem execMsixVectorUnmask_rests {P s} {x0} (h : Rests P s) : Answers (Rests P) (execMsixVectorUnmask x0 s) := by
  unfold execMsixVectorUnmask
  lift_lets
  intro u1
  have h1 : Rests P u1 := unmaskVector_rests h
  clear_value u1
  with_reducible refine Rests.answers_ite ?_ ?_
  · with_reducible refine Rests.answers ?_
    with_reducible exact h1
  · with_reducible refine Rests.answers ?_
    with_reducible refine Rests.foldl ?_ ?_
    · with_reducible exact h1
    · intro t2 x2 h2
      dsimp -zeta only
      lift_lets
      intro u3
      with_reducible exact sendVector_rests (Rests.mk (h2))

theorem clearSrcStatus_rests {P s} {x0 x1 x2} (h : Rests P s) : Rests P (clearSrcStatus x0 x1 x2 s) := by
  induction x2 with
  | zero => exact h
  | succ n ih =>
    simp only [clearSrcStatus]
    exact Rests.ite (Rests.mk ih) ih

theorem execSrcStatusWrite_rests {P s} {x0 x1} (h : Rests P s) : Answers (Rests P) (execSrcStatusWrite x0 x1 s) := by
  unfold execSrcStatusWrite
  with_reducible refine Rests.answers_ite ?_ ?_
  · with_reducible refine Rests.answers ?_
    with_reducible exact updateIntx_rests (clearSrcStatus_rests (barAccess_rests h))
  · with_reducible refine Rests.answers ?_
    with_reducible exact barRefused_rests h

theorem execTrigger_rests {P s} {x0 x1 x2 x3 x4 x5 x6 x7} (h : Rests P s) : Answers (Rests P) (execTrigger x0 x1 x2 x3 x4 x5 x6 x7 s) := by
  dsimp only [execTrigger]
  with_reducible exact Rests.answers_ite (Rests.answers (triggerFrame_rests h)) (Rests.answers h)

theorem execScheduledFire_rests {P s} (h : Rests P s) : Answers (Rests P) (execScheduledFire s) := by
  dsimp only [execScheduledFire]
  with_reducible exact Rests.answers (fireScheduled_rests h)

end Sys2Proof.Machine
end

section
/-! SUPPORT. The modes and the queue under the operations of the timekeeper. -/

namespace Sys2Proof.Machine
open Sys2Proof

theorem ppsStart_rests {P s} {x0} (h : Rests P s) : Rests P (ppsStart x0 s) := by
  unfold ppsStart
  extract_lets u1 u2 u3 u4
  have h3 : Rests P u3 := Rests.mk h
  clear_value u3
  have h4 : Rests P u4 := Rests.ite (emit_rests (h3)) (h3)
  clear_value u4
  with_reducible exact fireStamped_rests (h4)

theorem ppsFlush_rests {P s} (h : Rests P s) : Rests P (ppsFlush s) := by
  unfold ppsFlush
  extract_lets u1
  split
  · with_reducible exact h
  · with_reducible exact ppsStart_rests (Rests.mk h)

theorem ppsTick_rests {P s} {x0 x1} (h : Rests P s) : Rests P (ppsTick x0 x1 s) := by
  unfold ppsTick
  extract_lets u1
  with_reducible exact Rests.ite (Rests.mk h) h

theorem ppsPolarityWritten_rests {P s} {x0} (h : Rests P s) : Rests P (ppsPolarityWritten x0 s) := by
  dsimp only [ppsPolarityWritten]
  with_reducible exact Rests.ite (putObj_rests h) (emit_rests (putObj_rests h))

theorem setArmed_rests {P s} {x0 x1} (h : Rests P s) : Rests P (setArmed x0 x1 s) := by
  dsimp only [setArmed]
  with_reducible exact Rests.mk h

theorem armCompare_rests {P s} {x0} (h : Rests P s) : Rests P (armCompare x0 s) := by
  dsimp only [armCompare]
  with_reducible exact Rests.ite (setArmed_rests h) (setArmed_rests h)

theorem rearmCompare_rests {P s} {x0} (h : Rests P s) : Rests P (rearmCompare x0 s) := by
  unfold rearmCompare
  with_reducible exact setArmed_rests h

theorem promoteArmed_rests {P s} (h : Rests P s) : Rests P (promoteArmed s) := by
  unfold promoteArmed
  extract_lets u1
  with_reducible exact Rests.mk h

theorem fireCompare_rests {P s} {x0 x1} (h : Rests P s) : Rests P (fireCompare x0 x1 s) := by
  unfold fireCompare
  extract_lets u1 u2 u3 u4 u5 u6 u7
  have h4 : Rests P u4 := setSticky_rests h
  clear_value u4
  have h5 : Rests P u5 := fireAt_rests (h4)
  clear_value u5
  with_reducible exact Rests.ite (Rests.ite (rearmCompare_rests (putObj_rests (addObj_rests (setSticky_rests (h5))))) (rearmCompare_rests
                  (putObj_rests (h5)))) (setArmed_rests (h5))

theorem evalCompare_rests {P s} {x0} (h : Rests P s) : Rests P (evalCompare x0 s) := by
  dsimp only [evalCompare]
  with_reducible exact Rests.ite h (fireCompare_rests h)

theorem stepPastCompares_rests {P s} {x0 x1 x2} (h : Rests P s) : Rests P (stepPastCompares x0 x1 x2 s) := by
  induction x2 with
  | zero => exact h
  | succ n ih =>
    simp only [stepPastCompares]
    exact Rests.ite (fireCompare_rests ih) ih

theorem stepPast_rests {q s} {x0 x1} (h : Waits q s) : Waits q (stepPast x0 x1 s) := by
  unfold stepPast
  extract_lets u1 u2 u3 u4 u5 u6 u7
  have h1 : Waits q u1 := stepPastCompares_rests h
  clear_value u1
  have h3 : Waits q u3 := by
    dsimp only [u3]
    split
    · with_reducible exact Rests.ite (Waits.mk (h1)) (h1)
    · with_reducible exact h1
  clear_value u3
  have h6 : Waits q u6 := Rests.ite (Waits.mk (h3)) (h3)
  clear_value u6
  split
  · with_reducible exact Rests.ite (Waits.mk (h6)) (h6)
  · with_reducible exact h6

theorem applyStep_rests {q s} (h : Waits q s) : Waits q (applyStep s) := by
  unfold applyStep
  lift_lets
  intro u1 u2 u3
  split
  · with_reducible exact h
  · lift_lets
    intro u4
    have h4 : Waits q u4 := moveTime_rests (Waits.mk h)
    clear_value u4
    intro u5
    have h5 : Waits q u5 := putObj_rests (bump_rests (setSticky_rests (h4)))
    clear_value u5
    intro u6
    have h6 : Waits q u6 := fire_rests (h5)
    clear_value u6
    with_reducible exact Rests.ite (stepPast_rests (h6)) (h6)

theorem takeIncrement_rests {P s} (h : Rests P s) : Rests P (takeIncrement s) := by
  dsimp only [takeIncrement]
  split
  · with_reducible exact h
  · with_reducible exact Rests.mk h

theorem gristFires_rests {P s} {x0} (h : Rests P s) : Rests P (gristFires x0 s) := by
  induction x0 with
  | zero => exact h
  | succ n ih =>
    simp only [gristFires]
    exact Rests.ite (fire_rests (Rests.mk ih)) ih

theorem rollSecond_rests {P s} (h : Rests P s) : Rests P (rollSecond s) := by
  dsimp only [rollSecond]
  with_reducible exact Rests.ite h (putObj_rests (Rests.mk h))

theorem gristEnd_rests {P s} (h : Rests P s) : Rests P (gristEnd s) :=
  gristClears_rests (gristTicks_rests (gristFires_rests h))

theorem openTick_rests {P s} (h : Rests P s) : Rests P (openTick s) := by
  unfold openTick
  extract_lets u1 u2
  with_reducible exact Rests.mk h

theorem fireCrossings_rests {P s} (h : Rests P s) : Rests P (fireCrossings s) := by
  unfold fireCrossings
  extract_lets u1
  with_reducible exact Rests.foldl (Rests.mk h) (fun s x h => fireAt_rests h)

theorem promote_rests {P s} (h : Rests P s) : Rests P (promote s) := by
  unfold promote
  extract_lets u1 u2 u3
  have h1 : Rests P u1 := promoteArmed_rests h
  clear_value u1
  with_reducible exact Rests.mk (h1)

theorem publish_rests {P s} {x0 x1 x2} (h : Rests P s) : Rests P (publish x0 x1 x2 s) := by
  unfold publish
  with_reducible exact bhTicks_rests (fireCrossings_rests (trigInTicks_rests (trigOutTicks_rests (updateIntx_rests (promote_rests (ppsTick_rests
                  h))))))

theorem kilnTick_rests {q s} (h : Waits q s) : Waits q (kilnTick s) := by
  unfold kilnTick
  extract_lets u1
  have h1 : Waits q u1 := gristEnd_rests (ppsFlush_rests h)
  clear_value u1
  with_reducible exact rollSecond_rests (takeIncrement_rests (publish_rests (applyStep_rests (accumulate_rests (openTick_rests (h1))))))

theorem setIncrement_rests {P s} {x0} (h : Rests P s) : Rests P (setIncrement x0 s) := by
  dsimp only [setIncrement]
  with_reducible exact putObj_rests (Rests.mk h)

theorem setClamped_rests {P s} {x0} (h : Rests P s) : Rests P (setClamped x0 s) := by
  unfold setClamped
  with_reducible exact Rests.ite (setSticky_rests (setIncrement_rests h)) (Rests.ite (setSticky_rests (setIncrement_rests h)) (setIncrement_rests h))

theorem servoAdjust_rests {P s} (h : Rests P s) : Rests P (servoAdjust s) := by
  unfold servoAdjust
  with_reducible exact setClamped_rests (Rests.mk h)

theorem servoToward_rests {P s} {x0} (h : Rests P s) : Rests P (servoToward x0 s) := by
  unfold servoToward
  extract_lets u1 u2
  with_reducible exact setClamped_rests (Rests.mk h)

theorem slew_rests {P s} {x0} (h : Rests P s) : Rests P (slew x0 s) := by
  unfold slew
  with_reducible exact setSticky_rests (setIncrement_rests h)

theorem addStep_rests {P s} {x0} (h : Rests P s) : Rests P (addStep x0 s) := by
  dsimp only [addStep]
  with_reducible exact Rests.mk h

theorem setTime_rests {P s} {x0} (h : Rests P s) : Rests P (setTime x0 s) := by
  dsimp only [setTime]
  with_reducible exact Rests.mk h

theorem gainLock_rests {P s} (h : Rests P s) : Rests P (gainLock s) := by
  dsimp only [gainLock]
  with_reducible exact Rests.ite h (fire_rests (putObj_rests h))

theorem loseLock_rests {P s} (h : Rests P s) : Rests P (loseLock s) := by
  dsimp only [loseLock]
  with_reducible exact Rests.ite (fire_rests (setSticky_rests (putObj_rests h))) h

theorem servoUpdate_rests {P s} {x0} (h : Rests P s) : Rests P (servoUpdate x0 s) := by
  dsimp only [servoUpdate]
  with_reducible exact Rests.ite (addStep_rests (Rests.ite (Rests.ite (gainLock_rests (Rests.mk (putObj_rests h))) (Rests.mk (putObj_rests h)))
                  (Rests.ite (loseLock_rests (Rests.mk (putObj_rests h))) (Rests.mk (putObj_rests h))))) (servoAdjust_rests (Rests.ite (Rests.ite
                  (gainLock_rests (Rests.mk (putObj_rests h))) (Rests.mk (putObj_rests h))) (Rests.ite (loseLock_rests (Rests.mk (putObj_rests h)))
                  (Rests.mk (putObj_rests h)))))

theorem setSource_rests {P s} {x0} (h : Rests P s) : Rests P (setSource x0 s) := by
  unfold setSource
  extract_lets u1 u2
  have h2 : Rests P u2 := loseLock_rests (putObj_rests (Rests.mk h))
  clear_value u2
  with_reducible exact Rests.ite h (Rests.ite (gainLock_rests (h2)) (h2))

theorem setBhLocked_rests {P s} {x0} (h : Rests P s) : Rests P (setBhLocked x0 s) := by
  unfold setBhLocked
  extract_lets u1 u2
  have h2 : Rests P u2 := fire_rests (putObj_rests (Rests.mk h))
  clear_value u2
  with_reducible exact Rests.ite h (Rests.ite (Rests.ite (gainLock_rests (h2)) (loseLock_rests (h2))) (h2))

theorem topologyFault_rests {P s} {x0} (h : Rests P s) : Rests P (topologyFault x0 s) := by
  dsimp only [topologyFault]
  with_reducible exact recordFault_rests (fire_rests (putObj_rests h))

theorem refuseLink_rests {P s} {x0} (h : Rests P s) : Rests P (refuseLink x0 s) := by
  unfold refuseLink
  extract_lets u1
  with_reducible exact setBhLocked_rests (topologyFault_rests (Rests.mk h))

theorem takeBeacon_rests {P s} {x0 x1} (h : Rests P s) : Rests P (takeBeacon x0 x1 s) := by
  unfold takeBeacon
  extract_lets u1
  with_reducible exact putObj_rests (Rests.mk h)

theorem takeOffset_rests {P s} {x0} (h : Rests P s) : Rests P (takeOffset x0 s) := by
  unfold takeOffset
  extract_lets u1 u2 u3 u4 u5
  have h4 : Rests P u4 := Rests.mk h
  clear_value u4
  have h5 : Rests P u5 := putObj_rests (h4)
  clear_value u5
  with_reducible exact Rests.ite (setBhLocked_rests (h5)) (Rests.ite (setBhLocked_rests (h5)) (h5))

theorem follow_rests {P s} {x0} (h : Rests P s) : Rests P (follow x0 s) := by
  unfold follow
  extract_lets u1 u2
  have h1 : Rests P u1 := putObj_rests h
  clear_value u1
  with_reducible exact Rests.ite (addStep_rests (Rests.mk (h1))) (Rests.ite (Rests.mk (h1)) (Rests.ite (slew_rests (Rests.mk (h1))) (Rests.ite
                  (Rests.mk (h1)) (servoToward_rests (Rests.mk (h1))))))

theorem beacon_rests {P s} {x0 x1 x2} (h : Rests P s) : Rests P (beacon x0 x1 x2 s) := by
  unfold beacon
  extract_lets u1 u2 u3
  have h3 : Rests P u3 := takeOffset_rests (takeBeacon_rests h)
  clear_value u3
  with_reducible exact Rests.ite h (Rests.ite (refuseLink_rests h) (Rests.ite (follow_rests (h3)) (h3)))

theorem probeReply_rests {P s} {x0 x1 x2 x3} (h : Rests P s) : Rests P (probeReply x0 x1 x2 x3 s) := by
  dsimp only [probeReply]
  split
  · with_reducible exact h
  · with_reducible exact Rests.ite (Rests.mk h) (putObj_rests (Rests.mk h))

theorem announceOn_rests {P s} {x0 x1} (h : Rests P s) : Rests P (announceOn x0 x1 s) := by
  dsimp only [announceOn]
  with_reducible exact Rests.ite (Rests.ite (Rests.mk h) (Rests.mk h)) (Rests.ite (fire_rests (setSticky_rests (putObj_rests (Rests.ite (Rests.mk h)
                  (Rests.mk h))))) (putObj_rests (Rests.ite (Rests.mk h) (Rests.mk h))))

theorem announceRoll_rests {P s} (h : Rests P s) : Rests P (announceRoll s) := by
  unfold announceRoll
  extract_lets u1
  with_reducible exact Rests.mk h

theorem takeSnapshot_rests {P s} {x0} (h : Rests P s) : Rests P (takeSnapshot x0 s) := by
  dsimp only [takeSnapshot]
  with_reducible exact fire_rests (setSticky_rests (putObj_rests (putObj_rests (Rests.mk h))))

theorem evalSnapshot_rests {P s} (h : Rests P s) : Rests P (evalSnapshot s) := by
  dsimp only [evalSnapshot]
  with_reducible exact Rests.ite (takeSnapshot_rests h) (Rests.ite (takeSnapshot_rests h) h)

theorem armSnapshot_rests {P s} {x0} (h : Rests P s) : Rests P (armSnapshot x0 s) := by
  dsimp only [armSnapshot]
  with_reducible refine putObj_rests ?_
  with_reducible refine Rests.mk ?_
  split
  · with_reducible exact Rests.ite (evalSnapshot_rests h) h
  · with_reducible exact h

theorem execTkLatch_rests {P s} {x0} (h : Rests P s) : Answers (Rests P) (execTkLatch x0 s) := by
  unfold execTkLatch
  extract_lets u1 u2 u3
  have h2 : Rests P u2 := barAccess_rests h
  clear_value u2
  with_reducible refine Rests.answers_ite ?_ ?_
  · with_reducible refine Rests.answers ?_
    with_reducible exact barRefused_rests h
  · with_reducible refine Rests.answers ?_
    with_reducible exact Rests.mk (h2)

theorem execTimeCompare_rests {P s} {x0} (h : Rests P s) : Answers (Rests P) (execTimeCompare x0 s) := by
  dsimp only [execTimeCompare]
  with_reducible exact Rests.answers (evalCompare_rests h)

theorem execSnapshot_rests {P s} (h : Rests P s) : Answers (Rests P) (execSnapshot s) := by
  dsimp only [execSnapshot]
  with_reducible exact Rests.answers (evalSnapshot_rests h)

theorem execHoldoverLimit_rests {P s} (h : Rests P s) : Answers (Rests P) (execHoldoverLimit s) := by
  unfold execHoldoverLimit
  extract_lets u1
  with_reducible refine Rests.answers ?_
  with_reducible exact loseLock_rests (Rests.mk h)

theorem execPpsOutPulse_rests {P s} (h : Rests P s) : Answers (Rests P) (execPpsOutPulse s) := by
  unfold execPpsOutPulse
  with_reducible refine Rests.answers ?_
  with_reducible exact ppsFlush_rests h

theorem execPpsOutPulseEnd_rests {P s} (h : Rests P s) : Answers (Rests P) (execPpsOutPulseEnd s) := by
  dsimp only [execPpsOutPulseEnd]
  with_reducible exact Rests.answers_ite (Rests.answers (Rests.ite (emit_rests (Rests.mk h)) (Rests.mk h))) (Rests.answers h)

theorem execPpsInEdge_rests {P s} {x0 x1} (h : Rests P s) : Answers (Rests P) (execPpsInEdge x0 x1 s) := by
  unfold execPpsInEdge
  extract_lets u1 u2 u3 u4 u5 u6
  have h4 : Rests P u4 := fireStamped_rests (putObj_rests h)
  clear_value u4
  with_reducible refine Rests.answers_ite ?_ ?_
  · with_reducible refine Rests.answers ?_
    with_reducible exact h
  · with_reducible refine Rests.answers_ite ?_ ?_
    · with_reducible refine Rests.answers ?_
      with_reducible exact bump_rests (h4)
    · with_reducible refine Rests.answers ?_
      with_reducible exact Rests.ite (servoUpdate_rests (h4)) (h4)

theorem execPpsInMissing_rests {P s} (h : Rests P s) : Answers (Rests P) (execPpsInMissing s) := by
  dsimp only [execPpsInMissing]
  with_reducible exact Rests.answers_ite (Rests.answers h) (Rests.answers (fire_rests (setSticky_rests h)))

theorem beaconTo_rests {P s} {x0 x1} (h : Rests P s) : Rests P (beaconTo x0 x1 s) := by
  unfold beaconTo
  with_reducible exact originateBh_rests (laneNow_rests h)

theorem execBeaconSend_rests {P s} (h : Rests P s) : Answers (Rests P) (execBeaconSend s) := by
  unfold execBeaconSend
  extract_lets u1 u2 u3
  with_reducible refine Rests.answers_ite ?_ ?_
  · with_reducible refine Rests.answers ?_
    with_reducible exact h
  · with_reducible refine Rests.answers ?_
    with_reducible exact Rests.foldl h (fun s x h => beaconTo_rests h)

theorem execProbeSend_rests {P s} {x0} (h : Rests P s) : Answers (Rests P) (execProbeSend x0 s) := by
  dsimp only [execProbeSend]
  with_reducible exact Rests.answers_ite (Rests.answers (sendCascade_rests (Rests.mk h))) (Rests.answers h)

theorem execProbe_rests {P s} {x0 x1 x2} (h : Rests P s) : Answers (Rests P) (execProbe x0 x1 x2 s) := by
  unfold execProbe
  with_reducible refine Rests.answers_ite ?_ ?_
  · with_reducible refine Rests.answers ?_
    with_reducible exact originateBh_rests (bump_rests h)
  · with_reducible refine Rests.answers ?_
    with_reducible exact h

theorem execProbeReply_rests {P s} {x0 x1 x2 x3} (h : Rests P s) : Answers (Rests P) (execProbeReply x0 x1 x2 x3 s) := by
  unfold execProbeReply
  with_reducible refine Rests.answers_ite ?_ ?_
  · with_reducible refine Rests.answers ?_
    with_reducible exact probeReply_rests (bump_rests h)
  · with_reducible refine Rests.answers ?_
    with_reducible exact h

theorem announceUp_rests {P s} {x0} (h : Rests P s) : Rests P (announceUp x0 s) := by
  unfold announceUp
  split
  · with_reducible exact sendCascade_rests h
  · with_reducible exact h

theorem announceForward_rests {P s} {x0 x1 x2 x3} (h : Rests P s) : Rests P (announceForward x0 x1 x2 x3 s) := by
  unfold announceForward
  split
  · with_reducible exact queueBh_rests h
  · with_reducible exact h

theorem execAddressAnnounce_rests {P s} {x0} (h : Rests P s) : Answers (Rests P) (execAddressAnnounce x0 s) := by
  unfold execAddressAnnounce
  split
  · with_reducible refine Rests.answers_ite ?_ ?_
    · with_reducible refine Rests.answers ?_
      with_reducible exact h
    · with_reducible refine Rests.answers ?_
      with_reducible exact announceUp_rests (announceOn_rests (announceRoll_rests h))
  · lift_lets
    intro u1
    with_reducible refine Rests.answers_ite ?_ ?_
    · with_reducible refine Rests.answers ?_
      with_reducible exact announceForward_rests (Rests.foldl (bump_rests h) (fun s x h => announceOn_rests h))
    · with_reducible refine Rests.answers ?_
      with_reducible exact h

end Sys2Proof.Machine
end

section
/-! SUPPORT. The modes and the queue under the operations of the queues. -/

namespace Sys2Proof.Machine
open Sys2Proof

theorem hostWrite_rests {P s} {x0 x1} (h : Rests P s) : Rests P (hostWrite x0 x1 s) := by
  dsimp only [hostWrite]
  with_reducible exact emitAll_rests h

theorem putCq_rests {P s} {x0 x1} (h : Rests P s) : Rests P (putCq x0 x1 s) := by
  dsimp only [putCq]
  with_reducible exact Rests.mk h

theorem putRing_rests {P s} {x0 x1} (h : Rests P s) : Rests P (putRing x0 x1 s) := by
  dsimp only [putRing]
  with_reducible exact Rests.mk h

theorem writeEntry_rests {P s} {x0 x1} (h : Rests P s) : Rests P (writeEntry x0 x1 s) := by
  dsimp only [writeEntry]
  with_reducible exact fire_rests (putCq_rests (emit_rests h))

theorem lostNotice_rests {P s} {x0 x1 x2 x3 x4 x5} (h : Rests P s) : Rests P (lostNotice x0 x1 x2 x3 x4 x5 s) := by
  dsimp only [lostNotice]
  with_reducible exact Rests.ite h (Rests.ite (writeEntry_rests h) (bump_rests h))

end Sys2Proof.Machine
end

section
/-! SUPPORT. The modes and the queue under the operations of the casks. -/

namespace Sys2Proof.Machine
open Sys2Proof

theorem writePerformed_rests {R s} {x0 x1} (h : Calm R s) : Calm R (writePerformed x0 x1 s) := by
  dsimp only [writePerformed]
  with_reducible exact Rests.ite h (writeMem_rests (Calm.mk h))

theorem putCask_rests {P s} {x0 x1} (h : Rests P s) : Rests P (putCask x0 x1 s) := by
  dsimp only [putCask]
  with_reducible exact Rests.mk h

theorem putFlow_rests {P s} {x0 x1} (h : Rests P s) : Rests P (putFlow x0 x1 s) := by
  dsimp only [putFlow]
  with_reducible exact Rests.mk h

theorem updateGlobal_rests {P s} (h : Rests P s) : Rests P (updateGlobal s) := by
  dsimp only [updateGlobal]
  with_reducible exact Rests.ite (fire_rests (setSticky_rests (Rests.mk h))) (Rests.ite (Rests.mk h) (Rests.mk h))

theorem updateFlowLevel_rests {P s} {x0} (h : Rests P s) : Rests P (updateFlowLevel x0 s) := by
  dsimp only [updateFlowLevel]
  with_reducible exact Rests.ite (fire_rests (setSticky_rests (putFlow_rests h))) (Rests.ite (putFlow_rests h) (putFlow_rests h))

theorem updateRing_rests {P s} {x0} (h : Rests P s) : Rests P (updateRing x0 s) := by
  dsimp only [updateRing]
  with_reducible exact Rests.ite (fire_rests (setSticky_rests (putRing_rests h))) (Rests.ite (putRing_rests h) h)

theorem updateLevels_rests {P s} {x0 x1} (h : Rests P s) : Rests P (updateLevels x0 x1 s) := by
  dsimp only [updateLevels]
  with_reducible exact updateRing_rests (updateFlowLevel_rests (updateGlobal_rests h))

theorem showReleases_rests {P s} (h : Rests P s) : Rests P (showReleases s) := by
  unfold showReleases
  extract_lets u1 u2
  with_reducible exact Rests.ite h (Rests.foldl (updateGlobal_rests (Rests.mk h)) (fun s x h => updateFlowLevel_rests h))

theorem purgeStamps_rests {P s} {x0} (h : Rests P s) : Rests P (purgeStamps x0 s) := by
  unfold purgeStamps
  lift_lets
  intro u1
  split
  · with_reducible exact h
  · lift_lets
    intro u2 u3
    with_reducible exact addObj_rests (Rests.mk h)

theorem countLost_rests {P s} {x0 x1 x2 x3 x4 x5} (h : Rests P s) : Rests P (countLost x0 x1 x2 x3 x4 x5 s) := by
  unfold countLost
  extract_lets u1
  have h1 : Rests P u1 := bump_rests (bump_rests h)
  clear_value u1
  with_reducible exact purgeStamps_rests (lostNotice_rests (fire_rests (h1)))

theorem releaseCask_rests {P s} {x0} (h : Rests P s) : Rests P (releaseCask x0 s) := by
  unfold releaseCask
  lift_lets
  intro u1
  split
  · with_reducible exact h
  · lift_lets
    intro u2 u3
    have h3 : Rests P u3 := Rests.mk h
    clear_value u3
    with_reducible exact updateRing_rests (putCask_rests (h3))

theorem loseCask_rests {P s} {x0 x1} (h : Rests P s) : Rests P (loseCask x0 x1 s) := by
  dsimp only [loseCask]
  split
  · with_reducible exact h
  · split
    · with_reducible exact countLost_rests (releaseCask_rests h)
    · with_reducible exact releaseCask_rests h

theorem loseCasks_rests {P s} {x0 x1} (h : Rests P s) : Rests P (loseCasks x0 x1 s) := by
  induction x1 generalizing s with
  | nil => exact h
  | cons b t ih =>
    simp only [loseCasks]
    exact ih (loseCask_rests h)

theorem loseAllCasks_rests {P s} {x0} (h : Rests P s) : Rests P (loseAllCasks x0 s) := by
  dsimp only [loseAllCasks]
  with_reducible exact loseCasks_rests h

theorem reserveCask_rests {P s} {x0 x1 x2 x3} (h : Rests P s) : Rests P (reserveCask x0 x1 x2 x3 s).2 := by
  dsimp only [reserveCask]
  with_reducible exact updateLevels_rests (putCask_rests (takeChoice_rests h))

theorem touchPage_rests {P s} {x0 x1} (h : Rests P s) : Rests P (touchPage x0 x1 s).2 := by
  dsimp only [touchPage]
  split
  · with_reducible exact h
  · split
    · with_reducible exact h
    · with_reducible exact putCask_rests (takeChoice_rests h)

theorem writeCask_rests {R s} {x0 x1 x2} (h : Calm R s) : Calm R (writeCask x0 x1 x2 s) := by
  induction x2 generalizing x1 s with
  | nil => exact h
  | cons b t ih =>
    simp only [writeCask]
    split
    · exact h
    · exact ih (writePerformed_rests (touchPage_rests h))

theorem setCaskState_rests {P s} {x0 x1} (h : Rests P s) : Rests P (setCaskState x0 x1 s) := by
  dsimp only [setCaskState]
  split
  · with_reducible exact h
  · with_reducible exact updateRing_rests (putCask_rests h)

theorem putFrame_rests {P s} {x0} (h : Rests P s) : Rests P (putFrame x0 s) := by
  unfold putFrame
  extract_lets u1
  with_reducible exact Rests.mk h

theorem closeFrame_rests {P s} {x0 x1} (h : Rests P s) : Rests P (closeFrame x0 x1 s) := by
  unfold closeFrame
  split
  · with_reducible exact h
  · with_reducible exact Rests.ite (loseCask_rests h) (setCaskState_rests (putFrame_rests h))

theorem closeAll_rests {P s} {x0 x1} (h : Rests P s) : Rests P (closeAll x0 x1 s) := by
  induction x1 generalizing x0 s
  · rw [closeAll]
    with_reducible exact h
  · rename_i a t ih
    rw [closeAll]
    with_reducible exact ih (closeFrame_rests h)

theorem stopFlow_rests {P s} {x0} (h : Rests P s) : Rests P (stopFlow x0 s) := by
  unfold stopFlow
  with_reducible exact closeAll_rests h

theorem stopReceiving_rests {P s} (h : Rests P s) : Rests P (stopReceiving s) := by
  unfold stopReceiving
  with_reducible exact closeAll_rests h

theorem stopPort_rests {P s} {x0} (h : Rests P s) : Rests P (stopPort x0 s) := by
  unfold stopPort
  with_reducible exact closeAll_rests h

theorem invalidateSlot_rests {P s} {x0} (h : Rests P s) : Rests P (invalidateSlot x0 s) := by
  dsimp only [invalidateSlot]
  with_reducible exact Rests.foldl h (fun s x h => Rests.ite (Rests.mk (bump_rests h)) (loseCask_rests (bump_rests h)))

theorem execCaskRelease_rests {P s} {x0 x1} (h : Rests P s) : Answers (Rests P) (execCaskRelease x0 x1 s) := by
  dsimp only [execCaskRelease]
  split
  · with_reducible exact Rests.answers_ite (Rests.answers h) (Rests.answers_ite (Rests.answers (releaseCask_rests h)) (Rests.answers (loseCask_rests
                    h)))
  · with_reducible exact Rests.answers h

end Sys2Proof.Machine
end

section
/-! SUPPORT. The modes and the queue under the operations of the alignment of the hydrometer. -/

namespace Sys2Proof.Machine
open Sys2Proof

theorem hydroOpen_rests {P s} {x0 x1 x2 x3 x4} (h : Rests P s) : Rests P (hydroOpen x0 x1 x2 x3 x4 s).2 := by
  unfold hydroOpen
  extract_lets u1 u2 u3 u4 u5
  have h4 : Rests P u4.2 := Rests.ite_snd h (takeChoice_rests h)
  clear_value u4
  with_reducible exact Rests.ite_snd h (putFlow_rests (h4))

theorem restartAlign_rests {P s} {x0} (h : Rests P s) : Rests P (restartAlign x0 s) := by
  dsimp only [restartAlign]
  with_reducible exact Rests.mk h

end Sys2Proof.Machine
end

section
/-! SUPPORT. The modes and the queue under the operations of the hydrometer. -/

namespace Sys2Proof.Machine
open Sys2Proof

theorem putHydro_rests {P s} {x0 x1} (h : Rests P s) : Rests P (putHydro x0 x1 s) := by
  dsimp only [putHydro]
  with_reducible exact putFrame_rests h

theorem spoilReads_rests {P s} {x0} (h : Rests P s) : Rests P (spoilReads x0 s) := by
  unfold spoilReads
  extract_lets u1
  with_reducible exact Rests.mk h

theorem goldenUnfilled_rests {P s} {x0 x1} (h : Rests P s) : Rests P (goldenUnfilled s x0 x1).2 := by
  dsimp only [goldenUnfilled]
  exact Rests.ite_snd (takeChoice_rests (x0 := 2) h) h

theorem fileRecord_rests {P s} {x0 x1} (h : Rests P s) : Rests P (fileRecord x0 x1 s) := by
  unfold fileRecord
  extract_lets gen slot ref v t s1 y s2 s3 s4 s5 s6 s7 s8 bitOf
  have h2 : Rests P s2 := putObj_rests (Rests.mk (putBlob_rests h))
  clear_value s2
  have h5 : Rests P s5 := Rests.ite (putBlob_rests (Rests.ite (putBlob_rests (Rests.ite (putBlob_rests h2) h2)) (Rests.ite (putBlob_rests h2) h2)))
    (Rests.ite (putBlob_rests (Rests.ite (putBlob_rests h2) h2)) (Rests.ite (putBlob_rests h2) h2))
  clear_value s5
  have h6 : Rests P s6 := by
    clear_value t
    cases t
    · exact h5
    · exact Rests.ite (setSticky_rests (bump_rests h5)) h5
  clear_value s6
  have h8 : Rests P s8 := Rests.ite (bump_rests (Rests.ite (setSticky_rests (bump_rests h6)) h6)) (Rests.ite (setSticky_rests (bump_rests h6)) h6)
  clear_value s8
  exact Rests.ite (fire_rests (setSticky_rests (bump_rests h8))) (Rests.ite (fire_rests (setSticky_rests (bump_rests h8))) h8)

theorem execHydroCompare_rests {P s} {x0} (h : Rests P s) : Answers (Rests P) (execHydroCompare x0 s) := by
  dsimp only [execHydroCompare]
  split
  · with_reducible exact Rests.answers h
  · split
    · with_reducible exact Rests.answers h
    · with_reducible exact Rests.answers_ite (Rests.answers (putHydro_rests h)) (Rests.answers (putHydro_rests h))

theorem execGoldenReadReturn_rests {P s} {x0} (h : Rests P s) : Answers (Rests P) (execGoldenReadReturn x0 s) := by
  dsimp only [execGoldenReadReturn]
  split
  · with_reducible exact Rests.answers h
  · split
    · with_reducible exact Rests.answers h
    · with_reducible exact Rests.answers_ite (Rests.answers (putHydro_rests (bump_rests h))) (Rests.answers_ite (Rests.answers (putHydro_rests
                      (goldenUnfilled_rests h))) (Rests.answers (putHydro_rests (goldenUnfilled_rests h))))

theorem execGoldenDeadline_rests {P s} {x0} (h : Rests P s) : Answers (Rests P) (execGoldenDeadline x0 s) := by
  dsimp only [execGoldenDeadline]
  split
  · with_reducible exact Rests.answers h
  · split
    · with_reducible exact Rests.answers h
    · with_reducible exact Rests.answers (putHydro_rests (bump_rests h))

theorem execHydroClose_rests {P s} {x0} (h : Rests P s) : Answers (Rests P) (execHydroClose x0 s) := by
  dsimp only [execHydroClose]
  split
  · with_reducible exact Rests.answers h
  · with_reducible exact Rests.answers (putHydro_rests h)

theorem execSelftestDone_rests {P s} {x0 x1} (h : Rests P s) : Answers (Rests P) (execSelftestDone x0 x1 s) := by
  dsimp only [execSelftestDone]
  with_reducible exact Rests.answers_ite (Rests.answers (putObj_rests h)) (Rests.answers h)

end Sys2Proof.Machine
end

section
/-! SUPPORT. The modes and the queue under the operations of the cellar. -/

namespace Sys2Proof.Machine
open Sys2Proof

theorem setBoil_rests {P s} {x0 x1 x2} (h : Rests P s) : Rests P (setBoil x0 x1 x2 s) := by
  dsimp only [setBoil]
  with_reducible exact Rests.ite (bump_rests (putObj_rests h)) (Rests.ite (putObj_rests h) h)

theorem setDebt_rests {P s} {x0 x1 x2} (h : Rests P s) : Rests P (setDebt x0 x1 x2 s) := by
  dsimp only [setDebt]
  with_reducible exact Rests.ite (putObj_rests (Rests.mk h)) (Rests.mk h)

theorem forceRefresh_rests {P s} {x0} (h : Rests P s) : Rests P (forceRefresh x0 s) := by
  dsimp only [forceRefresh]
  with_reducible exact fire_rests (setSticky_rests (bump_rests h))

theorem refreshDue_rests {P s} {x0 x1} (h : Rests P s) : Rests P (refreshDue x0 x1 s) := by
  dsimp only [refreshDue]
  with_reducible exact Rests.ite (Rests.ite (forceRefresh_rests h) (setDebt_rests h)) (Rests.ite (setDebt_rests h) h)

theorem loseSlot_rests {q s} {x0 x1} (h : Waits q s) : Waits q (loseSlot x0 x1 s) := h

theorem assignSpare_rests {q s} {x0 x1 x2} (h : Waits q s) : Waits q (assignSpare x0 x1 x2 s) := by
  dsimp only [assignSpare]
  with_reducible exact Rests.ite (putObj_rests (loseSlot_rests (putObj_rests (putObj_rests (putObj_rests h))))) (Rests.ite (putObj_rests
                  (loseSlot_rests (Waits.mk (putObj_rests (putObj_rests (putObj_rests h)))))) (putObj_rests (putObj_rests (putObj_rests (putObj_rests
                  h)))))

theorem noteSpare_rests {P s} {x0 x1} (h : Rests P s) : Rests P (noteSpare x0 x1 s) := h

theorem pcLeaves_rests {q s} {x0} (h : Waits q s) : Waits q (pcLeaves x0 s) := by
  unfold pcLeaves
  extract_lets u1 u2 u3 u4 u5 u6
  have h3 : Waits q u3 := putObj_rests (putObj_rests (putObj_rests h))
  clear_value u3
  have h4 : Waits q u4 := fire_rests (setSticky_rests (h3))
  clear_value u4
  have h5 : Waits q u5 := Rests.ite (invalidateSlot_rests (h4)) (Rests.ite (spoilReads_rests (h4)) (h4))
  clear_value u5
  with_reducible refine Rests.ite ?_ ?_
  · with_reducible exact putObj_rests (h4)
  · split
    · with_reducible exact noteSpare_rests (assignSpare_rests (h5))
    · with_reducible exact Waits.mk (h5)

theorem pcFault_rests {q s} {x0 x1 x2} (h : Waits q s) : Waits q (pcFault x0 x1 x2 s) := by
  unfold pcFault
  extract_lets u1
  have h1 : Waits q u1.1 := recordFault_rests h
  clear_value u1
  with_reducible refine Rests.ite ?_ ?_
  · with_reducible exact h
  · split
    · with_reducible exact h1
    · with_reducible exact pcLeaves_rests (Rests.ite (h1) (bump_rests (h1)))
    · with_reducible exact bump_rests (h1)

theorem cellarReinstate_rests {P s} {x0 x1} (h : Rests P s) : Rests P (cellarReinstate x0 x1 s) := by
  dsimp only [cellarReinstate]
  with_reducible exact Rests.ite (putObj_rests (putObj_rests (putObj_rests (putObj_rests (dropRetired_rests h))))) h

theorem correctedReads_rests {P s} {x0 x1} (h : Rests P s) : Rests P (correctedReads x0 x1 s) := by
  dsimp only [correctedReads]
  with_reducible exact Rests.ite (fire_rests (setSticky_rests (Rests.mk (addObj_rests h)))) (Rests.mk (addObj_rests h))

theorem countRead_rests {P s} {x0 x1} (h : Rests P s) : Rests P (countRead x0 x1 s) := by
  unfold countRead
  extract_lets u1
  split
  · dsimp -zeta only [u1]
    with_reducible exact Rests.ite h (bump_rests h)
  · with_reducible refine Rests.ite ?_ ?_
    · with_reducible refine bump_rests ?_
      dsimp -zeta only [u1]
      with_reducible exact Rests.ite h (bump_rests h)
    · with_reducible refine correctedReads_rests ?_
      dsimp -zeta only [u1]
      with_reducible exact Rests.ite h (bump_rests h)
  · with_reducible refine bump_rests ?_
    dsimp -zeta only [u1]
    with_reducible exact Rests.ite h (bump_rests h)

theorem badRead_rests {q s} {x0 x1 x2 x3} (h : Waits q s) : Waits q (badRead x0 x1 x2 x3 s) := by
  dsimp only [badRead]
  with_reducible refine pcFault_rests ?_
  with_reducible refine Rests.ite ?_ ?_
  · split
    · with_reducible exact Waits.mk (Rests.ite (Waits.mk (countRead_rests (fire_rests (setSticky_rests (countRead_rests h))))) (countRead_rests
                      (fire_rests (setSticky_rests (countRead_rests h)))))
    · with_reducible exact Rests.ite (Waits.mk (countRead_rests (fire_rests (setSticky_rests (countRead_rests h))))) (countRead_rests (fire_rests
                      (setSticky_rests (countRead_rests h))))
  · with_reducible exact countRead_rests (fire_rests (setSticky_rests (countRead_rests h)))

theorem repairRow_rests {q s} {x0 x1 x2} (h : Waits q s) : Waits q (repairRow x0 x1 x2 s) := by
  dsimp only [repairRow]
  with_reducible exact Rests.ite (pcFault_rests (Waits.mk h)) (setSticky_rests (bump_rests (putObj_rests (Waits.mk h))))

theorem startTest_rests {q s} (h : Waits q s) : Waits q (startTest s) := by
  dsimp only [startTest]
  with_reducible exact Rests.foldl (putObj_rests (Waits.mk h)) (fun s x h => putObj_rests (Rests.ite (loseSlot_rests h) h))

theorem endTest_rests {P s} {x0} (h : Rests P s) : Rests P (endTest x0 s) := by
  dsimp only [endTest]
  with_reducible exact putObj_rests (Rests.mk (Rests.foldl (Rests.foldl h (fun s x h => Rests.ite (addObj_rests h) h)) (fun s x h => putObj_rests h)))

theorem execRefreshDue_rests {P s} {x0 x1} (h : Rests P s) : Answers (Rests P) (execRefreshDue x0 x1 s) := by
  dsimp only [execRefreshDue]
  with_reducible exact Rests.answers_ite (Rests.answers (refreshDue_rests h)) (Rests.answers h)

theorem execForcedRefresh_rests {P s} {x0 x1} (h : Rests P s) : Answers (Rests P) (execForcedRefresh x0 x1 s) := by
  dsimp only [execForcedRefresh]
  with_reducible exact Rests.answers_ite (Rests.answers (forceRefresh_rests (setDebt_rests h))) (Rests.answers h)

theorem execRefreshRepayment_rests {P s} {x0 x1} (h : Rests P s) : Answers (Rests P) (execRefreshRepayment x0 x1 s) := by
  dsimp only [execRefreshRepayment]
  with_reducible exact Rests.answers_ite (Rests.answers (setDebt_rests h)) (Rests.answers h)

theorem execCeThreshold_rests {P s} {x0 x1} (h : Rests P s) : Answers (Rests P) (execCeThreshold x0 x1 s) := by
  dsimp only [execCeThreshold]
  with_reducible exact Rests.answers_ite (Rests.answers (correctedReads_rests h)) (Rests.answers h)

theorem execSpareFillComplete_rests {P s} {x0} (h : Rests P s) : Answers (Rests P) (execSpareFillComplete x0 s) := by
  dsimp only [execSpareFillComplete]
  with_reducible exact Rests.answers_ite (Rests.answers (putObj_rests h)) (Rests.answers h)

theorem execReadRecalibration_rests {P s} {x0} (h : Rests P s) : Answers (Rests P) (execReadRecalibration x0 s) := by
  dsimp only [execReadRecalibration]
  with_reducible exact Rests.answers h

theorem execCellarTestDone_rests {P s} {x0} (h : Rests P s) : Answers (Rests P) (execCellarTestDone x0 s) := by
  dsimp only [execCellarTestDone]
  with_reducible exact Rests.answers_ite (Rests.answers (endTest_rests h)) (Rests.answers h)

end Sys2Proof.Machine
end

section
/-! SUPPORT. The modes and the queue under the operations of the underback. -/

namespace Sys2Proof.Machine
open Sys2Proof

theorem putUb_rests {P s} {x0 x1} (h : Rests P s) : Rests P (putUb x0 x1 s) := by
  dsimp only [putUb]
  with_reducible exact Rests.mk h

theorem ubClock_rests {P s} {x0} (h : Rests P s) : Rests P (ubClock x0 s) := by
  dsimp only [ubClock]
  with_reducible exact Rests.ite (fire_rests (setSticky_rests (bump_rests (putObj_rests (Rests.ite (putObj_rests h) h))))) (Rests.ite (fire_rests
                  (putObj_rests (Rests.ite (putObj_rests h) h))) (Rests.ite (putObj_rests h) h))

theorem passNotice_rests {P s} {x0} (h : Rests P s) : Rests P (passNotice x0 s) := by
  dsimp only [passNotice]
  with_reducible exact Rests.mk h

theorem putRegion_rests {P s} {x0 x1} (h : Rests P s) : Rests P (putRegion x0 x1 s) := by
  dsimp only [putRegion]
  with_reducible exact Rests.mk h

theorem updateBoil_rests {P s} (h : Rests P s) : Rests P (updateBoil s) := by
  dsimp only [updateBoil]
  with_reducible exact Rests.ite (setBoil_rests (fire_rests (setSticky_rests (Rests.mk h)))) (Rests.ite (setBoil_rests (Rests.mk h)) h)

theorem dropStaged_rests {P s} {x0 x1} (h : Rests P s) : Rests P (dropStaged x0 x1 s) := by
  dsimp only [dropStaged]
  with_reducible exact updateBoil_rests (putRegion_rests h)

theorem ubCut_rests {P s} {x0 x1 x2} (h : Rests P s) : Rests P (ubCut x0 x1 x2 s) := by
  unfold ubCut
  extract_lets u1 u2 u3 u4 u5 u6 u7
  have h4 : Rests P u4.2 := laneNow_rests h
  clear_value u4
  have h6 : Rests P u6 := by
    dsimp only [u6]
    split
    · with_reducible exact putUb_rests h
    · with_reducible exact bump_rests (putUb_rests (h4))
  clear_value u6
  have h7 : Rests P u7 := setSticky_rests (addObj_rests (bump_rests (h6)))
  clear_value u7
  with_reducible exact passNotice_rests (h7)

theorem ubDiscard_rests {P s} {x0 x1} (h : Rests P s) : Rests P (ubDiscard x0 x1 s) := by
  dsimp only [ubDiscard]
  with_reducible exact passNotice_rests (bump_rests (putUb_rests h))

theorem ubRewind_rests {P s} {x0 x1} (h : Rests P s) : Rests P (ubRewind x0 x1 s) := ubDiscard_rests (setSticky_rests h)

theorem flushNotices_rests {P s} {x0 x1} (h : Rests P s) : Rests P (flushNotices x0 x1 s) := by
  induction x1 generalizing s with
  | nil => exact h
  | cons b t ih =>
    simp only [flushNotices]
    exact ih (passNotice_rests (setSticky_rests (bump_rests h)))

theorem ubFlush_rests {P s} {x0} (h : Rests P s) : Rests P (ubFlush x0 s) := by
  dsimp only [ubFlush]
  with_reducible exact ubClock_rests (flushNotices_rests (putUb_rests h))

theorem ubFlushLane_rests {P s} {x0} (h : Rests P s) : Rests P (ubFlushLane x0 s) := by
  dsimp only [ubFlushLane]
  with_reducible exact ubFlush_rests h

theorem ubLaneLost_rests {P s} {x0} (h : Rests P s) : Rests P (ubLaneLost x0 s) := by
  dsimp only [ubLaneLost]
  split
  · with_reducible exact h
  · with_reducible exact Rests.ite (putUb_rests h) (ubClock_rests (ubRewind_rests h))

theorem ubEmpty_rests {P s} {x0} (h : Rests P s) : Rests P (ubEmpty x0 s) := by
  dsimp only [ubEmpty]
  with_reducible exact ubClock_rests (putUb_rests h)

theorem ubRetire_rests {P s} {x0} (h : Rests P s) : Rests P (ubRetire x0 s) := by
  unfold ubRetire
  extract_lets u1
  have h1 : Rests P u1 := ubLaneLost_rests h
  clear_value u1
  with_reducible exact ubEmpty_rests (Rests.foldl (h1) (fun s x h => dropStaged_rests h))

theorem emptyUnderbacks_rests {P s} (h : Rests P s) : Rests P (emptyUnderbacks s) := by
  unfold emptyUnderbacks
  extract_lets u1 u2
  have h1 : Rests P u1 := Rests.foldl h (fun s x h => Rests.ite h (ubEmpty_rests h))
  clear_value u1
  with_reducible exact updateBoil_rests (Rests.mk (h1))

theorem stageWord_rests {P s} {x0 x1 x2} (h : Rests P s) : Rests P (stageWord x0 x1 x2 s) := by
  unfold stageWord
  extract_lets u1 u2 u3 u4
  with_reducible exact updateBoil_rests (putRegion_rests h)

theorem countCheck_rests {P s} {x0 x1} (h : Rests P s) : Rests P (countCheck x0 x1 s) := by
  unfold countCheck
  split
  · with_reducible exact h
  · with_reducible exact bump_rests h
  · with_reducible exact setSticky_rests (bump_rests h)
  · with_reducible exact setSticky_rests (bump_rests h)

theorem crossRead_rests {P s} {x0 x1} (h : Rests P s) : Rests P (crossRead x0 x1 s) := by
  unfold crossRead
  lift_lets
  intro u1 u2
  split
  · with_reducible exact setSticky_rests (bump_rests h)
  · lift_lets
    intro u3 u4
    have h4 : Rests P u4 := countCheck_rests (putUb_rests h)
    clear_value u4
    intro u5
    with_reducible refine Rests.ite ?_ ?_
    · split
      · with_reducible exact Rests.ite (putRegion_rests (h4)) (h4)
      · with_reducible exact h4
    · with_reducible refine Rests.ite ?_ ?_
      · with_reducible exact h
      · split
        · with_reducible exact countCheck_rests (putUb_rests h)
        · with_reducible exact Rests.ite (stageWord_rests (countCheck_rests (putUb_rests h))) (ubDiscard_rests (countCheck_rests (putUb_rests h)))

theorem writeWord_rests {P s} {x0 x1} (h : Rests P s) : Rests P (writeWord x0 x1 s) := by
  dsimp only [writeWord]
  with_reducible exact putUb_rests h

theorem feedWord_rests {P s} {x0 x1 x2 x3} (h : Rests P s) : Rests P (feedWord x0 x1 x2 x3 s) := by
  unfold feedWord
  extract_lets u1 u2
  have h2 : Rests P u2 := crossRead_rests h
  clear_value u2
  with_reducible exact Rests.ite (ubClock_rests (writeWord_rests h)) (Rests.ite (ubClock_rests (ubCut_rests (h2))) (ubClock_rests (writeWord_rests
                  (h2))))

theorem feedAll_rests {P s} {x0 x1 x2} (h : Rests P s) : Rests P (feedAll x0 x1 x2 s) := by
  induction x2 generalizing s with
  | nil => exact h
  | cons b t ih =>
    cases t with
    | nil => exact h
    | cons b' t =>
      simp only [feedAll]
      exact Rests.ite (ih (feedWord_rests h)) h

theorem feedCur_rests {P s} {x0 x1} (h : Rests P s) : Rests P (feedCur x0 x1 s) := by
  dsimp only [feedCur]
  with_reducible exact feedAll_rests h

theorem makeRoom_rests {P s} {x0} (h : Rests P s) : Rests P (makeRoom x0 s) := by
  unfold makeRoom
  with_reducible exact Rests.ite (crossRead_rests h) h

theorem commitLast_rests {P s} {x0 x1} (h : Rests P s) : Rests P (commitLast x0 x1 s) := by
  unfold commitLast
  extract_lets u1 u2 u3 u4 u5 u6 u7
  have h3 : Rests P u3 := makeRoom_rests h
  clear_value u3
  have h6 : Rests P u6 := bump_rests (putUb_rests (h3))
  clear_value u6
  have h7 : Rests P u7 := by
    dsimp only [u7]
    split
    · with_reducible exact bump_rests (h6)
    · with_reducible exact h6
  clear_value u7
  with_reducible exact Rests.ite (ubClock_rests (ubCut_rests (h3))) (ubClock_rests (h7))

theorem ubFinish_rests {P s} {x0} (h : Rests P s) : Rests P (ubFinish x0 s) := by
  unfold ubFinish
  lift_lets
  intro u1
  split
  · with_reducible exact h
  · lift_lets
    intro u2
    have h2 : Rests P u2 := feedCur_rests h
    clear_value u2
    intro u3
    have h3 : Rests P u3 := makeRoom_rests (h2)
    clear_value u3
    with_reducible exact Rests.ite (putUb_rests h) (Rests.ite (h2) (Rests.ite (Rests.ite (ubClock_rests (ubCut_rests (h3))) (ubClock_rests
                    (ubRewind_rests (h3)))) (commitLast_rests (h2))))

theorem ubStart_rests {P s} {x0 x1 x2 x3 x4 x5 x6} (h : Rests P s) : Rests P (ubStart x0 x1 x2 x3 x4 x5 x6 s) := by
  dsimp only [ubStart]
  with_reducible exact putUb_rests (ubFinish_rests h)

theorem execPacketCommit_rests {P s} {x0} (h : Rests P s) : Answers (Rests P) (execPacketCommit x0 s) := by
  dsimp only [execPacketCommit]
  split
  · with_reducible exact Rests.answers_ite (Rests.answers h) (Rests.answers (ubFinish_rests h))
  · with_reducible exact Rests.answers h

theorem execPacketRewind_rests {P s} {x0} (h : Rests P s) : Answers (Rests P) (execPacketRewind x0 s) := by
  dsimp only [execPacketRewind]
  split
  · with_reducible exact Rests.answers_ite (Rests.answers (ubFinish_rests h)) (Rests.answers h)
  · with_reducible exact Rests.answers h

theorem fillChain_rests {P s} {x0 x1 x2} (h : Rests P s) : Rests P (fillChain x0 x1 x2 s).1 := by
  induction x2 generalizing s with
  | nil => exact h
  | cons b t ih =>
    cases t with
    | nil => exact h
    | cons b' t =>
      simp only [fillChain]
      exact Rests.ite_fst h (ih (ubClock_rests (writeWord_rests h)))

theorem execChainFullCut_rests {P s} {x0} (h : Rests P s) : Answers (Rests P) (execChainFullCut x0 s) := by
  dsimp only [execChainFullCut]
  split
  · with_reducible exact Rests.answers h
  · with_reducible exact Rests.answers_ite (Rests.answers h) (Rests.answers_ite (Rests.answers (ubClock_rests (ubCut_rests (fillChain_rests h))))
                    (Rests.answers h))

theorem ubStep_rests {P s} {x0 x1 x2 x3} (h : Rests P s) : Rests P (ubStep x0 x1 x2 x3 s) := by
  unfold ubStep
  lift_lets
  intro u1
  with_reducible refine Rests.ite ?_ ?_
  · with_reducible refine crossRead_rests ?_
    dsimp -zeta only [u1]
    lift_lets
    intro u2
    split
    · with_reducible exact h
    · with_reducible exact Rests.ite (ubCut_rests h) (writeWord_rests (putUb_rests h))
  · dsimp -zeta only [u1]
    lift_lets
    intro u3
    split
    · with_reducible exact crossRead_rests h
    · with_reducible exact Rests.ite (ubCut_rests (crossRead_rests h)) (writeWord_rests (putUb_rests (crossRead_rests h)))

theorem execCrossingRead_rests {P s} {x0 x1} (h : Rests P s) : Answers (Rests P) (execCrossingRead x0 x1 s) := by
  unfold execCrossingRead
  extract_lets u1
  with_reducible refine Rests.answers ?_
  with_reducible refine ubClock_rests ?_
  split
  · with_reducible exact ubStep_rests h
  · with_reducible exact crossRead_rests h

end Sys2Proof.Machine
end

section
/-! SUPPORT. The modes and the queue under the operations of the lanes. -/

namespace Sys2Proof.Machine
open Sys2Proof

theorem putLaneX_rests {P s} {x0 x1} (h : Rests P s) : Rests P (putLaneX x0 x1 s) := by
  dsimp only [putLaneX]
  with_reducible exact Rests.mk h

theorem putPortX_rests {P s} {x0 x1} (h : Rests P s) : Rests P (putPortX x0 x1 s) := by
  dsimp only [putPortX]
  with_reducible exact Rests.mk h

theorem updatePort_rests {P s} {x0} (h : Rests P s) : Rests P (updatePort x0 s) := by
  dsimp only [updatePort]
  with_reducible exact Rests.ite (Rests.ite (putPortX_rests h) (emit_rests (putPortX_rests h))) (fire_rests (Rests.ite (putPortX_rests h) (emit_rests
                  (putPortX_rests h))))

theorem updateLanePort_rests {P s} {x0} (h : Rests P s) : Rests P (updateLanePort x0 s) := by
  dsimp only [updateLanePort]
  with_reducible exact updatePort_rests h

theorem dropAlign_rests {P s} {x0 x1} (h : Rests P s) : Rests P (dropAlign x0 x1 s) := by
  dsimp only [dropAlign]
  with_reducible exact putPortX_rests h

theorem zeroTaps_rests {P s} {x0 x1} (h : Rests P s) : Rests P (zeroTaps x0 x1 s) := by
  induction x1 generalizing x0 s
  · rw [zeroTaps]
    with_reducible exact h
  · rename_i n ih
    rw [zeroTaps]
    with_reducible exact putLane_rests (ih h)

theorem setLaneState_rests {P s} {x0 x1} (h : Rests P s) : Rests P (setLaneState x0 x1 s) := by
  unfold setLaneState
  extract_lets u1 u2 u3 u4 u5 u6 u7 u8 u9 u10
  have h3 : Rests P u3 := putLane_rests h
  clear_value u3
  have h4 : Rests P u4 := Rests.ite (h3) (putLane_rests (putLane_rests (h3)))
  clear_value u4
  have h5 : Rests P u5 := Rests.ite (h4) (putLane_rests (h4))
  clear_value u5
  have h6 : Rests P u6 := Rests.ite (zeroTaps_rests (h5)) (h5)
  clear_value u6
  have h7 : Rests P u7 := Rests.ite (h6) (putLane_rests (h6))
  clear_value u7
  have h8 : Rests P u8 := putLaneX_rests (h7)
  clear_value u8
  have h9 : Rests P u9 := Rests.ite (bumpLane_rests (h8)) (h8)
  clear_value u9
  have h10 : Rests P u10 := Rests.ite (dropAlign_rests (ubLaneLost_rests (h9))) (h9)
  clear_value u10
  with_reducible exact updateLanePort_rests (h10)

theorem enterSignalWait_rests {P s} {x0} (h : Rests P s) : Rests P (enterSignalWait x0 s) := by
  dsimp only [enterSignalWait]
  with_reducible exact Rests.ite (setLaneState_rests (setLaneState_rests h)) (setLaneState_rests h)

theorem afterPll_rests {P s} {x0} (h : Rests P s) : Rests P (afterPll x0 s) := by
  dsimp only [afterPll]
  with_reducible exact setLaneState_rests h

theorem selfCheck_rests {P s} {x0} (h : Rests P s) : Rests P (selfCheck x0 s) := by
  unfold selfCheck
  extract_lets u1
  have h1 : Rests P u1 := setLaneState_rests h
  clear_value u1
  with_reducible exact Rests.ite (setLaneState_rests (h1)) (setLaneState_rests (h1))

theorem putRef_rests {P s} {x0 x1 x2} (h : Rests P s) : Rests P (putRef x0 x1 x2 s) := by
  unfold putRef
  extract_lets u1
  with_reducible exact Rests.mk h

theorem settlePll_rests {P s} {x0} (h : Rests P s) : Rests P (settlePll x0 s) := by
  dsimp only [settlePll]
  with_reducible exact Rests.ite (putObj_rests (putObj_rests h)) h

theorem recordNoRetire_rests {P s} {x0 x1 x2} (h : Rests P s) : Rests P (recordNoRetire x0 x1 x2 s) := by
  dsimp only [recordNoRetire]
  with_reducible exact addLog_rests (Rests.mk h)

theorem cascadeLanesOut_rests {P s} {x0} (h : Rests P s) : Rests P (cascadeLanesOut x0 s) := by
  unfold cascadeLanesOut
  extract_lets u1 u2
  have h1 : Rests P u1 := Rests.foldl h (fun s x h => setLaneState_rests h)
  clear_value u1
  with_reducible exact Rests.ite (setBhLocked_rests (Rests.mk (h1))) (h1)

theorem retireCascade_rests {P s} {x0} (h : Rests P s) : Rests P (retireCascade x0 s) := by
  unfold retireCascade
  with_reducible exact Rests.ite h (cascadeLanesOut_rests (addRetired_rests (addLog_rests h)))

theorem laneOut_rests {P s} {x0 x1} (h : Rests P s) : Rests P (laneOut x0 x1 s) := by
  unfold laneOut
  extract_lets u1 u2
  have h1 : Rests P u1 := putLane_rests (stickyLane_rests h)
  clear_value u1
  have h2 : Rests P u2 := stopPort_rests (ubRetire_rests (setLaneState_rests (h1)))
  clear_value u2
  with_reducible exact settlePll_rests (Rests.ite (retireCascade_rests (h2)) (h2))

theorem relockOthers_rests {P s} {x0} (h : Rests P s) : Rests P (relockOthers x0 s) := by
  unfold relockOthers
  lift_lets
  intro u1
  with_reducible refine Rests.ite ?_ ?_
  · with_reducible refine Rests.foldl ?_ ?_
    · with_reducible exact h
    · intro t2 x2 h2
      lift_lets
      intro u3 u4
      have h4 : Rests P u4 := bumpLane_rests (selfCheck_rests (h2))
      clear_value u4
      intro u5
      with_reducible exact Rests.ite (putLaneX_rests (h4)) (h2)
  · with_reducible exact h

theorem relockLane_rests {P s} {x0 x1} (h : Rests P s) : Rests P (relockLane x0 x1 s) := by
  unfold relockLane
  extract_lets u1 u2 u3 u4
  have h1 : Rests P u1 := bumpLane_rests h
  clear_value u1
  have h3 : Rests P u3 := Rests.ite (setLaneState_rests (h1)) (selfCheck_rests (h1))
  clear_value u3
  with_reducible exact Rests.ite (putLaneX_rests (setLaneState_rests (h1))) (relockOthers_rests (putLaneX_rests (h3)))

theorem cascadeBack_rests {P s} {x0} (h : Rests P s) : Rests P (cascadeBack x0 s) := by
  unfold cascadeBack
  extract_lets u1 u2 u3
  have h3 : Rests P u3 := dropRetired_rests (Rests.mk h)
  clear_value u3
  with_reducible exact Rests.ite (Rests.foldl (h3) (fun s x h => Rests.ite (setLaneState_rests h) h)) h

theorem sameTickFault_rests {P s} {x0 x1} (h : Rests P s) : Rests P (sameTickFault x0 x1 s) := by
  unfold sameTickFault
  extract_lets u1 u2 u3 u4 u5 u6 u7 u8 u9 u10 u11
  have h2 : Rests P u2 := putLane_rests h
  clear_value u2
  have h7 : Rests P u7 := relabelFault_rests (h2)
  clear_value u7
  have h9 : Rests P u9 := dropRetired_rests (h7)
  clear_value u9
  have h11 : Rests P u11 := Rests.mk (h9)
  clear_value u11
  with_reducible exact Rests.ite h (Rests.ite (relockLane_rests (cascadeBack_rests (putLane_rests (h11)))) (Rests.ite (Rests.ite (putLane_rests (h7))
                  (laneOut_rests (addRetired_rests (h7)))) (Rests.ite (h7) (relockLane_rests (h7)))))

theorem recordLaneFault_rests {P s} {x0 x1} (h : Rests P s) : Rests P (recordLaneFault x0 x1 s) := by
  unfold recordLaneFault
  extract_lets u1
  have h1 : Rests P u1 := fire_rests (putLane_rests (bumpLane_rests h))
  clear_value u1
  with_reducible refine Rests.ite ?_ ?_
  · with_reducible exact relockLane_rests (recordNoRetire_rests (h1))
  · split
    · rename_i e2
      have h2 := Rests.of_fst e2 (recordFault_rests (h1))
      with_reducible exact relockOthers_rests (laneOut_rests (h2))
    · rename_i e3
      have h3 := Rests.of_fst e3 (recordFault_rests (h1))
      with_reducible exact relockLane_rests (h3)
    · rename_i e4
      have h4 := Rests.of_fst e4 (recordFault_rests (h1))
      with_reducible exact h4
    · rename_i e5
      have h5 := Rests.of_fst e5 (recordFault_rests (h1))
      with_reducible exact h5

theorem laneFault_rests {P s} {x0 x1} (h : Rests P s) : Rests P (laneFault x0 x1 s) := by
  unfold laneFault
  extract_lets u1
  with_reducible exact Rests.ite (sameTickFault_rests h) (Rests.ite h (Rests.ite (Rests.ite (setLaneState_rests h) h) (recordLaneFault_rests h)))

theorem startLane_rests {P s} {x0} (h : Rests P s) : Rests P (startLane x0 s) := by
  unfold startLane
  extract_lets u1 u2
  have h2 : Rests P u2 := putLaneX_rests (setLaneState_rests h)
  clear_value u2
  with_reducible exact Rests.ite (laneFault_rests (h2)) (Rests.ite (afterPll_rests (h2)) (h2))

theorem resumeLane_rests {P s} {x0} (h : Rests P s) : Rests P (resumeLane x0 s) := by
  unfold resumeLane
  with_reducible exact Rests.ite (enterSignalWait_rests h) (selfCheck_rests h)

theorem relane_rests {P s} {x0} (h : Rests P s) : Rests P (relane x0 s) := by
  unfold relane
  extract_lets u1 u2
  with_reducible exact Rests.ite (Rests.ite h (setLaneState_rests h)) (Rests.ite h (Rests.ite (setLaneState_rests h) (Rests.ite (Rests.ite
                  (setLaneState_rests h) (Rests.ite h (startLane_rests h))) (Rests.ite h (Rests.ite (resumeLane_rests h) (startLane_rests h))))))

theorem relaneList_rests {P s} {x0} (h : Rests P s) : Rests P (relaneList x0 s) := by
  dsimp only [relaneList]
  with_reducible exact Rests.foldl (Rests.foldl h (fun s x h => relane_rests h)) (fun s x h => Rests.ite (settlePll_rests h) h)

theorem relaneAll_rests {P s} (h : Rests P s) : Rests P (relaneAll s) := by
  dsimp only [relaneAll]
  with_reducible exact relaneList_rests h

theorem restartLane_rests {P s} {x0} (h : Rests P s) : Rests P (restartLane x0 s) := by
  unfold restartLane
  extract_lets u1
  with_reducible exact selfCheck_rests (putLaneX_rests h)

theorem reinstateLane_rests {P s} {x0} (h : Rests P s) : Rests P (reinstateLane x0 s) := by
  dsimp only [reinstateLane]
  with_reducible exact Rests.ite h (Rests.ite (ubFlushLane_rests (putLane_rests (dropRetired_rests h))) (Rests.ite (setLaneState_rests
                  (ubFlushLane_rests (putLane_rests (dropRetired_rests h)))) (startLane_rests (ubFlushLane_rests (putLane_rests (dropRetired_rests
                  h))))))

theorem reinstateCascade_rests {P s} {x0} (h : Rests P s) : Rests P (reinstateCascade x0 s) := by
  dsimp only [reinstateCascade]
  with_reducible exact Rests.ite h (Rests.foldl (dropRetired_rests h) (fun s x h => Rests.ite h (startLane_rests h)))

theorem quadRestart_rests {P s} {x0} (h : Rests P s) : Rests P (quadRestart x0 s) := by
  dsimp only [quadRestart]
  with_reducible exact Rests.foldl (Rests.foldl (Rests.foldl (putObj_rests (putObj_rests h)) (fun s x h => ubEmpty_rests h)) (fun s x h => Rests.ite
                  (setLaneState_rests h) (Rests.ite (setLaneState_rests h) (startLane_rests h)))) (fun s x h => updatePort_rests (Rests.ite
                  (setSticky_rests (dropAlign_rests h)) (dropAlign_rests h)))

theorem setQuadMode_rests {P s} {x0 x1} (h : Rests P s) : Rests P (setQuadMode x0 x1 s) := by
  dsimp only [setQuadMode]
  with_reducible exact quadRestart_rests (putObj_rests h)

theorem lineRate_rests {P s} {x0 x1} (h : Rests P s) : Rests P (lineRate x0 x1 s).2 := by
  dsimp only [lineRate]
  split
  · with_reducible exact h
  · with_reducible exact h
  · dsimp only
    with_reducible exact takeChoice_rests h
  · with_reducible exact h

theorem lineBits_rests {P s} {x0 x1 x2} (h : Rests P s) : Rests P (lineBits x0 x1 x2 s) := by
  induction x1 generalizing x0 x2 s
  · rw [lineBits]
    with_reducible exact h
  · rename_i n ih
    rw [lineBits]
    lift_lets
    intro u1 u2 u3
    have h3 : Rests P u3 := putLaneX_rests h
    clear_value u3
    intro u4
    have h4 : Rests P u4 := addObj_rests (h3)
    clear_value u4
    intro u5
    have h5 : Rests P u5 := putLane_rests (h4)
    clear_value u5
    intro u6
    have h6 : Rests P u6 := Rests.ite (Rests.ite (h5) (setLaneState_rests (h5))) (Rests.ite (laneFault_rests (stickyLane_rests (h5))) (h5))
    clear_value u6
    with_reducible exact Rests.ite h (ih (h6))

theorem chkRun_rests {P s} {x0 x1} (h : Rests P s) : Rests P (chkRun x0 x1 s) := by
  dsimp only [chkRun]
  with_reducible exact Rests.ite h (Rests.ite (stickyLane_rests (addObj_rests (addObj_rests (putLane_rests (putLaneX_rests h))))) (addObj_rests
                  (addObj_rests (putLane_rests (putLaneX_rests h)))))

theorem genSeed_rests {P s} {x0} (h : Rests P s) : Rests P (genSeed x0 s).2 := by
  unfold genSeed
  extract_lets u1
  have h1 : Rests P u1.2 := takeFree_rests h
  clear_value u1
  with_reducible exact h1

theorem genRun_rests {P s} {x0 x1} (h : Rests P s) : Rests P (genRun x0 x1 s).2 := by
  unfold genRun
  extract_lets u1 u2 u3 u4
  have h3 : Rests P u3.2 := Rests.ite_snd (genSeed_rests h) h
  clear_value u3
  with_reducible exact addObj_rests (putLaneX_rests (h3))

theorem testSends_rests {P s} {x0 x1} (h : Rests P s) : Rests P (testSends x0 x1 s).2 := by
  unfold testSends
  with_reducible exact Rests.ite_snd h (Rests.ite_snd h (genRun_rests h))

theorem testRun_rests {P s} {x0 x1} (h : Rests P s) : Rests P (testRun x0 x1 s) := by
  unfold testRun
  extract_lets u1 u2 u3
  have h1 : Rests P u1.2 := testSends_rests h
  clear_value u1
  have h3 : Rests P u3 := Rests.ite (h1) (emit_rests (h1))
  clear_value u3
  with_reducible exact chkRun_rests (h3)

theorem prbsInject_rests {P s} {x0} (h : Rests P s) : Rests P (prbsInject x0 s) := by
  dsimp only [prbsInject]
  with_reducible exact Rests.ite (bumpLane_rests (putLaneX_rests h)) h

theorem prbsClear_rests {P s} {x0} (h : Rests P s) : Rests P (prbsClear x0 s) := by
  dsimp only [prbsClear]
  with_reducible exact putLane_rests (putLane_rests (putLane_rests h))

theorem laneConfigured_rests {P s} {x0} (h : Rests P s) : Rests P (laneConfigured x0 s) := by
  dsimp only [laneConfigured]
  with_reducible exact Rests.ite h (Rests.ite (restartLane_rests h) (relaneList_rests h))

theorem testWritten_rests {P s} {x0} (h : Rests P s) : Rests P (testWritten x0 s) := by
  dsimp only [testWritten]
  with_reducible exact Rests.ite (Rests.ite (startLane_rests (putLane_rests (putLaneX_rests h))) (relaneList_rests (putLane_rests (putLaneX_rests
                  h)))) h

theorem execQuadPllLock_rests {P s} {x0 x1} (h : Rests P s) : Answers (Rests P) (execQuadPllLock x0 x1 s) := by
  unfold execQuadPllLock
  extract_lets u1 u2 u3 u4
  have h2 : Rests P u2.2 := lineRate_rests h
  clear_value u2
  have h3 : Rests P u3 := putObj_rests (putObj_rests (h2))
  clear_value u3
  have h4 : Rests P u4 := putRef_rests (h3)
  clear_value u4
  with_reducible refine Rests.answers_ite ?_ ?_
  · with_reducible refine Rests.answers ?_
    with_reducible exact h
  · with_reducible refine Rests.answers ?_
    with_reducible exact Rests.foldl (h4) (fun s x h => Rests.ite (afterPll_rests h) h)

theorem execPllLockTimeout_rests {P s} {x0} (h : Rests P s) : Answers (Rests P) (execPllLockTimeout x0 s) := by
  unfold execPllLockTimeout
  extract_lets u1 u2 u3
  have h3 : Rests P u3 := setSticky_rests h
  clear_value u3
  with_reducible refine Rests.answers_ite ?_ ?_
  · with_reducible refine Rests.answers ?_
    with_reducible exact h
  · with_reducible refine Rests.answers ?_
    with_reducible exact Rests.foldl (h3) (fun s x h => Rests.ite (sameTickFault_rests h) (recordLaneFault_rests h))

theorem quadRefLost_rests {P s} {x0} (h : Rests P s) : Rests P (quadRefLost x0 s) := by
  unfold quadRefLost
  extract_lets u1 u2
  have h1 : Rests P u1 := setSticky_rests h
  clear_value u1
  have h2 : Rests P u2 := putObj_rests (putObj_rests (h1))
  clear_value u2
  with_reducible exact Rests.foldl (h2) (fun s x h => Rests.ite h (Rests.ite h (laneFault_rests h)))

theorem execReferenceLost_rests {P s} {x0} (h : Rests P s) : Answers (Rests P) (execReferenceLost x0 s) := by
  unfold execReferenceLost
  extract_lets u1
  have h1 : Rests P u1 := putRef_rests h
  clear_value u1
  with_reducible refine Rests.answers_ite ?_ ?_
  · with_reducible refine Rests.answers ?_
    with_reducible exact h
  · with_reducible refine Rests.answers ?_
    with_reducible exact Rests.foldl (h1) (fun s x h => quadRefLost_rests h)

theorem execReferenceReturn_rests {P s} {x0} (h : Rests P s) : Answers (Rests P) (execReferenceReturn x0 s) := by
  unfold execReferenceReturn
  lift_lets
  intro u1
  with_reducible refine Rests.answers ?_
  with_reducible refine Rests.foldl ?_ ?_
  · with_reducible exact putRef_rests h
  · intro t2 x2 h2
    lift_lets
    intro u3
    with_reducible exact putLaneX_rests (h2)

theorem execSelfCheckDone_rests {P s} {x0 x1} (h : Rests P s) : Answers (Rests P) (execSelfCheckDone x0 x1 s) := by
  dsimp only [execSelfCheckDone]
  with_reducible exact Rests.answers_ite (Rests.answers h) (Rests.answers_ite (Rests.answers (enterSignalWait_rests h)) (Rests.answers
                  (laneFault_rests (stickyLane_rests h))))

theorem execSignalDetect_rests {P s} {x0} (h : Rests P s) : Answers (Rests P) (execSignalDetect x0 s) := by
  dsimp only [execSignalDetect]
  with_reducible exact Rests.answers_ite (Rests.answers (setLaneState_rests (putLane_rests h))) (Rests.answers (putLane_rests h))

theorem execLossOfSignal_rests {P s} {x0} (h : Rests P s) : Answers (Rests P) (execLossOfSignal x0 s) := by
  dsimp only [execLossOfSignal]
  with_reducible exact Rests.answers_ite (Rests.answers h) (Rests.answers_ite (Rests.answers (laneFault_rests (stickyLane_rests (bumpLane_rests
                  (putLane_rests h))))) (Rests.answers (stickyLane_rests (bumpLane_rests (putLane_rests h)))))

theorem execCdrLock_rests {P s} {x0} (h : Rests P s) : Answers (Rests P) (execCdrLock x0 s) := by
  unfold execCdrLock
  extract_lets u1 u2 u3 u4
  have h2 : Rests P u2 := setLaneState_rests h
  clear_value u2
  with_reducible refine Rests.answers_ite ?_ ?_
  · with_reducible refine Rests.answers ?_
    with_reducible exact putLaneX_rests (h2)
  · with_reducible refine Rests.answers_ite ?_ ?_
    · with_reducible refine Rests.answers ?_
      with_reducible exact putLaneX_rests h
    · with_reducible refine Rests.answers ?_
      with_reducible exact h

theorem execCdrLockLost_rests {P s} {x0} (h : Rests P s) : Answers (Rests P) (execCdrLockLost x0 s) := by
  unfold execCdrLockLost
  extract_lets u1 u2 u3
  have h3 : Rests P u3 := putLaneX_rests h
  clear_value u3
  with_reducible refine Rests.answers_ite ?_ ?_
  · with_reducible refine Rests.answers ?_
    with_reducible exact laneFault_rests (stickyLane_rests (h3))
  · with_reducible refine Rests.answers ?_
    with_reducible exact h

theorem putTaps_rests {P s} {x0 x1 x2} (h : Rests P s) : Rests P (putTaps x0 x1 x2 s) := by
  induction x2 generalizing x1 s with
  | nil => exact h
  | cons b t ih =>
    simp only [putTaps]
    exact Rests.ite h (ih (putLane_rests h))

theorem chooseCtle_rests {P s} {x0} (h : Rests P s) : Rests P (chooseCtle x0 s).2 := by
  unfold chooseCtle
  extract_lets u1 u2
  have h2 : Rests P u2.2 := takeChoice_rests h
  clear_value u2
  with_reducible exact h2

theorem execAdaptationDone_rests {P s} {x0 x1 x2} (h : Rests P s) : Answers (Rests P) (execAdaptationDone x0 x1 x2 s) := by
  unfold execAdaptationDone
  extract_lets u1 u2 u3
  have h2 : Rests P u2.2 := chooseCtle_rests h
  clear_value u2
  have h3 : Rests P u3 := Rests.ite h (putLane_rests (h2))
  clear_value u3
  with_reducible refine Rests.answers_ite ?_ ?_
  · with_reducible refine Rests.answers ?_
    with_reducible exact setLaneState_rests (putTaps_rests (h3))
  · with_reducible refine Rests.answers ?_
    with_reducible exact h

theorem execBlockLock_rests {P s} {x0 x1} (h : Rests P s) : Answers (Rests P) (execBlockLock x0 x1 s) := by
  unfold execBlockLock
  with_reducible refine Rests.answers_ite ?_ ?_
  · with_reducible refine Rests.answers ?_
    with_reducible exact lineBits_rests h
  · with_reducible refine Rests.answers ?_
    with_reducible exact h

theorem execBlockLockLost_rests {P s} {x0 x1} (h : Rests P s) : Answers (Rests P) (execBlockLockLost x0 x1 s) := by
  unfold execBlockLockLost
  with_reducible refine Rests.answers_ite ?_ ?_
  · with_reducible refine Rests.answers ?_
    with_reducible exact lineBits_rests h
  · with_reducible refine Rests.answers_ite ?_ ?_
    · with_reducible refine Rests.answers ?_
      with_reducible exact laneFault_rests (stickyLane_rests h)
    · with_reducible refine Rests.answers ?_
      with_reducible exact h

theorem execHuntTimeout_rests {P s} {x0} (h : Rests P s) : Answers (Rests P) (execHuntTimeout x0 s) := by
  dsimp only [execHuntTimeout]
  with_reducible exact Rests.answers_ite (Rests.answers (laneFault_rests (stickyLane_rests h))) (Rests.answers h)

theorem execAlignmentLock_rests {P s} {x0} (h : Rests P s) : Answers (Rests P) (execAlignmentLock x0 s) := by
  unfold execAlignmentLock
  extract_lets u1 u2 u3 u4 u5 u6 u7 u8
  have h7 : Rests P u7 := putPortX_rests h
  clear_value u7
  have h8 : Rests P u8 := Rests.foldl (h7) (fun s x h => Rests.ite (setLaneState_rests h) h)
  clear_value u8
  with_reducible refine Rests.answers_ite ?_ ?_
  · with_reducible refine Rests.answers ?_
    with_reducible exact h
  · with_reducible refine Rests.answers_ite ?_ ?_
    · with_reducible refine Rests.answers ?_
      with_reducible exact updatePort_rests (h8)
    · with_reducible refine Rests.answers ?_
      with_reducible exact h

theorem execEfomWindow_rests {P s} {x0 x1 x2 x3} (h : Rests P s) : Answers (Rests P) (execEfomWindow x0 x1 x2 x3 s) := by
  dsimp only [execEfomWindow]
  with_reducible exact Rests.answers_ite (Rests.answers_ite (Rests.answers (putTaps_rests (putLane_rests (putLane_rests h)))) (Rests.answers
                  (putLane_rests (putLane_rests h)))) (Rests.answers h)

theorem execEyeFault_rests {P s} {x0} (h : Rests P s) : Answers (Rests P) (execEyeFault x0 s) := by
  dsimp only [execEyeFault]
  with_reducible exact Rests.answers_ite (Rests.answers (laneFault_rests (stickyLane_rests h))) (Rests.answers h)

theorem execRelockTimeout_rests {P s} {x0} (h : Rests P s) : Answers (Rests P) (execRelockTimeout x0 s) := by
  dsimp only [execRelockTimeout]
  with_reducible exact Rests.answers_ite (Rests.answers (laneFault_rests h)) (Rests.answers h)

theorem afterTopology_rests {P s} {x0 x1} (h : Rests P s) : Rests P (afterTopology x0 x1 s) := by
  unfold afterTopology
  with_reducible exact Rests.ite (cascadeLanesOut_rests h) h

theorem execBeacon_rests {P s} {x0 x1 x2} (h : Rests P s) : Answers (Rests P) (execBeacon x0 x1 x2 s) := by
  unfold execBeacon
  with_reducible refine Rests.answers_ite ?_ ?_
  · with_reducible refine Rests.answers ?_
    with_reducible exact afterTopology_rests (beacon_rests (bump_rests h))
  · with_reducible refine Rests.answers ?_
    with_reducible exact h

theorem execBeaconLoss_rests {P s} {x0} (h : Rests P s) : Answers (Rests P) (execBeaconLoss x0 s) := by
  unfold execBeaconLoss
  extract_lets u1
  with_reducible refine Rests.answers_ite ?_ ?_
  · with_reducible refine Rests.answers ?_
    with_reducible exact afterTopology_rests (topologyFault_rests (setSticky_rests (setBhLocked_rests (Rests.mk h))))
  · with_reducible refine Rests.answers ?_
    with_reducible exact h

theorem execPrbsCheckerLock_rests {P s} {x0 x1} (h : Rests P s) : Answers (Rests P) (execPrbsCheckerLock x0 x1 s) := by
  unfold execPrbsCheckerLock
  with_reducible refine Rests.answers_ite ?_ ?_
  · with_reducible refine Rests.answers ?_
    with_reducible exact testRun_rests h
  · with_reducible refine Rests.answers ?_
    with_reducible exact h

end Sys2Proof.Machine
end

section
/-! SUPPORT. The modes and the queue under the operations of the network ports. -/

namespace Sys2Proof.Machine
open Sys2Proof

theorem txFrame_rests {P s} {x0 x1 x2} (h : Rests P s) : Rests P (txFrame x0 x1 x2 s) := by
  unfold txFrame
  with_reducible exact emit_rests (addObj_rests (bump_rests h))

theorem txFirmware_rests {P s} {x0 x1 x2} (h : Rests P s) : Rests P (txFirmware x0 x1 x2 s) := by
  unfold txFirmware
  extract_lets u1
  with_reducible exact Rests.ite h (Rests.ite (putPortX_rests h) (txFrame_rests h))

theorem sendWaiting_rests {P s} {x0} (h : Rests P s) : Rests P (sendWaiting x0 s) := by
  unfold sendWaiting
  extract_lets u1
  with_reducible exact Rests.ite h (Rests.foldl (putPortX_rests h) (fun s x h => txFrame_rests h))

theorem sendFrame_rests {P s} {x0 x1} (h : Rests P s) : Rests P (sendFrame x0 x1 s) := by
  unfold sendFrame
  with_reducible exact txFirmware_rests h

theorem sendFirmware_rests {P s} {x0 x1 x2 x3} (h : Rests P s) : Rests P (sendFirmware x0 x1 x2 x3 s) := by
  unfold sendFirmware
  with_reducible exact sendFrame_rests h

theorem sendIgmp_rests {P s} {x0 x1 x2} (h : Rests P s) : Rests P (sendIgmp x0 x1 x2 s) := by
  unfold sendIgmp
  with_reducible exact sendFirmware_rests h

theorem sendMld_rests {P s} {x0 x1 x2} (h : Rests P s) : Rests P (sendMld x0 x1 x2 s) := by
  unfold sendMld
  with_reducible exact sendFirmware_rests h

theorem sendReport_rests {P s} {x0 x1} (h : Rests P s) : Rests P (sendReport x0 x1 s) := by
  unfold sendReport
  extract_lets u1 u2
  split
  · with_reducible exact Rests.ite h (sendIgmp_rests h)
  · with_reducible exact Rests.ite (sendIgmp_rests h) (sendIgmp_rests h)
  · with_reducible exact sendIgmp_rests h
  · with_reducible exact sendMld_rests h
  · with_reducible exact sendMld_rests h

theorem leaveGroup_rests {P s} {x0} (h : Rests P s) : Rests P (leaveGroup x0 s) := by
  unfold leaveGroup
  with_reducible exact Rests.ite h (sendReport_rests h)

theorem updateJoin_rests {P s} {x0} (h : Rests P s) : Rests P (updateJoin x0 s) := by
  induction x0 generalizing s
  · rw [updateJoin]
    lift_lets
    intro u1 u2
    have h2 : Rests P u2 := Rests.mk h
    clear_value u2
    intro u3
    have h3 : Rests P u3 := by
      dsimp only [u3]
      split
      · with_reducible exact leaveGroup_rests (h2)
      · with_reducible exact h2
    clear_value u3
    with_reducible refine Rests.ite ?_ ?_
    · with_reducible exact h
    · split
      · with_reducible exact sendReport_rests (h3)
      · with_reducible exact h3
  · rename_i n ih
    rw [updateJoin]
    lift_lets
    intro u4 u5
    have h5 : Rests P u5 := Rests.mk h
    clear_value u5
    intro u6
    have h6 : Rests P u6 := by
      dsimp only [u6]
      split
      · with_reducible exact leaveGroup_rests (h5)
      · with_reducible exact h5
    clear_value u6
    with_reducible refine Rests.ite ?_ ?_
    · with_reducible exact h
    · split
      · with_reducible exact sendReport_rests (h6)
      · with_reducible exact h6

theorem noteQuery_rests {P s} {x0 x1 x2} (h : Rests P s) : Rests P (noteQuery x0 x1 x2 s) := by
  unfold noteQuery
  extract_lets u1 u2
  with_reducible exact Rests.ite (Rests.ite h (Rests.ite (putPortX_rests h) (putPortX_rests h))) (Rests.ite (putPortX_rests h) h)

theorem answerQuery_rests {P s} {x0 x1 x2} (h : Rests P s) : Rests P (answerQuery x0 x1 x2 s) := by
  unfold answerQuery
  extract_lets u1 u2
  with_reducible exact Rests.foldl (noteQuery_rests h) (fun s x h => sendReport_rests h)

theorem sendException_rests {P s} {x0 x1 x2 x3} (h : Rests P s) : Rests P (sendException x0 x1 x2 x3 s) := by
  dsimp only [sendException]
  with_reducible exact Rests.ite (bump_rests h) (bump_rests (Rests.mk h))

theorem firmwareFrame_rests {P s} {x0 x1 x2} (h : Rests P s) : Rests P (firmwareFrame x0 x1 x2 s) := by
  unfold firmwareFrame
  lift_lets
  intro u1 u2
  with_reducible refine Rests.ite ?_ ?_
  · with_reducible refine Rests.ite ?_ ?_
    · with_reducible exact sendException_rests h
    · split
      · with_reducible exact sendFirmware_rests h
      · with_reducible exact h
  · split
    · with_reducible exact h
    · with_reducible refine Rests.ite ?_ ?_
      · with_reducible exact sendFirmware_rests h
      · with_reducible refine Rests.ite ?_ ?_
        · with_reducible exact Rests.ite (answerQuery_rests h) (sendException_rests h)
        · split
          · with_reducible exact h
          · lift_lets
            intro u3
            with_reducible exact Rests.ite (Rests.ite (sendFirmware_rests h) h) (Rests.ite (sendFirmware_rests h) (Rests.ite (answerQuery_rests h)
                            (sendException_rests h)))

end Sys2Proof.Machine
end

section
/-! SUPPORT. The modes and the queue under the operations of the position channels. -/

namespace Sys2Proof.Machine
open Sys2Proof

theorem putEnc_rests {P s} {x0 x1} (h : Rests P s) : Rests P (putEnc x0 x1 s) := by
  dsimp only [putEnc]
  with_reducible exact Rests.mk h

theorem putCmp_rests {P s} {x0 x1} (h : Rests P s) : Rests P (putCmp x0 x1 s) := by
  dsimp only [putCmp]
  with_reducible exact Rests.mk h

theorem putPosition_rests {P s} {x0 x1} (h : Rests P s) : Rests P (putPosition x0 x1 s) := by
  dsimp only [putPosition]
  with_reducible exact putInt_rests h

theorem giveAnswer_rests {P s} {x0} (h : Rests P s) : Rests P (giveAnswer x0 s).2 := by
  unfold giveAnswer
  extract_lets u1
  have h1 : Rests P u1.2 := takeChoice_rests h
  clear_value u1
  split
  · with_reducible exact h
  · with_reducible exact h1

theorem answerOne_rests {P s} {x0 x1} (h : Rests P s) : Rests P (answerOne x0 x1 s) := by
  unfold answerOne
  split
  · with_reducible exact h
  · lift_lets
    intro u1
    have h1 : Rests P u1.2 := giveAnswer_rests h
    clear_value u1
    intro u2
    with_reducible exact putEnc_rests (h1)

theorem askPosition_rests {P s} {x0 x1} (h : Rests P s) : Rests P (askPosition x0 x1 s) := by
  unfold askPosition
  extract_lets u1
  with_reducible exact answerOne_rests (Rests.ite h (putEnc_rests h))

theorem answerSoftware_rests {P s} {x0} (h : Rests P s) : Rests P (answerSoftware x0 s) := by
  unfold answerSoftware
  split
  · with_reducible exact h
  · split
    · with_reducible exact h
    · lift_lets
      intro u1
      have h1 : Rests P u1.2 := giveAnswer_rests h
      clear_value u1
      intro u2
      with_reducible exact putEnc_rests (putObj_rests (putInt_rests (h1)))

theorem answerAll_rests {P s} {x0} (h : Rests P s) : Rests P (answerAll x0 s) := by
  unfold answerAll
  with_reducible exact answerSoftware_rests (Rests.foldl h (fun s x h => answerOne_rests h))

theorem queryAt_rests {P s} {x0 x1} (h : Rests P s) : Rests P (queryAt x0 x1 s) := by
  dsimp only [queryAt]
  with_reducible exact answerAll_rests (putEnc_rests (putObj_rests h))

theorem invalidate_rests {P s} {x0} (h : Rests P s) : Rests P (invalidate x0 s) := by
  dsimp only [invalidate]
  with_reducible exact Rests.ite (setSticky_rests (putEnc_rests (putObj_rests (putObj_rests h)))) (putObj_rests (putObj_rests h))

theorem markBehind_rests {P s} {x0} (h : Rests P s) : Rests P (markBehind x0 s) := by
  dsimp only [markBehind]
  with_reducible exact Rests.ite (putCmp_rests (fire_rests (setSticky_rests (setSticky_rests h)))) (fire_rests (setSticky_rests (setSticky_rests h)))

theorem checkBehind_rests {P s} {x0} (h : Rests P s) : Rests P (checkBehind x0 s) := by
  dsimp only [checkBehind]
  with_reducible exact Rests.ite (markBehind_rests h) h

theorem armUnit_rests {P s} {x0} (h : Rests P s) : Rests P (armUnit x0 s) := by
  dsimp only [armUnit]
  with_reducible exact checkBehind_rests (putObj_rests (putCmp_rests (putObj_rests h)))

theorem cmpModeWritten_rests {P s} {x0 x1} (h : Rests P s) : Rests P (cmpModeWritten x0 x1 s) := by
  dsimp only [cmpModeWritten]
  with_reducible exact Rests.ite (putObj_rests (putObj_rests h)) (Rests.ite (putObj_rests (putObj_rests h)) (armUnit_rests (putObj_rests h)))

theorem cmpStart_rests {P s} {x0} (h : Rests P s) : Rests P (cmpStart x0 s) := by
  dsimp only [cmpStart]
  with_reducible exact Rests.ite h (armUnit_rests h)

theorem disarmUnit_rests {P s} {x0} (h : Rests P s) : Rests P (disarmUnit x0 s) := by
  dsimp only [disarmUnit]
  with_reducible exact putObj_rests h

theorem unitFire_rests {P s} {x0 x1 x2} (h : Rests P s) : Rests P (unitFire x0 x1 x2 s) := by
  dsimp only [unitFire]
  with_reducible exact Rests.ite (fire_rests (setSticky_rests (fireAt_rests (putObj_rests (setSticky_rests (bump_rests h)))))) (fireAt_rests
                  (putObj_rests (setSticky_rests (bump_rests h))))

theorem afterFire_rests {P s} {x0 x1 x2} (h : Rests P s) : Rests P (afterFire x0 x1 x2 s) := by
  dsimp only [afterFire]
  split
  · with_reducible exact Rests.ite (disarmUnit_rests (putObj_rests (putCmp_rests h))) (putObj_rests (putCmp_rests h))
  · split
    · with_reducible exact checkBehind_rests (putObj_rests (putCmp_rests h))
    · with_reducible exact disarmUnit_rests (putCmp_rests h)
  · with_reducible exact disarmUnit_rests (putCmp_rests h)

theorem evalUnit_rests {P s} {x0 x1} (h : Rests P s) : Rests P (evalUnit x0 x1 s) := by
  dsimp only [evalUnit]
  with_reducible refine Rests.ite ?_ ?_
  · with_reducible exact h
  · with_reducible refine Rests.ite ?_ ?_
    · with_reducible exact afterFire_rests (unitFire_rests (setSticky_rests h))
    · with_reducible refine Rests.ite ?_ ?_
      · split
        · with_reducible exact Rests.ite (putCmp_rests h) h
        · with_reducible exact h
      · with_reducible exact afterFire_rests (unitFire_rests (addObj_rests h))

theorem jumpBehind_rests {P s} {x0} (h : Rests P s) : Rests P (jumpBehind x0 s) := by
  dsimp only [jumpBehind]
  with_reducible exact Rests.foldl h (fun s x h => checkBehind_rests h)

theorem crossing_rests {P s} {x0 x1 x2} (h : Rests P s) : Rests P (crossing x0 x1 x2 s) := by
  unfold crossing
  lift_lets
  intro u1 u2
  have h2 : Rests P u2 := bump_rests h
  clear_value u2
  intro u3
  have h3 : Rests P u3 := bump_rests (putObj_rests (putObj_rests (putObj_rests (putInt_rests (h2)))))
  clear_value u3
  split
  · with_reducible exact putEnc_rests (putObj_rests (h2))
  · lift_lets
    intro u4 u5
    have h5 : Rests P u5 := putEnc_rests (h2)
    clear_value u5
    intro u6
    have h6 : Rests P u6 := putInt_rests (h5)
    clear_value u6
    intro u7
    have h7 : Rests P u7 := Rests.ite (putObj_rests (h6)) (h6)
    clear_value u7
    with_reducible exact Rests.ite (putEnc_rests (h3)) (Rests.ite (h5) (Rests.ite (putObj_rests (h7)) (h7)))

theorem takeCrossing_rests {P s} {x0 x1} (h : Rests P s) : Rests P (takeCrossing x0 x1 s) := by
  unfold takeCrossing
  split
  · with_reducible exact crossing_rests h
  · with_reducible exact h

theorem evalChannel_rests {P s} {x0} (h : Rests P s) : Rests P (evalChannel x0 s) := by
  unfold evalChannel
  lift_lets
  intro u1
  split
  · with_reducible exact h
  · lift_lets
    intro u2
    have h2 : Rests P u2 := takeCrossing_rests (putEnc_rests h)
    clear_value u2
    intro u3
    have h3 : Rests P u3 := Rests.foldl (h2) (fun s x h => evalUnit_rests h)
    clear_value u3
    intro u4 u5
    have h5 : Rests P u5 := putEnc_rests (h3)
    clear_value u5
    with_reducible exact answerAll_rests (Rests.ite (jumpBehind_rests (h5)) (h5))

theorem evalAvailable_rests {P s} {x0 x1} (h : Rests P s) : Rests P (evalAvailable x0 x1 s) := by
  induction x1 generalizing x0 s
  · rw [evalAvailable]
    with_reducible exact h
  · rename_i n ih
    rw [evalAvailable]
    with_reducible exact Rests.ite (ih (evalChannel_rests h)) h

theorem cmpTargetWritten_rests {P s} {x0 x1 x2} (h : Rests P s) : Rests P (cmpTargetWritten x0 x1 x2 s) := by
  unfold cmpTargetWritten
  extract_lets u1 u2 u3 u4
  have h2 : Rests P u2 := evalAvailable_rests h
  clear_value u2
  have h3 : Rests P u3 := putObj_rests (h2)
  clear_value u3
  with_reducible exact Rests.ite (checkBehind_rests (putCmp_rests (h3))) (h3)

theorem encFault_rests {P s} {x0 x1 x2} (h : Rests P s) : Rests P (encFault x0 x1 x2 s) := by
  unfold encFault
  extract_lets u1 u2 u3 u4 u5 u6 u7 u8
  have h2 : Rests P u2 := putObj_rests (bump_rests h)
  clear_value u2
  have h3 : Rests P u3 := setSticky_rests (h2)
  clear_value u3
  have h4 : Rests P u4 := invalidate_rests (fireStamped_rests (h3))
  clear_value u4
  have h6 : Rests P u6 := putEnc_rests (h4)
  clear_value u6
  have h7 : Rests P u7.1 := recordFault_rests (h6)
  clear_value u7
  with_reducible exact Rests.ite (setSticky_rests (putObj_rests (putEnc_rests (h7)))) (h7)

theorem encReinstate_rests {P s} {x0} (h : Rests P s) : Rests P (encReinstate x0 s) := by
  dsimp only [encReinstate]
  with_reducible exact Rests.ite (putEnc_rests (dropRetired_rests (putObj_rests h))) h

theorem speedUpdate_rests {P s} {x0} (h : Rests P s) : Rests P (speedUpdate x0 s) := by
  unfold speedUpdate
  split
  · with_reducible exact h
  · lift_lets
    intro u1 u2 u3
    have h3 : Rests P u3 := putEnc_rests h
    clear_value u3
    with_reducible refine Rests.ite ?_ ?_
    · split
      · with_reducible exact h3
      · lift_lets
        intro u4 u5
        have h5 : Rests P u5 := putInt_rests (h3)
        clear_value u5
        with_reducible exact Rests.ite (putObj_rests (h5)) (h5)
    · split
      · with_reducible exact h3
      · lift_lets
        intro u6
        with_reducible exact Rests.ite (putInt_rests (h3)) (h3)

theorem standstill_rests {P s} {x0} (h : Rests P s) : Rests P (standstill x0 s) := by
  dsimp only [standstill]
  with_reducible exact putEnc_rests (putObj_rests (putObj_rests (putInt_rests h)))

theorem autocalUpdate_rests {P s} {x0 x1} (h : Rests P s) : Rests P (autocalUpdate x0 x1 s) := by
  unfold autocalUpdate
  extract_lets u1 u2 u3 u4 u5
  have h4 : Rests P u4 := putInt_rests (putInt_rests h)
  clear_value u4
  with_reducible exact putObj_rests (h4)

theorem autocal_rests {P s} {x0 x1 x2 x3 x4 x5} (h : Rests P s) : Rests P (autocal x0 x1 x2 x3 x4 x5 s) := by
  dsimp only [autocal]
  with_reducible exact Rests.ite (putEnc_rests h) (putEnc_rests (Rests.ite (autocalUpdate_rests h) h))

theorem markZ_rests {P s} {x0} (h : Rests P s) : Rests P (markZ x0 s) := by
  unfold markZ
  extract_lets u1 u2 u3
  have h2 : Rests P u2 := putEnc_rests h
  clear_value u2
  with_reducible exact Rests.ite (emit_rests (h2)) (h2)

theorem quadShift_rests {P s} {x0 x1 x2} (h : Rests P s) : Rests P (quadShift x0 x1 x2 s) := by
  dsimp only [quadShift]
  with_reducible exact putEnc_rests h

theorem homeTo_rests {P s} {x0 x1} (h : Rests P s) : Rests P (homeTo x0 x1 s) := by
  unfold homeTo
  extract_lets u1 u2 u3 u4
  have h3 : Rests P u3 := putEnc_rests h
  clear_value u3
  have h4 : Rests P u4 := putObj_rests (putPosition_rests (h3))
  clear_value u4
  with_reducible exact quadShift_rests (h4)

theorem markSample_rests {P s} {x0 x1 x2 x3} (h : Rests P s) : Rests P (markSample x0 x1 x2 x3 s) := by
  unfold markSample
  extract_lets u1 u2 u3 u4
  have h1 : Rests P u1 := putObj_rests (putInt_rests h)
  clear_value u1
  have h2 : Rests P u2 := fireStamped_rests (setSticky_rests (bump_rests (h1)))
  clear_value u2
  have h4 : Rests P u4 := markZ_rests (homeTo_rests (h2))
  clear_value u4
  with_reducible exact Rests.ite (markZ_rests (h2)) (Rests.ite (putObj_rests (h4)) (h4))

theorem takeSample_rests {P s} {x0 x1 x2 x3 x4 x5 x6 x7 x8} (h : Rests P s) : Rests P (takeSample x0 x1 x2 x3 x4 x5 x6 x7 x8 s) := by
  unfold takeSample
  extract_lets u1 u2 u3 u4 u5 u6 u7 u8 u9 u10 u11 u12 u13 u14 u15 u16 u17 u18 u19 u20 u21
  clear_value u1 u2
  have h3 : Rests P u3 := by
    dsimp only [u3]
    split
    · with_reducible exact encFault_rests h
    · with_reducible exact h
  clear_value u3
  clear_value u4 u5 u6 u7 u8 u9 u10 u11 u12
  have h13 : Rests P u13 := putObj_rests h3
  clear_value u13
  clear_value u14 u15 u16
  have h17 : Rests P u17 := putEnc_rests h13
  clear_value u17
  have h18 : Rests P u18 := putPosition_rests h17
  clear_value u18
  have h19 : Rests P u19 := Rests.ite (quadShift_rests h18) h18
  clear_value u19
  have h20 : Rests P u20 := Rests.ite h19 (autocal_rests h19)
  clear_value u20
  have h21 : Rests P u21 := Rests.ite (markSample_rests h20) h20
  clear_value u21
  with_reducible exact Rests.ite (setSticky_rests h21) h21

theorem encSample_rests {P s} {x0 x1 x2 x3 x4} (h : Rests P s) : Rests P (encSample x0 x1 x2 x3 x4 s) := by
  unfold encSample
  with_reducible refine Rests.ite ?_ ?_
  · with_reducible exact h
  · lift_lets
    intro u1 u2 u3
    clear_value u1 u2
    have h3 : Rests P u3 := putObj_rests (putObj_rests h)
    clear_value u3
    intro u4 u5 u6 u7 u8
    clear_value u4 u5 u6 u7
    have h8 : Rests P u8 := putEnc_rests h3
    clear_value u8
    intro u9 u10 u11
    clear_value u9 u10 u11
    split
    · with_reducible exact Rests.ite (encFault_rests h8) (Rests.ite h8 (takeSample_rests (putEnc_rests h8)))
    · with_reducible exact takeSample_rests h8

theorem encDisabled_rests {P s} {x0} (h : Rests P s) : Rests P (encDisabled x0 s) := by
  unfold encDisabled
  extract_lets u1 u2
  have h1 : Rests P u1 := invalidate_rests h
  clear_value u1
  clear_value u2
  with_reducible exact putEnc_rests h1

theorem encEnableWritten_rests {P s} {x0 x1} (h : Rests P s) : Rests P (encEnableWritten x0 x1 s) := by
  unfold encEnableWritten
  extract_lets u1 u2
  clear_value u1
  have h2 : Rests P u2 := putObj_rests h
  clear_value u2
  with_reducible exact Rests.ite (encDisabled_rests h2) h2

theorem encGeometryWritten_rests {P s} {x0 x1 x2} (h : Rests P s) : Rests P (encGeometryWritten x0 x1 x2 s) := by
  dsimp only [encGeometryWritten]
  with_reducible exact invalidate_rests (putObj_rests h)

theorem positionWritten_rests {P s} {x0 x1} (h : Rests P s) : Rests P (positionWritten x0 x1 s) := by
  dsimp only [positionWritten]
  with_reducible exact putEnc_rests h

theorem listWritten_rests {P s} {x0} (h : Rests P s) : Rests P (listWritten x0 s) := by
  unfold listWritten
  extract_lets u1
  with_reducible exact Rests.mk h

theorem execEncoderSample_rests {P s} {x0 x1 x2 x3 x4} (h : Rests P s) : Answers (Rests P) (execEncoderSample x0 x1 x2 x3 x4 s) := by
  dsimp only [execEncoderSample]
  with_reducible exact Rests.answers_ite (Rests.answers (encSample_rests h)) (Rests.answers h)

theorem execPositionCompare_rests {P s} {x0} (h : Rests P s) : Answers (Rests P) (execPositionCompare x0 s) := by
  dsimp only [execPositionCompare]
  with_reducible exact Rests.answers_ite (Rests.answers (evalChannel_rests h)) (Rests.answers h)

theorem execSpeedUpdate_rests {P s} {x0} (h : Rests P s) : Answers (Rests P) (execSpeedUpdate x0 s) := by
  dsimp only [execSpeedUpdate]
  with_reducible exact Rests.answers_ite (Rests.answers (speedUpdate_rests h)) (Rests.answers h)

theorem execStandstillTimeout_rests {P s} {x0} (h : Rests P s) : Answers (Rests P) (execStandstillTimeout x0 s) := by
  unfold execStandstillTimeout
  with_reducible refine Rests.answers_ite ?_ ?_
  · lift_lets
    intro u1
    have h1 : Rests P u1 := evalAvailable_rests h
    clear_value u1
    with_reducible refine Rests.answers ?_
    with_reducible exact Rests.ite (standstill_rests h1) h1
  · with_reducible refine Rests.answers ?_
    with_reducible exact h

theorem execQuadOutputEdge_rests {P s} {x0} (h : Rests P s) : Answers (Rests P) (execQuadOutputEdge x0 s) := by
  dsimp only [execQuadOutputEdge]
  with_reducible exact Rests.answers_ite (Rests.answers h) (Rests.answers (emit_rests (putEnc_rests h)))

end Sys2Proof.Machine
end

section
/-! SUPPORT. The modes and the queue under the operations of the lauter engine. -/

namespace Sys2Proof.Machine
open Sys2Proof

theorem usedStamps_rests {P s} {x0 x1 x2} (h : Rests P s) : Rests P (usedStamps x0 x1 x2 s) := by
  dsimp only [usedStamps]
  split
  · with_reducible exact Rests.mk h
  · with_reducible exact h

theorem clearStamps_rests {P s} {x0} (h : Rests P s) : Rests P (clearStamps x0 s) := by
  dsimp only [clearStamps]
  with_reducible exact Rests.mk h

theorem stampOccurrence_rests {P s} {x0 x1 x2} (h : Rests P s) : Rests P (stampOccurrence x0 x1 x2 s) := by
  unfold stampOccurrence
  with_reducible refine Rests.ite ?_ ?_
  · with_reducible exact h
  · lift_lets
    intro u1 u2 u3 u4 u5
    clear_value u1 u2 u3
    have h5 : Rests P u5 := Rests.mk h
    clear_value u5
    with_reducible exact purgeStamps_rests (Rests.ite h5 (askPosition_rests h5))

theorem positionAt_rests {P s} {x0 x1} (h : Rests P s) : Rests P (positionAt x0 x1 s).2 := by
  unfold positionAt
  with_reducible refine Rests.ite_snd ?_ ?_
  · with_reducible exact h
  · split
    · with_reducible exact h
    · split
      · with_reducible exact giveAnswer_rests h
      · with_reducible exact giveAnswer_rests h

theorem withPosition_rests {P s} {x0} (h : Rests P s) : Rests P (withPosition x0 s).2 := by
  dsimp only [withPosition]
  with_reducible exact positionAt_rests h

theorem arrivalStamp_rests {P s} {x0 x1} (h : Rests P s) : Rests P (arrivalStamp x0 x1 s).2 := by
  dsimp only [arrivalStamp]
  split
  · with_reducible exact withPosition_rests h
  · dsimp only
    with_reducible exact takeFree_rests h

theorem stampFor_rests {P s} {x0 x1 x2 x3} (h : Rests P s) : Rests P (stampFor x0 x1 x2 x3 s).2 := by
  unfold stampFor
  split
  · with_reducible exact arrivalStamp_rests h
  · split
    · with_reducible exact withPosition_rests h
    · with_reducible exact arrivalStamp_rests h

theorem countMissing_rests {P s} {x0 x1 x2} (h : Rests P s) : Rests P (countMissing x0 x1 x2 s) := by
  unfold countMissing
  split
  · lift_lets
    intro u1
    clear_value u1
    with_reducible exact Rests.ite h (setSticky_rests (addObj_rests h))
  · with_reducible exact setSticky_rests (addObj_rests h)
  · with_reducible exact h

theorem tryComplete_rests {P s} {x0 x1} (h : Rests P s) : Rests P (tryComplete x0 x1 s) := by
  dsimp only [tryComplete]
  split
  · with_reducible exact h
  · split
    · with_reducible exact h
    · with_reducible exact Rests.ite (closeFrame_rests h) h

theorem served_rests {P s} {x0} (h : Rests P s) : Rests P (served x0 s) := by
  unfold served
  extract_lets u1
  with_reducible exact Rests.mk h

theorem refuse_rests {P s} {x0 x1 x2} (h : Rests P s) : Rests P (refuse x0 x1 x2 s) := by
  unfold refuse
  extract_lets u1
  clear_value u1
  with_reducible exact putFlow_rests h

theorem openFrame_rests {P s} {x0 x1 x2 x3 x4} (h : Rests P s) : Rests P (openFrame x0 x1 x2 x3 x4 s) := by
  unfold openFrame
  extract_lets u1 u2 u3 u4 u5 u6 u7 u8 u9 u10 u11 u12 u13 u14
  have h1 : Rests P u1 := by
    dsimp only [u1]
    split
    · with_reducible exact closeFrame_rests h
    · with_reducible exact h
  clear_value u1
  clear_value u2
  have h3 : Rests P u3 := served_rests (putObj_rests h1)
  clear_value u3
  clear_value u4
  have h5 : Rests P u5 := refuse_rests h3
  clear_value u5
  have h6 : Rests P u6 := setSticky_rests (bump_rests h5)
  clear_value u6
  have h7 : Rests P u7.2 := reserveCask_rests h3
  clear_value u7
  have h9 : Rests P u9.2 := hydroOpen_rests h7
  clear_value u9
  clear_value u11 u12
  have h13 : Rests P u13 := putFlow_rests h9
  clear_value u13
  split
  · with_reducible exact countLost_rests h6
  · with_reducible exact flowSignal_rests (Rests.mk h13)

theorem copyToHydro_rests {P s} {x0 x1 x2} (h : Rests P s) : Rests P (copyToHydro x0 x1 x2 s) := by
  dsimp only [copyToHydro]
  split
  · with_reducible exact h
  · split
    · with_reducible exact h
    · with_reducible exact putHydro_rests (Rests.ite (bump_rests h) h)

theorem issue_rests {P s} {x0 x1 x2} (h : Rests P s) : Rests P (issue x0 x1 x2 s) := by
  dsimp only [issue]
  split
  · with_reducible exact h
  · with_reducible exact copyToHydro_rests (Rests.ite (putObj_rests (Rests.mk (touchPage_rests h))) (Rests.mk (touchPage_rests h)))

theorem placeOne_rests {P s} {x0 x1 x2 x3 x4} (h : Rests P s) : Rests P (placeOne x0 x1 x2 x3 x4 s) := by
  unfold placeOne
  extract_lets u1
  clear_value u1
  with_reducible exact Rests.ite (served_rests (issue_rests h)) (setSticky_rests (putRegion_rests h))

theorem placePieces_rests {P s} {x0 x1 x2 x3} (h : Rests P s) : Rests P (placePieces x0 x1 x2 x3 s) := by
  induction x3 generalizing x0 x1 x2 s
  · rw [placePieces]
    with_reducible exact h
  · rename_i a t ih
    rw [placePieces]
    with_reducible exact ih (placeOne_rests h)

theorem issueWaiting_rests {P s} (h : Rests P s) : Rests P (issueWaiting s) := by
  unfold issueWaiting
  with_reducible refine Rests.ite ?_ ?_
  · with_reducible exact h
  · split
    · with_reducible exact h
    · split
      · with_reducible exact h
      · lift_lets
        intro u1
        clear_value u1
        with_reducible exact updateBoil_rests (served_rests (issue_rests (putRegion_rests h)))

theorem askArrival_rests {P s} {x0 x1} (h : Rests P s) : Rests P (askArrival x0 x1 s) := by
  dsimp only [askArrival]
  with_reducible exact Rests.ite (askPosition_rests h) h

theorem placeRuns_rests {P s} {x0 x1 x2 x3} (h : Rests P s) : Rests P (placeRuns x0 x1 x2 x3 s) := by
  dsimp only [placeRuns]
  split
  · with_reducible exact h
  · with_reducible exact Rests.foldl (askArrival_rests (putFrame_rests h)) (fun s x h => placePieces_rests h)

theorem countStale_rests {P s} {x0} (h : Rests P s) : Rests P (countStale x0 s) := by
  dsimp only [countStale]
  with_reducible exact setSticky_rests (bump_rests h)

theorem countDuplicate_rests {P s} {x0} (h : Rests P s) : Rests P (countDuplicate x0 s) := by
  dsimp only [countDuplicate]
  with_reducible exact setSticky_rests (bump_rests h)

theorem headerError_rests {P s} {x0 x1 x2} (h : Rests P s) : Rests P (headerError x0 x1 x2 s) := by
  dsimp only [headerError]
  with_reducible exact sendException_rests (bump_rests h)

theorem placeSt_rests {P s} {x0 x1 x2 x3} (h : Rests P s) : Rests P (placeSt x0 x1 x2 x3 s) := by
  unfold placeSt
  split
  · with_reducible exact headerError_rests h
  · lift_lets
    intro u1 u2 u3 u4 u5
    clear_value u1 u2 u3 u4
    have h5 : Rests P u5 := putFlow_rests h
    clear_value u5
    intro u6 u7
    clear_value u6
    have h7 : Rests P u7 := Rests.ite (openFrame_rests h5) h5
    clear_value u7
    with_reducible refine Rests.ite ?_ ?_
    · with_reducible exact headerError_rests h
    · with_reducible refine Rests.ite ?_ ?_
      · with_reducible exact countDuplicate_rests h
      · with_reducible refine Rests.ite ?_ ?_
        · with_reducible exact countStale_rests h5
        · with_reducible refine Rests.ite ?_ ?_
          · with_reducible exact bump_rests h5
          · with_reducible refine Rests.ite ?_ ?_
            · with_reducible exact h5
            · split
              · with_reducible exact h7
              · lift_lets
                intro u8 u9
                clear_value u8 u9
                with_reducible exact tryComplete_rests (placeRuns_rests h7)

theorem noteLeader_rests {P s} {x0 x1 x2 x3} (h : Rests P s) : Rests P (noteLeader x0 x1 x2 x3 s).2 := by
  unfold noteLeader
  lift_lets
  intro u1 u2 u3
  clear_value u1 u2
  have h3 : Rests P u3 := Rests.ite h (putObj_rests h)
  clear_value u3
  intro u4 u5 u6
  clear_value u4 u5 u6
  with_reducible refine Rests.ite_snd ?_ ?_
  · split
    · with_reducible exact putFlow_rests h3
    · lift_lets
      intro u7
      clear_value u7
      with_reducible exact Rests.ite_snd (putFlow_rests h3) (putFlow_rests h3)
  · with_reducible exact putFlow_rests h3

theorem strayPacket_rests {P s} {x0 x1 x2} {f : State → State} (hf : ∀ s, Rests P s → Rests P (f s)) (h : Rests P s) :
    Rests P (strayPacket x0 x1 x2 f s) := by
  unfold strayPacket
  exact Rests.ite (countStale_rests h) (Rests.ite (bump_rests h) (hf _ h))

theorem leaderOpens_rests {P s} {x0 x1 x2 x3 x4} (h : Rests P s) : Rests P (leaderOpens x0 x1 x2 x3 x4 s) := by
  unfold leaderOpens
  with_reducible refine Rests.ite ?_ ?_
  · with_reducible exact h
  · lift_lets
    intro u1
    have h1 : Rests P u1.2 := noteLeader_rests h
    clear_value u1
    intro u2
    have h2 : Rests P u2 := openFrame_rests h1
    clear_value u2
    with_reducible refine Rests.ite ?_ ?_
    · with_reducible exact h1
    · split
      · with_reducible exact h2
      · lift_lets
        intro u3
        clear_value u3
        with_reducible exact askArrival_rests (putFrame_rests h2)

theorem placeLeader_rests {P s} {x0 x1 x2 x3} (h : Rests P s) : Rests P (placeLeader x0 x1 x2 x3 s) := by
  unfold placeLeader
  split
  · with_reducible refine Rests.ite ?_ ?_
    · with_reducible exact headerError_rests h
    · lift_lets
      intro u1
      have h1 : Rests P u1.2 := noteLeader_rests h
      clear_value u1
      intro u2
      clear_value u2
      with_reducible exact askArrival_rests (putFrame_rests h1)
  · split
    · with_reducible exact headerError_rests h
    · with_reducible exact strayPacket_rests (fun s h => leaderOpens_rests h) h

theorem placePayload_rests {P s} {x0 x1 x2 x3} (h : Rests P s) : Rests P (placePayload x0 x1 x2 x3 s) := by
  unfold placePayload
  split
  · with_reducible exact strayPacket_rests (fun s h => bump_rests h) h
  · with_reducible refine Rests.ite ?_ ?_
    · with_reducible exact bump_rests h
    · with_reducible refine Rests.ite ?_ ?_
      · with_reducible exact headerError_rests h
      · with_reducible refine Rests.ite ?_ ?_
        · with_reducible exact countDuplicate_rests h
        · lift_lets
          intro u1 u2 u3
          clear_value u1 u2 u3
          with_reducible exact tryComplete_rests (placeRuns_rests h)

theorem placeTrailer_rests {P s} {x0 x1 x2 x3} (h : Rests P s) : Rests P (placeTrailer x0 x1 x2 x3 s) := by
  unfold placeTrailer
  with_reducible refine Rests.ite ?_ ?_
  · with_reducible exact headerError_rests h
  · split
    · with_reducible exact strayPacket_rests (fun s h => bump_rests h) h
    · split
      · with_reducible exact headerError_rests h
      · lift_lets
        intro u1 u2 u3
        clear_value u1 u2 u3
        with_reducible exact tryComplete_rests (putFrame_rests h)

theorem placeGvsp_rests {P s} {x0 x1 x2} (h : Rests P s) : Rests P (placeGvsp x0 x1 x2 s) := by
  dsimp only [placeGvsp]
  split
  · with_reducible exact headerError_rests h
  · with_reducible refine Rests.ite ?_ ?_
    · with_reducible exact headerError_rests h
    · split
      · with_reducible exact placeLeader_rests h
      · with_reducible exact placeTrailer_rests h
      · with_reducible exact placePayload_rests h
      · with_reducible exact headerError_rests h

theorem placeFlow_rests {P s} {x0 x1 x2} (h : Rests P s) : Rests P (placeFlow x0 x1 x2 s) := by
  unfold placeFlow
  split
  · with_reducible exact Rests.ite (placeGvsp_rests h) (placeSt_rests h)
  · split
    · with_reducible exact placeSt_rests h
    · with_reducible exact placeGvsp_rests h
    · with_reducible exact h

theorem passPacket_rests {P s} {x0 x1} (h : Rests P s) : Rests P (passPacket x0 x1 s) := by
  unfold passPacket
  extract_lets u1 u2
  clear_value u1 u2
  with_reducible exact updateBoil_rests (putRegion_rests h)

theorem placePacket_rests {P s} {x0} (h : Rests P s) : Rests P (placePacket x0 s) := by
  unfold placePacket
  split
  · with_reducible exact h
  · with_reducible refine passPacket_rests ?_
    split
    · with_reducible exact firmwareFrame_rests h
    · with_reducible exact sendException_rests h
    · with_reducible exact Rests.ite h (placeFlow_rests h)

theorem lineStamps_rests {P s} {x0 x1 x2} (h : Rests P s) : Rests P (lineStamps x0 x1 x2 s).2 := by
  induction x2 with
  | zero => exact h
  | succ n ih =>
    simp only [lineStamps]
    exact stampFor_rests ih

theorem writeRecords_rests {R s} {x0 x1 x2 x3} (h : Calm R s) : Calm R (writeRecords x0 x1 x2 x3 s) := by
  induction x3 generalizing x2 s with
  | nil => exact h
  | cons b t ih =>
    simp only [writeRecords]
    exact ih (writeCask_rests h)

theorem dropOldest_rests {P s} {x0 x1} (h : Rests P s) : Rests P (dropOldest x0 x1 s) := by
  induction x1 generalizing s with
  | nil => exact h
  | cons b t ih =>
    obtain ⟨i, c⟩ := b
    simp only [dropOldest]
    exact Rests.ite h (Rests.ite (ih (setSticky_rests (bump_rests (loseCask_rests h)))) (ih h))

theorem commitCask_rests {P s} {x0 x1 x2} (h : Rests P s) : Rests P (commitCask x0 x1 x2 s) := by
  dsimp only [commitCask]
  split
  · with_reducible exact h
  · with_reducible exact updateLevels_rests (putCask_rests (Rests.mk h))

theorem commitFrame_rests {R s} {x0 x1} (h : Calm R s) : Calm R (commitFrame x0 x1 s) := by
  unfold commitFrame
  extract_lets u1 u2 u3 u4 u5 u6 u7 u8 u9 u10 u11 u12 u13 u14 u15 u16
  clear_value u1 u2
  have h3 : Calm R u3 := countMissing_rests h
  clear_value u3
  have h4 : Calm R u4.2 := stampFor_rests h3
  clear_value u4
  have h6 : Calm R u6.2 := lineStamps_rests h4
  clear_value u6
  have h7 : Calm R u7 := Rests.ite (writeRecords_rests h6) h4
  clear_value u7
  have h8 : Calm R u8 := commitCask_rests h7
  clear_value u8
  have h10 : Calm R u10 := Calm.mk h8
  clear_value u10
  have h11 : Calm R u11 := bump_rests h10
  clear_value u11
  have h12 : Calm R u12 := Rests.ite h11 (bump_rests h11)
  clear_value u12
  have h13 : Calm R u13 := by
    dsimp only [u13]
    split
    · with_reducible exact fileRecord_rests h12
    · with_reducible exact h12
  clear_value u13
  clear_value u14
  have h15 : Calm R u15 := putFlow_rests h13
  clear_value u15
  have h16 : Calm R u16 := purgeStamps_rests (usedStamps_rests h15)
  clear_value u16
  with_reducible exact flowSignal_rests (dropOldest_rests h16)

theorem execPlacementComplete_rests {R s} {x0} (h : Calm R s) : Answers (Calm R) (execPlacementComplete x0 s) := by
  dsimp only [execPlacementComplete]
  split
  · with_reducible exact Rests.answers h
  · split
    · with_reducible exact Rests.answers (tryComplete_rests (issueWaiting_rests (Calm.mk (Rests.ite (writePerformed_rests h) h))))
    · with_reducible exact Rests.answers (issueWaiting_rests (Calm.mk (Rests.ite (writePerformed_rests h) h)))

theorem addNotice_rests {P s} {x0 x1} (h : Rests P s) : Rests P (addNotice x0 x1 s) := by
  dsimp only [addNotice]
  split
  · with_reducible exact putFrame_rests h
  · with_reducible exact putFlow_rests h

theorem execRewindNotice_rests {P s} (h : Rests P s) : Answers (Rests P) (execRewindNotice s) := by
  dsimp only [execRewindNotice]
  split
  · with_reducible exact Rests.answers h
  · split
    · with_reducible exact Rests.answers (addNotice_rests (dropStaged_rests (Rests.mk h)))
    · with_reducible exact Rests.answers (dropStaged_rests (Rests.mk h))

theorem execStraggleTimeout_rests {P s} {x0} (h : Rests P s) : Answers (Rests P) (execStraggleTimeout x0 s) := by
  dsimp only [execStraggleTimeout]
  split
  · with_reducible exact Rests.answers (closeFrame_rests h)
  · with_reducible exact Rests.answers h

theorem flowFault_rests {P s} {x0} (h : Rests P s) : Rests P (flowFault x0 s) := by
  dsimp only [flowFault]
  with_reducible exact Rests.ite (stopFlow_rests (recordFault_rests h)) (recordFault_rests h)

theorem execFrameIdleTimeout_rests {P s} {x0} (h : Rests P s) : Answers (Rests P) (execFrameIdleTimeout x0 s) := by
  dsimp only [execFrameIdleTimeout]
  split
  · with_reducible exact Rests.answers (flowFault_rests (closeFrame_rests h))
  · with_reducible exact Rests.answers h

theorem execFrameCommit_rests {R s} {x0} (h : Calm R s) : Answers (Calm R) (execFrameCommit x0 s) := by
  dsimp only [execFrameCommit]
  split
  · with_reducible exact Rests.answers (commitFrame_rests h)
  · with_reducible exact Rests.answers h

theorem sendResend_rests {P s} {x0 x1 x2 x3} (h : Rests P s) : Rests P (sendResend x0 x1 x2 x3 s) := by
  dsimp only [sendResend]
  with_reducible exact sendFirmware_rests (takeFree_rests h)

theorem execResendRequest_rests {P s} {x0 x1 x2} (h : Rests P s) : Answers (Rests P) (execResendRequest x0 x1 x2 s) := by
  dsimp only [execResendRequest]
  split
  · with_reducible exact Rests.answers h
  · with_reducible exact Rests.answers_ite (Rests.answers (bump_rests (sendResend_rests (putFrame_rests h)))) (Rests.answers h)

end Sys2Proof.Machine
end

section
/-! SUPPORT. The modes and the queue under the operations of the tags. -/

namespace Sys2Proof.Machine
open Sys2Proof

theorem hostRead_rests {P s} {x0 x1 x2} (h : Rests P s) : Rests P (hostRead x0 x1 x2 s) := by
  dsimp only [hostRead]
  with_reducible exact Rests.ite h (emit_rests (Rests.mk (takeChoice_rests h)))

theorem freeTag_rests {P s} {x0} (h : Rests P s) : Rests P (freeTag x0 s) := by
  dsimp only [freeTag]
  with_reducible exact Rests.mk h

theorem tlbTouch_rests {P s} {x0} (h : Rests P s) : Rests P (tlbTouch x0 s) := by
  dsimp only [tlbTouch]
  with_reducible exact Rests.mk h

theorem tlbDrop_rests {P s} {x0} (h : Rests P s) : Rests P (tlbDrop x0 s) := by
  dsimp only [tlbDrop]
  with_reducible exact Rests.mk h

theorem tlbForget_rests {P s} {x0} (h : Rests P s) : Rests P (tlbForget x0 s) := by
  unfold tlbForget
  extract_lets u1 u2
  with_reducible exact tlbDrop_rests (Rests.mk h)

theorem startWalk_rests {P s} {x0 x1 x2} (h : Rests P s) : Rests P (startWalk x0 x1 x2 s) := by
  dsimp only [startWalk]
  with_reducible exact Rests.ite h (hostRead_rests (bump_rests (bump_rests h)))

theorem translate_rests {P s} {x0 x1 x2 x3} (h : Rests P s) : Rests P (translate x0 x1 x2 x3 s).2 := by
  dsimp only [translate]
  split
  · with_reducible exact tlbTouch_rests (bump_rests h)
  · with_reducible exact startWalk_rests h

theorem cacheEight_rests {P s} {x0 x1 x2 x3 x4} (h : Rests P s) : Rests P (cacheEight x0 x1 x2 x3 x4 s) := by
  induction x4 with
  | zero => exact h
  | succ n ih =>
    simp only [cacheEight]
    exact Rests.ite (tlbTouch_rests ih) ih

theorem walkReturn_rests {P s} {x0 x1 x2 x3 x4} (h : Rests P s) : Rests P (walkReturn x0 x1 x2 x3 x4 s).2 := by
  dsimp only [walkReturn]
  with_reducible exact Rests.ite_snd (Rests.ite_snd h (hostRead_rests (bump_rests h))) (Rests.ite_snd (tlbTouch_rests (cacheEight_rests h))
                  (cacheEight_rests h))

end Sys2Proof.Machine
end

section
/-! SUPPORT. The modes and the queue under the operations of the racking engine. -/

namespace Sys2Proof.Machine
open Sys2Proof

theorem unreserve_rests {P s} {x0} (h : Rests P s) : Rests P (unreserve x0 s) := by
  dsimp only [unreserve]
  with_reducible exact putCq_rests h

theorem writeReserved_rests {P s} {x0 x1} (h : Rests P s) : Rests P (writeReserved x0 x1 s) := by
  dsimp only [writeReserved]
  with_reducible exact writeEntry_rests (unreserve_rests h)

theorem enableCq_rests {P s} {x0} (h : Rests P s) : Rests P (enableCq x0 s) := by
  dsimp only [enableCq]
  with_reducible exact Rests.ite (putObj_rests h) (putCq_rests (putObj_rests h))

theorem disableCq_rests {P s} {x0} (h : Rests P s) : Rests P (disableCq x0 s) := by
  dsimp only [disableCq]
  with_reducible exact putCq_rests (putObj_rests h)

theorem writeAbandoned_rests {P s} {x0 x1} (h : Rests P s) : Rests P (writeAbandoned x0 x1 s) := by
  induction x1 generalizing s with
  | nil => exact h
  | cons b t ih =>
    simp only [writeAbandoned]
    exact ih (putRing_rests (Rests.ite (writeReserved_rests h) h))

theorem stopDeliveries_rests {P s} {x0 x1} (h : Rests P s) : Rests P (stopDeliveries x0 x1 s) := by
  dsimp only [stopDeliveries]
  with_reducible refine Rests.foldl ?_ ?_
  · with_reducible exact h
  · intro s x h
    split
    · with_reducible exact Rests.ite (loseCask_rests (Rests.mk (putRing_rests h))) (setCaskState_rests (Rests.mk (putRing_rests h)))
    · with_reducible exact Rests.mk (putRing_rests h)

theorem faultEntry_rests {P s} {x0 x1} (h : Rests P s) : Rests P (faultEntry x0 x1 s).2 := by
  unfold faultEntry
  extract_lets u1 u2 u3
  have h1 : Rests P u1.2 := takeChoice_rests h
  clear_value u1
  have h2 : Rests P u2.2 := takeChoice_rests h1
  clear_value u2
  have h3 : Rests P u3.2 := takeChoice_rests h2
  clear_value u3
  with_reducible exact h3

theorem ringFault_rests {P s} {x0 x1 x2} (h : Rests P s) : Rests P (ringFault x0 x1 x2 s) := by
  unfold ringFault
  extract_lets u1 u2 u3 u4 u5 u6
  have h1 : Rests P u1 := stopDeliveries_rests h
  clear_value u1
  have h2 : Rests P u2 := putObj_rests h1
  clear_value u2
  clear_value u3 u4
  have h5 : Rests P u5.2 := faultEntry_rests h2
  clear_value u5
  have h6 : Rests P u6 := Rests.ite (writeEntry_rests h5) h2
  clear_value u6
  with_reducible exact Rests.ite h1 (logUntracked_rests (setSticky_rests h6))

theorem cqFault_rests {P s} {x0} (h : Rests P s) : Rests P (cqFault x0 s) := by
  dsimp only [cqFault]
  with_reducible exact Rests.foldl (logUntracked_rests (putCq_rests h)) (fun s x h => ringFault_rests h)

theorem ringDrained_rests {P s} {x0} (h : Rests P s) : Rests P (ringDrained x0 s) := by
  dsimp only [ringDrained]
  with_reducible exact Rests.ite (putRing_rests h) h

theorem enableRing_rests {P s} {x0} (h : Rests P s) : Rests P (enableRing x0 s) := by
  unfold enableRing
  with_reducible refine Rests.ite ?_ ?_
  · with_reducible exact putObj_rests h
  · lift_lets
    intro u1 u2 u3
    clear_value u1
    have h3 : Rests P u3 := Rests.ite (Rests.mk h) h
    clear_value u3
    intro u4 u5
    clear_value u4
    have h5 : Rests P u5 := Rests.ite (writeAbandoned_rests h3) h3
    clear_value u5
    intro u6
    clear_value u6
    with_reducible exact putObj_rests (putObj_rests (tlbForget_rests (putRing_rests h5)))

theorem disableRing_rests {P s} {x0} (h : Rests P s) : Rests P (disableRing x0 s) := by
  dsimp only [disableRing]
  with_reducible exact ringDrained_rests (tlbDrop_rests (putRing_rests (putObj_rests h)))

theorem nextRing_rests {P s} (h : Rests P s) : ∀ p, nextRing s = some p → Rests P p.2 := by
  intro p e
  dsimp only [nextRing] at e
  split at e
  · cases e; exact Rests.mk h
  · split at e
    · cases e
    · cases e; exact Rests.mk h

theorem startDelivery_rests {P s} {x0} (h : Rests P s) : Rests P (startDelivery x0 s) := by
  dsimp only [startDelivery]
  split
  · with_reducible exact h
  · split
    · with_reducible exact Rests.ite (ringFault_rests (Rests.mk (setCaskState_rests (putCq_rests (putRing_rests h))))) (Rests.mk (setCaskState_rests
                      (putCq_rests (putRing_rests h))))
    · with_reducible exact Rests.mk (setCaskState_rests (putCq_rests (putRing_rests h)))

theorem countStalls_rests {P s} (h : Rests P s) : Rests P (countStalls s) := by
  dsimp only [countStalls]
  with_reducible exact Rests.foldl h (fun s x h => setSticky_rests (bump_rests (putRing_rests h)))

theorem readPayload_rests {P s} {x0 x1 x2} (h : Rests P s) : Rests P (readPayload x0 x1 x2 s).2 := by
  dsimp only [readPayload]
  with_reducible exact Rests.mk (addObj_rests (Rests.ite (addObj_rests (addObj_rests (addObj_rests h))) (addObj_rests (addObj_rests h))))

theorem putDelivery_rests {P s} {x0} (h : Rests P s) : Rests P (putDelivery x0 s) := by
  dsimp only [putDelivery]
  with_reducible exact Rests.mk h

theorem writePieces_rests {P : ModeState → List Instr → List Host.Cell → Prop} {x0 x1 x2} {x3 : Nat × State} (h : Rests P x3.2) : Rests P
    (writePieces x0 x1 x2 x3).2.2 := by
  induction x2 generalizing x3 with
  | nil => exact h
  | cons p t ih =>
    obtain ⟨n, s⟩ := x3
    simp only [writePieces]
    split
    · next s' e => exact Rests.of_snd e (translate_rests h)
    · next a s' e => exact ih (hostWrite_rests (Rests.of_snd e (translate_rests h)))

theorem writeTag_rests {P s} {x0 x1 x2} (h : Rests P s) : Rests P (writeTag x0 x1 x2 s) := by
  dsimp only [writeTag]
  split
  · rename_i e300
    with_reducible exact putDelivery_rests (Rests.of_snd e300 (translate_rests h))
  · rename_i e300
    with_reducible exact Rests.ite (hostRead_rests (putDelivery_rests (hostWrite_rests (Rests.of_snd e300 (translate_rests h))))) (putDelivery_rests
                    (hostWrite_rests (Rests.of_snd e300 (translate_rests h))))

theorem carryDelivery_rests {P s} {x0} (h : Rests P s) : Rests P (carryDelivery x0 s) := by
  dsimp only [carryDelivery]
  split
  · exact h
  · split
    · exact h
    · next _ c _ _ k _ =>
      have h2 : Rests P (if x0.payload.isNone = true then readPayload x0 c k s else (x0, s)).2 :=
        Rests.ite_snd (readPayload_rests h) h
      exact Rests.ite (writeTag_rests (writePieces_rests h2)) (putDelivery_rests (writePieces_rests h2))

theorem postRing_rests {P s} {x0 x1} (h : Rests P s) : Rests P (postRing x0 x1 s) := by
  unfold postRing
  extract_lets u1
  clear_value u1
  with_reducible exact Rests.ite h (Rests.ite (ringFault_rests h) (putRing_rests h))

theorem execRingPost_rests {P s} {x0 x1} (h : Rests P s) : Answers (Rests P) (execRingPost x0 x1 s) := by
  unfold execRingPost
  with_reducible refine Rests.answers ?_
  with_reducible exact bar0Write_rests (fun s h => postRing_rests h) h

theorem consumeCq_rests {P s} {x0 x1} (h : Rests P s) : Rests P (consumeCq x0 x1 s) := by
  unfold consumeCq
  extract_lets u1
  clear_value u1
  with_reducible exact Rests.ite h (Rests.ite (Rests.ite h (cqFault_rests h)) (putCq_rests h))

theorem execCqHead_rests {P s} {x0 x1} (h : Rests P s) : Answers (Rests P) (execCqHead x0 x1 s) := by
  unfold execCqHead
  with_reducible refine Rests.answers ?_
  with_reducible exact bar0Write_rests (fun s h => consumeCq_rests h) h

theorem consumeExc_rests {P s} {x0} (h : Rests P s) : Rests P (consumeExc x0 s) := by
  unfold consumeExc
  extract_lets u1 u2
  clear_value u1
  with_reducible exact Rests.ite (Rests.mk h) h

theorem execExcHead_rests {P s} {x0} (h : Rests P s) : Answers (Rests P) (execExcHead x0 s) := by
  unfold execExcHead
  with_reducible refine Rests.answers ?_
  with_reducible exact bar0Write_rests (fun s h => consumeExc_rests h) h

theorem execDeliveryStart_rests {P s} (h : Rests P s) : Answers (Rests P) (execDeliveryStart s) := by
  dsimp only [execDeliveryStart]
  refine Rests.answers_ite (Rests.answers h) ?_
  split
  · next r t e => exact Rests.answers (startDelivery_rests (nextRing_rests (countStalls_rests h) _ e))
  · exact Rests.answers (countStalls_rests h)

theorem execDeliveryDataDone_rests {P s} {x0} (h : Rests P s) : Answers (Rests P) (execDeliveryDataDone x0 s) := by
  dsimp only [execDeliveryDataDone]
  split
  · with_reducible exact Rests.answers_ite (Rests.answers (carryDelivery_rests h)) (Rests.answers h)
  · with_reducible exact Rests.answers h

theorem completeDelivery_rests {P s} {x0 x1} (h : Rests P s) : Rests P (completeDelivery x0 x1 s) := by
  dsimp only [completeDelivery]
  with_reducible exact ringDrained_rests (releaseCask_rests (bump_rests (bump_rests (putRing_rests (Rests.mk (writeReserved_rests h))))))

theorem execCompletionEntry_rests {P s} {x0} (h : Rests P s) : Answers (Rests P) (execCompletionEntry x0 s) := by
  dsimp only [execCompletionEntry]
  split
  · with_reducible refine Rests.answers_ite ?_ ?_
    · split
      · with_reducible exact Rests.answers (completeDelivery_rests h)
      · with_reducible exact Rests.answers h
    · with_reducible exact Rests.answers h
  · with_reducible exact Rests.answers h

theorem execRingFault_rests {P s} {x0 x1} (h : Rests P s) : Answers (Rests P) (execRingFault x0 x1 s) := by
  dsimp only [execRingFault]
  with_reducible exact Rests.answers_ite (Rests.answers (ringFault_rests h)) (Rests.answers h)

theorem dropException_rests {P s} (h : Rests P s) : Rests P (dropException s) := by
  dsimp only [dropException]
  with_reducible exact setSticky_rests (bump_rests (Rests.mk h))

theorem translateAll_rests {P s} {x0 x1 x2 x3} (h : Rests P s) : Rests P (translateAll x0 x1 x2 x3 s).2 := by
  induction x3 generalizing s with
  | nil => exact h
  | cons p t ih =>
    simp only [translateAll]
    split
    · next s' e => exact Rests.of_snd e (translate_rests h)
    · next a s' e =>
      have h2 := Rests.of_snd e (translate_rests h)
      split
      · next s'' e2 => exact Rests.of_snd e2 (ih h2)
      · next l s'' e2 => exact Rests.of_snd e2 (ih h2)

theorem hostWrites_rests {P s} {x0} (h : Rests P s) : Rests P (hostWrites x0 s) := by
  induction x0 generalizing s with
  | nil => exact h
  | cons b t ih =>
    simp only [hostWrites]
    exact ih (hostWrite_rests h)

theorem postException_rests {P s} {x0} (h : Rests P s) : Rests P (postException x0 s) := by
  dsimp only [postException]
  split
  · rename_i e300
    with_reducible exact Rests.of_snd e300 (translate_rests h)
  · rename_i e300
    with_reducible exact fire_rests (bump_rests (Rests.mk (hostWrite_rests (Rests.of_snd e300 (translate_rests h)))))

theorem writeException_rests {P s} {x0} (h : Rests P s) : Rests P (writeException x0 s) := by
  dsimp only [writeException]
  split
  · rename_i e300
    with_reducible exact Rests.of_snd e300 (translateAll_rests h)
  · rename_i e300
    with_reducible refine Rests.ite ?_ ?_
    · split
      · rename_i e298
        with_reducible exact Rests.of_snd e298 (translate_rests (hostWrites_rests (Rests.of_snd e300 (translateAll_rests h))))
      · rename_i e298
        with_reducible exact hostRead_rests (Rests.mk (Rests.of_snd e298 (translate_rests (hostWrites_rests (Rests.of_snd e300 (translateAll_rests
                        h))))))
    · with_reducible exact postException_rests (hostWrites_rests (Rests.of_snd e300 (translateAll_rests h)))

theorem execExceptionEntry_rests {P s} (h : Rests P s) : Answers (Rests P) (execExceptionEntry s) := by
  dsimp only [execExceptionEntry]
  split
  · with_reducible exact Rests.answers h
  · with_reducible exact Rests.answers_ite (Rests.answers (dropException_rests h)) (Rests.answers_ite (Rests.answers h) (Rests.answers
                    (writeException_rests h)))

theorem enableExc_rests {P s} (h : Rests P s) : Rests P (enableExc s) := by
  unfold enableExc
  with_reducible refine Rests.ite ?_ ?_
  · with_reducible exact putObj_rests h
  · lift_lets
    intro u1 u2
    clear_value u1
    with_reducible exact putObj_rests (tlbForget_rests (Rests.mk h))

theorem disableExc_rests {P s} (h : Rests P s) : Rests P (disableExc s) := by
  dsimp only [disableExc]
  with_reducible exact putObj_rests (tlbDrop_rests (Rests.mk h))

theorem excFault_rests {P s} (h : Rests P s) : Rests P (excFault s) := by
  dsimp only [excFault]
  with_reducible exact setSticky_rests (Rests.mk h)

theorem rackingWalkDone_rests {P s} {x0 x1 x2 x3} (h : Rests P s) : Rests P (rackingWalkDone x0 x1 x2 x3 s) := by
  dsimp only [rackingWalkDone]
  split
  · rename_i e300
    with_reducible exact Rests.of_snd e300 (walkReturn_rests h)
  · rename_i e300
    with_reducible exact Rests.ite (excFault_rests (Rests.of_snd e300 (walkReturn_rests h))) (ringFault_rests (Rests.of_snd e300 (walkReturn_rests
                    h)))

theorem zeroReadDone_rests {P s} {x0 x1} (h : Rests P s) : Rests P (zeroReadDone x0 x1 s) := by
  dsimp only [zeroReadDone]
  with_reducible refine Rests.ite ?_ ?_
  · split
    · with_reducible exact Rests.ite (postException_rests h) h
    · with_reducible exact h
  · with_reducible exact Rests.mk h

theorem rackingReadFailed_rests {P s} {x0} (h : Rests P s) : Rests P (rackingReadFailed x0 s) := by
  dsimp only [rackingReadFailed]
  split
  · with_reducible exact Rests.ite (excFault_rests h) (ringFault_rests h)
  · with_reducible exact Rests.ite (excFault_rests h) (ringFault_rests h)
  · with_reducible exact h
  · with_reducible exact h
  · with_reducible exact h

theorem stopRacking_rests {P s} (h : Rests P s) : Rests P (stopRacking s) := by
  dsimp only [stopRacking]
  with_reducible exact setSticky_rests (Rests.mk (stopDeliveries_rests h))

theorem resumeRing_rests {P s} {x0} (h : Rests P s) : Rests P (resumeRing x0 s) := by
  dsimp only [resumeRing]
  with_reducible exact writeAbandoned_rests (putRing_rests h)

theorem resumeRacking_rests {P s} (h : Rests P s) : Rests P (resumeRacking s) := by
  dsimp only [resumeRacking]
  with_reducible exact Rests.foldl (Rests.mk h) (fun s x h => resumeRing_rests h)

theorem resetRacking_rests {P s} (h : Rests P s) : Rests P (resetRacking s) := by
  dsimp only [resetRacking]
  with_reducible exact Rests.mk (putObj_rests (Rests.foldl (Rests.foldl (stopDeliveries_rests h) (fun s x h => putObj_rests (putObj_rests h))) (fun s
                  x h => putObj_rests h)))

end Sys2Proof.Machine
end

section
/-! SUPPORT. The modes and the queue under the operations of the ports. -/

namespace Sys2Proof.Machine
open Sys2Proof

theorem restartAlignment_rests {P s} {x0 x1} (h : Rests P s) : Rests P (restartAlignment x0 x1 s) := by
  dsimp only [restartAlignment]
  with_reducible exact updatePort_rests (dropAlign_rests h)

theorem portFault_rests {P s} {x0 x1} (h : Rests P s) : Rests P (portFault x0 x1 s) := by
  unfold portFault
  extract_lets u1 u2 u3
  have h2 : Rests P u2.1 := recordFault_rests h
  clear_value u2
  have h3 : Rests P u3 := by
    dsimp only [u3]
    with_reducible refine Rests.ite ?_ ?_
    · with_reducible refine recordNoRetire_rests ?_
      dsimp -zeta only [u1]
      with_reducible exact putObj_rests (bump_rests h)
    · split
      · with_reducible exact h2
      · with_reducible refine stopPort_rests ?_
        dsimp -zeta only [u1]
        with_reducible exact putObj_rests (bump_rests (h2))
      · dsimp -zeta only [u1]
        with_reducible exact putObj_rests (bump_rests (h2))
  clear_value u3
  with_reducible exact restartAlignment_rests (h3)

theorem reinstatePort_rests {P s} {x0} (h : Rests P s) : Rests P (reinstatePort x0 s) := by
  dsimp only [reinstatePort]
  with_reducible exact Rests.ite h (updatePort_rests (ubFlushLane_rests (dropRetired_rests h)))

theorem sendPause_rests {P s} {x0 x1 x2} (h : Rests P s) : Rests P (sendPause x0 x1 x2 s) := by
  dsimp only [sendPause]
  with_reducible exact bump_rests (emit_rests h)

theorem pauseRequest_rests {P s} {x0} (h : Rests P s) : Rests P (pauseRequest x0 s) := by
  dsimp only [pauseRequest]
  with_reducible exact Rests.ite h (Rests.ite h (Rests.ite (putPortX_rests h) (sendPause_rests (putPortX_rests h))))

theorem setStops_rests {P s} {x0 x1} (h : Rests P s) : Rests P (setStops x0 x1 s) := by
  dsimp only [setStops]
  with_reducible exact putPortX_rests h

theorem matchFlow_rests {P s} {x0 x1 x2} (h : Rests P s) : Rests P (matchFlow x0 x1 x2 s).2 := by
  dsimp only [matchFlow]
  split
  · with_reducible exact h
  · with_reducible exact h
  · dsimp only
    with_reducible exact takeChoice_rests h

theorem classifyUdp_rests {P s} {x0 x1 x2} (h : Rests P s) : Rests P (classifyUdp x0 x1 x2 s).2 := by
  dsimp only [classifyUdp]
  split
  · rename_i e300
    with_reducible exact Rests.of_snd e300 (matchFlow_rests h)
  · rename_i e300
    with_reducible exact Rests.ite_snd (Rests.of_snd e300 (matchFlow_rests h)) (Rests.of_snd e300 (matchFlow_rests h))

theorem classify_rests {P s} {x0 x1} (h : Rests P s) : Rests P (classify x0 x1 s).2 := by
  dsimp only [classify]
  with_reducible refine Rests.ite_snd ?_ ?_
  · with_reducible exact h
  · with_reducible refine Rests.ite_snd ?_ ?_
    · with_reducible exact h
    · split
      · with_reducible exact h
      · with_reducible exact Rests.ite_snd h (Rests.ite_snd h (Rests.ite_snd h (Rests.ite_snd h (classifyUdp_rests h))))

theorem enterFrame_rests {P s} {x0 x1 x2 x3 x4} (h : Rests P s) : Rests P (enterFrame x0 x1 x2 x3 x4 s) := by
  dsimp only [enterFrame]
  with_reducible refine Rests.ite ?_ ?_
  · split
    · with_reducible exact Rests.ite (classify_rests (Rests.ite (Rests.ite (bump_rests h) h) (addObj_rests (bump_rests (Rests.ite (bump_rests h)
                      h))))) (bump_rests (classify_rests (Rests.ite (Rests.ite (bump_rests h) h) (addObj_rests (bump_rests (Rests.ite (bump_rests h)
                      h))))))
    · with_reducible exact classify_rests (Rests.ite (Rests.ite (bump_rests h) h) (addObj_rests (bump_rests (Rests.ite (bump_rests h) h))))
    · with_reducible exact classify_rests (Rests.ite (Rests.ite (bump_rests h) h) (addObj_rests (bump_rests (Rests.ite (bump_rests h) h))))
  · with_reducible exact ubStart_rests (classify_rests (Rests.ite (Rests.ite (bump_rests h) h) (addObj_rests (bump_rests (Rests.ite (bump_rests h)
                    h)))))

theorem receiveFrame_rests {P s} {x0 x1 x2 x3} (h : Rests P s) : Rests P (receiveFrame x0 x1 x2 x3 s) := by
  dsimp only [receiveFrame]
  with_reducible refine Rests.ite ?_ ?_
  · with_reducible refine enterFrame_rests ?_
    split
    · with_reducible exact bump_rests h
    · with_reducible exact h
  · with_reducible refine Rests.ite ?_ ?_
    · with_reducible refine bump_rests ?_
      split
      · with_reducible exact bump_rests h
      · with_reducible exact h
    · split
      · with_reducible exact bump_rests h
      · with_reducible exact h

theorem loopFrame_rests {P s} {x0 x1 x2} (h : Rests P s) : Rests P (loopFrame x0 x1 x2 s) := by
  dsimp only [loopFrame]
  with_reducible refine Rests.ite ?_ ?_
  · with_reducible refine enterFrame_rests ?_
    split
    · with_reducible exact bump_rests h
    · with_reducible exact h
  · with_reducible refine Rests.ite ?_ ?_
    · with_reducible refine bump_rests ?_
      split
      · with_reducible exact bump_rests h
      · with_reducible exact h
    · split
      · with_reducible exact bump_rests h
      · with_reducible exact h

theorem execPortFault_rests {P s} {x0 x1} (h : Rests P s) : Answers (Rests P) (execPortFault x0 x1 s) := by
  dsimp only [execPortFault]
  split
  · with_reducible exact Rests.answers_ite (Rests.answers (portFault_rests h)) (Rests.answers h)
  · with_reducible exact Rests.answers_ite (Rests.answers (portFault_rests h)) (Rests.answers h)
  · with_reducible exact Rests.answers_ite (Rests.answers (portFault_rests h)) (Rests.answers h)

theorem execLocalOrRemoteFault_rests {P s} {x0 x1 x2} (h : Rests P s) : Answers (Rests P) (execLocalOrRemoteFault x0 x1 x2 s) := by
  dsimp only [execLocalOrRemoteFault]
  with_reducible exact Rests.answers_ite (Rests.answers (updatePort_rests (putPortX_rests h))) (Rests.answers h)

theorem execPauseRequest_rests {P s} {x0} (h : Rests P s) : Answers (Rests P) (execPauseRequest x0 s) := by
  dsimp only [execPauseRequest]
  with_reducible exact Rests.answers (pauseRequest_rests h)

theorem execPauseRefresh_rests {P s} {x0} (h : Rests P s) : Answers (Rests P) (execPauseRefresh x0 s) := by
  dsimp only [execPauseRefresh]
  with_reducible exact Rests.answers_ite (Rests.answers h) (Rests.answers (sendPause_rests h))

theorem execMulticastJoin_rests {P s} {x0} (h : Rests P s) : Answers (Rests P) (execMulticastJoin x0 s) := by
  dsimp only [execMulticastJoin]
  with_reducible exact Rests.answers (updateJoin_rests h)

theorem execCascadeFrameDiscard_rests {P s} {x0} (h : Rests P s) : Answers (Rests P) (execCascadeFrameDiscard x0 s) := by
  dsimp only [execCascadeFrameDiscard]
  with_reducible exact Rests.answers_ite (Rests.answers (bump_rests h)) (Rests.answers h)

end Sys2Proof.Machine
end

section
/-! SUPPORT. The modes and the queue under the operations of the tap. -/

namespace Sys2Proof.Machine
open Sys2Proof

theorem putTx_rests {P s} {x0 x1} (h : Rests P s) : Rests P (putTx x0 x1 s) := by
  dsimp only [putTx]
  with_reducible exact Rests.mk h

theorem skipFrames_rests {P s} {x0 x1} (h : Rests P s) : Rests P (skipFrames x0 x1 s) := by
  dsimp only [skipFrames]
  with_reducible exact Rests.ite h (setSticky_rests (addObj_rests h))

theorem tapEnter_rests {P s} {x0} (h : Rests P s) : Rests P (tapEnter x0 s) := by
  dsimp only [tapEnter]
  split
  · with_reducible exact putTx_rests h
  · with_reducible exact skipFrames_rests (putTx_rests h)
  · with_reducible exact putTx_rests h
  · with_reducible exact putTx_rests h

theorem markReplay_rests {P s} {x0 x1} (h : Rests P s) : Rests P (markReplay x0 x1 s) := by
  dsimp only [markReplay]
  split
  · with_reducible exact putCask_rests h
  · with_reducible exact h

theorem takeSource_rests {P s} {x0 x1 x2 x3} (h : Rests P s) : Rests P (takeSource x0 x1 x2 x3 s).2.2 := by
  dsimp only [takeSource]
  split
  · exact h
  · exact h
  · split
    · exact h
    · split
      · exact markReplay_rests h
      · exact releaseCask_rests (bump_rests h)
  · split
    · exact h
    · split
      · exact h
      · split
        · exact h
        · split
          · exact h
          · exact h

theorem driveBoil_rests {P s} {x0 x1} (h : Rests P s) : Rests P (driveBoil x0 x1 s) := by
  dsimp only [driveBoil]
  with_reducible exact Rests.ite (fire_rests (setBoil_rests h)) (setBoil_rests h)

theorem updateTapBoil_rests {P s} {x0} (h : Rests P s) : Rests P (updateTapBoil x0 s) := by
  dsimp only [updateTapBoil]
  with_reducible exact driveBoil_rests (driveBoil_rests (putTx_rests h))

theorem tapPrefetch_rests {P s} {x0} (h : Rests P s) : Rests P (tapPrefetch x0 s) := by
  dsimp only [tapPrefetch]
  with_reducible refine Rests.ite ?_ ?_
  · with_reducible exact h
  · split
    · split
      · with_reducible exact putTx_rests h
      · with_reducible exact h
    · split
      · with_reducible exact Rests.ite (putTx_rests h) h
      · with_reducible exact h
    · with_reducible exact h

theorem tapRequest_rests {P s} {x0} (h : Rests P s) : Rests P (tapRequest x0 s) := by
  dsimp only [tapRequest]
  split
  · with_reducible exact h
  · split
    · with_reducible refine Rests.ite ?_ ?_
      · with_reducible exact h
      · split
        · rename_i e297
          with_reducible exact Rests.of_snd e297 (translate_rests h)
        · rename_i e297
          with_reducible exact hostRead_rests (Rests.of_snd e297 (translate_rests h))
    · with_reducible exact h
    · with_reducible exact h
    · with_reducible exact h

theorem tapData_rests {P s} {x0 x1 x2 x3} (h : Rests P s) : Rests P (tapData x0 x1 x2 x3 s) := by
  dsimp only [tapData]
  split
  · with_reducible exact h
  · with_reducible exact Rests.ite h (updateTapBoil_rests (tapRequest_rests (putTx_rests (Rests.ite (setSticky_rests (addObj_rests h)) h))))

theorem tapFetch_rests {P s} {x0 x1} (h : Rests P s) : Rests P (tapFetch x0 x1 s) := by
  dsimp only [tapFetch]
  split
  · with_reducible exact updateTapBoil_rests (tapPrefetch_rests h)
  · split
    · with_reducible exact updateTapBoil_rests (tapRequest_rests (tapPrefetch_rests h))
    · with_reducible exact updateTapBoil_rests (tapPrefetch_rests (Rests.ite (putTx_rests (tapPrefetch_rests h)) (setSticky_rests (addObj_rests
                      (putTx_rests (tapPrefetch_rests h))))))

theorem notePair_rests {P s} {x0 x1} (h : Rests P s) : Rests P (notePair x0 x1 s) := by
  dsimp only [notePair]
  with_reducible exact Rests.ite h (Rests.mk h)

theorem startFrame_rests {P s} {x0 x1} (h : Rests P s) : Rests P (startFrame x0 x1 s) := by
  dsimp only [startFrame]
  have h2 := takeSource_rests (x0 := x0) (x1 := (txOf s x0).k) (x2 := txSettings s x0) (x3 := txOf s x0) h
  split
  · next x t e => rw [e] at h2; exact putTx_rests h2
  · next x t e => rw [e] at h2; exact skipFrames_rests (putTx_rests h2)
  · next v x t e => rw [e] at h2; exact tapRequest_rests (notePair_rests (Rests.ite (flowSignal_rests (putTx_rests h2)) (putTx_rests h2)))

theorem releaseReplay_rests {P s} {x0} (h : Rests P s) : Rests P (releaseReplay x0 s) := by
  dsimp only [releaseReplay]
  with_reducible exact Rests.ite (Rests.foldl h (fun s x h => releaseCask_rests h)) h

theorem endRun_rests {P s} {x0} (h : Rests P s) : Rests P (endRun x0 s) := by
  dsimp only [endRun]
  with_reducible exact updateTapBoil_rests (releaseReplay_rests (putTx_rests h))

theorem settleTx_rests {P s} {x0} (h : Rests P s) : Rests P (settleTx x0 s) := by
  dsimp only [settleTx]
  with_reducible exact Rests.ite h (Rests.ite (endRun_rests h) (Rests.ite (releaseReplay_rests (putTx_rests h)) h))

theorem gridStart_rests {P s} {x0} (h : Rests P s) : Rests P (gridStart x0 s) := by
  unfold gridStart
  extract_lets u1 u2
  clear_value u1
  have h2 : Rests P u2 := startFrame_rests (putTx_rests h)
  clear_value u2
  with_reducible exact Rests.ite h (Rests.ite h (updateTapBoil_rests (tapPrefetch_rests (settleTx_rests (putTx_rests h2)))))

theorem usePacket_rests {P s} {x0 x1} (h : Rests P s) : Rests P (usePacket x0 x1 s) := by
  dsimp only [usePacket]
  split
  · with_reducible exact h
  · with_reducible exact settleTx_rests (putTx_rests (Rests.ite (bump_rests h) h))

theorem underrun_rests {P s} {x0} (h : Rests P s) : Rests P (underrun x0 s) := by
  dsimp only [underrun]
  with_reducible exact recordFault_rests (fire_rests (setSticky_rests (bump_rests h)))

theorem sendPacket_rests {P s} {x0 x1 x2} (h : Rests P s) : Rests P (sendPacket x0 x1 x2 s) := by
  unfold sendPacket
  extract_lets u1 u2 u3 u4 u5 u6 u7 u8 u9
  clear_value u1 u2 u3 u4 u5 u6
  have h8 : Rests P u8 := Rests.ite (setSticky_rests (bump_rests h)) h
  clear_value u8
  have h9 : Rests P u9 := bump_rests h8
  clear_value u9
  with_reducible exact Rests.ite (loopFrame_rests h9) (txFrame_rests h9)

theorem countUnder_rests {P s} {x0 x1} (h : Rests P s) : Rests P (countUnder x0 x1 s) := by
  dsimp only [countUnder]
  split
  · with_reducible exact putTx_rests (underrun_rests h)
  · with_reducible exact h

theorem duePacket_rests {P s} {x0 x1 x2} (h : Rests P s) : Rests P (duePacket x0 x1 x2 s) := by
  dsimp only [duePacket]
  with_reducible exact Rests.ite (tapRequest_rests (updateTapBoil_rests (tapPrefetch_rests (Rests.ite (usePacket_rests (putTx_rests (setSticky_rests
                  (bump_rests h)))) (Rests.ite (usePacket_rests h) (Rests.ite (Rests.ite (usePacket_rests (Rests.ite (underrun_rests h) h))
                  (countUnder_rests h)) (usePacket_rests (sendPacket_rests h)))))))) (Rests.ite (usePacket_rests (putTx_rests (setSticky_rests
                  (bump_rests h)))) (Rests.ite (usePacket_rests h) (Rests.ite (Rests.ite (usePacket_rests (Rests.ite (underrun_rests h) h))
                  (countUnder_rests h)) (usePacket_rests (sendPacket_rests h)))))

theorem packetAt_rests {P s} {x0 x1} (h : Rests P s) : Rests P (packetAt x0 x1 s) := by
  dsimp only [packetAt]
  split
  · with_reducible exact h
  · with_reducible exact duePacket_rests h

theorem dropHeld_rests {P s} {x0 x1} (h : Rests P s) : Rests P (dropHeld x0 x1 s) := by
  induction x1 generalizing s with
  | zero => exact h
  | succ n ih =>
    simp only [dropHeld]
    split
    · exact h
    · exact Rests.ite (ih (usePacket_rests (setSticky_rests (bump_rests h)))) h

theorem stopEnds_rests {P s} {x0 x1} (h : Rests P s) : Rests P (stopEnds x0 x1 s) := by
  unfold stopEnds
  extract_lets u1 u2 u3
  clear_value u1
  have h2 : Rests P u2 := putPortX_rests h
  clear_value u2
  have h3 : Rests P u3 := Rests.ite (sendWaiting_rests h2) h2
  clear_value u3
  with_reducible refine Rests.foldl ?_ ?_
  · with_reducible exact h3
  · intro t4 x4 h4
    split
    · with_reducible exact Rests.ite (dropHeld_rests h4) h4
    · with_reducible exact h4

theorem macControl_rests {P s} {x0 x1} (h : Rests P s) : Rests P (macControl x0 x1 s) := by
  dsimp only [macControl]
  with_reducible exact Rests.ite (bump_rests h) (Rests.foldl (setStops_rests (bump_rests h)) (fun s x h => stopEnds_rests h))

theorem stopTx_rests {P s} {x0} (h : Rests P s) : Rests P (stopTx x0 s) := by
  dsimp only [stopTx]
  with_reducible exact Rests.ite (endRun_rests h) (putTx_rests h)

theorem stopTransmit_rests {P s} {x0} (h : Rests P s) : Rests P (stopTransmit x0 s) := by
  dsimp only [stopTransmit]
  with_reducible exact Rests.foldl h (fun s x h => Rests.ite h (stopTx_rests h))

theorem abandonTx_rests {P s} (h : Rests P s) : Rests P (abandonTx s) := by
  dsimp only [abandonTx]
  with_reducible exact driveBoil_rests (driveBoil_rests (Rests.mk h))

theorem txTypeWritten_rests {P s} {x0} (h : Rests P s) : Rests P (txTypeWritten x0 s) := by
  dsimp only [txTypeWritten]
  with_reducible exact Rests.ite (stopTx_rests h) h

theorem tapEnable_rests {P s} {x0} (h : Rests P s) : Rests P (tapEnable x0 s) := by
  unfold tapEnable
  extract_lets u1 u2
  clear_value u1 u2
  with_reducible exact Rests.ite (putObj_rests h) (putObj_rests (tlbForget_rests (putTx_rests h)))

theorem tapDisable_rests {P s} {x0} (h : Rests P s) : Rests P (tapDisable x0 s) := by
  dsimp only [tapDisable]
  with_reducible exact putObj_rests (tlbDrop_rests (putTx_rests h))

theorem tapFault_rests {P s} {x0 x1} (h : Rests P s) : Rests P (tapFault x0 x1 s) := by
  dsimp only [tapFault]
  with_reducible exact Rests.ite h (settleTx_rests (putTx_rests h))

theorem tapWalkDone_rests {P s} {x0 x1 x2 x3} (h : Rests P s) : Rests P (tapWalkDone x0 x1 x2 x3 s) := by
  dsimp only [tapWalkDone]
  split
  · rename_i e300
    with_reducible exact tapFault_rests (Rests.of_snd e300 (walkReturn_rests h))
  · rename_i e300
    with_reducible exact tapRequest_rests (Rests.of_snd e300 (walkReturn_rests h))

theorem tapHostReset_rests {P s} (h : Rests P s) : Rests P (tapHostReset s) := by
  dsimp only [tapHostReset]
  with_reducible exact Rests.foldl h (fun s x h => settleTx_rests (putObj_rests (tlbDrop_rests (putTx_rests h))))

theorem execTapEntry_rests {P s} {x0} (h : Rests P s) : Answers (Rests P) (execTapEntry x0 s) := by
  dsimp only [execTapEntry]
  with_reducible exact Rests.answers_ite (Rests.answers (tapPrefetch_rests (tapEnter_rests h))) (Rests.answers h)

theorem execPacketDue_rests {P s} {x0 x1} (h : Rests P s) : Answers (Rests P) (execPacketDue x0 x1 s) := by
  dsimp only [execPacketDue]
  with_reducible exact Rests.answers (packetAt_rests h)

theorem execTapFetchComplete_rests {P s} {x0 x1} (h : Rests P s) : Answers (Rests P) (execTapFetchComplete x0 x1 s) := by
  dsimp only [execTapFetchComplete]
  with_reducible exact Rests.answers (tapFetch_rests h)

theorem postTx_rests {P s} {x0 x1} (h : Rests P s) : Rests P (postTx x0 x1 s) := by
  unfold postTx
  extract_lets u1 u2
  clear_value u1 u2
  with_reducible exact Rests.ite h (Rests.ite (tapFault_rests h) (putTx_rests h))

theorem execTxPost_rests {P s} {x0 x1} (h : Rests P s) : Answers (Rests P) (execTxPost x0 x1 s) := by
  unfold execTxPost
  with_reducible refine Rests.answers ?_
  with_reducible exact bar0Write_rests (fun s h => postTx_rests h) h

theorem execTapStop_rests {P s} {x0} (h : Rests P s) : Answers (Rests P) (execTapStop x0 s) := by
  dsimp only [execTapStop]
  with_reducible exact Rests.answers_ite (Rests.answers (settleTx_rests (putTx_rests h))) (Rests.answers h)

theorem triggerStart_rests {P s} {x0} (h : Rests P s) : Rests P (triggerStart x0 s) := by
  dsimp only [triggerStart]
  with_reducible refine Rests.ite ?_ ?_
  · with_reducible exact h
  · split
    · with_reducible exact h
    · split
      · with_reducible exact h
      · with_reducible exact Rests.ite h (updateTapBoil_rests (putTx_rests (startFrame_rests (Rests.mk h))))

theorem execReplayCaskDone_rests {P s} {x0} (h : Rests P s) : Answers (Rests P) (execReplayCaskDone x0 s) := by
  dsimp only [execReplayCaskDone]
  with_reducible refine Rests.answers_ite ?_ ?_
  · split
    · with_reducible exact Rests.answers (releaseCask_rests h)
    · with_reducible exact Rests.answers h
  · with_reducible exact Rests.answers h

theorem execTransmitCutTimeout_rests {P s} {x0} (h : Rests P s) : Answers (Rests P) (execTransmitCutTimeout x0 s) := by
  dsimp only [execTransmitCutTimeout]
  with_reducible exact Rests.answers_ite (Rests.answers (endRun_rests (setSticky_rests (bump_rests h)))) (Rests.answers h)

theorem execFrameReceive_rests {P s} {x0 x1 x2 x3 x4} (h : Rests P s) : Answers (Rests P) (execFrameReceive x0 x1 x2 x3 x4 s) := by
  dsimp only [execFrameReceive]
  with_reducible refine Rests.answers_ite ?_ ?_
  · with_reducible exact Rests.answers h
  · with_reducible refine Rests.answers_ite ?_ ?_
    · split
      · with_reducible exact Rests.answers (bump_rests (Rests.ite h (addObj_rests (addObj_rests h))))
      · with_reducible exact Rests.answers_ite (Rests.answers (Rests.ite h (addObj_rests (addObj_rests h)))) (Rests.answers (macControl_rests
                        (Rests.ite h (addObj_rests (addObj_rests h)))))
    · with_reducible exact Rests.answers (receiveFrame_rests (Rests.ite h (addObj_rests (addObj_rests h))))

theorem execPauseReceive_rests {P s} {x0 x1} (h : Rests P s) : Answers (Rests P) (execPauseReceive x0 x1 s) := by
  dsimp only [execPauseReceive]
  with_reducible refine Rests.answers_ite ?_ ?_
  · with_reducible exact Rests.answers h
  · split
    · with_reducible exact Rests.answers (bump_rests h)
    · with_reducible exact Rests.answers (macControl_rests h)

theorem execPauseStopEnd_rests {P s} {x0 x1} (h : Rests P s) : Answers (Rests P) (execPauseStopEnd x0 x1 s) := by
  dsimp only [execPauseStopEnd]
  with_reducible exact Rests.answers_ite (Rests.answers (stopEnds_rests h)) (Rests.answers h)

end Sys2Proof.Machine
end

section
/-! SUPPORT. The modes and the queue under the operations of the host link. -/

namespace Sys2Proof.Machine
open Sys2Proof

theorem linkUp_rests {P s} {x0 x1 x2} (h : Rests P s) : Rests P (linkUp x0 x1 x2 s) := by
  dsimp only [linkUp]
  with_reducible exact Rests.mk (Rests.ite (setSticky_rests (putObj_rests (putObj_rests (putObj_rests h)))) (putObj_rests (putObj_rests (putObj_rests
                  h))))

theorem linkDown_rests {P s} (h : Rests P s) : Rests P (linkDown s) := by
  dsimp only [linkDown]
  with_reducible exact Rests.mk (putObj_rests (putObj_rests (putObj_rests h)))

theorem configReset_rests {P s} (h : Rests P s) : Rests P (configReset s) := by
  dsimp only [configReset]
  with_reducible exact putObj_rests (Rests.mk h)

theorem setStopped_rests {P s} {x0} (h : Rests P s) : Rests P (setStopped x0 s) := by
  dsimp only [setStopped]
  with_reducible exact putObj_rests h

theorem stopRequests_rests {P s} (h : Rests P s) : Rests P (stopRequests s) := by
  dsimp only [stopRequests]
  with_reducible exact fire_rests (setStopped_rests (stopRacking_rests (Rests.mk (Rests.ite h (setSticky_rests h)))))

theorem sendHeld_rests {P s} {x0} (h : Rests P s) : Rests P (sendHeld x0 s) := by
  induction x0 generalizing s with
  | nil => exact h
  | cons v t ih =>
    simp only [sendHeld]
    refine ih (Rests.ite ?_ h)
    split
    · exact bump_rests (emit_rests (Rests.mk h))
    · exact bump_rests (emit_rests (Rests.mk h))
    · exact Rests.mk h
    · exact h

theorem resumeTaps_rests {P s} (h : Rests P s) : Rests P (resumeTaps s) := by
  dsimp only [resumeTaps]
  with_reducible exact Rests.foldl h (fun s x h => tapRequest_rests h)

theorem resumeRequests_rests {P s} (h : Rests P s) : Rests P (resumeRequests s) := by
  dsimp only [resumeRequests]
  with_reducible exact resumeTaps_rests (setStopped_rests (sendHeld_rests h))

theorem resetMailboxes_rests {P s} (h : Rests P s) : Rests P (resetMailboxes s) := by
  dsimp only [resetMailboxes]
  with_reducible exact Rests.mk h

theorem resetEventsHost_rests {P s} (h : Rests P s) : Rests P (resetEventsHost s) := by
  dsimp only [resetEventsHost]
  with_reducible exact Rests.mk h

theorem linkToL2_rests {P s} {x0} (h : Rests P s) : Rests P (linkToL2 x0 s) := by
  dsimp only [linkToL2]
  with_reducible exact Rests.ite (Rests.mk h) h

theorem hostReset_rests {P s} {x0} (h : Rests P s) : Rests P (hostReset x0 s) := by
  dsimp only [hostReset]
  with_reducible refine fire_rests ?_
  with_reducible refine Rests.ite ?_ ?_
  · with_reducible refine setStopped_rests ?_
    with_reducible refine updateIntx_rests ?_
    with_reducible refine configReset_rests ?_
    split
    · with_reducible exact bump_rests (setSticky_rests (setSticky_rests (tapHostReset_rests (resetRacking_rests (resetEventsHost_rests
                      (resetMailboxes_rests (Rests.mk (Rests.ite (setSticky_rests (linkToL2_rests h)) (linkToL2_rests h)))))))))
    · with_reducible exact bump_rests (setSticky_rests (setSticky_rests (tapHostReset_rests (resetRacking_rests (resetEventsHost_rests
                      (resetMailboxes_rests (Rests.mk (Rests.ite (setSticky_rests (linkToL2_rests h)) (linkToL2_rests h)))))))))
    · with_reducible exact linkDown_rests (bump_rests (setSticky_rests (setSticky_rests (tapHostReset_rests (resetRacking_rests
                      (resetEventsHost_rests (resetMailboxes_rests (Rests.mk (Rests.ite (setSticky_rests (linkToL2_rests h)) (linkToL2_rests
                      h))))))))))
    · with_reducible exact linkDown_rests (bump_rests (setSticky_rests (Rests.mk (setSticky_rests (tapHostReset_rests (resetRacking_rests
                      (resetEventsHost_rests (resetMailboxes_rests (Rests.mk (Rests.ite (setSticky_rests (linkToL2_rests h)) (linkToL2_rests
                      h)))))))))))
  · with_reducible refine updateIntx_rests ?_
    with_reducible refine configReset_rests ?_
    split
    · with_reducible exact bump_rests (setSticky_rests (setSticky_rests (tapHostReset_rests (resetRacking_rests (resetEventsHost_rests
                      (resetMailboxes_rests (Rests.mk (Rests.ite (setSticky_rests (linkToL2_rests h)) (linkToL2_rests h)))))))))
    · with_reducible exact bump_rests (setSticky_rests (setSticky_rests (tapHostReset_rests (resetRacking_rests (resetEventsHost_rests
                      (resetMailboxes_rests (Rests.mk (Rests.ite (setSticky_rests (linkToL2_rests h)) (linkToL2_rests h)))))))))
    · with_reducible exact linkDown_rests (bump_rests (setSticky_rests (setSticky_rests (tapHostReset_rests (resetRacking_rests
                      (resetEventsHost_rests (resetMailboxes_rests (Rests.mk (Rests.ite (setSticky_rests (linkToL2_rests h)) (linkToL2_rests
                      h))))))))))
    · with_reducible exact linkDown_rests (bump_rests (setSticky_rests (Rests.mk (setSticky_rests (tapHostReset_rests (resetRacking_rests
                      (resetEventsHost_rests (resetMailboxes_rests (Rests.mk (Rests.ite (setSticky_rests (linkToL2_rests h)) (linkToL2_rests
                      h)))))))))))

theorem failRequest_rests {P s} {x0} (h : Rests P s) : Rests P (failRequest x0 s) := by
  dsimp only [failRequest]
  split
  · with_reducible exact rackingReadFailed_rests h
  · with_reducible exact rackingReadFailed_rests h
  · with_reducible exact tapFault_rests h
  · with_reducible exact tapData_rests h
  · with_reducible exact h

theorem giveData_rests {P s} {x0 x1} (h : Rests P s) : Rests P (giveData x0 x1 s) := by
  dsimp only [giveData]
  split
  · with_reducible exact rackingWalkDone_rests h
  · with_reducible exact zeroReadDone_rests h
  · with_reducible exact tapRequest_rests (tapWalkDone_rests h)
  · with_reducible exact tapData_rests h
  · with_reducible exact bump_rests h

theorem returnTag_rests {P s} {x0} (h : Rests P s) : Rests P (returnTag x0 s) := by
  dsimp only [returnTag]
  with_reducible exact Rests.mk h

theorem lateCompletion_rests {P s} {x0 x1} (h : Rests P s) : Rests P (lateCompletion x0 x1 s) := by
  dsimp only [lateCompletion]
  with_reducible exact Rests.ite (returnTag_rests (logAer_rests (bump_rests (setSticky_rests h)))) (logAer_rests (bump_rests (setSticky_rests h)))

theorem completion_rests {P s} {x0 x1} (h : Rests P s) : Rests P (completion x0 x1 s) := by
  dsimp only [completion]
  split
  · with_reducible exact giveData_rests (freeTag_rests h)
  · with_reducible exact Rests.ite (lateCompletion_rests h) (logAer_rests h)

theorem timeoutTag_rests {P s} {x0} (h : Rests P s) : Rests P (timeoutTag x0 s) := by
  dsimp only [timeoutTag]
  with_reducible exact failRequest_rests (fire_rests (logAer_rests (bump_rests (setSticky_rests (Rests.mk (freeTag_rests h))))))

theorem poisonedCompletion_rests {P s} {x0} (h : Rests P s) : Rests P (poisonedCompletion x0 s) := by
  dsimp only [poisonedCompletion]
  split
  · with_reducible exact Rests.ite (bump_rests (freeTag_rests h)) (failRequest_rests (logAer_rests (bump_rests (setSticky_rests (freeTag_rests h)))))
  · with_reducible exact Rests.ite (lateCompletion_rests h) (logAer_rests h)

theorem winAttrWritten_rests {P s} {x0 x1} (h : Rests P s) : Rests P (winAttrWritten x0 x1 s) := by
  dsimp only [winAttrWritten]
  with_reducible exact putObj_rests (Rests.mk h)

theorem bar2Access_rests {R s} {x0} (h : Calm R s) : Calm R (bar2Access x0 s) := by
  dsimp only [bar2Access]
  split
  · split
    · with_reducible exact emit_rests (bump_rests h)
    · with_reducible exact emit_rests (Rests.ite (Calm.mk h) h)
  · with_reducible refine Rests.ite ?_ ?_
    · with_reducible exact logAer_rests h
    · split
      · with_reducible exact bump_rests h
      · with_reducible exact writePerformed_rests h

theorem execPerstDeassert_rests {P s} (h : Rests P s) : Answers (Rests P) (execPerstDeassert s) := by
  dsimp only [execPerstDeassert]
  with_reducible exact Rests.answers (Rests.mk h)

theorem execLinkUp_rests {P s} {x0 x1 x2} (h : Rests P s) : Answers (Rests P) (execLinkUp x0 x1 x2 s) := by
  dsimp only [execLinkUp]
  with_reducible exact Rests.answers_ite (Rests.answers h) (Rests.answers (linkUp_rests h))

theorem execHostReset_rests {P s} {x0} (h : Rests P s) : Answers (Rests P) (execHostReset x0 s) := by
  dsimp only [execHostReset]
  split
  · with_reducible exact Rests.answers_ite (Rests.answers (hostReset_rests h)) (Rests.answers h)
  · with_reducible exact Rests.answers_ite (Rests.answers (hostReset_rests h)) (Rests.answers h)
  · with_reducible exact Rests.answers_ite (Rests.answers (hostReset_rests h)) (Rests.answers h)
  · with_reducible exact Rests.answers_ite (Rests.answers h) (Rests.answers_ite (Rests.answers (linkDown_rests (Rests.mk h))) (Rests.answers
                    (hostReset_rests h)))

theorem execBusMasterDisable_rests {P s} {x0} (h : Rests P s) : Answers (Rests P) (execBusMasterDisable x0 s) := by
  dsimp only [execBusMasterDisable]
  with_reducible exact Rests.answers_ite (Rests.answers h) (Rests.answers_ite (Rests.answers (stopRequests_rests (Rests.mk h))) (Rests.answers
                  (stopRequests_rests (Rests.mk h))))

theorem execBusMasterEnable_rests {P s} {x0} (h : Rests P s) : Answers (Rests P) (execBusMasterEnable x0 s) := by
  unfold execBusMasterEnable
  with_reducible refine Rests.answers_ite ?_ ?_
  · lift_lets
    intro u1 u2 u3
    clear_value u1
    have h3 : Rests P u3 := Rests.mk h
    clear_value u3
    intro u4
    have h4 : Rests P u4 := putObj_rests h3
    clear_value u4
    with_reducible refine Rests.answers ?_
    with_reducible exact Rests.ite (resumeRequests_rests h4) (Rests.ite (stopRequests_rests h4) h4)
  · with_reducible refine Rests.answers ?_
    with_reducible exact h

theorem execL1Entry_rests {P s} (h : Rests P s) : Answers (Rests P) (execL1Entry s) := by
  dsimp only [execL1Entry]
  with_reducible exact Rests.answers_ite (Rests.answers (Rests.mk h)) (Rests.answers h)

theorem execL1Exit_rests {P s} (h : Rests P s) : Answers (Rests P) (execL1Exit s) := by
  dsimp only [execL1Exit]
  with_reducible exact Rests.answers (Rests.mk h)

theorem execWalkReadComplete_rests {P s} {x0 x1} (h : Rests P s) : Answers (Rests P) (execWalkReadComplete x0 x1 s) := by
  dsimp only [execWalkReadComplete]
  split
  · with_reducible exact Rests.answers h
  · split
    · with_reducible exact Rests.answers (giveData_rests (freeTag_rests h))
    · with_reducible exact Rests.answers (giveData_rests (freeTag_rests h))
    · with_reducible exact Rests.answers h
    · with_reducible exact Rests.answers h
    · with_reducible exact Rests.answers h

theorem execNpCompletion_rests {P s} {x0 x1} (h : Rests P s) : Answers (Rests P) (execNpCompletion x0 x1 s) := by
  dsimp only [execNpCompletion]
  with_reducible exact Rests.answers_ite (Rests.answers (completion_rests h)) (Rests.answers h)

theorem execCompletionTimeout_rests {P s} {x0} (h : Rests P s) : Answers (Rests P) (execCompletionTimeout x0 s) := by
  dsimp only [execCompletionTimeout]
  split
  · with_reducible exact Rests.answers (timeoutTag_rests h)
  · with_reducible exact Rests.answers h

theorem execLateCompletion_rests {P s} {x0 x1} (h : Rests P s) : Answers (Rests P) (execLateCompletion x0 x1 s) := by
  dsimp only [execLateCompletion]
  with_reducible exact Rests.answers_ite (Rests.answers (lateCompletion_rests h)) (Rests.answers h)

theorem execQuarantineExpiry_rests {P s} {x0} (h : Rests P s) : Answers (Rests P) (execQuarantineExpiry x0 s) := by
  dsimp only [execQuarantineExpiry]
  with_reducible exact Rests.answers (returnTag_rests h)

theorem execPoisonedCompletion_rests {P s} {x0} (h : Rests P s) : Answers (Rests P) (execPoisonedCompletion x0 s) := by
  dsimp only [execPoisonedCompletion]
  with_reducible exact Rests.answers_ite (Rests.answers (poisonedCompletion_rests h)) (Rests.answers h)

theorem execBar2Access_rests {R s} {x0} (h : Calm R s) : Answers (Calm R) (execBar2Access x0 s) := by
  unfold execBar2Access
  with_reducible refine Rests.answers_ite ?_ ?_
  · with_reducible refine Rests.answers ?_
    with_reducible exact h
  · lift_lets
    intro u1
    clear_value u1
    with_reducible refine Rests.answers_ite ?_ ?_
    · with_reducible refine Rests.answers ?_
      with_reducible exact bar2Access_rests (barAccess_rests h)
    · with_reducible refine Rests.answers ?_
      with_reducible exact barRefused_rests h

theorem execBar0PartialWrite_rests {P s} (h : Rests P s) : Answers (Rests P) (execBar0PartialWrite s) := by
  unfold execBar0PartialWrite
  with_reducible refine Rests.answers_ite ?_ ?_
  · with_reducible refine Rests.answers ?_
    with_reducible exact bump_rests (barAccess_rests h)
  · with_reducible refine Rests.answers ?_
    with_reducible exact barRefused_rests h

theorem execInterruptFormChange_rests {P s} {x0 x1} (h : Rests P s) : Answers (Rests P) (execInterruptFormChange x0 x1 s) := by
  unfold execInterruptFormChange
  with_reducible refine Rests.answers_ite ?_ ?_
  · lift_lets
    intro u1 u2
    have h2 : Rests P u2 := updateIntx_rests (Rests.mk h)
    clear_value u2
    with_reducible refine Rests.answers ?_
    with_reducible exact Rests.ite h2 (sendHeld_rests h2)
  · with_reducible refine Rests.answers ?_
    with_reducible exact h

end Sys2Proof.Machine
end

section
/-! SUPPORT. The modes and the queue under the operations of the lamps. -/

namespace Sys2Proof.Machine
open Sys2Proof

theorem putLamp_rests {P s} {x0 x1} (h : Rests P s) : Rests P (putLamp x0 x1 s) := by
  dsimp only [putLamp]
  with_reducible exact Rests.mk h

theorem writeRecord_rests {P s} {x0 x1} (h : Rests P s) : Rests P (writeRecord x0 x1 s) := by
  dsimp only [writeRecord]
  with_reducible exact emit_rests h

theorem startWriteback_rests {P s} {x0 x1} (h : Rests P s) : Rests P (startWriteback x0 x1 s) := by
  dsimp only [startWriteback]
  with_reducible exact Rests.ite (putLamp_rests h) (Rests.ite (writeRecord_rests (putLamp_rests h)) (Rests.ite (startStore_rests (putLamp_rests h))
                  h))

theorem writebackDone_rests {P s} {x0} (h : Rests P s) : Rests P (writebackDone x0 s) := by
  dsimp only [writebackDone]
  split
  · with_reducible exact h
  · split
    · with_reducible exact startWriteback_rests (putLamp_rests (bump_rests (putObj_rests h)))
    · with_reducible exact putLamp_rests (bump_rests (putObj_rests h))

theorem writeExact_rests {P s} {x0} (h : Rests P s) : Rests P (writeExact x0 s) := by
  dsimp only [writeExact]
  with_reducible exact startWriteback_rests h

theorem writeAllExact_rests {P s} (h : Rests P s) : Rests P (writeAllExact s) := by
  unfold writeAllExact
  with_reducible exact Rests.foldl h (fun s x h => writeExact_rests h)

theorem lampFaultAgain_rests {P s} {x0 x1} (h : Rests P s) : Rests P (lampFaultAgain x0 x1 s) := by
  unfold lampFaultAgain
  extract_lets u1 u2 u3
  clear_value u1
  have h2 : Rests P u2 := setSticky_rests h
  clear_value u2
  have h3 : Rests P u3.1 := recordFault_rests (putObj_rests h2)
  clear_value u3
  with_reducible exact Rests.ite h2 (Rests.ite (setSticky_rests h3) (Rests.ite (putObj_rests (relabelFault_rests h2)) h2))

theorem lampFault_rests {P s} {x0 x1} (h : Rests P s) : Rests P (lampFault x0 x1 s) := by
  unfold lampFault
  with_reducible refine Rests.ite ?_ ?_
  · with_reducible exact lampFaultAgain_rests h
  · lift_lets
    intro u1
    have h1 : Rests P u1 := fire_rests (setSticky_rests (putObj_rests (bump_rests h)))
    clear_value u1
    intro u2
    have h2 : Rests P u2.1 := recordFault_rests h1
    clear_value u2
    with_reducible exact Rests.ite (setSticky_rests h2) h2

theorem lampReinstate_rests {P s} {x0} (h : Rests P s) : Rests P (lampReinstate x0 s) := by
  unfold lampReinstate
  with_reducible refine Rests.ite ?_ ?_
  · with_reducible exact h
  · lift_lets
    intro u1
    have h1 : Rests P u1 := dropRetired_rests h
    clear_value u1
    intro u2
    have h2 : Rests P u2 := writeExact_rests h1
    clear_value u2
    intro u3 u4
    clear_value u3
    have h4 : Rests P u4 := putLamp_rests h2
    clear_value u4
    with_reducible exact Rests.ite (setSticky_rests h4) h4

theorem strobeOff_rests {P s} {x0 x1} (h : Rests P s) : Rests P (strobeOff x0 x1 s) := by
  dsimp only [strobeOff]
  split
  · with_reducible exact h
  · with_reducible exact emit_rests (putLamp_rests h)

theorem checkLife_rests {P s} {x0} (h : Rests P s) : Rests P (checkLife x0 s) := by
  unfold checkLife
  extract_lets u1 u2 u3 u4
  clear_value u1 u2
  have h3 : Rests P u3 := Rests.ite (fire_rests (setSticky_rests (putLamp_rests h))) h
  clear_value u3
  clear_value u4
  with_reducible exact Rests.ite (fire_rests (setSticky_rests (putLamp_rests h3))) h3

theorem countFlash_rests {P s} {x0} (h : Rests P s) : Rests P (countFlash x0 s) := by
  unfold countFlash
  extract_lets u1 u2 u3
  have h1 : Rests P u1 := bump_rests h
  clear_value u1
  clear_value u2
  have h3 : Rests P u3 := checkLife_rests (Rests.ite (startWriteback_rests h1) h1)
  clear_value u3
  with_reducible exact Rests.ite (setSticky_rests h3) h3

theorem strobeOccurrence_rests {P s} {x0 x1 x2} (h : Rests P s) : Rests P (strobeOccurrence x0 x1 x2 s) := by
  unfold strobeOccurrence
  with_reducible refine Rests.ite ?_ ?_
  · with_reducible exact bump_rests (checkLife_rests h)
  · lift_lets
    intro u1 u2 u3
    clear_value u1 u2
    have h3 : Rests P u3 := Rests.ite (setSticky_rests h) h
    clear_value u3
    intro u4
    have h4 : Rests P u4 := Rests.ite (setSticky_rests h3) h3
    clear_value u4
    intro u5 u6
    clear_value u5
    have h6 : Rests P u6 := emit_rests (putLamp_rests h4)
    clear_value u6
    with_reducible exact countFlash_rests (fire_rests h6)

theorem strobesOff_rests {P s} (h : Rests P s) : Rests P (strobesOff s) := by
  dsimp only [strobesOff]
  with_reducible exact Rests.foldl h (fun s x h => strobeOff_rests h)

theorem takeLimits_rests {P s} {x0 x1} (h : Rests P s) : Rests P (takeLimits x0 x1 s) := by
  dsimp only [takeLimits]
  with_reducible exact putBlob_rests (putBlob_rests (putBlob_rests (putBlob_rests (putObj_rests (putObj_rests (putObj_rests (putObj_rests h)))))))

theorem takeStored_rests {P s} {x0 x1} (h : Rests P s) : Rests P (takeStored x0 x1 s) := by
  dsimp only [takeStored]
  split
  · with_reducible exact putObj_rests (putLamp_rests h)
  · with_reducible exact setSticky_rests (putObj_rests (putLamp_rests h))

theorem takeHead_rests {P s} {x0 x1} (h : Rests P s) : Rests P (takeHead x0 x1 s) := by
  dsimp only [takeHead]
  with_reducible exact putLamp_rests (putObj_rests (putObj_rests (takeStored_rests (takeLimits_rests h))))

theorem headFound_rests {P s} {x0 x1} (h : Rests P s) : Rests P (headFound x0 x1 s) := by
  unfold headFound
  extract_lets u1 u2 u3 u4
  clear_value u1
  have h3 : Rests P u3 := Rests.ite (takeStored_rests (takeLimits_rests h)) h
  clear_value u3
  clear_value u4
  with_reducible exact Rests.ite (takeHead_rests h) (Rests.ite (putLamp_rests h3) (fire_rests (setSticky_rests (bump_rests (takeHead_rests h)))))

theorem headGone_rests {P s} {x0} (h : Rests P s) : Rests P (headGone x0 s) := by
  unfold headGone
  extract_lets u1 u2 u3
  clear_value u1
  have h2 : Rests P u2 := putLamp_rests h
  clear_value u2
  have h3 : Rests P u3 := putObj_rests (putObj_rests (putObj_rests h2))
  clear_value u3
  with_reducible exact Rests.ite (setSticky_rests h3) h3

theorem headMissed_rests {P s} {x0 x1} (h : Rests P s) : Rests P (headMissed x0 x1 s) := by
  unfold headMissed
  extract_lets u1 u2 u3
  have h1 : Rests P u1 := Rests.ite (lampFault_rests h) h
  clear_value u1
  clear_value u2
  have h3 : Rests P u3 := putLamp_rests h1
  clear_value u3
  with_reducible exact Rests.ite (headGone_rests h3) h3

theorem headPoll_rests {P s} {x0 x1} (h : Rests P s) : Rests P (headPoll x0 x1 s) := by
  unfold headPoll
  split
  · with_reducible exact headMissed_rests h
  · with_reducible exact Rests.ite (headFound_rests h) (headMissed_rests h)

theorem execStrobeDelivery_rests {P s} {x0} (h : Rests P s) : Answers (Rests P) (execStrobeDelivery x0 s) := by
  dsimp only [execStrobeDelivery]
  split
  · with_reducible exact Rests.answers h
  · with_reducible exact Rests.answers (strobeOccurrence_rests (putLamp_rests h))

theorem pulsePeak_rests {P s} {x0 x1} (h : Rests P s) : Rests P (pulsePeak x0 x1 s) := by
  unfold pulsePeak
  extract_lets u1 u2 u3 u4
  clear_value u1 u2
  have h3 : Rests P u3 := putObj_rests (putLamp_rests h)
  clear_value u3
  clear_value u4
  with_reducible exact Rests.ite (lampFault_rests h3) h3

theorem execPulseEnd_rests {P s} {x0 x1} (h : Rests P s) : Answers (Rests P) (execPulseEnd x0 x1 s) := by
  unfold execPulseEnd
  split
  · with_reducible refine Rests.answers ?_
    with_reducible exact Rests.ite (pulsePeak_rests h) h
  · with_reducible refine Rests.answers ?_
    with_reducible exact Rests.ite (pulsePeak_rests (strobeOff_rests h)) h

theorem execStrobeGapEnd_rests {P s} {x0} (h : Rests P s) : Answers (Rests P) (execStrobeGapEnd x0 s) := by
  dsimp only [execStrobeGapEnd]
  with_reducible exact Rests.answers_ite (Rests.answers h) (Rests.answers (putLamp_rests h))

theorem writebackComplete_rests {P s} {x0 x1} (h : Rests P s) : Rests P (writebackComplete x0 x1 s) := by
  unfold writebackComplete
  extract_lets u1 u2 u3
  clear_value u1
  have h2 : Rests P u2 := lampFault_rests h
  clear_value u2
  clear_value u3
  split
  · with_reducible exact h
  · with_reducible exact Rests.ite h (Rests.ite (writebackDone_rests h) (Rests.ite (putLamp_rests h2) (putLamp_rests h2)))

theorem retryWriteback_rests {P s} {x0} (h : Rests P s) : Rests P (retryWriteback x0 s) := by
  unfold retryWriteback
  extract_lets u1
  clear_value u1
  split
  · with_reducible exact Rests.ite (writeRecord_rests (putLamp_rests h)) h
  · with_reducible exact h

theorem lampRetries_rests {P s} (h : Rests P s) : Rests P (lampRetries s) := by
  unfold lampRetries
  with_reducible exact Rests.foldl h (fun s x h => retryWriteback_rests h)

theorem execHeadPoll_rests {P s} {x0 x1} (h : Rests P s) : Answers (Rests P) (execHeadPoll x0 x1 s) := by
  unfold execHeadPoll
  with_reducible refine Rests.answers_ite ?_ ?_
  · with_reducible refine Rests.answers ?_
    with_reducible exact h
  · with_reducible refine Rests.answers ?_
    with_reducible exact checkLife_rests (headPoll_rests h)

theorem execInterlockFall_rests {P s} {x0} (h : Rests P s) : Answers (Rests P) (execInterlockFall x0 s) := by
  dsimp only [execInterlockFall]
  with_reducible exact Rests.answers_ite (Rests.answers (Rests.foldl h (fun s x h => strobeOff_rests h))) (Rests.answers (fire_rests (bump_rests
                  (putObj_rests (Rests.foldl h (fun s x h => strobeOff_rests h))))))

theorem execInterlockPermit_rests {P s} {x0} (h : Rests P s) : Answers (Rests P) (execInterlockPermit x0 s) := by
  dsimp only [execInterlockPermit]
  with_reducible exact Rests.answers_ite (Rests.answers h) (Rests.answers (fire_rests (bump_rests (putObj_rests h))))

theorem execOvercurrent_rests {P s} {x0 x1} (h : Rests P s) : Answers (Rests P) (execOvercurrent x0 x1 s) := by
  unfold execOvercurrent
  extract_lets u1 u2 u3
  clear_value u1 u2 u3
  split
  · with_reducible refine Rests.answers_ite ?_ ?_
    · with_reducible refine Rests.answers ?_
      with_reducible exact lampFault_rests (putObj_rests (putLamp_rests (strobeOff_rests h)))
    · with_reducible refine Rests.answers ?_
      with_reducible exact h
  · with_reducible refine Rests.answers ?_
    with_reducible exact h

end Sys2Proof.Machine
end

section
/-! SUPPORT. The modes and the queue under the operations of the modes. -/

namespace Sys2Proof.Machine
open Sys2Proof

theorem moveCasks_rests {P s} {x0 x1 x2} (h : Rests P s) : Rests P (moveCasks x0 x1 x2 s) := by
  dsimp only [moveCasks]
  with_reducible exact Rests.foldl h (fun s x h => Rests.ite (setCaskState_rests h) h)

theorem releaseCasks_rests {P s} {x0} (h : Rests P s) : Rests P (releaseCasks x0 s) := by
  dsimp only [releaseCasks]
  with_reducible exact loseCasks_rests h

theorem stopAllDeliveries_rests {P s} (h : Rests P s) : Rests P (stopAllDeliveries s) := by
  dsimp only [stopAllDeliveries]
  with_reducible exact stopDeliveries_rests h

theorem clearEngine_rests {P s} (h : Rests P s) : Rests P (clearEngine s) := by
  dsimp only [clearEngine]
  with_reducible exact Rests.mk h

theorem clearBoil_rests {P s} (h : Rests P s) : Rests P (clearBoil s) := by
  dsimp only [clearBoil]
  with_reducible exact Rests.foldl h (fun s x h => putObj_rests h)

theorem finishAccesses_rests {R s} (h : Calm R s) : Calm R (finishAccesses s) := by
  unfold finishAccesses
  extract_lets u1 u2 u3
  clear_value u1
  with_reducible exact Rests.foldl (Calm.mk h) (fun s x h => Rests.ite (writePerformed_rests h) h)

theorem hbmSleep_rests {q s} (h : Waits q s) : Waits q (hbmSleep s) := by
  unfold hbmSleep
  with_reducible refine Rests.ite ?_ ?_
  · with_reducible exact h
  · lift_lets
    intro u1
    have h1 : Waits q u1 := finishAccesses_rests h
    clear_value u1
    intro u2
    with_reducible exact Waits.mk h1

theorem hbmLost_rests {q s} (h : Waits q s) : Waits q (hbmLost s) := by
  dsimp only [hbmLost]
  with_reducible exact Waits.mk (loseMem_rests h)

theorem startReceiving_rests {P s} (h : Rests P s) : Rests P (startReceiving s) := by
  dsimp only [startReceiving]
  with_reducible exact Rests.foldl (Rests.mk h) (fun s x h => clearStamps_rests h)

theorem flushLanes_rests {P s} {x0} (h : Rests P s) : Rests P (flushLanes x0 s) := by
  dsimp only [flushLanes]
  with_reducible exact Rests.foldl h (fun s x h => Rests.ite (Rests.mk (ubFlush_rests h)) h)

theorem enterDormant_rests {q s} (h : Waits q s) : Waits q (enterDormant s) := by
  unfold enterDormant
  extract_lets u1 u2 u3
  have h1 : Waits q u1 := emptyUnderbacks_rests h
  clear_value u1
  have h2 : Waits q u2 := hbmLost_rests (loseAllCasks_rests h1)
  clear_value u2
  with_reducible exact Rests.ite (Waits.mk h2) (hbmSleep_rests h1)

theorem leaveDormant_rests {q s} (h : Waits q s) : Waits q (leaveDormant s) := by
  dsimp only [leaveDormant]
  with_reducible exact Waits.mk (setSticky_rests h)

theorem enterEffects_rests {q s} {x0 x1} (h : Waits q s) : Waits q (enterEffects x0 x1 s) := by
  dsimp only [enterEffects]
  split
  · with_reducible exact leaveDormant_rests (Rests.ite (startReceiving_rests h) h)
  · with_reducible exact enterDormant_rests (Rests.ite (startReceiving_rests h) h)
  · with_reducible exact moveCasks_rests (Rests.ite (startReceiving_rests h) h)
  · with_reducible exact moveCasks_rests (Rests.ite (startReceiving_rests h) h)
  · with_reducible exact moveCasks_rests (Rests.ite (startReceiving_rests h) h)
  · with_reducible exact moveCasks_rests (Rests.ite (startReceiving_rests h) h)
  · with_reducible exact flushLanes_rests (clearEngine_rests (loseAllCasks_rests (stopAllDeliveries_rests (Rests.ite (startReceiving_rests h) h))))
  · with_reducible exact Rests.ite (startReceiving_rests h) h

theorem settleMode_rests {q s} {x0} (h : Waits q s) : Waits q (settleMode x0 s) := by
  dsimp only [settleMode]
  with_reducible exact relaneAll_rests (fire_rests (putObj_rests (Waits.mk h)))

theorem beginTransition_rests {q s} {x0} (h : Waits q s) : Waits q (beginTransition x0 s) := by
  dsimp only [beginTransition]
  with_reducible exact stopTransmit_rests (Waits.mk h)

theorem acceptRequest_rests {q s} {x0} (h : Waits q s) : Waits q (acceptRequest x0 s) := by
  dsimp only [acceptRequest]
  with_reducible exact beginTransition_rests (putObj_rests h)

theorem settleShutdown_rests {q s} (h : Waits q s) : Waits q (settleShutdown s) := by
  dsimp only [settleShutdown]
  with_reducible exact Rests.ite (putObj_rests (Waits.mk h)) h

theorem finishTransition_rests {q s} {x0} (h : Waits q s) : Waits q (finishTransition x0 s) := by
  unfold finishTransition
  extract_lets u1 u2 u3 u4 u5
  clear_value u1
  have h2 : Waits q u2 := settleMode_rests (enterEffects_rests h)
  clear_value u2
  clear_value u3
  have h5 : Waits q u5 := Waits.mk h2
  clear_value u5
  with_reducible refine Rests.ite ?_ ?_
  · with_reducible exact Rests.ite (acceptRequest_rests h5) (beginTransition_rests h5)
  · split
    · with_reducible exact settleShutdown_rests (Rests.ite (acceptRequest_rests h5) h5)
    · with_reducible exact settleShutdown_rests h5

theorem enterLimp_rests {q s} (h : Waits q s) : Waits q (enterLimp s) := by
  dsimp only [enterLimp]
  with_reducible exact settleMode_rests (Waits.mk (Rests.ite (hbmSleep_rests (flushLanes_rests (clearBoil_rests (clearEngine_rests
                  (loseAllCasks_rests (abandonTx_rests (stopAllDeliveries_rests h))))))) (startReceiving_rests (hbmSleep_rests (flushLanes_rests
                  (clearBoil_rests (clearEngine_rests (loseAllCasks_rests (abandonTx_rests (stopAllDeliveries_rests h))))))))))

theorem ppsLow_rests {P s} (h : Rests P s) : Rests P (ppsLow s) := by
  unfold ppsLow
  extract_lets u1 u2 u3
  clear_value u1
  have h3 : Rests P u3 := Rests.mk h
  clear_value u3
  with_reducible exact Rests.ite (emit_rests h3) h3

theorem haltPins_rests {P s} (h : Rests P s) : Rests P (haltPins s) := by
  unfold haltPins
  extract_lets u1
  have h1 : Rests P u1 := Rests.foldl h (fun s x h => Rests.ite (driveTrigOut_rests h) h)
  clear_value u1
  with_reducible exact strobesOff_rests (ppsLow_rests h1)

theorem enterHalt_rests {q s} (h : Waits q s) : Waits q (enterHalt s) := by
  unfold enterHalt
  extract_lets u1 u2 u3 u4 u5 u6
  have h1 : Waits q u1 := emptyUnderbacks_rests (abandonTx_rests (haltPins_rests h))
  clear_value u1
  have h3 : Waits q u3 := Waits.mk h1
  clear_value u3
  have h4 : Waits q u4 := hbmSleep_rests (clearBoil_rests h3)
  clear_value u4
  have h6 : Waits q u6 := Waits.mk h4
  clear_value u6
  with_reducible exact writeAllExact_rests (settleMode_rests h6)

theorem haltBy_rests {q s} {x0} (h : Waits q s) : Waits q (haltBy x0 s) := by
  dsimp only [haltBy]
  with_reducible exact Rests.ite h (Rests.ite (setSticky_rests (Waits.mk h)) (enterHalt_rests (setSticky_rests (Waits.mk h))))

theorem limpBy_rests {q s} {x0} (h : Waits q s) : Waits q (limpBy x0 s) := by
  unfold limpBy
  with_reducible refine Rests.ite ?_ ?_
  · with_reducible exact h
  · lift_lets
    intro u1 u2
    have h2 : Waits q u2 := setSticky_rests (Waits.mk h)
    clear_value u2
    intro u3 u4
    have h4 : Waits q u4 := Waits.mk h2
    clear_value u4
    intro u5
    with_reducible exact Rests.ite h2 (Rests.ite (haltBy_rests h2) (Rests.ite h2 (Rests.ite (Waits.mk h4) (enterLimp_rests h4))))

theorem settleCauses_rests {q s} (h : Waits q s) : Waits q (settleCauses s) := by
  dsimp only [settleCauses]
  with_reducible exact Rests.ite (haltBy_rests (Waits.mk h)) (Rests.ite (limpBy_rests (Waits.mk h)) (Waits.mk h))

theorem takeRequest_rests {q s} {x0} (h : Waits q s) : Waits q (takeRequest x0 s) := by
  dsimp only [takeRequest]
  with_reducible exact Rests.ite (haltBy_rests (putObj_rests h)) (Rests.ite (Waits.mk h) (acceptRequest_rests h))

theorem stagedRequest_rests {q s} {x0 x1} (h : Waits q s) : Waits q (stagedRequest x0 x1 s) := by
  dsimp only [stagedRequest]
  split
  · with_reducible exact Rests.ite (takeRequest_rests h) h
  · with_reducible exact h

theorem advanceTransition_rests {q s} {x0} (h : Waits q s) : Waits q (advanceTransition x0 s) := by
  dsimp only [advanceTransition]
  with_reducible exact Rests.ite h (Rests.ite (Rests.ite (stopReceiving_rests h) h) (Rests.ite (Rests.ite (stopReceiving_rests h) h) (Rests.ite
                  (Rests.ite (Rests.ite (Waits.mk (Rests.ite (moveCasks_rests (Rests.ite (stopReceiving_rests h) h)) (Rests.ite (stopReceiving_rests
                  h) h))) (finishTransition_rests (Rests.ite (moveCasks_rests (Rests.ite (stopReceiving_rests h) h)) (Rests.ite (stopReceiving_rests
                  h) h)))) (finishTransition_rests (releaseCasks_rests (Rests.ite (moveCasks_rests (Rests.ite (stopReceiving_rests h) h)) (Rests.ite
                  (stopReceiving_rests h) h))))) (finishTransition_rests (Rests.ite (stopReceiving_rests h) h)))))

theorem wakeUp_rests {q s} {x0} (h : Waits q s) : Waits q (wakeUp x0 s) := by
  dsimp only [wakeUp]
  with_reducible exact Rests.ite (beginTransition_rests (assertWake_rests (Waits.mk h))) (Rests.ite (Waits.mk h) h)

theorem wakeFires_rests {q s} {x0} (h : Waits q s) : Waits q (wakeFires x0 s) := by
  dsimp only [wakeFires]
  with_reducible exact Rests.ite (setSticky_rests (Rests.ite (wakeUp_rests (fire_rests (putObj_rests (Waits.mk h)))) (fire_rests (putObj_rests
                  (Waits.mk h))))) (Rests.ite (wakeUp_rests (fire_rests (putObj_rests (Waits.mk h)))) (fire_rests (putObj_rests (Waits.mk h))))

theorem evalWake_rests {q s} (h : Waits q s) : Waits q (evalWake s) := by
  dsimp only [evalWake]
  with_reducible exact Rests.ite (wakeFires_rests h) h

theorem wakeAtWritten_rests {q s} {x0} (h : Waits q s) : Waits q (wakeAtWritten x0 s) := by
  dsimp only [wakeAtWritten]
  with_reducible exact Rests.ite (wakeFires_rests (putObj_rests (Waits.mk h))) (putObj_rests (Waits.mk h))

theorem keepRepairs_rests {P s} {x0} (h : Rests P s) : Rests P (keepRepairs x0 s) := by
  unfold keepRepairs
  extract_lets u1 u2
  clear_value u1
  with_reducible exact Rests.foldl (Rests.mk h) (fun s x h => putObj_rests h)

theorem coldReset_rests {q s} {x0} (h : Waits q s) : Waits q (coldReset x0 s) :=
  keepRepairs_rests (putObj_rests h)

theorem clearHydro_rests {P s} (h : Rests P s) : Rests P (clearHydro s) := h

theorem warmReset_rests {q s} {x0} (h : Waits q s) : Waits q (warmReset x0 s) := by
  unfold warmReset
  extract_lets u1 u2 u3 u4 u5 u6 u7 u8 u9 u10
  have h1 : Waits q u1 := abandonTx_rests (stopAllDeliveries_rests h)
  clear_value u1
  have h2 : Waits q u2 := clearEngine_rests (loseAllCasks_rests h1)
  clear_value u2
  have h3 : Waits q u3 := Rests.ite (emit_rests (hostReset_rests h2)) (resetRacking_rests h2)
  clear_value u3
  have h4 : Waits q u4 := hbmSleep_rests (clearBoil_rests (clearHydro_rests (strobesOff_rests h3)))
  clear_value u4
  have h8 : Waits q u8 := Waits.mk h4
  clear_value u8
  have h9 : Waits q u9 := Rests.foldl h8 (fun s x h => putObj_rests h)
  clear_value u9
  have h10 : Waits q u10 := putObj_rests (putObj_rests (putObj_rests h9))
  clear_value u10
  with_reducible exact putObj_rests (settleMode_rests (putObj_rests h10))

theorem settleWarm_rests {q s} (h : Waits q s) : Waits q (settleWarm s) := by
  dsimp only [settleWarm]
  split
  · with_reducible exact Rests.ite (warmReset_rests h) h
  · with_reducible exact h

theorem storeImage_rests {P s} {x0} (h : Rests P s) : Rests P (storeImage x0 s) := by
  dsimp only [storeImage]
  with_reducible exact Rests.mk h

theorem commitImage_rests {q s} (h : Waits q s) : Waits q (commitImage s) := by
  unfold commitImage
  extract_lets u1 u2 u3 u4 u5
  clear_value u1
  have h2 : Waits q u2.2 := takeChoice_rests h
  clear_value u2
  have h4 : Waits q u4 := startStore_rests (putObj_rests (putObj_rests h2))
  clear_value u4
  split
  · with_reducible exact Rests.ite (putObj_rests h2) (Rests.ite (Waits.mk h4) h4)
  · with_reducible exact putObj_rests h
  · with_reducible exact putObj_rests h
  · with_reducible exact putObj_rests h

theorem trySlot_rests {P s} {x0} (h : Rests P s) : Rests P (trySlot x0 s).2 := by
  dsimp only [trySlot]
  split
  · with_reducible exact h
  · with_reducible exact setSticky_rests h
  · with_reducible exact setSticky_rests h
  · with_reducible exact h

theorem runSlot_rests {q s} {x0} (h : Waits q s) : Waits q (runSlot x0 s) := by
  dsimp only [runSlot]
  with_reducible exact putObj_rests (Waits.mk h)

theorem loadImage_rests {q s} (h : Waits q s) : Waits q (loadImage s) := by
  dsimp only [loadImage]
  split
  · rename_i e300
    with_reducible exact runSlot_rests (Rests.of_snd e300 (trySlot_rests (putObj_rests h)))
  · rename_i e300
    split
    · rename_i e299
      with_reducible exact runSlot_rests (Rests.of_snd e299 (trySlot_rests (Rests.of_snd e300 (trySlot_rests (putObj_rests h)))))
    · rename_i e299
      with_reducible exact putObj_rests (Waits.mk (Rests.of_snd e299 (trySlot_rests (Rests.of_snd e300 (trySlot_rests (putObj_rests h))))))

theorem startShutdown_rests {q s} (h : Waits q s) : Waits q (startShutdown s) := by
  dsimp only [startShutdown]
  with_reducible exact Rests.ite (acceptRequest_rests (writeAllExact_rests (Waits.mk h))) (settleShutdown_rests (writeAllExact_rests (Waits.mk h)))

theorem execColdReset_rests {q s} {x0} (h : Waits q s) : Answers (Waits q) (execColdReset x0 s) := by
  dsimp only [execColdReset]
  with_reducible exact Rests.answers (coldReset_rests h)

theorem execColdExit_rests {q s} (h : Waits q s) : Answers (Waits q) (execColdExit s) := by
  dsimp only [execColdExit]
  with_reducible exact Rests.answers_ite (Rests.answers (Waits.mk h)) (Rests.answers h)

theorem execKilnBrownOut_rests {q s} (h : Waits q s) : Answers (Waits q) (execKilnBrownOut s) := by
  dsimp only [execKilnBrownOut]
  with_reducible exact Rests.answers (coldReset_rests (takeChoice_rests h))

theorem execBootImageLoad_rests {q s} (h : Waits q s) : Answers (Waits q) (execBootImageLoad s) := by
  dsimp only [execBootImageLoad]
  with_reducible exact Rests.answers_ite (Rests.answers (loadImage_rests h)) (Rests.answers h)

theorem execBootBist_rests {q s} {x0 x1 x2} (h : Waits q s) : Answers (Waits q) (execBootBist x0 x1 x2 s) := by
  dsimp only [execBootBist]
  with_reducible exact Rests.answers_ite (Rests.answers_ite (Rests.answers (Waits.mk (Rests.ite (Rests.ite (Rests.ite h (setSticky_rests h))
                  (setSticky_rests (Rests.ite h (setSticky_rests h)))) (setSticky_rests (Rests.ite (Rests.ite h (setSticky_rests h)) (setSticky_rests
                  (Rests.ite h (setSticky_rests h)))))))) (Rests.answers (haltBy_rests (Rests.ite (Rests.ite (Rests.ite h (setSticky_rests h))
                  (setSticky_rests (Rests.ite h (setSticky_rests h)))) (setSticky_rests (Rests.ite (Rests.ite h (setSticky_rests h)) (setSticky_rests
                  (Rests.ite h (setSticky_rests h))))))))) (Rests.answers h)

theorem execTransitionComplete_rests {q s} (h : Waits q s) : Answers (Waits q) (execTransitionComplete s) := by
  dsimp only [execTransitionComplete]
  split
  · with_reducible exact Rests.answers h
  · with_reducible exact Rests.answers_ite (Rests.answers h) (Rests.answers (advanceTransition_rests h))

theorem execDrainComplete_rests {q s} (h : Waits q s) : Answers (Waits q) (execDrainComplete s) := by
  dsimp only [execDrainComplete]
  split
  · with_reducible exact Rests.answers h
  · with_reducible exact Rests.answers_ite (Rests.answers (finishTransition_rests h)) (Rests.answers h)

theorem execFirmwareWatchdog_rests {q s} (h : Waits q s) : Answers (Waits q) (execFirmwareWatchdog s) := by
  dsimp only [execFirmwareWatchdog]
  with_reducible exact Rests.answers_ite (Rests.answers h) (Rests.answers_ite (Rests.answers (haltBy_rests (logUntracked_rests h))) (Rests.answers
                  (limpBy_rests (logUntracked_rests h))))

theorem execLimpCause_rests {q s} {x0} (h : Waits q s) : Answers (Waits q) (execLimpCause x0 s) := by
  dsimp only [execLimpCause]
  with_reducible exact Rests.answers (limpBy_rests h)

theorem execWatchdogGraceEnd_rests {q s} (h : Waits q s) : Answers (Waits q) (execWatchdogGraceEnd s) := by
  dsimp only [execWatchdogGraceEnd]
  with_reducible exact Rests.answers_ite (Rests.answers (enterLimp_rests h)) (Rests.answers h)

theorem execHaltCause_rests {q s} {x0} (h : Waits q s) : Answers (Waits q) (execHaltCause x0 s) := by
  dsimp only [execHaltCause]
  with_reducible exact Rests.answers (haltBy_rests h)

theorem execWakeCompare_rests {q s} (h : Waits q s) : Answers (Waits q) (execWakeCompare s) := by
  dsimp only [execWakeCompare]
  with_reducible exact Rests.answers_ite (Rests.answers h) (Rests.answers (evalWake_rests h))

theorem execWakeAhead_rests {q s} (h : Waits q s) : Answers (Waits q) (execWakeAhead s) := by
  dsimp only [execWakeAhead]
  split
  · with_reducible exact Rests.answers h
  · with_reducible exact Rests.answers_ite (Rests.answers (wakeUp_rests h)) (Rests.answers h)

theorem execWritebackComplete_rests {q s} {x0 x1} (h : Waits q s) : Answers (Waits q) (execWritebackComplete x0 x1 s) := by
  dsimp only [execWritebackComplete]
  with_reducible exact Rests.answers (settleShutdown_rests (writebackComplete_rests h))

end Sys2Proof.Machine
end

section
/-! SUPPORT. The modes and the queue under the operations of the deliveries. -/

namespace Sys2Proof.Machine
open Sys2Proof

theorem gristArrive_rests {P s} {x0} (h : Rests P s) : Rests P (gristArrive x0 s) := by
  dsimp only [gristArrive]
  with_reducible exact Rests.mk h

theorem flowTrigger_rests {P s} {x0 x1} (h : Rests P s) : Rests P (flowTrigger x0 x1 s) := by
  dsimp only [flowTrigger]
  split
  · with_reducible exact stampOccurrence_rests h
  · with_reducible exact Rests.mk h
  · with_reducible exact h

theorem captureTime_rests {P s} {x0 x1} (h : Rests P s) : Rests P (captureTime x0 x1 s) := by
  dsimp only [captureTime]
  with_reducible exact bump_rests (putObj_rests h)

theorem consume_rests {q s} {x0 x1 x2} (h : Waits q s) : Waits q (consume x0 x1 x2 s) := by
  dsimp only [consume]
  with_reducible exact Rests.ite (gristArrive_rests h) (Rests.ite (trigOutOccurrence_rests h) (Rests.ite (putLamp_rests h) (Rests.ite (cmpStart_rests
                  h) (Rests.ite (flowTrigger_rests h) (Rests.ite (exportOccurrence_rests h) (Rests.ite (captureTime_rests h) (Rests.ite (Rests.ite
                  (wakeUp_rests h) h) (Rests.ite (Waits.mk h) h))))))))

theorem countOcc_rests {P s} {x0 x1} (h : Rests P s) : Rests P (countOcc x0 x1 s) := by
  dsimp only [countOcc]
  with_reducible exact setSticky_rests (putObj_rests (bump_rests h))

theorem meetConsumer_rests {q s} {x0 x1 x2} (h : Waits q s) : Waits q (meetConsumer x0 x1 x2 s) := by
  dsimp only [meetConsumer]
  with_reducible exact Rests.ite (overflowDrop_rests h) (Rests.ite (countOcc_rests h) (Rests.ite (Waits.mk (countOcc_rests h)) (consume_rests
                  (countOcc_rests h))))

theorem deliver_rests {q s} {x0 x1 x2} (h : Waits q s) : Waits q (deliver x0 x1 x2 s) := by
  dsimp only [deliver]
  with_reducible exact Rests.ite (bump_rests (addObj_rests (Waits.mk h))) (Rests.ite (stormTrip_rests (stormCount_rests (addObj_rests (Waits.mk h))))
                  (meetConsumer_rests (stormCount_rests (addObj_rests (Waits.mk h)))))

theorem execOccurrenceDelivery_rests {q s} {x0} (h : Waits q s) : Answers (Waits q) (execOccurrenceDelivery x0 s) := by
  dsimp only [execOccurrenceDelivery]
  split
  · with_reducible exact Rests.answers h
  · with_reducible exact Rests.answers_ite (Rests.answers (deliver_rests h)) (Rests.answers h)

theorem execPendingDelivery_rests {q s} {x0} (h : Waits q s) : Answers (Waits q) (execPendingDelivery x0 s) := by
  dsimp only [execPendingDelivery]
  split
  · with_reducible exact Rests.answers h
  · with_reducible exact Rests.answers_ite (Rests.answers (consume_rests (dropPending_rests h))) (Rests.answers h)

end Sys2Proof.Machine
end

section
/-! SUPPORT. The modes and the queue under the operations of the faults. -/

namespace Sys2Proof.Machine
open Sys2Proof

theorem pcRetrain_rests {P s} {x0 x1} (h : Rests P s) : Rests P (pcRetrain x0 x1 s) := by
  dsimp only [pcRetrain]
  with_reducible exact Rests.ite (addLog_rests (bump_rests h)) (cellarReinstate_rests h)

theorem reinstateRes_rests {P s} {x0 x1} (h : Rests P s) : Rests P (reinstateRes x0 x1 s) := by
  dsimp only [reinstateRes]
  with_reducible refine Rests.ite ?_ ?_
  · with_reducible exact h
  · split
    · with_reducible exact reinstateLane_rests h
    · with_reducible exact reinstatePort_rests h
    · with_reducible exact dropRetired_rests h
    · with_reducible exact dropRetired_rests h
    · with_reducible exact pcRetrain_rests h
    · with_reducible exact lampReinstate_rests h
    · with_reducible exact encReinstate_rests h
    · with_reducible exact reinstateCascade_rests h
    · with_reducible exact h

theorem clearList_rests {P s} {x0} (h : Rests P s) : Rests P (clearList x0 s) := by
  dsimp only [clearList]
  with_reducible exact startStore_rests (Rests.foldl h (fun s x h => reinstateRes_rests h))

theorem stepDown_rests {P s} {x0} (h : Rests P s) : Rests P (stepDown x0 s) := by
  unfold stepDown
  extract_lets u1 u2 u3
  have h1 : Rests P u1 := Rests.ite (bump_rests h) h
  clear_value u1
  have h2 : Rests P u2 := setSticky_rests (setSticky_rests (putObj_rests h1))
  clear_value u2
  with_reducible exact logUntracked_rests (fire_rests (Rests.mk h2))

theorem supplyFalls_rests {P s} {x0} (h : Rests P s) : Rests P (supplyFalls x0 s) := by
  dsimp only [supplyFalls]
  with_reducible exact Rests.ite (Rests.ite (stepDown_rests (bump_rests h)) (Rests.ite (stepDown_rests (bump_rests h)) h)) (Rests.ite (stepDown_rests
                  h) h)

theorem putHot_rests {P s} {x0 x1 x2} (h : Rests P s) : Rests P (putHot x0 x1 x2 s) := by
  dsimp only [putHot]
  with_reducible exact Rests.mk h

theorem thermWarn_rests {P s} {x0 x1} (h : Rests P s) : Rests P (thermWarn x0 x1 s) := by
  dsimp only [thermWarn]
  with_reducible exact Rests.ite (logUntracked_rests (fire_rests (setSticky_rests (setSticky_rests (bump_rests (putHot_rests (putHot_rests
                  (putHot_rests h)))))))) (Rests.ite (putHot_rests (putHot_rests (putHot_rests h))) (putHot_rests (putHot_rests h)))

theorem thermReading_rests {q s} {x0 x1} (h : Waits q s) : Waits q (thermReading x0 x1 s) := by
  dsimp only [thermReading]
  with_reducible exact Rests.ite (Waits.mk (logUntracked_rests (setSticky_rests (Rests.ite (Waits.mk (logUntracked_rests (fire_rests (setSticky_rests
                  (setSticky_rests (putHot_rests (putHot_rests (thermWarn_rests h)))))))) (putHot_rests (putHot_rests (thermWarn_rests h)))))))
                  (Rests.ite (Waits.mk (logUntracked_rests (fire_rests (setSticky_rests (setSticky_rests (putHot_rests (putHot_rests (thermWarn_rests
                  h)))))))) (putHot_rests (putHot_rests (thermWarn_rests h))))

theorem stackReading_rests {q s} {x0 x1} (h : Waits q s) : Waits q (stackReading x0 x1 s) := by
  dsimp only [stackReading]
  with_reducible exact thermReading_rests (Rests.ite (setSticky_rests (putObj_rests (putInt_rests h))) (Rests.ite (putObj_rests (putInt_rests h))
                  (putInt_rests h)))

theorem execSupplySag_rests {P s} {x0} (h : Rests P s) : Answers (Rests P) (execSupplySag x0 s) := by
  dsimp only [execSupplySag]
  with_reducible exact Rests.answers_ite (Rests.answers h) (Rests.answers (supplyFalls_rests h))

theorem execGovernorStepEnd_rests {P s} {x0} (h : Rests P s) : Answers (Rests P) (execGovernorStepEnd x0 s) := by
  unfold execGovernorStepEnd
  with_reducible refine Rests.answers_ite ?_ ?_
  · lift_lets
    intro u1
    with_reducible refine Rests.answers ?_
    with_reducible exact putObj_rests (Rests.mk h)
  · with_reducible refine Rests.answers ?_
    with_reducible exact h

theorem execCoreRailFault_rests {q s} (h : Waits q s) : Answers (Waits q) (execCoreRailFault s) := by
  dsimp only [execCoreRailFault]
  with_reducible exact Rests.answers_ite (Rests.answers h) (Rests.answers (limpBy_rests (logUntracked_rests (setSticky_rests h))))

theorem execThermalReading_rests {q s} {x0} (h : Waits q s) : Answers (Waits q) (execThermalReading x0 s) := by
  dsimp only [execThermalReading]
  with_reducible exact Rests.answers_ite (Rests.answers h) (Rests.answers (settleCauses_rests (thermReading_rests (putInt_rests (Rests.foldl h (fun s
                  x h => putInt_rests h))))))

theorem execStackTempRead_rests {q s} {x0 x1} (h : Waits q s) : Answers (Waits q) (execStackTempRead x0 x1 s) := by
  dsimp only [execStackTempRead]
  with_reducible exact Rests.answers_ite (Rests.answers h) (Rests.answers (settleCauses_rests (stackReading_rests h)))

theorem execUncorrectableRead_rests {q s} {x0 x1 x2 x3} (h : Waits q s) : Answers (Waits q) (execUncorrectableRead x0 x1 x2 x3 s) := by
  dsimp only [execUncorrectableRead]
  with_reducible exact Rests.answers_ite (Rests.answers (settleCauses_rests (badRead_rests (setSticky_rests h)))) (Rests.answers h)

theorem execRowRepair_rests {q s} {x0 x1 x2 x3} (h : Waits q s) : Answers (Waits q) (execRowRepair x0 x1 x2 x3 s) := by
  dsimp only [execRowRepair]
  with_reducible exact Rests.answers_ite (Rests.answers (settleCauses_rests (repairRow_rests h))) (Rests.answers h)

theorem execPcRetire_rests {q s} {x0 x1} (h : Waits q s) : Answers (Waits q) (execPcRetire x0 x1 s) := by
  dsimp only [execPcRetire]
  with_reducible exact Rests.answers_ite (Rests.answers (settleCauses_rests (pcFault_rests h))) (Rests.answers h)

theorem execScrub_rests {q s} {x0 x1 x2 x3 x4} (h : Waits q s) : Answers (Waits q) (execScrub x0 x1 x2 x3 x4 s) := by
  dsimp only [execScrub]
  with_reducible exact Rests.answers_ite (Rests.answers_ite (Rests.answers (settleCauses_rests (badRead_rests (setSticky_rests (putObj_rests h)))))
                  (Rests.answers (countRead_rests (putObj_rests h)))) (Rests.answers h)

end Sys2Proof.Machine
end

section
/-! SUPPORT. The modes and the queue under the operations of the limits. -/

namespace Sys2Proof.Machine
open Sys2Proof

theorem planView_rests {P s} {x0} (h : Rests P s) : Rests P (planView x0 s) := by
  dsimp only [planView]
  with_reducible refine Rests.foldl ?_ ?_
  · with_reducible exact h
  · intro s x h
    split
    · with_reducible exact putObj_rests h
    · with_reducible exact putBlob_rests h

end Sys2Proof.Machine
end

section
/-! SUPPORT. The modes and the queue under the operations of the PTP port. -/

namespace Sys2Proof.Machine
open Sys2Proof

theorem ptpUpdate_rests {P s} {x0} (h : Rests P s) : Rests P (ptpUpdate x0 s) := by
  unfold ptpUpdate
  with_reducible exact Rests.ite (servoUpdate_rests h) (putObj_rests h)

theorem ptpException_rests {P s} (h : Rests P s) : Rests P (ptpException s) := by
  unfold ptpException
  with_reducible exact bump_rests h

theorem ptpAnnounce_rests {P s} {x0 x1} (h : Rests P s) : Rests P (ptpAnnounce x0 x1 s) := by
  unfold ptpAnnounce
  extract_lets u1 u2 u3 u4
  have h4 : Rests P u4 := putObj_rests (Rests.mk h)
  clear_value u4
  with_reducible exact Rests.ite (ptpException_rests h) (Rests.ite h (Rests.ite (Rests.ite (putInt_rests (h4)) (h4)) (putObj_rests (Rests.mk h))))

theorem ptpSyncDone_rests {P s} {x0 x1} (h : Rests P s) : Rests P (ptpSyncDone x0 x1 s) := by
  unfold ptpSyncDone
  extract_lets u1 u2 u3 u4
  have h2 : Rests P u2 := Rests.mk h
  clear_value u2
  with_reducible exact ptpUpdate_rests (h2)

theorem sendPtp_rests {P s} {x0 x1 x2} (h : Rests P s) : Rests P (sendPtp x0 x1 x2 s) := by
  unfold sendPtp
  with_reducible exact txFirmware_rests h

theorem ptpMessage_rests {P s} {x0 x1 x2} (h : Rests P s) : Rests P (ptpMessage x0 x1 x2 s) := by
  unfold ptpMessage
  lift_lets
  intro u1 u2
  with_reducible refine Rests.ite ?_ ?_
  · with_reducible exact ptpException_rests h
  · with_reducible refine Rests.ite ?_ ?_
    · with_reducible exact ptpException_rests h
    · split
      · with_reducible exact Rests.ite (ptpException_rests h) (Rests.ite (Rests.mk h) (ptpSyncDone_rests h))
      · split
        · with_reducible exact Rests.ite (ptpSyncDone_rests h) (ptpException_rests h)
        · with_reducible exact ptpException_rests h
      · lift_lets
        intro u3
        split
        · lift_lets
          intro u4
          with_reducible exact Rests.ite (putObj_rests (Rests.mk h)) (ptpException_rests h)
        · with_reducible exact ptpException_rests h
      · with_reducible exact Rests.ite (sendPtp_rests h) (ptpException_rests h)
      · with_reducible exact ptpAnnounce_rests h
      · with_reducible exact ptpException_rests h
      · with_reducible exact ptpException_rests h
      · with_reducible exact ptpException_rests h

theorem loadProfile_rests {P s} {x0} (h : Rests P s) : Rests P (loadProfile x0 s) := by
  unfold loadProfile
  with_reducible exact Rests.ite (putInt_rests (putObj_rests (putInt_rests (putInt_rests (putObj_rests h))))) (putInt_rests (putObj_rests
                  (putInt_rests (putInt_rests (putObj_rests h)))))

theorem ptpRestart_rests {P s} (h : Rests P s) : Rests P (ptpRestart s) := by
  unfold ptpRestart
  extract_lets u1 u2
  have h2 : Rests P u2 := Rests.mk h
  clear_value u2
  with_reducible exact putObj_rests (h2)

theorem execPtpMessage_rests {P s} {x0 x1 x2} (h : Rests P s) : Answers (Rests P) (execPtpMessage x0 x1 x2 s) := by
  unfold execPtpMessage
  with_reducible refine Rests.answers_ite ?_ ?_
  · with_reducible refine Rests.answers ?_
    with_reducible exact ptpMessage_rests h
  · with_reducible refine Rests.answers ?_
    with_reducible exact h

theorem execPtpAnnounceTimeout_rests {P s} (h : Rests P s) : Answers (Rests P) (execPtpAnnounceTimeout s) := by
  unfold execPtpAnnounceTimeout
  extract_lets u1 u2
  have h2 : Rests P u2 := ptpRestart_rests h
  clear_value u2
  with_reducible refine Rests.answers_ite ?_ ?_
  · with_reducible refine Rests.answers ?_
    with_reducible exact Rests.ite (putObj_rests (h2)) (h2)
  · with_reducible refine Rests.answers ?_
    with_reducible exact h

theorem execPtpMessageInterval_rests {P s} {x0 x1} (h : Rests P s) : Answers (Rests P) (execPtpMessageInterval x0 x1 s) := by
  unfold execPtpMessageInterval
  extract_lets u1 u2 u3 u4
  with_reducible refine Rests.answers_ite ?_ ?_
  · with_reducible refine Rests.answers ?_
    with_reducible exact h
  · split
    · with_reducible refine Rests.answers_ite ?_ ?_
      · with_reducible refine Rests.answers ?_
        with_reducible exact h
      · with_reducible refine Rests.answers_ite ?_ ?_
        · with_reducible refine Rests.answers ?_
          with_reducible exact sendPtp_rests (sendPtp_rests h)
        · with_reducible refine Rests.answers ?_
          with_reducible exact sendPtp_rests h
    · with_reducible refine Rests.answers_ite ?_ ?_
      · with_reducible refine Rests.answers ?_
        with_reducible exact h
      · with_reducible refine Rests.answers ?_
        with_reducible exact sendPtp_rests h
    · with_reducible refine Rests.answers_ite ?_ ?_
      · with_reducible refine Rests.answers ?_
        with_reducible exact sendPtp_rests (Rests.mk h)
      · with_reducible refine Rests.answers ?_
        with_reducible exact h

end Sys2Proof.Machine
end

section
/-! SUPPORT. The modes and the queue under the operations of the effects of a write. -/

namespace Sys2Proof.Machine
open Sys2Proof

theorem stickyWrite_rests {P s} {x0 x1 x2 x3} (h : Rests P s) : Rests P (stickyWrite x0 x1 x2 x3 s) := by
  dsimp only [stickyWrite]
  with_reducible exact putObj_rests h

theorem retrainFails_rests {P s} {x0 x1} (h : Rests P s) : Rests P (retrainFails x0 x1 s).2 := by
  cases x0 with
  | some l => cases x1 <;> exact h
  | none =>
    induction x1 generalizing s with
    | nil => exact h
    | cons p t ih =>
      simp only [retrainFails]
      exact ih (takeChoice_rests h)

theorem effModes_rests {q s} {x0 x1 x2} (h : Waits q s) : Waits q (effModes x0 x1 x2 s) := by
  dsimp only [effModes]
  with_reducible refine Rests.ite ?_ ?_
  · split
    · with_reducible exact takeRequest_rests h
    · with_reducible exact h
  · with_reducible exact Rests.ite (relaneAll_rests (putObj_rests h)) (Rests.ite (Waits.mk h) (Rests.ite (startShutdown_rests h) (Rests.ite
                    (wakeAtWritten_rests h) (Rests.ite (storeImage_rests h) (Rests.ite (commitImage_rests h) (putObj_rests h))))))

theorem closeSessions_rests {P s} {x0} (h : Rests P s) : Rests P (closeSessions x0 s) := by
  dsimp only [closeSessions]
  with_reducible exact Rests.mk h

theorem effDict_rests {P s} {x0 x1 x2 x3} (h : Rests P s) : Rests P (effDict x0 x1 x2 x3 s) := by
  unfold effDict
  with_reducible refine Rests.ite ?_ ?_
  · with_reducible exact closeSessions_rests (putBlob_rests h)
  · with_reducible refine Rests.ite ?_ ?_
    · with_reducible exact closeSessions_rests (putObj_rests h)
    · with_reducible refine Rests.ite ?_ ?_
      · lift_lets
        intro u1
        have h1 : Rests P u1 := takeChoice_rests h
        clear_value u1
        intro u2 u3
        clear_value u3
        with_reducible exact Rests.ite h1 (Rests.mk h1)
      · with_reducible exact putObj_rests h

theorem requad_rests {P s} {x0 x1} (h : Rests P s) : Rests P (requad x0 x1 s) := by
  dsimp only [requad]
  with_reducible exact Rests.foldl h (fun s x h => Rests.ite (quadRestart_rests h) h)

theorem setUpstream_rests {P s} {x0} (h : Rests P s) : Rests P (setUpstream x0 s) := by
  unfold setUpstream
  extract_lets u1 u2 u3 u4 u5 u6 u7 u8
  clear_value u1 u2
  have h3 : Rests P u3 := putObj_rests h
  clear_value u3
  have h5 : Rests P u5 := Rests.ite h3 (putObj_rests (setBhLocked_rests (Rests.mk h3)))
  clear_value u5
  clear_value u6
  have h7 : Rests P u7 := Rests.ite (setSource_rests h5) (Rests.ite (setSource_rests h5) h5)
  clear_value u7
  have h8 : Rests P u8 := Rests.ite h7 (startStore_rests h7)
  clear_value u8
  with_reducible exact requad_rests h8

theorem effTime_rests {P s} {x0 x1 x2} (h : Rests P s) : Rests P (effTime x0 x1 x2 s) := by
  dsimp only [effTime]
  with_reducible exact Rests.ite (setIncrement_rests h) (Rests.ite (addStep_rests h) (Rests.ite (setTime_rests h) (Rests.ite (setSource_rests h)
                  (Rests.ite (ppsPolarityWritten_rests h) (Rests.ite (loadProfile_rests (putObj_rests h)) (Rests.ite (ptpRestart_rests (putObj_rests
                  h)) (Rests.ite (setUpstream_rests h) (Rests.ite (requad_rests (putObj_rests h)) (Rests.ite (armCompare_rests (putObj_rests h))
                  (Rests.ite (Rests.ite (armCompare_rests (putObj_rests (evalCompare_rests h))) (putObj_rests (evalCompare_rests h))) (putObj_rests
                  h)))))))))))

theorem effCounters_rests {P s} {x0 x1} (h : Rests P s) : Rests P (effCounters x0 x1 s) := by
  dsimp only [effCounters]
  with_reducible exact Rests.ite (armSnapshot_rests h) (Rests.ite (Rests.mk h) (putObj_rests h))

theorem effEvents_rests {P s} {x0 x1 x2 x3} (h : Rests P s) : Rests P (effEvents x0 x1 x2 x3 s) := by
  unfold effEvents
  with_reducible exact Rests.ite (softFire_rests h) (Rests.ite (Rests.foldl h (fun s x h => softFire_rests h)) (Rests.ite (dropPending_rests
                  (putFab_rests h)) (Rests.ite (gristWritten_rests h) (putFab_rests h))))

theorem effQuad_rests {P s} {x0 x1 x2 x3} (h : Rests P s) : Rests P (effQuad x0 x1 x2 x3 s) := by
  dsimp only [effQuad]
  with_reducible exact Rests.ite (setQuadMode_rests h) (Rests.ite (Rests.ite (quadRestart_rests (putObj_rests h)) (putObj_rests h)) (Rests.ite
                  (prbsInject_rests h) (Rests.ite (prbsClear_rests h) (Rests.ite (reinstateLane_rests h) (Rests.ite (laneConfigured_rests
                  (putObj_rests h)) (Rests.ite (testWritten_rests (putObj_rests h)) (putObj_rests h)))))))

theorem effPort_rests {P s} {x0 x1 x2} (h : Rests P s) : Rests P (effPort x0 x1 x2 s) := by
  dsimp only [effPort]
  with_reducible exact Rests.ite (reinstatePort_rests h) (Rests.ite (Rests.ite (putObj_rests h) (restartAlignment_rests (putObj_rests h)))
                  (putObj_rests h))

theorem effFlow_rests {P s} {x0 x1 x2} (h : Rests P s) : Rests P (effFlow x0 x1 x2 s) := by
  dsimp only [effFlow]
  with_reducible exact Rests.ite (putObj_rests (Rests.ite (stopFlow_rests h) h)) (Rests.ite (txTypeWritten_rests (putObj_rests h)) (putObj_rests h))

theorem effUnderback_rests {P s} {x0 x1 x2} (h : Rests P s) : Rests P (effUnderback x0 x1 x2 s) := by
  unfold effUnderback
  with_reducible exact Rests.ite (Rests.ite (ubFlush_rests h) h) (Rests.ite (ubClock_rests (putObj_rests h)) (putObj_rests h))

theorem effLauter_rests {P s} {x0 x1 x2} (h : Rests P s) : Rests P (effLauter x0 x1 x2 s) := by
  dsimp only [effLauter]
  with_reducible exact Rests.ite (clearStamps_rests h) (Rests.ite (updateBoil_rests (putObj_rests h)) (Rests.ite (updateGlobal_rests (putObj_rests
                  h)) (Rests.ite (updateFlowLevel_rests (putObj_rests h)) (putObj_rests h))))

theorem effCellar_rests {q s} {x0 x1 x2 x3} (h : Waits q s) : Waits q (effCellar x0 x1 x2 x3 s) := by
  dsimp only [effCellar]
  with_reducible exact Rests.ite (pcRetrain_rests (retrainFails_rests h)) (Rests.ite (startTest_rests h) (putObj_rests h))

theorem effRacking_rests {P s} {x0 x1 x2} (h : Rests P s) : Rests P (effRacking x0 x1 x2 s) := by
  dsimp only [effRacking]
  with_reducible exact Rests.ite (resumeRacking_rests h) (Rests.ite (Rests.ite (Rests.ite (enableRing_rests h) h) (disableRing_rests h)) (Rests.ite
                  (Rests.ite (enableCq_rests h) (disableCq_rests h)) (Rests.ite (Rests.ite (Rests.ite (enableExc_rests h) h) (disableExc_rests h))
                  (Rests.ite (updateRing_rests (putObj_rests h)) (putObj_rests h)))))

theorem effTap_rests {P s} {x0 x1 x2 x3} (h : Rests P s) : Rests P (effTap x0 x1 x2 x3 s) := by
  unfold effTap
  with_reducible exact Rests.ite (Rests.ite (Rests.ite (tapEnable_rests h) h) (tapDisable_rests h)) (Rests.ite (sendFrame_rests h) (putObj_rests h))

theorem effHydro_rests {P s} {x0 x1 x2} (h : Rests P s) : Rests P (effHydro x0 x1 x2 s) := by
  dsimp only [effHydro]
  with_reducible exact Rests.ite (putFlow_rests (putObj_rests h)) (Rests.ite (restartAlign_rests (putObj_rests h)) (putObj_rests h))

theorem effPos_rests {P s} {x0 x1 x2 x3} (h : Rests P s) : Rests P (effPos x0 x1 x2 x3 s) := by
  unfold effPos
  with_reducible exact Rests.ite (encEnableWritten_rests h) (Rests.ite (encGeometryWritten_rests h) (Rests.ite (positionWritten_rests h) (Rests.ite
                  (queryAt_rests h) (Rests.ite (encReinstate_rests h) (Rests.ite (cmpModeWritten_rests h) (Rests.ite (cmpTargetWritten_rests h)
                  (Rests.ite (listWritten_rests h) (putObj_rests h))))))))

theorem headUserPages_rests {P s} {x0 x1 x2} (h : Rests P s) : Rests P (headUserPages x0 x1 x2 s) := by
  induction x1 generalizing x2 s with
  | zero => exact h
  | succ n ih =>
    simp only [headUserPages]
    exact ih (emit_rests h)

theorem effLamp_rests {P s} {x0 x1 x2 x3} (h : Rests P s) : Rests P (effLamp x0 x1 x2 x3 s) := by
  unfold effLamp
  with_reducible exact Rests.ite (lampReinstate_rests h) (Rests.ite (headUserPages_rests (putBlob_rests h)) (putFab_rests h))

theorem effHost_rests {P s} {x0 x1 x2} (h : Rests P s) : Rests P (effHost x0 x1 x2 s) := by
  dsimp only [effHost]
  with_reducible exact Rests.ite (winAttrWritten_rests h) (putObj_rests h)

theorem effFaults_rests {P s} {x0 x1 x2} (h : Rests P s) : Rests P (effFaults x0 x1 x2 s) := by
  dsimp only [effFaults]
  with_reducible exact Rests.ite (reinstateRes_rests (retrainFails_rests h)) (Rests.ite (clearList_rests (retrainFails_rests h)) (Rests.ite
                  (putFab_rests h) (putObj_rests h)))

theorem startSelftest_rests {P s} {x0} (h : Rests P s) : Rests P (startSelftest x0 s) := by
  dsimp only [startSelftest]
  with_reducible exact putObj_rests h

theorem effect_rests {q s} {x0 x1 x2 x3 x4} (h : Waits q s) : Waits q (effect x0 x1 x2 x3 x4 s) := by
  unfold effect
  extract_lets u1 u2 u3
  clear_value u1 u2 u3
  with_reducible refine Rests.ite ?_ ?_
  · with_reducible exact effQuad_rests h
  · split
    · with_reducible exact effModes_rests h
    · with_reducible exact effDict_rests h
    · with_reducible exact effTime_rests h
    · with_reducible exact effEvents_rests h
    · with_reducible exact effPort_rests h
    · with_reducible exact effFlow_rests h
    · with_reducible exact effUnderback_rests h
    · with_reducible exact effLauter_rests h
    · with_reducible exact effLauter_rests h
    · with_reducible exact effCellar_rests h
    · with_reducible exact effRacking_rests h
    · with_reducible exact effTap_rests h
    · with_reducible exact Rests.ite (startSelftest_rests h) (putObj_rests h)
    · with_reducible exact Rests.ite (startSelftest_rests h) (effHydro_rests h)
    · with_reducible exact effPos_rests h
    · with_reducible exact effLamp_rests h
    · with_reducible exact effHost_rests h
    · with_reducible exact effFaults_rests h
    · with_reducible exact effCounters_rests h
    · with_reducible exact putObj_rests h

theorem applyWrite_rests {q s} {x0 x1 x2 x3 x4} (h : Waits q s) : Waits q (applyWrite x0 x1 x2 x3 x4 s) := by
  dsimp only [applyWrite]
  split
  · with_reducible exact h
  · with_reducible exact Rests.ite (startStore_rests (Rests.ite (stickyWrite_rests h) (effect_rests h))) (Rests.ite (stickyWrite_rests h)
                    (effect_rests h))

end Sys2Proof.Machine
end

section
/-! SUPPORT. The modes and the queue under the operations of the plans. -/

namespace Sys2Proof.Machine
open Sys2Proof

theorem putPlan_rests {P s} {x0 x1} (h : Rests P s) : Rests P (putPlan x0 x1 s) := by
  dsimp only [putPlan]
  split <;> with_reducible exact Rests.mk h

theorem setPlanState_rests {P s} {x0 x1} (h : Rests P s) : Rests P (setPlanState x0 x1 s) := by
  dsimp only [setPlanState]
  with_reducible exact putPlan_rests h

theorem sealPlan_rests {P s} {x0} (h : Rests P s) : Rests P (sealPlan x0 s).2 := by
  dsimp only [sealPlan]
  with_reducible refine Rests.ite_snd ?_ ?_
  · with_reducible exact h
  · split
    · with_reducible exact setPlanState_rests h
    · with_reducible exact putObj_rests (putObj_rests h)

theorem clearPlan_rests {P s} {x0} (h : Rests P s) : Rests P (clearPlan x0 s).2 := by
  dsimp only [clearPlan]
  with_reducible exact Rests.ite_snd h (putPlan_rests h)

theorem savePlan_rests {P s} {x0} (h : Rests P s) : Rests P (savePlan x0 s).2 := by
  dsimp only [savePlan]
  with_reducible exact Rests.ite_snd h (Rests.ite_snd h (startStore_rests (Rests.mk h)))

theorem planWrite_rests {P s} {x0} (h : Rests P s) : ∀ p, planWrite x0 s = some p → Rests P p.2 := by
  intro p e
  dsimp only [planWrite] at e
  split at e
  · cases e; exact sealPlan_rests h
  · split at e
    · cases e; exact clearPlan_rests h
    · split at e
      · cases e; exact savePlan_rests h
      · cases e

theorem schedulePitch_rests {P s} {x0} (h : Rests P s) : Rests P (schedulePitch x0 s) := by
  dsimp only [schedulePitch]
  with_reducible exact setPlanState_rests (Rests.mk h)

theorem unschedule_rests {P s} {x0} (h : Rests P s) : Rests P (unschedule x0 s) := by
  dsimp only [unschedule]
  with_reducible exact setPlanState_rests (Rests.mk h)

theorem armPitch_rests {P s} {x0} (h : Rests P s) : Rests P (armPitch x0 s) := by
  dsimp only [armPitch]
  with_reducible exact Rests.mk h

theorem putEntry_rests {P s} {x0} (h : Rests P s) : Rests P (putEntry x0 s) := by
  unfold putEntry
  split
  · with_reducible exact putObj_rests h
  · with_reducible exact putBlob_rests h

theorem applyEntry_rests {q s} {x0} (h : Waits q s) : Waits q (applyEntry x0 s) := by
  unfold applyEntry
  with_reducible exact applyWrite_rests h

theorem applyEntries_rests {q s} {x0} (h : Waits q s) : Waits q (applyEntries x0 s) := by
  unfold applyEntries
  extract_lets u1 u2 u3
  clear_value u1
  have h2 : Waits q u2 := Rests.foldl h (fun s x h => putEntry_rests h)
  clear_value u2
  have h3 : Waits q u3 := Rests.foldl h2 (fun s x h => applyEntry_rests h)
  clear_value u3
  with_reducible exact Rests.foldl h3 (fun s x h => applyEntry_rests h)

theorem applyRequest_rests {q s} {x0 x1} (h : Waits q s) : Waits q (applyRequest x0 x1 s) := by
  dsimp only [applyRequest]
  split
  · with_reducible exact stagedRequest_rests h
  · with_reducible exact h

theorem recordPitch_rests {P s} {x0 x1} (h : Rests P s) : Rests P (recordPitch x0 x1 s) := by
  dsimp only [recordPitch]
  with_reducible exact fire_rests (Rests.ite (bump_rests (setSticky_rests (bump_rests (putObj_rests (putObj_rests (setPlanState_rests (Rests.ite
                  (setPlanState_rests h) h))))))) (bump_rests (putObj_rests (putObj_rests (setPlanState_rests (Rests.ite (setPlanState_rests h)
                  h))))))

theorem takePitch_rests {q s} {x0} (h : Waits q s) : Waits q (takePitch x0 s) := by
  dsimp only [takePitch]
  with_reducible exact Rests.ite (setSticky_rests (unschedule_rests h)) (applyRequest_rests (recordPitch_rests (applyEntries_rests (Waits.mk h))))

theorem duePitch_rests {q s} (h : Waits q s) : Waits q (duePitch s) := by
  unfold duePitch
  split
  · with_reducible exact h
  · with_reducible exact Rests.ite (settleCauses_rests (takePitch_rests h)) h

theorem pitchAtFrame_rests {q s} {x0 x1} (h : Waits q s) : Waits q (pitchAtFrame x0 x1 s) := by
  dsimp only [pitchAtFrame]
  split
  · with_reducible exact h
  · with_reducible exact Rests.ite (settleCauses_rests (takePitch_rests h)) h

theorem pitchTimedOut_rests {P s} {x0} (h : Rests P s) : Rests P (pitchTimedOut x0 s) := by
  dsimp only [pitchTimedOut]
  with_reducible exact Rests.ite (putObj_rests (setSticky_rests (unschedule_rests h))) (setSticky_rests (unschedule_rests h))

theorem execPitchTakesPlace_rests {q s} (h : Waits q s) : Answers (Waits q) (execPitchTakesPlace s) := by
  dsimp only [execPitchTakesPlace]
  split
  · with_reducible exact Rests.answers h
  · with_reducible exact Rests.answers_ite (Rests.answers (settleCauses_rests (takePitch_rests h))) (Rests.answers h)

theorem execBoundaryTimeout_rests {P s} (h : Rests P s) : Answers (Rests P) (execBoundaryTimeout s) := by
  dsimp only [execBoundaryTimeout]
  split
  · with_reducible exact Rests.answers h
  · with_reducible exact Rests.answers_ite (Rests.answers (pitchTimedOut_rests h)) (Rests.answers h)

theorem execPacketPlace_rests {q s} {x0} (h : Waits q s) : Answers (Waits q) (execPacketPlace x0 s) := by
  dsimp only [execPacketPlace]
  split
  · with_reducible exact Rests.answers (placePacket_rests h)
  · with_reducible exact Rests.answers (placePacket_rests (pitchAtFrame_rests h))

theorem execTapFrameStart_rests {q s} {x0} (h : Waits q s) : Answers (Waits q) (execTapFrameStart x0 s) := by
  dsimp only [execTapFrameStart]
  with_reducible exact Rests.answers_ite (Rests.answers (gridStart_rests (pitchAtFrame_rests h))) (Rests.answers (gridStart_rests h))

theorem execTapTrigger_rests {q s} {x0} (h : Waits q s) : Answers (Waits q) (execTapTrigger x0 s) := by
  dsimp only [execTapTrigger]
  with_reducible exact Rests.answers_ite (Rests.answers (triggerStart_rests (pitchAtFrame_rests h))) (Rests.answers (triggerStart_rests h))

end Sys2Proof.Machine
end

section
/-! SUPPORT. The modes and the queue under the operations of the server. -/

namespace Sys2Proof.Machine
open Sys2Proof

theorem dropTransfer_rests {P s} {x0 x1} (h : Rests P s) : Rests P (dropTransfer x0 x1 s) := by
  dsimp only [dropTransfer]
  with_reducible exact Rests.mk h

theorem commitLive_rests {q s} {x0 x1 x2} (h : Waits q s) : Waits q (commitLive x0 x1 x2 s).2 := by
  dsimp only [commitLive]
  split
  · next r e => exact planWrite_rests h r e
  · exact Rests.ite_snd (applyWrite_rests h) h

theorem commitStaged_rests {P s} {x0 x1 x2 x3} (h : Rests P s) : Rests P (commitStaged x0 x1 x2 x3 s).2 := by
  dsimp only [commitStaged]
  with_reducible exact Rests.ite_snd (putPlan_rests h) h

theorem serveRead_rests {P s} {x0 x1 x2 x3} (h : Rests P s) : Rests P (serveRead x0 x1 x2 x3 s).2 := by
  dsimp only [serveRead]
  with_reducible refine Rests.ite_snd ?_ ?_
  · with_reducible exact h
  · split
    · with_reducible exact h
    · with_reducible exact Rests.ite_snd h h

theorem serveReadBlock_rests {P s} {x0 x1 x2 x3} (h : Rests P s) : Rests P (serveReadBlock x0 x1 x2 x3 s).2 := by
  dsimp only [serveReadBlock]
  with_reducible refine Rests.ite_snd ?_ ?_
  · with_reducible exact h
  · split
    · with_reducible exact h
    · with_reducible exact Rests.ite_snd h h

theorem serveWrite_rests {q s} {x0 x1 x2 x3} (h : Waits q s) : Waits q (serveWrite x0 x1 x2 x3 s).2 := by
  dsimp only [serveWrite]
  split
  · with_reducible exact h
  · with_reducible refine Rests.ite_snd ?_ ?_
    · with_reducible exact h
    · with_reducible refine Rests.ite_snd ?_ ?_
      · with_reducible exact h
      · dsimp only
        with_reducible exact Rests.ite_snd (commitLive_rests h) (commitStaged_rests h)

theorem serveWriteBlock_rests {q s} {x0 x1 x2 x3} (h : Waits q s) : Waits q (serveWriteBlock x0 x1 x2 x3 s).2 := by
  dsimp only [serveWriteBlock]
  with_reducible refine Rests.ite_snd ?_ ?_
  · with_reducible exact h
  · with_reducible refine Rests.ite_snd ?_ ?_
    · with_reducible exact h
    · with_reducible refine Rests.ite_snd ?_ ?_
      · with_reducible exact h
      · with_reducible refine Rests.ite_snd ?_ ?_
        · with_reducible exact h
        · with_reducible refine Rests.ite_snd ?_ ?_
          · with_reducible exact Waits.mk (dropTransfer_rests h)
          · split
            · with_reducible exact h
            · with_reducible refine Rests.ite_snd ?_ ?_
              · with_reducible exact h
              · with_reducible refine Rests.ite_snd ?_ ?_
                · with_reducible exact dropTransfer_rests (Rests.ite_snd (commitLive_rests h) (commitStaged_rests h))
                · dsimp only
                  with_reducible exact Rests.ite_snd (commitLive_rests h) (commitStaged_rests h)

theorem serveSubscribe_rests {P s} {x0 x1 x2 x3} (h : Rests P s) : Rests P (serveSubscribe x0 x1 x2 x3 s).2 := by
  dsimp only [serveSubscribe]
  with_reducible exact Rests.ite_snd h (Rests.ite_snd h (Rests.ite_snd (Rests.mk h) (Rests.ite_snd h (Rests.mk h))))

theorem servePitch_rests {P s} {x0} (h : Rests P s) : Rests P (servePitch x0 s).2 := by
  dsimp only [servePitch]
  with_reducible exact Rests.ite_snd h (schedulePitch_rests h)

theorem serveAbortPlan_rests {P s} {x0} (h : Rests P s) : Rests P (serveAbortPlan x0 s).2 := by
  dsimp only [serveAbortPlan]
  with_reducible refine Rests.ite_snd ?_ ?_
  · with_reducible exact h
  · split
    · with_reducible exact h
    · with_reducible exact unschedule_rests h

theorem serveAbortBlob_rests {P s} {x0 x1 x2 x3} (h : Rests P s) : Rests P (serveAbortBlob x0 x1 x2 x3 s).2 := by
  dsimp only [serveAbortBlob]
  with_reducible exact Rests.ite_snd (dropTransfer_rests h) h

theorem serveOpen_rests {P s} {x0} (h : Rests P s) : Rests P (serveOpen x0 s).2 := by
  dsimp only [serveOpen]
  split
  · with_reducible exact h
  · with_reducible exact Rests.ite_snd h (Rests.mk (takeFree_rests (takeChoice_rests h)))

theorem serveProof_rests {P s} {x0} (h : Rests P s) : Rests P (serveProof x0 s).2 := by
  dsimp only [serveProof]
  split
  · with_reducible exact h
  · with_reducible exact Rests.ite_snd h (Rests.ite_snd h (Rests.ite_snd (Rests.mk h) (closeSessions_rests h)))

theorem carryIndex_rests {P} {x0 x1} {a : Answer × State} (h : Rests P a.2) : Rests P (carryIndex x0 x1 a).2 := by
  unfold carryIndex
  exact Rests.ite_snd h h

theorem serveObject_rests {q s} {x0 x1} (h : Waits q s) : Waits q (serveObject x0 x1 s).2 := by
  dsimp only [serveObject]
  with_reducible refine Rests.ite_snd ?_ ?_
  · with_reducible exact h
  · split
    · with_reducible exact serveRead_rests h
    · with_reducible exact serveWrite_rests h
    · with_reducible exact serveReadBlock_rests h
    · with_reducible exact serveWriteBlock_rests h
    · with_reducible exact serveSubscribe_rests h
    · with_reducible exact servePitch_rests h
    · with_reducible exact Rests.ite_snd (serveAbortPlan_rests h) (serveAbortBlob_rests h)

theorem serve_rests {q s} {x0} (h : Waits q s) : Waits q (serve x0 s).2 := by
  unfold serve
  refine Rests.ite_snd h (Rests.ite_snd h (Rests.ite_snd (serveOpen_rests h) (Rests.ite_snd (Rests.ite_snd h (serveProof_rests h)) (Rests.ite_snd h
      ?_))))
  split
  · exact h
  · exact carryIndex_rests (serveObject_rests h)

end Sys2Proof.Machine
end

section
/-! SUPPORT. The modes and the queue under the operations of Linob. -/

namespace Sys2Proof.Machine
open Sys2Proof

theorem sendLinob_rests {P s} {x0 x1} (h : Rests P s) : Rests P (sendLinob x0 x1 s) := by
  dsimp only [sendLinob]
  split
  · with_reducible exact emit_rests h
  · split
    · with_reducible exact sendCascade_rests h
    · with_reducible exact h

theorem mapSession_rests {P s} {x0 x1} (h : Rests P s) : Rests P (mapSession x0 x1 s) := by
  dsimp only [mapSession]
  with_reducible exact Rests.mk h

theorem putMbox_rests {P s} {x0 x1} (h : Rests P s) : Rests P (putMbox x0 x1 s) := by
  dsimp only [putMbox]
  with_reducible exact Rests.mk h

theorem mailboxDone_rests {P s} {x0 x1 x2} (h : Rests P s) : Rests P (mailboxDone x0 x1 x2 s) := by
  dsimp only [mailboxDone]
  with_reducible exact fire_rests (putMbox_rests h)

theorem linobReply_rests {P s} {x0 x1 x2 x3 x4 x5 x6} (h : Rests P s) : Rests P (linobReply x0 x1 x2 x3 x4 x5 x6 s) := by
  dsimp only [linobReply]
  with_reducible exact sendLinob_rests (mapSession_rests h)

theorem respond_rests {P s} {x0 x1 x2 x3} (h : Rests P s) : Rests P (respond x0 x1 x2 x3 s) := by
  dsimp only [respond]
  split
  · with_reducible exact h
  · with_reducible exact mailboxDone_rests h
  · with_reducible exact linobReply_rests h
  · with_reducible exact putObj_rests h

theorem holdReply_rests {P s} {x0} (h : Rests P s) : Rests P (holdReply x0 s) := by
  dsimp only [holdReply]
  with_reducible exact Rests.mk h

theorem serverFault_rests {P s} {x0 x1} (h : Rests P s) : Rests P (serverFault x0 x1 s) := by
  unfold serverFault
  with_reducible exact respond_rests (setSticky_rests (logUntracked_rests h))

theorem request_rests {q s} {x0 x1} (h : Waits q s) : Waits q (request x0 x1 s) := by
  unfold request
  extract_lets u1 u2 u3 u4
  have h1 : Waits q u1 := duePitch_rests h
  clear_value u1
  have h2 : Waits q u2.2 := serve_rests h1
  clear_value u2
  have h3 : Waits q u3 := respond_rests h2
  clear_value u3
  have h4 : Waits q u4 := Rests.ite (holdReply_rests h3) (respond_rests h3)
  clear_value u4
  with_reducible exact Rests.ite (serverFault_rests h1) (settleWarm_rests (settleCauses_rests h4))

theorem mailboxRequest_rests {q s} {x0 x1 x2 x3 x4 x5 x6} (h : Waits q s) : Waits q (mailboxRequest x0 x1 x2 x3 x4 x5 x6 s) := by
  unfold mailboxRequest
  with_reducible refine Rests.ite ?_ ?_
  · with_reducible exact bar0Write_rests (fun s h => h) h
  · lift_lets
    intro u1
    have h1 : Waits q u1 := barAccess_rests h
    clear_value u1
    intro u2 u3 u4
    clear_value u2 u3
    have h4 : Waits q u4 := putMbox_rests h1
    clear_value u4
    intro u5 u6 u7
    clear_value u5 u6
    have h7 : Waits q u7 := putMbox_rests h4
    clear_value u7
    intro u8
    clear_value u8
    with_reducible exact Rests.ite (bump_rests h4) (request_rests h7)

theorem malformed_rests {P s} (h : Rests P s) : Rests P (malformed s) := by
  dsimp only [malformed]
  with_reducible exact bump_rests h

theorem authFailure_rests {P s} (h : Rests P s) : Rests P (authFailure s) := by
  dsimp only [authFailure]
  with_reducible exact bump_rests h

theorem replayed_rests {P s} (h : Rests P s) : Rests P (replayed s) := by
  dsimp only [replayed]
  with_reducible exact bump_rests h

theorem versionReply_rests {P s} {x0 x1 x2} (h : Rests P s) : Rests P (versionReply x0 x1 x2 s) := by
  dsimp only [versionReply]
  with_reducible exact respond_rests h

theorem receiveOpen_rests {q s} {x0 x1 x2} (h : Waits q s) : Waits q (receiveOpen x0 x1 x2 s) := by
  unfold receiveOpen
  with_reducible exact Rests.ite (authFailure_rests h) (Rests.ite (versionReply_rests h) (request_rests h))

theorem receiveSession_rests {q s} {x0 x1 x2 x3} (h : Waits q s) : Waits q (receiveSession x0 x1 x2 x3 s) := by
  unfold receiveSession
  split
  · with_reducible exact authFailure_rests h
  · with_reducible refine Rests.ite ?_ ?_
    · with_reducible exact authFailure_rests h
    · with_reducible refine Rests.ite ?_ ?_
      · with_reducible exact replayed_rests h
      · with_reducible refine Rests.ite ?_ ?_
        · with_reducible exact Rests.ite h (sendLinob_rests h)
        · lift_lets
          intro u1
          have h1 : Waits q u1 := mapSession_rests h
          clear_value u1
          intro u2
          clear_value u2
          with_reducible exact Rests.ite (versionReply_rests h1) (request_rests h1)

theorem receiveLinob_rests {q s} {x0 x1 x2} (h : Waits q s) : Waits q (receiveLinob x0 x1 x2 s) := by
  unfold receiveLinob
  split
  · with_reducible exact malformed_rests h
  · with_reducible exact Rests.ite (malformed_rests h) (Rests.ite (receiveOpen_rests h) (receiveSession_rests h))

theorem takeBroadcast_rests {q s} {x0 x1 x2} (h : Waits q s) : Waits q (takeBroadcast x0 x1 x2 s) := by
  unfold takeBroadcast
  extract_lets u1 u2 u3 u4
  clear_value u1
  have h3 : Waits q u3 := Waits.mk h
  clear_value u3
  clear_value u4
  with_reducible exact Rests.ite (authFailure_rests h) (Rests.ite (replayed_rests h) (Rests.ite (respond_rests h3) (request_rests h3)))

theorem receiveBroadcast_rests {q s} {x0 x1} (h : Waits q s) : Waits q (receiveBroadcast x0 x1 s) := by
  unfold receiveBroadcast
  split
  · with_reducible exact malformed_rests h
  · with_reducible exact Rests.ite (malformed_rests h) (takeBroadcast_rests h)

theorem floodLinob_rests {P s} {x0 x1 x2 x3 x4} (h : Rests P s) : Rests P (floodLinob x0 x1 x2 x3 x4 s) := by
  unfold floodLinob
  with_reducible exact Rests.foldl h (fun s x h => queueBh_rests h)

theorem arrivesWith_rests {q s} {x0 x1} (h : Waits q s) : Waits q (arrivesWith x0 x1 s) := by
  induction x1 generalizing x0 with
  | mailbox => exact mailboxRequest_rests h
  | mgmt => exact Rests.ite (receiveLinob_rests h) h
  | cascade => exact Rests.ite (Rests.ite (receiveLinob_rests (bump_rests h)) (bump_rests h)) h
  | broadcast =>
    exact Rests.ite (Rests.ite (receiveBroadcast_rests (floodLinob_rests (bump_rests h))) (floodLinob_rests (bump_rests h))) h
  | firmware => exact Rests.ite (request_rests h) h
  | faulted _ ih => exact ih

theorem arrives_rests {q s} {x0} (h : Waits q s) : Waits q (arrives x0 s) := by
  unfold arrives
  with_reducible exact arrivesWith_rests h

theorem execRead_rests {q s} {x0} (h : Waits q s) : Answers (Waits q) (execRead x0 s) := by
  dsimp only [execRead]
  with_reducible exact Rests.answers_ite (Rests.answers (arrives_rests h)) (Rests.answers h)

theorem execWrite_rests {q s} {x0} (h : Waits q s) : Answers (Waits q) (execWrite x0 s) := by
  dsimp only [execWrite]
  with_reducible exact Rests.answers_ite (Rests.answers (arrives_rests h)) (Rests.answers h)

theorem execReadBlock_rests {q s} {x0} (h : Waits q s) : Answers (Waits q) (execReadBlock x0 s) := by
  dsimp only [execReadBlock]
  with_reducible exact Rests.answers_ite (Rests.answers (arrives_rests h)) (Rests.answers h)

theorem execWriteBlock_rests {q s} {x0} (h : Waits q s) : Answers (Waits q) (execWriteBlock x0 s) := by
  dsimp only [execWriteBlock]
  with_reducible exact Rests.answers_ite (Rests.answers (arrives_rests h)) (Rests.answers h)

theorem execSubscribe_rests {q s} {x0} (h : Waits q s) : Answers (Waits q) (execSubscribe x0 s) := by
  dsimp only [execSubscribe]
  with_reducible exact Rests.answers_ite (Rests.answers (arrives_rests h)) (Rests.answers h)

theorem execSessionOpen_rests {q s} {x0} (h : Waits q s) : Answers (Waits q) (execSessionOpen x0 s) := by
  dsimp only [execSessionOpen]
  with_reducible exact Rests.answers_ite (Rests.answers (arrives_rests h)) (Rests.answers h)

theorem execSessionProof_rests {q s} {x0} (h : Waits q s) : Answers (Waits q) (execSessionProof x0 s) := by
  dsimp only [execSessionProof]
  with_reducible exact Rests.answers_ite (Rests.answers (arrives_rests h)) (Rests.answers h)

theorem execPitch_rests {q s} {x0} (h : Waits q s) : Answers (Waits q) (execPitch x0 s) := by
  dsimp only [execPitch]
  with_reducible exact Rests.answers_ite (Rests.answers (arrives_rests h)) (Rests.answers h)

theorem execAbort_rests {q s} {x0} (h : Waits q s) : Answers (Waits q) (execAbort x0 s) := by
  dsimp only [execAbort]
  with_reducible exact Rests.answers_ite (Rests.answers (arrives_rests h)) (Rests.answers h)

theorem sendNotify_rests {P s} {x0 x1 x2} (h : Rests P s) : Rests P (sendNotify x0 x1 x2 s) := by
  dsimp only [sendNotify]
  split
  · with_reducible exact sendLinob_rests (mapSession_rests h)
  · with_reducible exact h

theorem execNotify_rests {P s} {x0} (h : Rests P s) : Answers (Rests P) (execNotify x0 s) := by
  dsimp only [execNotify]
  split
  · with_reducible exact Rests.answers h
  · with_reducible refine Rests.answers_ite ?_ ?_
    · with_reducible exact Rests.answers h
    · split
      · with_reducible exact Rests.answers (sendNotify_rests (Rests.mk h))
      · with_reducible exact Rests.answers (Rests.mk h)

theorem execMailboxOverrun_rests {P s} {x0 x1} (h : Rests P s) : Answers (Rests P) (execMailboxOverrun x0 x1 s) := by
  unfold execMailboxOverrun
  with_reducible refine Rests.answers ?_
  with_reducible exact bar0Write_rests (fun s h => Rests.ite (bump_rests h) h) h

theorem forwardOut_rests {P s} {x0 x1 x2} (h : Rests P s) : Rests P (forwardOut x0 x1 x2 s) := by
  dsimp only [forwardOut]
  split
  · with_reducible exact h
  · with_reducible exact sendCascade_rests (Rests.mk h)

theorem execLinobForward_rests {P s} {x0 x1 x2} (h : Rests P s) : Answers (Rests P) (execLinobForward x0 x1 x2 s) := by
  dsimp only [execLinobForward]
  split
  · with_reducible exact Rests.answers_ite (Rests.answers h) (Rests.answers_ite (Rests.answers (Rests.mk h)) (Rests.answers (forwardOut_rests h)))
  · with_reducible refine Rests.answers_ite ?_ ?_
    · with_reducible exact Rests.answers h
    · with_reducible refine Rests.answers_ite ?_ ?_
      · with_reducible exact Rests.answers (Rests.mk (bump_rests h))
      · with_reducible refine Rests.answers_ite ?_ ?_
        · split
          · with_reducible exact Rests.answers (sendLinob_rests (bump_rests h))
          · with_reducible exact Rests.answers (bump_rests h)
        · split
          · with_reducible exact Rests.answers (bump_rests h)
          · with_reducible exact Rests.answers_ite (Rests.answers (bump_rests h)) (Rests.answers (queueBh_rests (bump_rests h)))

theorem execBlockTransferTimeout_rests {P s} {x0 x1} (h : Rests P s) : Answers (Rests P) (execBlockTransferTimeout x0 x1 s) := by
  dsimp only [execBlockTransferTimeout]
  with_reducible exact Rests.answers (dropTransfer_rests h)

theorem execHalfOpenTimeout_rests {P s} {x0} (h : Rests P s) : Answers (Rests P) (execHalfOpenTimeout x0 s) := by
  dsimp only [execHalfOpenTimeout]
  with_reducible exact Rests.answers (closeSessions_rests h)

theorem execSessionTimeout_rests {P s} {x0} (h : Rests P s) : Answers (Rests P) (execSessionTimeout x0 s) := by
  dsimp only [execSessionTimeout]
  with_reducible exact Rests.answers (closeSessions_rests h)

theorem execArmingEnd_rests {P s} (h : Rests P s) : Answers (Rests P) (execArmingEnd s) := by
  dsimp only [execArmingEnd]
  split
  · with_reducible exact Rests.answers h
  · with_reducible exact Rests.answers_ite (Rests.answers h) (Rests.answers (respond_rests (armPitch_rests h)))

theorem storeItem_rests {P s} {x0} (h : Rests P s) : Rests P (storeItem x0 s) := by
  unfold storeItem
  extract_lets u1 u2 u3
  clear_value u2
  have h3 : Rests P u3 := Rests.mk h
  clear_value u3
  split
  · with_reducible exact writebackDone_rests h3
  · with_reducible exact h3

theorem storeFails_rests {P s} (h : Rests P s) : Rests P (storeFails s) := by
  dsimp only [storeFails]
  with_reducible exact setSticky_rests (logUntracked_rests (fire_rests (setSticky_rests h)))

theorem execPersistStore_rests {q s} {x0} (h : Waits q s) : Answers (Waits q) (execPersistStore x0 s) := by
  unfold execPersistStore
  split
  · with_reducible refine Rests.answers ?_
    with_reducible exact h
  · lift_lets
    intro u1 u2
    have h2 : Waits q u2 := Waits.mk h
    clear_value u2
    intro u3
    have h3 : Waits q u3 := Rests.ite (storeItem_rests h2) (storeFails_rests h2)
    clear_value u3
    with_reducible refine Rests.answers ?_
    with_reducible exact settleWarm_rests (settleShutdown_rests h3)

theorem sendMgmt_rests {P s} {x0 x1 x2} (h : Rests P s) : Rests P (sendMgmt x0 x1 x2 s) := by
  dsimp only [sendMgmt]
  with_reducible exact emit_rests h

theorem execManagementPortFrame_rests {P s} {x0} (h : Rests P s) : Answers (Rests P) (execManagementPortFrame x0 s) := by
  dsimp only [execManagementPortFrame]
  with_reducible refine Rests.answers_ite ?_ ?_
  · with_reducible exact Rests.answers h
  · split
    · with_reducible exact Rests.answers (sendMgmt_rests h)
    · with_reducible exact Rests.answers (Rests.mk h)

end Sys2Proof.Machine
end

section
/-! SUPPORT. The modes and the queue under the operations of Boot. -/

namespace Sys2Proof.Machine
open Sys2Proof

theorem restorePc_rests {q s} {x0} (h : Waits q s) : Waits q (restorePc x0 s) := by
  dsimp only [restorePc]
  with_reducible exact Rests.ite (assignSpare_rests (putObj_rests (putObj_rests (putObj_rests h)))) (Rests.ite (putObj_rests (putObj_rests
                  (putObj_rests (putObj_rests h)))) (putObj_rests (putObj_rests (putObj_rests h))))

theorem restoreList_rests {q s} (h : Waits q s) : Waits q (restoreList s) := by
  dsimp only [restoreList]
  exact Rests.ite (Rests.foldl (putObj_rests (Waits.mk h)) (fun s x h => restorePc_rests h)) h

theorem restoreOther_rests {P s} (h : Rests P s) : Rests P (restoreOther s) := by
  unfold restoreOther
  with_reducible exact Rests.ite h (Rests.foldl h (fun s x h => Rests.ite (putLane_rests h) (Rests.ite (putObj_rests h) h)))

theorem trainPc_rests {P s} {x0} (h : Rests P s) : Rests P (trainPc x0 s) := by
  dsimp only [trainPc]
  with_reducible exact Rests.ite h (putObj_rests h)

theorem failTraining_rests {q s} {x0 x1} (h : Waits q s) : Waits q (failTraining x0 x1 s) := by
  dsimp only [failTraining]
  with_reducible exact Rests.foldl h (fun s x h => pcFault_rests h)

theorem trainAll_rests {q s} {x0 x1} (h : Waits q s) : Waits q (trainAll x0 x1 s) := by
  dsimp only [trainAll]
  with_reducible exact failTraining_rests (Rests.foldl (Waits.mk h) (fun s x h => trainPc_rests h))

theorem execHbmTraining_rests {q s} {x0 x1} (h : Waits q s) : Answers (Waits q) (execHbmTraining x0 x1 s) := by
  dsimp only [execHbmTraining]
  with_reducible exact Rests.answers_ite (Rests.answers (settleCauses_rests (Waits.mk (Rests.ite (trainAll_rests (restoreList_rests (hbmLost_rests
                  h))) (trainAll_rests h))))) (Rests.answers_ite (Rests.answers (settleCauses_rests (trainAll_rests h))) (Rests.answers h))

theorem takeDefaults_rests {P s} (h : Rests P s) : Rests P (takeDefaults s) := h

theorem clearConfigured_rests {P s} (h : Rests P s) : Rests P (clearConfigured s) := by
  unfold clearConfigured
  extract_lets u1 u2 u3 u4
  with_reducible exact Rests.mk h

theorem applyStored_rests {P s} {x0 x1} (h : Rests P s) : Rests P (applyStored x0 x1 s) := by
  unfold applyStored
  extract_lets u1 u2
  clear_value u1 u2
  split
  · with_reducible exact putBlob_rests h
  · with_reducible exact Rests.ite (loadProfile_rests (putObj_rests h)) (Rests.ite (ptpRestart_rests (putObj_rests h)) (Rests.ite (Rests.ite
                    (setSource_rests (putObj_rests h)) (putObj_rests h)) (Rests.ite (Rests.ite (putObj_rests (putObj_rests h)) h) (putObj_rests h))))

theorem applyPersistent_rests {P s} (h : Rests P s) : Rests P (applyPersistent s) := by
  dsimp only [applyPersistent]
  split
  · with_reducible exact setSource_rests (Rests.foldl h (fun s x h => applyStored_rests h))
  · with_reducible exact Rests.foldl h (fun s x h => applyStored_rests h)

theorem bootDictionary_rests {P s} (h : Rests P s) : Rests P (bootDictionary s) := by
  unfold bootDictionary
  extract_lets u1 u2 u3 u4 u5 u6 u7
  clear_value u1
  have h2 : Rests P u2 := clearConfigured_rests (takeDefaults_rests h)
  clear_value u2
  have h3 : Rests P u3 := applyPersistent_rests h2
  clear_value u3
  have h4 : Rests P u4 := restoreOther_rests h3
  clear_value u4
  have h5 : Rests P u5 := Rests.foldl h4 (fun s x h => Rests.ite h (encDisabled_rests h))
  clear_value u5
  with_reducible exact Rests.mk h5

theorem bootPitch_rests {P s} (h : Rests P s) : Rests P (bootPitch s) := by
  dsimp only [bootPitch]
  with_reducible exact Rests.ite h (schedulePitch_rests h)

theorem bootPin_rests {P s} {x0} (h : Rests P s) : Rests P (bootPin x0 s) := by
  dsimp only [bootPin]
  with_reducible exact Rests.ite (emit_rests (Rests.mk h)) (Rests.mk h)

theorem bootPins_rests {P s} (h : Rests P s) : Rests P (bootPins s) := by
  dsimp only [bootPins]
  with_reducible exact Rests.ite (emit_rests (Rests.foldl h (fun s x h => bootPin_rests h))) (Rests.foldl h (fun s x h => bootPin_rests h))

theorem bootEnds_rests {q s} (h : Waits q s) : Waits q (bootEnds s) := by
  dsimp only [bootEnds]
  with_reducible exact Rests.ite (Rests.ite (haltBy_rests (Rests.ite (setSticky_rests h) h)) (bootPins_rests (bootPitch_rests (enterLimp_rests
                  (Rests.ite (setSticky_rests h) h))))) (bootPins_rests (bootPitch_rests (settleMode_rests (enterEffects_rests (Rests.ite
                  (setSticky_rests h) h)))))

theorem execBootComplete_rests {q s} {x0} (h : Waits q s) : Answers (Waits q) (execBootComplete x0 s) := by
  dsimp only [execBootComplete]
  with_reducible exact Rests.answers_ite (Rests.answers (bootEnds_rests (Waits.mk (putObj_rests (putObj_rests (bootDictionary_rests h))))))
                  (Rests.answers h)

end Sys2Proof.Machine
end

section
/-! SUPPORT. The modes and the queue under the operations of the ticks. -/

namespace Sys2Proof.Machine
open Sys2Proof

theorem tick_rests {q s} (h : Waits q s) : Waits q (tick s) := by
  unfold tick
  with_reducible exact lampRetries_rests (showReleases_rests (kilnTick_rests h))

theorem execKilnTick_rests {q s} (h : Waits q s) : Answers (Waits q) (execKilnTick s) := by
  unfold execKilnTick
  with_reducible refine Rests.answers_ite ?_ ?_
  · with_reducible refine Rests.answers ?_
    with_reducible exact h
  · with_reducible refine Rests.answers ?_
    with_reducible exact tick_rests h

theorem execStepApply_rests {q s} (h : Waits q s) : Answers (Waits q) (execStepApply s) := by
  unfold execStepApply
  with_reducible refine Rests.answers_ite ?_ ?_
  · with_reducible refine Rests.answers ?_
    with_reducible exact h
  · with_reducible refine Rests.answers ?_
    with_reducible exact tick_rests h

end Sys2Proof.Machine
end

section
/-! SUPPORT. The modes and the queue under the operations of the write rows. -/

namespace Sys2Proof.Machine
open Sys2Proof

theorem viaBytes_rests {q s} {x0 x1 x2 x3 x4} (h : Waits q s) : Waits q (viaBytes x0 x1 x2 x3 x4 s) := by
  dsimp only [viaBytes]
  split
  · with_reducible exact Rests.ite (request_rests h) h
  · with_reducible exact mailboxRequest_rests h
  · with_reducible refine Rests.ite ?_ ?_
    · with_reducible exact h
    · split
      · with_reducible exact authFailure_rests h
      · with_reducible exact receiveSession_rests h
  · with_reducible exact Rests.ite h (takeBroadcast_rests h)

theorem viaWrite_rests {q s} {x0 x1 x2 x3 x4} (h : Waits q s) : Waits q (viaWrite x0 x1 x2 x3 x4 s) := by
  dsimp only [viaWrite]
  with_reducible exact viaBytes_rests h

theorem viaNum_rests {q s} {x0 x1 x2 x3} (h : Waits q s) : Waits q (viaNum x0 x1 x2 x3 s) := by
  dsimp only [viaNum]
  with_reducible exact viaWrite_rests h

theorem viaImage_rests {q s} {x0 x1 x2 x3} (h : Waits q s) : Waits q (viaImage x0 x1 x2 x3 s) := by
  dsimp only [viaImage]
  split
  · with_reducible exact h
  · with_reducible refine request_rests ?_
    split
    · with_reducible exact mapSession_rests h
    · with_reducible exact h

theorem execWarmReset_rests {q s} {x0 x1} (h : Waits q s) : Answers (Waits q) (execWarmReset x0 x1 s) := by
  dsimp only [execWarmReset]
  with_reducible exact Rests.answers (viaNum_rests h)

theorem execFwImageWrite_rests {q s} {x0 x1} (h : Waits q s) : Answers (Waits q) (execFwImageWrite x0 x1 s) := by
  dsimp only [execFwImageWrite]
  with_reducible exact Rests.answers_ite (Rests.answers (viaWrite_rests h)) (Rests.answers (viaImage_rests h))

theorem execFwCommit_rests {q s} {x0 x1} (h : Waits q s) : Answers (Waits q) (execFwCommit x0 x1 s) := by
  dsimp only [execFwCommit]
  with_reducible exact Rests.answers (viaNum_rests h)

theorem execModeRequest_rests {q s} {x0 x1} (h : Waits q s) : Answers (Waits q) (execModeRequest x0 x1 s) := by
  dsimp only [execModeRequest]
  with_reducible exact Rests.answers (viaNum_rests h)

theorem execShutdown_rests {q s} {x0 x1} (h : Waits q s) : Answers (Waits q) (execShutdown x0 x1 s) := by
  dsimp only [execShutdown]
  with_reducible exact Rests.answers (viaNum_rests h)

theorem execWakeAtWrite_rests {q s} {x0 x1} (h : Waits q s) : Answers (Waits q) (execWakeAtWrite x0 x1 s) := by
  dsimp only [execWakeAtWrite]
  with_reducible exact Rests.answers (viaNum_rests h)

theorem execPersistClear_rests {q s} {x0 x1} (h : Waits q s) : Answers (Waits q) (execPersistClear x0 x1 s) := by
  dsimp only [execPersistClear]
  with_reducible exact Rests.answers (viaNum_rests h)

theorem execPlansSeal_rests {q s} {x0 x1 x2} (h : Waits q s) : Answers (Waits q) (execPlansSeal x0 x1 x2 s) := by
  dsimp only [execPlansSeal]
  with_reducible exact Rests.answers (viaNum_rests h)

theorem execPlansClear_rests {q s} {x0 x1 x2} (h : Waits q s) : Answers (Waits q) (execPlansClear x0 x1 x2 s) := by
  dsimp only [execPlansClear]
  with_reducible exact Rests.answers (viaNum_rests h)

theorem execPlansSave_rests {q s} {x0 x1 x2} (h : Waits q s) : Answers (Waits q) (execPlansSave x0 x1 x2 s) := by
  dsimp only [execPlansSave]
  with_reducible exact Rests.answers (viaNum_rests h)

theorem execObjectWrite_rests {q s} {x0 x1 x2 x3} (h : Waits q s) : Answers (Waits q) (execObjectWrite x0 x1 x2 x3 s) := by
  dsimp only [execObjectWrite]
  with_reducible exact Rests.answers (viaBytes_rests h)

theorem execTimeIncrementWrite_rests {q s} {x0 x1} (h : Waits q s) : Answers (Waits q) (execTimeIncrementWrite x0 x1 s) := by
  dsimp only [execTimeIncrementWrite]
  with_reducible exact Rests.answers (viaNum_rests h)

theorem execTimeStep_rests {q s} {x0 x1} (h : Waits q s) : Answers (Waits q) (execTimeStep x0 x1 s) := by
  dsimp only [execTimeStep]
  with_reducible exact Rests.answers (viaNum_rests h)

theorem execTimeSet_rests {q s} {x0 x1} (h : Waits q s) : Answers (Waits q) (execTimeSet x0 x1 s) := by
  dsimp only [execTimeSet]
  with_reducible exact Rests.answers (viaNum_rests h)

theorem execBhUpstreamWrite_rests {q s} {x0 x1} (h : Waits q s) : Answers (Waits q) (execBhUpstreamWrite x0 x1 s) := by
  dsimp only [execBhUpstreamWrite]
  with_reducible exact Rests.answers (viaNum_rests h)

theorem execCmpModeWrite_rests {q s} {x0 x1 x2} (h : Waits q s) : Answers (Waits q) (execCmpModeWrite x0 x1 x2 s) := by
  dsimp only [execCmpModeWrite]
  with_reducible exact Rests.answers (viaNum_rests h)

theorem execCmpTargetWrite_rests {q s} {x0 x1 x2} (h : Waits q s) : Answers (Waits q) (execCmpTargetWrite x0 x1 x2 s) := by
  dsimp only [execCmpTargetWrite]
  split
  · with_reducible exact Rests.answers (viaNum_rests h)
  · with_reducible exact Rests.answers (viaNum_rests h)

theorem execSnapshotAtWrite_rests {q s} {x0 x1} (h : Waits q s) : Answers (Waits q) (execSnapshotAtWrite x0 x1 s) := by
  dsimp only [execSnapshotAtWrite]
  with_reducible exact Rests.answers (viaNum_rests h)

theorem execSnapshotNow_rests {q s} {x0 x1} (h : Waits q s) : Answers (Waits q) (execSnapshotNow x0 x1 s) := by
  dsimp only [execSnapshotNow]
  with_reducible exact Rests.answers (viaNum_rests h)

theorem execFire_rests {q s} {x0} (h : Waits q s) : Answers (Waits q) (execFire x0 s) := by
  unfold execFire
  split
  · with_reducible refine Rests.answers ?_
    with_reducible exact bar0Write_rests (fun s h => bar0Fire_rests h) h
  · with_reducible refine Rests.answers ?_
    with_reducible exact viaNum_rests h

theorem execFireMask_rests {q s} {x0} (h : Waits q s) : Answers (Waits q) (execFireMask x0 s) := by
  unfold execFireMask
  split
  · with_reducible refine Rests.answers ?_
    with_reducible exact bar0Write_rests (fun s h => bar0FireAll_rests h) h
  · with_reducible refine Rests.answers ?_
    with_reducible exact viaNum_rests h

theorem execGristWrite_rests {q s} {x0 x1 x2 x3} (h : Waits q s) : Answers (Waits q) (execGristWrite x0 x1 x2 x3 s) := by
  dsimp only [execGristWrite]
  with_reducible exact Rests.answers (viaNum_rests h)

theorem execQuadModeWrite_rests {q s} {x0 x1 x2} (h : Waits q s) : Answers (Waits q) (execQuadModeWrite x0 x1 x2 s) := by
  dsimp only [execQuadModeWrite]
  with_reducible exact Rests.answers (viaNum_rests h)

theorem viaLane_rests {q s} {x0 x1 x2 x3} (h : Waits q s) : Waits q (viaLane x0 x1 x2 x3 s) := by
  dsimp only [viaLane]
  with_reducible exact viaNum_rests h

theorem execLaneConfigWrite_rests {q s} {x0 x1 x2 x3} (h : Waits q s) : Answers (Waits q) (execLaneConfigWrite x0 x1 x2 x3 s) := by
  dsimp only [execLaneConfigWrite]
  with_reducible exact Rests.answers (viaLane_rests h)

theorem execLaneReinstate_rests {q s} {x0 x1 x2} (h : Waits q s) : Answers (Waits q) (execLaneReinstate x0 x1 x2 s) := by
  dsimp only [execLaneReinstate]
  with_reducible exact Rests.answers (viaLane_rests h)

theorem execPrbsInject_rests {q s} {x0 x1 x2} (h : Waits q s) : Answers (Waits q) (execPrbsInject x0 x1 x2 s) := by
  dsimp only [execPrbsInject]
  with_reducible exact Rests.answers (viaLane_rests h)

theorem execPrbsClear_rests {q s} {x0 x1 x2} (h : Waits q s) : Answers (Waits q) (execPrbsClear x0 x1 x2 s) := by
  dsimp only [execPrbsClear]
  with_reducible exact Rests.answers (viaLane_rests h)

theorem execPortReinstate_rests {q s} {x0 x1 x2} (h : Waits q s) : Answers (Waits q) (execPortReinstate x0 x1 x2 s) := by
  dsimp only [execPortReinstate]
  with_reducible exact Rests.answers (viaNum_rests h)

theorem execRawFrame_rests {q s} {x0 x1 x2} (h : Waits q s) : Answers (Waits q) (execRawFrame x0 x1 x2 s) := by
  dsimp only [execRawFrame]
  with_reducible exact Rests.answers_ite (Rests.answers (viaWrite_rests h)) (Rests.answers (viaImage_rests h))

theorem execUnderbackFlush_rests {q s} {x0 x1 x2} (h : Waits q s) : Answers (Waits q) (execUnderbackFlush x0 x1 x2 s) := by
  dsimp only [execUnderbackFlush]
  with_reducible exact Rests.answers (viaNum_rests h)

theorem execStampClear_rests {q s} {x0 x1 x2} (h : Waits q s) : Answers (Waits q) (execStampClear x0 x1 x2 s) := by
  dsimp only [execStampClear]
  with_reducible exact Rests.answers (viaNum_rests h)

theorem execCellarReinstate_rests {q s} {x0 x1 x2 x3} (h : Waits q s) : Answers (Waits q) (execCellarReinstate x0 x1 x2 x3 s) := by
  dsimp only [execCellarReinstate]
  with_reducible exact Rests.answers (viaWrite_rests h)

theorem execCellarTestStart_rests {q s} {x0 x1} (h : Waits q s) : Answers (Waits q) (execCellarTestStart x0 x1 s) := by
  dsimp only [execCellarTestStart]
  with_reducible exact Rests.answers (viaNum_rests h)

theorem execRingEnable_rests {q s} {x0 x1} (h : Waits q s) : Answers (Waits q) (execRingEnable x0 x1 s) := by
  dsimp only [execRingEnable]
  with_reducible exact Rests.answers (viaNum_rests h)

theorem execRingDisable_rests {q s} {x0 x1} (h : Waits q s) : Answers (Waits q) (execRingDisable x0 x1 s) := by
  dsimp only [execRingDisable]
  with_reducible exact Rests.answers (viaNum_rests h)

theorem execCqEnable_rests {q s} {x0 x1 x2} (h : Waits q s) : Answers (Waits q) (execCqEnable x0 x1 x2 s) := by
  dsimp only [execCqEnable]
  with_reducible exact Rests.answers (viaNum_rests h)

theorem execExcEnable_rests {q s} {x0 x1} (h : Waits q s) : Answers (Waits q) (execExcEnable x0 x1 s) := by
  dsimp only [execExcEnable]
  with_reducible exact Rests.answers (viaNum_rests h)

theorem execRackingResume_rests {q s} {x0 x1} (h : Waits q s) : Answers (Waits q) (execRackingResume x0 x1 s) := by
  dsimp only [execRackingResume]
  with_reducible exact Rests.answers (viaNum_rests h)

theorem execTapHostEnable_rests {q s} {x0 x1 x2} (h : Waits q s) : Answers (Waits q) (execTapHostEnable x0 x1 x2 s) := by
  dsimp only [execTapHostEnable]
  with_reducible exact Rests.answers (viaNum_rests h)

theorem execPatternSelftest_rests {q s} {x0 x1} (h : Waits q s) : Answers (Waits q) (execPatternSelftest x0 x1 s) := by
  dsimp only [execPatternSelftest]
  with_reducible exact Rests.answers (viaNum_rests h)

theorem execHydroSelftest_rests {q s} {x0 x1} (h : Waits q s) : Answers (Waits q) (execHydroSelftest x0 x1 s) := by
  dsimp only [execHydroSelftest]
  with_reducible exact Rests.answers (viaNum_rests h)

theorem execPositionWrite_rests {q s} {x0 x1 x2} (h : Waits q s) : Answers (Waits q) (execPositionWrite x0 x1 x2 s) := by
  dsimp only [execPositionWrite]
  with_reducible exact Rests.answers (viaNum_rests h)

theorem execQueryAt_rests {q s} {x0 x1 x2} (h : Waits q s) : Answers (Waits q) (execQueryAt x0 x1 x2 s) := by
  dsimp only [execQueryAt]
  with_reducible exact Rests.answers (viaNum_rests h)

theorem execCmpArm_rests {q s} {x0 x1 x2} (h : Waits q s) : Answers (Waits q) (execCmpArm x0 x1 x2 s) := by
  dsimp only [execCmpArm]
  with_reducible exact Rests.answers (viaNum_rests h)

theorem execPosCmpTargetWrite_rests {q s} {x0 x1 x2 x3} (h : Waits q s) : Answers (Waits q) (execPosCmpTargetWrite x0 x1 x2 x3 s) := by
  dsimp only [execPosCmpTargetWrite]
  with_reducible exact Rests.answers (viaNum_rests h)

theorem execPosReinstate_rests {q s} {x0 x1 x2} (h : Waits q s) : Answers (Waits q) (execPosReinstate x0 x1 x2 s) := by
  dsimp only [execPosReinstate]
  with_reducible exact Rests.answers (viaNum_rests h)

theorem execLifeOverride_rests {q s} {x0 x1 x2} (h : Waits q s) : Answers (Waits q) (execLifeOverride x0 x1 x2 s) := by
  dsimp only [execLifeOverride]
  with_reducible exact Rests.answers (viaNum_rests h)

theorem execLampReinstate_rests {q s} {x0 x1 x2} (h : Waits q s) : Answers (Waits q) (execLampReinstate x0 x1 x2 s) := by
  dsimp only [execLampReinstate]
  with_reducible exact Rests.answers (viaNum_rests h)

theorem execHeadUserWrite_rests {q s} {x0 x1 x2} (h : Waits q s) : Answers (Waits q) (execHeadUserWrite x0 x1 x2 s) := by
  dsimp only [execHeadUserWrite]
  with_reducible exact Rests.answers (viaWrite_rests h)

theorem execFaultsReinstate_rests {q s} {x0 x1 x2} (h : Waits q s) : Answers (Waits q) (execFaultsReinstate x0 x1 x2 s) := by
  dsimp only [execFaultsReinstate]
  with_reducible exact Rests.answers (viaWrite_rests h)

theorem execListClear_rests {q s} {x0 x1 x2} (h : Waits q s) : Answers (Waits q) (execListClear x0 x1 x2 s) := by
  dsimp only [execListClear]
  with_reducible exact Rests.answers (viaWrite_rests h)

theorem execWinAttrWrite_rests {q s} {x0 x1 x2} (h : Waits q s) : Answers (Waits q) (execWinAttrWrite x0 x1 x2 s) := by
  dsimp only [execWinAttrWrite]
  with_reducible exact Rests.answers (viaNum_rests h)

end Sys2Proof.Machine
end

section
/-! SUPPORT. No command stops the block, in any state: the laws of the meanings put together at the dispatch. -/

namespace Sys2Proof.Machine
open Sys2Proof

theorem exec_rests {q : List Instr} {s : State} (h : Waits q s) (i : Instr) : Answers (Waits q) (exec i s) :=
  match i with
  | .coldReset _ => execColdReset_rests h
  | .coldExit => execColdExit_rests h
  | .kilnBrownOut => execKilnBrownOut_rests h
  | .bootImageLoad => execBootImageLoad_rests h
  | .bootBist _ _ _ => execBootBist_rests h
  | .hbmTraining _ _ => execHbmTraining_rests h
  | .bootComplete _ => execBootComplete_rests h
  | .warmReset _ _ => execWarmReset_rests h
  | .fwImageWrite _ _ => execFwImageWrite_rests h
  | .fwCommit _ _ => execFwCommit_rests h
  | .modeRequest _ _ => execModeRequest_rests h
  | .transitionComplete => execTransitionComplete_rests h
  | .drainComplete => execDrainComplete_rests h
  | .transmitCutTimeout _ => execTransmitCutTimeout_rests h
  | .firmwareWatchdog => execFirmwareWatchdog_rests h
  | .limpCause _ => execLimpCause_rests h
  | .watchdogGraceEnd => execWatchdogGraceEnd_rests h
  | .haltCause _ => execHaltCause_rests h
  | .shutdown _ _ => execShutdown_rests h
  | .wakeCompare => execWakeCompare_rests h
  | .wakeAhead => execWakeAhead_rests h
  | .wakeAtWrite _ _ => execWakeAtWrite_rests h
  | .read _ => execRead_rests h
  | .write _ => execWrite_rests h
  | .readBlock _ => execReadBlock_rests h
  | .writeBlock _ => execWriteBlock_rests h
  | .subscribe _ => execSubscribe_rests h
  | .notify _ => execNotify_rests h
  | .sessionOpen _ => execSessionOpen_rests h
  | .sessionProof _ => execSessionProof_rests h
  | .pitch _ => execPitch_rests h
  | .abort _ => execAbort_rests h
  | .mailboxOverrun _ _ => execMailboxOverrun_rests h
  | .linobForward _ _ _ => execLinobForward_rests h
  | .blockTransferTimeout _ _ => execBlockTransferTimeout_rests h
  | .halfOpenTimeout _ => execHalfOpenTimeout_rests h
  | .sessionTimeout _ => execSessionTimeout_rests h
  | .persistStore _ => execPersistStore_rests h
  | .persistClear _ _ => execPersistClear_rests h
  | .plansSeal _ _ _ => execPlansSeal_rests h
  | .plansClear _ _ _ => execPlansClear_rests h
  | .plansSave _ _ _ => execPlansSave_rests h
  | .armingEnd => execArmingEnd_rests h
  | .pitchTakesPlace => execPitchTakesPlace_rests h
  | .boundaryTimeout => execBoundaryTimeout_rests h
  | .timeIncrementWrite _ _ => execTimeIncrementWrite_rests h
  | .timeStep _ _ => execTimeStep_rests h
  | .timeSet _ _ => execTimeSet_rests h
  | .stepApply => execStepApply_rests h
  | .tkLatch _ => execTkLatch_rests h
  | .ptpMessage _ _ _ => execPtpMessage_rests h
  | .holdoverLimit => execHoldoverLimit_rests h
  | .ppsOutPulse => execPpsOutPulse_rests h
  | .ppsOutPulseEnd => execPpsOutPulseEnd_rests h
  | .ppsInEdge _ _ => execPpsInEdge_rests h
  | .ppsInMissing => execPpsInMissing_rests h
  | .bhUpstreamWrite _ _ => execBhUpstreamWrite_rests h
  | .beaconSend => execBeaconSend_rests h
  | .beacon _ _ _ => execBeacon_rests h
  | .probeSend _ => execProbeSend_rests h
  | .probe _ _ _ => execProbe_rests h
  | .probeReply _ _ _ _ => execProbeReply_rests h
  | .beaconLoss _ => execBeaconLoss_rests h
  | .addressAnnounce _ => execAddressAnnounce_rests h
  | .trigger _ _ _ _ _ _ _ _ => execTrigger_rests h
  | .scheduledFire => execScheduledFire_rests h
  | .cmpModeWrite _ _ _ => execCmpModeWrite_rests h
  | .cmpTargetWrite _ _ _ => execCmpTargetWrite_rests h
  | .timeCompare _ => execTimeCompare_rests h
  | .snapshotAtWrite _ _ => execSnapshotAtWrite_rests h
  | .snapshotNow _ _ => execSnapshotNow_rests h
  | .snapshot => execSnapshot_rests h
  | .occurrenceDelivery _ => execOccurrenceDelivery_rests h
  | .pendingDelivery _ => execPendingDelivery_rests h
  | .fire _ => execFire_rests h
  | .fireMask _ => execFireMask_rests h
  | .gristCellFire _ => execGristCellFire_rests h
  | .gristWrite _ _ _ _ => execGristWrite_rests h
  | .trigInEdge _ _ _ => execTrigInEdge_rests h
  | .trigInStuck _ => execTrigInStuck_rests h
  | .trigOutPulseEnd _ => execTrigOutPulseEnd_rests h
  | .vectorTimer _ => execVectorTimer_rests h
  | .quadModeWrite _ _ _ => execQuadModeWrite_rests h
  | .laneConfigWrite _ _ _ _ => execLaneConfigWrite_rests h
  | .quadPllLock _ _ => execQuadPllLock_rests h
  | .pllLockTimeout _ => execPllLockTimeout_rests h
  | .referenceLost _ => execReferenceLost_rests h
  | .referenceReturn _ => execReferenceReturn_rests h
  | .selfCheckDone _ _ => execSelfCheckDone_rests h
  | .signalDetect _ => execSignalDetect_rests h
  | .lossOfSignal _ => execLossOfSignal_rests h
  | .cdrLock _ => execCdrLock_rests h
  | .cdrLockLost _ => execCdrLockLost_rests h
  | .adaptationDone _ _ _ => execAdaptationDone_rests h
  | .blockLock _ _ => execBlockLock_rests h
  | .blockLockLost _ _ => execBlockLockLost_rests h
  | .huntTimeout _ => execHuntTimeout_rests h
  | .alignmentLock _ => execAlignmentLock_rests h
  | .efomWindow _ _ _ _ => execEfomWindow_rests h
  | .eyeFault _ => execEyeFault_rests h
  | .relockTimeout _ => execRelockTimeout_rests h
  | .laneReinstate _ _ _ => execLaneReinstate_rests h
  | .prbsInject _ _ _ => execPrbsInject_rests h
  | .prbsClear _ _ _ => execPrbsClear_rests h
  | .prbsCheckerLock _ _ => execPrbsCheckerLock_rests h
  | .portFault _ _ => execPortFault_rests h
  | .portReinstate _ _ _ => execPortReinstate_rests h
  | .frameReceive _ _ _ _ _ => execFrameReceive_rests h
  | .pauseReceive _ _ => execPauseReceive_rests h
  | .pauseStopEnd _ _ => execPauseStopEnd_rests h
  | .pauseRequest _ => execPauseRequest_rests h
  | .pauseRefresh _ => execPauseRefresh_rests h
  | .multicastJoin _ => execMulticastJoin_rests h
  | .rawFrame _ _ _ => execRawFrame_rests h
  | .cascadeFrameDiscard _ => execCascadeFrameDiscard_rests h
  | .packetCommit _ => execPacketCommit_rests h
  | .packetRewind _ => execPacketRewind_rests h
  | .chainFullCut _ => execChainFullCut_rests h
  | .crossingRead _ _ => execCrossingRead_rests h
  | .underbackFlush _ _ _ => execUnderbackFlush_rests h
  | .packetPlace _ => execPacketPlace_rests h
  | .placementComplete _ => execPlacementComplete_rests h
  | .rewindNotice => execRewindNotice_rests h
  | .straggleTimeout _ => execStraggleTimeout_rests h
  | .frameIdleTimeout _ => execFrameIdleTimeout_rests h
  | .frameCommit _ => execFrameCommit_rests h
  | .resendRequest _ _ _ => execResendRequest_rests h
  | .stampClear _ _ _ => execStampClear_rests h
  | .caskRelease _ _ => execCaskRelease_rests h
  | .refreshDue _ _ => execRefreshDue_rests h
  | .forcedRefresh _ _ => execForcedRefresh_rests h
  | .refreshRepayment _ _ => execRefreshRepayment_rests h
  | .stackTempRead _ _ => execStackTempRead_rests h
  | .uncorrectableRead _ _ _ _ => execUncorrectableRead_rests h
  | .ceThreshold _ _ => execCeThreshold_rests h
  | .rowRepair _ _ _ _ => execRowRepair_rests h
  | .pcRetire _ _ => execPcRetire_rests h
  | .spareFillComplete _ => execSpareFillComplete_rests h
  | .cellarReinstate _ _ _ _ => execCellarReinstate_rests h
  | .scrub _ _ _ _ _ => execScrub_rests h
  | .readRecalibration p => execReadRecalibration_rests (x0 := p) h
  | .cellarTestStart _ _ => execCellarTestStart_rests h
  | .cellarTestDone _ => execCellarTestDone_rests h
  | .ringPost _ _ => execRingPost_rests h
  | .ringEnable _ _ => execRingEnable_rests h
  | .ringDisable _ _ => execRingDisable_rests h
  | .cqEnable _ _ _ => execCqEnable_rests h
  | .cqHead _ _ => execCqHead_rests h
  | .deliveryStart => execDeliveryStart_rests h
  | .deliveryDataDone _ => execDeliveryDataDone_rests h
  | .completionEntry _ => execCompletionEntry_rests h
  | .walkReadComplete _ _ => execWalkReadComplete_rests h
  | .ringFault _ _ => execRingFault_rests h
  | .exceptionEntry => execExceptionEntry_rests h
  | .excEnable _ _ => execExcEnable_rests h
  | .rackingResume _ _ => execRackingResume_rests h
  | .tapEntry _ => execTapEntry_rests h
  | .tapFrameStart _ => execTapFrameStart_rests h
  | .packetDue _ _ => execPacketDue_rests h
  | .tapFetchComplete _ _ => execTapFetchComplete_rests h
  | .txPost _ _ => execTxPost_rests h
  | .tapHostEnable _ _ _ => execTapHostEnable_rests h
  | .tapStop _ => execTapStop_rests h
  | .tapTrigger _ => execTapTrigger_rests h
  | .replayCaskDone _ => execReplayCaskDone_rests h
  | .patternSelftest _ _ => execPatternSelftest_rests h
  | .selftestDone _ _ => execSelftestDone_rests h
  | .hydroCompare _ => execHydroCompare_rests h
  | .goldenReadReturn _ => execGoldenReadReturn_rests h
  | .goldenDeadline _ => execGoldenDeadline_rests h
  | .hydroClose _ => execHydroClose_rests h
  | .hydroSelftest _ _ => execHydroSelftest_rests h
  | .encoderSample _ _ _ _ _ => execEncoderSample_rests h
  | .positionCompare _ => execPositionCompare_rests h
  | .speedUpdate _ => execSpeedUpdate_rests h
  | .standstillTimeout _ => execStandstillTimeout_rests h
  | .positionWrite _ _ _ => execPositionWrite_rests h
  | .queryAt _ _ _ => execQueryAt_rests h
  | .cmpArm _ _ _ => execCmpArm_rests h
  | .posCmpTargetWrite _ _ _ _ => execPosCmpTargetWrite_rests h
  | .quadOutputEdge _ => execQuadOutputEdge_rests h
  | .posReinstate _ _ _ => execPosReinstate_rests h
  | .strobeDelivery _ => execStrobeDelivery_rests h
  | .pulseEnd _ _ => execPulseEnd_rests h
  | .strobeGapEnd _ => execStrobeGapEnd_rests h
  | .writebackComplete _ _ => execWritebackComplete_rests h
  | .headPoll _ _ => execHeadPoll_rests h
  | .interlockFall _ => execInterlockFall_rests h
  | .interlockPermit _ => execInterlockPermit_rests h
  | .overcurrent _ _ => execOvercurrent_rests h
  | .lifeOverride _ _ _ => execLifeOverride_rests h
  | .lampReinstate _ _ _ => execLampReinstate_rests h
  | .headUserWrite _ _ _ => execHeadUserWrite_rests h
  | .faultsReinstate _ _ _ => execFaultsReinstate_rests h
  | .listClear _ _ _ => execListClear_rests h
  | .supplySag _ => execSupplySag_rests h
  | .governorStepEnd _ => execGovernorStepEnd_rests h
  | .coreRailFault => execCoreRailFault_rests h
  | .thermalReading _ => execThermalReading_rests h
  | .perstDeassert => execPerstDeassert_rests h
  | .linkUp _ _ _ => execLinkUp_rests h
  | .hostReset _ => execHostReset_rests h
  | .busMasterDisable _ => execBusMasterDisable_rests h
  | .busMasterEnable _ => execBusMasterEnable_rests h
  | .l1Entry => execL1Entry_rests h
  | .l1Exit => execL1Exit_rests h
  | .npCompletion _ _ => execNpCompletion_rests h
  | .completionTimeout _ => execCompletionTimeout_rests h
  | .lateCompletion _ _ => execLateCompletion_rests h
  | .quarantineExpiry _ => execQuarantineExpiry_rests h
  | .poisonedCompletion _ => execPoisonedCompletion_rests h
  | .bar2Access _ => execBar2Access_rests h
  | .bar0PartialWrite => execBar0PartialWrite_rests h
  | .winAttrWrite _ _ _ => execWinAttrWrite_rests h
  | .interruptFormChange _ _ => execInterruptFormChange_rests h
  | .objectWrite _ _ _ _ => execObjectWrite_rests h
  | .kilnTick => execKilnTick_rests h
  | .localOrRemoteFault _ _ _ => execLocalOrRemoteFault_rests h
  | .msixVectorUnmask _ => execMsixVectorUnmask_rests h
  | .srcStatusWrite _ _ => execSrcStatusWrite_rests h
  | .excHead _ => execExcHead_rests h
  | .managementPortFrame _ => execManagementPortFrame_rests h
  | .ptpAnnounceTimeout => execPtpAnnounceTimeout_rests h
  | .ptpMessageInterval _ _ => execPtpMessageInterval_rests h

theorem step_rests (s : State) : Answers (Waits s.pending.tail) (step s) := by
  unfold step
  split
  · next h => exact ⟨s, rfl, by rw [h]; exact h⟩
  · next h => rw [h]; exact exec_rests rfl _

theorem runs (n : Nat) : ∀ s, Runs n s := by
  induction n with
  | zero => exact fun _ => trivial
  | succ n ih =>
    intro s
    obtain ⟨t, ht, -⟩ := step_rests s
    exact ⟨t, ht, ih t⟩

/-- Settles O57, by the law of each command's meaning. -/
theorem everyCommandAnswers : Obligations.EveryCommandAnswers := by
  unfold Obligations.EveryCommandAnswers
  exact ⟨fun i s => exec_rests rfl i, step_rests, runs⟩

end Sys2Proof.Machine
end

section
/-! SUPPORT. The end of a mode transition, the drain and the wake (R47 to R49, R65, R66). -/

namespace Sys2Proof.Machine
open Sys2Proof

/-! ### The end of a transition (R47 to R49) -/

/-- No request waits and no wake is queued. -/
def Unasked (m : ModeState) (_ : List Instr) : Prop := m.pendingReq = none ∧ m.wakeQueued = false

theorem hbmSleep_unasked {s : State} (h : Calm Unasked s) : Calm Unasked (hbmSleep s) := by
  unfold hbmSleep
  split
  · exact h
  · exact finishAccesses_rests h

theorem hbmLost_unasked {s : State} (h : Calm Unasked s) : Calm Unasked (hbmLost s) := by
  have hl : Calm Unasked (loseMem 0 sramBase s) := loseMem_rests h
  unfold hbmLost
  generalize loseMem 0 sramBase s = t at hl ⊢
  exact hl

theorem enterDormant_unasked {s : State} (h : Calm Unasked s) : Calm Unasked (enterDormant s) := by
  unfold enterDormant
  dsimp only
  split
  · have hl := hbmLost_unasked (loseAllCasks_rests (x0 := 4) (emptyUnderbacks_rests h))
    generalize hbmLost (loseAllCasks 4 (emptyUnderbacks s)) = t at hl ⊢
    exact hl
  · exact hbmSleep_unasked (emptyUnderbacks_rests h)

theorem leaveDormant_unasked {s : State} (h : Calm Unasked s) : Calm Unasked (leaveDormant s) := ⟨h.1, rfl⟩

theorem enterEffects_unasked {a b : Mode} {s : State} (h : Calm Unasked s) : Calm Unasked (enterEffects a b s) := by
  unfold enterEffects
  extract_lets t
  have ht : Calm Unasked t := Rests.ite (startReceiving_rests h) h
  clear_value t
  split
  · exact leaveDormant_unasked ht
  · exact enterDormant_unasked ht
  · exact moveCasks_rests ht
  · exact moveCasks_rests ht
  · exact moveCasks_rests ht
  · exact moveCasks_rests ht
  · exact flushLanes_rests (clearEngine_rests (loseAllCasks_rests (stopAllDeliveries_rests ht)))
  · exact ht

/-- The mode is settled with its transition over; the lanes follow it. -/
theorem settleMode_modes (b : Mode) (s : State) :
    (settleMode b s).modes = { s.modes with current := b, target := none, draining := false } :=
  relaneAll_rests (P := fun m _ _ => m = { s.modes with current := b, target := none, draining := false })
    (fire_rests (putObj_rests (by exact (rfl : ({ s.modes with current := b, target := none, draining := false } : ModeState) = _))))

theorem settleShutdown_modes (s : State) : (settleShutdown s).modes.current = s.modes.current ∧
    (settleShutdown s).modes.target = s.modes.target ∧ (settleShutdown s).modes.draining = s.modes.draining := by
  unfold settleShutdown
  split
  · exact ⟨rfl, rfl, rfl⟩
  · exact ⟨rfl, rfl, rfl⟩

theorem finishTransition_modes {b : Mode} {s : State} (hreq : s.modes.pendingReq = none) (hwake : s.modes.wakeQueued = false) :
    (finishTransition b s).modes.current = b ∧ (finishTransition b s).modes.target = none ∧ (finishTransition b s).modes.draining = false := by
  obtain ⟨hnone, hno⟩ : Unasked (enterEffects s.modes.current b s).modes [] := enterEffects_unasked (s := s) ⟨hreq, hwake⟩
  have hmodes := settleMode_modes b (enterEffects s.modes.current b s)
  unfold finishTransition
  dsimp only
  generalize settleMode b (enterEffects s.modes.current b s) = t at hmodes ⊢
  simp only [hmodes, hnone, hno, Bool.and_false, Bool.false_eq_true, if_false]
  exact settleShutdown_modes _

/-- Settles O30, with the branches of the transition decided by what each clause asks. -/
theorem transitionsEnd : Obligations.TransitionsEnd := by
  unfold Obligations.TransitionsEnd
  refine ⟨fun s b htgt hdr hrec htx hdorm hrun => ?_, fun s b => finishTransition_modes, fun s htgt hdr hrec hburst hpipe => ?_,
    fun s b htgt hdr hdrain => ?_, fun t s hstop hframes => ?_, fun s hcold hon hat => ?_, fun s p hp hwhen htime hdorm htgt hgrace => ?_⟩
  · show execTransitionComplete s = _
    have h1 : ¬(s.modes.current = .dormant ∧ s.modes.hbm = .poweredDown) := hdorm
    have h2 : ¬(b = .ready ∧ isRun s.modes.current = true) := hrun
    simp [execTransitionComplete, htgt, hdr, advanceTransition, hrec, htx, h1, h2]
  · intro w htx hframes
    have hadv : execTransitionComplete s = .next (if getObj w Oid.modesDrainOnStop = 1 then
        (if drainOwed w then { w with modes := { w.modes with draining := true } } else finishTransition .ready w)
        else finishTransition .ready (releaseCasks 3 w)) := by
      have hrun : isRun s.modes.current = true := by revert hrec; cases s.modes.current <;> decide
      have hnd : s.modes.current ≠ .dormant := by intro h; rw [h] at hrec; exact absurd hrec (by decide)
      simp [execTransitionComplete, htgt, hdr, advanceTransition, hrec, htx, hrun, hnd, hburst, hpipe, show stopReceiving s = w from rfl, hframes,
        show receives .ready = false from rfl]
    refine ⟨fun hon howed => ?_, fun hoff => ?_⟩
    · show execTransitionComplete s = _
      rw [hadv, if_pos hon, if_pos howed]
    · show execTransitionComplete s = _
      rw [hadv, if_neg hoff]
  · show execDrainComplete s = _
    simp [execDrainComplete, htgt, hdr, hdrain]
  · show execTransmitCutTimeout t s = _
    simp [execTransmitCutTimeout, hstop, hframes]
  · show execWakeCompare s = _
    simp [execWakeCompare, hcold, evalWake, hon, hat]
  · show execWakeAhead s = _
    have htrans : inTransition s = false := by simp [inTransition, htgt, hgrace]
    have hlead : ((if bit (getObj s Oid.modesWakeSources) 1 then wakeLead s else 0 : Nat) : Int) =
        if bit (getObj s Oid.modesWakeSources) 1 then (wakeLead s : Int) else 0 := by
      split
      · rfl
      · rfl
    unfold execWakeAhead
    rw [hp]
    dsimp only
    rw [hlead, hwhen, decide_eq_true htime]
    simp [wakeUp, hdorm, htrans]

end Sys2Proof.Machine
end

section
/-! SUPPORT. Limp and Halt (R68, R69, R73): what entering them leaves. -/

namespace Sys2Proof.Machine
open Sys2Proof

/-! ### What entering Halt leaves of the placements in flight -/

/-- The placements that have not reached memory. -/
def flightOf (s : State) : List Placement := s.lau.flight

theorem setBoil_flight (part mask : Nat) (on : Bool) (s : State) : flightOf (setBoil part mask on s) = flightOf s := by
  simp only [setBoil, flightOf]
  split
  · simp
  · split <;> simp

theorem driveBoil_flight (part : Nat) (s : State) : flightOf (driveBoil part false s) = flightOf s := by
  simp only [driveBoil, Bool.false_and, Bool.false_eq_true, if_false, setBoil_flight]

theorem strobeOff_flight (n t : Nat) (s : State) : flightOf (strobeOff n t s) = flightOf s := by
  simp only [strobeOff]
  split
  · rfl
  · rfl

theorem driveTrigOut_flight (n t : Nat) (active pulsing : Bool) (ends : Nat) (s : State) :
    flightOf (driveTrigOut n t active pulsing ends s) = flightOf s := by
  simp only [driveTrigOut]
  split
  · rfl
  · rfl

theorem ppsLow_flight (s : State) : flightOf (ppsLow s) = flightOf s := by
  simp only [ppsLow]
  split
  · rfl
  · rfl

theorem haltPins_flight (s : State) : flightOf (haltPins s) = flightOf s := by
  unfold haltPins
  refine (foldl_still (fun u n => strobeOff_flight n (now _) u) _ _).trans ((ppsLow_flight _).trans (foldl_still (fun u n => ?_) _ s))
  split
  · exact driveTrigOut_flight _ _ _ _ _ u
  · rfl

theorem abandonTx_flight (s : State) : flightOf (abandonTx s) = flightOf s := (driveBoil_flight 0 _).trans (driveBoil_flight 1 _)

theorem ubClock_flight (g : Nat) (s : State) : flightOf (ubClock g s) = flightOf s := by
  simp only [ubClock, flightOf]
  split
  · split
    · simp only [fire_lau, setSticky_lau, bump_lau, putObj_lau]
    · split
      · simp only [fire_lau, putObj_lau]
      · rfl
  · split
    · simp only [fire_lau, setSticky_lau, bump_lau, putObj_lau]
    · split
      · simp only [fire_lau, putObj_lau]
      · rfl

theorem updateBoil_flight (s : State) : flightOf (updateBoil s) = flightOf s := by
  simp only [updateBoil]
  split
  · exact (setBoil_flight _ _ _ _).trans (by simp only [flightOf, fire_lau, setSticky_lau])
  · split
    · exact setBoil_flight _ _ _ _
    · rfl

theorem emptyUnderbacks_flight (s : State) : flightOf (emptyUnderbacks s) = flightOf s := by
  unfold emptyUnderbacks
  extract_lets u
  have hu : flightOf u = flightOf s := by
    refine foldl_still (π := flightOf) (fun u g => ?_) _ s
    split
    · rfl
    · exact ubClock_flight _ _
  clear_value u
  exact (updateBoil_flight _).trans hu

theorem clearBoil_flight (s : State) : flightOf (clearBoil s) = flightOf s :=
  foldl_still (π := flightOf) (f := fun s p => putObj Oid.cellarBoilover p 0 s) (fun _ _ => rfl) _ s

/-- With nothing in flight, closing the accesses of HBM writes nothing. -/
theorem hbmSleep_mem {s : State} (h : flightOf s = []) : (hbmSleep s).mem = s.mem := by
  have hl : s.lau.flight = [] := h
  unfold hbmSleep finishAccesses
  rw [hl]
  split
  · rfl
  · rfl

/-! ### Limp and Halt (R68, R69, R73) -/

theorem enterLimp_modes (s : State) :
    (enterLimp s).modes.current = .limp ∧ (enterLimp s).modes.grace = false ∧ (enterLimp s).modes.pendingReq = none := by
  unfold enterLimp
  dsimp only
  rw [settleMode_modes]
  exact ⟨rfl, rfl, rfl⟩

theorem settleMode_mem (b : Mode) (s : State) : (settleMode b s).mem = s.mem :=
  relaneAll_rests (P := fun _ _ m => m = s.mem) (fire_rests (putObj_rests (by exact (rfl : s.mem = s.mem))))

/-- Halt settles its mode in a state whose memory is as it was when nothing was in flight, and writes the lamps' counts back last. -/
theorem enterHalt_settles (s : State) : ∃ t : State, enterHalt s = writeAllExact (settleMode .halt t) ∧
    t.modes.grace = false ∧ t.modes.pendingReq = none ∧ (s.lau.flight = [] → t.mem = s.mem) := by
  unfold enterHalt
  extract_lets u rk v w modes x
  have hu : flightOf u = flightOf s := (emptyUnderbacks_flight _).trans ((abandonTx_flight _).trans (haltPins_flight s))
  have hm : u.mem = s.mem :=
    emptyUnderbacks_rests (P := fun _ _ m => m = s.mem) (abandonTx_rests (haltPins_rests (by exact (rfl : s.mem = s.mem))))
  clear_value u
  have hw : s.lau.flight = [] → w.mem = s.mem := fun h => by
    have hb : (clearBoil v).mem = s.mem := clearBoil_rests (P := fun _ _ m => m = s.mem) (by exact hm)
    exact (hbmSleep_mem ((clearBoil_flight v).trans (hu.trans h))).trans hb
  clear_value w
  exact ⟨_, rfl, rfl, rfl, hw⟩

theorem enterHalt_modes (s : State) :
    (enterHalt s).modes.current = .halt ∧ (enterHalt s).modes.grace = false ∧ (enterHalt s).modes.pendingReq = none := by
  obtain ⟨t, ht, hgrace, hreq, -⟩ := enterHalt_settles s
  rw [ht]
  refine writeAllExact_rests (P := fun m _ _ => m.current = .halt ∧ m.grace = false ∧ m.pendingReq = none) ?_
  unfold Rests
  rw [settleMode_modes]
  exact ⟨rfl, hgrace, hreq⟩

theorem enterHalt_mem {s : State} (h : s.lau.flight = []) : (enterHalt s).mem = s.mem := by
  obtain ⟨t, ht, -, -, hmem⟩ := enterHalt_settles s
  rw [ht, ← hmem h]
  refine writeAllExact_rests (P := fun _ _ m => m = t.mem) ?_
  unfold Rests
  rw [settleMode_mem]

/-- A Limp cause of a device that runs: its bit, then the grace of the watchdog or Limp. -/
theorem limpBy_runs {mask : Nat} {s : State} (h1 : s.modes.current ≠ .cold) (h2 : s.modes.current ≠ .halt) (h3 : s.modes.current ≠ .limp)
    (h4 : s.modes.current ≠ .boot) (hst : stagingFailed s = false) :
    limpBy mask s =
      let u := setSticky Oid.modesLimpCause 0 mask { s with modes := { s.modes with causeTick := some s.time.ticks } }
      let v := { u with modes := { u.modes with target := none, pendingReq := none, draining := false } }
      if mask = 8 then { v with modes := { v.modes with grace := true } } else enterLimp v := by
  have hst' : stagingFailed (setSticky Oid.modesLimpCause 0 mask { s with modes := { s.modes with causeTick := some s.time.ticks } }) = false := by
    rw [stagingFailed, getObj_setSticky_ne (by decide)]
    exact hst
  unfold limpBy
  simp only [h1, h2, decide_false, Bool.or_self, Bool.false_eq_true, if_false, setSticky_modes, h3, h4, hst']

/-- Settles O31: the causes by the branches of their rules, memory by the parts of entering Halt. -/
theorem limpAndHalt : Obligations.LimpAndHalt := by
  unfold Obligations.LimpAndHalt
  refine ⟨fun cause s h1 h2 h3 h4 hst hc => ?_, fun s h1 h2 h3 h4 hst => ?_, fun s hg => ?_, enterLimp_modes, fun s hl => ?_,
    fun s h1 h2 h3 => ?_, fun cause s h1 => ?_, fun s => ?_⟩
  · have hmask : (2 : Nat) ^ cause.val ≠ 8 := by revert cause; decide
    show Host.Outcome.next (limpBy (2 ^ cause.val) s) = _
    rw [limpBy_runs h1 h2 h3 h4 hst]
    dsimp only
    rw [if_neg hmask]
  · show Host.Outcome.next (limpBy 8 s) = _
    rw [limpBy_runs h1 h2 h3 h4 hst]
    rfl
  · show execWatchdogGraceEnd s = _
    rw [execWatchdogGraceEnd, if_pos hg]
  · show execFirmwareWatchdog s = _
    simp [execFirmwareWatchdog, hl]
  · show execFirmwareWatchdog s = _
    simp [execFirmwareWatchdog, h1, h2, h3]
  · intro u
    show Host.Outcome.next (haltBy (2 ^ cause.val) s) = _
    rw [haltBy, if_neg h1]
    rfl
  · obtain ⟨hcur, hgrace, hreq⟩ := enterHalt_modes s
    exact ⟨hcur, hgrace, hreq, enterHalt_mem⟩

end Sys2Proof.Machine
end

section
/-! SUPPORT. Refresh debt (R333 to R335). -/

namespace Sys2Proof.Machine
open Sys2Proof

/-! ### Refresh debt (R333 to R335) -/

theorem debtOf_congr {s t : State} (h : t.cel = s.cel) (q g : Nat) : debtOf t q g = debtOf s q g := by rw [debtOf, h, debtOf]

/-- What recording a debt changes: the debt itself and the largest seen. -/
theorem setDebt_cases (p g d : Nat) (s : State) :
    setDebt p g d s = (if getObj s Oid.cellarDebtPeak p < d then putObj Oid.cellarDebtPeak p d else id)
      { s with cel := { s.cel with debt := tabPut 0 (p * 8 + g) d s.cel.debt } } := by
  unfold setDebt
  dsimp only
  split
  · next h => rw [if_pos (show getObj s Oid.cellarDebtPeak p < d from h)]
  · next h => rw [if_neg (show ¬ getObj s Oid.cellarDebtPeak p < d from h)]; rfl

theorem setDebt_cel (p g d : Nat) (s : State) : (setDebt p g d s).cel = { s.cel with debt := tabPut 0 (p * 8 + g) d s.cel.debt } := by
  rw [setDebt_cases]
  split
  · rfl
  · rfl

theorem debtOf_setDebt_self (p g d : Nat) (s : State) : debtOf (setDebt p g d s) p g = d := by
  rw [debtOf, setDebt_cel]
  exact tabGet_put_self

theorem debtOf_setDebt_ne {p g q h d : Nat} {s : State} (hg : g < 8) (hh : h < 8) (hne : ¬(q = p ∧ h = g)) :
    debtOf (setDebt p g d s) q h = debtOf s q h := by
  rw [debtOf, setDebt_cel]
  exact tabGet_put_ne (by omega)

theorem setDebt_rest (p g d : Nat) (s : State) : (setDebt p g d s).mem = s.mem ∧ (setDebt p g d s).lau = s.lau := by
  rw [setDebt_cases]
  split
  · exact ⟨rfl, rfl⟩
  · exact ⟨rfl, rfl⟩

theorem debtPeak_setDebt (p g d : Nat) (s : State) :
    getObj (setDebt p g d s) Oid.cellarDebtPeak p = max (getObj s Oid.cellarDebtPeak p) d := by
  rw [setDebt_cases]
  split
  · next h => rw [getObj_putObj_self]; omega
  · next h => exact (Nat.max_eq_left (Nat.le_of_not_lt h)).symm

/-- Settles O38, by the branches of the three meanings and the laws of a debt's record. -/
theorem refreshDebt : Obligations.RefreshDebt := by
  unfold Obligations.RefreshDebt
  refine ⟨fun p g s hs hd => ⟨fun h => ?_, fun h => ?_, fun h => ?_, fun h => ?_, ?_⟩,
    fun p g s hs hd => ⟨fun h => ⟨?_, ?_⟩, fun h => ?_, fun h h4 => ?_⟩⟩
  · obtain ⟨hmem, hlau⟩ := setDebt_rest p.val g.val (debtOf s p.val g.val + 1) s
    refine ⟨setDebt p.val g.val (debtOf s p.val g.val + 1) s, ?_, debtOf_setDebt_self _ _ _ _, debtPeak_setDebt _ _ _ _, hmem, hlau⟩
    show execRefreshDue p g s = _
    simp [execRefreshDue, refreshDue, hs, hd, show ¬ debtOf s p.val g.val ≥ 4 from Nat.not_le.mpr h]
  · show execRefreshDue p g s = _
    simp [execRefreshDue, refreshDue, forceRefresh, hs, hd, h]
  · show execForcedRefresh p g s = _
    simp [execForcedRefresh, h]
  · show execForcedRefresh p g s = _
    simp [execForcedRefresh, forceRefresh, hs, hd, h]
  · show execRefreshRepayment p g s = _
    simp [execRefreshRepayment, hd]
  · show execRefreshDue p g s = _
    simp [execRefreshDue, refreshDue, hd, h]
  · show execRefreshRepayment p g s = _
    simp [execRefreshRepayment, h]
  · obtain ⟨hmem, hlau⟩ := setDebt_rest p.val g.val (debtOf s p.val g.val - 1) s
    refine ⟨setDebt p.val g.val (debtOf s p.val g.val - 1) s, ?_, debtOf_setDebt_self _ _ _ _,
      fun q h hne hlt => debtOf_setDebt_ne g.isLt hlt hne, hmem, hlau⟩
    show execRefreshRepayment p g s = _
    simp [execRefreshRepayment, hs, hd, h]
  · refine ⟨setDebt p.val g.val (debtOf s p.val g.val + 1) s, ?_, debtOf_setDebt_self _ _ _ _⟩
    show execRefreshDue p g s = _
    simp [execRefreshDue, refreshDue, hs, hd, h, h4]

end Sys2Proof.Machine
end

section
/-! SUPPORT. Placements, frames and casks (09_lauter_casks). -/

namespace Sys2Proof.Machine
open Sys2Proof

/-! ### Casks and their levels -/

theorem updateRing_lau (r : Nat) (s : State) : (updateRing r s).lau = s.lau := by
  simp only [updateRing]
  split
  · rw [fire_lau, setSticky_lau]; rfl
  · split
    · rfl
    · rfl

/-- What the levels of casks leave: the casks themselves, those released, the frames. -/
def casksOf (s : State) := (s.lau.casks, s.lau.released, s.lau.frames)

theorem updateGlobal_casks (s : State) : casksOf (updateGlobal s) = casksOf s := by
  simp only [updateGlobal, casksOf]
  split
  · rw [fire_lau, setSticky_lau]
  · split
    · rfl
    · rfl

theorem updateFlowLevel_casks (f : Nat) (s : State) : casksOf (updateFlowLevel f s) = casksOf s := by
  simp only [updateFlowLevel, casksOf]
  split
  · rw [fire_lau, setSticky_lau]; rfl
  · split
    · rfl
    · rfl

theorem updateLevels_casks (f r : Nat) (s : State) : casksOf (updateLevels f r s) = casksOf s := by
  rw [updateLevels, casksOf, updateRing_lau]
  exact (updateFlowLevel_casks f _).trans (updateGlobal_casks s)

theorem caskOf_congr {s t : State} (h : casksOf t = casksOf s) (j : Nat) : caskOf t j = caskOf s j := by
  unfold caskOf
  rw [show t.lau.casks = s.lau.casks from congrArg (fun p => p.1) h]

theorem caskOf_putCask_self (id : Nat) (c : Option Cask) (s : State) : caskOf (putCask id c s) id = c := tabGet_put_self

theorem caskOf_putCask_ne {id j : Nat} {c : Option Cask} {s : State} (h : j ≠ id) : caskOf (putCask id c s) j = caskOf s j :=
  tabGet_put_ne (Ne.symm h)

/-- A committed cask keeps its pages and takes its tag, its order and its state (R311). -/
theorem caskOf_commitCask {id : Nat} {fr : Frame} {tag : List Nat} {s : State} {c : Cask} (h : caskOf s id = some c) :
    caskOf (commitCask id fr tag s) id = some { c with state := (if s.modes.current = .burst then 4 else 3), reserved := c.pages.length, tag := tag
                                                       placed := fr.placed, committed := s.lau.commits } := by
  rw [commitCask, h]
  dsimp only
  rw [caskOf_congr (updateLevels_casks _ _ _), caskOf_putCask_self]

/-- A released cask is free; the others stay, and the levels show the release later (R312). -/
theorem releaseCask_spec {id : Nat} {s : State} {c : Cask} (h : caskOf s id = some c) :
    caskOf (releaseCask id s) id = none ∧ (∀ j, j ≠ id → caskOf (releaseCask id s) j = caskOf s j) ∧
    (releaseCask id s).lau.released = s.lau.released ++ [(id, c)] := by
  rw [releaseCask, h]
  dsimp only
  refine ⟨?_, fun j hj => ?_, ?_⟩
  · rw [caskOf, updateRing_lau]
    exact caskOf_putCask_self _ _ _
  · rw [caskOf, updateRing_lau]
    exact caskOf_putCask_ne hj
  · rw [updateRing_lau]
    rfl

theorem showReleases_released (s : State) : (showReleases s).lau.released = [] := by
  unfold showReleases
  dsimp only
  split
  · next h => exact List.isEmpty_iff.mp h
  · have hfold := foldl_still (π := casksOf) (f := fun s f => updateFlowLevel f s) (fun u f => updateFlowLevel_casks f u)
      ((s.lau.released.map (fun p => p.2.flow)).eraseDups) (updateGlobal { s with lau := { s.lau with released := [] } })
    exact congrArg (fun p => p.2.1) (hfold.trans (updateGlobal_casks _))

theorem loseCask_some {id cause : Nat} {s : State} {c : Cask} {k : FrameCfg} (h : caskOf s id = some c) (hk : c.cfg = some k) :
    loseCask id cause s = countLost c.flow k.ring c.seq id (imageBytes k) cause (releaseCask id s) := by
  rw [loseCask, h]
  dsimp only
  rw [hk]

/-! ### Frames (R290, R293, R297) -/

theorem idlest_spec (l : List Frame) : ∀ fr, idlest l = some fr → fr ∈ l ∧ ∀ o ∈ l, fr.accepted ≤ o.accepted := by
  induction l with
  | nil => exact fun fr h => absurd h (by simp [idlest])
  | cons g l ih =>
    intro fr h
    rw [idlest] at h
    split at h
    · next o ho =>
      obtain ⟨hmem, hle⟩ := ih o ho
      split at h
      · next hlt =>
        obtain rfl := Option.some.inj h
        refine ⟨List.mem_cons_of_mem _ hmem, fun x hx => ?_⟩
        rcases List.mem_cons.mp hx with rfl | hx
        · exact Nat.le_of_lt hlt
        · exact hle x hx
      · next hlt =>
        obtain rfl := Option.some.inj h
        refine ⟨List.mem_cons_self, fun x hx => ?_⟩
        rcases List.mem_cons.mp hx with rfl | hx
        · exact Nat.le_refl _
        · exact Nat.le_trans (Nat.le_of_not_lt hlt) (hle x hx)
    · next hnone =>
      obtain rfl := Option.some.inj h
      refine ⟨List.mem_cons_self, fun x hx => ?_⟩
      rcases List.mem_cons.mp hx with rfl | hx
      · exact Nat.le_refl _
      · cases l with
        | nil => exact absurd hx (by simp)
        | cons y l =>
          rw [idlest] at hnone
          split at hnone
          · split at hnone <;> exact absurd hnone (by simp)
          · exact absurd hnone (by simp)

theorem idlest_of_nonempty {l : List Frame} (h : l ≠ []) : ∃ fr, idlest l = some fr := by
  cases l with
  | nil => exact absurd rfl h
  | cons g l =>
    rw [idlest]
    split
    · split
      · exact ⟨_, rfl⟩
      · exact ⟨_, rfl⟩
    · exact ⟨_, rfl⟩

theorem closeFrame_lost {fr : Frame} {cause id : Nat} {s : State} (hid : fr.cask = some id) (h : fr.placed = 0 ∨ cause ≠ 1 ∧ fr.cfg.policy = 1) :
    closeFrame fr cause s = loseCask id 2 s := by
  rw [closeFrame, hid]
  dsimp only
  rw [if_pos (by simpa using h)]

theorem closeFrame_kept {fr : Frame} {cause id : Nat} {s : State} (hid : fr.cask = some id) (h : fr.placed ≠ 0)
    (h2 : cause = 1 ∨ fr.cfg.policy ≠ 1) : closeFrame fr cause s = setCaskState id 2 (putFrame { fr with cause := some cause } s) := by
  rw [closeFrame, hid]
  dsimp only
  rw [if_neg]
  simp only [Bool.or_eq_true, decide_eq_true_eq, Bool.and_eq_true, bne_iff_ne]
  rintro (h0 | ⟨hc, hp⟩)
  · exact h h0
  · exact h2.elim hc (fun hne => hne hp)

/-! ### Placements (R290, R330) -/

theorem firstOfPc_spec {s : State} {k i : Nat} {p : Placement} (h : firstOfPc s k = some (i, p)) : s.lau.flight[i]? = some p ∧ i ≤ k ∧
    ∀ j q, j < i → s.lau.flight[j]? = some q → memSlot q.addr ≠ memSlot p.addr := by
  unfold firstOfPc at h
  split at h
  · exact absurd h (by simp)
  · next pk hk =>
    obtain ⟨⟨p', i'⟩, hfind, heq⟩ := Option.map_eq_some_iff.mp h
    obtain ⟨rfl, rfl⟩ := Prod.mk.inj heq
    obtain ⟨hslot, n, hn, hat, hbefore⟩ := List.find?_eq_some_iff_getElem.mp hfind
    rw [List.getElem_zipIdx] at hat
    obtain ⟨hp, hi⟩ := Prod.mk.inj hat
    rw [Nat.zero_add] at hi
    subst hi
    rw [List.length_zipIdx] at hn
    have hslot' : memSlot p'.addr = memSlot pk.addr := by simpa using hslot
    have hnot : ∀ j q, j < n → s.lau.flight[j]? = some q → memSlot q.addr ≠ memSlot pk.addr := fun j q hj hq => by
      obtain ⟨hlt, hget⟩ := List.getElem?_eq_some_iff.mp hq
      have hb := hbefore j hj
      rw [List.getElem_zipIdx, hget] at hb
      simpa using hb
    refine ⟨List.getElem?_eq_some_iff.mpr ⟨hn, hp⟩, ?_, fun j q hj hq => hslot' ▸ hnot j q hj hq⟩
    refine Nat.le_of_not_lt fun hlt => ?_
    exact hnot k pk hlt hk rfl

/-- What a read of memory depends on. -/
def memoryOf (s : State) := (s.mem, s.cel.zeroSlots, s.modes.hbmEpoch)

theorem readByte_congr {s t : State} (h : memoryOf t = memoryOf s) (a : Nat) : readByte t a = readByte s a := by
  simp only [memoryOf, Prod.mk.injEq] at h
  obtain ⟨hm, hz, he⟩ := h
  simp only [readByte, memFind, unlistedByte, hm, hz, he]

theorem copyToHydro_cel (id off : Nat) (data : List Byte) (s : State) : (copyToHydro id off data s).cel = s.cel := by
  unfold copyToHydro
  dsimp only
  split
  · rfl
  · split
    · rfl
    · simp only [putHydro, putFrame]
      split
      · exact bump_cel _ _ _
      · rfl

theorem touchPage_cel (id idx : Nat) (s : State) : (touchPage id idx s).2.cel = s.cel := by
  unfold touchPage
  split
  · rfl
  · split
    · rfl
    · rfl

theorem issue_cel (id off : Nat) (data : List Byte) (s : State) : (issue id off data s).cel = s.cel := by
  have ht := touchPage_cel id (off / 65536) s
  unfold issue
  dsimp only
  generalize touchPage id (off / 65536) s = r at ht ⊢
  split
  · rfl
  · rw [copyToHydro_cel]
    split
    · exact ht
    · exact ht

theorem setBoil_cel (part mask : Nat) (on : Bool) (s : State) : (setBoil part mask on s).cel = s.cel := by
  simp only [setBoil]
  split
  · simp only [bump_cel, putObj_cel]
  · split
    · rfl
    · rfl

theorem updateBoil_cel (s : State) : (updateBoil s).cel = s.cel := by
  simp only [updateBoil]
  split
  · rw [setBoil_cel, fire_cel, setSticky_cel]
  · split
    · rw [setBoil_cel]
    · rfl

theorem issueWaiting_cel (s : State) : (issueWaiting s).cel = s.cel := by
  unfold issueWaiting
  split
  · rfl
  · split
    · rfl
    · split
      · rfl
      · rw [updateBoil_cel]
        exact issue_cel _ _ _ _

theorem updateRing_cel (r : Nat) (s : State) : (updateRing r s).cel = s.cel := by
  simp only [updateRing]
  split
  · rw [fire_cel, setSticky_cel]; rfl
  · split
    · rfl
    · rfl

theorem releaseCask_cel (id : Nat) (s : State) : (releaseCask id s).cel = s.cel := by
  unfold releaseCask
  split
  · rfl
  · exact updateRing_cel _ _

theorem lostNotice_cel (ring flow cask seq image cause : Nat) (s : State) : (lostNotice ring flow cask seq image cause s).cel = s.cel := by
  simp only [lostNotice]
  split
  · rfl
  · split
    · simp only [writeEntry, fire_cel]; rfl
    · exact bump_cel _ _ _

theorem purgeStamps_cel (f : Nat) (s : State) : (purgeStamps f s).cel = s.cel := by
  unfold purgeStamps
  split
  · rfl
  · rfl

theorem loseCask_cel (id cause : Nat) (s : State) : (loseCask id cause s).cel = s.cel := by
  unfold loseCask
  split
  · rfl
  · split
    · simp only [countLost, purgeStamps_cel, lostNotice_cel, fire_cel, bump_cel, releaseCask_cel]
    · exact releaseCask_cel _ _

theorem setCaskState_cel (id st : Nat) (s : State) : (setCaskState id st s).cel = s.cel := by
  unfold setCaskState
  split
  · rfl
  · exact updateRing_cel _ _

theorem closeFrame_cel (fr : Frame) (cause : Nat) (s : State) : (closeFrame fr cause s).cel = s.cel := by
  unfold closeFrame
  split
  · rfl
  · split
    · exact loseCask_cel _ _ _
    · exact setCaskState_cel _ _ _

theorem tryComplete_cel (f seq : Nat) (s : State) : (tryComplete f seq s).cel = s.cel := by
  unfold tryComplete
  split
  · rfl
  · split
    · rfl
    · split
      · exact closeFrame_cel _ _ _
      · rfl

theorem issueWaiting_memory (s : State) : memoryOf (issueWaiting s) = memoryOf s := by
  rw [memoryOf, issueWaiting_cel]
  exact issueWaiting_rests (P := fun m _ mem => (mem, s.cel.zeroSlots, m.hbmEpoch) = memoryOf s) (s := s) rfl

theorem tryComplete_memory (f seq : Nat) (s : State) : memoryOf (tryComplete f seq s) = memoryOf s := by
  rw [memoryOf, tryComplete_cel]
  exact tryComplete_rests (P := fun m _ mem => (mem, s.cel.zeroSlots, m.hbmEpoch) = memoryOf s) (s := s) rfl

/-- A placement performed reads back, and no other byte has changed. -/
theorem readByte_writePerformed {a : Nat} {bs : List Byte} {s : State} (h : slotDead s a = false) :
    (∀ n (hn : n < bs.length), readByte (writePerformed a bs s) (a + n) = bs[n]) ∧
    ∀ b, b < a ∨ a + bs.length ≤ b → readByte (writePerformed a bs s) b = readByte s b := by
  simp only [writePerformed, h, Bool.false_eq_true, if_false, readByte_writeMem]
  constructor
  · intro n hn
    have hin : a ≤ a + n ∧ a + n - a < bs.length := by omega
    rw [dif_pos hin]
    simp
  · intro b hb
    have hout : ¬(a ≤ b ∧ b - a < bs.length) := by omega
    rw [dif_neg hout]
    rfl

/-- The state in which the oldest placement of its PC has been performed and has left the count. -/
def performed (i : Nat) (p : Placement) (s : State) : State :=
  let u := if p.live then writePerformed p.addr p.data s else s
  { u with lau := { u.lau with flight := u.lau.flight.eraseIdx i } }

theorem execPlacementComplete_of_first {k : Fin 16384} {s : State} {i : Nat} {p : Placement} (h : firstOfPc s k.val = some (i, p)) :
    execPlacementComplete k s = match (issueWaiting (performed i p s)).lau.frames.find? (fun fr => fr.cask = some p.cask) with
      | some fr => .next (tryComplete fr.flow fr.seq (issueWaiting (performed i p s)))
      | none => .next (issueWaiting (performed i p s)) := by
  rw [execPlacementComplete, h]
  rfl

theorem execPlacementComplete_memory {k : Fin 16384} {s : State} {i : Nat} {p : Placement} (h : firstOfPc s k.val = some (i, p)) :
    ∃ t, execPlacementComplete k s = .next t ∧ memoryOf t = memoryOf (performed i p s) := by
  rw [execPlacementComplete_of_first h]
  split
  · exact ⟨_, rfl, (tryComplete_memory _ _ _).trans (issueWaiting_memory _)⟩
  · exact ⟨_, rfl, issueWaiting_memory _⟩

theorem nextRegion_none {s : State} (h : ∀ r ∈ s.lau.regions, r.2.waiting = []) : nextRegion s = none := by
  have hnil : s.lau.regions.filter (fun r => !r.2.waiting.isEmpty) = [] := by
    rw [List.filter_eq_nil_iff]
    intro r hr
    simp [h r hr]
  simp [nextRegion, hnil]

theorem issueWaiting_idle {s : State} (h : ∀ r ∈ s.lau.regions, r.2.waiting = []) : issueWaiting s = s := by
  unfold issueWaiting
  rw [nextRegion_none h]
  split
  · rfl
  · rfl

theorem writePerformed_lau (a : Nat) (bs : List Byte) (s : State) : (writePerformed a bs s).lau = s.lau := by
  unfold writePerformed
  split
  · rfl
  · rw [writeMem_lau]

theorem performed_lau (i : Nat) (p : Placement) (s : State) :
    (performed i p s).lau.regions = s.lau.regions ∧ (performed i p s).lau.frames = s.lau.frames := by
  have h : (if p.live then writePerformed p.addr p.data s else s).lau = s.lau := by
    split
    · exact writePerformed_lau _ _ _
    · rfl
  unfold performed
  dsimp only
  rw [h]
  exact ⟨rfl, rfl⟩

/-! ### Notices (R270) -/

theorem setBoil_lau (part mask : Nat) (on : Bool) (s : State) : (setBoil part mask on s).lau = s.lau := by
  simp only [setBoil]
  split
  · rw [bump_lau, putObj_lau]
  · split
    · rfl
    · rfl

theorem updateBoil_frames (s : State) : (updateBoil s).lau.frames = s.lau.frames := by
  simp only [updateBoil]
  split
  · rw [setBoil_lau, fire_lau, setSticky_lau]
  · split
    · rw [setBoil_lau]
    · rfl

theorem openFrames_dropStaged (g pkt f : Nat) (s : State) : openFrames (dropStaged g pkt s) f = openFrames s f := by
  rw [openFrames, dropStaged, updateBoil_frames]
  rfl

theorem addNotice_open {gap : Bool} {f : Nat} {s : State} {fr : Frame} (h : (openFrames s f).getLast? = some fr) :
    addNotice gap f s = putFrame (if gap then { fr with gaps := fr.gaps + 1 } else { fr with rewound := fr.rewound + 1 }) s := by
  unfold addNotice
  rw [h]

/-- Settles O37: the placement by what a read of memory depends on, frames and casks by the branches of their meanings. -/
theorem framesAndCasks : Obligations.FramesAndCasks := by
  unfold Obligations.FramesAndCasks
  refine ⟨⟨fun k s i p _ hp hlive hdead => ?_, fun k s i p hp hwait hcask => ?_, fun s k i p => firstOfPc_spec, fun f s fr h => ?_,
    fun l fr => idlest_spec l fr, fun l => idlest_of_nonempty, fun f s fr rest hopen hend hplaced hres => ?_, fun fr cause s id => closeFrame_lost,
    fun fr cause s id => closeFrame_kept, fun f s fr id pre post hframes hpre hflow hcause hid hh hbusy => ?_,
    fun id fr tag s c h => ⟨_, caskOf_commitCask h, rfl⟩, fun s n t f fr hn hf hlast => ?_,
    fun f block id s fr j hfr hres hid h1 h2 htr hle => ?_⟩,
    fun id cause s c k hc hst hrep hk => ?_, fun id cause s c hc hst hrep => ?_, fun id s c hc => ?_, fun id cause s c hc hst => ?_⟩
  · obtain ⟨t, ht, hmem⟩ := execPlacementComplete_memory hp
    obtain ⟨hin, hout⟩ := readByte_writePerformed (bs := p.data) hdead
    have hperf : ∀ a, readByte t a = readByte (writePerformed p.addr p.data s) a := fun a => by
      rw [readByte_congr hmem, performed, hlive]
      rfl
    exact ⟨t, ht, fun n hn => (hperf _).trans (hin n hn), fun a ha => (hperf a).trans (hout a ha)⟩
  · show execPlacementComplete k s = .next (performed i p s)
    obtain ⟨hreg, hfr⟩ := performed_lau i p s
    rw [execPlacementComplete_of_first hp, issueWaiting_idle (by rw [hreg]; exact hwait), hfr,
      List.find?_eq_none.mpr (fun fr hfr => by simpa using hcask fr hfr)]
  · show execFrameIdleTimeout f s = _
    rw [execFrameIdleTimeout, h]
  · show execStraggleTimeout f s = _
    simp [execStraggleTimeout, hopen, hend, hplaced, hres]
  · show execFrameCommit f s = _
    rw [execFrameCommit, hframes, List.findSome?_append, List.findSome?_eq_none_iff.mpr ?skip, Option.none_or, List.findSome?_cons, hid]
    case skip =>
      intro g hg
      rcases hpre g hg with hne | hnone
      · cases g.cask <;> simp [hne]
      · cases g.cask <;> simp [hnone]
    cases hhy : fr.hydro with
    | none => simp only [hflow, hcause, hbusy, decide_true, Bool.and_self, Bool.not_false, if_true]
    | some h => simp only [hflow, hcause, hh h hhy, hbusy, decide_true, Bool.and_self, Bool.not_false, if_true]
  · show execRewindNotice s = _
    rw [execRewindNotice, hn]
    dsimp only
    rw [hf]
    dsimp only
    rw [addNotice_open (by rw [openFrames_dropStaged]; exact hlast)]
  · intro key asked hmax hagain
    show execResendRequest f block id s = _
    have hdelay : (asked.1 = 0 || resendDelayed s fr asked.2) = true := by simpa [resendDelayed] using hagain
    rw [execResendRequest, hfr]
    dsimp only
    rw [if_pos]
    simp only [hres, hid, h1, h2, htr, hle, not_false_eq_true, decide_true, Bool.and_self, Bool.true_or, Bool.and_true, Bool.true_and,
      Bool.and_eq_true, decide_eq_true_eq]
    exact ⟨hdelay, hmax⟩
  · show execCaskRelease id cause s = _
    rw [execCaskRelease, hc]
    simp only [hst, hrep, if_false, Bool.false_eq_true, loseCask_some hc hk]
    rfl
  · show execCaskRelease id cause s = _
    rw [execCaskRelease, hc]
    simp only [hst, hrep, if_false, if_true]
  · obtain ⟨hfree, hother, hrel⟩ := releaseCask_spec hc
    exact ⟨hfree, hother, hrel, showReleases_released _⟩
  · show execCaskRelease id cause s = _
    rw [execCaskRelease, hc]
    simp only [hst, if_true]

end Sys2Proof.Machine
end

section
/-! SUPPORT. The end of a cellar test in which a PC has been retired (R346). -/

namespace Sys2Proof.Machine
open Sys2Proof

/-- A cellar test over PC 20, which has been retired since the test started. -/
def testOfRetired : State :=
  putObj Oid.cellarPcState 20 5 (putObj Oid.cellarTestState 0 1 { State.reset with cel := { State.reset.cel with testing := [20] } })

/-- The end of the test leaves PC 20 retired; its partition is not the spares'. -/
theorem endTest_testOfRetired :
    getObj testOfRetired Oid.cellarTestState = 1 ∧ 20 ∈ testOfRetired.cel.testing ∧ getObj testOfRetired Oid.cellarPcPartition 20 ≠ 3 ∧
    getObj (endTest [] testOfRetired) Oid.cellarPcState 20 = 5 := by decide +kernel

/-- Refutes O40: a PC under test that is retired before the test ends stays retired (state 5), where the statement has every tested PC end in state 2 or 6 (`testOfRetired`). -/
theorem not_repairsAndSpares : ¬ Obligations.RepairsAndSpares := by
  intro h
  obtain ⟨-, -, -, -, -, htest, -⟩ := h
  obtain ⟨hrun, hmem, hpart, hstays⟩ := endTest_testOfRetired
  obtain ⟨t, ht, -, -, -, -, hstate⟩ := htest [] testOfRetired hrun
  have hexec : exec (.cellarTestDone []) testOfRetired = .next (endTest [] testOfRetired) := by
    show execCellarTestDone [] testOfRetired = _
    rw [execCellarTestDone, if_pos hrun]
    rfl
  obtain rfl := Host.Outcome.next.inj (hexec.symm.trans ht)
  have h20 := hstate 20 hmem (by decide)
  rw [hstays, if_neg hpart] at h20
  exact absurd h20 (by decide)

end Sys2Proof.Machine
end

section
/-! SUPPORT. Rings and queues, a ring's fault, exception entries (11_racking). -/

namespace Sys2Proof.Machine
open Sys2Proof

/-! ### Deliveries and the fault of a ring under the operations on casks -/

/-- The deliveries in progress, and the fault shown for ring r. -/
def stopView (r : Nat) (s : State) : List Delivery × Nat := (s.rk.deliveries, ringFaultOf s r)

theorem stopView_eq {r : Nat} {s t : State} (hd : t.rk.deliveries = s.rk.deliveries)
    (hf : getObj t Oid.rackingRingFault r = getObj s Oid.rackingRingFault r) : stopView r t = stopView r s := Prod.ext hd hf

theorem putObj_stopView {id idx v r : Nat} {s : State} (h : id ≠ Oid.rackingRingFault) : stopView r (putObj id idx v s) = stopView r s :=
  stopView_eq rfl (getObj_putObj_ne h)

theorem bump_stopView {id idx r : Nat} {s : State} (h : id ≠ Oid.rackingRingFault) : stopView r (bump id idx s) = stopView r s := putObj_stopView h

theorem setSticky_stopView {id idx m r : Nat} {s : State} (h : id ≠ Oid.rackingRingFault) : stopView r (setSticky id idx m s) = stopView r s :=
  putObj_stopView h

theorem fire_stopView (src r : Nat) (s : State) : stopView r (fire src s) = stopView r s :=
  stopView_eq (by rw [fire_rk]) (getObj_fire (by decide) (by decide))

theorem updateRing_stopView (q r : Nat) (s : State) : stopView r (updateRing q s) = stopView r s := by
  simp only [updateRing]
  split
  · exact (fire_stopView _ _ _).trans ((setSticky_stopView (by decide)).trans rfl)
  · split
    · rfl
    · rfl

theorem releaseCask_stopView (id r : Nat) (s : State) : stopView r (releaseCask id s) = stopView r s := by
  unfold releaseCask
  split
  · rfl
  · exact (updateRing_stopView _ _ _).trans rfl

theorem setCaskState_stopView (id st r : Nat) (s : State) : stopView r (setCaskState id st s) = stopView r s := by
  unfold setCaskState
  split
  · rfl
  · exact (updateRing_stopView _ _ _).trans rfl

theorem writeEntry_stopView (c r : Nat) (e : Entry) (s : State) : stopView r (writeEntry c e s) = stopView r s := by
  simp only [writeEntry]
  exact (fire_stopView _ _ _).trans rfl

theorem lostNotice_stopView (ring flow cask seq image cause r : Nat) (s : State) :
    stopView r (lostNotice ring flow cask seq image cause s) = stopView r s := by
  simp only [lostNotice]
  split
  · rfl
  · split
    · exact writeEntry_stopView _ _ _ _
    · exact bump_stopView (by decide)

theorem purgeStamps_stopView (f r : Nat) (s : State) : stopView r (purgeStamps f s) = stopView r s := by
  unfold purgeStamps
  split
  · rfl
  · exact (putObj_stopView (by decide)).trans rfl

theorem countLost_stopView (f ring seq cask image cause r : Nat) (s : State) :
    stopView r (countLost f ring seq cask image cause s) = stopView r s := by
  unfold countLost
  exact (purgeStamps_stopView _ _ _).trans ((lostNotice_stopView _ _ _ _ _ _ _ _).trans ((fire_stopView _ _ _).trans
    ((bump_stopView (by decide)).trans (bump_stopView (by decide)))))

theorem loseCask_stopView (id cause r : Nat) (s : State) : stopView r (loseCask id cause s) = stopView r s := by
  unfold loseCask
  split
  · rfl
  · split
    · exact (countLost_stopView _ _ _ _ _ _ _ _).trans (releaseCask_stopView _ _ _)
    · exact releaseCask_stopView _ _ _

/-- Whether two entries of the list of deliveries are of one delivery. -/
def sameDelivery (d e : Delivery) : Bool := e.ring = d.ring && e.count = d.count

/-- Stopping deliveries takes away those named and keeps the others, and shows no fault. -/
theorem foldl_stop_view {f : State → Delivery → State} {r : Nat}
    (hf : ∀ s d, stopView r (f s d) = (s.rk.deliveries.filter (fun e => !sameDelivery d e), ringFaultOf s r)) (l : List Delivery) : ∀ s : State,
    stopView r (l.foldl f s) = (s.rk.deliveries.filter (fun e => l.all (fun d => !sameDelivery d e)), ringFaultOf s r) := by
  induction l with
  | nil => exact fun s => congrArg (fun l => (l, ringFaultOf s r)) (List.filter_eq_self.mpr fun _ _ => rfl).symm
  | cons d l ih =>
    intro s
    obtain ⟨hd, hr⟩ := Prod.mk.inj (hf s d)
    rw [List.foldl_cons, ih, hd, hr, List.filter_filter]
    simp only [List.all_cons, Bool.and_comm]

theorem stopDeliveries_view (code r : Nat) (p : Delivery → Bool) (s : State) : stopView r (stopDeliveries code p s) =
    (s.rk.deliveries.filter (fun e => (s.rk.deliveries.filter p).all (fun d => !sameDelivery d e)), ringFaultOf s r) := by
  unfold stopDeliveries
  refine foldl_stop_view (fun u d => ?_) _ s
  dsimp only
  split
  · split
    · exact (loseCask_stopView _ _ _ _).trans rfl
    · exact (setCaskState_stopView _ _ _ _).trans rfl
  · rfl

/-! ### Faults of a ring (R366) -/

theorem getObj_addLog {id idx res cause cls action n : Nat} {s : State} (h1 : Oid.faultsLogTotal ≠ id) (h2 : Oid.faultsAlertStatus ≠ id)
    (h3 : Oid.eventsSrcCount ≠ id) (h4 : Oid.eventsVecSent ≠ id) : getObj (addLog res cause cls action n s) id idx = getObj s id idx := by
  unfold addLog
  extract_lets u e l flt v
  have hu : getObj u id idx = getObj s id idx := getObj_bump_ne h1
  clear_value u flt
  have hv : getObj v id idx = getObj u id idx := rfl
  clear_value v
  rw [getObj_fire h3 h4, getObj_setSticky_ne h2, hv, hu]

theorem addLog_stopView (res cause cls action n r : Nat) (s : State) : stopView r (addLog res cause cls action n s) = stopView r s :=
  stopView_eq (by rw [addLog_rk]) (getObj_addLog (by decide) (by decide) (by decide) (by decide))

/-- The notice of a fault, before the fault is logged. -/
def faultNoticed (r code : Nat) (s : State) : State :=
  let s := putObj Oid.rackingRingFault r code s
  let c := (ringOf s r).cfg.cq
  let q := cqOf s c
  if q.enabled && !q.faulted && decide (0 < cqFree q) && hostWritable s && !s.rk.stopped then
    let e := faultEntry r code s
    writeEntry c e.1 e.2
  else s

theorem ringFault_first {r code : Nat} {p : Delivery → Bool} {s : State} (h : ringFaultOf s r = 0) :
    ringFault r code p s = logUntracked (resRing r) code 0 (setSticky Oid.rackingStatus 0 0x40
      (faultNoticed r code (stopDeliveries code (fun d => d.ring = r && p d) s))) := by
  have hkept : ringFaultOf (stopDeliveries code (fun d => d.ring = r && p d) s) r = 0 :=
    (congrArg Prod.snd (stopDeliveries_view code r (fun d => d.ring = r && p d) s)).trans h
  unfold ringFault
  dsimp only
  rw [if_neg (by rw [hkept]; decide)]
  rfl

theorem faultNoticed_view (r code : Nat) (s : State) : stopView r (faultNoticed r code s) = (s.rk.deliveries, code) := by
  have hput : stopView r (putObj Oid.rackingRingFault r code s) = (s.rk.deliveries, code) := Prod.ext rfl (getObj_putObj_self _ _ _ _)
  simp only [faultNoticed]
  split
  · exact (writeEntry_stopView _ _ _ _).trans hput
  · exact hput

theorem ringFault_view {r code : Nat} {p : Delivery → Bool} {s : State} (h : ringFaultOf s r = 0) :
    ringFaultOf (ringFault r code p s) r = code ∧ getObj (ringFault r code p s) Oid.rackingStatus &&& 0x40 = 0x40 ∧
    (ringFault r code p s).rk.deliveries =
      s.rk.deliveries.filter (fun e => (s.rk.deliveries.filter (fun d => d.ring = r && p d)).all (fun d => !sameDelivery d e)) := by
  have hstop := stopDeliveries_view code r (fun d => d.ring = r && p d) s
  rw [ringFault_first h]
  generalize stopDeliveries code (fun d => d.ring = r && p d) s = u at hstop ⊢
  have hview : stopView r (logUntracked (resRing r) code 0 (setSticky Oid.rackingStatus 0 0x40 (faultNoticed r code u))) = (u.rk.deliveries, code) :=
    (addLog_stopView _ _ _ _ _ _ _).trans ((setSticky_stopView (by decide)).trans (faultNoticed_view r code u))
  obtain ⟨hd, hf⟩ := Prod.mk.inj hview
  refine ⟨hf, ?_, hd.trans (congrArg Prod.fst hstop)⟩
  rw [logUntracked, getObj_addLog (by decide) (by decide) (by decide) (by decide), getObj_setSticky_self]
  exact Nat.eq_of_testBit_eq fun i => by simp only [Nat.testBit_and, Nat.testBit_or]; cases Nat.testBit 64 i <;> simp

theorem mem_stopped_iff {l : List Delivery} {p : Delivery → Bool} {d : Delivery} :
    d ∈ l.filter (fun e => (l.filter p).all (fun x => !sameDelivery x e)) ↔ d ∈ l ∧ ∀ x ∈ l, p x = true → ¬(d.ring = x.ring ∧ d.count = x.count) := by
  simp only [List.mem_filter, List.all_eq_true, sameDelivery, Bool.not_eq_true', Bool.and_eq_false_iff, decide_eq_false_iff_not, and_imp,
    Decidable.not_and_iff_or_not]

/-- What RING_FAULT stops, by its code (entry 150). -/
theorem mem_ringFault_iff {r : Nat} {q : Delivery → Bool} {s : State} {d : Delivery} (h : ringFaultOf s r = 0) (code : Nat) :
    d ∈ (ringFault r code q s).rk.deliveries ↔
      d ∈ s.rk.deliveries ∧ ∀ x ∈ s.rk.deliveries, x.ring = r → q x = true → ¬(d.ring = x.ring ∧ d.count = x.count) := by
  obtain ⟨-, -, hd⟩ := ringFault_view (code := code) (p := q) h
  rw [hd, mem_stopped_iff]
  simp only [Bool.and_eq_true, decide_eq_true_eq, and_imp]

theorem faultStops_other {s : State} {r code : Nat} {d : Delivery} (h5 : code ≠ 5) (h6 : code ≠ 6) : faultStops s r code d =
    decide (((s.rk.deliveries.find? (fun e => e.ring = r)).map (fun e => e.count)) = some d.count) := by
  unfold faultStops
  split
  · exact absurd rfl h5
  · exact absurd rfl h6
  · rfl

/-! ### Exception entries (R379, R380) -/

theorem translate_link {ring dir v h : Nat} {big : Bool} {s u : State} (ht : translate ring dir big v s = (some h, u)) : u.link = s.link := by
  unfold translate at ht
  dsimp only at ht
  split at ht
  · obtain ⟨-, rfl⟩ := Prod.mk.inj ht
    rfl
  · exact absurd (congrArg Prod.fst ht) (by simp)

theorem translateAll_link {ring dir : Nat} {big : Bool} (l : List (Nat × List Byte)) : ∀ {s u : State} {h : List (Nat × List Byte)},
    translateAll ring dir big l s = (some h, u) → u.link = s.link := by
  induction l with
  | nil => intro s u h ht; exact (congrArg (fun p : _ × State => p.2.link) ht).symm
  | cons p l ih =>
    intro s u h ht
    rw [translateAll] at ht
    split at ht
    · exact absurd (congrArg Prod.fst ht) (by simp)
    · next a v hv =>
      split at ht
      · exact absurd (congrArg Prod.fst ht) (by simp)
      · next b w hw =>
        obtain ⟨-, rfl⟩ := Prod.mk.inj ht
        exact (ih hw).trans (translate_link hv)

theorem hostWrites_link (l : List (Nat × List Byte)) : ∀ s : State, (hostWrites l s).link = s.link := by
  induction l with
  | nil => exact fun _ => rfl
  | cons p l ih => exact fun s => (ih _).trans rfl

/-- An entry all of whose pages are translated is written, word 0 last. -/
theorem writeException_strict {f : ExcFrame} {s u : State} {h : List (Nat × List Byte)} (hrel : s.link.relaxed = false)
    (ht : translateAll 1024 s.rk.exc.dir s.rk.exc.bigPage (splitPages (pageBytes s.rk.exc.bigPage)
      ((wordBytes (excHeader s.rk.exc f) ++ f.data.take (s.rk.exc.entryBytes - 64)).length + 1) (excBase s.rk.exc + 4)
      (wordBytes (excHeader s.rk.exc f) ++ f.data.take (s.rk.exc.entryBytes - 64))) s = (some h, u)) :
    writeException f s = postException f (hostWrites h u) := by
  have hlink : (hostWrites h u).link.relaxed = false := by rw [hostWrites_link, translateAll_link _ ht, hrel]
  unfold writeException
  dsimp only
  rw [ht]
  dsimp only
  rw [if_neg (by rw [hlink]; decide)]

/-! ### A count written through BAR0 (R502) -/

theorem bar0Write_writable {f : State → State} {s : State} (h : bar0Writable s = true) : bar0Write f s = f (barAccess s) := by
  have hs : bar0Served s = true := by
    rw [bar0Writable, Bool.and_eq_true] at h
    exact h.1
  simp [bar0Write, hs, h]

theorem bar0Write_refused {f : State → State} {s : State} (h : bar0Served s = false) : bar0Write f s = barRefused false s := by
  simp [bar0Write, h]

theorem bar0Write_halted {f : State → State} {s : State} (h : bar0Served s = true) (hh : s.modes.current = .halt) :
    bar0Write f s = barAccess s := by
  simp [bar0Write, bar0Writable, h, hh]

/-- Settles O41: the counts by the branches of their rows, a fault by what it stops, the entries by their translations. -/
theorem ringsQueuesAndExceptions : Obligations.RingsQueuesAndExceptions := by
  unfold Obligations.RingsQueuesAndExceptions
  refine ⟨⟨fun r v s hw hen => ⟨fun hle => ?_, fun hlt => ?_⟩, fun r v s hw hen => ?_, fun r c v s hs => ⟨?_, ?_, ?_⟩, fun r c v s hs hhalt => ⟨?_, ?_, ?_⟩,
    fun c v s hw hen => ⟨fun hle => ?_, fun hlt => ?_⟩, fun c v s hw hen => ?_, fun v s hw hen hle => ?_, fun r code s hen h0 hc => ?_,
    fun r code s h0 => ?_⟩, fun s f l hl hfull => ?_, fun s f l h u hl hen hflt hroom hhost hstop hwr hrel => ?_, fun f s h u ht => ?_⟩
  · show Host.Outcome.next (bar0Write (postRing r.val (v.toNat % countMod)) s) = _
    rw [bar0Write_writable hw, postRing, show ringOf (barAccess s) r.val = ringOf s r.val from rfl]
    simp only [hen, Bool.not_true, Bool.false_eq_true, if_false]
    rw [if_neg (Nat.not_lt.mpr hle)]
  · show Host.Outcome.next (bar0Write (postRing r.val (v.toNat % countMod)) s) = _
    rw [bar0Write_writable hw, postRing, show ringOf (barAccess s) r.val = ringOf s r.val from rfl]
    simp only [hen, Bool.not_true, Bool.false_eq_true, if_false]
    rw [if_pos hlt]
  · show Host.Outcome.next (bar0Write (postRing r.val (v.toNat % countMod)) s) = _
    rw [bar0Write_writable hw, postRing, show ringOf (barAccess s) r.val = ringOf s r.val from rfl]
    simp only [hen, Bool.not_false, if_true]
  · exact congrArg _ (bar0Write_refused hs)
  · exact congrArg _ (bar0Write_refused hs)
  · exact congrArg _ (bar0Write_refused hs)
  · exact congrArg _ (bar0Write_halted hs hhalt)
  · exact congrArg _ (bar0Write_halted hs hhalt)
  · exact congrArg _ (bar0Write_halted hs hhalt)
  · show Host.Outcome.next (bar0Write (consumeCq c.val (v.toNat % countMod)) s) = _
    rw [bar0Write_writable hw, consumeCq, show cqOf (barAccess s) c.val = cqOf s c.val from rfl]
    simp only [hen, Bool.not_true, Bool.false_eq_true, if_false]
    rw [if_neg (Nat.not_lt.mpr hle)]
  · show Host.Outcome.next (bar0Write (consumeCq c.val (v.toNat % countMod)) s) = _
    rw [bar0Write_writable hw, consumeCq, show cqOf (barAccess s) c.val = cqOf s c.val from rfl]
    simp only [hen, Bool.not_true, Bool.false_eq_true, if_false]
    rw [if_pos hlt]
  · show Host.Outcome.next (bar0Write (consumeCq c.val (v.toNat % countMod)) s) = _
    rw [bar0Write_writable hw, consumeCq, show cqOf (barAccess s) c.val = cqOf s c.val from rfl]
    simp only [hen, Bool.not_false, if_true]
  · show Host.Outcome.next (bar0Write (consumeExc (v.toNat % countMod)) s) = _
    rw [bar0Write_writable hw, consumeExc, show (barAccess s).rk = s.rk from rfl]
    dsimp only
    rw [if_pos (by rw [hen, Bool.true_and]; exact decide_eq_true hle)]
  · obtain ⟨hcode, hbit, -⟩ := ringFault_view (code := code.val) (p := faultStops s r.val code.val) h0
    refine ⟨ringFault r.val code.val (faultStops s r.val code.val) s, ?_, hcode, hbit, fun h6 d hd hr => ?_, fun h5 => ?_,
      fun h5 h6 a l ha d hr => ?_, fun d hd hr => ?_⟩
    · show execRingFault r code s = _
      simp [execRingFault, hen, h0, hc]
    · obtain ⟨hmem, hnot⟩ := (mem_ringFault_iff h0 code.val).mp hd
      exact hnot d hmem hr (by rw [h6]; rfl) ⟨rfl, rfl⟩
    · obtain ⟨-, -, hdel⟩ := ringFault_view (code := code.val) (p := faultStops s r.val code.val) h0
      rw [hdel, h5]
      simp [faultStops]
    · have hfirst : s.rk.deliveries.find? (fun e => e.ring = r.val) = some a := by rw [← List.head?_filter, ha, List.head?_cons]
      have hring : a.ring = r.val := by simpa using List.find?_some hfirst
      rw [mem_ringFault_iff h0]
      simp only [faultStops_other h5 h6, hfirst, Option.map_some, Option.some.injEq, decide_eq_true_eq]
      refine and_congr_right fun _ => ⟨fun hnot he => hnot a (List.mem_of_find?_eq_some hfirst) hring rfl ⟨hr.trans hring.symm, he⟩,
        fun hne x _ _ hx he => hne (he.2.trans hx.symm)⟩
    · exact (mem_ringFault_iff h0 code.val).mpr ⟨hd, fun x _ hx _ he => hr (he.1.trans hx)⟩
  · show execRingFault r code s = _
    simp [execRingFault, h0]
  · show execExceptionEntry s = _
    rw [execExceptionEntry, hl]
    dsimp only
    rw [if_pos (by simpa [or_assoc] using hfull), dropException, hl]
    rfl
  · intro e body htr
    show execExceptionEntry s = _
    rw [execExceptionEntry, hl]
    dsimp only
    rw [if_neg (by simpa [hen, hflt] using hroom), if_neg (by simp [hhost, hstop, hwr]), writeException_strict hrel htr]
  · rw [postException, ht]

end Sys2Proof.Machine
end

section
/-! SUPPORT. Deliveries: the ring in turn, start, tag, entry and release (R353, R359 to R365). -/

namespace Sys2Proof.Machine
open Sys2Proof

/-! ### What has been sent stays sent -/

theorem sent_emit {m e : Emission} {s : State} (h : m ∈ s.out) : m ∈ (emit e s).out := List.mem_append_left _ h

theorem sent_assertWake {m : Emission} {s : State} (h : m ∈ s.out) : m ∈ (assertWake s).out := by
  unfold assertWake
  split
  · exact sent_emit h
  · exact h

theorem sent_updateIntx {m : Emission} {s : State} (h : m ∈ s.out) : m ∈ (updateIntx s).out := by
  unfold updateIntx
  split
  · exact h
  · exact sent_assertWake (sent_emit h)

theorem sent_sendVector {m : Emission} {v : Nat} {s : State} (h : m ∈ s.out) : m ∈ (sendVector v s).out := by
  unfold sendVector
  dsimp only
  split
  · exact sent_assertWake h
  · exact h
  · split
    · exact h
    · rw [bump_out]; exact sent_emit h
  · split
    · exact h
    · rw [bump_out]; exact sent_emit h

theorem sent_countVector {m : Emission} {v : Nat} {s : State} (h : m ∈ s.out) : m ∈ (countVector v s).out := by
  unfold countVector
  dsimp only
  split
  · exact sent_sendVector h
  · exact h

theorem sent_fireAt {m : Emission} {src ts due : Nat} {late : Bool} {s : State} (h : m ∈ s.out) : m ∈ (fireAt src ts due late s).out := by
  unfold fireAt
  extract_lets u fab w v x y c
  have hw : m ∈ w.out := h
  have hx : m ∈ x.out := by
    show m ∈ (if v = 0xFFFF then w else countVector v w).out
    split
    · exact hw
    · exact sent_countVector hw
  split
  · exact sent_updateIntx hx
  · exact sent_updateIntx hx

theorem sent_fire {m : Emission} {src : Nat} {s : State} (h : m ∈ s.out) : m ∈ (fire src s).out := by
  unfold fire
  dsimp only
  split
  · exact h
  · exact sent_fireAt h

theorem sent_updateRing {m : Emission} {r : Nat} {s : State} (h : m ∈ s.out) : m ∈ (updateRing r s).out := by
  unfold updateRing
  dsimp only
  split
  · exact sent_fire (by rw [setSticky_out]; exact h)
  · split
    · exact h
    · exact h

theorem sent_releaseCask {m : Emission} {id : Nat} {s : State} (h : m ∈ s.out) : m ∈ (releaseCask id s).out := by
  unfold releaseCask
  split
  · exact h
  · exact sent_updateRing h

/-! ### The ring in turn (R353) -/

theorem fewest_mem {s : State} (l : List Nat) : ∀ {r k : Nat}, fewest s l = some (r, k) → r ∈ l := by
  induction l with
  | nil => exact fun h => absurd h (by simp [fewest])
  | cons q l ih =>
    intro r k h
    rw [fewest] at h
    split at h
    · obtain ⟨rfl, -⟩ := Prod.mk.inj (Option.some.inj h)
      exact List.mem_cons_self
    · next p n hp =>
      split at h
      · obtain ⟨rfl, -⟩ := Prod.mk.inj (Option.some.inj h)
        exact List.mem_cons_self
      · obtain ⟨rfl, -⟩ := Prod.mk.inj (Option.some.inj h)
        exact List.mem_cons_of_mem _ (ih hp)

theorem nextRing_eligible {s u : State} {r : Nat} (h : nextRing s = some (r, u)) : ringEligible s r = true := by
  unfold nextRing at h
  dsimp only at h
  split at h
  · next ht =>
    obtain ⟨rfl, -⟩ := Prod.mk.inj (Option.some.inj h)
    have hmem := of_decide_eq_true (Bool.and_eq_true _ _ ▸ ht).1
    exact (List.mem_filter.mp hmem).2
  · split at h
    · exact absurd h (by simp)
    · next q k hq =>
      obtain ⟨rfl, -⟩ := Prod.mk.inj (Option.some.inj h)
      rcases List.mem_append.mp (fewest_mem _ hq) with hmem | hmem
      · exact (List.mem_filter.mp (List.mem_filter.mp hmem).1).2
      · exact (List.mem_filter.mp (List.mem_filter.mp hmem).1).2

/-! ### A delivery starts (R353, R359) -/

theorem ringOf_putRing_self (r : Nat) (x : RingX) (s : State) : ringOf (putRing r x s) r = x := tabGet_put_self

theorem ringOf_putRing_ne {r q : Nat} {x : RingX} {s : State} (h : r ≠ q) : ringOf (putRing q x s) r = ringOf s r := tabGet_put_ne (Ne.symm h)

theorem ringOf_congr {s t : State} (h : t.rk = s.rk) (r : Nat) : ringOf t r = ringOf s r := by rw [ringOf, h, ringOf]

/-- The levels of a ring leave the deliveries and the slots assigned. -/
theorem updateRing_assigned (q r : Nat) (s : State) : (updateRing q s).rk.deliveries = s.rk.deliveries ∧
    (ringOf (updateRing q s) r).assigned = (ringOf s r).assigned := by
  have hput : ∀ b, (ringOf (putRing q { ringOf s q with above := b } s) r).assigned = (ringOf s r).assigned := fun b => by
    by_cases h : r = q
    · subst h
      rw [ringOf_putRing_self]
    · rw [ringOf_putRing_ne h]
  unfold updateRing
  dsimp only
  split
  · have hrk : ∀ t : State, (fire 0x17A (setSticky Oid.rackingStatus 0 1 t)).rk = t.rk := fun t => by rw [fire_rk, setSticky_rk]
    rw [ringOf_congr (hrk _), hrk]
    exact ⟨rfl, hput true⟩
  · split
    · exact ⟨rfl, hput false⟩
    · exact ⟨rfl, rfl⟩

theorem setCaskState_some {id st : Nat} {s : State} {c : Cask} (h : caskOf s id = some c) : caskOf (setCaskState id st s) id = some { c with state := st } ∧
    (setCaskState id st s).rk.deliveries = s.rk.deliveries ∧ ∀ r, (ringOf (setCaskState id st s) r).assigned = (ringOf s r).assigned := by
  rw [setCaskState, h]
  dsimp only
  refine ⟨?_, (updateRing_assigned _ 0 _).1, fun r => (updateRing_assigned _ r _).2⟩
  rw [caskOf, updateRing_lau]
  exact caskOf_putCask_self _ _ _

/-- The state in which the head of ring r is being delivered. -/
def started (r id : Nat) (s : State) : State :=
  let x := ringOf s r
  let s := putRing r { x with assigned := (x.assigned + 1) % countMod, stalled := false } s
  let q := cqOf s x.cfg.cq
  setCaskState id 5 (putCq x.cfg.cq { q with reserved := q.reserved + 1 } s)

theorem startDelivery_fits {r id : Nat} {s : State} {c : Cask} {k : FrameCfg} (hh : ringHead s r = some (id, c)) (hk : c.cfg = some k)
    (hfit : slotNeed k ≤ (ringOf s r).cfg.slotBytes) : startDelivery r s = { started r id s with
      rk := { (started r id s).rk with deliveries := (started r id s).rk.deliveries ++ [{ ring := r, count := (ringOf s r).assigned, cask := id }] } } := by
  rw [startDelivery, hh]
  dsimp only
  rw [hk]
  dsimp only
  rw [if_neg (Nat.not_lt.mpr hfit)]
  rfl

theorem started_spec {r id : Nat} {s : State} {c : Cask} (h : caskOf s id = some c) : caskOf (started r id s) id = some { c with state := 5 } ∧
    (started r id s).rk.deliveries = s.rk.deliveries ∧ (ringOf (started r id s) r).assigned = ((ringOf s r).assigned + 1) % 2 ^ 31 := by
  unfold started
  dsimp only
  generalize hx : ({ ringOf s r with assigned := ((ringOf s r).assigned + 1) % countMod, stalled := false } : RingX) = x
  generalize ({ cqOf (putRing r x s) (ringOf s r).cfg.cq with reserved := (cqOf (putRing r x s) (ringOf s r).cfg.cq).reserved + 1 } : CqX) = q
  obtain ⟨hcask, hdel, hass⟩ := setCaskState_some (st := 5) (s := putCq (ringOf s r).cfg.cq q (putRing r x s)) (id := id) (c := c) h
  refine ⟨hcask, hdel, (hass r).trans ?_⟩
  show (ringOf (putRing r x s) r).assigned = _
  rw [ringOf_putRing_self, ← hx]

/-! ### Its tag and its entry (R360, R363 to R365) -/

theorem carryDelivery_tag {s u : State} {d : Delivery} {c : Cask} {cfg : FrameCfg} {h : Nat} (hc : caskOf s d.cask = some c) (hcfg : c.cfg = some cfg)
    (hp : d.payload.isSome = true) (hdone : (deliveryPieces (ringOf s d.ring) d).length ≤ d.pieces) (hrel : s.link.relaxed = false)
    (ht : translate d.ring (ringOf s d.ring).cfg.dir (ringOf s d.ring).cfg.bigPage
      (d.count % (ringOf s d.ring).cfg.slots * (ringOf s d.ring).cfg.slotBytes) s = (some h, u)) :
    let tag := finalTag c.tag d.raw d.poisoned (!(ringOf s d.ring).cfg.inOrder && earlierPending u d) (d.payload.getD []).length (d.count % (ringOf s d.ring).cfg.slots)
    carryDelivery d s = putDelivery { d with tag := tag, written := true, visible := true } (hostWrite h (wordBytes tag) u) := by
  have hnone : d.payload.isNone = false := by cases hd : d.payload with
    | none => rw [hd] at hp; exact absurd hp (by decide)
    | some _ => rfl
  have hu : u.link.relaxed = false := by rw [translate_link ht, hrel]
  intro tag
  rw [carryDelivery, hc]
  dsimp only
  rw [hcfg]
  dsimp only
  rw [hnone]
  simp only [Bool.false_eq_true, if_false, List.drop_eq_nil_of_le hdone, writePieces, if_true]
  rw [writeTag, ht]
  dsimp only
  refine (if_neg (show ¬ u.link.relaxed = true by rw [hu]; decide)).trans ?_
  rw [show (hostWrite h _ u).link.relaxed = false from hu]
  rfl

/-- The entry that a completed delivery writes. -/
def entryOfDelivery (d : Delivery) (c : Cask) (s : State) : Entry :=
  { type := 1, flow := c.flow, cask := d.cask, flags := d.tag.getD 0 0 % 65536, ring := d.ring, slot := d.count % (ringOf s d.ring).cfg.slots
    seq := c.seq, bytes := d.tag.getD 11 0, records := d.records.length
    image := (match c.cfg with | some k => imageBytes k | none => 0), status := 0 }

theorem ringDrained_rest (r : Nat) (s : State) : (ringDrained r s).lau = s.lau ∧ (ringDrained r s).rk.deliveries = s.rk.deliveries ∧
    (ringDrained r s).out = s.out := by
  unfold ringDrained
  dsimp only
  split
  · exact ⟨rfl, rfl, rfl⟩
  · exact ⟨rfl, rfl, rfl⟩

theorem cqOf_unreserve (c : Nat) (s : State) : cqOf (unreserve c s) c = { cqOf s c with reserved := (cqOf s c).reserved - 1 } := tabGet_put_self

theorem writeEntry_lau (c : Nat) (e : Entry) (s : State) : (writeEntry c e s).lau = s.lau := by
  simp only [writeEntry]
  rw [fire_lau]
  rfl

theorem sent_writeEntry (c : Nat) (e : Entry) (s : State) :
    Emission.memWrite ((cqOf s c).base + 32 * ((cqOf s c).tail % (cqOf s c).entries))
      (wordBytes (entryWords e (if (cqOf s c).tail / (cqOf s c).entries % 2 = 0 then 1 else 0))) ∈ (writeEntry c e s).out := by
  unfold writeEntry
  exact sent_fire (List.mem_append_right _ List.mem_cons_self)

/-- The state in which a delivery has left the list and its ring counts it done; its cask is not yet released. -/
def entered (d : Delivery) (c : Cask) (s : State) : State :=
  let s := writeReserved (ringOf s d.ring).cfg.cq (entryOfDelivery d c s) s
  let s := { s with rk := { s.rk with deliveries := s.rk.deliveries.filter (fun e => !(e.ring = d.ring && e.count = d.count)) } }
  let x := ringOf s d.ring
  bump Oid.rackingRingDelivered d.ring (bump Oid.rackingFlowDelivered c.flow (putRing d.ring { x with done := (x.done + 1) % countMod } s))

theorem completeDelivery_entered (d : Delivery) (c : Cask) (s : State) :
    completeDelivery d c s = ringDrained d.ring (releaseCask d.cask (entered d c s)) := rfl

theorem entered_spec (d : Delivery) (c : Cask) (s : State) : (entered d c s).lau = s.lau ∧
    (entered d c s).rk.deliveries = s.rk.deliveries.filter (fun e => !(e.ring = d.ring && e.count = d.count)) ∧
    Emission.memWrite ((cqOf s (ringOf s d.ring).cfg.cq).base + 32 * ((cqOf s (ringOf s d.ring).cfg.cq).tail %
        (cqOf s (ringOf s d.ring).cfg.cq).entries)) (wordBytes (entryWords (entryOfDelivery d c s)
          (if (cqOf s (ringOf s d.ring).cfg.cq).tail / (cqOf s (ringOf s d.ring).cfg.cq).entries % 2 = 0 then 1 else 0))) ∈ (entered d c s).out := by
  have hview := congrArg Prod.fst (writeEntry_stopView (ringOf s d.ring).cfg.cq 0 (entryOfDelivery d c s) (unreserve (ringOf s d.ring).cfg.cq s))
  have hlau := writeEntry_lau (ringOf s d.ring).cfg.cq (entryOfDelivery d c s) (unreserve (ringOf s d.ring).cfg.cq s)
  have hsent := sent_writeEntry (ringOf s d.ring).cfg.cq (entryOfDelivery d c s) (unreserve (ringOf s d.ring).cfg.cq s)
  rw [cqOf_unreserve] at hsent
  unfold entered writeReserved
  dsimp only at hview hlau hsent ⊢
  generalize writeEntry (ringOf s d.ring).cfg.cq (entryOfDelivery d c s) (unreserve (ringOf s d.ring).cfg.cq s) = t at hview hlau hsent ⊢
  rw [bump_lau, bump_lau, bump_rk, bump_rk, bump_out, bump_out]
  exact ⟨hlau, congrArg _ hview, hsent⟩

/-- Settles O42: the ring in turn by the search for it, then one lemma per stage of a delivery. -/
theorem framesAreDelivered : Obligations.FramesAreDelivered := by
  unfold Obligations.FramesAreDelivered
  refine ⟨fun s r u => nextRing_eligible, fun s r u hst hlen hn => ?_, fun s hst hlen hn => ?_, fun r s id c k hh hc hk hfit => ?_,
    fun k s d hd hrun hw => ?_, fun s d c cfg h u => carryDelivery_tag, fun tag data s e ring page table he hu => ?_,
    fun k s d c hd hrun hv hm hc => ?_⟩
  · show execDeliveryStart s = _
    rw [execDeliveryStart, if_neg (by simpa [hst] using hlen)]
    dsimp only
    rw [hn]
  · show execDeliveryStart s = _
    rw [execDeliveryStart, if_neg (by simpa [hst] using hlen)]
    dsimp only
    rw [hn]
  · obtain ⟨hcask, hdel, hass⟩ := started_spec (r := r) hc
    rw [startDelivery_fits hh hk hfit]
    generalize started r id s = t at hcask hdel hass ⊢
    exact ⟨{ ring := r, count := (ringOf s r).assigned, cask := id }, hcask, by rw [← hdel], rfl, rfl, rfl, hass⟩
  · show execDeliveryDataDone k s = _
    rw [execDeliveryDataDone, hd]
    simp only [hrun, hw, Bool.not_false, Bool.and_self, if_true]
  · show execWalkReadComplete tag data s = _
    rw [execWalkReadComplete, he]
    dsimp only
    rw [hu]
    dsimp only
    rw [giveData, hu]
    rfl
  · obtain ⟨hlau, hdel, hsent⟩ := entered_spec d c s
    have hcask : caskOf (entered d c s) d.cask = some c := by rw [caskOf, hlau]; exact hc
    obtain ⟨hfree, -, -⟩ := releaseCask_spec hcask
    have hrel := congrArg Prod.fst (releaseCask_stopView d.cask 0 (entered d c s))
    obtain ⟨hl, hr, ho⟩ := ringDrained_rest d.ring (releaseCask d.cask (entered d c s))
    refine ⟨completeDelivery d c s, ?_, ?_, ?_, entryOfDelivery d c s, ?_, rfl, rfl, rfl, rfl, rfl⟩
    · show execCompletionEntry k s = _
      rw [execCompletionEntry, hd]
      simp only [hrun, hv, hm, Bool.not_false, Bool.and_self, if_true, hc]
    · rw [completeDelivery_entered, caskOf, hl]
      exact hfree
    · rw [completeDelivery_entered, hr]
      exact hrel.trans hdel
    · rw [completeDelivery_entered, ho]
      exact sent_releaseCask hsent

end Sys2Proof.Machine
end

section
/-! SUPPORT. Transmit flows: entry, the start of a frame by the grid and by a trigger (R389 to R391, R402, R407). -/

namespace Sys2Proof.Machine
open Sys2Proof

/-! ### What firing leaves of the event fabric -/

/-- The parts of the event fabric that firing a source does not reach. -/
def fabRest (s : State) :=
  (s.fab.pend, s.fab.storm, s.fab.grist, s.fab.sched, s.fab.trigSeen, s.fab.unmasked, s.fab.trigIn, s.fab.trigOut, s.fab.flowTrig, s.fab.prev)

theorem updateIntx_fabRest (s : State) : fabRest (updateIntx s) = fabRest s := by
  simp only [updateIntx, fabRest]
  split
  · rfl
  · rw [assertWake_fab]
    rfl

theorem sendVector_fabRest (v : Nat) (s : State) : fabRest (sendVector v s) = fabRest s := by
  simp only [sendVector, fabRest]
  split
  · rw [assertWake_fab]
  · rfl
  · split <;> rfl
  · split <;> rfl

theorem countVector_fabRest (v : Nat) (s : State) : fabRest (countVector v s) = fabRest s := by
  simp only [countVector]
  split
  · exact sendVector_fabRest v s
  · rfl

theorem bump_fabRest (id idx : Nat) (s : State) : fabRest (bump id idx s) = fabRest s := by rw [fabRest, bump_fab, fabRest]

theorem fireAt_fabRest (src ts due : Nat) (late : Bool) (s : State) : fabRest (fireAt src ts due late s) = fabRest s := by
  unfold fireAt
  extract_lets u fab w v x y c
  have hw : fabRest w = fabRest s := bump_fabRest _ _ s
  have hx : fabRest x = fabRest w := by
    show fabRest (if v = 0xFFFF then w else countVector v w) = fabRest w
    split
    · rfl
    · exact countVector_fabRest _ _
  have hy : fabRest y = fabRest s := (updateIntx_fabRest x).trans (hx.trans hw)
  split
  · exact hy
  · exact hy

theorem fire_fabRest (src : Nat) (s : State) : fabRest (fire src s) = fabRest s := by
  unfold fire
  dsimp only
  split
  · rfl
  · exact fireAt_fabRest _ _ _ _ _

/-! ### The settings of a flow -/

theorem tabGet_filter {d : Nat} {f : Nat × Nat → Bool} {k : Nat} (hf : ∀ v, f (k, v) = true) (t : List (Nat × Nat)) :
    tabGet d k (t.filter f) = tabGet d k t := by
  induction t with
  | nil => rfl
  | cons e t ih =>
    obtain ⟨j, v⟩ := e
    by_cases hj : j = k
    · subst hj
      rw [List.filter_cons_of_pos (hf v)]
      simp [tabGet]
    · rw [List.filter_cons]
      split
      · simp only [tabGet, hj, if_false, ih]
      · simp only [tabGet, hj, if_false, ih]

/-- A setting of the tap that a frame takes is the one in force. -/
theorem cfgGet_txSettings {s : State} {t id : Nat} (hid : id / 65536 = 0x48) (ht : t < 65536) : cfgGet (txSettings s t) id t = getObj s id t := by
  unfold cfgGet txSettings getObj
  refine tabGet_filter (fun v => ?_) _
  have h1 : objKey id t / 65536 = id := by unfold objKey; omega
  have h2 : objKey id t % 65536 = t := by unfold objKey; omega
  simp [h1, h2, hid]

theorem txSettings_congr {s u : State} (h : u.objs = s.objs) (t : Nat) : txSettings u t = txSettings s t := by rw [txSettings, h, txSettings]

/-- Only the lines of a trigger per line start elsewhere than a frame. -/
theorem line0_of_frames {s : State} {t : Nat} (ht : t < 65536) (hm : getObj s Oid.tapStartMode t ≠ 4) (k : Nat) :
    (txGeo (txSettings s t) t k).line0 = 0 := by
  simp [txGeo, cfgGet_txSettings (id := Oid.tapStartMode) (by decide) ht, hm]

/-! ### The frames of a flow under what follows a frame's start -/

theorem txOf_putTx_self (t : Nat) (x : TxX) (s : State) : txOf (putTx t x s) t = x := tabGet_put_self

theorem txOf_congr {s u : State} (h : u.tap = s.tap) (t : Nat) : txOf u t = txOf s t := by rw [txOf, h, txOf]

/-- The position of a flow: what neither a fetch nor the level of its buffer changes. -/
def gridOf (x : TxX) := (x.entered, x.count, x.k, x.tNext, x.stopped, startedFrames x)

theorem driveBoil_tap (part : Nat) (on : Bool) (s : State) : (driveBoil part on s).tap = s.tap := by
  have hb : ∀ u, (setBoil part 2 on u).tap = u.tap := fun u => by
    simp only [setBoil]
    split
    · rw [bump_tap, putObj_tap]
    · split
      · rfl
      · rfl
  simp only [driveBoil]
  split
  · rw [fire_tap, hb]
  · exact hb s

theorem driveBoil_fabRest (part : Nat) (on : Bool) (s : State) : fabRest (driveBoil part on s) = fabRest s := by
  have hb : ∀ u, fabRest (setBoil part 2 on u) = fabRest u := fun u => by
    simp only [setBoil]
    split
    · rw [bump_fabRest]; rfl
    · split
      · rfl
      · rfl
  simp only [driveBoil]
  split
  · rw [fire_fabRest, hb]
  · exact hb s

theorem putTx_fabRest (t : Nat) (x : TxX) (s : State) : fabRest (putTx t x s) = fabRest s := rfl

theorem updateTapBoil_fabRest (t : Nat) (s : State) : fabRest (updateTapBoil t s) = fabRest s := by
  unfold updateTapBoil
  dsimp only
  rw [driveBoil_fabRest, driveBoil_fabRest, putTx_fabRest]

theorem updateTapBoil_grid (t : Nat) (s : State) : gridOf (txOf (updateTapBoil t s) t) = gridOf (txOf s t) := by
  unfold updateTapBoil
  dsimp only
  rw [txOf_congr ((driveBoil_tap _ _ _).trans (driveBoil_tap _ _ _)), txOf_putTx_self]
  rfl

theorem startedFrames_snoc_pre {x : TxX} {fr : TxFrame} (h : fr.pre = true) :
    startedFrames { x with frames := x.frames ++ [fr] } = startedFrames x := by
  simp [startedFrames, h]

theorem tapPrefetch_grid (t : Nat) (s : State) : gridOf (txOf (tapPrefetch t s) t) = gridOf (txOf s t) := by
  unfold tapPrefetch
  extract_lets x cfg fr
  have hput : ∀ v, gridOf (txOf (putTx t { x with frames := x.frames ++ [{ fr with src := v }] } s) t) = gridOf x := fun v => by
    rw [txOf_putTx_self, gridOf, startedFrames_snoc_pre rfl, gridOf]
  split
  · rfl
  · split
    · split
      · exact hput _
      · rfl
    · split
      · split
        · exact hput _
        · rfl
      · rfl
    · rfl

theorem flowSignals_tap (kind flow n : Nat) (s : State) : (flowSignals kind flow n s).tap = s.tap := by
  induction n with
  | zero => rfl
  | succ n ih =>
    simp only [flowSignals]
    split
    · rw [fire_tap, ih]
    · exact ih

theorem flowSignals_fabRest (kind flow n : Nat) (s : State) : fabRest (flowSignals kind flow n s) = fabRest s := by
  induction n with
  | zero => rfl
  | succ n ih =>
    simp only [flowSignals]
    split
    · rw [fire_fabRest, ih]
    · exact ih

theorem hostRead_tap (use : TagUse) (addr len : Nat) (s : State) : (hostRead use addr len s).tap = s.tap := by
  unfold hostRead
  split
  · rfl
  · rfl

theorem hostRead_fab (use : TagUse) (addr len : Nat) (s : State) : (hostRead use addr len s).fab = s.fab := by
  unfold hostRead
  split
  · rfl
  · rfl

theorem tlbTouch_bump (e : TlbEntry) (s : State) : (tlbTouch e (bump Oid.rackingTlbHits 0 s)).tap = s.tap ∧
    (tlbTouch e (bump Oid.rackingTlbHits 0 s)).fab = s.fab := ⟨rfl, rfl⟩

theorem startWalk_tap (ring page dir : Nat) (s : State) : (startWalk ring page dir s).tap = s.tap ∧ (startWalk ring page dir s).fab = s.fab := by
  unfold startWalk
  extract_lets use use'
  split
  · exact ⟨rfl, rfl⟩
  · rw [hostRead_tap, hostRead_fab, bump_tap, bump_tap, bump_fab, bump_fab]
    exact ⟨rfl, rfl⟩

theorem translate_tap (ring dir : Nat) (big : Bool) (v : Nat) (s : State) :
    (translate ring dir big v s).2.tap = s.tap ∧ (translate ring dir big v s).2.fab = s.fab := by
  unfold translate
  dsimp only
  split
  · exact tlbTouch_bump _ _
  · exact startWalk_tap _ _ _ _

theorem tapRequest_tap (t : Nat) (s : State) : (tapRequest t s).tap = s.tap ∧ (tapRequest t s).fab = s.fab := by
  unfold tapRequest
  extract_lets x
  clear_value x
  split
  · exact ⟨rfl, rfl⟩
  · split
    · dsimp only
      split
      · exact ⟨rfl, rfl⟩
      · generalize _ * x.ring.slotBytes + _ = v
        have ht := translate_tap (2048 + t) x.ring.dir x.ring.bigPage v s
        split
        · next u hu => rw [hu] at ht; exact ht
        · next a u hu =>
          rw [hu] at ht
          rw [hostRead_tap, hostRead_fab]
          exact ht
    · exact ⟨rfl, rfl⟩
    · exact ⟨rfl, rfl⟩
    · exact ⟨rfl, rfl⟩

theorem notePair_tx (t : Nat) (fr : TxFrame) (s : State) : (notePair t fr s).tap.tx = s.tap.tx ∧ (notePair t fr s).fab = s.fab := by
  unfold notePair
  dsimp only
  split
  · exact ⟨rfl, rfl⟩
  · exact ⟨rfl, rfl⟩

theorem tapRequest_notePair (t : Nat) (fr : TxFrame) (s : State) :
    txOf (tapRequest t (notePair t fr s)) t = txOf s t ∧ fabRest (tapRequest t (notePair t fr s)) = fabRest s := by
  obtain ⟨ht, hf⟩ := tapRequest_tap t (notePair t fr s)
  obtain ⟨hn, hg⟩ := notePair_tx t fr s
  refine ⟨?_, by rw [fabRest, hf, hg, fabRest]⟩
  rw [txOf_congr ht, txOf, hn, txOf]

/-- The frame of a pattern that starts: the one prefetched where it still fits, else a new one. -/
def patternFrame (t start : Nat) (cfg : List (Nat × Nat)) (x : TxX) : TxFrame :=
  let new : TxFrame := { k := x.k, start := start, cfg := cfg, src := .pattern, npk := packetsOf (txGeo cfg t x.k) }
  match x.frames.find? (fun f => f.pre) with
  | some p => if p.src = .pattern && p.cfg = cfg then { p with pre := false, start := start, k := x.k } else new
  | none => new

theorem patternFrame_spec (t start : Nat) (cfg : List (Nat × Nat)) (x : TxX) : (patternFrame t start cfg x).k = x.k ∧
    (patternFrame t start cfg x).start = start ∧ (patternFrame t start cfg x).src = .pattern ∧ (patternFrame t start cfg x).pre = false := by
  unfold patternFrame
  dsimp only
  split
  · split
    · next p _ hp =>
      rw [Bool.and_eq_true] at hp
      exact ⟨rfl, rfl, of_decide_eq_true hp.1, rfl⟩
    · exact ⟨rfl, rfl, rfl, rfl⟩
  · exact ⟨rfl, rfl, rfl, rfl⟩

/-- The flow with the frame taken last, and counted where it begins a frame. -/
def frameTaken (t start : Nat) (s : State) : State :=
  let x := txOf s t
  let cfg := txSettings s t
  let g := txGeo cfg t x.k
  let s := putTx t { x with frames := startedFrames x ++ [patternFrame t start cfg x], count := x.count + b2n (g.line0 = 0) } s
  if g.line0 = 0 then flowSignal 3 t s else s

theorem startFrame_pattern {t start : Nat} {s : State} (hsrc : cfgGet (txSettings s t) Oid.tapSource t = 0) :
    startFrame t start s = tapRequest t (notePair t (patternFrame t start (txSettings s t) (txOf s t)) (frameTaken t start s)) := by
  have htake : takeSource t (txOf s t).k (txSettings s t) (txOf s t) s = (.src .pattern, txOf s t, s) := by
    unfold takeSource
    rw [hsrc]
    rfl
  unfold startFrame
  dsimp only
  rw [htake]
  rfl

theorem frameTaken_spec (t start : Nat) (s : State) :
    txOf (frameTaken t start s) t = { txOf s t with
      frames := startedFrames (txOf s t) ++ [patternFrame t start (txSettings s t) (txOf s t)]
      count := (txOf s t).count + b2n ((txGeo (txSettings s t) t (txOf s t).k).line0 = 0) } ∧
    fabRest (frameTaken t start s) = fabRest s := by
  unfold frameTaken
  dsimp only
  split
  · exact ⟨(txOf_congr (flowSignals_tap _ _ _ _) t).trans (txOf_putTx_self _ _ _), flowSignals_fabRest _ _ _ _⟩
  · exact ⟨txOf_putTx_self _ _ _, rfl⟩

/-- A frame of a pattern starts: it stands last, at its start, as the flow's next. -/
theorem startFrame_spec {t start : Nat} {s : State} (hsrc : cfgGet (txSettings s t) Oid.tapSource t = 0) :
    ∃ fr : TxFrame, fr.k = (txOf s t).k ∧ fr.start = start ∧ fr.src = .pattern ∧ fr.pre = false ∧
      txOf (startFrame t start s) t = { txOf s t with
        frames := startedFrames (txOf s t) ++ [fr]
        count := (txOf s t).count + b2n ((txGeo (txSettings s t) t (txOf s t).k).line0 = 0) } ∧
      fabRest (startFrame t start s) = fabRest s := by
  obtain ⟨hk, hstart, hsrc', hpre⟩ := patternFrame_spec t start (txSettings s t) (txOf s t)
  obtain ⟨htx, hfab⟩ := frameTaken_spec t start s
  rw [startFrame_pattern hsrc]
  obtain ⟨hreq, hrest⟩ := tapRequest_notePair t (patternFrame t start (txSettings s t) (txOf s t)) (frameTaken t start s)
  exact ⟨_, hk, hstart, hsrc', hpre, hreq.trans htx, hrest.trans hfab⟩

/-- A flow with a started frame goes on. -/
theorem settleTx_of_started {t : Nat} {s : State} {l : List TxFrame} {fr : TxFrame} (h : startedFrames (txOf s t) = l ++ [fr]) :
    settleTx t s = s := by
  unfold settleTx
  dsimp only
  rw [if_pos (by simp [h])]

theorem startedFrames_taken {x y : TxX} {fr : TxFrame} (h : y.frames = startedFrames x ++ [fr]) (hpre : fr.pre = false) :
    startedFrames y = startedFrames x ++ [fr] := by
  simp [startedFrames, h, hpre, List.filter_filter]

/-! ### Entry to the grid (R389, R390) -/

/-- The first grid point that lies at least ns ahead. -/
theorem gridAfter_spec {num d ns : Nat} (hnum : 0 < num) (hd : 0 < d) :
    ns ≤ gridAfter num d ns * d / num ∧ ∀ j, j < gridAfter num d ns → j * d / num < ns := by
  have hg : gridAfter num d ns = (ns * num + d - 1) / d := by rw [gridAfter, Nat.max_eq_right hd]
  have hdm := Nat.div_add_mod (ns * num + d - 1) d
  have hmod := Nat.mod_lt (ns * num + d - 1) hd
  rw [hg]
  generalize (ns * num + d - 1) / d = j at hdm ⊢
  constructor
  · rw [Nat.le_div_iff_mul_le hnum, Nat.mul_comm j d]
    omega
  · intro i hi
    rw [Nat.div_lt_iff_lt_mul hnum]
    have hle : (i + 1) * d ≤ j * d := Nat.mul_le_mul_right d hi
    rw [Nat.add_mul, Nat.one_mul, Nat.mul_comm j d] at hle
    omega

theorem txOf_skipFrames (t n : Nat) (s : State) : txOf (skipFrames t n s) t = txOf s t := by
  refine txOf_congr ?_ t
  unfold skipFrames
  split
  · rfl
  · rw [setSticky_tap, addObj_tap]

/-- A flow enters with no frame counted: at once, at its start time, or at the first grid point at least 100 µs ahead. -/
theorem tapEnter_spec (t : Nat) (s : State) :
    let num := getObj s Oid.tapRateNum t
    let d := getObj s Oid.tapRateDen t * 1000000000
    let x := txOf (tapEnter t s) t
    x.entered = true ∧ x.count = 0 ∧
    (getObj s Oid.tapStartMode t = 0 → x.tNext = nowNs s + 100000 ∧ x.k = 0) ∧
    (getObj s Oid.tapStartMode t = 1 → 0 < num → 0 < d → x.tNext = tNsec (getObj s Oid.tapStartAt t) + x.k * d / num ∧
      nowNs s + 100000 ≤ x.tNext ∧ ∀ j, j < x.k → tNsec (getObj s Oid.tapStartAt t) + j * d / num < nowNs s + 100000) ∧
    (getObj s Oid.tapStartMode t = 2 → 0 < num → 0 < d → x.k = 0 ∧ nowNs s + 100000 ≤ x.tNext ∧
      ∃ j, x.tNext = j * d / num ∧ ∀ i, i < j → i * d / num < nowNs s + 100000) := by
  intro num d x
  have hx : x = txOf (tapEnter t s) t := rfl
  clear_value x
  unfold tapEnter at hx
  dsimp only [billion] at hx
  split at hx
  · next hm =>
    rw [txOf_putTx_self] at hx
    subst hx
    exact ⟨rfl, rfl, fun _ => ⟨rfl, rfl⟩, fun h => absurd (hm.symm.trans h) (by decide), fun h => absurd (hm.symm.trans h) (by decide)⟩
  · next hm =>
    rw [txOf_skipFrames, txOf_putTx_self] at hx
    subst hx
    refine ⟨rfl, rfl, fun h => absurd (hm.symm.trans h) (by decide), fun _ hnum hd => ?_, fun h => absurd (hm.symm.trans h) (by decide)⟩
    rw [Nat.max_eq_right (show 1 ≤ getObj s Oid.tapRateNum t from hnum)]
    obtain ⟨hge, hlt⟩ := gridAfter_spec (ns := nowNs s + 100000 - tNsec (getObj s Oid.tapStartAt t)) hnum hd
    dsimp only
    split
    · next h =>
      refine ⟨rfl, ?_, fun j hj => ?_⟩
      · show _ ≤ tNsec (getObj s Oid.tapStartAt t) + gridAfter num d _ * d / num
        omega
      · have hj' := hlt j hj
        omega
    · next h =>
      refine ⟨rfl, ?_, fun j hj => absurd hj (Nat.not_lt_zero j)⟩
      show _ ≤ tNsec (getObj s Oid.tapStartAt t) + 0 * d / num
      rw [Nat.zero_mul, Nat.zero_div]
      omega
  · next hm =>
    rw [txOf_putTx_self] at hx
    subst hx
    refine ⟨rfl, rfl, fun h => absurd (hm.symm.trans h) (by decide), fun h => absurd (hm.symm.trans h) (by decide), fun _ hnum hd => ?_⟩
    rw [Nat.max_eq_right (show 1 ≤ getObj s Oid.tapRateNum t from hnum)]
    obtain ⟨hge, hlt⟩ := gridAfter_spec (ns := nowNs s + 100000) hnum hd
    exact ⟨rfl, hge, _, rfl, hlt⟩
  · next h0 h1 h2 =>
    rw [txOf_putTx_self] at hx
    subst hx
    exact ⟨rfl, rfl, fun h => absurd h h0, fun h => absurd h h1, fun h => absurd h h2⟩

/-! ### The start of a frame (R391, R402, R407) -/

theorem pitchAtFrame_none {tx : Bool} {f : Nat} {s : State} (h : s.dict.pitch = none) : pitchAtFrame tx f s = s := by
  rw [pitchAtFrame, h]

theorem execTapFrameStart_free {t : TxFlow} {s : State} (h : s.dict.pitch = none) : execTapFrameStart t s = .next (gridStart t.val s) := by
  rw [execTapFrameStart, pitchAtFrame_none h]
  split
  · rfl
  · rfl

theorem execTapTrigger_free {t : TxFlow} {s : State} (h : s.dict.pitch = none) : execTapTrigger t s = .next (triggerStart t.val s) := by
  rw [execTapTrigger, pitchAtFrame_none h]
  split
  · rfl
  · rfl

theorem gridStart_early {t : Nat} {s : State} (h : nowNs s < (txOf s t).tNext) : gridStart t s = s := by
  unfold gridStart
  dsimp only
  rw [if_pos (by simp [h])]

/-- A frame of a flow on the grid starts, and the flow moves on to the next grid point. -/
theorem gridStart_spec {t : Nat} {s : State} (ht : t < 65536) (hent : (txOf s t).entered = true) (hstop : (txOf s t).stopping = false)
    (hstopped : (txOf s t).stopped = false) (hmode : getObj s Oid.tapStartMode t ≤ 2) (hdue : (txOf s t).tNext ≤ nowNs s)
    (hflt : txFaulted s t = false) (hreach : stopReached s t (txOf s t) (txOf s t).tNext = false)
    (hsrc : cfgGet (txSettings s t) Oid.tapSource t = 0) :
    (txOf (gridStart t s) t).count = (txOf s t).count + 1 ∧ (txOf (gridStart t s) t).k = (txOf s t).k + 1 ∧
      ∃ fr, startedFrames (txOf (gridStart t s) t) = startedFrames (txOf s t) ++ [fr] ∧ fr.k = (txOf s t).k ∧
        fr.start = (txOf s t).tNext ∧ fr.src = .pattern := by
  have hx := txOf_putTx_self t { txOf s t with armed := false } s
  obtain ⟨fr, hk, hstart, hpat, hpre, htx, -⟩ := startFrame_spec (t := t) (start := (txOf s t).tNext)
    (s := putTx t { txOf s t with armed := false } s) hsrc
  have hline := line0_of_frames ht (show getObj s Oid.tapStartMode t ≠ 4 by omega) (txOf s t).k
  have hcfg : txSettings (putTx t { txOf s t with armed := false } s) t = txSettings s t := rfl
  rw [hx, hcfg] at htx
  rw [hx] at hk
  unfold gridStart
  dsimp only
  rw [if_neg (by simp [hent, hstop, hstopped, hflt]; omega), hreach, if_neg Bool.false_ne_true]
  generalize startFrame t (txOf s t).tNext (putTx t { txOf s t with armed := false } s) = u at htx ⊢
  have hstarted : startedFrames (txOf u t) = startedFrames (txOf s t) ++ [fr] := startedFrames_taken (by rw [htx]; rfl) hpre
  rw [settleTx_of_started (l := startedFrames (txOf s t)) (fr := fr) (by rw [txOf_putTx_self]; exact hstarted)]
  have hgrid := (updateTapBoil_grid t (tapPrefetch t (putTx t (nextGrid u t (txOf u t)) u))).trans (tapPrefetch_grid t _)
  rw [txOf_putTx_self] at hgrid
  simp only [gridOf, Prod.mk.injEq] at hgrid
  obtain ⟨-, hcount, hkk, -, -, hframes⟩ := hgrid
  refine ⟨hcount.trans ?_, hkk.trans ?_, fr, hframes.trans hstarted, hk, hstart, hpat⟩
  · show (txOf u t).count = _
    rw [htx]
    dsimp only
    rw [hline]
    rfl
  · show (txOf u t).k + 1 = _
    rw [htx]

/-- A waiting occurrence starts a frame and is taken. -/
theorem triggerStart_spec {t k : Nat} {s : State} {o : Occ} (hent : (txOf s t).entered = true) (hstop : (txOf s t).stopping = false)
    (hstopped : (txOf s t).stopped = false) (hmode : 2 < getObj s Oid.tapStartMode t) (hflt : txFaulted s t = false)
    (hnone : startedFrames (txOf s t) = []) (htrig : txTrigger s t = some k) (hocc : tabGet none k s.fab.flowTrig = some o)
    (hdue : tNsec o.due + getObj s Oid.tapTriggerDelayNs t ≤ nowNs s) (hreach : stopReached s t (txOf s t) (nowNs s) = false)
    (hsrc : cfgGet (txSettings s t) Oid.tapSource t = 0) :
    tabGet none k (triggerStart t s).fab.flowTrig = none ∧ (txOf (triggerStart t s) t).k = (txOf s t).k + 1 ∧
      ∃ fr, startedFrames (txOf (triggerStart t s) t) = [fr] ∧ fr.k = (txOf s t).k ∧ fr.start = nowNs s := by
  obtain ⟨fr, hk, hstart, -, hpre, htx, hfab⟩ := startFrame_spec (t := t) (start := nowNs s)
    (s := { s with fab := { s.fab with flowTrig := tabPut none k none s.fab.flowTrig } }) hsrc
  unfold triggerStart
  dsimp only
  rw [if_neg (by simp [hent, hstop, hstopped, hflt, hnone]; omega), htrig]
  dsimp only
  rw [hocc]
  dsimp only
  rw [Nat.max_eq_right hdue, hreach, if_neg (by simpa using hdue)]
  rw [show max (tNsec o.due + getObj s Oid.tapTriggerDelayNs t)
    (nowNs { s with fab := { s.fab with flowTrig := tabPut none k none s.fab.flowTrig } }) = nowNs s from Nat.max_eq_right hdue]
  generalize startFrame t (nowNs s) { s with fab := { s.fab with flowTrig := tabPut none k none s.fab.flowTrig } } = u at htx hfab ⊢
  have hstarted : startedFrames (txOf u t) = startedFrames (txOf s t) ++ [fr] := startedFrames_taken (by rw [htx]; rfl) hpre
  rw [hnone, List.nil_append] at hstarted
  have hgrid := updateTapBoil_grid t (putTx t { txOf u t with k := (txOf u t).k + 1 } u)
  rw [txOf_putTx_self] at hgrid
  simp only [gridOf, Prod.mk.injEq] at hgrid
  obtain ⟨-, -, hkk, -, -, hframes⟩ := hgrid
  refine ⟨?_, hkk.trans ?_, fr, hframes.trans hstarted, hk, hstart⟩
  · have hboil := (updateTapBoil_fabRest t (putTx t { txOf u t with k := (txOf u t).k + 1 } u)).trans ((putTx_fabRest _ _ _).trans hfab)
    simp only [fabRest, Prod.mk.injEq] at hboil
    obtain ⟨-, -, -, -, -, -, -, -, htrigs, -⟩ := hboil
    rw [htrigs]
    exact tabGet_put_self
  · rw [htx]
    rfl

/-- Settles O44: the entry by the first grid point ahead, a start by the frame that the flow takes. -/
theorem flowsStartFrames : Obligations.FlowsStartFrames := by
  unfold Obligations.FlowsStartFrames
  refine ⟨fun t s hm hl he hf hs => ?_, fun t s h => ?_, fun t s h => ⟨execTapFrameStart_free h, execTapTrigger_free h⟩, fun t s h => ?_,
    fun t s h => ?_, fun t s h hearly => ?_, fun t s h hent hstop hstopped hmode hdue hflt hreach hsrc => ?_,
    fun t s k o h hent hstop hstopped hmode hflt hnone htrig hocc hdue hreach hsrc => ?_⟩
  · have hgrid := tapPrefetch_grid t.val (tapEnter t.val s)
    simp only [gridOf, Prod.mk.injEq] at hgrid
    obtain ⟨hent, hcount, hk, hnext, -, -⟩ := hgrid
    refine ⟨tapPrefetch t.val (tapEnter t.val s), ?_, ?_⟩
    · show execTapEntry t s = _
      simp [execTapEntry, hm, hl, he, hf, hs]
    · rw [hent, hcount, hk, hnext]
      exact tapEnter_spec t.val s
  · show execTapEntry t s = _
    rcases h with h | h | h <;> simp [execTapEntry, h]
  · show execTapFrameStart t s = _
    rw [execTapFrameStart, if_pos h]
  · show execTapTrigger t s = _
    rw [execTapTrigger, if_pos h]
  · exact (execTapFrameStart_free h).trans (by rw [gridStart_early hearly])
  · exact ⟨_, execTapFrameStart_free h, gridStart_spec (Nat.lt_trans t.isLt (by decide)) hent hstop hstopped hmode hdue hflt hreach hsrc⟩
  · exact ⟨_, execTapTrigger_free h, triggerStart_spec hent hstop hstopped hmode hflt hnone htrig hocc hdue hreach hsrc⟩

end Sys2Proof.Machine
end

section
/-! SUPPORT. Packets, fetches, posts, stops and replay of the tap (R392, R396, R399, R403, R404). -/

namespace Sys2Proof.Machine
open Sys2Proof

/-! ### The buffer of a flow (R399) -/

/-- Bytes held by frames. -/
def heldBytes (l : List TxFrame) : Nat := (l.map (fun f => f.buf.length)).sum

theorem heldBytes_append (l k : List TxFrame) : heldBytes (l ++ k) = heldBytes l + heldBytes k := by
  simp [heldBytes]

theorem heldBytes_onUnfetched {t n : Nat} {f : TxFrame → TxFrame} (hf : ∀ fr, (f fr).buf.length ≤ fr.buf.length + n) (l : List TxFrame) :
    heldBytes (onUnfetched t f l) ≤ heldBytes l + n := by
  induction l with
  | nil => exact Nat.zero_le _
  | cons fr l ih =>
    rw [onUnfetched]
    split
    · have := hf fr
      simp only [heldBytes, List.map_cons, List.sum_cons] at *
      omega
    · simp only [heldBytes, List.map_cons, List.sum_cons] at *
      omega

theorem deliverTo_buf (fr : TxFrame) (bs : List Byte) : (deliverTo fr bs).buf.length ≤ fr.buf.length + bs.length := by
  simp only [deliverTo, List.length_append, List.length_drop]
  omega

theorem fetchRun_length (s : State) (src : TxSrc) (g : TxGeo) (n : Nat) : ∀ i, (fetchRun s src g i n).1.length = n := by
  induction n with
  | zero => exact fun _ => rfl
  | succ n ih => exact fun i => by simp only [fetchRun, List.length_cons, ih]

/-- A prefetched frame holds nothing yet. -/
theorem tapPrefetch_held (t : Nat) (s : State) : ∃ l : List TxFrame,
    (txOf (tapPrefetch t s) t).frames = (txOf s t).frames ++ l ∧ heldBytes l = 0 ∧ (tapPrefetch t s).objs = s.objs := by
  unfold tapPrefetch
  extract_lets x cfg fr
  have hput : ∀ v, ∃ l : List TxFrame, (txOf (putTx t { x with frames := x.frames ++ [{ fr with src := v }] } s) t).frames = x.frames ++ l ∧
      heldBytes l = 0 ∧ (putTx t { x with frames := x.frames ++ [{ fr with src := v }] } s).objs = s.objs := fun v =>
    ⟨[{ fr with src := v }], by rw [txOf_putTx_self], rfl, rfl⟩
  have hsame : ∃ l : List TxFrame, (txOf s t).frames = x.frames ++ l ∧ heldBytes l = 0 ∧ s.objs = s.objs := ⟨[], by simp [x], rfl, rfl⟩
  split
  · exact hsame
  · split
    · split
      · exact hput _
      · exact hsame
    · split
      · split
        · exact hput _
        · exact hsame
      · exact hsame
    · exact hsame

theorem updateTapBoil_frames (t : Nat) (s : State) : (txOf (updateTapBoil t s) t).frames = (txOf s t).frames := by
  unfold updateTapBoil
  dsimp only
  rw [txOf_congr ((driveBoil_tap _ _ _).trans (driveBoil_tap _ _ _)), txOf_putTx_self]

theorem tapLevel_eq {x : TxX} {l : List TxFrame} (h : x.frames = l) : tapLevel x = heldBytes l := by rw [tapLevel, h, heldBytes]

/-! ### Sorting by a key -/

theorem mem_insertBy {α : Type} {key : α → Nat} {x y : α} (l : List α) : y ∈ insertBy key x l ↔ y = x ∨ y ∈ l := by
  induction l with
  | nil => simp [insertBy]
  | cons z l ih =>
    rw [insertBy]
    split
    · simp only [List.mem_cons]
    · simp only [List.mem_cons, ih]
      exact or_left_comm

theorem insertBy_sorted {α : Type} {key : α → Nat} {x : α} (l : List α) (h : l.Pairwise (fun a b => key a ≤ key b)) :
    (insertBy key x l).Pairwise (fun a b => key a ≤ key b) := by
  induction l with
  | nil => simp [insertBy]
  | cons z l ih =>
    obtain ⟨hz, hl⟩ := List.pairwise_cons.mp h
    rw [insertBy]
    split
    · next hlt =>
      refine List.pairwise_cons.mpr ⟨fun b hb => ?_, h⟩
      rcases List.mem_cons.mp hb with rfl | hb
      · exact Nat.le_of_lt hlt
      · exact Nat.le_trans (Nat.le_of_lt hlt) (hz b hb)
    · next hlt =>
      refine List.pairwise_cons.mpr ⟨fun b hb => ?_, ih hl⟩
      rcases (mem_insertBy l).mp hb with rfl | hb
      · exact Nat.le_of_not_lt hlt
      · exact hz b hb

theorem foldl_insertBy {α : Type} {key : α → Nat} (l : List α) : ∀ acc : List α, acc.Pairwise (fun a b => key a ≤ key b) →
    (l.foldl (fun acc x => insertBy key x acc) acc).Pairwise (fun a b => key a ≤ key b) ∧
    ∀ y, y ∈ l.foldl (fun acc x => insertBy key x acc) acc ↔ y ∈ l ∨ y ∈ acc := by
  induction l with
  | nil => exact fun acc h => ⟨h, fun y => by simp⟩
  | cons x l ih =>
    intro acc h
    obtain ⟨hs, hm⟩ := ih (insertBy key x acc) (insertBy_sorted acc h)
    refine ⟨hs, fun y => (hm y).trans ?_⟩
    rw [mem_insertBy, List.mem_cons]
    exact ⟨fun h => h.elim (fun h => .inl (.inr h)) (fun h => h.elim (fun h => .inl (.inl h)) .inr),
      fun h => h.elim (fun h => h.elim (fun h => .inr (.inl h)) .inl) (fun h => .inr (.inr h))⟩

/-- The first of a sorted list has the least key. -/
theorem sortBy_head {α : Type} {key : α → Nat} {l : List α} (h : l ≠ []) :
    ∃ e r, sortBy key l = e :: r ∧ e ∈ l ∧ ∀ d ∈ l, key e ≤ key d := by
  obtain ⟨hs, hm⟩ := foldl_insertBy (key := key) l [] List.Pairwise.nil
  cases hsort : sortBy key l with
  | nil =>
    obtain ⟨x, hx⟩ := List.exists_mem_of_ne_nil l h
    have hx' : x ∈ sortBy key l := (hm x).mpr (.inl hx)
    rw [hsort] at hx'
    exact absurd hx' (by simp)
  | cons e r =>
    have hmem : ∀ y, y ∈ e :: r ↔ y ∈ l := fun y => by rw [← hsort]; exact (hm y).trans (by simp)
    have hsorted : (e :: r).Pairwise (fun a b => key a ≤ key b) := by rw [← hsort]; exact hs
    refine ⟨e, r, rfl, (hmem e).mp List.mem_cons_self, fun d hd => ?_⟩
    rcases List.mem_cons.mp ((hmem d).mpr hd) with rfl | hr
    · exact Nat.le_refl _
    · exact (List.pairwise_cons.mp hsorted).1 d hr

/-! ### Packets that are due (R396) -/

theorem dueFlows_spec {s : State} {p at_ : Nat} {e : Nat × Nat × TxFrame} (h : e ∈ dueFlows s p at_) :
    e.1 = packetDue e.2.1 e.2.2 ∧ e.1 ≤ tNsec at_ := by
  obtain ⟨f, -, hf⟩ := List.mem_filterMap.mp h
  dsimp only at hf
  split at hf
  · exact absurd hf (by simp)
  · split at hf
    · next fr _ hcond =>
      obtain rfl := Option.some.inj hf
      simp only [Bool.and_eq_true, decide_eq_true_eq] at hcond
      exact ⟨rfl, hcond.1.1.2⟩
    · exact absurd hf (by simp)

/-! ### A fetch (R399) -/

/-- The state with the fetched bytes handed to the first frame that wants them. -/
def fetchedTo (t n : Nat) (fr : TxFrame) (s : State) : State :=
  let x := txOf s t
  let r := fetchRun s fr.src (txGeo fr.cfg t fr.k) fr.fetched n
  let s := putTx t { x with frames := onUnfetched t (fun f => deliverTo f r.1) x.frames } s
  if r.2 = 0 then s else setSticky Oid.tapStatus t 0x10 (addObj Oid.tapPoisonedUnits t r.2 s)

theorem fetchedTo_spec (t n : Nat) (fr : TxFrame) (s : State) :
    (txOf (fetchedTo t n fr s) t).frames = onUnfetched t (fun f => deliverTo f (fetchRun s fr.src (txGeo fr.cfg t fr.k) fr.fetched n).1) (txOf s t).frames := by
  unfold fetchedTo
  dsimp only
  split
  · rw [txOf_putTx_self]
  · rw [txOf_congr (s := putTx t _ s) (by rw [setSticky_tap, addObj_tap]), txOf_putTx_self]

/-- A fetch tops up, keeps a host's ring asked, or hands bytes over within the room. -/
theorem tapFetch_cases (t n : Nat) (s : State) :
    let u := tapPrefetch t s
    (unfetched t (txOf u t) = none ∨ (∃ fr slot, unfetched t (txOf u t) = some fr ∧ fr.src = .host slot)) ∧
      (txOf (tapFetch t n s) t).frames = (txOf u t).frames ∨
    ∃ fr, unfetched t (txOf u t) = some fr ∧ tapFetch t n s = updateTapBoil t (tapPrefetch t
      (fetchedTo t (min n (min (tapRoom u t (txOf u t)) (txTotal (txGeo fr.cfg t fr.k) - fr.fetched))) fr u)) := by
  intro u
  unfold tapFetch
  dsimp only
  rw [show tapPrefetch t s = u from rfl]
  clear_value u
  rcases hun : unfetched t (txOf u t) with _ | fr
  · exact .inl ⟨.inl rfl, updateTapBoil_frames t u⟩
  · dsimp only
    cases hsrc : fr.src with
    | host slot =>
      refine .inl ⟨.inr ⟨fr, slot, rfl, hsrc⟩, ?_⟩
      exact (updateTapBoil_frames t _).trans (by rw [txOf_congr (tapRequest_tap t u).1])
    | pattern => exact .inr ⟨fr, rfl, by rw [fetchedTo, hsrc]⟩
    | mem a => exact .inr ⟨fr, rfl, by rw [fetchedTo, hsrc]⟩
    | cask id => exact .inr ⟨fr, rfl, by rw [fetchedTo, hsrc]⟩

theorem tapRoom_congr {s u : State} (h : u.objs = s.objs) (t : Nat) (x : TxX) : tapRoom u t x = tapRoom s t x := by
  rw [tapRoom, getObj_congr h, tapRoom]

theorem heldBytes_of_eq {l k : List TxFrame} (h : l = k) : heldBytes l = heldBytes k := by rw [h]

/-- The bytes fetched fit the buffer. -/
theorem tapFetch_level {t n : Nat} {s : State} (h : tapLevel (txOf s t) ≤ getObj s Oid.tapBufferKib t * 1024) :
    tapLevel (txOf (tapFetch t n s) t) ≤ getObj s Oid.tapBufferKib t * 1024 := by
  obtain ⟨l, hl, hzero, hobjs⟩ := tapPrefetch_held t s
  have hpre : heldBytes (txOf (tapPrefetch t s) t).frames = tapLevel (txOf s t) := by
    rw [hl, heldBytes_append, hzero]
    rfl
  rcases tapFetch_cases t n s with ⟨-, hsame⟩ | ⟨fr, -, hfetch⟩
  · rw [tapLevel_eq hsame, hpre]
    exact h
  · have hroom := tapRoom_congr hobjs t (txOf (tapPrefetch t s) t)
    generalize hm : min n (min (tapRoom (tapPrefetch t s) t (txOf (tapPrefetch t s) t)) (txTotal (txGeo fr.cfg t fr.k) - fr.fetched)) = m at hfetch
    obtain ⟨k, hk, hkzero, -⟩ := tapPrefetch_held t (fetchedTo t m fr (tapPrefetch t s))
    have hle := heldBytes_onUnfetched (t := t) (f := fun f => deliverTo f (fetchRun (tapPrefetch t s) fr.src (txGeo fr.cfg t fr.k) fr.fetched m).1)
      (n := m) (fun f => Nat.le_trans (deliverTo_buf f _) (Nat.le_of_eq (by rw [fetchRun_length]))) (txOf (tapPrefetch t s) t).frames
    have hbound : m ≤ getObj s Oid.tapBufferKib t * 1024 - tapLevel (txOf (tapPrefetch t s) t) := by
      rw [← hm, hroom]
      exact Nat.le_trans (Nat.min_le_right _ _) (Nat.min_le_left _ _)
    rw [hfetch, tapLevel_eq (updateTapBoil_frames t _), heldBytes_of_eq hk, heldBytes_append, hkzero,
      heldBytes_of_eq (fetchedTo_spec t m fr (tapPrefetch t s))]
    rw [show tapLevel (txOf (tapPrefetch t s) t) = tapLevel (txOf s t) from hpre] at hbound
    omega

/-- The first frame that wants bytes of memory takes them. -/
theorem tapFetch_head {t n : Nat} {s : State} {fr : TxFrame} {l : List TxFrame} {a : Nat} (hfr : (txOf s t).frames = fr :: l)
    (hsrc : fr.src = .mem a) (hmore : fr.fetched < txTotal (txGeo fr.cfg t fr.k)) :
    (txOf (tapFetch t n s) t).frames.head? = some (deliverTo fr (fetchRun s (.mem a) (txGeo fr.cfg t fr.k) fr.fetched
      (min n (min (tapRoom s t (txOf s t)) (txTotal (txGeo fr.cfg t fr.k) - fr.fetched)))).1) := by
  have hwants : (fr.src != .pattern && decide (fr.fetched < txTotal (txGeo fr.cfg t fr.k))) = true := by
    rw [hsrc, decide_eq_true hmore]
    rfl
  have hun : unfetched t (txOf s t) = some fr := by rw [unfetched, hfr, List.find?_cons, hwants]
  have hpre : tapPrefetch t s = s := by
    unfold tapPrefetch
    dsimp only
    rw [hun, if_pos (by simp)]
  have hcases := tapFetch_cases t n s
  dsimp only at hcases
  rw [hpre] at hcases
  rcases hcases with ⟨hnot, -⟩ | ⟨fr', hun', hfetch⟩
  · rcases hnot with hnone | ⟨fr', slot, hun', hhost⟩
    · exact absurd (hun.symm.trans hnone) (by simp)
    · obtain rfl := Option.some.inj (hun.symm.trans hun')
      exact absurd (hsrc.symm.trans hhost) (by simp)
  · obtain rfl := Option.some.inj (hun.symm.trans hun')
    generalize min n (min (tapRoom s t (txOf s t)) (txTotal (txGeo fr.cfg t fr.k) - fr.fetched)) = m at hfetch ⊢
    obtain ⟨k, hk, -, -⟩ := tapPrefetch_held t (fetchedTo t m fr s)
    rw [hfetch, updateTapBoil_frames, hk, fetchedTo_spec, hfr, onUnfetched, if_pos (by simpa using hwants), hsrc]
    rfl

theorem tapFetch_mem (t n : Nat) (s : State) : (tapFetch t n s).mem = s.mem :=
  tapFetch_rests (P := fun _ _ m => m = s.mem) (s := s) rfl

/-- Settles O45: the earliest packet by the sort of those due, the buffer by the room that bounds a fetch, the rest by the branches. -/
theorem packetsAreSent : Obligations.PacketsAreSent := by
  unfold Obligations.PacketsAreSent
  refine ⟨fun p t s h => ?_, fun p t s h => ?_, fun t fr at_ s hsend hdead hpay hent => ?_, fun t n s h => ⟨_, rfl, tapFetch_level h, tapFetch_mem _ _ _⟩,
    fun t n s fr l a hfr hsrc hmore => ⟨_, rfl, tapFetch_head hfr hsrc hmore⟩, fun t v s hw hen hf => ⟨fun hle => ?_, fun hlt => ?_⟩,
    fun t v s hw hno => ?_, fun t v s hs => congrArg _ (bar0Write_refused hs), fun t s hent hstop hstopped hreach => ?_,
    fun t s id l hsrc hloop hl => ?_⟩
  · show Host.Outcome.next (packetAt p.val (Time96pack t) s) = _
    rw [packetAt, h]
    rfl
  · obtain ⟨e, r, hsort, hmem, hleast⟩ := sortBy_head (key := fun e : Nat × Nat × TxFrame => e.1) h
    obtain ⟨hdue, hle⟩ := dueFlows_spec hmem
    refine ⟨e, hmem, ?_, hdue, hle, hleast⟩
    show Host.Outcome.next (packetAt p.val (Time96pack t) s) = _
    rw [packetAt, hsort]
  · unfold duePacket
    simp only [hsend, hdead, hpay, hent, Bool.false_eq_true, if_false, Bool.not_true]
  · show Host.Outcome.next (bar0Write (postTx t.val (v.toNat % countMod)) s) = _
    rw [bar0Write_writable hw, postTx, show txOf (barAccess s) t.val = txOf s t.val from rfl]
    dsimp only
    rw [if_neg (by simp [hen, hf]), if_neg (Nat.not_lt.mpr hle)]
  · show Host.Outcome.next (bar0Write (postTx t.val (v.toNat % countMod)) s) = _
    rw [bar0Write_writable hw, postTx, show txOf (barAccess s) t.val = txOf s t.val from rfl]
    dsimp only
    rw [if_neg (by simp [hen, hf]), if_pos hlt]
  · show Host.Outcome.next (bar0Write (postTx t.val (v.toNat % countMod)) s) = _
    rw [bar0Write_writable hw, postTx, show txOf (barAccess s) t.val = txOf s t.val from rfl]
    dsimp only
    rw [if_pos (by simpa using hno)]
  · show execTapStop t s = _
    unfold execTapStop
    dsimp only
    rw [if_pos (by simp [hent, hstop, hstopped, hreach])]
  · show execReplayCaskDone t s = _
    unfold execReplayCaskDone
    rw [if_pos (by simp [hsrc, hloop]), hl]

end Sys2Proof.Machine
end

section
/-! SUPPORT. What a sample, a compare, a speed update and an output edge of the position feedback do (O49). -/

namespace Sys2Proof.Machine
open Sys2Proof

/-! ### Which objects the retry rule writes (R505, R510) -/

/-- The objects that a recorded fault writes. -/
def faultObjs : List Nat := [Oid.faultsLogTotal, Oid.faultsAlertStatus, Oid.eventsSrcCount, Oid.eventsVecSent]

theorem getObj_addRetired {id idx res cause reason : Nat} {s : State} (h : Oid.faultsAlertStatus ≠ id) :
    getObj (addRetired res cause reason s) id idx = getObj s id idx := by
  have hstore : ∀ u : State, getObj (if isOn u Oid.faultsRetirePersist then startStore .retiredList u else u) id idx = getObj u id idx := by
    intro u
    split
    · exact getObj_congr (startStore_objs _ _) _ _
    · rfl
  unfold addRetired
  extract_lets u v
  rw [hstore]
  have hu : getObj u id idx = getObj s id idx := getObj_setSticky_ne h
  show getObj (if _ then _ else _) id idx = _
  split
  · exact hu
  · rw [getObj_setSticky_ne h]
    exact hu

theorem getObj_recordFault {id idx res cause : Nat} {perm : Bool} {s : State} (h : id ∉ faultObjs) :
    getObj (recordFault res cause perm s).1 id idx = getObj s id idx := by
  have w : ∀ x ∈ faultObjs, x ≠ id := fun x hx => ne_of_mem_of_not_mem hx h
  have hlog : ∀ a b n u, getObj (addLog res cause a b n u) id idx = getObj u id idx := fun _ _ _ _ =>
    getObj_addLog (w _ (by decide)) (w _ (by decide)) (w _ (by decide)) (w _ (by decide))
  have hret : ∀ a u, getObj (addRetired res cause a u) id idx = getObj u id idx := fun _ _ => getObj_addRetired (w _ (by decide))
  unfold recordFault
  extract_lets cls kind recent flt u
  have hu : getObj u id idx = getObj s id idx := rfl
  clear_value u
  split
  · exact hlog _ _ _ _
  split
  · split
    · exact (hret _ _).trans rfl
    · rfl
  split
  · rw [hlog, hu]
  split
  · rw [hret, hlog, hu]
  · rw [hlog, hu]

theorem getObj_fireStamped {id idx src ts : Nat} {s : State} (h1 : Oid.eventsSrcCount ≠ id) (h2 : Oid.eventsVecSent ≠ id) :
    getObj (fireStamped src ts s) id idx = getObj s id idx := by
  unfold fireStamped
  split
  · rfl
  · exact getObj_fireAt h1 h2

/-! ### A sample keeps the phase it read (R438) -/

theorem encOf_congr {s u : State} (h : u.pos = s.pos) (n : Nat) : encOf u n = encOf s n := by rw [encOf, h, encOf]

theorem getObj_putEnc (n : Nat) (x : EncX) (s : State) (id idx : Nat) : getObj (putEnc n x s) id idx = getObj s id idx := rfl

/-- The objects that a sample writes besides the phase and the amplitude. -/
def sampleObjs : List Nat := faultObjs ++ [Oid.posFaults, Oid.posFaultCause, Oid.posStatus, Oid.posSpeedValid, Oid.posPositionValid,
  Oid.posRetired, Oid.posPosition, Oid.posOffS, Oid.posOffC, Oid.posGain, Oid.posRefTime, Oid.posRefPosition, Oid.posRefCount, Oid.posRefMode]

theorem ne_of_sampleObjs {id x : Nat} (h : id ∉ sampleObjs) (hx : x ∈ sampleObjs) : x ≠ id := ne_of_mem_of_not_mem hx h

section
variable {id : Nat} (hid : id ∉ sampleObjs)
include hid

theorem getObj_invalidate (n idx : Nat) (s : State) : getObj (invalidate n s) id idx = getObj s id idx := by
  unfold invalidate
  extract_lets was u
  have hu : getObj u id idx = getObj s id idx :=
    (getObj_putObj_ne (ne_of_sampleObjs hid (by decide))).trans (getObj_putObj_ne (ne_of_sampleObjs hid (by decide)))
  clear_value u
  split
  · rw [getObj_setSticky_ne (ne_of_sampleObjs hid (by decide)), getObj_putEnc, hu]
  · exact hu

theorem getObj_encFault (n cause t idx : Nat) (s : State) : getObj (encFault n cause t s) id idx = getObj s id idx := by
  have hfault : id ∉ faultObjs := fun h => hid (List.mem_append_left _ h)
  unfold encFault
  extract_lets perm u v w pos x r
  have hu : getObj u id idx = getObj s id idx :=
    (getObj_putObj_ne (ne_of_sampleObjs hid (by decide))).trans (getObj_bump_ne (ne_of_sampleObjs hid (by decide)))
  have hv : getObj v id idx = getObj u id idx := getObj_setSticky_ne (ne_of_sampleObjs hid (by decide))
  have hw : getObj w id idx = getObj v id idx := (getObj_invalidate hid n idx _).trans
    (getObj_fireStamped (ne_of_sampleObjs hid (by decide)) (ne_of_sampleObjs hid (by decide)))
  have hx : getObj x id idx = getObj w id idx := getObj_putEnc _ _ _ _ _
  have hr : getObj r.1 id idx = getObj x id idx := getObj_recordFault hfault
  clear_value r x w v u
  have hall : getObj r.1 id idx = getObj s id idx := by rw [hr, hx, hw, hv, hu]
  split
  · rw [getObj_setSticky_ne (ne_of_sampleObjs hid (by decide)), getObj_putObj_ne (ne_of_sampleObjs hid (by decide)), getObj_putEnc, hall]
  · exact hall

theorem getObj_putPosition (n p idx : Nat) (s : State) : getObj (putPosition n p s) id idx = getObj s id idx :=
  getObj_putObj_ne (ne_of_sampleObjs hid (by decide))

theorem getObj_autocalUpdate (n idx : Nat) (x : EncX) (s : State) : getObj (autocalUpdate n x s) id idx = getObj s id idx := by
  unfold autocalUpdate
  extract_lets offS offC gain u g
  have hu : getObj u id idx = getObj s id idx :=
    (getObj_putObj_ne (ne_of_sampleObjs hid (by decide))).trans (getObj_putObj_ne (ne_of_sampleObjs hid (by decide)))
  clear_value u
  rw [getObj_putObj_ne (ne_of_sampleObjs hid (by decide)), hu]

theorem getObj_autocal (n t idx : Nat) (f g a b : Int) (s : State) : getObj (autocal n f g a b t s) id idx = getObj s id idx := by
  unfold autocal
  extract_lets x y down z dur good u
  split
  · rfl
  · rw [getObj_putEnc]
    show getObj (if _ then _ else _) id idx = _
    split
    · exact getObj_autocalUpdate hid _ _ _ _
    · rfl

theorem getObj_homeTo (n idx : Nat) (v : Int) (s : State) : getObj (homeTo n v s) id idx = getObj s id idx := by
  unfold homeTo
  extract_lets x e0 u w
  have hu : getObj u id idx = getObj s id idx := getObj_putEnc _ _ _ _ _
  clear_value u
  have hw : getObj w id idx = getObj u id idx :=
    (getObj_putObj_ne (ne_of_sampleObjs hid (by decide))).trans (getObj_putPosition hid _ _ _ _)
  clear_value w
  rw [quadShift, getObj_putEnc, hw, hu]

omit hid in
theorem getObj_markZ (n idx : Nat) (s : State) : getObj (markZ n s) id idx = getObj s id idx := by
  unfold markZ
  extract_lets u o
  split
  · rfl
  · rfl

theorem getObj_markSample (n p t idx : Nat) (fault : Bool) (s : State) : getObj (markSample n p t fault s) id idx = getObj s id idx := by
  unfold markSample
  extract_lets u v mode w
  have hu : getObj u id idx = getObj s id idx :=
    (getObj_putObj_ne (ne_of_sampleObjs hid (by decide))).trans (getObj_putObj_ne (ne_of_sampleObjs hid (by decide)))
  have hv : getObj v id idx = getObj u id idx := by
    rw [getObj_fireStamped (ne_of_sampleObjs hid (by decide)) (ne_of_sampleObjs hid (by decide)),
      getObj_setSticky_ne (ne_of_sampleObjs hid (by decide)), getObj_bump_ne (ne_of_sampleObjs hid (by decide))]
  have hw : getObj w id idx = getObj v id idx := (getObj_markZ _ _ _).trans (getObj_homeTo hid _ _ _ _)
  clear_value w v u
  split
  · rw [getObj_markZ, hv, hu]
  · split
    · rw [getObj_putObj_ne (ne_of_sampleObjs hid (by decide)), hw, hv, hu]
    · rw [hw, hv, hu]

theorem getObj_takeSample (n ph amp t idx : Nat) (a b dp : Int) (fresh ref : Bool) (s : State) :
    getObj (takeSample n a b ph amp t fresh dp ref s) id idx = getObj s id idx := by
  unfold takeSample
  extract_lets x fault u fine1 prev natural jump off p wasValid inside valid v pPrev iv y w z q c r
  have hu : getObj u id idx = getObj s id idx := by
    show getObj (match fault with | some c => encFault n c t s | none => s) id idx = _
    cases fault with
    | none => rfl
    | some cause => exact getObj_encFault hid _ _ _ _ _
  have hv : getObj v id idx = getObj u id idx := getObj_putObj_ne (ne_of_sampleObjs hid (by decide))
  have hw : getObj w id idx = getObj v id idx := getObj_putEnc _ _ _ _ _
  have hz : getObj z id idx = getObj w id idx := getObj_putPosition hid _ _ _ _
  have hq : getObj q id idx = getObj z id idx := by
    show getObj (if _ then _ else _) id idx = _
    split
    · exact getObj_putEnc _ _ _ _ _
    · rfl
  have hc : getObj c id idx = getObj q id idx := by
    show getObj (if _ then _ else _) id idx = _
    split
    · rfl
    · exact getObj_autocal hid _ _ _ _ _ _ _ _
  have hr : getObj r id idx = getObj c id idx := by
    show getObj (if _ then _ else _) id idx = _
    split
    · exact getObj_markSample hid _ _ _ _ _ _
    · rfl
  clear_value r c q z w v u
  have hall : getObj r id idx = getObj s id idx := by rw [hr, hc, hq, hz, hw, hv, hu]
  split
  · rw [getObj_setSticky_ne (ne_of_sampleObjs hid (by decide)), hall]
  · exact hall

end

/-! ### The samples kept (R437) -/

/-- The instants of the samples that a channel keeps, the newest first. -/
def sampleTimes (s : State) (n : Nat) : List Nat := (encOf s n).samples.map EncSample.t

theorem sampleTimes_congr {s u : State} (h : u.pos = s.pos) (n : Nat) : sampleTimes u n = sampleTimes s n := by
  rw [sampleTimes, encOf_congr h, sampleTimes]

theorem sampleTimes_putEnc {n : Nat} {x : EncX} {s : State} (h : x.samples.map EncSample.t = sampleTimes s n) :
    sampleTimes (putEnc n x s) n = sampleTimes s n := by rw [sampleTimes, encOf_putEnc_self, h]

theorem sampleTimes_autocal (n t : Nat) (f g a b : Int) (s : State) : sampleTimes (autocal n f g a b t s) n = sampleTimes s n := by
  have hpos : ∀ x, (autocalUpdate n x s).pos = s.pos := fun x => rfl
  unfold autocal
  extract_lets x y down z dur good u
  have hz : z.samples = x.samples := by
    show EncX.samples (if _ then _ else _) = _
    split
    · rfl
    · rfl
  have hu : sampleTimes u n = sampleTimes s n := by
    show sampleTimes (if _ then _ else _) n = _
    split
    · exact sampleTimes_congr (hpos _) n
    · rfl
  clear_value u
  split
  · exact sampleTimes_putEnc (by rw [hz]; rfl)
  · exact (sampleTimes_putEnc (by rw [hu, hz]; rfl)).trans hu

theorem sampleTimes_homeTo (n : Nat) (v : Int) (s : State) : sampleTimes (homeTo n v s) n = sampleTimes s n := by
  unfold homeTo
  extract_lets x e0 u w
  have hu : sampleTimes u n = sampleTimes s n := by
    refine sampleTimes_putEnc ?_
    show List.map _ (match x.samples with | h :: r => _ | [] => _) = x.samples.map _
    cases x.samples with
    | nil => rfl
    | cons e l => rfl
  have hw : sampleTimes w n = sampleTimes u n := sampleTimes_congr rfl n
  clear_value w u
  exact Eq.trans (sampleTimes_putEnc (s := w) rfl) (hw.trans hu)

theorem sampleTimes_markZ (n : Nat) (s : State) : sampleTimes (markZ n s) n = sampleTimes s n := by
  have hput : ∀ e, sampleTimes (putEnc n { encOf s n with markE := e } s) n = sampleTimes s n := fun _ => sampleTimes_putEnc rfl
  unfold markZ
  extract_lets u o
  split
  · exact (sampleTimes_congr (emit_pos _ _) n).trans (hput _)
  · exact hput _

theorem sampleTimes_markSample (n p t : Nat) (fault : Bool) (s : State) : sampleTimes (markSample n p t fault s) n = sampleTimes s n := by
  unfold markSample
  extract_lets u v mode w
  have hv : sampleTimes v n = sampleTimes s n := sampleTimes_congr (by
    show (fireStamped _ _ _).pos = _
    rw [fireStamped_pos]
    rfl) n
  have hw : sampleTimes w n = sampleTimes v n := (sampleTimes_markZ _ _).trans (sampleTimes_homeTo _ _ _)
  clear_value w v
  split
  · rw [sampleTimes_markZ, hv]
  · split
    · rw [sampleTimes_congr (putObj_pos _ _ _ _), hw, hv]
    · rw [hw, hv]

/-- The new sample is the newest of at most 64. -/
theorem sampleTimes_takeSample (n ph amp t : Nat) (a b dp : Int) (fresh ref : Bool) (s : State) :
    ∃ l : List Nat, sampleTimes (takeSample n a b ph amp t fresh dp ref s) n = (t :: l).take 64 := by
  unfold takeSample
  extract_lets x fault u fine1 prev natural jump off p wasValid inside valid v pPrev iv y w z q c r
  have hw : sampleTimes w n = (t :: y.samples.map EncSample.t).take 64 := by
    rw [sampleTimes, encOf_putEnc_self, List.map_take]
    rfl
  have hz : sampleTimes z n = sampleTimes w n := sampleTimes_congr rfl n
  have hq : sampleTimes q n = sampleTimes z n := by
    show sampleTimes (if _ then _ else _) n = _
    split
    · exact sampleTimes_putEnc rfl
    · rfl
  have hc : sampleTimes c n = sampleTimes q n := by
    show sampleTimes (if _ then _ else _) n = _
    split
    · rfl
    · exact sampleTimes_autocal _ _ _ _ _ _ _
  have hr : sampleTimes r n = sampleTimes c n := by
    show sampleTimes (if _ then _ else _) n = _
    split
    · exact sampleTimes_markSample _ _ _ _ _
    · rfl
  refine ⟨y.samples.map EncSample.t, ?_⟩
  clear_value r c q z w
  have hall : sampleTimes r n = (t :: y.samples.map EncSample.t).take 64 := by rw [hr, hc, hq, hz, hw]
  split
  · exact (sampleTimes_congr (setSticky_pos _ _ _ _) n).trans hall
  · exact hall

/-! ### The steps of a channel -/

theorem encSample_of_free {n : Nat} {si co re : Int} {t : Nat} {s : State} (hon : isOn s Oid.posEnable n = true)
    (hret : isOn s Oid.posRetired n = false) (hheld : (encOf s n).held = none) :
    ∃ (x : EncX) (fresh ref : Bool) (dp : Int), encSample n si co re t s =
      takeSample n (correctTracks s n si co).1 (correctTracks s n si co).2
        (phaseAmp (correctTracks s n si co).1 (correctTracks s n si co).2).1
        (phaseAmp (correctTracks s n si co).1 (correctTracks s n si co).2).2 t fresh dp ref
        (putEnc n x (putObj Oid.posAmplitude n (phaseAmp (correctTracks s n si co).1 (correctTracks s n si co).2).2
          (putObj Oid.posPhase n (phaseAmp (correctTracks s n si co).1 (correctTracks s n si co).2).1 s))) := by
  unfold encSample
  rw [if_neg (by rw [hon, hret]; decide)]
  extract_lets c pa u x high gate ref w fresh d
  have hx : x.held = none := hheld
  rw [hx]
  exact ⟨_, _, _, _, rfl⟩

theorem unitsOf_congr {s u : State} (h : ∀ i, getObj u Oid.posCmpChannel i = getObj s Oid.posCmpChannel i) (n : Nat) :
    unitsOf u n = unitsOf s n := by simp only [unitsOf, h]

theorem getObj_crossing {id : Nat} (hid : id ∉ [Oid.posCrossings, Oid.posDir, Oid.posReversals, Oid.posSpeedMethod, Oid.posSpeedValid,
    Oid.posSpeed]) (n idx : Nat) (tx : Int) (down : Bool) (s : State) : getObj (crossing n tx down s) id idx = getObj s id idx := by
  have w : ∀ x ∈ [Oid.posCrossings, Oid.posDir, Oid.posReversals, Oid.posSpeedMethod, Oid.posSpeedValid, Oid.posSpeed], x ≠ id :=
    fun x hx => ne_of_mem_of_not_mem hx hid
  unfold crossing
  extract_lets x u
  have hu : getObj u id idx = getObj s id idx := getObj_bump_ne (w _ (by decide))
  clear_value u
  cases x.lastX with
  | none =>
    dsimp only
    rw [getObj_putEnc, getObj_putObj_ne (w _ (by decide)), hu]
  | some l =>
    dsimp -zeta only
    split
    · rw [getObj_putEnc, getObj_bump_ne (w _ (by decide)), getObj_putObj_ne (w _ (by decide)), getObj_putObj_ne (w _ (by decide)),
        getObj_putObj_ne (w _ (by decide)), putInt, getObj_putObj_ne (w _ (by decide)), hu]
    · extract_lets dt v a b
      have ha : getObj a id idx = getObj v id idx := getObj_putObj_ne (w _ (by decide))
      have hb : getObj b id idx = getObj a id idx := by
        show getObj (if _ then _ else _) id idx = _
        split
        · exact getObj_putObj_ne (w _ (by decide))
        · rfl
      have hv : getObj v id idx = getObj u id idx := getObj_putEnc _ _ _ _ _
      clear_value b a v
      split
      · rw [hv, hu]
      · split
        · rw [getObj_putObj_ne (w _ (by decide)), hb, ha, hv, hu]
        · rw [hb, ha, hv, hu]

theorem unitsOf_takeCrossing (n m : Nat) (v : EncInterval) (s : State) : unitsOf (takeCrossing n v s) m = unitsOf s m := by
  refine unitsOf_congr (fun i => ?_) m
  unfold takeCrossing
  cases v.cross with
  | none => rfl
  | some c => exact getObj_crossing (by decide) _ _ _ _ _

theorem sampleDue_cons {s : State} {n : Nat} {v : EncInterval} {l : List EncInterval} (h : (encOf s n).pend = v :: l) :
    sampleDue s n = decide (tNanos v.t + 200 ≤ tNanos (now s)) := by rw [sampleDue, h]

theorem evalChannel_cons {s : State} {n : Nat} {v : EncInterval} {l : List EncInterval} (h : (encOf s n).pend = v :: l) :
    evalChannel n s = (
      let w := (unitsOf s n).foldl (fun s u => evalUnit v u s) (takeCrossing n v (putEnc n { encOf s n with pend := l } s))
      let w := putEnc n { encOf w n with shown := v.after } w
      answerAll n (if v.jumped then jumpBehind n w else w)) := by
  unfold evalChannel
  rw [h]
  dsimp only
  rw [unitsOf_takeCrossing]
  rfl

theorem runs_of {s : State} (h : s.modes.current ≠ .cold) : pfuRuns s = true := by simp [pfuRuns, h]

/-- Settles O49, each event over the state that it meets. -/
theorem positionFeedback : Obligations.PositionFeedback := by
  refine ⟨?sample, ?off, ?compare, ?early, ?unarmed, fun _ _ _ _ => rfl, ?still, ?moving, ?speed, ?edge, ?noEdge⟩
  case sample =>
    intro n si co re half s hcold hon hret hheld c
    obtain ⟨x, fresh, ref, dp, hstep⟩ := encSample_of_free (si := si.toInt) (co := co.toInt) (re := re.toInt)
      (t := sampleInstant s half) hon hret hheld
    have htimes : ∃ l, sampleTimes (encSample n.val si.toInt co.toInt re.toInt (sampleInstant s half) s) n.val =
        (sampleInstant s half :: l).take 64 := by
      rw [hstep]
      exact sampleTimes_takeSample _ _ _ _ _ _ _ _ _ _
    refine ⟨encSample n.val si.toInt co.toInt re.toInt (sampleInstant s half) s, ?_, ?_, ?_, and_assoc.mp ⟨?_, ?_⟩⟩
    · show execEncoderSample n si co re half s = _
      rw [execEncoderSample, runs_of hcold, if_pos rfl]
    · rw [hstep, getObj_takeSample (by decide), getObj_putEnc, getObj_putObj_ne (by decide), getObj_putObj_self]
    · rw [hstep, getObj_takeSample (by decide), getObj_putEnc, getObj_putObj_self]
    · obtain ⟨l, hl⟩ := htimes
      cases hsamples : (encOf (encSample n.val si.toInt co.toInt re.toInt (sampleInstant s half) s) n.val).samples with
      | nil =>
        rw [sampleTimes, hsamples] at hl
        exact absurd hl (by simp)
      | cons e r =>
        refine ⟨⟨e, r, rfl, ?_⟩, ?_⟩
        · rw [sampleTimes, hsamples] at hl
          have := congrArg List.head? hl
          simpa [sampleInstant] using this
        · have := congrArg List.length hl
          rw [sampleTimes, hsamples, List.length_map, List.length_take] at this
          omega
    · exact encSample_rests (P := fun _ _ m => m = s.mem) (s := s) (by exact (rfl : s.mem = s.mem))
  case off =>
    intro n si co re half s h
    show execEncoderSample n si co re half s = _
    have hstep : encSample n.val si.toInt co.toInt re.toInt (sampleInstant s half) s = s := by
      unfold encSample
      rcases h with h | h
      · rw [h]; rfl
      · rw [h, Bool.or_true, if_pos rfl]
    rw [execEncoderSample, hstep, ite_self]
  case compare =>
    intro n s v l hcold hret hpend hdue
    show execPositionCompare n s = _
    rw [execPositionCompare, runs_of hcold, hret, sampleDue_cons hpend, decide_eq_true hdue, evalChannel_cons hpend]
    rfl
  case early =>
    intro n s h
    show execPositionCompare n s = _
    have hdue : sampleDue s n.val = false := by
      cases hpend : (encOf s n.val).pend with
      | nil => rw [sampleDue, hpend]
      | cons v l => rw [sampleDue_cons hpend, decide_eq_false (by have := h v l hpend; omega)]
    rw [execPositionCompare, hdue, Bool.and_false, if_neg (by decide)]
  case unarmed =>
    intro v u s h
    unfold evalUnit
    rw [if_pos]
    rcases h with h | h <;> simp [h]
  case still =>
    intro n s hcold hpend hstill
    refine ⟨standstill n.val s, ?_, ?_, ?_, ?_, ?_, rfl⟩
    · show execStandstillTimeout n s = _
      rw [execStandstillTimeout, runs_of hcold, if_pos rfl, hpend]
      show Host.Outcome.next (if stoodStill s n.val then _ else _) = _
      rw [if_pos hstill]
      rfl
    · rw [getInt, standstill, getObj_putEnc, getObj_putObj_ne (by decide), getObj_putObj_ne (by decide), putInt, getObj_putObj_self]
      decide
    · rw [standstill, getObj_putEnc, getObj_putObj_ne (by decide), getObj_putObj_self]
    · rw [standstill, getObj_putEnc, getObj_putObj_self]
    · rw [standstill, getObj_putEnc, getObj_putObj_ne (by decide), getObj_putObj_ne (by decide), putInt, getObj_putObj_ne (by decide)]
  case moving =>
    intro n s hpend hstill
    show execStandstillTimeout n s = _
    rw [execStandstillTimeout, hpend]
    split
    · show Host.Outcome.next (if stoodStill s n.val then _ else _) = _
      rw [hstill]
      rfl
    · rfl
  case speed =>
    intro n s new l el hcold hon hret hav hm hlast hrun hlt
    show execSpeedUpdate n s = _
    rw [execSpeedUpdate, runs_of hcold, hon, hret, if_pos (by decide)]
    congr 1
    unfold speedUpdate
    rw [hav]
    dsimp only
    rw [getObj_putEnc, hm, if_neg (by decide), hlast]
    dsimp only
    rw [decide_eq_true hrun, decide_eq_true hlt, Bool.true_and, if_pos rfl]
  case edge =>
    intro n s hcold hq hon hret hne hdue o
    let w := putEnc n.val { encOf s n.val with out := o, edgeAt := some (tNanos (now s)) } s
    refine ⟨emit (quadPins w n.val o) w, quadZ w n.val o, ?_, ?_, rfl, ?_⟩
    · show execQuadOutputEdge n s = _
      rw [execQuadOutputEdge, if_neg (by simp [runs_of hcold, hq, hon, hret, hne, hdue])]
    · rw [encOf_congr (emit_pos _ _), encOf_putEnc_self]
    · rw [emit, quadPins]
      rfl
  case noEdge =>
    intro n s h
    show execQuadOutputEdge n s = _
    rw [execQuadOutputEdge, if_pos]
    rcases h with h | h
    · simp [h]
    · simp [h]

end Sys2Proof.Machine
end

section
/-! SUPPORT. Lamp strobes: what a rise, an end and a count keep (O50). -/

namespace Sys2Proof.Machine
open Sys2Proof

/-! ### What a channel holds beside its objects -/

theorem lampX_congr {s u : State} (h : u.lamp = s.lamp) (n : Nat) : lampX u n = lampX s n := by rw [lampX, h, lampX]

theorem lampX_putLamp_self (n : Nat) (x : LampX) (s : State) : lampX (putLamp n x s) n = x := tabGet_put_self

theorem lampX_putLamp_ne {n m : Nat} (h : n ≠ m) (x : LampX) (s : State) : lampX (putLamp n x s) m = lampX s m := tabGet_put_ne h

theorem getObj_putLamp (n : Nat) (x : LampX) (s : State) (id idx : Nat) : getObj (putLamp n x s) id idx = getObj s id idx := rfl

theorem fabObj_putLamp (n : Nat) (x : LampX) (s : State) (id idx : Nat) : fabObj (putLamp n x s) id idx = fabObj s id idx := rfl

theorem fabObj_putObj_ne {id id' i j v : Nat} {s : State} (h : id ≠ id') : fabObj (putObj id i v s) id' j = fabObj s id' j :=
  fabObj_congr (by rw [putObj_fab]) (getObj_putObj_ne h)

theorem fabObj_setSticky_ne {id id' i j m : Nat} {s : State} (h : id ≠ id') : fabObj (setSticky id i m s) id' j = fabObj s id' j :=
  fabObj_congr (by rw [setSticky_fab]) (getObj_setSticky_ne h)

theorem lampFault_lamp (n cause : Nat) (s : State) : (lampFault n cause s).lamp = s.lamp := by
  unfold lampFault
  split
  · unfold lampFaultAgain
    extract_lets old u r
    split
    · exact setSticky_lamp _ _ _ s
    split
    · exact (setSticky_lamp _ _ _ _).trans ((recordFault_lamp _ _ _ _).trans rfl)
    split
    · exact (putObj_lamp _ _ _ _).trans ((relabelFault_lamp _ _ _ _ _).trans rfl)
    · exact setSticky_lamp _ _ _ s
  · extract_lets u r
    have hr : r.1.lamp = s.lamp := (recordFault_lamp _ _ _ u).trans ((fire_lamp _ _).trans rfl)
    clear_value r
    split
    · rw [setSticky_lamp, hr]
    · exact hr

theorem lampFault_modes (n cause : Nat) (s : State) : (lampFault n cause s).modes = s.modes :=
  lampFault_rests (P := fun m _ _ => m = s.modes) (s := s) (by exact (rfl : s.modes = s.modes))

/-! ### A pulse in progress stays as it is -/

/-- The pulse, the consumer's hold and the end of its gap. -/
def pulseOf (s : State) (n : Nat) : Option (Nat × Nat × Nat) × Bool × Nat := ((lampX s n).lit, (lampX s n).busy, (lampX s n).free)

theorem pulseOf_congr {s u : State} (h : u.lamp = s.lamp) (n : Nat) : pulseOf u n = pulseOf s n := by
  rw [pulseOf, lampX_congr h, pulseOf]

theorem pulseOf_putLamp {n : Nat} {x : LampX} {s : State} (h : (x.lit, x.busy, x.free) = pulseOf s n) :
    pulseOf (putLamp n x s) n = pulseOf s n := by rw [pulseOf, lampX_putLamp_self, h]

theorem writeRecord_lamp (n c : Nat) (s : State) : (writeRecord n c s).lamp = s.lamp := emit_lamp _ s

theorem pulseOf_startWriteback (n c : Nat) (s : State) : pulseOf (startWriteback n c s) n = pulseOf s n := by
  have hput : ∀ x : LampX, (x.lit, x.busy, x.free) = pulseOf s n → pulseOf (putLamp n x s) n = pulseOf s n := fun _ h => pulseOf_putLamp h
  unfold startWriteback
  extract_lets x
  split
  · exact hput _ rfl
  split
  · exact (pulseOf_congr (writeRecord_lamp _ _ _) n).trans (hput _ rfl)
  split
  · exact (pulseOf_congr (startStore_lamp _ _) n).trans (hput _ rfl)
  · rfl

/-- What `checkLife` writes into the channel: the marks of the warning and of the stop limit. -/
theorem lampX_checkLife (n : Nat) (s : State) :
    ∃ a b, lampX (checkLife n s) n = { lampX s n with warned := a, ended := b } := by
  unfold checkLife
  extract_lets c x u y
  have hu : ∃ a, lampX u n = { x with warned := a } := by
    dsimp only [u]
    split
    · refine ⟨true, ?_⟩
      rw [lampX_congr (fire_lamp _ _), lampX_congr (setSticky_lamp _ _ _ _), lampX_putLamp_self]
    · exact ⟨x.warned, rfl⟩
  obtain ⟨a, hu⟩ := hu
  clear_value u
  split
  · refine ⟨a, true, ?_⟩
    rw [lampX_congr (fire_lamp _ _), lampX_congr (setSticky_lamp _ _ _ _), lampX_putLamp_self]
    show { lampX u n with ended := true } = _
    rw [hu]
  · exact ⟨a, x.ended, hu⟩

theorem pulseOf_checkLife (n : Nat) (s : State) : pulseOf (checkLife n s) n = pulseOf s n := by
  obtain ⟨a, b, h⟩ := lampX_checkLife n s
  rw [pulseOf, h, pulseOf]

theorem getObj_checkLife {id : Nat} (h1 : Oid.lampStatus ≠ id) (h2 : Oid.eventsSrcCount ≠ id) (h3 : Oid.eventsVecSent ≠ id)
    (n idx : Nat) (s : State) : getObj (checkLife n s) id idx = getObj s id idx := by
  unfold checkLife
  extract_lets c x u y
  have hu : getObj u id idx = getObj s id idx := by
    show getObj (if _ then _ else _) id idx = _
    split
    · rw [getObj_fire h2 h3, getObj_setSticky_ne h1, getObj_putLamp]
    · rfl
  clear_value u
  split
  · rw [getObj_fire h2 h3, getObj_setSticky_ne h1, getObj_putLamp, hu]
  · exact hu

theorem sent_checkLife {m : Emission} {n : Nat} {s : State} (h : m ∈ s.out) : m ∈ (checkLife n s).out := by
  unfold checkLife
  extract_lets c x u y
  have hu : m ∈ u.out := by
    show m ∈ (if _ then _ else _ : State).out
    split
    · exact sent_fire (by rw [setSticky_out]; exact h)
    · exact h
  clear_value u
  split
  · exact sent_fire (by rw [setSticky_out]; exact hu)
  · exact hu

theorem startWriteback_objs (n c : Nat) (s : State) : (startWriteback n c s).objs = s.objs := by
  unfold startWriteback
  extract_lets x
  split
  · rfl
  split
  · rfl
  split
  · exact startStore_objs _ _
  · rfl

theorem sent_startWriteback {m : Emission} {n c : Nat} {s : State} (h : m ∈ s.out) : m ∈ (startWriteback n c s).out := by
  unfold startWriteback
  extract_lets x
  split
  · exact h
  split
  · exact sent_emit h
  split
  · rw [startStore_out]; exact h
  · exact h

/-! ### A count keeps the pulse -/

/-- The write-back that a count starts (R470). -/
def flashWritten (n : Nat) (s : State) : State :=
  if (getObj s Oid.lampFlashes n + 4096) % 65536 = 0 then startWriteback n (getObj s Oid.lampFlashes n + 4096) s else s

theorem countFlash_eq (n : Nat) (s : State) : countFlash n s =
    (let w := checkLife n (flashWritten n (bump Oid.lampFlashes n s)); if lampHeld w n then setSticky Oid.lampStatus n 0x100 w else w) := rfl

theorem flashWritten_objs (n : Nat) (s : State) : (flashWritten n s).objs = s.objs := by
  unfold flashWritten
  split
  · exact startWriteback_objs _ _ _
  · rfl

theorem pulseOf_flashWritten (n : Nat) (s : State) : pulseOf (flashWritten n s) n = pulseOf s n := by
  unfold flashWritten
  split
  · exact pulseOf_startWriteback _ _ _
  · rfl

theorem sent_flashWritten {m : Emission} {n : Nat} {s : State} (h : m ∈ s.out) : m ∈ (flashWritten n s).out := by
  unfold flashWritten
  split
  · exact sent_startWriteback h
  · exact h

theorem countFlash_spec (n : Nat) (s : State) : pulseOf (countFlash n s) n = pulseOf s n ∧
    getObj (countFlash n s) Oid.lampFlashes n = (getObj s Oid.lampFlashes n + 1) % 2 ^ objBits Oid.lampFlashes ∧
    (∀ m ∈ s.out, m ∈ (countFlash n s).out) := by
  rw [countFlash_eq]
  extract_lets w
  have hpulse : pulseOf w n = pulseOf s n := (pulseOf_checkLife _ _).trans ((pulseOf_flashWritten _ _).trans (pulseOf_congr (bump_lamp _ _ _) n))
  have hcount : getObj w Oid.lampFlashes n = (getObj s Oid.lampFlashes n + 1) % 2 ^ objBits Oid.lampFlashes :=
    (getObj_checkLife (by decide) (by decide) (by decide) n n _).trans
      ((getObj_congr (flashWritten_objs _ _) _ _).trans (getObj_bump_self _ _ _))
  have hout : ∀ m ∈ s.out, m ∈ w.out := fun m h => sent_checkLife (sent_flashWritten (by rw [bump_out]; exact h))
  clear_value w
  split
  · exact ⟨(pulseOf_congr (setSticky_lamp _ _ _ _) n).trans hpulse, (getObj_setSticky_ne (by decide)).trans hcount,
      fun m h => by rw [setSticky_out]; exact hout m h⟩
  · exact ⟨hpulse, hcount, hout⟩

/-! ### Strobes (R464 to R466, R473) -/

/-- A strobe that lights at an edge: the state as its source fires. -/
def strobeLit (n e w g : Nat) (s : State) : State :=
  emit (.strobe n e true) (putLamp n { lampX s n with
    lit := some (e, tAddNs e w, w), length := w, peakDue := true, busy := true, free := tAddNs e g } s)

theorem strobeLit_spec (n e w g : Nat) (s : State) :
    pulseOf (strobeLit n e w g s) n = (some (e, tAddNs e w, w), true, tAddNs e g) ∧
    getObj (strobeLit n e w g s) Oid.lampFlashes n = getObj s Oid.lampFlashes n ∧ .strobe n e true ∈ (strobeLit n e w g s).out := by
  refine ⟨?_, rfl, ?_⟩
  · rw [strobeLit, pulseOf_congr (emit_lamp _ _), pulseOf, lampX_putLamp_self]
  · rw [strobeLit, emit]
    exact List.mem_append_right _ (List.mem_singleton.mpr rfl)

/-- A sticky bit set in one case only changes its own object. -/
theorem setSticky_if (p : Prop) [Decidable p] (id idx m : Nat) (s : State) :
    (∀ id', id ≠ id' → ∀ j, getObj (if p then setSticky id idx m s else s) id' j = getObj s id' j) ∧
    (if p then setSticky id idx m s else s).fab = s.fab ∧ (if p then setSticky id idx m s else s).lamp = s.lamp := by
  split
  · exact ⟨fun id' h j => getObj_setSticky_ne h, setSticky_fab _ _ _ _, setSticky_lamp _ _ _ _⟩
  · exact ⟨fun _ _ _ => rfl, rfl, rfl⟩

/-- What a rise records first: an edge that comes late, and a width cut to the maximum. -/
def riseNoted (c n : Nat) (late : Bool) (s : State) : State :=
  let s := if late then setSticky Oid.eventsChStatus c 0x10 s else s
  if lampMaxWidth s n < fabObj s Oid.lampWidthNs n then setSticky Oid.lampStatus n 0x200 s else s

theorem riseNoted_spec (c n : Nat) (late : Bool) (s : State) :
    (∀ id, Oid.eventsChStatus ≠ id → Oid.lampStatus ≠ id → ∀ idx, getObj (riseNoted c n late s) id idx = getObj s id idx) ∧
    (riseNoted c n late s).fab = s.fab ∧ (riseNoted c n late s).lamp = s.lamp := by
  unfold riseNoted
  extract_lets u
  obtain ⟨huo, huf, hul⟩ := setSticky_if (late = true) Oid.eventsChStatus c 0x10 s
  obtain ⟨hvo, hvf, hvl⟩ := setSticky_if (lampMaxWidth u n < fabObj u Oid.lampWidthNs n) Oid.lampStatus n 0x200 u
  exact ⟨fun id h1 h2 idx => (hvo id h2 idx).trans (huo id h1 idx), hvf.trans huf, hvl.trans hul⟩

theorem strobeOccurrence_ready {c n : Nat} {o : Occ} {s : State} (h : lampState s n = 1) :
    strobeOccurrence c n o s = (let u := riseNoted c n (pinEdge s o.due).2 s
      countFlash n (fire (0x090 + n) (strobeLit n (pinEdge s o.due).1 (pulseWidth s n) (pulseGap u n (pulseWidth s n)) u))) := by
  unfold strobeOccurrence
  rw [if_neg (by rw [h]; decide)]
  simp only [strobeLit, riseNoted]

theorem pulseGap_congr {s u : State} (hobj : ∀ id, Oid.eventsChStatus ≠ id → Oid.lampStatus ≠ id → ∀ idx, getObj u id idx = getObj s id idx)
    (hfab : u.fab = s.fab) (hlamp : u.lamp = s.lamp) (n w : Nat) : pulseGap u n w = pulseGap s n w := by
  rw [pulseGap, pulseGap, lampDuty, lampDuty, lampX_congr hlamp, hobj _ (by decide) (by decide),
    fabObj_congr (congrArg _ hfab) (hobj _ (by decide) (by decide) n)]

theorem pulseWidth_le (s : State) (n : Nat) : pulseWidth s n ≤ max 8 (min (fabObj s Oid.lampWidthNs n) (lampMaxWidth s n)) := by
  unfold pulseWidth
  extract_lets w
  split
  · exact Nat.le_max_right _ _
  · have hle := Nat.div_mul_le_self w 8
    omega

theorem strobeOff_lit {n t : Nat} {s : State} {on off w : Nat} (h : (lampX s n).lit = some (on, off, w)) :
    strobeOff n t s = emit (.strobe n t false) (putLamp n
      { lampX s n with lit := none, endTick := some s.time.ticks, length := min w (tNanos t - tNanos on) } s) := by
  unfold strobeOff
  extract_lets x
  have hx : x.lit = some (on, off, w) := h
  rw [hx]

theorem pulsePeak_eq (n mv : Nat) (s : State) : pulsePeak n mv s =
    (let u := putObj Oid.lampLastPeakMa n (lampCurrent s n mv) (putLamp n { lampX s n with peakDue := false } s)
     if fabObj s Oid.lampOpenMinMa n ≠ 0 ∧ 1000 ≤ (lampX s n).length ∧ lampCurrent s n mv < fabObj s Oid.lampOpenMinMa n
     then lampFault n 3 u else u) := by
  have hleast : fabObj (putObj Oid.lampLastPeakMa n (lampCurrent s n mv) (putLamp n { lampX s n with peakDue := false } s)) Oid.lampOpenMinMa n =
      fabObj s Oid.lampOpenMinMa n := fabObj_putObj_ne (by decide)
  unfold pulsePeak
  dsimp only
  rw [hleast]

/-- Settles O50, by the laws of a lit strobe and of its end. -/
theorem strobes : Obligations.Strobes := by
  refine ⟨?noOcc, ?occ, pulseWidth_le, ?pulse, ?peak, fun n t s on off w h => strobeOff_lit h, ?weak, ?gap, ?noGap⟩
  case noOcc =>
    intro n s h
    show execStrobeDelivery n s = _
    rw [execStrobeDelivery, h]
  case occ =>
    intro n s c o h w
    have hexec : exec (.strobeDelivery n) s = .next (strobeOccurrence c n.val o w) := by
      show execStrobeDelivery n s = _
      rw [execStrobeDelivery, h]
    refine ⟨fun hstate => ?_, fun hstate => ?_⟩
    · rw [hexec, strobeOccurrence, if_pos hstate]
    · have hstep := strobeOccurrence_ready (c := c) (o := o) hstate
      obtain ⟨hobj, hfab, hlamp⟩ := riseNoted_spec c n.val (pinEdge w o.due).2 w
      generalize riseNoted c n.val (pinEdge w o.due).2 w = u at hobj hfab hlamp hstep
      generalize (pinEdge w o.due).1 = e at hstep
      dsimp only at hstep
      rw [pulseGap_congr hobj hfab hlamp] at hstep
      obtain ⟨hpulse, hcount, hout⟩ := strobeLit_spec n.val e (pulseWidth w n.val) (pulseGap w n.val (pulseWidth w n.val)) u
      obtain ⟨hpulse', hcount', hout'⟩ := countFlash_spec n.val
        (fire (0x090 + n.val) (strobeLit n.val e (pulseWidth w n.val) (pulseGap w n.val (pulseWidth w n.val)) u))
      rw [← hstep, pulseOf_congr (fire_lamp _ _), hpulse] at hpulse'
      rw [← hstep, getObj_fire (by decide) (by decide), hcount, hobj _ (by decide) (by decide)] at hcount'
      rw [← hstep] at hout'
      obtain ⟨hlit, hrest⟩ := Prod.mk.inj hpulse'
      obtain ⟨hbusy, hfree⟩ := Prod.mk.inj hrest
      refine ⟨_, e, _, hexec, hout' _ (sent_fire hout), hlit, hbusy, rfl, hfree, hcount', ?_⟩
      exact strobeOccurrence_rests (P := fun _ _ m => m = s.mem) (s := w) (by exact (rfl : s.mem = s.mem))
  case pulse =>
    intro n mv s on off w h
    have hexec : exec (.pulseEnd n mv) s =
        .next (if off ≤ nextTickTime s then pulsePeak n.val mv.toNat (strobeOff n.val off s) else s) := by
      show execPulseEnd n mv s = _
      rw [execPulseEnd, h]
    exact ⟨fun hlt => by rw [hexec, if_neg (by omega)], fun hle => by rw [hexec, if_pos hle]⟩
  case peak =>
    intro n mv s h
    show execPulseEnd n mv s = _
    rw [execPulseEnd, h]
  case weak =>
    intro n mv s ma u least
    refine ⟨fun h => ?_, fun h1 h2 h3 => ?_⟩
    · rw [pulsePeak_eq, if_neg (by rintro ⟨h1, h2, h3⟩; rcases h with h | h | h; exact h1 h; omega; exact absurd h3 (Nat.not_lt.mpr h))]
      rfl
    · rw [pulsePeak_eq, if_pos ⟨h1, h2, h3⟩]
      rfl
  case gap =>
    intro n s hlit hfree
    show execStrobeGapEnd n s = _
    unfold execStrobeGapEnd
    dsimp only
    rw [hlit, decide_eq_false (by omega)]
    rfl
  case noGap =>
    intro n s h
    show execStrobeGapEnd n s = _
    unfold execStrobeGapEnd
    rw [if_pos]
    rcases h with h | h
    · rw [h, Bool.true_or]
    · rw [decide_eq_true h, Bool.or_true]

end Sys2Proof.Machine
end

section
/-! SUPPORT. Interlocks, head polls and write-backs of the lamp heads (O51). -/

namespace Sys2Proof.Machine
open Sys2Proof

/-! ### Strobes turned off -/

theorem strobeOff_dark {n t : Nat} {s : State} (h : (lampX s n).lit = none) : strobeOff n t s = s := by
  unfold strobeOff
  extract_lets x
  have hx : x.lit = none := h
  rw [hx]

theorem strobeOff_objs (n t : Nat) (s : State) : (strobeOff n t s).objs = s.objs := by
  unfold strobeOff
  extract_lets x
  cases x.lit with
  | none => rfl
  | some e => rfl

theorem lampX_strobeOff_ne {n m : Nat} (h : n ≠ m) (t : Nat) (s : State) : lampX (strobeOff n t s) m = lampX s m := by
  cases hlit : (lampX s n).lit with
  | none => rw [strobeOff_dark hlit]
  | some e =>
    obtain ⟨on, off, w⟩ := e
    rw [strobeOff_lit hlit, lampX_congr (emit_lamp _ _), lampX_putLamp_ne h]

theorem strobeOff_off (n t : Nat) (s : State) : (lampX (strobeOff n t s) n).lit = none := by
  cases hlit : (lampX s n).lit with
  | none => rw [strobeOff_dark hlit, hlit]
  | some e =>
    obtain ⟨on, off, w⟩ := e
    rw [strobeOff_lit hlit, lampX_congr (emit_lamp _ _), lampX_putLamp_self]

/-- A strobe that is dark stays dark when another is turned off. -/
theorem strobeOff_stays {m : Nat} (n t : Nat) {s : State} (h : (lampX s m).lit = none) : (lampX (strobeOff n t s) m).lit = none := by
  by_cases hne : n = m
  · rw [hne, strobeOff_off]
  · rw [lampX_strobeOff_ne hne, h]

/-- A group's strobes, turned off one after another. -/
def groupOff (g : Nat) (l : List Nat) (s : State) : State := l.foldl (fun s i => strobeOff (4 * g + i) (now s) s) s

theorem groupOff_objs (g : Nat) (l : List Nat) : ∀ s, (groupOff g l s).objs = s.objs := by
  induction l with
  | nil => exact fun _ => rfl
  | cons i l ih => exact fun s => (ih _).trans (strobeOff_objs _ _ _)

theorem groupOff_modes (g : Nat) (l : List Nat) : ∀ s, (groupOff g l s).modes = s.modes := by
  induction l with
  | nil => exact fun _ => rfl
  | cons i l ih =>
    intro s
    have hoff : (strobeOff (4 * g + i) (now s) s).modes = s.modes :=
      strobeOff_rests (P := fun m _ _ => m = s.modes) (s := s) (by exact (rfl : s.modes = s.modes))
    exact (ih _).trans hoff

theorem groupOff_stays (g : Nat) (l : List Nat) {m : Nat} : ∀ s, (lampX s m).lit = none → (lampX (groupOff g l s) m).lit = none := by
  induction l with
  | nil => exact fun _ h => h
  | cons i l ih => exact fun s h => ih _ (strobeOff_stays _ _ h)

theorem groupOff_dark (g : Nat) (l : List Nat) : ∀ s, ∀ i ∈ l, (lampX (groupOff g l s) (4 * g + i)).lit = none := by
  induction l with
  | nil => exact fun s i h => absurd h (by simp)
  | cons j l ih =>
    intro s i h
    rcases List.mem_cons.mp h with h | h
    · rw [h]
      exact groupOff_stays g l _ (strobeOff_off _ _ _)
    · exact ih _ i h

/-! ### Interlocks (R472) -/

/-- Adding a power of two to a number without that bit changes no other bit. -/
theorem testBit_two_pow_add_ne {i j x : Nat} (hx : x.testBit i = false) (h : j ≠ i) : (2 ^ i + x).testBit j = x.testBit j := by
  rcases Nat.lt_or_gt_of_ne h with hlt | hgt
  · exact Nat.testBit_two_pow_add_gt hlt x
  · have hlow : x / 2 ^ i % 2 = 0 := by
      rw [Nat.testBit_eq_decide_div_mod_eq, decide_eq_false_iff_not] at hx
      omega
    have hdiv : (2 ^ i + x) / 2 ^ (i + 1) = x / 2 ^ (i + 1) := by
      rw [Nat.pow_succ, ← Nat.div_div_eq_div_mul, ← Nat.div_div_eq_div_mul, Nat.add_div_left _ (Nat.two_pow_pos i)]
      omega
    have hbit : ∀ v : Nat, v.testBit j = (v / 2 ^ (i + 1)).testBit (j - (i + 1)) := fun v => by
      rw [Nat.testBit_div_two_pow]
      congr 1
      omega
    rw [hbit, hdiv, ← hbit]

theorem testBit_clrBit_self (v i : Nat) : (clrBit v i).testBit i = false := by
  unfold clrBit
  split
  · next h =>
    have hadd : 2 ^ i + (v - 2 ^ i) = v := Nat.add_sub_cancel' (Nat.ge_two_pow_of_testBit h)
    have := Nat.testBit_two_pow_add_eq (v - 2 ^ i) i
    rw [hadd, h] at this
    simpa using this.symm
  · next h => simpa using h

theorem testBit_clrBit_ne {v i j : Nat} (h : j ≠ i) : (clrBit v i).testBit j = v.testBit j := by
  have hself := testBit_clrBit_self v i
  unfold clrBit at hself ⊢
  split
  · next hbit =>
    rw [if_pos hbit] at hself
    rw [← testBit_two_pow_add_ne hself h, Nat.add_sub_cancel' (Nat.ge_two_pow_of_testBit hbit)]
  · rfl

theorem execInterlockFall_eq (g : Fin 4) (s : State) : execInterlockFall g s =
    (let s := groupOff g.val (List.range 4) s
     if s.modes.current = .cold || !(getObj s Oid.lampIntlkLevel).testBit g.val then .next s
     else .next (fire (0x0B0 + g.val) (bump Oid.lampIntlkChanges g.val
      (putObj Oid.lampIntlkLevel 0 (clrBit (getObj s Oid.lampIntlkLevel) g.val) s)))) := rfl

theorem interlockFall_spec (g : Fin 4) (s : State) : ∃ u, exec (.interlockFall g) s = .next u ∧
    (∀ i, i < 4 → (lampX u (4 * g.val + i)).lit = none) ∧
    (s.modes.current ≠ .cold → (getObj s Oid.lampIntlkLevel).testBit g.val = true →
      (getObj u Oid.lampIntlkLevel).testBit g.val = false ∧
      (∀ b, b ≠ g.val → (getObj u Oid.lampIntlkLevel).testBit b = (getObj s Oid.lampIntlkLevel).testBit b) ∧
      getObj u Oid.lampIntlkChanges g.val = (getObj s Oid.lampIntlkChanges g.val + 1) % 2 ^ objBits Oid.lampIntlkChanges) := by
  have hexec : exec (.interlockFall g) s = execInterlockFall g s := rfl
  have hdark := groupOff_dark g.val (List.range 4) s
  have hobj : ∀ id idx, getObj (groupOff g.val (List.range 4) s) id idx = getObj s id idx :=
    fun id idx => getObj_congr (groupOff_objs _ _ _) id idx
  have hmodes := groupOff_modes g.val (List.range 4) s
  rw [hexec, execInterlockFall_eq]
  generalize groupOff g.val (List.range 4) s = u at hdark hobj hmodes
  dsimp only
  rw [hmodes, hobj]
  split
  · next h =>
    refine ⟨u, rfl, fun i hi => hdark i (List.mem_range.mpr hi), fun hcold hbit => ?_⟩
    rw [hbit] at h
    exact absurd h (by simp [hcold])
  · refine ⟨_, rfl, fun i hi => ?_, fun _ _ => ⟨?_, fun b hb => ?_, ?_⟩⟩
    · rw [lampX_congr (fire_lamp _ _), lampX_congr (bump_lamp _ _ _), lampX_congr (putObj_lamp _ _ _ _)]
      exact hdark i (List.mem_range.mpr hi)
    · rw [getObj_fire (by decide) (by decide), getObj_bump_ne (by decide), getObj_putObj_self, testBit_clrBit_self]
    · rw [getObj_fire (by decide) (by decide), getObj_bump_ne (by decide), getObj_putObj_self, testBit_clrBit_ne hb]
    · rw [getObj_fire (by decide) (by decide), getObj_bump_self, getObj_putObj_ne (by decide), hobj]

/-! ### Head polls (R469, R475) -/

theorem execHeadPoll_runs {n : Lamp} {r : HeadReply} {s : State} (h1 : s.modes.current ≠ .cold) (h2 : s.modes.current ≠ .halt) :
    exec (.headPoll n r) s = .next (checkLife n.val (headPoll n.val r s)) := by
  show execHeadPoll n r s = _
  unfold execHeadPoll
  rw [if_neg (by simp [h1, h2])]

/-- Missed with a head present: fault 1 first, then the third miss takes the head away. -/
theorem headMissed_faulty (n : Nat) (s : State) : headMissed n true s =
    (let u := putLamp n { lampX s n with misses := min 3 ((lampX s n).misses + 1) } (lampFault n 1 s)
     if (lampX s n).misses = 2 then headGone n u else u) := by
  unfold headMissed
  rw [if_pos rfl]
  dsimp only
  rw [lampX_congr (lampFault_lamp n 1 s)]

theorem headGone_gone (n : Nat) (s : State) : (lampX (headGone n s) n).present = false := by
  unfold headGone
  extract_lets x u v
  have hu : (lampX u n).present = false := by rw [lampX_putLamp_self]
  have hv : (lampX v n).present = false := by
    rw [lampX_congr (show v.lamp = u.lamp from (putObj_lamp _ _ _ _).trans ((putObj_lamp _ _ _ _).trans (putObj_lamp _ _ _ _))), hu]
  clear_value v
  split
  · rw [lampX_congr (setSticky_lamp _ _ _ _), hv]
  · exact hv

theorem headFound_same {n : Nat} {m : List Byte} {s : State} (hboot : s.modes.current ≠ .boot) (hp : (lampX s n).present = true)
    (hserial : slice 0x28 16 m = getBlob s Oid.lampHeadSerial n) :
    headFound n m s = putLamp n { lampX s n with misses := 0 } s := by
  unfold headFound
  extract_lets x same u
  rw [if_neg (by simp [hboot]), if_pos (by simp [x, same, hp, hserial])]
  have hu : u = s := if_neg hboot
  clear_value u
  subst hu
  rfl

theorem headFound_new {n : Nat} {m : List Byte} {s : State} (hboot : s.modes.current ≠ .boot) (hp : (lampX s n).present = false) :
    headFound n m s = fire (0x0A0 + n) (setSticky Oid.lampStatus n 0x40 (bump Oid.lampExchanges n (takeHead n m s))) := by
  unfold headFound
  extract_lets x same u
  rw [if_neg (by simp [hboot]), if_neg (by simp [x, hp])]

theorem writebackDone_single {n v : Nat} {s : State} (hwb : (lampX s n).wb = some v) (hnext : (lampX s n).wbNext = none) :
    writebackDone n s = putLamp n { lampX s n with wb := none, wbNext := none, retryAt := none, recB := !(lampX s n).recB, seq := ((lampX s n).seq + 1) % 2 ^ 32, hold := false }
      (bump Oid.lampWritebacks n (putObj Oid.lampStored n v s)) := by
  unfold writebackDone
  dsimp only
  rw [hwb]
  dsimp only
  rw [hnext]
  dsimp only
  rw [Option.isSome_none, Bool.and_false]

theorem execOvercurrent_lit {n : Lamp} {mv : Half} {s : State} {x : Nat × Nat × Nat} {lim : Nat} (hlit : (lampX s n.val).lit = some x)
    (hlim : lampLimit s n.val = some lim) : exec (.overcurrent n mv) s =
      if lim < lampCurrent s n.val mv.toNat then .next (lampFault n.val 4 (putObj Oid.lampLastPeakMa n.val (lampCurrent s n.val mv.toNat)
        (putLamp n.val { lampX (strobeOff n.val (now s) s) n.val with peakDue := false } (strobeOff n.val (now s) s)))) else .next s := by
  show execOvercurrent n mv s = _
  unfold execOvercurrent
  dsimp only
  rw [hlim]
  dsimp only
  rw [hlit, Option.isSome_some, Bool.true_or, Bool.and_true]
  simp only [decide_eq_true_eq]

/-- Settles O51, by the laws of a strobe turned off, of a poll and of a write-back. -/
theorem headsAndInterlocks : Obligations.HeadsAndInterlocks := by
  refine ⟨?excess, fun n t s => strobeOff_off n t s, interlockFall_spec, ?permit, ?written, ?retry, ?missed, ?same, ?new⟩
  case excess =>
    intro n mv s x lim hlit hlim ma
    have hma : lampCurrent s n.val mv.toNat = ma := rfl
    refine ⟨fun h => ?_, fun h => ?_⟩
    · rw [execOvercurrent_lit hlit hlim, hma, if_pos h]
    · rw [execOvercurrent_lit hlit hlim, hma, if_neg (Nat.not_lt.mpr h)]
  case permit =>
    intro g s hcold hbit
    show execInterlockPermit g s = _
    unfold execInterlockPermit
    rw [hbit, if_neg (by simp [hcold])]
  case written =>
    intro n s v hwb hnext hretry hp
    have hstep : ∀ ok, exec (.writebackComplete n ok) s = .next (settleShutdown (if ok then writebackDone n.val s else
        (let u := lampFault n.val 2 s
         let x := lampX u n.val
         if u.modes.current = .halt then putLamp n.val { x with wb := none, wbNext := none } u
         else putLamp n.val { x with retryAt := some (tAddNs (now u) 10000000) } u))) := by
      intro ok
      show execWritebackComplete n ok s = _
      rw [execWritebackComplete]
      unfold writebackComplete
      dsimp only
      rw [hwb, hp, hretry]
      rfl
    refine ⟨?_, fun u hu hhalt => ?_⟩
    · rw [hstep, if_pos rfl, writebackDone_single hwb hnext]
    · rw [hstep, if_neg (by decide), hu]
      dsimp only
      rw [if_neg (by rw [← hu]; exact hhalt)]
  case retry =>
    intro n s v t hwb hretry
    unfold retryWriteback
    dsimp only
    rw [hwb, hretry]
  case missed =>
    intro n s hcold hhalt hp
    have hstep : exec (.headPoll n .noAck) s = .next (checkLife n.val (headMissed n.val true s)) := by
      rw [execHeadPoll_runs hcold hhalt, headPoll, hp]
    refine ⟨fun u hu hm => ?_, fun hm => ⟨_, hstep, ?_⟩⟩
    · have hx : lampX u n.val = lampX s n.val := by rw [hu, lampX_congr (lampFault_lamp _ _ _)]
      rw [hx] at hm ⊢
      rw [hstep, headMissed_faulty, ← hu, Nat.min_eq_right (by omega)]
      dsimp only
      rw [if_neg (by omega)]
    · obtain ⟨a, b, hlife⟩ := lampX_checkLife n.val (headMissed n.val true s)
      rw [hlife, headMissed_faulty]
      dsimp only
      rw [if_pos hm, headGone_gone]
  case same =>
    intro n m s hcold hhalt hboot hp hvalid hserial
    rw [execHeadPoll_runs hcold hhalt, headPoll, if_pos hvalid, headFound_same hboot hp hserial]
  case new =>
    intro n m s hcold hhalt hboot hp hvalid
    rw [execHeadPoll_runs hcold hhalt, headPoll, if_pos hvalid, headFound_new hboot hp]

end Sys2Proof.Machine
end

section
/-! SUPPORT. The host link: interrupt forms, training and BAR2 (O53). -/

namespace Sys2Proof.Machine
open Sys2Proof

/-! ### The interrupt form (R498) -/

/-- The level of INTx rests on the form, the disable bit and the sources' status. -/
theorem intxWanted_masks (s : State) (form : IntForm) (d : Bool) (m : Nat) :
    intxWanted { s with link := { s.link with form := form, intDisable := d, msiMask := m } } =
      intxWanted { s with link := { s.link with form := form, intDisable := d } } := rfl

theorem assertWake_up {s : State} (h : s.link.l2 = false) : assertWake s = s := by
  unfold assertWake
  rw [if_neg (by simp [h])]

/-- INTA as the selection drives it, outside L2. -/
theorem updateIntx_spec {s : State} (h : s.link.l2 = false) :
    (updateIntx s).link = { s.link with l1 := s.link.l1 && intxWanted s == s.fab.intx } ∧ (updateIntx s).fab.intx = intxWanted s ∧
    (updateIntx s).fab.pba = s.fab.pba ∧ (updateIntx s).out = if intxWanted s = s.fab.intx then s.out else s.out ++ [.intx (intxWanted s)] := by
  unfold updateIntx
  split
  · next hw => exact ⟨by rw [hw, beq_self_eq_true, Bool.and_true], hw.symm, rfl, rfl⟩
  · next hw =>
    rw [assertWake_up (by exact h)]
    have hne : (intxWanted s == s.fab.intx) = false := by simpa using hw
    exact ⟨by rw [hne, Bool.and_false]; rfl, rfl, rfl, rfl⟩

/-- Held messages that are sent change neither the link nor INTA. -/
theorem sendHeld_link (vs : List Nat) : ∀ s, (sendHeld vs s).link = s.link ∧ (sendHeld vs s).fab.intx = s.fab.intx := by
  induction vs with
  | nil => exact fun s => ⟨rfl, rfl⟩
  | cons v vs ih =>
    intro s
    obtain ⟨u, hu, hlink, hintx⟩ : ∃ u, sendHeld (v :: vs) s = sendHeld vs u ∧ u.link = s.link ∧ u.fab.intx = s.fab.intx := by
      rw [sendHeld]
      refine ⟨_, rfl, ?_⟩
      split
      · cases hform : s.link.form with
        | none => exact ⟨rfl, rfl⟩
        | intx => exact ⟨rfl, rfl⟩
        | msi n => exact ⟨rfl, rfl⟩
        | msix => exact ⟨rfl, rfl⟩
      · exact ⟨rfl, rfl⟩
    obtain ⟨hl, hi⟩ := ih u
    rw [hu, hl, hi, hlink, hintx]
    exact ⟨rfl, rfl⟩

/-- The state in which a form change drives INTA. -/
def formTaken (form : IntSelect) (disable : Bool) (s : State) : State :=
  updateIntx { s with link := { s.link with form := formOf form, intDisable := disable, msiMask := maskOf form s.link.msiMask } }

/-- A form change in L0 or L1: the link, INTA, and what is sent when no message is held. -/
theorem interruptFormChange_spec {form : IntSelect} {disable : Bool} {s : State} (hs : configServed s = true) (hl2 : s.link.l2 = false) :
    ∃ u, exec (.interruptFormChange form disable) s = .next u ∧
      (let w := intxWanted { s with link := { s.link with form := formOf form, intDisable := disable } }
       u.link = { s.link with form := formOf form, intDisable := disable, msiMask := maskOf form s.link.msiMask, l1 := s.link.l1 && w == s.fab.intx } ∧
       u.fab.intx = w ∧
       ((busStopped s = true ∨ s.fab.pba = []) → u.out = if w = s.fab.intx then s.out else s.out ++ [.intx w])) := by
  obtain ⟨hlink, hintx, hpba, hout⟩ := updateIntx_spec
    (s := { s with link := { s.link with form := formOf form, intDisable := disable, msiMask := maskOf form s.link.msiMask } }) hl2
  rw [intxWanted_masks] at hlink hintx hout
  have hexec : exec (.interruptFormChange form disable) s = .next (if busStopped (formTaken form disable s) then formTaken form disable s
      else sendHeld ((formTaken form disable s).fab.pba.map (fun p => p.1)) (formTaken form disable s)) := by
    show execInterruptFormChange form disable s = _
    rw [execInterruptFormChange, if_pos hs]
    rfl
  have hbus : busStopped (formTaken form disable s) = busStopped s := by rw [busStopped, formTaken, hlink, busStopped]
  change (formTaken form disable s).link = _ at hlink
  change (formTaken form disable s).fab.intx = _ at hintx
  change (formTaken form disable s).fab.pba = _ at hpba
  change (formTaken form disable s).out = _ at hout
  generalize formTaken form disable s = t at hlink hintx hpba hout hexec hbus
  refine ⟨_, hexec, ?_⟩
  intro w
  rw [hbus]
  split
  · exact ⟨hlink, hintx, fun _ => hout⟩
  · next hrun =>
    obtain ⟨hl, hi⟩ := sendHeld_link (t.fab.pba.map (fun p => p.1)) t
    refine ⟨hl.trans hlink, hi.trans hintx, fun h => ?_⟩
    have hnone : s.fab.pba = [] := h.resolve_left hrun
    rw [hpba]
    show (sendHeld (s.fab.pba.map _) t).out = _
    rw [hnone, List.map_nil, sendHeld]
    exact hout

/-! ### Training (R479, R480) -/

theorem linkUp_spec (speed width : Nat) (flit : Bool) (s : State) :
    let code := min speed (getObj s Oid.hostlinkMaxSpeed)
    let u := linkUp speed width flit s
    u.link = { s.link with up := true, form := .intx, l2 := false, wake := false } ∧
    getObj u Oid.hostlinkLinkSpeed = code ∧ getObj u Oid.hostlinkLinkWidth = width ∧
    getObj u Oid.hostlinkFlitMode = (if code = 6 ∨ flit = true ∧ 3 ≤ code then 1 else 0) ∧
    (width < 16 ∨ code < 6 → getObj u Oid.hostlinkStatus = getObj s Oid.hostlinkStatus ||| 1) ∧
    (¬(width < 16 ∨ code < 6) → getObj u Oid.hostlinkStatus = getObj s Oid.hostlinkStatus) := by
  intro code u
  have hflit : b2n (code = 6 || (flit && decide (3 ≤ code))) = if code = 6 ∨ flit = true ∧ 3 ≤ code then 1 else 0 := by
    rw [b2n]
    simp only [Bool.or_eq_true, Bool.and_eq_true, decide_eq_true_eq]
  let b := putObj Oid.hostlinkLinkSpeed 0 code (putObj Oid.hostlinkLinkWidth 0 width
    (putObj Oid.hostlinkFlitMode 0 (b2n (code = 6 || (flit && decide (3 ≤ code)))) s))
  let v := if width < 16 || code < 6 then setSticky Oid.hostlinkStatus 0 1 b else b
  have hu : u.link = { v.link with up := true, form := .intx, l2 := false, wake := false } ∧ u.objs = v.objs := ⟨rfl, rfl⟩
  obtain ⟨hul, huo⟩ := hu
  have hb : getObj b Oid.hostlinkLinkSpeed = code ∧ getObj b Oid.hostlinkLinkWidth = width ∧
      getObj b Oid.hostlinkFlitMode = b2n (code = 6 || (flit && decide (3 ≤ code))) ∧
      getObj b Oid.hostlinkStatus = getObj s Oid.hostlinkStatus := by
    refine ⟨getObj_putObj_self _ _ _ _, ?_, ?_, ?_⟩
    · exact (getObj_putObj_ne (by decide)).trans (getObj_putObj_self _ _ _ _)
    · exact (getObj_putObj_ne (by decide)).trans ((getObj_putObj_ne (by decide)).trans (getObj_putObj_self _ _ _ _))
    · exact (getObj_putObj_ne (by decide)).trans ((getObj_putObj_ne (by decide)).trans (getObj_putObj_ne (by decide)))
  obtain ⟨hspeed, hwidth, hmode, hstatus⟩ := hb
  have hblink : b.link = s.link := rfl
  clear_value b
  rw [hul, getObj_congr huo, getObj_congr huo, getObj_congr huo, getObj_congr huo, ← hflit, ← hmode]
  by_cases h : width < 16 ∨ code < 6
  · have hv : v = setSticky Oid.hostlinkStatus 0 1 b := if_pos (by simpa using h)
    rw [hv, setSticky_link, hblink]
    exact ⟨rfl, (getObj_setSticky_ne (by decide)).trans hspeed, (getObj_setSticky_ne (by decide)).trans hwidth,
      getObj_setSticky_ne (by decide), fun _ => (getObj_setSticky_self _ _ _ _).trans (by rw [hstatus]), fun hn => absurd h hn⟩
  · have hv : v = b := if_neg (by simpa using h)
    rw [hv, hblink]
    exact ⟨rfl, hspeed, hwidth, rfl, fun hy => absurd hy h, fun _ => hstatus⟩

/-! ### BAR2 (R494 to R496) -/

theorem execBar2Access_served {op : Bar2Op} {s : State} (hup : s.link.up = true) (hhit : bar2Hit s op = true) (hserved : bar0Served s = true) :
    exec (.bar2Access op) s = .next (bar2Access op (barAccess s)) := by
  show execBar2Access op s = _
  unfold execBar2Access
  dsimp only
  rw [hup, hhit, hserved]
  rfl

/-- The access is a read, which is answered where it is refused. -/
def reads : Bar2Op → Bool
  | .read _ _ => true
  | .write _ _ _ => false

theorem execBar2Access_unserved {op : Bar2Op} {s : State} (hup : s.link.up = true) (hhit : bar2Hit s op = true) (hserved : bar0Served s = false) :
    exec (.bar2Access op) s = .next (barRefused (reads op) s) := by
  show execBar2Access op s = _
  unfold execBar2Access
  dsimp only
  rw [hup, hhit, hserved]
  cases op with
  | read o len => rfl
  | write o data p => rfl

/-- Bytes that lie below the shadow counters and in no poisoned unit are read as they are. -/
theorem bar2Bytes_clean (s : State) (a n : Nat) : ∀ i, a + i + n ≤ 0x20000000000 → (∀ k, i ≤ k → k < i + n → unitPoisoned s (a + k) = false) →
    bar2Bytes s a i n = (List.range' i n).map (fun k => (readByte s (a + k), false)) := by
  induction n with
  | zero => exact fun i _ _ => rfl
  | succ n ih =>
    intro i hle hclean
    have hbyte : bar2Byte s (a + i) i = (readByte s (a + i), false) := by
      rw [bar2Byte, if_neg (by omega), hclean i (Nat.le_refl i) (by omega), Bool.and_false, if_neg (by decide)]
    rw [bar2Bytes, hbyte, ih (i + 1) (by omega) (fun k h1 h2 => hclean k (by omega) (by omega)), List.range'_succ, List.map_cons]

theorem bar2Access_clean {s : State} {o : BitVec 38} {len : BitVec 13} {a : Nat} (ha : bar2Translate s o.toNat len.toNat false = some a)
    (hle : a + len.toNat ≤ 0x20000000000) (hclean : ∀ n, n < len.toNat → unitPoisoned s (a + n) = false) :
    bar2Access (.read o len) s = emit (.completion ((List.range len.toNat).map (fun n => readByte s (a + n))) false) s := by
  unfold bar2Access
  dsimp only
  rw [ha]
  dsimp only
  rw [bar2Bytes_clean s a len.toNat 0 (by omega) (fun k _ h => hclean k (by omega)), List.any_map, List.map_map, ← List.range_eq_range']
  have hgood : (List.range len.toNat).any ((fun b : Byte × Bool => b.2) ∘ fun k => (readByte s (a + k), false)) = false :=
    List.any_eq_false.mpr (fun _ _ => Bool.false_ne_true)
  rw [hgood, if_neg (by decide)]
  rfl

/-- Settles O53, by the laws of the interrupt form, of training and of a BAR2 access. -/
theorem linkFormsAndWindows : Obligations.LinkFormsAndWindows := by
  refine ⟨⟨fun _ => rfl, ?train, ?stay, ?l1, ?noL1, fun _ => rfl, fun form disable s hs hl2 => interruptFormChange_spec hs hl2, ?mask,
    ?part, ?partRefused⟩, ?write, ?writeOut, ?poison, ?read, ?readOut, ?miss, ?unread, ?unwritten⟩
  case train =>
    intro speed width flit s hcold hperst hup code
    have hexec : exec (.linkUp speed width flit) s = .next (linkUp (speed.val + 1) (2 ^ width.val) flit s) := by
      show execLinkUp speed width flit s = _
      rw [execLinkUp, if_neg (by simp [hcold, hperst, hup])]
    exact ⟨_, hexec, linkUp_spec _ _ _ _⟩
  case stay =>
    intro speed width flit s h
    show execLinkUp speed width flit s = _
    rw [execLinkUp, if_pos (by simpa [or_assoc] using h)]
  case l1 =>
    intro s hmode hup hl1
    show execL1Entry s = _
    rw [execL1Entry, if_pos (by simp [hmode, hup, hl1])]
  case noL1 =>
    intro s h
    show execL1Entry s = _
    rw [execL1Entry, if_neg (by rcases h with h | h <;> simp [h])]
  case mask =>
    intro k m s hs hl2
    obtain ⟨u, hu, hlink, -⟩ := interruptFormChange_spec (form := .msi k m) (disable := false) hs hl2
    exact ⟨u, hu, by rw [hlink]; rfl⟩
  case part =>
    intro s hs
    show execBar0PartialWrite s = _
    rw [execBar0PartialWrite, if_pos hs]
  case partRefused =>
    intro s hs
    show execBar0PartialWrite s = _
    rw [execBar0PartialWrite, hs, if_neg (by decide)]
  case write =>
    intro o data s a hup hhit hserved ha hdead
    refine ⟨writePerformed a data (barAccess s), ?_, readByte_writePerformed hdead⟩
    rw [execBar2Access_served hup hhit hserved]
    unfold bar2Access
    dsimp only
    rw [if_neg (by decide), ha]
  case writeOut =>
    intro o data s hup hhit hserved ha
    rw [execBar2Access_served hup hhit hserved]
    unfold bar2Access
    dsimp only
    rw [if_neg (by decide), ha]
  case poison =>
    intro o data s hup hhit hserved
    rw [execBar2Access_served hup hhit hserved]
    rfl
  case read =>
    intro o len s a hup hhit hserved ha hle hclean
    rw [execBar2Access_served hup hhit hserved, bar2Access_clean ha hle hclean]
    rfl
  case readOut =>
    intro o len s hup hhit hserved ha
    rw [execBar2Access_served hup hhit hserved]
    unfold bar2Access
    dsimp only
    rw [ha]
  case miss =>
    intro op s h
    show execBar2Access op s = _
    unfold execBar2Access
    rw [if_pos (by rcases h with h | h <;> simp [h])]
  case unread =>
    intro o len s hup hhit hserved
    exact execBar2Access_unserved hup hhit hserved
  case unwritten =>
    intro o data p s hup hhit hserved
    exact execBar2Access_unserved hup hhit hserved

end Sys2Proof.Machine
end

section
/-! SUPPORT. Host resets, and requests stopped and resumed (O54). -/

namespace Sys2Proof.Machine
open Sys2Proof

/-! ### A fire changes of the link only L1 and WAKE_N -/

theorem assertWake_link (s : State) : ∃ w, (assertWake s).link = { s.link with wake := w } := by
  unfold assertWake
  split
  · exact ⟨true, rfl⟩
  · exact ⟨s.link.wake, rfl⟩

theorem updateIntx_link (s : State) : ∃ l w, (updateIntx s).link = { s.link with l1 := l, wake := w } := by
  unfold updateIntx
  split
  · exact ⟨s.link.l1, s.link.wake, rfl⟩
  · obtain ⟨w, hw⟩ := assertWake_link (emit (.intx (intxWanted s)) { s with fab := { s.fab with intx := intxWanted s }, link := { s.link with l1 := false } })
    exact ⟨false, w, hw⟩

theorem sendVector_link (v : Nat) (s : State) : ∃ l w, (sendVector v s).link = { s.link with l1 := l, wake := w } := by
  unfold sendVector
  dsimp only
  split
  · obtain ⟨w, hw⟩ := assertWake_link { s with fab := { s.fab with vec := tabPut {} v {} s.fab.vec } }
    exact ⟨s.link.l1, w, hw⟩
  · exact ⟨s.link.l1, s.link.wake, rfl⟩
  · split
    · exact ⟨s.link.l1, s.link.wake, rfl⟩
    · exact ⟨false, s.link.wake, rfl⟩
  · split
    · exact ⟨s.link.l1, s.link.wake, rfl⟩
    · exact ⟨false, s.link.wake, rfl⟩

/-- What the host has configured and what is outstanding: the link without L1 and WAKE_N. -/
def linkCore (s : State) : LinkState := { s.link with l1 := false, wake := false }

theorem linkCore_of {s u : State} (h : ∃ l w, u.link = { s.link with l1 := l, wake := w }) : linkCore u = linkCore s := by
  obtain ⟨l, w, h⟩ := h
  rw [linkCore, h, linkCore]

theorem linkCore_countVector (v : Nat) (s : State) : linkCore (countVector v s) = linkCore s := by
  unfold countVector
  dsimp only
  split
  · exact (linkCore_of (sendVector_link _ _)).trans rfl
  · rfl

theorem linkCore_fireAt (src ts due : Nat) (late : Bool) (s : State) : linkCore (fireAt src ts due late s) = linkCore s := by
  unfold fireAt
  extract_lets u fab w v x y c
  have hx : linkCore x = linkCore s := by
    show linkCore (if v = 0xFFFF then w else countVector v w) = _
    split
    · rfl
    · exact (linkCore_countVector _ _).trans rfl
  have hy : linkCore y = linkCore x := linkCore_of (updateIntx_link x)
  clear_value y
  split
  · exact hy.trans hx
  · exact Eq.trans rfl (hy.trans hx)

theorem linkCore_fire (src : Nat) (s : State) : linkCore (fire src s) = linkCore s := by
  unfold fire
  dsimp only
  split
  · rfl
  · exact linkCore_fireAt _ _ _ _ _

/-! ### What a host reset and a stop leave alone (R499, R500) -/

/-- Time, lanes and ports, position, hydrometer, byte strings, mailboxes, the link's configuration and requests, and which rings are enabled. -/
def hostView (s : State) := (s.time, s.lp, s.pos, s.hyd, s.blobs, s.dict.mbox, linkCore s, fun r => (ringOf s r).enabled)

theorem hostView_of {s u : State} (htime : u.time = s.time) (hlp : u.lp = s.lp) (hpos : u.pos = s.pos) (hhyd : u.hyd = s.hyd)
    (hblobs : u.blobs = s.blobs) (hdict : u.dict = s.dict) (hlink : linkCore u = linkCore s)
    (hrings : ∀ r, (ringOf u r).enabled = (ringOf s r).enabled) : hostView u = hostView s := by
  simp only [hostView, htime, hlp, hpos, hhyd, hblobs, hdict, hlink, hrings]

theorem hostView_fire (src : Nat) (s : State) : hostView (fire src s) = hostView s :=
  hostView_of (fire_time _ _) (fire_lp _ _) (fire_pos _ _) (fire_hyd _ _) (fire_blobs _ _) (fire_dict _ _) (linkCore_fire _ _)
    (fun r => by rw [ringOf_congr (fire_rk _ _)])

theorem hostView_bump (id idx : Nat) (s : State) : hostView (bump id idx s) = hostView s := rfl

theorem hostView_putObj (id idx v : Nat) (s : State) : hostView (putObj id idx v s) = hostView s := rfl

theorem hostView_setSticky (id idx m : Nat) (s : State) : hostView (setSticky id idx m s) = hostView s := rfl

theorem hostView_putRing {r : Nat} {x : RingX} {s : State} (h : x.enabled = (ringOf s r).enabled) : hostView (putRing r x s) = hostView s := by
  refine hostView_of rfl rfl rfl rfl rfl rfl rfl (fun q => ?_)
  by_cases hq : r = q
  · rw [← hq, ringOf_putRing_self, h]
  · rw [ringOf_putRing_ne (Ne.symm hq)]

theorem hostView_updateRing (r : Nat) (s : State) : hostView (updateRing r s) = hostView s := by
  unfold updateRing
  extract_lets l x
  have hput : ∀ b, hostView (putRing r { x with above := b } s) = hostView s := fun b => hostView_putRing rfl
  split
  · rw [hostView_fire, hostView_setSticky, hput]
  · split
    · exact hput _
    · rfl

theorem hostView_releaseCask (id : Nat) (s : State) : hostView (releaseCask id s) = hostView s := by
  unfold releaseCask
  cases caskOf s id with
  | none => rfl
  | some c => exact (hostView_updateRing _ _).trans rfl

theorem hostView_setCaskState (id st : Nat) (s : State) : hostView (setCaskState id st s) = hostView s := by
  unfold setCaskState
  cases caskOf s id with
  | none => rfl
  | some c => exact (hostView_updateRing _ _).trans rfl

theorem hostView_writeEntry (c : Nat) (e : Entry) (s : State) : hostView (writeEntry c e s) = hostView s := by
  simp only [writeEntry]
  exact (hostView_fire _ _).trans rfl

theorem hostView_lostNotice (ring flow cask seq image cause : Nat) (s : State) :
    hostView (lostNotice ring flow cask seq image cause s) = hostView s := by
  simp only [lostNotice]
  split
  · rfl
  · split
    · exact hostView_writeEntry _ _ _
    · rfl

theorem hostView_purgeStamps (f : Nat) (s : State) : hostView (purgeStamps f s) = hostView s := by
  unfold purgeStamps
  cases rxTrigger s f with
  | none => rfl
  | some k => rfl

theorem hostView_loseCask (id cause : Nat) (s : State) : hostView (loseCask id cause s) = hostView s := by
  unfold loseCask
  cases caskOf s id with
  | none => rfl
  | some c =>
    dsimp only
    cases c.cfg with
    | none => exact hostView_releaseCask _ _
    | some k =>
      dsimp only
      rw [countLost, hostView_purgeStamps, hostView_lostNotice, hostView_fire, hostView_bump, hostView_bump, hostView_releaseCask]

theorem hostView_stopDeliveries (code : Nat) (p : Delivery → Bool) (s : State) : hostView (stopDeliveries code p s) = hostView s := by
  unfold stopDeliveries
  refine foldl_still (π := hostView) (fun u d => ?_) _ _
  extract_lets x a v rk w
  have hv : hostView v = hostView u := hostView_putRing rfl
  have hw : hostView w = hostView v := rfl
  clear_value w v
  cases caskOf w d.cask with
  | none => exact hw.trans hv
  | some c =>
    dsimp only
    split
    · rw [hostView_loseCask, hw, hv]
    · rw [hostView_setCaskState, hw, hv]

/-! ### The tap at a host reset (R404) -/

theorem hostView_setBoil (part mask : Nat) (on : Bool) (s : State) : hostView (setBoil part mask on s) = hostView s := by
  unfold setBoil
  extract_lets v
  split
  · rfl
  · split
    · rfl
    · rfl

theorem hostView_driveBoil (part : Nat) (on : Bool) (s : State) : hostView (driveBoil part on s) = hostView s := by
  unfold driveBoil
  extract_lets was u
  have hu : hostView u = hostView s := hostView_setBoil _ _ _ _
  clear_value u
  split
  · rw [hostView_fire, hu]
  · exact hu

theorem hostView_updateTapBoil (t : Nat) (s : State) : hostView (updateTapBoil t s) = hostView s := by
  unfold updateTapBoil
  extract_lets x src remain lvl run b u any
  have hu : hostView u = hostView s := rfl
  clear_value any u
  rw [hostView_driveBoil, hostView_driveBoil, hu]

theorem hostView_releaseReplay (t : Nat) (s : State) : hostView (releaseReplay t s) = hostView s := by
  unfold releaseReplay
  split
  · exact foldl_still (π := hostView) (fun u p => hostView_releaseCask _ _) _ _
  · rfl

theorem hostView_settleTx (t : Nat) (s : State) : hostView (settleTx t s) = hostView s := by
  unfold settleTx
  extract_lets x
  split
  · rfl
  split
  · rw [endRun, hostView_updateTapBoil, hostView_releaseReplay]
    rfl
  split
  · rw [hostView_releaseReplay]
    rfl
  · rfl

theorem hostView_tapHostReset (s : State) : hostView (tapHostReset s) = hostView s := by
  unfold tapHostReset
  refine foldl_still (π := hostView) (fun u t => ?_) _ _
  dsimp only
  rw [hostView_settleTx]
  rfl

/-! ### The racking engine at a host reset (R365, R500) -/

/-- The view without the rings. -/
def ringlessView (s : State) := (s.time, s.lp, s.pos, s.hyd, s.blobs, s.dict.mbox, linkCore s)

theorem ringlessView_of {s u : State} (h : hostView u = hostView s) : ringlessView u = ringlessView s := by
  simp only [hostView, Prod.mk.injEq] at h
  simp only [ringlessView, h]

theorem tabGet_map_self {β : Type} {d : β} {g : β → β} (hg : g d = d) (l : List (Nat × β)) (k : Nat) :
    tabGet d k (l.map (fun e => (e.1, g e.2))) = g (tabGet d k l) := by
  induction l with
  | nil => exact hg.symm
  | cons e t ih =>
    obtain ⟨j, v⟩ := e
    by_cases h : j = k
    · simp [tabGet, h]
    · simp [tabGet, h, ih]

theorem resetRacking_spec (s : State) : ringlessView (resetRacking s) = ringlessView s ∧ ∀ r, (ringOf (resetRacking s) r).enabled = false := by
  constructor
  · unfold resetRacking
    extract_lets u v w x
    have hu : ringlessView u = ringlessView s := ringlessView_of (hostView_stopDeliveries _ _ _)
    have hv : ringlessView v = ringlessView u := by
      show ringlessView (List.foldl _ u _) = _
      refine foldl_still (π := ringlessView) (fun _ _ => ?_) _ _
      rfl
    have hw : ringlessView w = ringlessView v := by
      show ringlessView (List.foldl _ v _) = _
      refine foldl_still (π := ringlessView) (fun _ _ => ?_) _ _
      rfl
    have hx : ringlessView x = ringlessView w := rfl
    clear_value x w v u
    exact Eq.trans rfl (hx.trans (hw.trans (hv.trans hu)))
  · intro r
    unfold resetRacking
    extract_lets u v w x
    clear_value x
    show (tabGet ({} : RingX) r ((x.rk.rings.filter (fun r => r.2.above)).map (fun r => (r.1, { above := true })))).enabled = false
    induction x.rk.rings.filter (fun r => r.2.above) with
    | nil => rfl
    | cons e l ih =>
      by_cases h : e.1 = r
      · simp [tabGet, h]
      · simpa [tabGet, h] using ih

/-! ### A host reset (R104, R187, R500) -/

theorem resetMailboxes_idle (s : State) (m : Nat) : (mboxOf (resetMailboxes s) m).phase = .idle ∧ (mboxOf (resetMailboxes s) m).rsp = [] := by
  have h : mboxOf (resetMailboxes s) m = { mboxOf s m with phase := .idle, seq := 0, status := 0, rsp := [] } :=
    tabGet_map_self (d := ({} : Mailbox)) (g := fun b => { b with phase := .idle, seq := 0, status := 0, rsp := [] }) rfl _ _
  rw [h]
  exact ⟨rfl, rfl⟩

/-- The blocks that a host reset reaches, up to its count of the kind. -/
def resetBlocks (kind : HostResetKind) (s : State) : State :=
  let s := linkToL2 kind s
  let s := if !s.link.tags.isEmpty then setSticky Oid.hostlinkStatus 0 2 s else s
  let s := { s with link := { s.link with quar := s.link.quar ++ s.link.tags, tags := [] } }
  setSticky Oid.rackingStatus 0 0x20 (tapHostReset (resetRacking (resetEventsHost (resetMailboxes s))))

/-- The count of the kind, and the link that goes down. -/
def resetCounted (kind : HostResetKind) (s : State) : State :=
  match kind with
  | .flr => bump Oid.hostlinkFlrCount 0 (setSticky Oid.hostlinkStatus 0 0x40 s)
  | .hotReset => bump Oid.hostlinkFlrCount 0 (setSticky Oid.hostlinkStatus 0 0x40 s)
  | .dlDown => linkDown (bump Oid.hostlinkLinkDowns 0 (setSticky Oid.hostlinkStatus 0 0x80 s))
  | .perst => linkDown (bump Oid.hostlinkLinkDowns 0 (setSticky Oid.hostlinkStatus 0 0x80 { s with link := { s.link with perst := true } }))

theorem hostReset_eq (kind : HostResetKind) (s : State) : ∃ b : Bool, hostReset kind s =
    (let u := updateIntx (configReset (resetCounted kind (resetBlocks kind s)))
     fire 0x17E (if b then setStopped 6 u else u)) := by
  refine ⟨(linkToL2 kind s).link.bme, ?_⟩
  unfold hostReset
  cases kind <;> rfl

/-- What every host reset leaves of the state, whatever block is asked. -/
def apartView (s : State) := (s.time, s.lp, s.pos, s.hyd, s.blobs)

theorem resetBlocks_spec (kind : HostResetKind) (s : State) : apartView (resetBlocks kind s) = apartView s ∧
    (∀ m, (mboxOf (resetBlocks kind s) m).phase = .idle ∧ (mboxOf (resetBlocks kind s) m).rsp = []) ∧
    (resetBlocks kind s).link.tags = [] ∧ (resetBlocks kind s).link.quar = s.link.quar ++ s.link.tags ∧
    (resetBlocks kind s).link.up = s.link.up ∧ ∀ r, (ringOf (resetBlocks kind s) r).enabled = false := by
  have h1 : apartView (linkToL2 kind s) = apartView s ∧ (linkToL2 kind s).link.tags = s.link.tags ∧
      (linkToL2 kind s).link.quar = s.link.quar ∧ (linkToL2 kind s).link.up = s.link.up := by
    unfold linkToL2
    split
    · exact ⟨rfl, rfl, rfl, rfl⟩
    · exact ⟨rfl, rfl, rfl, rfl⟩
  obtain ⟨happ, htags, hquar, hup⟩ := h1
  unfold resetBlocks
  extract_lets a b l c
  have hb : apartView b = apartView s ∧ b.link = a.link := by
    show apartView (if _ then _ else _) = _ ∧ State.link (if _ then _ else _) = _
    split
    · exact ⟨Eq.trans rfl happ, rfl⟩
    · exact ⟨happ, rfl⟩
  have hc : apartView c = apartView b ∧ c.link.tags = [] ∧ c.link.quar = b.link.quar ++ b.link.tags ∧ c.link.up = b.link.up := ⟨rfl, rfl, rfl, rfl⟩
  obtain ⟨hbapp, hblink⟩ := hb
  obtain ⟨hcapp, hctags, hcquar, hcup⟩ := hc
  rw [hblink, hquar, htags] at hcquar
  rw [hblink, hup] at hcup
  clear_value c b a
  have hidle := resetMailboxes_idle c
  have hd : apartView (resetEventsHost (resetMailboxes c)) = apartView c ∧ linkCore (resetEventsHost (resetMailboxes c)) = linkCore c ∧
      (resetEventsHost (resetMailboxes c)).dict.mbox = (resetMailboxes c).dict.mbox := ⟨rfl, rfl, rfl⟩
  obtain ⟨hdapp, hdlink, hdmbox⟩ := hd
  generalize resetEventsHost (resetMailboxes c) = d at hdapp hdlink hdmbox
  obtain ⟨hview, hrings⟩ := resetRacking_spec d
  have htap := hostView_tapHostReset (resetRacking d)
  generalize resetRacking d = e at hview hrings htap
  simp only [ringlessView, Prod.mk.injEq] at hview
  obtain ⟨e1, e2, e3, e4, e5, e6, e7⟩ := hview
  have hlast := (hostView_setSticky Oid.rackingStatus 0 0x20 (tapHostReset e)).trans htap
  generalize setSticky Oid.rackingStatus 0 0x20 (tapHostReset e) = f at hlast
  simp only [hostView, Prod.mk.injEq] at hlast
  obtain ⟨f1, f2, f3, f4, f5, f6, f7, f8⟩ := hlast
  have hlink : linkCore f = linkCore c := f7.trans (e7.trans hdlink)
  refine ⟨?_, fun m => ?_, ?_, ?_, ?_, fun r => ?_⟩
  · refine Eq.trans ?_ (hdapp.trans (hcapp.trans hbapp))
    simp only [apartView, f1, f2, f3, f4, f5, e1, e2, e3, e4, e5]
  · rw [show mboxOf f m = mboxOf (resetMailboxes c) m by rw [mboxOf, f6, e6, hdmbox, mboxOf]]
    exact hidle m
  · exact (congrArg LinkState.tags hlink).trans hctags
  · exact (congrArg LinkState.quar hlink).trans hcquar
  · exact (congrArg LinkState.up hlink).trans hcup
  · exact (congrFun f8 r).trans (hrings r)

/-- What a host reset leaves in the link, the mailboxes, the rings and the state apart. -/
def resetView (s : State) := (apartView s, s.dict.mbox, s.link.tags, s.link.quar, s.rk.rings)

theorem linkDown_spec (s : State) : resetView (linkDown s) = resetView s ∧ (linkDown s).link.up = false := ⟨rfl, rfl⟩

theorem resetView_counted (m : Nat) (s : State) :
    resetView (bump Oid.hostlinkLinkDowns 0 (setSticky Oid.hostlinkStatus 0 m s)) = resetView s := rfl

theorem resetCounted_spec (kind : HostResetKind) (s : State) : resetView (resetCounted kind s) = resetView s ∧
    (kind = .dlDown ∨ kind = .perst → (resetCounted kind s).link.up = false) ∧
    (kind = .flr ∨ kind = .hotReset → (resetCounted kind s).link.up = s.link.up) := by
  cases kind with
  | flr => exact ⟨rfl, by simp, fun _ => rfl⟩
  | hotReset => exact ⟨rfl, by simp, fun _ => rfl⟩
  | dlDown => exact ⟨(linkDown_spec _).1.trans (resetView_counted _ s), fun _ => (linkDown_spec _).2, by simp⟩
  | perst => exact ⟨(linkDown_spec _).1.trans ((resetView_counted _ _).trans rfl), fun _ => (linkDown_spec _).2, by simp⟩

/-- The configuration space at its reset values (R497, R500). -/
theorem configReset_spec (s : State) : resetView (configReset s) = resetView s ∧ (configReset s).link.bme = false ∧
    (configReset s).link.mse = false ∧ (configReset s).link.d3hot = false ∧ (configReset s).link.tagPool = 32 ∧
    (configReset s).link.msiMask = 0 ∧ (configReset s).link.up = s.link.up ∧ (configReset s).fab.unmasked = [] :=
  ⟨rfl, rfl, rfl, rfl, rfl, rfl, rfl, rfl⟩

theorem updateIntx_rest (s : State) : apartView (updateIntx s) = apartView s ∧ (updateIntx s).dict.mbox = s.dict.mbox ∧
    (updateIntx s).rk = s.rk ∧ (updateIntx s).fab.unmasked = s.fab.unmasked ∧ linkCore (updateIntx s) = linkCore s := by
  refine ⟨?_, ?_, updateIntx_rk s, ?_, linkCore_of (updateIntx_link s)⟩
  · simp only [apartView, updateIntx_time, updateIntx_lp, updateIntx_pos, updateIntx_hyd, updateIntx_blobs]
  · rw [updateIntx_dict]
  · unfold updateIntx
    split
    · rfl
    · rw [assertWake_fab]
      rfl

theorem hostReset_spec (kind : HostResetKind) (s : State) : let t := hostReset kind s
    t.link.tags = [] ∧ t.link.quar = s.link.quar ++ s.link.tags ∧ t.link.bme = false ∧ t.link.mse = false ∧ t.link.d3hot = false ∧ t.link.tagPool = 32 ∧ t.link.msiMask = 0 ∧
    t.fab.unmasked = [] ∧ (∀ r, (ringOf t r).enabled = false) ∧ (∀ m, (mboxOf t m).phase = .idle ∧ (mboxOf t m).rsp = []) ∧
    apartView t = apartView s ∧
    (kind = .dlDown ∨ kind = .perst → t.link.up = false) ∧ (kind = .flr ∨ kind = .hotReset → t.link.up = s.link.up) := by
  obtain ⟨b, hreset⟩ := hostReset_eq kind s
  intro t
  have ht : t = hostReset kind s := rfl
  clear_value t
  rw [hreset] at ht
  obtain ⟨happ, hidle, htags, hquar, hup, hrings⟩ := resetBlocks_spec kind s
  generalize resetBlocks kind s = u at happ hidle htags hquar hup hrings ht
  obtain ⟨hv, hdown, hstays⟩ := resetCounted_spec kind u
  generalize resetCounted kind u = v at hv hdown hstays ht
  obtain ⟨hw, hbme, hmse, hd3, hpool, hmask, hwup, hun⟩ := configReset_spec v
  generalize configReset v = w at hw hbme hmse hd3 hpool hmask hwup hun ht
  obtain ⟨hx, hxm, hxr, hxu, hxl⟩ := updateIntx_rest w
  generalize updateIntx w = x at hx hxm hxr hxu hxl ht
  dsimp only at ht
  have hy : ∀ y, y = (if b then setStopped 6 x else x) → hostView y = hostView x ∧ y.fab.unmasked = x.fab.unmasked ∧ y.dict.mbox = x.dict.mbox ∧
      y.rk = x.rk := by
    rintro y rfl
    cases b with
    | false => exact ⟨rfl, rfl, rfl, rfl⟩
    | true => exact ⟨rfl, rfl, rfl, rfl⟩
  generalize hyd : (if b then setStopped 6 x else x) = y at ht
  obtain ⟨hyv, hyu, hym, hyr⟩ := hy y hyd.symm
  simp only [resetView, Prod.mk.injEq] at hv hw
  obtain ⟨v1, v2, v3, v4, v5⟩ := hv
  obtain ⟨w1, w2, w3, w4, w5⟩ := hw
  have htv : hostView t = hostView x := by rw [ht, hostView_fire, hyv]
  simp only [hostView, Prod.mk.injEq] at htv
  obtain ⟨t1, t2, t3, t4, t5, t6, t7, t8⟩ := htv
  have hlink : linkCore t = linkCore w := t7.trans hxl
  have hupv : t.link.up = v.link.up := (congrArg LinkState.up hlink).trans hwup
  refine ⟨?_, ?_, (congrArg LinkState.bme hlink).trans hbme, (congrArg LinkState.mse hlink).trans hmse, (congrArg LinkState.d3hot hlink).trans hd3,
    (congrArg LinkState.tagPool hlink).trans hpool, (congrArg LinkState.msiMask hlink).trans hmask, ?_, fun r => ?_, fun m => ?_, ?_,
    fun h => hupv.trans (hdown h), fun h => hupv.trans ((hstays h).trans hup)⟩
  · exact (congrArg LinkState.tags hlink).trans (w3.trans (v3.trans htags))
  · exact (congrArg LinkState.quar hlink).trans (w4.trans (v4.trans hquar))
  · have hfab : t.fab.unmasked = y.fab.unmasked := by
      have := fire_fabRest 0x17E y
      rw [← ht] at this
      simp only [fabRest, Prod.mk.injEq] at this
      obtain ⟨-, -, -, -, -, hunmasked, -⟩ := this
      exact hunmasked
    rw [hfab, hyu, hxu, hun]
  · rw [show (ringOf t r).enabled = (ringOf x r).enabled from congrFun t8 r, ringOf_congr hxr]
    rw [show ringOf w r = ringOf u r by rw [ringOf, w5, v5, ringOf], hrings]
  · rw [show mboxOf t m = mboxOf u m by rw [mboxOf, t6, hxm, w2, v2, mboxOf]]
    exact hidle m
  · refine Eq.trans ?_ (hx.trans (w1.trans (v1.trans happ)))
    simp only [apartView, t1, t2, t3, t4, t5]

/-! ### The objects that a stopped delivery writes -/

/-- Counts of what is lost, the notice of it and its source. -/
def stopObjs : List Nat := [Oid.eventsSrcCount, Oid.eventsVecSent, Oid.rackingStatus, Oid.rackingNoticesDropped, Oid.lauterFramesLost,
  Oid.lauterLostByCause, Oid.lauterStampsDiscarded]

theorem ne_of_stopObjs {id x : Nat} (h : id ∉ stopObjs) (hx : x ∈ stopObjs) : x ≠ id := ne_of_mem_of_not_mem hx h

section
variable {id : Nat} (hid : id ∉ stopObjs)
include hid

theorem getObj_fire_of_stopObjs (src idx : Nat) (s : State) : getObj (fire src s) id idx = getObj s id idx :=
  getObj_fire (ne_of_stopObjs hid (by decide)) (ne_of_stopObjs hid (by decide))

theorem getObj_updateRing (r idx : Nat) (s : State) : getObj (updateRing r s) id idx = getObj s id idx := by
  unfold updateRing
  extract_lets l x
  split
  · rw [getObj_fire_of_stopObjs hid, getObj_setSticky_ne (ne_of_stopObjs hid (by decide))]
    rfl
  · split
    · rfl
    · rfl

theorem getObj_releaseCask (c idx : Nat) (s : State) : getObj (releaseCask c s) id idx = getObj s id idx := by
  unfold releaseCask
  cases caskOf s c with
  | none => rfl
  | some x => exact (getObj_updateRing hid _ _ _).trans rfl

theorem getObj_setCaskState (c st idx : Nat) (s : State) : getObj (setCaskState c st s) id idx = getObj s id idx := by
  unfold setCaskState
  cases caskOf s c with
  | none => rfl
  | some x => exact (getObj_updateRing hid _ _ _).trans rfl

theorem getObj_writeEntry (c idx : Nat) (e : Entry) (s : State) : getObj (writeEntry c e s) id idx = getObj s id idx := by
  simp only [writeEntry]
  exact (getObj_fire_of_stopObjs hid _ _ _).trans rfl

theorem getObj_lostNotice (ring flow cask seq image cause idx : Nat) (s : State) :
    getObj (lostNotice ring flow cask seq image cause s) id idx = getObj s id idx := by
  simp only [lostNotice]
  split
  · rfl
  · split
    · exact getObj_writeEntry hid _ _ _ _
    · exact getObj_bump_ne (ne_of_stopObjs hid (by decide))

theorem getObj_purgeStamps (f idx : Nat) (s : State) : getObj (purgeStamps f s) id idx = getObj s id idx := by
  unfold purgeStamps
  cases rxTrigger s f with
  | none => rfl
  | some k => exact (getObj_addObj_ne (ne_of_stopObjs hid (by decide))).trans rfl

theorem getObj_countLost (f ring seq cask image cause idx : Nat) (s : State) :
    getObj (countLost f ring seq cask image cause s) id idx = getObj s id idx := by
  rw [countLost, getObj_purgeStamps hid, getObj_lostNotice hid, getObj_fire_of_stopObjs hid,
    getObj_bump_ne (ne_of_stopObjs hid (by decide)), getObj_bump_ne (ne_of_stopObjs hid (by decide))]

theorem getObj_loseCask (c cause idx : Nat) (s : State) : getObj (loseCask c cause s) id idx = getObj s id idx := by
  unfold loseCask
  cases caskOf s c with
  | none => rfl
  | some x =>
    dsimp only
    cases x.cfg with
    | none => exact getObj_releaseCask hid _ _ _
    | some k => exact (getObj_countLost hid _ _ _ _ _ _ _ _).trans (getObj_releaseCask hid _ _ _)

theorem getObj_stopDeliveries (code idx : Nat) (p : Delivery → Bool) (s : State) :
    getObj (stopDeliveries code p s) id idx = getObj s id idx := by
  unfold stopDeliveries
  refine foldl_still (π := fun u => getObj u id idx) (fun u d => ?_) _ _
  extract_lets x a v rk w
  have hw : getObj w id idx = getObj u id idx := rfl
  clear_value w
  cases caskOf w d.cask with
  | none => exact hw
  | some c =>
    dsimp only
    split
    · rw [getObj_loseCask hid, hw]
    · rw [getObj_setCaskState hid, hw]

theorem getObj_stopRacking (idx : Nat) (s : State) : getObj (stopRacking s) id idx = getObj s id idx := by
  unfold stopRacking
  extract_lets u rk v
  have hv : getObj v id idx = getObj s id idx := getObj_stopDeliveries hid _ _ _ _
  clear_value v
  rw [getObj_setSticky_ne (ne_of_stopObjs hid (by decide)), hv]

end

theorem getObj_stopRequests {id idx : Nat} (hid : id ∉ stopObjs) (h1 : Oid.hostlinkStatus ≠ id) (h2 : Oid.hostlinkStopped ≠ id) {s : State} :
    getObj (stopRequests s) id idx = getObj s id idx := by
  unfold stopRequests
  extract_lets u l v
  have hu : getObj u id idx = getObj s id idx := by
    show getObj (if _ then _ else _) id idx = _
    split
    · rfl
    · exact getObj_setSticky_ne h1
  have hv : getObj v id idx = getObj u id idx := rfl
  clear_value v u
  rw [getObj_fire_of_stopObjs hid, setStopped, getObj_putObj_ne h2, getObj_stopRacking hid, hv, hu]

/-! ### Requests stopped and resumed (R499) -/

theorem stopRacking_spec (s : State) : linkCore (stopRacking s) = linkCore s ∧ (stopRacking s).rk.stopped = true := by
  have hview := hostView_stopDeliveries 0x80 (fun _ => true) s
  simp only [hostView, Prod.mk.injEq] at hview
  obtain ⟨-, -, -, -, -, -, hlink, -⟩ := hview
  unfold stopRacking
  extract_lets u rk v
  exact ⟨Eq.trans rfl hlink, rfl⟩

theorem stopRequests_spec (s : State) :
    linkCore (stopRequests s) = { linkCore s with tags := s.link.tags.map (fun t => { t with use := .discard }) } ∧
    (stopRequests s).rk.stopped = true := by
  unfold stopRequests
  extract_lets u l v
  have hu : u.link = s.link := by
    show State.link (if _ then _ else _) = _
    split
    · rfl
    · rfl
  have hv : linkCore v = { linkCore s with tags := s.link.tags.map (fun t => { t with use := .discard }) } := by
    clear_value u
    show ({ ({ u.link with tags := u.link.tags.map (fun t => { t with use := .discard }) } : LinkState) with l1 := false, wake := false } :
      LinkState) = _
    rw [hu, linkCore]
  obtain ⟨hlink, hstop⟩ := stopRacking_spec v
  clear_value v
  generalize stopRacking v = w at hlink hstop
  refine ⟨?_, ?_⟩
  · rw [linkCore_fire, ← hv, ← hlink]
    rfl
  · rw [fire_rk]
    exact hstop

theorem stopRequests_tags (s : State) : (stopRequests s).link.tags = s.link.tags.map (fun t => { t with use := .discard }) :=
  congrArg LinkState.tags (stopRequests_spec s).1

theorem busStopped_stopRequests (s : State) : busStopped (stopRequests s) = busStopped s := by
  have h := congrArg (fun l : LinkState => !l.bme || l.d3hot || !l.up) (stopRequests_spec s).1
  exact h

/-- Stopped requests will be discarded when they are answered. -/
theorem stopRequests_discards (s : State) : ∀ e ∈ (stopRequests s).link.tags, e.use = .discard := by
  intro e he
  rw [stopRequests_tags, List.mem_map] at he
  obtain ⟨t, -, rfl⟩ := he
  rfl

theorem stopRequests_mem (s : State) : (stopRequests s).mem = s.mem :=
  stopRequests_rests (P := fun _ _ m => m = s.mem) (s := s) (by exact (rfl : s.mem = s.mem))

theorem stopRequests_modes (s : State) : (stopRequests s).modes = s.modes :=
  stopRequests_rests (P := fun m _ _ => m = s.modes) (s := s) (by exact (rfl : s.modes = s.modes))

/-- What the host has configured, without the requests outstanding. -/
def linkSet (s : State) : LinkState := { s.link with l1 := false, wake := false, tags := [] }

/-- The configuration, and the objects that a read request may not write. -/
def requestView (s : State) := (linkSet s, getObj s Oid.hostlinkStopped, getObj s Oid.hostlinkCplTimeoutUs)

theorem requestView_bump {id idx : Nat} {s : State} (h1 : id ≠ Oid.hostlinkStopped) (h2 : id ≠ Oid.hostlinkCplTimeoutUs) :
    requestView (bump id idx s) = requestView s := by
  rw [requestView, getObj_bump_ne h1, getObj_bump_ne h2]
  rfl

theorem requestView_hostRead (use : TagUse) (addr len : Nat) (s : State) : requestView (hostRead use addr len s) = requestView s := by
  unfold hostRead
  split
  · rfl
  · rfl

theorem requestView_startWalk (ring page dir : Nat) (s : State) : requestView (startWalk ring page dir s) = requestView s := by
  unfold startWalk
  extract_lets use use'
  split
  · rfl
  · rw [requestView_hostRead, requestView_bump (by decide) (by decide), requestView_bump (by decide) (by decide)]

theorem requestView_translate (ring dir v : Nat) (big : Bool) (s : State) : requestView (translate ring dir big v s).2 = requestView s := by
  unfold translate
  extract_lets p
  cases tlbFind s ring p with
  | none => exact requestView_startWalk _ _ _ _
  | some e => exact Eq.trans rfl (requestView_bump (s := s) (by decide) (by decide))

theorem requestView_tapRequest (t : Nat) (s : State) : requestView (tapRequest t s) = requestView s := by
  unfold tapRequest
  extract_lets x
  cases unfetched t x with
  | none => rfl
  | some fr =>
    dsimp only
    cases fr.src with
    | pattern => rfl
    | mem a => rfl
    | cask c => rfl
    | host slot =>
      dsimp only
      split
      · rfl
      · have htr := requestView_translate (2048 + t) x.ring.dir
          (slot * x.ring.slotBytes + srcOffset (txGeo fr.cfg t fr.k) fr.fetched) x.ring.bigPage s
        generalize translate (2048 + t) x.ring.dir x.ring.bigPage
          (slot * x.ring.slotBytes + srcOffset (txGeo fr.cfg t fr.k) fr.fetched) s = r at htr
        obtain ⟨a, u⟩ := r
        cases a with
        | none => exact htr
        | some a => exact (requestView_hostRead _ _ _ _).trans htr

theorem requestView_sendHeld (vs : List Nat) (s : State) : linkSet (sendHeld vs s) = linkSet s := by
  rw [linkSet, (sendHeld_link vs s).1, linkSet]

theorem sendHeld_objs {id : Nat} (h : Oid.eventsVecSent ≠ id) (vs : List Nat) : ∀ s, getObj (sendHeld vs s) id = getObj s id := by
  induction vs with
  | nil => exact fun s => rfl
  | cons v vs ih =>
    intro s
    obtain ⟨u, hu, hobj⟩ : ∃ u, sendHeld (v :: vs) s = sendHeld vs u ∧ getObj u id = getObj s id := by
      rw [sendHeld]
      refine ⟨_, rfl, ?_⟩
      split
      · cases hform : s.link.form with
        | none => rfl
        | intx => rfl
        | msi n => exact getObj_bump_ne h
        | msix => exact getObj_bump_ne h
      · rfl
    rw [hu, ih u, hobj]

theorem resumeRequests_spec (s : State) : linkSet (resumeRequests s) = linkSet s ∧ getObj (resumeRequests s) Oid.hostlinkStopped = 0 ∧
    getObj (resumeRequests s) Oid.hostlinkCplTimeoutUs = getObj s Oid.hostlinkCplTimeoutUs := by
  have htaps : ∀ u, requestView (resumeTaps u) = requestView u := by
    intro u
    unfold resumeTaps
    exact foldl_still (π := requestView) (fun v t => requestView_tapRequest t v) _ _
  have hheld := requestView_sendHeld (s.fab.pba.map (fun p => p.1)) s
  have hobj := sendHeld_objs (id := Oid.hostlinkCplTimeoutUs) (by decide) (s.fab.pba.map (fun p => p.1)) s
  rw [resumeRequests]
  generalize sendHeld (s.fab.pba.map (fun p => p.1)) s = u at hheld hobj
  have hview := htaps (setStopped 0 u)
  generalize resumeTaps (setStopped 0 u) = w at hview
  simp only [requestView, Prod.mk.injEq] at hview
  obtain ⟨hset, hstop, hcpl⟩ := hview
  refine ⟨hset.trans (Eq.trans rfl hheld), ?_, ?_⟩
  · rw [hstop, setStopped, getObj_putObj_self]
  · rw [hcpl, setStopped, getObj_putObj_ne (by decide), hobj]

/-- The host's configuration as it writes it (R483, R502). -/
def hostConfigured (c : HostConfig) (s : State) : State :=
  putObj Oid.hostlinkCplTimeoutUs 0 (cplTimeoutUs c.cplSel.toNat) { s with link := { s.link with
    bme := c.busMaster, mse := c.memSpace, d3hot := false, relaxed := c.relaxed, maxPayload := 128 * 2 ^ c.maxPayload.val,
    maxRead := 128 * 2 ^ c.maxRead.val, cplSel := c.cplSel.toNat, aspmL1 := c.aspmL1,
    tagPool := tagPoolOf (isOn s Oid.hostlinkFlitMode) c.extTag c.tag10 c.tag14 } }

theorem execBusMasterEnable_eq {c : HostConfig} {s : State} (h : configServed s = true) : exec (.busMasterEnable c) s =
    .next (if c.busMaster then resumeRequests (hostConfigured c s)
      else if s.link.bme && !s.link.d3hot then stopRequests (hostConfigured c s) else hostConfigured c s) := by
  show execBusMasterEnable c s = _
  unfold execBusMasterEnable
  rw [if_pos h]
  rfl

theorem busMasterEnable_spec (c : HostConfig) (s : State) : ∃ t, t = (if c.busMaster then resumeRequests (hostConfigured c s)
      else if s.link.bme && !s.link.d3hot then stopRequests (hostConfigured c s) else hostConfigured c s) ∧
    linkSet t = linkSet (hostConfigured c s) ∧ (c.busMaster = true → getObj t Oid.hostlinkStopped = 0) ∧
    (c.busMaster = false → s.link.bme = true → s.link.d3hot = false → t.rk.stopped = true ∧ ∀ e ∈ t.link.tags, e.use = .discard) ∧
    getObj t Oid.hostlinkCplTimeoutUs = cplTimeoutUs c.cplSel.toNat ∧ t.mem = s.mem ∧ t.modes = s.modes := by
  have hcpl : getObj (hostConfigured c s) Oid.hostlinkCplTimeoutUs = cplTimeoutUs c.cplSel.toNat := getObj_putObj_self _ _ _ _
  have hkept : (hostConfigured c s).mem = s.mem ∧ (hostConfigured c s).modes = s.modes := ⟨rfl, rfl⟩
  refine ⟨_, rfl, ?_⟩
  generalize hostConfigured c s = u at hcpl hkept
  obtain ⟨hmem, hmodes⟩ := hkept
  cases hbus : c.busMaster with
  | true =>
    obtain ⟨hset, hstop, hsame⟩ := resumeRequests_spec u
    rw [if_pos rfl]
    refine ⟨hset, fun _ => hstop, fun h => absurd h (by decide), hsame.trans hcpl, ?_, ?_⟩
    · exact (resumeRequests_rests (P := fun _ _ m => m = u.mem) (s := u) (by exact (rfl : u.mem = u.mem)) :
        (resumeRequests u).mem = u.mem).trans hmem
    · exact (resumeRequests_rests (P := fun m _ _ => m = u.modes) (s := u) (by exact (rfl : u.modes = u.modes)) :
        (resumeRequests u).modes = u.modes).trans hmodes
  | false =>
    rw [if_neg (by decide)]
    split
    · obtain ⟨hlink, hstop⟩ := stopRequests_spec u
      refine ⟨?_, fun h => absurd h (by decide), fun _ _ _ => ⟨hstop, stopRequests_discards u⟩, ?_, (stopRequests_mem u).trans hmem,
        (stopRequests_modes u).trans hmodes⟩
      · exact congrArg (fun l : LinkState => { l with tags := [] }) hlink
      · rw [getObj_stopRequests (by decide) (by decide) (by decide), hcpl]
    · next hrun =>
      exact ⟨rfl, fun h => absurd h (by decide), fun _ h1 h2 => absurd (by rw [h1, h2]; rfl) hrun, hcpl, hmem, hmodes⟩

/-- Settles O54, by what a host reset, a stop and a resumption leave in the state. -/
theorem hostResets : Obligations.HostResets := by
  refine ⟨?flr, ?link, ?perst, ?reset, ?disable, ?sleep, ?enable⟩
  case flr =>
    intro s h
    show execHostReset .flr s = _
    simp only [execHostReset]
    rw [if_pos h]
  case link =>
    intro s h
    refine ⟨?_, ?_⟩
    · show execHostReset .hotReset s = _
      simp only [execHostReset]
      rw [if_pos h]
    · show execHostReset .dlDown s = _
      simp only [execHostReset]
      rw [if_pos h]
  case perst =>
    intro s h hcold hboot
    show execHostReset .perst s = _
    simp only [execHostReset]
    rw [if_neg (by simp [h]), if_neg (by simp [hcold, hboot])]
  case reset =>
    intro k s t
    obtain ⟨h1, h2, h3, h4, h5, h6, h7, h8, h9, h10, happ, hdown, hup⟩ := hostReset_spec k s
    simp only [apartView, Prod.mk.injEq] at happ
    obtain ⟨a1, a2, a3, a4, a5⟩ := happ
    refine ⟨h1, h2, h3, h4, h5, h6, h7, h8, h9, h10, ?_, a1, ?_, a2, a3, a4, a5, hdown, hup⟩
    · exact hostReset_rests (P := fun m _ _ => m = s.modes) (s := s) (by exact (rfl : s.modes = s.modes))
    · exact hostReset_rests (P := fun _ _ m => m = s.mem) (s := s) (by exact (rfl : s.mem = s.mem))
  case disable =>
    intro s h hbme
    refine ⟨stopRequests { s with link := { s.link with bme := false } }, ?_, ?_, ?_, stopRequests_discards _, ?_, (stopRequests_spec _).2,
      stopRequests_mem _, stopRequests_modes _⟩
    · show execBusMasterDisable false s = _
      rw [execBusMasterDisable, if_neg (by simp [h, hbme]), if_neg (by decide)]
    · exact congrArg LinkState.bme (stopRequests_spec { s with link := { s.link with bme := false } }).1
    · rw [busStopped_stopRequests]
      rfl
    · rw [stopRequests_tags, List.map_map]
      rfl
  case sleep =>
    intro s h hd3
    refine ⟨stopRequests { s with link := { s.link with d3hot := true } }, ?_, ?_, ?_, stopRequests_discards _, (stopRequests_spec _).2,
      stopRequests_mem _⟩
    · show execBusMasterDisable true s = _
      rw [execBusMasterDisable, if_neg (by simp [h, hd3]), if_pos rfl]
    · exact congrArg LinkState.d3hot (stopRequests_spec { s with link := { s.link with d3hot := true } }).1
    · rw [busStopped_stopRequests, busStopped]
      simp
  case enable =>
    intro c s h
    obtain ⟨t, ht, hset, hrest⟩ := busMasterEnable_spec c s
    refine ⟨t, by rw [execBusMasterEnable_eq h, ht], ?_⟩
    exact ⟨congrArg LinkState.bme hset, congrArg LinkState.mse hset, congrArg LinkState.d3hot hset, congrArg LinkState.relaxed hset,
      congrArg LinkState.maxPayload hset, congrArg LinkState.maxRead hset, hrest⟩

end Sys2Proof.Machine
end

section
/-! SUPPORT. Latches, snapshots and time compares (O3, O4). -/

namespace Sys2Proof.Machine
open Sys2Proof

/-! ### Packed times (R14) -/

theorem tSec_packTime {sec ns frac : Nat} (hns : ns < 2 ^ 32) (hf : frac < 2 ^ 16) : tSec (packTime sec ns frac) = sec := by
  unfold tSec packTime
  omega

theorem tNs_packTime {sec ns frac : Nat} (hns : ns < 2 ^ 32) (hf : frac < 2 ^ 16) : tNs (packTime sec ns frac) = ns := by
  unfold tNs packTime
  omega

theorem tFrac_packTime {sec ns frac : Nat} (hf : frac < 2 ^ 16) : tFrac (packTime sec ns frac) = frac := by
  unfold tFrac packTime
  omega

/-- A time of whole nanoseconds, read back field by field. -/
theorem packNanos_spec (n : Nat) : tFrac (packTime (n / billion) (n % billion) 0) = 0 ∧ tNs (packTime (n / billion) (n % billion) 0) < 1000000000 ∧
    tSec (packTime (n / billion) (n % billion) 0) * 1000000000 + tNs (packTime (n / billion) (n % billion) 0) = n := by
  have hlt : n % billion < 1000000000 := Nat.mod_lt _ (by decide)
  rw [tFrac_packTime (by decide), tNs_packTime (by omega) (by decide), tSec_packTime (by omega) (by decide)]
  exact ⟨rfl, hlt, Nat.div_add_mod' n billion⟩

/-- Settles O3, by the fields of the time that a latch takes and by the one branch of a snapshot that is due. -/
theorem latchesAndSnapshots : Obligations.LatchesAndSnapshots := by
  refine ⟨⟨fun pos s hs => ?_, fun pos s hs => ?_, fun s hs => ?_⟩, fun s u harm hle htick hper => ?_⟩
  · show execTkLatch pos s = _
    unfold execTkLatch
    dsimp only
    rw [hs, if_neg (by decide)]
    rfl
  · unfold kilnEventTime
    rw [if_pos hs]
    obtain ⟨hfrac, hns, hsum⟩ := packNanos_spec ((timeUnits32 s + pos.toNat * s.time.inc / 2 ^ 16).toNat / 2 ^ 32)
    refine ⟨hfrac, hns, ?_⟩
    dsimp only
    rw [hsum]
    have hunits : 0 ≤ timeUnits32 s := Int.natCast_nonneg _
    have hoff : 0 ≤ (pos.toNat : Int) * s.time.inc / 2 ^ 16 :=
      Int.ediv_nonneg (Int.mul_nonneg (Int.natCast_nonneg _) (Int.natCast_nonneg _)) (by decide)
    have hpos := Int.add_nonneg hunits hoff
    generalize timeUnits32 s + (pos.toNat : Int) * s.time.inc / 2 ^ 16 = x at hpos
    omega
  · unfold kilnEventTime
    rw [if_neg (by rw [hs]; decide), if_pos rfl]
  · show Host.Outcome.next (evalSnapshot s) = _
    unfold evalSnapshot
    rw [harm]
    dsimp only
    rw [decide_eq_true hle, decide_eq_true htick, Bool.and_self, if_pos rfl]
    unfold takeSnapshot
    rw [harm]
    dsimp only
    rw [if_pos hle, if_pos hper]
    have hlock : (if (!isOn s Oid.timeLocked) = true then 2 else 0) = if isOn s Oid.timeLocked = true then 0 else 2 := by
      cases isOn s Oid.timeLocked with
      | false => rfl
      | true => rfl
    rw [hlock]
    rfl

/-! ### Time compares (R154) -/

theorem cmpReached_of_target {s : State} {u : Nat} (hm : getObj s Oid.timeCmpMode u = 1 ∨ getObj s Oid.timeCmpMode u = 2) :
    cmpReached s u (now s) (shortNow s) = decide (getObj s Oid.timeCmpTarget u ≤ now s) := by
  unfold cmpReached
  rcases hm with h | h
  · rw [h]; rfl
  · rw [h]; rfl

theorem execTimeCompare_reached {u : Fin 64} {s : State} (ha : tabGet 0 u.val s.time.cmpArmed = 1 ∨ tabGet 0 u.val s.time.cmpArmed = 2)
    (hm : getObj s Oid.timeCmpMode u.val = 1 ∨ getObj s Oid.timeCmpMode u.val = 2) (hle : getObj s Oid.timeCmpTarget u.val ≤ now s) :
    exec (.timeCompare u) s = .next (fireCompare u.val (decide (tabGet 0 u.val s.time.cmpArmed = 2)) s) := by
  show Host.Outcome.next (evalCompare u.val s) = _
  unfold evalCompare
  dsimp only
  rw [cmpReached_of_target hm, decide_eq_true hle]
  rcases ha with h | h
  · rw [h]; rfl
  · rw [h]; rfl

/-- Settles O4, by the mode of the unit and how far behind it is. -/
theorem compareFiresAtTarget : Obligations.CompareFiresAtTarget := by
  refine ⟨fun u s ha hm hle => ?_, fun u s ha hm hle => ?_, fun u s ha => ?_, fun u s hm hlt => ?_⟩
  · rw [execTimeCompare_reached ha (.inl hm) hle]
    unfold fireCompare
    dsimp only
    rw [hm, if_neg (show ¬(1 : Nat) = 3 by decide), if_neg (show ¬(1 : Nat) = 2 by decide)]
    simp only [decide_eq_true_eq]
    rfl
  · intro w behind period
    have hfire : fireCompare u.val (decide (tabGet 0 u.val s.time.cmpArmed = 2)) s =
        (if behind > period * 65536 then
          rearmCompare u.val (putObj Oid.timeCmpTarget u.val (tAddNs (getObj s Oid.timeCmpTarget u.val)
            (periodsOn (getObj s Oid.timeCmpTarget u.val) period (now s) * period))
            (addObj Oid.timeCmpCatchup u.val (periodsOn (getObj s Oid.timeCmpTarget u.val) period (now s) - 1)
              (setSticky Oid.timeCmpStatus u.val 2 w)))
        else rearmCompare u.val (putObj Oid.timeCmpTarget u.val (tAddNs (getObj s Oid.timeCmpTarget u.val) period) w)) := by
      unfold fireCompare
      dsimp only
      rw [hm, if_neg (show ¬(2 : Nat) = 3 by decide), if_pos (show (2 : Nat) = 2 from rfl)]
      simp only [decide_eq_true_eq]
      rfl
    refine ⟨fun hle' => ?_, fun hlt => ?_⟩
    · rw [execTimeCompare_reached ha (.inr hm) hle, hfire, if_neg (by omega)]
    · intro k
      rw [execTimeCompare_reached ha (.inr hm) hle, hfire, if_pos hlt]
      rfl
  · show Host.Outcome.next (evalCompare u.val s) = _
    unfold evalCompare
    dsimp only
    rw [ha]
    rfl
  · show Host.Outcome.next (evalCompare u.val s) = _
    unfold evalCompare
    dsimp only
    rw [cmpReached_of_target (.inl hm), decide_eq_false (Nat.not_le.mpr hlt), Bool.not_false, Bool.or_true, if_pos rfl]

end Sys2Proof.Machine
end

section
/-! SUPPORT. Clock inputs, PPS pulses and the PTP port (O5). -/

namespace Sys2Proof.Machine
open Sys2Proof

/-! ### The PTP port (R142, R143) -/

/-- A message that the port does not act on, whatever the reason, is counted. -/
theorem ptpMessage_exception {port : Nat} {m : PtpMessage} {stamp : Nat} {s : State}
    (h : getObj s Oid.timePtpPort ≠ port ∨ m.domain.toNat ≠ getObj s Oid.timePtpDomain ∨ m.body = .management ∨ m.body = .signaling ∨
      m.body = .unsupported) : ptpMessage port m stamp s = bump Oid.timePtpExceptions 0 s := by
  unfold ptpMessage
  split
  · rfl
  · next hport =>
    split
    · rfl
    · next hdom =>
      have hbody : m.body = .management ∨ m.body = .signaling ∨ m.body = .unsupported := by
        rcases h with h | h | h
        · exact absurd (by simp [h]) hport
        · exact absurd h hdom
        · exact h
      rcases hbody with h | h | h
      · rw [h]; rfl
      · rw [h]; rfl
      · rw [h]; rfl

/-- A message of the port's own domain is dealt with by its kind. -/
theorem ptpMessage_own {port : Nat} {m : PtpMessage} {stamp : Nat} {s : State} (hport : getObj s Oid.timePtpPort = port)
    (hruns : ptpRuns s = true) (hdom : m.domain.toNat = getObj s Oid.timePtpDomain) :
    (∀ origin, m.body = .sync false origin → getObj s Oid.timePtpState = 9 →
      ptpMessage port m stamp s = ptpSyncDone (ptpCorrect origin m.correction) stamp s) ∧
    (m.body = .delayReq → getObj s Oid.timePtpState = 6 → ptpMessage port m stamp s = sendPtp port 54 (.ptpDelayResp port stamp) s) := by
  refine ⟨fun origin hbody hstate => ?_, fun hbody hstate => ?_⟩
  · unfold ptpMessage
    rw [if_neg (by simp [hport, hruns]), if_neg (not_not_intro hdom), hbody, hstate]
    rfl
  · unfold ptpMessage
    rw [if_neg (by simp [hport, hruns]), if_neg (not_not_intro hdom), hbody, hstate]
    rfl

theorem execPtpMessage_up {port : Port} {m : PtpMessage} {stamp : Time96} {s : State} (h : portUp s port.val = true) :
    exec (.ptpMessage port m stamp) s = .next (ptpMessage port.val m (laneStamp (Time96pack stamp)) s) := by
  show execPtpMessage port m stamp s = _
  rw [execPtpMessage, if_pos h]

/-! ### PPS in (R146) -/

theorem ppsInEdge_taken {s : State} {rising : Bool} {t : Time96} (hcold : s.modes.current ≠ .cold)
    (hedge : getObj s Oid.timePpsInEdge = (if rising then 1 else 2)) :
    let ts := kilnStamp s (Time96pack t)
    let last := getObj s Oid.timePpsInLast
    let w := fireStamped 0x040 ts (putObj Oid.timePpsInLast 0 ts s)
    ((last ≠ 0 ∧ tUnits ts < tUnits last + 900000000 * 65536 ∧ tUnits last ≤ tUnits ts) →
      exec (.ppsInEdge rising t) s = .next (bump Oid.timePpsInExtra 0 w)) ∧
    (getObj s Oid.timeSource ≠ 2 → tUnits last + 900000000 * 65536 ≤ tUnits ts → exec (.ppsInEdge rising t) s = .next w) := by
  intro ts last w
  have hkind : ((decide (getObj s Oid.timePpsInEdge = 1) && rising) || (decide (getObj s Oid.timePpsInEdge = 2) && !rising)) = true := by
    rw [hedge]
    cases rising <;> rfl
  have hsource : getObj w Oid.timeSource = getObj s Oid.timeSource :=
    (getObj_fireStamped (by decide) (by decide)).trans (getObj_putObj_ne (by decide))
  have hexec : exec (.ppsInEdge rising t) s = execPpsInEdge rising t s := rfl
  refine ⟨fun ⟨h1, h2, h3⟩ => ?_, fun hsrc hle => ?_⟩
  · rw [hexec]
    unfold execPpsInEdge
    dsimp only
    rw [if_neg (by simp [hcold, hkind]), if_pos (by simp [last, ts] at h1 h2 h3; simp [h1, h2, h3])]
  · rw [hexec]
    unfold execPpsInEdge
    dsimp only
    rw [if_neg (by simp [hcold, hkind]), if_neg (by simp only [last, ts] at hle; simp; omega), if_neg (by simp [← hsource, w, ts] at hsrc; simp [hsrc])]

/-- Settles O5: each row by its branches, a PTP message by the port and the domain it is for. -/
theorem clockPortsAndPulses : Obligations.ClockPortsAndPulses := by
  refine ⟨⟨?holdover, ?missing, ?pulse, ?noPulse, ?pulseEnd, ?edge⟩, ?sync, ?delay, ?other, ?restart, ?interval⟩
  case holdover =>
    intro s h
    show Host.Outcome.next (loseLock _) = _
    unfold loseLock
    rw [if_pos (by exact h)]
  case missing =>
    intro s h hcold
    show execPpsInMissing s = _
    rw [execPpsInMissing, if_neg (by simp [h, hcold])]
  case pulse =>
    intro s t hdue hact hlive
    show Host.Outcome.next (ppsFlush s) = _
    unfold ppsFlush
    rw [hdue]
    dsimp only
    unfold ppsStart
    dsimp only
    rw [hact, if_pos (by rw [hlive]; rfl)]
    rfl
  case noPulse =>
    intro s h
    show Host.Outcome.next (ppsFlush s) = _
    unfold ppsFlush
    rw [h]
  case pulseEnd =>
    intro s hact hlive
    show execPpsOutPulseEnd s = _
    unfold execPpsOutPulseEnd
    dsimp only
    rw [if_pos hact, if_pos hlive]
    rfl
  case edge =>
    intro s rising t hcold hedge ts last w
    obtain ⟨hextra, hplain⟩ := ppsInEdge_taken (t := t) hcold hedge
    exact ⟨fun h1 h2 h3 => hextra ⟨h1, h3, h2⟩, hplain⟩
  case sync =>
    intro port m stamp s origin hup hport hruns hdom hbody hstate
    rw [execPtpMessage_up hup, (ptpMessage_own hport hruns hdom).1 origin hbody hstate]
  case delay =>
    intro port m stamp s hup hport hruns hdom hbody hstate
    rw [execPtpMessage_up hup, (ptpMessage_own hport hruns hdom).2 hbody hstate]
  case other =>
    intro port m stamp s hup h
    rw [execPtpMessage_up hup, ptpMessage_exception h]
  case restart =>
    intro s hruns hstate hrole
    show execPtpAnnounceTimeout s = _
    have hrole' : getObj (ptpRestart s) Oid.timePtpRole = 0 := by
      rw [ptpRestart, getObj_putObj_ne (by decide)]
      exact hrole
    unfold execPtpAnnounceTimeout
    dsimp only
    rw [if_pos (by rcases hstate with h | h <;> simp [hruns, h]), if_pos hrole']
  case interval =>
    intro s departure p t hruns hup hstop
    have hgo : ¬((!ptpRuns s || !portUp s p || isStopped s p 0) = true) := by simp [hruns, hup, hstop]
    refine ⟨fun hstate hstep => ?_, fun hstate hstep => ?_, fun hstate => ?_, fun hstate => ?_⟩
    · show execPtpMessageInterval .sync departure s = _
      unfold execPtpMessageInterval
      dsimp only
      rw [if_neg hgo, if_neg (not_not_intro hstate), if_pos hstep]
    · show execPtpMessageInterval .sync departure s = _
      unfold execPtpMessageInterval
      dsimp only
      rw [if_neg hgo, if_neg (not_not_intro hstate), if_neg hstep]
    · show execPtpMessageInterval .delayReq departure s = _
      unfold execPtpMessageInterval
      dsimp only
      rw [if_neg hgo, if_pos hstate]
    · show execPtpMessageInterval .announce departure s = _
      unfold execPtpMessageInterval
      dsimp only
      rw [if_neg hgo, if_neg (not_not_intro hstate)]

end Sys2Proof.Machine
end

section
/-! SUPPORT. Occurrences, fires through BAR0, grist cells, pins and vectors (O8, O9). -/

namespace Sys2Proof.Machine
open Sys2Proof

/-! ### Occurrences (R162, R167, R174) -/

/-- The channel without the arrivals of one tick, its coincidences counted. -/
def merged (c : Nat) (a : Arrival) (l : List Arrival) (s : State) : State :=
  addObj Oid.eventsChCoincidence c l.length
    { s with fab := { s.fab with arrivals := s.fab.arrivals.filter (fun b => !(b.chan = c && b.tick = a.tick)) } }

theorem fabObj_merged {id : Nat} (h : Oid.eventsChCoincidence ≠ id) (c idx : Nat) (a : Arrival) (l : List Arrival) (s : State) :
    fabObj (merged c a l s) id idx = fabObj s id idx :=
  fabObj_congr rfl (getObj_addObj_ne h)

theorem stormCount_merged (c : Nat) (a : Arrival) (l : List Arrival) (s : State) : (stormCount c (merged c a l s)).2 = (stormCount c s).2 := by
  unfold stormCount
  dsimp only
  rw [fabObj_merged (by decide)]
  rfl

theorem execOccurrenceDelivery_due {c : Chan} {s : State} {a : Arrival} {l : List Arrival} (h : firstArrivals s c.val = a :: l)
    (htick : a.tick < s.time.ticks) : exec (.occurrenceDelivery c) s = .next (
      if fabObj s Oid.eventsChEnable c.val = 0 then bump Oid.eventsChDisabledDrops c.val (merged c.val a l s)
      else if (stormCount c.val s).2 then stormTrip c.val (stormCount c.val (merged c.val a l s)).1
      else meetConsumer c.val a l (stormCount c.val (merged c.val a l s)).1) := by
  have hdeliver : deliver c.val a l s =
      if fabObj (merged c.val a l s) Oid.eventsChEnable c.val = 0 then bump Oid.eventsChDisabledDrops c.val (merged c.val a l s)
      else if (stormCount c.val (merged c.val a l s)).2 then stormTrip c.val (stormCount c.val (merged c.val a l s)).1
      else meetConsumer c.val a l (stormCount c.val (merged c.val a l s)).1 := rfl
  show execOccurrenceDelivery c s = _
  rw [execOccurrenceDelivery, h]
  dsimp only
  rw [if_pos htick, hdeliver, fabObj_merged (by decide), stormCount_merged]

/-- Settles O8, by what merging the arrivals of a tick leaves of the channel. -/
theorem occurrencesAreDelivered : Obligations.OccurrencesAreDelivered := by
  refine ⟨⟨fun c s a l h htick hoff => ?_, fun c s a l h htick hon hstorm => ?_, fun c s h => ?_⟩, fun c s o h hk hfree => ?_⟩
  · rw [execOccurrenceDelivery_due h htick, if_pos hoff, merged]
  · rw [execOccurrenceDelivery_due h htick, if_neg hon, if_neg (by rw [hstorm]; decide), merged]
  · show execOccurrenceDelivery c s = _
    rw [execOccurrenceDelivery, h]
  · show execPendingDelivery c s = _
    unfold execPendingDelivery
    dsimp only
    rw [h]
    dsimp only
    rw [if_pos (by rw [hfree]; simpa using hk), dropPending]

/-! ### Fires through BAR0 (R169) -/

/-- The arrival that a host fire leaves in a channel. -/
def hostArrival (s : State) (trig : Option Nat) (c : Nat) : Arrival :=
  { chan := c, tick := s.time.ticks, ts := stampNow s, due := now s, trig := trig, orig := .host, late := false }

theorem bar0Fire_allowed {c : Nat} {trig : Option Nat} {s : State} (h : fireAllowed s c .bar0 false = true) :
    bar0Fire c trig s = { s with fab := { s.fab with arrivals := s.fab.arrivals ++ [hostArrival s trig c] } } := by
  rw [bar0Fire, if_pos h]
  rfl

/-- Channels that are all allowed get one arrival each, in order. -/
theorem bar0FireAll_allowed (cs : List Nat) : ∀ s : State, (∀ c ∈ cs, fireAllowed s c .bar0 false = true) →
    bar0FireAll cs s = { s with fab := { s.fab with arrivals := s.fab.arrivals ++ cs.map (hostArrival s none) } } := by
  induction cs with
  | nil =>
    intro s _
    rw [List.map_nil, List.append_nil]
    rfl
  | cons c cs ih =>
    intro s h
    have hfirst : bar0FireAll (c :: cs) s = bar0FireAll cs (bar0Fire c none s) := rfl
    rw [hfirst, bar0Fire_allowed (h c List.mem_cons_self)]
    refine (ih _ ?_).trans ?_
    · exact fun d hd => h d (List.mem_cons_of_mem _ hd)
    dsimp only
    rw [List.append_assoc, List.map_cons]
    rfl

theorem maskChans_lt {mask base c : Nat} : ∀ n, c ∈ maskChans mask base n → c < base + n := by
  intro n
  induction n with
  | zero => intro h; exact absurd h (by simp [maskChans])
  | succ n ih =>
    intro h
    rw [maskChans, List.mem_append] at h
    rcases h with h | h
    · have := ih h
      omega
    · split at h
      · rw [List.mem_singleton] at h
        omega
      · exact absurd h (by simp)

theorem bar0Write_on {f : State → State} {s : State} (h : bar0Writable s = true) : bar0Write f s = f (barAccess s) := by
  have hs : bar0Served s = true := (Bool.and_eq_true_iff.mp h).1
  rw [bar0Write, hs, h]
  rfl

/-! ### Trigger inputs (R175) -/

theorem trigInEdge_selected {n t : Nat} {l : Bool} {s : State} (hsel : edgeSelected (fabObj s Oid.eventsTrigInEdge n) l = true)
    (hlev : (tabGet ({} : TrigIn) n s.fab.trigIn).level ≠ l) (hstuck : (tabGet ({} : TrigIn) n s.fab.trigIn).stuck = false) (ht : t ≤ now s) :
    trigInEdge n l t s = trigInTick n (putTrigIn n { tabGet ({} : TrigIn) n s.fab.trigIn with level := l, edge := some (s.time.ticks, kilnStamp s t) } s) := by
  unfold trigInEdge
  dsimp only
  rw [if_neg hlev, hstuck, if_neg (by decide), hsel, if_neg (by decide), if_pos ht]

theorem trigInTick_edge {n tick ts : Nat} {p : TrigIn} {s : State} : trigInTick n (putTrigIn n { p with edge := some (tick, ts) } s) =
    if tick + fabObj s Oid.eventsTrigInFilter n ≤ s.time.ticks then acceptEdge n tick ts (putTrigIn n { p with edge := some (tick, ts) } s)
    else putTrigIn n { p with edge := some (tick, ts) } s := by
  have hget : tabGet ({} : TrigIn) n (putTrigIn n { p with edge := some (tick, ts) } s).fab.trigIn = { p with edge := some (tick, ts) } := tabGet_put_self
  unfold trigInTick
  rw [hget]
  rfl

theorem acceptEdge_first {n tick ts : Nat} {s : State} (h : (tabGet ({} : TrigIn) n s.fab.trigIn).lastTick = none) :
    acceptEdge n tick ts s = fireStamped (0x050 + n) ts (setSticky Oid.eventsTrigInStatus n 1
      (putTrigIn n { tabGet ({} : TrigIn) n s.fab.trigIn with edge := none, lastTick := some tick } s)) := by
  unfold acceptEdge
  dsimp only
  rw [h]
  rfl

/-! ### Grist cells (R171, R172) -/

/-- The cell after a tick: what its register makes of what the filter accepted. -/
theorem gristTick_cell (n : Nat) (s : State) : ∃ g : Grist, g.arrived = [] ∧
    tabGet {} n (gristTick n s).fab.grist = gristRegister (fabObj s Oid.eventsGristInputMode n) (fabObj s Oid.eventsGristRegister n)
      (fabObj s Oid.eventsGristEdge n) (decide (fabObj s Oid.eventsGristQ n = 1)) g := by
  refine ⟨gristFilter (fabObj s Oid.eventsGristFilter n) (gristLook n s).1 (gristLook n s).2, rfl, ?_⟩
  unfold gristTick
  extract_lets l g fab u
  have hu : tabGet ({} : Grist) n u.fab.grist = g := tabGet_put_self
  split
  · exact hu
  · unfold putGristQ
    split
    · exact hu
    · exact hu

theorem gristTick_pulse {n : Nat} {s : State} (h : fabObj s Oid.eventsGristRegister n = 0) :
    (gristTick n s).objs = s.objs ∧ (gristTick n s).mem = s.mem := by
  unfold gristTick
  extract_lets l g fab u
  rw [if_pos h]
  exact ⟨rfl, rfl⟩

theorem gristTick_q {n : Nat} {s : State} (h : fabObj s Oid.eventsGristRegister n ≠ 0)
    (hprev : tabFind (objKey Oid.eventsGristQ n) s.fab.prev = none) :
    getObj (gristTick n s) Oid.eventsGristQ n = b2n (tabGet ({} : Grist) n (gristTick n s).fab.grist).acc := by
  unfold gristTick
  extract_lets l g fab u
  have hput : ∀ v, putGristQ n v u = putObj Oid.eventsGristQ n v u := fun v => by
    unfold putGristQ
    rw [show u.fab.prev = s.fab.prev from rfl, hprev]
    rfl
  have hu : tabGet ({} : Grist) n u.fab.grist = g := tabGet_put_self
  rw [if_neg h, hput, getObj_putObj_self, putObj_fab, hu]

theorem gristClear_spec {n : Nat} {s : State} (hclear : (tabGet ({} : Grist) n s.fab.grist).clear = true)
    (hprev : tabFind (objKey Oid.eventsGristQ n) s.fab.prev = none) :
    tabGet {} n (gristClear n s).fab.grist = { fireNext := (tabGet ({} : Grist) n s.fab.grist).fireNext } ∧
    getObj (gristClear n s) Oid.eventsGristQ n = 0 ∧ (gristClear n s).out = s.out ∧ (gristClear n s).fab.arrivals = s.fab.arrivals := by
  unfold gristClear
  dsimp only
  rw [if_pos hclear]
  generalize hu' : { s with fab := { s.fab with grist := tabPut {} n { fireNext := (tabGet ({} : Grist) n s.fab.grist).fireNext } s.fab.grist } } = u
  have hprev' : tabFind (objKey Oid.eventsGristQ n) u.fab.prev = none := by rw [← hu']; exact hprev
  have hput : putGristQ n 0 u = putObj Oid.eventsGristQ n 0 u := by
    unfold putGristQ
    rw [hprev']
    rfl
  rw [hput, getObj_putObj_self, putObj_fab, putObj_out, ← hu']
  exact ⟨tabGet_put_self, rfl, rfl, rfl⟩

/-- Settles O9: fires through BAR0 by the channels they are allowed, the rows of cells, pins and vectors by their branches. -/
theorem firesCellsAndVectors : Obligations.FiresCellsAndVectors := by
  refine ⟨⟨?fire, ?refused, ?mask⟩, ?cell, ?edge, ?stuck, ?pulseEnd, ?timer, ?unmask, ?status, fun g s hc hp => gristClear_spec hc hp,
    ?pulse, ?flop⟩
  case fire =>
    intro c trig s hw hallow
    refine ⟨bar0Fire c.val (some trig.toNat) (barAccess s), ?_, ?_, ?_⟩
    · show Host.Outcome.next (bar0Write _ s) = _
      rw [bar0Write_on hw]
    · rw [bar0Fire_allowed (by exact hallow)]
      rfl
    · rw [bar0Fire_allowed (by exact hallow)]
      rfl
  case refused =>
    intro c trig s hw hallow
    show Host.Outcome.next (bar0Write _ s) = _
    rw [bar0Write_on hw, bar0Fire, if_neg (by rw [show fireAllowed (barAccess s) c.val .bar0 false = false from hallow]; decide),
      refuseFire, if_pos c.isLt]
    rfl
  case mask =>
    intro w mask s hw hallow
    show Host.Outcome.next (bar0Write _ s) = _
    rw [bar0Write_on hw, bar0FireAll_allowed _ (barAccess s) (fun c hc => hallow ⟨c, by have := maskChans_lt 32 hc; omega⟩)]
    rfl
  case cell =>
    intro g s h
    show execGristCellFire g s = _
    rw [execGristCellFire, if_pos h]
  case edge =>
    intro n rising s t hcold hsel hlev hstuck hle p w
    have hexec : exec (.trigInEdge n rising t) s =
        .next (if s.time.ticks + fabObj s Oid.eventsTrigInFilter n.val ≤ s.time.ticks then
          acceptEdge n.val s.time.ticks (kilnStamp s (Time96pack t)) w else w) := by
      show execTrigInEdge n rising t s = _
      rw [execTrigInEdge, if_neg hcold, trigInEdge_selected hsel hlev hstuck hle]
      exact congrArg Host.Outcome.next (trigInTick_edge (p := p))
    refine ⟨fun hf => ?_, fun hf hlast => ?_⟩
    · rw [hexec, if_neg (by omega)]
    · have hget : tabGet ({} : TrigIn) n.val w.fab.trigIn = { p with edge := some (s.time.ticks, kilnStamp s (Time96pack t)) } := tabGet_put_self
      rw [hexec, if_pos (by omega), acceptEdge_first (by rw [hget]; exact hlast), hget]
  case stuck =>
    intro n s hlim hedge hlev hstuck
    show execTrigInStuck n s = _
    unfold execTrigInStuck
    dsimp only
    rw [if_neg (by simp [hlim, hedge, hlev, hstuck, levelActive])]
  case pulseEnd =>
    intro n s hp ha hlive
    show execTrigOutPulseEnd n s = _
    unfold execTrigOutPulseEnd
    dsimp only
    rw [if_pos hp]
    unfold driveTrigOut
    dsimp only
    rw [ha, if_pos (by rw [hlive]; rfl)]
    show Host.Outcome.next (emit (.trigOut n.val _ (false != decide (fabObj s Oid.eventsTrigOutPolarity n.val = 1))) _) = _
    rw [Bool.false_bne]
  case timer =>
    intro v s htimer hcount hform hmask hbus
    show execVectorTimer v s = _
    unfold execVectorTimer
    dsimp only
    rw [if_pos (by simp [htimer, hcount])]
    unfold sendVector
    dsimp only
    rw [hform]
    exact congrArg Host.Outcome.next (if_neg (show ¬((vecMasked s v.val || busStopped s) = true) by rw [hmask, hbus]; decide))
  case unmask =>
    intro v s hform hbus w
    have hw : unmaskVector v.val s = w := by
      unfold unmaskVector
      rw [hform]
    have hheld : heldWith w v.val = (s.fab.pba.filter (fun p => p.2 && decide (p.1 = v.val))).map (fun p => p.1) := by
      have hform' : w.link.form = .msix := hform
      unfold heldWith
      rw [hform']
    have hexec : exec (.msixVectorUnmask v) s = .next ((heldWith w v.val).foldl (fun s u =>
        sendVector u { s with fab := { s.fab with pba := tabPut false u false s.fab.pba } }) w) := by
      show execMsixVectorUnmask v s = _
      unfold execMsixVectorUnmask
      rw [hw]
      dsimp only
      rw [show busStopped w = false from hbus, if_neg (by decide)]
    refine ⟨fun hnone => ?_, fun hone => ?_⟩
    · rw [hexec, hheld, hnone]
      rfl
    · rw [hexec, hheld, hone]
      rfl
  case status =>
    intro w value s h
    show execSrcStatusWrite w value s = _
    rw [execSrcStatusWrite, if_pos h]
    rfl
  case pulse =>
    intro g s hreg
    obtain ⟨c, harr, hcell⟩ := gristTick_cell g.val s
    obtain ⟨hobjs, hmem⟩ := gristTick_pulse hreg
    rw [hreg] at hcell
    rw [hcell, gristRegister_pulse, gristRegister_acc, gristRegister_arrived]
    exact ⟨rfl, harr, hobjs, hmem⟩
  case flop =>
    intro g s hreg hprev q d
    obtain ⟨c, -, hcell⟩ := gristTick_cell g.val s
    have hd : d.acc = c.acc := (congrArg Grist.acc hcell).trans gristRegister_acc
    have hf : d.fireNext = ((fabObj s Oid.eventsGristEdge g.val = 0 && !q && c.acc) || (fabObj s Oid.eventsGristEdge g.val = 1 && q && !c.acc) ||
        (fabObj s Oid.eventsGristEdge g.val = 2 && q != c.acc)) := (congrArg Grist.fireNext hcell).trans (gristRegister_flop hreg)
    have hq : getObj (gristTick g.val s) Oid.eventsGristQ g.val = b2n d.acc := gristTick_q hreg hprev
    refine ⟨hq, fun h => ?_, fun h => ?_, fun h => ?_⟩
    · rw [hf, hd, h]
      simp
    · rw [hf, hd, h]
      simp
    · rw [hf, hd, h]
      simp

end Sys2Proof.Machine
end

section
/-! SUPPORT. Trigger messages on the cascade (O10). -/

namespace Sys2Proof.Machine
open Sys2Proof

/-! ### Frames for cascade links (R251, R253) -/

theorem queueBh_fab (q dep : Nat) (f : BhFrame) (s : State) : (queueBh q dep f s).fab = s.fab ∧ (queueBh q dep f s).objs = s.objs ∧
    (queueBh q dep f s).time = s.time ∧ (queueBh q dep f s).mem = s.mem ∧ (queueBh q dep f s).modes = s.modes := by
  unfold queueBh
  extract_lets l b
  clear_value b l
  split
  · exact ⟨rfl, rfl, rfl, rfl, rfl⟩
  · exact ⟨rfl, rfl, rfl, rfl, rfl⟩

/-- What a forwarded copy leaves alone. -/
def forwardView (s : State) := (s.fab, s.objs, s.time, s.mem)

theorem forwardTrigger_view (q src seq hops : Nat) (rep : Bool) (pl : List Byte) (s : State) :
    forwardView (forwardTrigger q src seq hops rep pl s) = forwardView s := by
  unfold forwardTrigger
  refine foldl_still (π := forwardView) (fun u k => ?_) _ _
  obtain ⟨hfab, hobjs, htime, hmem, -⟩ := queueBh_fab k (now u) (triggerCopy src (hops - 1) seq rep pl none) u
  rw [forwardView, hfab, hobjs, htime, hmem, forwardView]

/-- A frame leaves at once on a link that sends nothing, and the other links stay as they are. -/
theorem queueBh_idle {q dep : Nat} {f : BhFrame} {s : State} (hleft : (bhLink s q).left = 0) (hqueue : (bhLink s q).queue = []) :
    (queueBh q dep f s).out = s.out ++ [.cascade q (bhBytes f dep)] ∧ ∀ k, k ≠ q → bhLink (queueBh q dep f s) k = bhLink s k := by
  unfold queueBh
  dsimp only
  rw [if_pos (by rw [hleft, hqueue]; rfl)]
  generalize bhBytes f dep = b
  refine ⟨rfl, fun k hk => ?_⟩
  rw [bhLink, emit_lp]
  exact tabGet_put_ne (Ne.symm hk)

/-- The bytes of a forwarded copy do not depend on when it leaves. -/
theorem bhBytes_triggerCopy (src hops seq dep : Nat) (rep : Bool) (pl : List Byte) :
    bhBytes (triggerCopy src hops seq rep pl none) dep = cascadeFrame 4 (if rep then 0xC0 else 0x80) 0 src hops seq pl := by
  rw [bhBytes, triggerCopy]
  dsimp only
  rw [if_neg Bool.false_ne_true, List.append_nil, List.append_nil]

theorem foldl_queueBh_out (src hops seq : Nat) (rep : Bool) (pl : List Byte) (l : List Nat) : l.Nodup → ∀ s : State,
    (∀ k ∈ l, (bhLink s k).left = 0 ∧ (bhLink s k).queue = []) →
    (l.foldl (fun s k => queueBh k (now s) (triggerCopy src hops seq rep pl none) s) s).out =
      s.out ++ l.map (fun k => .cascade k (cascadeFrame 4 (if rep then 0xC0 else 0x80) 0 src hops seq pl)) := by
  induction l with
  | nil => exact fun _ s _ => (List.append_nil _).symm
  | cons k l ih =>
    intro hnodup s hidle
    obtain ⟨hk, hl⟩ := List.nodup_cons.mp hnodup
    obtain ⟨hleft, hqueue⟩ := hidle k List.mem_cons_self
    obtain ⟨hout, hothers⟩ := queueBh_idle (dep := now s) (f := triggerCopy src hops seq rep pl none) hleft hqueue
    rw [List.foldl_cons, ih hl _ (fun j hj => ?_), hout, bhBytes_triggerCopy, List.map_cons, List.append_assoc]
    · rfl
    · rw [hothers j (fun e => hk (e ▸ hj))]
      exact hidle j (List.mem_cons_of_mem _ hj)

/-- A frame goes behind those of its rank and above, before those below. -/
theorem bhInsert_ranked (f : BhFrame) (l : List BhFrame) (h : l.Pairwise (fun a b => a.rank ≤ b.rank)) :
    bhInsert f l = l.filter (fun g => g.rank ≤ f.rank) ++ f :: l.filter (fun g => f.rank < g.rank) := by
  induction l with
  | nil => rfl
  | cons g l ih =>
    obtain ⟨hg, hl⟩ := List.pairwise_cons.mp h
    rw [bhInsert]
    by_cases hlt : f.rank < g.rank
    · have hnone : l.filter (fun x => decide (x.rank ≤ f.rank)) = [] := List.filter_eq_nil_iff.mpr (fun x hx => by
        have := hg x hx
        simp
        omega)
      have hall : l.filter (fun x => decide (f.rank < x.rank)) = l := List.filter_eq_self.mpr (fun x hx => by
        have := hg x hx
        simp
        omega)
      rw [if_pos hlt, List.filter_cons_of_neg (by simp; omega), List.filter_cons_of_pos (by simpa using hlt), hnone, hall]
      rfl
    · rw [if_neg hlt, ih hl, List.filter_cons_of_pos (by simp; omega), List.filter_cons_of_neg (by simpa using hlt)]
      rfl

/-! ### Scheduled fires (R181, R182) -/

theorem foldl_brewFire (l : List SchedFire) : ∀ s : State, l.foldl (fun s f => brewFire f false s) s = { s with fab := { s.fab with
    arrivals := s.fab.arrivals ++ l.map (fun f =>
      { chan := f.chan, tick := s.time.ticks, ts := stampNow s, due := f.t, trig := some f.trig, orig := .cascade, late := false }) } } := by
  induction l with
  | nil =>
    intro s
    rw [List.map_nil, List.append_nil]
    rfl
  | cons f l ih =>
    intro s
    rw [List.foldl_cons, ih]
    unfold brewFire arrive
    dsimp only
    rw [List.append_assoc, List.map_cons]
    rfl

theorem fireAllowed_congr {s u : State} (hprev : u.fab.prev = s.fab.prev)
    (hobj : ∀ id, Oid.portBhFrames ≠ id → ∀ idx, getObj u id idx = getObj s id idx)
    (c : Nat) (f : Firer) (secure : Bool) : fireAllowed u c f secure = fireAllowed s c f secure := by
  unfold fireAllowed
  rw [fabObj_congr hprev (hobj Oid.eventsChOwner (by decide) c), fabObj_congr hprev (hobj Oid.eventsChSecure (by decide) c)]

theorem receiveTrigger_scheduled {chan trig t : Nat} {s : State} (hallow : fireAllowed s chan .cascade false = true) (hle : now s ≤ t)
    (hroom : s.fab.sched.length < 64) : receiveTrigger chan trig t s =
      { s with fab := { s.fab with sched := s.fab.sched ++ [{ chan := chan, t := t, trig := trig }] } } := by
  unfold receiveTrigger
  dsimp only
  rw [hallow, if_neg (by decide), if_neg (Nat.not_lt.mpr hle), scheduleFire, if_pos hroom]

/-- Settles O10, by what a copy leaves alone, where a frame joins a queue, and the fires that are due. -/
theorem brewhouseTriggers : Obligations.BrewhouseTriggers := by
  refine ⟨?trigger, ?forward, fun f l h => bhInsert_ranked f l h, ?due⟩
  case trigger =>
    intro q src seq hops rep chan trig t s hq hcold hboot hhops hcut hseen hle hroom hallow w
    have hview : forwardView w = forwardView (bump Oid.portBhFrames q.val s) := forwardTrigger_view _ _ _ _ _ _ _
    have hexec : exec (.trigger q src seq hops rep chan trig t) s =
        .next (triggerFrame q.val src.toNat seq.toNat hops.toNat rep chan.toNat trig.toNat (Time96pack t) s) := by
      show execTrigger q src seq hops rep chan trig t s = _
      rw [execTrigger, if_pos (by simp [hq, hcold, hboot])]
    simp only [forwardView, Prod.mk.injEq] at hview
    obtain ⟨hfab, hobjs, htime, -⟩ := hview
    have hfab' : w.fab = s.fab := hfab
    have hallow' : ∀ x : FabState, x.prev = s.fab.prev → fireAllowed { w with fab := x } chan.toNat .cascade false = true := by
      intro x hx
      have hobj : ∀ id, Oid.portBhFrames ≠ id → ∀ idx, getObj { w with fab := x } id idx = getObj s id idx :=
        fun id h idx => (getObj_congr (s := bump Oid.portBhFrames q.val s) hobjs id idx).trans (getObj_bump_ne h)
      exact (fireAllowed_congr (s := s) hx hobj _ _ _).trans hallow
    have hnow : ∀ x : FabState, now { w with fab := x } = now s := fun x => congrArg (fun c : TimeState => packTime c.sec c.ns (c.frac / 65536)) htime
    have hops' : hops.toNat ≠ 0 := fun h => hhops (BitVec.eq_of_toNat_eq h)
    have hstep : triggerFrame q.val src.toNat seq.toNat hops.toNat rep chan.toNat trig.toNat (Time96pack t) s =
        (if (src.toNat, seq.toNat) ∈ w.fab.trigSeen then w
          else receiveTrigger chan.toNat trig.toNat (Time96pack t)
            { w with fab := { w.fab with trigSeen := ((src.toNat, seq.toNat) :: w.fab.trigSeen).take 1024 } }) := by
      unfold triggerFrame
      dsimp only
      rw [if_neg (by simp [hops', hcut])]
    rw [hexec, hstep, hfab', if_neg hseen]
    refine congrArg Host.Outcome.next (receiveTrigger_scheduled (hallow' _ rfl) ?_ hroom)
    rw [hnow]
    exact hle
  case forward =>
    intro q src seq hops rep pl s hnodup hidle
    have hview := forwardTrigger_view q src seq hops rep pl s
    simp only [forwardView, Prod.mk.injEq] at hview
    obtain ⟨-, hobjs, -, hmem⟩ := hview
    exact ⟨foldl_queueBh_out _ _ _ _ _ _ (hnodup.filter _) s (fun k hk => hidle k ((List.mem_filter.mp hk).1)), hobjs, hmem⟩
  case due =>
    intro s
    refine ⟨fireScheduled s, rfl, ?_⟩
    unfold fireScheduled
    dsimp only
    rw [foldl_brewFire]
    exact ⟨rfl, rfl, rfl, rfl, rfl, rfl⟩

end Sys2Proof.Machine
end

section
/-! SUPPORT. What takes a running lane down (O13). -/

namespace Sys2Proof.Machine
open Sys2Proof

/-! ### The sixteenth invalid header of a window (R196) -/

/-- An invalid header in lock, the window not over: one more counted, and the lock goes at the sixteenth. -/
theorem wholeBlock_sixteenth {cascade : Bool} {y : LaneX} (hvalid : y.valid = false) (hbad : y.bad = 15) :
    (wholeBlock cascade y true).1.bad = 16 ∧ (wholeBlock cascade y true).1.good = 0 ∧ (wholeBlock cascade y true).2 = (false, true) := by
  have hstep : huntStep 0#2 y true = ({ y with good := 0, bad := 16, seen := y.seen + 1 }, false, true) := by
    simp [huntStep, hbad]
  have hhead : (if (!y.valid) = true then (0#2 : BitVec 2) else if y.control = true then 2#2 else 1#2) = 0#2 := by simp [hvalid]
  unfold wholeBlock
  dsimp only
  rw [hhead, hstep]
  dsimp only
  split
  · exact ⟨rfl, rfl, rfl⟩
  · exact ⟨rfl, rfl, rfl⟩

theorem huntBits_sixteenth {cascade : Bool} {b : List Bool} {x : LaneX} (hfill : x.fill = 0) (hslip : x.slip = false) (hbad : x.bad = 15)
    (hlen : b.length = 66) (hhead : b[0]? = b[1]?) : ∃ y : LaneX, y.bad = 16 ∧ y.good = 0 ∧
      huntBits cascade b { x := x, locked := true } = { x := y, locked := false, invalid := 1, rest := [] } := by
  obtain ⟨y, -, -, hy, hrun⟩ := huntBits_whole (cascade := cascade) (t := []) (a := { x := x, locked := true }) hfill hslip hlen
  rw [decide_eq_false (not_not_intro hhead), headerOf] at hy
  simp only [Prod.mk.injEq] at hy
  obtain ⟨hvalid, -, hybad, -⟩ := hy
  obtain ⟨h1, h2, h3⟩ := wholeBlock_sixteenth (cascade := cascade) hvalid (hybad.trans hbad)
  rw [List.append_nil] at hrun
  refine ⟨(wholeBlock cascade y true).1, h1, h2, ?_⟩
  rw [hrun, huntAfter]
  dsimp only
  rw [h3]
  rfl

theorem rxBits_length (n : Nat) (b : List Bool) (s : State) : (rxBits n b s).length = b.length := List.length_map _

/-- An inverted header is as valid as it was. -/
theorem rxBits_head {n : Nat} {b : List Bool} {s : State} (h : b[0]? = b[1]?) : (rxBits n b s)[0]? = (rxBits n b s)[1]? := by
  unfold rxBits
  rw [List.getElem?_map, List.getElem?_map, h]

theorem laneState_congr {s u : State} {n : Nat} (hobjs : u.objs = s.objs) (hflt : u.flt = s.flt) : laneState u n = laneState s n := by
  have hobj : ∀ id idx, getObj u id idx = getObj s id idx := fun id idx => getObj_congr hobjs id idx
  rw [laneState, laneState, getLane_congr hobjs, laneRetired_congr hflt (quadModeActive_congr (hobj _ _) (hobj _ _) (hobj _ _))]

theorem laneState_stickyLane {n id m : Nat} {s : State} (hid : id / 65536 = 16) (hmode : id ≠ Oid.quadMode) (hst : id ≠ Oid.laneState) :
    laneState (stickyLane id n m s) n = laneState s n :=
  (laneState_congr (s := putLane id n (getLane s id n ||| m) s) rfl rfl).trans (laneState_putLane hid hmode hst)

theorem laneState_bumpLane {n id : Nat} {s : State} (hid : id / 65536 = 16) (hmode : id ≠ Oid.quadMode) (hst : id ≠ Oid.laneState) :
    laneState (bumpLane id n s) n = laneState s n :=
  laneState_putLane (v := (getLane s id n + 1) % 2 ^ objBits (quadId id (n / 4))) hid hmode hst

/-- Settles O13: each row by the state of the lane, the loss of lock by the sixteenth invalid header. -/
theorem laneLosses : Obligations.LaneLosses := by
  refine ⟨?los, ?cdr, ?hunt, ?eye, ?relock, ?lock⟩
  case los =>
    intro n s hsig h4 h7
    show execLossOfSignal n s = _
    unfold execLossOfSignal
    rw [if_neg (by rw [hsig]; decide)]
    dsimp only
    have hstate : laneState (stickyLane Oid.laneStatus n.val 1 (bumpLane Oid.laneLosCount n.val (putLane Oid.laneSignal n.val 0 s))) n.val =
        laneState s n.val := by
      rw [laneState_stickyLane (by decide) (by decide) (by decide), laneState_bumpLane (by decide) (by decide) (by decide),
        laneState_putLane (by decide) (by decide) (by decide)]
    rw [if_pos (.inl (by rw [hstate]; exact ⟨h4, h7⟩))]
  case cdr =>
    intro n s h5 h7
    show execCdrLockLost n s = _
    unfold execCdrLockLost
    dsimp only
    rw [if_pos (.inl ⟨h5, h7⟩)]
  case hunt =>
    intro n s hst hlock
    show execHuntTimeout n s = _
    unfold execHuntTimeout
    rw [if_pos (by simp [hst, hlock])]
  case eye =>
    intro n s hst hlt
    show execEyeFault n s = _
    unfold execEyeFault
    rw [if_pos (by simp [hst, hlt])]
  case relock =>
    intro n s hre h4 h6
    show execRelockTimeout n s = _
    unfold execRelockTimeout
    dsimp only
    rw [if_pos (by simp [hre, h4, h6])]
  case lock =>
    intro n s b hlock hst hbad hseen hfill hslip hlen hhead
    obtain ⟨y, h1, h2, hrun⟩ := huntBits_sixteenth (cascade := decide (quadModeActive s (n.val / 4) = 5)) hfill hslip hbad
      ((rxBits_length n.val b s).trans hlen) (rxBits_head hhead)
    refine ⟨y, h1, h2, ?_⟩
    show execBlockLockLost n b s = _
    rw [execBlockLockLost, if_pos hlock, hlen]
    have hne : (rxBits n.val b s).isEmpty = false := by
      cases hrx : rxBits n.val b s with
      | nil =>
        have := rxBits_length n.val b s
        rw [hrx, hlen] at this
        exact absurd this (by decide)
      | cons c l => rfl
    unfold lineBits
    dsimp only
    rw [hst, hne, if_neg (by decide), hlock]
    rw [show decide ((1 : Nat) = 1) = true from rfl, hrun]
    dsimp only
    rw [lineBits_nil]
    rfl

end Sys2Proof.Machine
end

section
/-! SUPPORT. Quad references, alignment and the PRBS checker (O14). -/

namespace Sys2Proof.Machine
open Sys2Proof

/-! ### A lane under test touches nothing but the lane (R213 to R216) -/

/-- Only the lanes' registers, lane n's objects, the emissions and the free choices differ. -/
def OnlyLane (n : Nat) (s t : State) : Prop :=
  t = { s with lp := t.lp, objs := t.objs, out := t.out, free := t.free, fresh := t.fresh } ∧
    ∀ id idx, idx < 65536 → ¬(id / 65536 = 0x10 + n / 4 ∧ idx = n % 4) → getObj t id idx = getObj s id idx

theorem OnlyLane.refl (n : Nat) (s : State) : OnlyLane n s s := ⟨rfl, fun _ _ _ _ => rfl⟩

theorem OnlyLane.trans {n : Nat} {s t u : State} (h1 : OnlyLane n s t) (h2 : OnlyLane n t u) : OnlyLane n s u := by
  obtain ⟨ht, hto⟩ := h1
  obtain ⟨hu, huo⟩ := h2
  refine ⟨?_, fun id idx hidx hne => (huo id idx hidx hne).trans (hto id idx hidx hne)⟩
  rw [ht] at hu
  exact hu

/-- The state with other lane registers, emissions and choices. -/
theorem onlyLane_of_objs {n : Nat} {s t : State} (h : t = { s with lp := t.lp, objs := t.objs, out := t.out, free := t.free, fresh := t.fresh })
    (hobjs : t.objs = s.objs) : OnlyLane n s t := ⟨h, fun id idx _ _ => getObj_congr hobjs id idx⟩

theorem onlyLane_putObj {n id v : Nat} {s : State} (hid : id / 65536 = 16) : OnlyLane n s (putObj (quadId id (n / 4)) (n % 4) v s) := by
  refine ⟨rfl, fun jd j hj hne => ?_⟩
  by_cases h : quadId id (n / 4) = jd
  · by_cases hidx : n % 4 = j
    · exact absurd ⟨by rw [← h, quadId]; omega, hidx.symm⟩ hne
    · rw [h]
      exact getObj_putObj_idx (by omega) hj hidx
  · exact getObj_putObj_ne h

theorem onlyLane_putLane {n id v : Nat} {s : State} (hid : id / 65536 = 16) : OnlyLane n s (putLane id n v s) := onlyLane_putObj hid

theorem onlyLane_addObj {n id k : Nat} {s : State} (hid : id / 65536 = 16) : OnlyLane n s (addObj (quadId id (n / 4)) (n % 4) k s) :=
  onlyLane_putObj hid

theorem onlyLane_stickyLane {n id m : Nat} {s : State} (hid : id / 65536 = 16) : OnlyLane n s (stickyLane id n m s) :=
  (onlyLane_putObj (v := getLane s id n ||| m) hid).trans (onlyLane_of_objs rfl rfl)

theorem onlyLane_putLaneX (n : Nat) (x : LaneX) (s : State) : OnlyLane n s (putLaneX n x s) := onlyLane_of_objs rfl rfl

theorem onlyLane_chkRun (n : Nat) (bs : List Bool) (s : State) : OnlyLane n s (chkRun n bs s) := by
  unfold chkRun
  extract_lets code inv p c t u v w
  split
  · exact OnlyLane.refl n s
  · have hw : OnlyLane n s w := (((onlyLane_putLaneX n c.x s).trans (onlyLane_putLane (by decide))).trans (onlyLane_addObj (by decide))).trans
      (onlyLane_addObj (by decide))
    split
    · exact hw.trans (onlyLane_stickyLane (by decide))
    · exact hw

theorem onlyLane_genRun (n len : Nat) (s : State) : OnlyLane n s (genRun n len s).2 := by
  unfold genRun
  extract_lets p x seed a
  have hseed : OnlyLane n s seed.2 := by
    show OnlyLane n s (if _ then _ else _ : List Bool × State).2
    split
    · exact onlyLane_of_objs rfl rfl
    · exact OnlyLane.refl n s
  exact (hseed.trans (onlyLane_putLaneX n a.x seed.2)).trans (onlyLane_addObj (by decide))

theorem onlyLane_testRun (n : Nat) (bs : List Bool) (s : State) : OnlyLane n s (testRun n bs s) := by
  unfold testRun
  extract_lets r line u
  have hr : OnlyLane n s r.2 := by
    show OnlyLane n s (testSends n (rxBits n bs s) s).2
    unfold testSends
    split
    · exact OnlyLane.refl n s
    · split
      · exact OnlyLane.refl n s
      · exact onlyLane_genRun _ _ _
  have hu : OnlyLane n s u := by
    show OnlyLane n s (if _ then _ else _ : State)
    split
    · exact hr
    · exact hr.trans (onlyLane_of_objs rfl rfl)
  exact hu.trans (onlyLane_chkRun _ _ _)

/-! ### References (R223) -/

theorem laneState_putQuad {n id v q : Nat} {s : State} (hid : id / 65536 = 16) (hmode : id ≠ Oid.quadMode) (hst : id ≠ Oid.laneState) :
    laneState (putObj (quadId id q) 0 v s) n = laneState s n := by
  have hlane : getLane (putObj (quadId id q) 0 v s) Oid.laneState n = getLane s Oid.laneState n :=
    getObj_putObj_ne (fun e => hst (quadId_inj hid (by decide) e))
  rw [laneState, laneState, hlane, laneRetired_congr (s := s) (t := putObj (quadId id q) 0 v s) rfl (quadModeActive_putQuad hid hmode)]

theorem quadRefLost_idle {q : Nat} {s : State} (h : ((quadLanes q).all (fun n => laneState s n = 0)) = true) :
    quadRefLost q s = putObj (quadId Oid.quadRateActual q) 0 0 (putObj (quadId Oid.quadPllLocked q) 0 0
      (setSticky (quadId Oid.quadStatus q) 0 (if pllLocked s q then 3 else 2) s)) := by
  unfold quadRefLost
  extract_lets u v
  have hstate : ∀ n, laneState v n = laneState s n := by
    intro n
    have hu : laneState u n = laneState s n :=
      (laneState_congr (s := putObj (quadId Oid.quadStatus q) 0 (getObj s (quadId Oid.quadStatus q) ||| (if pllLocked s q then 3 else 2)) s) rfl rfl).trans
        (laneState_putQuad (by decide) (by decide) (by decide))
    exact (laneState_putQuad (by decide) (by decide) (by decide)).trans
      ((laneState_putQuad (by decide) (by decide) (by decide)).trans hu)
  have hv : v = putObj (quadId Oid.quadRateActual q) 0 0 (putObj (quadId Oid.quadPllLocked q) 0 0 u) := rfl
  clear_value v
  refine Eq.trans ?_ hv
  have hall : ∀ n ∈ quadLanes q, laneState v n = 0 := fun n hn => by
    rw [hstate n]
    simpa using List.all_eq_true.mp h n hn
  generalize quadLanes q = l at hall
  induction l with
  | nil => rfl
  | cons n l ih =>
    rw [List.foldl_cons, if_pos (hall n List.mem_cons_self)]
    exact ih (fun m hm => hall m (List.mem_cons_of_mem _ hm))

/-! ### Alignment (R230) -/

theorem foldl_max_ge (l : List Nat) : ∀ m : Nat, m ≤ l.foldl max m ∧ ∀ x ∈ l, x ≤ l.foldl max m := by
  induction l with
  | nil => exact fun m => ⟨Nat.le_refl m, fun x h => absurd h (by simp)⟩
  | cons y l ih =>
    intro m
    obtain ⟨h1, h2⟩ := ih (max m y)
    refine ⟨Nat.le_trans (Nat.le_max_left m y) h1, fun x hx => ?_⟩
    rcases List.mem_cons.mp hx with rfl | hx
    · exact Nat.le_trans (Nat.le_max_right m x) h1
    · exact h2 x hx

theorem foldl_min_le (l : List Nat) : ∀ m : Nat, l.foldl min m ≤ m ∧ ∀ x ∈ l, l.foldl min m ≤ x := by
  induction l with
  | nil => exact fun m => ⟨Nat.le_refl m, fun x h => absurd h (by simp)⟩
  | cons y l ih =>
    intro m
    obtain ⟨h1, h2⟩ := ih (min m y)
    refine ⟨Nat.le_trans h1 (Nat.min_le_left m y), fun x hx => ?_⟩
    rcases List.mem_cons.mp hx with rfl | hx
    · exact Nat.le_trans h1 (Nat.min_le_right m x)
    · exact h2 x hx

/-- An order that the markers give names every lane, from four markers within 180 ns. -/
theorem laneOrder_some {cascade : Bool} {marks : List LaneMark} {o : List Nat} (h : laneOrder cascade marks = some o) :
    (∀ l, l < 4 → l ∈ o) ∧ marks.length = 4 ∧ ∀ a ∈ marks, ∀ b ∈ marks, a.at_.toNat ≤ b.at_.toNat + 180000 := by
  unfold laneOrder at h
  dsimp only at h
  split at h
  · next hcond =>
    obtain rfl := Option.some.inj h
    simp only [Bool.and_eq_true, decide_eq_true_eq, List.all_eq_true] at hcond
    obtain ⟨⟨hlen, hall⟩, hnear⟩ := hcond
    refine ⟨fun l hl => hall l (List.mem_range.mpr hl), hlen, fun a ha b hb => ?_⟩
    have hmax := (foldl_max_ge (marks.map (fun m => m.at_.toNat)) 0).2 _ (List.mem_map_of_mem ha)
    have hmin := (foldl_min_le (marks.map (fun m => m.at_.toNat)) 4294967296).2 _ (List.mem_map_of_mem hb)
    omega
  · exact absurd h (by simp)

theorem laneState_putPortX (n p : Nat) (x : PortX) (s : State) : laneState (putPortX p x s) n = laneState s n :=
  laneState_congr (u := putPortX p x s) rfl rfl

theorem execAlignmentLock_single {p : Port} {marks : List LaneMark} {s : State} (hmode : quadModeActive s (p.val / 4) = 1)
    (hst : laneState s p.val = 7) : exec (.alignmentLock ⟨p, marks⟩) s = .next (updatePort p.val
      (putPortX p.val { portX s p.val with aligned := true, hiBer := false, order := [0] } s)) := by
  have hexist : portExists s p.val = true := by rw [portExists, hmode]; rfl
  have hbond : isBonded s (p.val / 4) = false := by rw [isBonded, hmode]; rfl
  show execAlignmentLock ⟨p, marks⟩ s = _
  unfold execAlignmentLock
  dsimp only
  rw [hbond, hmode, hexist]
  have hst' : ∀ x, laneState (putPortX p.val x s) p.val ≠ 6 := fun x => by
    rw [laneState_putPortX, hst]
    decide
  simp [hst, hst']

theorem execAlignmentLock_bonded {p : Port} {marks : List LaneMark} {s : State} {o : List Nat} (hbond : isBonded s (p.val / 4) = true)
    (hp : p.val % 4 = 0) (hst : ∀ k, k < 4 → laneState s (p.val + k) = 7) (ho : laneOrder false marks = some o) :
    exec (.alignmentLock ⟨p, marks⟩) s = .next (updatePort p.val
      (putPortX p.val { portX s p.val with aligned := true, hiBer := false, order := o } s)) := by
  have hmode : quadModeActive s (p.val / 4) ≠ 5 := by
    intro h
    rw [isBonded, h] at hbond
    exact absurd hbond (by decide)
  have hlanes : ∀ n ∈ quadLanes (p.val / 4), laneState s n = 7 := by
    intro n hn
    obtain ⟨i, hi, rfl⟩ := List.mem_map.mp hn
    have := hst i (List.mem_range.mp hi)
    rwa [show 4 * (p.val / 4) + i = p.val + i by omega]
  have hstay : ∀ l : List Nat, (∀ n ∈ l, laneState s n = 7) → ∀ x,
      l.foldl (fun s n => if laneState s n = 6 then setLaneState n 7 s else s) (putPortX p.val x s) = putPortX p.val x s := by
    intro l
    induction l with
    | nil => exact fun _ _ => rfl
    | cons n l ih =>
      intro hl x
      have hn : laneState (putPortX p.val x s) n ≠ 6 := by
        rw [laneState_putPortX, hl n List.mem_cons_self]
        decide
      rw [List.foldl_cons, if_neg hn]
      exact ih (fun m hm => hl m (List.mem_cons_of_mem _ hm)) x
  have hall : (quadLanes (p.val / 4)).all (fun n => laneState s n = 7 || (laneState s n = 6 && getLane s Oid.laneBlockLock n = 1)) = true :=
    List.all_eq_true.mpr (fun n hn => by rw [hlanes n hn]; rfl)
  show execAlignmentLock ⟨p, marks⟩ s = _
  unfold execAlignmentLock
  dsimp only
  rw [hbond, decide_eq_false hmode, hp, Bool.true_or, if_pos rfl, if_pos rfl, ho, hall, hstay _ hlanes]
  rfl

/-- Settles O14: references and alignment by the lanes' states, the checker by what a lane under test touches. -/
theorem quadsAndPrbs : Obligations.QuadsAndPrbs := by
  refine ⟨⟨?pll, fun r s => rfl, ?lost, fun q s _ h => quadRefLost_idle h, fun p marks s hm hst => execAlignmentLock_single hm hst,
    fun p marks o s hb hp hst ho => execAlignmentLock_bonded hb hp hst ho, fun cascade marks o h => laneOrder_some h⟩, ?acts, ?frame⟩
  case pll =>
    intro q s hlock hlost hne
    show execPllLockTimeout q s = _
    unfold execPllLockTimeout
    dsimp only
    rw [if_neg (by simpa [hlock, hlost] using hne)]
  case lost =>
    intro r s h
    show execReferenceLost r s = _
    rw [execReferenceLost, h, if_neg (by decide)]
    rfl
  case acts =>
    intro n bs s h
    show execPrbsCheckerLock n bs s = _
    rw [execPrbsCheckerLock, if_pos h]
  case frame =>
    intro n bs s t h
    have hexec : execPrbsCheckerLock n bs s = .next t := h
    rw [execPrbsCheckerLock] at hexec
    have hlane : OnlyLane n.val s t := by
      split at hexec
      · obtain rfl := Host.Outcome.next.inj hexec
        exact onlyLane_testRun _ _ _
      · obtain rfl := Host.Outcome.next.inj hexec
        exact OnlyLane.refl _ _
    exact hlane

end Sys2Proof.Machine
end

section
/-! SUPPORT. What a write of a live value does, by its object's group; the mode, firmware and plan writes (O17). -/

namespace Sys2Proof.Machine

open Sys2Proof

/-! ### What a write of a live value does -/

/-- What a write asks of an object's row: its sticky bits, and whether its values persist. -/
def rowKind (id : Nat) : Option (Nat × Bool) := (objRow? id).map (fun r => (stickyBits r, r.access.persist))

theorem applyWrite_plain {id : Nat} (h : rowKind id = some (0, false)) (idx : Nat) (v : PVal) (f : Firer) (fails : Option (List Nat)) (s : State) :
    applyWrite id idx v f fails s = effect id idx v f fails s := by
  obtain ⟨r, hr, hk⟩ := Option.map_eq_some_iff.mp h
  obtain ⟨hs, hp⟩ := Prod.mk.inj hk
  simp [applyWrite, hr, hs, hp]

theorem applyWrite_stored {id : Nat} (h : rowKind id = some (0, true)) (idx : Nat) (v : PVal) (f : Firer) (fails : Option (List Nat)) (s : State) :
    applyWrite id idx v f fails s = stores id idx (effect id idx v f fails s) := by
  obtain ⟨r, hr, hk⟩ := Option.map_eq_some_iff.mp h
  obtain ⟨hs, hp⟩ := Prod.mk.inj hk
  simp [applyWrite, hr, hs, hp, stores]

/-- No object outside the group of the plans seals, clears or saves one. -/
theorem planWrite_outside {id : Nat} (h : id / 65536 ≠ 124) (s : State) : planWrite id s = none := by
  have hne : ∀ k, k / 65536 = 124 → ¬ id / 16 * 16 = k := by intro k hk; omega
  simp only [planWrite]
  rw [if_neg (hne _ (by decide)), if_neg (hne _ (by decide)), if_neg (hne _ (by decide))]

/-- A write of an object that is no sticky BITSET, does not persist and starts no flash operation of a key has the effect of its group. -/
theorem writes_plain {c : Instr} {via : Via} {id idx : Nat} {v : PVal} {f : State → State}
    (hk : rowKind id = some (0, false)) (hg : id / 65536 ≠ 124) (h1 : id ≠ Oid.modesFwCommit) (h2 : id ≠ Oid.dictPersistClear)
    (hx : ∀ s, exec c s = .next (viaWrite via id idx v none s)) (hf : ∀ w u, effect id idx v w none u = f u) :
    Writes c via id idx v f :=
  writeRow c via id idx v none (fun _ u => f u) hx (planWrite_outside hg) h1 h2
    (fun q u _ _ _ => by rw [applyWrite_plain hk, hf])

/-- The same of an object that persists: its store starts. -/
theorem writes_stored {c : Instr} {via : Via} {id idx : Nat} {v : PVal} {f : State → State}
    (hk : rowKind id = some (0, true)) (hg : id / 65536 ≠ 124) (h1 : id ≠ Oid.modesFwCommit) (h2 : id ≠ Oid.dictPersistClear)
    (hx : ∀ s, exec c s = .next (viaWrite via id idx v none s)) (hf : ∀ w u, effect id idx v w none u = f u) :
    Writes c via id idx v (fun u => stores id idx (f u)) :=
  writeRow c via id idx v none (fun _ u => stores id idx (f u)) hx (planWrite_outside hg) h1 h2
    (fun q u _ _ _ => by rw [applyWrite_stored hk, hf])

/-- A value moved in blocks to such an object has the same effect. -/
theorem writesBlocks_plain {c : Instr} {via : Via} {id idx : Nat} {b : List Byte} {f : State → State}
    (hk : rowKind id = some (0, false)) (hg : id / 65536 ≠ 124) (h1 : id ≠ Oid.modesFwCommit) (h2 : id ≠ Oid.dictPersistClear)
    (hx : ∀ s, exec c s = .next (viaImage via id idx b s)) (hf : ∀ w u, effect id idx (.bytes b) w none u = f u) :
    WritesBlocks c via id idx b f := by
  intro s h hh hc
  simp only [handedBlocks, Option.map_eq_some_iff] at hh
  obtain ⟨⟨who, secure, le, reply⟩, ha, rfl⟩ := hh
  have hpay : writePayload le id idx b = valuePayload le id idx (.bytes b) := by
    obtain ⟨r, hr, -⟩ := hc
    have hr' : objRow? id = some r := hr
    simp [valuePayload, hr', encodeValue]
  have hs := serve_commit _ idx (.bytes b) _ rfl rfl rfl rfl hpay hc
  rw [commit_write _ idx _ _ hc (planWrite_outside hg _), flashStatus_other h1 h2, applyWrite_plain hk, hf] at hs
  rw [hx, viaImage, ha]
  exact congrArg _ (request_of_serve _ _ idx _ _ rfl rfl rfl hs)

section Effects

variable {id : Nat} (idx : Nat) (v : PVal) (w : Firer) (fails : Option (List Nat)) (s : State)

theorem effect_modes (h : id / 65536 = 0x01) : effect id idx v w fails s = effModes id (valNum v) (valBytes v) s := by
  simp [effect, h]
theorem effect_dict (h : id / 65536 = 0x02) : effect id idx v w fails s = effDict id idx (valNum v) (valBytes v) s := by
  simp [effect, h]
theorem effect_time (h : id / 65536 = 0x08) : effect id idx v w fails s = effTime id idx (valNum v) s := by
  simp [effect, h]
theorem effect_events (h : id / 65536 = 0x0C) : effect id idx v w fails s = effEvents id idx (valNum v) w s := by
  simp [effect, h]
theorem effect_counters (h : id / 65536 = 0x78) : effect id idx v w fails s = effCounters id (valNum v) s := by
  simp [effect, h]

end Effects


/-! ### Mode, firmware and plan writes -/

theorem takeRequest_eq (m : Mode) (u : State) : takeRequest m u =
    if m = .halt then haltBy 0x20 (putObj Oid.modesRequest 0 11 u)
    else if u.modes.target.isSome ∨ u.modes.grace = true then { u with modes := { u.modes with pendingReq := some m } } else acceptRequest m u := by
  have ht : inTransition u = true ↔ u.modes.target.isSome ∨ u.modes.grace = true := by rw [inTransition, Bool.or_eq_true]
  rw [takeRequest]
  split
  · rfl
  · exact ite_congr (propext ht) (fun _ => rfl) (fun _ => rfl)

theorem wakeAtWritten_eq (t : Nat) (u : State) : wakeAtWritten t u =
    (let w := putObj Oid.modesWakeAt 0 t { u with modes := { u.modes with wakeAtPassed := false } }
     if isOn w Oid.modesWakeEnable = true ∧ t < now w then wakeFires true w else w) := by
  simp only [wakeAtWritten, Bool.and_eq_true, decide_eq_true_eq]

theorem effModes_shutdown (n : Nat) (b : List Byte) (s : State) : effModes Oid.modesShutdown n b s = startShutdown s := by
  rw [effModes, if_neg (by decide), if_neg (by decide), if_neg (by decide), if_pos rfl]

theorem effModes_wakeAt (n : Nat) (b : List Byte) (s : State) : effModes Oid.modesWakeAt n b s = wakeAtWritten n s := by
  rw [effModes, if_neg (by decide), if_neg (by decide), if_neg (by decide), if_neg (by decide), if_pos rfl]

/-- A commit of the image of the update slot, by the outcome of its check and of the flash. -/
theorem commitImage_spec (s : State) :
    (imageCheck (slotImage s (updateSlot s)) = .signatureFailed → commitImage s = putObj Oid.modesFwUpdateStatus 0 2 s) ∧
    (imageCheck (slotImage s (updateSlot s)) = .versionTooLow → commitImage s = putObj Oid.modesFwUpdateStatus 0 3 s) ∧
    (imageCheck (slotImage s (updateSlot s)) = .lengthInvalid → commitImage s = putObj Oid.modesFwUpdateStatus 0 4 s) ∧
    (imageCheck (slotImage s (updateSlot s)) = .good → (takeChoice 2 s).1 = 1 → commitImage s = putObj Oid.modesFwUpdateStatus 0 5 (takeChoice 2 s).2) ∧
    (imageCheck (slotImage s (updateSlot s)) = .good → (takeChoice 2 s).1 ≠ 1 → ¬(s.modes.step = .recovery ∧ s.modes.current = .boot) →
      commitImage s = startStore (.object (objKey Oid.modesPreferredSlot 0)) (putObj Oid.modesPreferredSlot 0 (updateSlot s)
        (putObj Oid.modesFwUpdateStatus 0 1 (takeChoice 2 s).2))) := by
  refine ⟨fun h => ?_, fun h => ?_, fun h => ?_, fun h hc => ?_, fun h hc hr => ?_⟩
  · simp only [commitImage, h]
  · simp only [commitImage, h]
  · simp only [commitImage, h]
  · simp only [commitImage, h, if_pos hc]
  · simp only [commitImage, h, if_neg hc]
    rw [if_neg (by simpa using hr)]

/-- FW_COMMIT is answered by what the update status then reads. -/
theorem fwCommit_row (via : Via) (value : BitVec 32) : WriteRow (.fwCommit via value) via Oid.modesFwCommit 0 (.num value.toNat) none
    (fun _ u => (if getObj (commitImage u) Oid.modesFwUpdateStatus = 5 then St.flash else St.ok, commitImage u)) := by
  refine commitRow _ _ _ _ _ _ _ (fun s => rfl) (fun q u hc hid _ => ?_)
  rw [commit_write q 0 _ u hc (planWrite_outside (by rw [hid]; decide) u), hid, applyWrite_plain (by decide),
    effect_modes _ _ _ _ _ (by decide)]
  rfl

/-- PERSIST_CLEAR asks for the erasure unless the flash fails. -/
theorem persistClear_row (via : Via) (value : BitVec 32) : WriteRow (.persistClear via value) via Oid.dictPersistClear 0 (.num value.toNat) none
    (fun _ u => if (takeChoice 2 u).1 = 1 then (St.flash, (takeChoice 2 u).2)
      else (St.ok, { (takeChoice 2 u).2 with dict := { (takeChoice 2 u).2.dict with
        flash := { (takeChoice 2 u).2.dict.flash with clearPending := true } } })) := by
  refine commitRow _ _ _ _ _ _ _ (fun s => rfl) (fun q u hc hid _ => ?_)
  rw [commit_write q 0 _ u hc (planWrite_outside (by rw [hid]; decide) u), hid, applyWrite_plain (by decide),
    effect_dict _ _ _ _ _ (by decide)]
  rw [effDict, if_neg (by decide), if_neg (by decide), if_pos rfl, flashStatus, if_neg (by decide), if_pos rfl, eraseFails]
  by_cases h : (takeChoice 2 u).1 = 1
  · simp [h]
  · simp [h]

theorem planNamed_planElem (p : PlanId) : planNamed (planElem p) = p := by cases p <;> rfl

/-- A write that seals, clears or saves a plan: what it does to the plan is its whole effect. -/
theorem plan_row {c : Instr} {via : Via} {id v : Nat} {f : State → Nat × State} (hx : ∀ s, exec c s = .next (viaNum via id 0 v s))
    (hp : ∀ u, planWrite id u = some (f u)) : WriteRow c via id 0 (.num v) none (fun _ u => f u) := by
  refine commitRow _ _ _ _ _ _ _ hx (fun q u _ hid _ => ?_)
  rw [commitLive, hid, hp]

theorem sealPlan_eq (p : PlanId) (u : State) : sealPlan p u =
    if (planOf u p).state ≠ .opened then (St.planState, u)
    else match sealFailure (planOf u p).entries u with
    | none => (St.ok, putPlan p { planOf u p with state := .sealed } u)
    | some (o, c) => (St.consistency, putObj (Oid.plansFailCode + planElem p) 0 c (putObj (Oid.plansFailObject + planElem p) 0 o u)) := by
  rw [sealPlan]
  simp only [bne_iff_ne]
  rfl

theorem clearPlan_eq (p : PlanId) (u : State) : clearPlan p u =
    if (planOf u p).state = .scheduled ∨ (planOf u p).state = .active then (St.planState, u)
    else (St.ok, putPlan p { state := .empty, entries := [] } u) := by
  rw [clearPlan]
  simp only [Bool.or_eq_true, decide_eq_true_eq]

theorem savePlan_eq (p : PlanId) (u : State) : savePlan p u =
    if (planOf u p).state = .empty ∨ (planOf u p).state = .opened then (St.planState, u)
    else if 131072 < planBytes (planOf u p) then (St.planFull, u)
    else (St.ok, startStore (.plan p (planOf u p).entries)
      { u with dict := { u.dict with waiting := u.dict.waiting.filter (fun i => !isPlanStore p i) } }) := by
  simp only [savePlan, Bool.or_eq_true, decide_eq_true_eq]

theorem planWrite_seal (p : PlanId) (u : State) : planWrite (Oid.plansSeal + planElem p) u = some (sealPlan p u) := by
  cases p <;> rfl
theorem planWrite_clear (p : PlanId) (u : State) : planWrite (Oid.plansClear + planElem p) u = some (clearPlan p u) := by
  cases p <;> rfl
theorem planWrite_save (p : PlanId) (u : State) : planWrite (Oid.plansSave + planElem p) u = some (savePlan p u) := by
  cases p <;> rfl

/-- A write of any other object takes the value whose bytes it carries. -/
theorem objectWrite_row {via : Via} {obj : BitVec 24} {index : Half} {data : List Byte} {r : ObjRow} {v : PVal} (hr : objRow? obj.toNat = some r)
    (h1 : obj.toNat ≠ Oid.modesFwCommit) (h2 : obj.toNat ≠ Oid.dictPersistClear) (hn : ∀ u, planWrite obj.toNat u = none)
    (hd : ∀ le, encodeValue le r.type v = data) :
    WriteRow (.objectWrite via obj index data) via obj.toNat index.toNat v none
      (fun q u => (St.ok, applyWrite obj.toNat index.toNat v (firerOf q.who) none u)) := by
  refine writeRow _ _ _ _ _ _ _ (fun s => ?_) hn h1 h2 (fun _ _ _ _ _ => rfl)
  show execObjectWrite via obj index data s = _
  rw [execObjectWrite, viaWrite, hr]
  simp only [hd]

/-- Settles O17: each object's effect, by its group, and the plans' writes. -/
theorem modeAndPlanWrites : Obligations.ModeAndPlanWrites := by
  have modes : ∀ {c via id v f}, rowKind id = some (0, false) → id / 65536 = 0x01 → id ≠ Oid.modesFwCommit →
      (∀ s, exec c s = .next (viaWrite via id 0 v none s)) → (∀ u, effModes id (valNum v) (valBytes v) u = f u) → Writes c via id 0 v f :=
    fun hk hg h1 hx hf => writes_plain hk (by omega) h1 (fun h => absurd (h ▸ hg) (by decide)) hx
      (fun _ u => (effect_modes _ _ _ _ _ hg).trans (hf u))
  refine ⟨fun via => ⟨fun value => ?reset, fun image hl => ?image, fun image hl => ?blocks, fun value => fwCommit_row via value,
      commitImage_spec, fun value m hm => ?request, fun value => ?shutdown, fun t => ?wakeAt, fun value => persistClear_row via value⟩,
    fun via => ⟨fun p value => ?seals, fun p value => ?clears, fun p value => ?saves,
      fun obj index data r v hr h1 h2 hn hd => objectWrite_row hr h1 h2 hn hd⟩⟩
  case reset => exact modes (by decide) (by decide) (by decide) (fun s => rfl) (fun u => rfl)
  case image =>
    refine modes (by decide) (by decide) (by decide) (fun s => ?_) (fun u => rfl)
    show execFwImageWrite via image s = _
    rw [execFwImageWrite, if_pos hl]
  case blocks =>
    refine writesBlocks_plain (by decide) (by decide) (by decide) (by decide) (fun s => ?_)
      (fun _ u => effect_modes _ _ _ _ _ (by decide))
    show execFwImageWrite via image s = _
    rw [execFwImageWrite, if_neg (by omega)]
  case request =>
    refine modes (by decide) (by decide) (by decide) (fun s => rfl) (fun u => ?_)
    rw [← takeRequest_eq, valNum, effModes, if_pos rfl, hm]
  case shutdown => exact modes (by decide) (by decide) (by decide) (fun s => rfl) (fun u => by rw [effModes_shutdown, startShutdown])
  case wakeAt => exact modes (by decide) (by decide) (by decide) (fun s => rfl) (fun u => (effModes_wakeAt _ _ _).trans (wakeAtWritten_eq _ u))
  case seals => exact plan_row (fun s => rfl) (fun u => (planWrite_seal p u).trans (congrArg some (sealPlan_eq p u)))
  case clears => exact plan_row (fun s => rfl) (fun u => by rw [planWrite_clear, clearPlan_eq])
  case saves => exact plan_row (fun s => rfl) (fun u => by rw [planWrite_save, savePlan_eq])

end Sys2Proof.Machine
end

section
/-! SUPPORT. The writes of the timekeeper objects, fires and grist writes through the dictionary (O18, O19). -/

namespace Sys2Proof.Machine

open Sys2Proof

/-! ### Writes of the timekeeper objects -/

theorem effTime_increment (idx n : Nat) (s : State) : effTime Oid.timeIncrement idx n s = setIncrement n s := by
  rw [effTime, if_pos rfl]

theorem effTime_step (idx n : Nat) (s : State) : effTime Oid.timeStep idx n s = addStep (toSigned 64 n) s := by
  rw [effTime, if_neg (by decide), if_pos rfl]

theorem effTime_set (idx n : Nat) (s : State) : effTime Oid.timeSet idx n s = setTime n s := by
  rw [effTime, if_neg (by decide), if_neg (by decide), if_pos rfl]

theorem effTime_upstream (idx n : Nat) (s : State) : effTime Oid.timeBhUpstream idx n s = setUpstream n s := by
  rw [effTime, if_neg (by decide), if_neg (by decide), if_neg (by decide), if_neg (by decide), if_neg (by decide), if_neg (by decide),
    if_neg (by decide), if_pos rfl]

theorem effTime_cmpMode (u n : Nat) (s : State) : effTime Oid.timeCmpMode u n s =
    (let w := putObj Oid.timeCmpMode u n s
     setArmed u (if getObj w Oid.timeCmpMode u = 0 then 0 else if cmpReached w u (now w) (shortNow w) then 4 else 1) w) := by
  rw [effTime, if_neg (by decide), if_neg (by decide), if_neg (by decide), if_neg (by decide), if_neg (by decide), if_neg (by decide),
    if_neg (by decide), if_neg (by decide), if_neg (by decide), if_pos rfl, armCompare]
  dsimp only
  split <;> rfl

/-- A target written: a target already reached fires first, and a unit that was armed is armed with the new one (R155). -/
theorem effTime_cmpTarget {id : Nat} (h : id = Oid.timeCmpTarget ∨ id = Oid.timeCmpShort) (u n : Nat) (s : State) : effTime id u n s =
    if tabGet 0 u s.time.cmpArmed ≠ 0 then armCompare u (putObj id u n (evalCompare u s)) else putObj id u n (evalCompare u s) := by
  have hid : (decide (id = Oid.timeCmpTarget) || decide (id = Oid.timeCmpShort)) = true := by simpa using h
  have hne : ∀ k, k ≠ Oid.timeCmpTarget → k ≠ Oid.timeCmpShort → id ≠ k := by
    rintro k h1 h2 rfl
    rcases h with h | h
    · exact h1 h
    · exact h2 h
  have hport : ¬(decide (id = Oid.timePtpPort) || decide (id = Oid.timePtpRole)) = true := by
    rw [Bool.or_eq_true, decide_eq_true_eq, decide_eq_true_eq]
    exact not_or.mpr ⟨hne _ (by decide) (by decide), hne _ (by decide) (by decide)⟩
  rw [effTime, if_neg (hne _ (by decide) (by decide)), if_neg (hne _ (by decide) (by decide)), if_neg (hne _ (by decide) (by decide)),
    if_neg (hne _ (by decide) (by decide)), if_neg (hne _ (by decide) (by decide)), if_neg (hne _ (by decide) (by decide)), if_neg hport,
    if_neg (hne _ (by decide) (by decide)), if_neg (hne _ (by decide) (by decide)), if_neg (hne _ (by decide) (by decide)), if_pos hid]
  dsimp only
  simp only [bne_iff_ne]

theorem effCounters_at (n : Nat) (s : State) : effCounters Oid.countersSnapshotAt n s = armSnapshot n s := by
  rw [effCounters, if_pos rfl]

theorem effCounters_now (n : Nat) (s : State) :
    effCounters Oid.countersSnapshotNow n s = { s with time := { s.time with snapNow := true } } := by
  rw [effCounters, if_neg (by decide), if_pos rfl]

/-- Settles O18: each object's effect. -/
theorem timeWrites : Obligations.TimeWrites := by
  intro via
  have time : ∀ {c id idx v f}, rowKind id = some (0, false) → id / 65536 = 0x08 →
      (∀ s, exec c s = .next (viaWrite via id idx v none s)) → (∀ u, effTime id idx (valNum v) u = f u) → Writes c via id idx v f :=
    fun hk hg hx hf => writes_plain hk (by omega) (fun h => absurd (h ▸ hg) (by decide)) (fun h => absurd (h ▸ hg) (by decide)) hx
      (fun _ u => (effect_time _ _ _ _ _ hg).trans (hf u))
  have counters : ∀ {c id v f}, rowKind id = some (0, false) → id / 65536 = 0x78 →
      (∀ s, exec c s = .next (viaWrite via id 0 v none s)) → (∀ u, effCounters id (valNum v) u = f u) → Writes c via id 0 v f :=
    fun hk hg hx hf => writes_plain hk (by omega) (fun h => absurd (h ▸ hg) (by decide)) (fun h => absurd (h ▸ hg) (by decide)) hx
      (fun _ u => (effect_counters _ _ _ _ _ hg).trans (hf u))
  refine ⟨fun value => ?inc, fun value => ?step, fun t => ?set, fun value => ?up, fun k value => ?mode, fun k t => ?target,
    fun k v => ?short, fun t => ?snapAt, fun value => ?snapNow⟩
  case inc => exact time (by decide) (by decide) (fun s => rfl) (fun u => effTime_increment _ _ u)
  case step => exact time (by decide) (by decide) (fun s => rfl) (fun u => effTime_step _ _ u)
  case set => exact time (by decide) (by decide) (fun s => rfl) (fun u => effTime_set _ _ u)
  case up =>
    exact writes_stored (by decide) (by decide) (by decide) (by decide) (fun s => rfl)
      (fun _ u => (effect_time _ _ _ _ _ (by decide)).trans (effTime_upstream _ _ u))
  case mode => exact time (by decide) (by decide) (fun s => rfl) (fun u => effTime_cmpMode _ _ u)
  case target => exact time (by decide) (by decide) (fun s => rfl) (fun u => effTime_cmpTarget (.inl rfl) _ _ u)
  case short => exact time (by decide) (by decide) (fun s => rfl) (fun u => effTime_cmpTarget (.inr rfl) _ _ u)
  case snapAt => exact counters (by decide) (by decide) (fun s => rfl) (fun u => effCounters_at _ u)
  case snapNow => exact counters (by decide) (by decide) (fun s => rfl) (fun u => effCounters_now _ u)

/-! ### Fires and grist writes through the dictionary -/

/-- The arrival that a firer's fire without a trigger ID is, in a state. -/
def softArrival (f : Firer) (s : State) (c : Nat) : Arrival :=
  { chan := c, tick := s.time.ticks, ts := stampNow s, due := now s, trig := none, orig := firerOrigin f, late := false }

/-- A mask fires its channels in their order, all of them now. -/
theorem foldl_softFire (f : Firer) (cs : List Nat) (s : State) :
    cs.foldl (fun s c => softFire c none f s) s =
      { s with fab := { s.fab with arrivals := s.fab.arrivals ++ cs.map (softArrival f s) } } := by
  induction cs generalizing s with
  | nil => simp
  | cons c cs ih =>
    rw [List.foldl_cons, ih, List.map_cons, softFire, arrive]
    simp only [List.append_assoc, List.singleton_append]
    rfl

theorem effEvents_fire (c n : Nat) (f : Firer) (s : State) : effEvents Oid.eventsFire c n f s = softFire c (some n) f s := by
  rw [effEvents, if_pos rfl]

theorem effEvents_fireMask (i n : Nat) (f : Firer) (s : State) : effEvents Oid.eventsFireMask i n f s =
    { s with fab := { s.fab with arrivals := s.fab.arrivals ++ (maskChans n (64 * i) 64).map (softArrival f s) } } := by
  rw [effEvents, if_neg (by decide), if_pos rfl, foldl_softFire, maskedChans]

theorem effEvents_grist (item : GristItem) (g n : Nat) (f : Firer) (s : State) :
    effEvents (gristId item) g n f s = gristWritten (gristId item) g n s := by
  cases item <;> rfl

theorem gristId_group (item : GristItem) : gristId item / 65536 = 0x0C := by cases item <;> rfl

theorem gristId_kind (item : GristItem) : rowKind (gristId item) = some (0, false) := by cases item <;> decide

theorem gristId_ne_q {item : GristItem} (h : item ≠ .q) : gristId item ≠ Oid.eventsGristQ := by
  cases item with
  | q => exact absurd rfl h
  | lut => decide
  | inputMode => decide
  | register => decide
  | dSelect => decide
  | filter => decide
  | edge => decide

/-- Settles O19: a fire is one arrival for each channel named, and a grist write clears its cell's memory, but for its Q. -/
theorem fabricWrites : Obligations.FabricWrites := by
  intro via
  have fires : ∀ {c id idx v} {f : Firer → State → State}, rowKind id = some (0, false) → id / 65536 = 0x0C →
      (∀ s, exec c s = .next (viaWrite via id idx v none s)) → (∀ w u, effEvents id idx (valNum v) w u = f w u) →
      WriteRow c via id idx v none (fun q u => (St.ok, f (firerOf q.who) u)) :=
    fun hk hg hx hf => writeRow _ _ _ _ _ _ _ hx (planWrite_outside (by omega)) (fun h => absurd (h ▸ hg) (by decide))
      (fun h => absurd (h ▸ hg) (by decide))
      (fun q u _ _ _ => by rw [applyWrite_plain hk, effect_events _ _ _ _ _ hg, hf])
  have grists : ∀ item (g : Fin 64) (value : BitVec 32) {f : State → State},
      (∀ w u, effEvents (gristId item) g.val value.toNat w u = f u) →
      Writes (.gristWrite via item g value) via (gristId item) g.val (.num value.toNat) f := by
    intro item g value f hf
    have hg := gristId_group item
    refine writes_plain (gristId_kind item) (by omega) (fun h => absurd (h ▸ hg) (by decide)) (fun h => absurd (h ▸ hg) (by decide))
      (fun s => rfl) (fun w u => (effect_events _ _ _ _ _ hg).trans (hf w u))
  refine ⟨fun c trig => ?one, fun i mask => ?mask, fun item g value hq => ?grist, fun g value => ?gristQ⟩
  case one => exact fires (by decide) (by decide) (fun s => rfl) (fun w u => effEvents_fire _ _ w u)
  case mask => exact fires (by decide) (by decide) (fun s => rfl) (fun w u => effEvents_fireMask _ _ w u)
  case grist =>
    refine grists item g value (fun w u => ?_)
    rw [effEvents_grist, gristWritten, if_neg (gristId_ne_q hq)]
  case gristQ =>
    refine grists .q g value (fun w u => ?_)
    rw [effEvents_grist, gristWritten, if_pos (show gristId .q = Oid.eventsGristQ from rfl)]
    rfl

end Sys2Proof.Machine
end

section
/-! SUPPORT. The writes that act on lanes, ports and the stream engines (O20). -/

namespace Sys2Proof.Machine

open Sys2Proof

/-! ### Rows of the groups that hold no key of a flash operation and no plan -/

/-- The groups whose objects seal no plan and start no flash operation of a key. -/
abbrev FreeGroup (g : Nat) : Prop := g ≠ 0x01 ∧ g ≠ 0x02 ∧ g ≠ 0x7C

/-- A write of an object of such a group, no sticky BITSET and not persistent, has the effect of its group; the value has passed the checks. -/
theorem writeRow_free {c : Instr} {via : Via} {id idx : Nat} {v : PVal} {fails : Option (List Nat)} {f : State → State}
    (hk : rowKind id = some (0, false)) (hg : FreeGroup (id / 65536))
    (hx : ∀ s, exec c s = .next (viaWrite via id idx v fails s))
    (hf : ∀ w u, consistencyStatus u id idx (valNum v) = St.ok → effect id idx v w fails u = f u) :
    WriteRow c via id idx v fails (fun _ u => (St.ok, f u)) := by
  obtain ⟨h1, h2, h3⟩ := hg
  refine writeRow c via id idx v fails (fun _ u => f u) hx (planWrite_outside h3) ?_ ?_ (fun q u hc hid _ => ?_)
  · rintro rfl
    exact h1 rfl
  · rintro rfl
    exact h2 rfl
  · obtain ⟨r, -, -, -, -, -, -, -, -, -, -, hcon⟩ := hc
    rw [applyWrite_plain hk, hf _ _ (hid ▸ hcon)]

section Effects

variable {id : Nat} (idx : Nat) (v : PVal) (w : Firer) (fails : Option (List Nat)) (s : State)

theorem effect_port (h : id / 65536 = 0x20) : effect id idx v w fails s = effPort id idx (valNum v) s := by
  simp [effect, h]
theorem effect_underback (h : id / 65536 = 0x28) : effect id idx v w fails s = effUnderback id idx (valNum v) s := by
  simp [effect, h]
theorem effect_lauter (h : id / 65536 = 0x30) : effect id idx v w fails s = effLauter id idx (valNum v) s := by
  simp [effect, h]
theorem effect_cellar (h : id / 65536 = 0x38) : effect id idx v w fails s = effCellar id idx (valNum v) fails s := by
  simp [effect, h]
theorem effect_racking (h : id / 65536 = 0x40) : effect id idx v w fails s = effRacking id idx (valNum v) s := by
  simp [effect, h]
theorem effect_tap (h : id / 65536 = 0x48) : effect id idx v w fails s = effTap id idx (valNum v) (valBytes v) s := by
  simp [effect, h]

end Effects

/-- No object of the quads is a key or a plan's. -/
theorem freeGroup_quad {id q : Nat} (hid : id / 65536 = 16) (hq : q < 16) : FreeGroup (quadId id q / 65536) := by
  have hg : quadId id q / 65536 = 16 + q := by unfold quadId; omega
  omega

/-- The kind of a quad's row is that of its row in group 0x10. -/
theorem rowKind_quad {id q : Nat} (hid : id / 65536 = 16) (hq : q < 16) : rowKind (quadId id q) = rowKind id := by
  rw [rowKind, objRow?_quad id q hid hq, Option.map_map]
  rfl

/-- A write of an object of a quad that does not persist. -/
theorem writes_quad {c : Instr} {via : Via} {id q idx : Nat} {v : PVal} {f : State → State}
    (hk : rowKind id = some (0, false)) (hid : id / 65536 = 16) (hq : q < 16)
    (hx : ∀ s, exec c s = .next (viaWrite via (quadId id q) idx v none s)) (hf : ∀ u, effQuad id q idx (valNum v) u = f u) :
    Writes c via (quadId id q) idx v f :=
  writeRow_free ((rowKind_quad hid hq).trans hk) (freeGroup_quad hid hq) hx
    (fun w u _ => (effect_quad id q idx v w none u hid hq).trans (hf u))

/-- The same of one that persists. -/
theorem writes_quad_stored {c : Instr} {via : Via} {id q idx : Nat} {v : PVal} {f : State → State}
    (hk : rowKind id = some (0, true)) (hid : id / 65536 = 16) (hq : q < 16)
    (hx : ∀ s, exec c s = .next (viaWrite via (quadId id q) idx v none s)) (hf : ∀ u, effQuad id q idx (valNum v) u = f u) :
    Writes c via (quadId id q) idx v (fun u => stores (quadId id q) idx (f u)) := by
  obtain ⟨h1, h2, h3⟩ := freeGroup_quad hid hq
  refine writes_stored ((rowKind_quad hid hq).trans hk) h3 ?_ ?_ hx (fun w u => (effect_quad id q idx v w none u hid hq).trans (hf u))
  · intro h
    exact h1 (h ▸ rfl)
  · intro h
    exact h2 (h ▸ rfl)

/-! ### What the writes of the lanes and ports do -/

theorem laneItemObj_group (item : LaneItem) : laneItemObj item / 65536 = 16 := by cases item <;> rfl

theorem laneItemObj_kind (item : LaneItem) : rowKind (laneItemObj item) = some (0, true) := by cases item <;> decide

/-- A lane's configuration object, written, configures the lane. -/
theorem effQuad_laneItem (item : LaneItem) (n v : Nat) (s : State) :
    effQuad (laneItemObj item) (n / 4) (n % 4) v s = laneConfigured n (putObj (quadId (laneItemObj item) (n / 4)) (n % 4) v s) := by
  have hn : 4 * (n / 4) + n % 4 = n := by omega
  rw [effQuad, hn]
  cases item <;> rfl

theorem effQuad_mode (q n : Nat) (s : State) : effQuad Oid.quadMode q 0 n s = quadRestart q (putObj (quadId Oid.quadMode q) 0 n s) := by
  rw [effQuad]
  dsimp only
  rw [if_pos rfl, setQuadMode]

theorem effQuad_reinstate (n v : Nat) (s : State) : effQuad Oid.laneReinstate (n / 4) (n % 4) v s = reinstateLane n s := by
  rw [effQuad, show 4 * (n / 4) + n % 4 = n by omega]
  dsimp only
  rw [if_neg (by decide), if_neg (by decide), if_neg (by decide), if_neg (by decide), if_pos rfl]

theorem effQuad_inject (n v : Nat) (s : State) : effQuad Oid.lanePrbsInject (n / 4) (n % 4) v s =
    if prbsActs s n = true ∧ getLane s Oid.lanePrbsGen n ≠ 0 ∧ getLane s Oid.laneLoopback n ≠ 2 then
      bumpLane Oid.lanePrbsInjected n (putLaneX n { (laneX s n) with injPend := true } s) else s := by
  rw [effQuad, show 4 * (n / 4) + n % 4 = n by omega]
  dsimp only
  rw [if_neg (by decide), if_neg (by decide), if_pos rfl, prbsInject]
  simp only [Bool.and_eq_true, bne_iff_ne, and_assoc]

theorem effQuad_clear (n v : Nat) (s : State) : effQuad Oid.lanePrbsClear (n / 4) (n % 4) v s =
    putLane Oid.lanePrbsBits n 0 (putLane Oid.lanePrbsErrors n 0 (putLane Oid.lanePrbsInjected n 0 s)) := by
  rw [effQuad, show 4 * (n / 4) + n % 4 = n by omega]
  dsimp only
  rw [if_neg (by decide), if_neg (by decide), if_neg (by decide), if_pos rfl, prbsClear]

theorem effPort_reinstate (p n : Nat) (s : State) : effPort Oid.portReinstate p n s =
    if standsRetired s (resPort p) = true then updatePort p (ubFlushLane p (dropRetired (resPort p) s)) else s := by
  rw [effPort, if_pos rfl, reinstatePort]
  cases standsRetired s (resPort p) <;> rfl

theorem effUnderback_flush (n v : Nat) (s : State) : effUnderback Oid.underbackFlush n v s = if govLane s n = n then ubFlush n s else s := by
  rw [effUnderback, if_pos rfl]

theorem effTap_rawFrame (p n : Nat) (b : List Byte) (s : State) :
    effTap Oid.tapRawFrame p n b s = txFirmware p (b.length + 4) (.fwFrame p (withFcs b)) s := by
  rw [effTap, if_neg (by decide), if_pos rfl, sendFrame]

/-! ### What the writes of the stream engines do -/

theorem effLauter_stampClear (k n : Nat) (s : State) : effLauter Oid.lauterStampClear k n s = clearStamps k s := by
  rw [effLauter, if_pos rfl]

/-- A reinstated PC trains with the outcome that the row carries. -/
theorem effCellar_reinstate (p n : Nat) (pass : Bool) (s : State) :
    effCellar Oid.cellarReinstate p n (some (if pass then [] else [p])) s =
      if getObj s Oid.cellarPcState p = 5 ∧ pass = false then addLog (resPc p) 4 1 0 0 (bump Oid.cellarFaults p s)
      else cellarReinstate p pass s := by
  have hpass : decide (p ∉ (if pass then [] else [p] : List Nat)) = pass := by cases pass <;> simp
  rw [effCellar, if_pos rfl, retrainFails]
  dsimp only
  rw [hpass, pcRetrain]
  simp only [Bool.and_eq_true, decide_eq_true_eq, Bool.not_eq_true']

theorem effCellar_test (n : Nat) (fails : Option (List Nat)) (s : State) : effCellar Oid.cellarTestStart 0 n fails s = startTest s := by
  rw [effCellar, if_neg (by decide), if_pos rfl]

/-- A ring that may be enabled is. -/
theorem effRacking_enable {r : Nat} {s : State} (h : consistencyStatus s Oid.rackingRingEnable r 1 = St.ok) :
    effRacking Oid.rackingRingEnable r 1 s = enableRing r s := by
  have hok : ringEnableOk s r = true := by
    cases hr : ringEnableOk s r
    · simp [consistencyStatus, hr] at h
    · rfl
  rw [effRacking, if_neg (by decide), if_pos rfl, if_pos rfl, if_pos hok]

theorem effRacking_disable (r : Nat) (s : State) : effRacking Oid.rackingRingEnable r 0 s = disableRing r s := by
  rw [effRacking, if_neg (by decide), if_pos rfl, if_neg (by decide)]

theorem effRacking_cqEnable (c : Nat) (s : State) : effRacking Oid.rackingCqEnable c 1 s = enableCq c s := by
  rw [effRacking, if_neg (by decide), if_neg (by decide), if_pos rfl, if_pos rfl]

theorem effRacking_cqDisable (c : Nat) (s : State) : effRacking Oid.rackingCqEnable c 0 s = disableCq c s := by
  rw [effRacking, if_neg (by decide), if_neg (by decide), if_pos rfl, if_neg (by decide)]

theorem effRacking_excEnable {s : State} (h : consistencyStatus s Oid.rackingExcEnable 0 1 = St.ok) :
    effRacking Oid.rackingExcEnable 0 1 s = enableExc s := by
  have hok : excEnableOk s = true := by
    cases hr : excEnableOk s
    · rw [consistencyStatus, if_neg (by decide), if_pos rfl, hr] at h
      exact absurd h (by decide)
    · rfl
  rw [effRacking, if_neg (by decide), if_neg (by decide), if_neg (by decide), if_pos rfl, if_pos rfl, if_pos hok]

theorem effRacking_excDisable (s : State) : effRacking Oid.rackingExcEnable 0 0 s = disableExc s := by
  rw [effRacking, if_neg (by decide), if_neg (by decide), if_neg (by decide), if_pos rfl, if_neg (by decide)]

theorem effRacking_resume (n : Nat) (s : State) : effRacking Oid.rackingResume 0 n s = resumeRacking s := by
  rw [effRacking, if_pos rfl]

theorem effTap_enable {t : Nat} (b : List Byte) {s : State} (h : consistencyStatus s Oid.tapHostEnable t 1 = St.ok) :
    effTap Oid.tapHostEnable t 1 b s = tapEnable t s := by
  have hok : tapEnableOk s t = true := by
    cases hr : tapEnableOk s t
    · rw [consistencyStatus, if_neg (by decide), if_neg (by decide), if_pos rfl, hr] at h
      exact absurd h (by decide)
    · rfl
  rw [effTap, if_pos rfl, if_pos rfl, if_pos hok]

theorem effTap_disable (t : Nat) (b : List Byte) (s : State) : effTap Oid.tapHostEnable t 0 b s = tapDisable t s := by
  rw [effTap, if_pos rfl, if_neg (by decide)]

theorem effect_patternSelftest (v : PVal) (w : Firer) (s : State) :
    effect Oid.patternSelftest 0 v w none s = putObj Oid.patternSelftest 0 1 s := by
  have hg : Oid.patternSelftest / 65536 = 0x4C := rfl
  simp [effect, hg, startSelftest]

theorem effect_hydroSelftest (v : PVal) (w : Firer) (s : State) :
    effect Oid.hydroSelftest 0 v w none s = putObj Oid.hydroSelftest 0 1 s := by
  have hg : Oid.hydroSelftest / 65536 = 0x50 := rfl
  simp [effect, hg, startSelftest]

/-- Settles O20: each object's effect, by its group. -/
theorem lanePortAndStreamWrites : Obligations.LanePortAndStreamWrites := by
  have racking : ∀ {c via id idx v f}, rowKind id = some (0, false) → id / 65536 = 0x40 →
      (∀ s, exec c s = .next (viaWrite via id idx v none s)) →
      (∀ u, consistencyStatus u id idx (valNum v) = St.ok → effRacking id idx (valNum v) u = f u) → Writes c via id idx v f :=
    fun hk hg hx hf => writeRow_free hk (by rw [hg]; decide) hx (fun _ u h => (effect_racking _ _ _ _ _ hg).trans (hf u h))
  have tap : ∀ {c via id idx v f}, rowKind id = some (0, false) → id / 65536 = 0x48 →
      (∀ s, exec c s = .next (viaWrite via id idx v none s)) →
      (∀ u, consistencyStatus u id idx (valNum v) = St.ok → effTap id idx (valNum v) (valBytes v) u = f u) → Writes c via id idx v f :=
    fun hk hg hx hf => writeRow_free hk (by rw [hg]; decide) hx (fun _ u h => (effect_tap _ _ _ _ _ hg).trans (hf u h))
  refine ⟨fun via => ⟨fun q value => ?mode, fun n item value => ?item, fun n value => ?reinst, fun n value => ?inject, fun n value => ?clears,
      fun p value => ?port, fun p frame hl => ?raw, fun p frame hl => ?rawLong, fun n value => ?flush⟩,
    fun via => ⟨fun k value => ?stamp, fun p value pass => ?pc, fun value => ?test, fun r => ?ringOn, fun r => ?ringOff, fun c => ?cqOn,
      fun c => ?cqOff, ?excOn, ?excOff, fun value => ?resume, fun t => ?tapOn, fun t => ?tapOff, fun value => ?pattern, fun value => ?hydro⟩⟩
  case mode => exact writes_quad_stored (by decide) (by decide) q.isLt (fun s => rfl) (fun u => effQuad_mode _ _ u)
  case item =>
    exact writes_quad_stored (laneItemObj_kind item) (laneItemObj_group item) (by omega) (fun s => rfl) (fun u => effQuad_laneItem _ _ _ u)
  case reinst => exact writes_quad (by decide) (by decide) (by omega) (fun s => rfl) (fun u => effQuad_reinstate _ _ u)
  case inject => exact writes_quad (by decide) (by decide) (by omega) (fun s => rfl) (fun u => effQuad_inject _ _ u)
  case clears => exact writes_quad (by decide) (by decide) (by omega) (fun s => rfl) (fun u => effQuad_clear _ _ u)
  case port =>
    exact writeRow_free (by decide) (by decide) (fun s => rfl)
      (fun _ u _ => (effect_port _ _ _ _ _ (by decide)).trans (effPort_reinstate _ _ u))
  case raw =>
    refine tap (by decide) (by decide) (fun s => ?_) (fun u _ => effTap_rawFrame _ _ _ u)
    show execRawFrame via p frame s = _
    rw [execRawFrame, if_pos hl]
  case rawLong =>
    refine writesBlocks_plain (by decide) (by decide) (by decide) (by decide) (fun s => ?_)
      (fun _ u => (effect_tap _ _ _ _ _ (by decide)).trans (effTap_rawFrame _ _ _ u))
    show execRawFrame via p frame s = _
    rw [execRawFrame, if_neg (by omega)]
  case flush =>
    exact writeRow_free (by decide) (by decide) (fun s => rfl)
      (fun _ u _ => (effect_underback _ _ _ _ _ (by decide)).trans (effUnderback_flush _ _ u))
  case stamp =>
    exact writeRow_free (by decide) (by decide) (fun s => rfl)
      (fun _ u _ => (effect_lauter _ _ _ _ _ (by decide)).trans (effLauter_stampClear _ _ u))
  case pc =>
    exact writeRow_free (by decide) (by decide) (fun s => rfl)
      (fun _ u _ => (effect_cellar _ _ _ _ _ (by decide)).trans (effCellar_reinstate _ _ _ u))
  case test =>
    exact writeRow_free (by decide) (by decide) (fun s => rfl)
      (fun _ u _ => (effect_cellar _ _ _ _ _ (by decide)).trans (effCellar_test _ _ u))
  case ringOn =>
    exact racking (by decide) (by decide) (fun s => rfl) (fun u h => (effRacking_enable h).trans (by rw [enableRing]))
  case ringOff =>
    exact racking (by decide) (by decide) (fun s => rfl) (fun u _ => (effRacking_disable _ u).trans (by rw [disableRing]))
  case cqOn =>
    exact racking (by decide) (by decide) (fun s => rfl) (fun u _ => (effRacking_cqEnable _ u).trans (by rw [enableCq]))
  case cqOff =>
    exact racking (by decide) (by decide) (fun s => rfl) (fun u _ => (effRacking_cqDisable _ u).trans (by rw [disableCq]))
  case excOn =>
    exact racking (by decide) (by decide) (fun s => rfl) (fun u h => (effRacking_excEnable h).trans (by rw [enableExc]))
  case excOff =>
    exact racking (by decide) (by decide) (fun s => rfl) (fun u _ => (effRacking_excDisable u).trans (by rw [disableExc]))
  case resume =>
    exact racking (by decide) (by decide) (fun s => rfl) (fun u _ => (effRacking_resume _ u).trans (by rw [resumeRacking]))
  case tapOn =>
    exact tap (by decide) (by decide) (fun s => rfl) (fun u h => (effTap_enable _ h).trans (by rw [tapEnable]))
  case tapOff =>
    exact tap (by decide) (by decide) (fun s => rfl) (fun u _ => (effTap_disable _ _ u).trans (by rw [tapDisable]))
  case pattern =>
    exact writeRow_free (by decide) (by decide) (fun s => rfl) (fun _ u _ => effect_patternSelftest _ _ u)
  case hydro =>
    exact writeRow_free (by decide) (by decide) (fun s => rfl) (fun _ u _ => effect_hydroSelftest _ _ u)

end Sys2Proof.Machine
end

section
/-! SUPPORT. The writes that act on position, lamps, faults and windows (O21). -/

namespace Sys2Proof.Machine

open Sys2Proof

/-! ### What the writes of position, lamps, faults and windows do -/

section Effects

variable {id : Nat} (idx : Nat) (v : PVal) (w : Firer) (fails : Option (List Nat)) (s : State)

theorem effect_pos (h : id / 65536 = 0x58) : effect id idx v w fails s = effPos id idx (valNum v) (valBytes v) s := by
  simp [effect, h]
theorem effect_lamp (h : id / 65536 = 0x60) : effect id idx v w fails s = effLamp id idx (valNum v) (valBytes v) s := by
  simp [effect, h]
theorem effect_host (h : id / 65536 = 0x68) : effect id idx v w fails s = effHost id idx (valNum v) s := by
  simp [effect, h]
theorem effect_faults (h : id / 65536 = 0x70) : effect id idx v w fails s = effFaults id (valNum v) fails s := by
  simp [effect, h]

end Effects

theorem effPos_position (n v : Nat) (b : List Byte) (s : State) :
    effPos Oid.posPosition n v b s = putEnc n { (encOf s n) with jumpTo := some (toSigned 64 v) } s := by
  rw [effPos, if_neg (by decide), if_neg (by decide), if_pos rfl, positionWritten]

theorem effPos_query (n t : Nat) (b : List Byte) (s : State) : effPos Oid.posQueryAt n t b s =
    (let w := putObj Oid.posQueryAt n t s
     answerAll n (putEnc n { (encOf w n) with query := some t } w)) := by
  rw [effPos, if_neg (by decide), if_neg (by decide), if_neg (by decide), if_pos rfl, queryAt]

theorem effPos_reinstate (n v : Nat) (b : List Byte) (s : State) : effPos Oid.posReinstate n v b s = encReinstate n s := by
  rw [effPos, if_neg (by decide), if_neg (by decide), if_neg (by decide), if_neg (by decide), if_pos rfl]

theorem effPos_cmpMode (u v : Nat) (b : List Byte) (s : State) : effPos Oid.posCmpMode u v b s =
    (let w := putObj Oid.posCmpMode u v s
     if v = 0 then putObj Oid.posCmpState u 0 w
     else if getObj w Oid.posCmpArm u = 1 then putObj Oid.posCmpState u 2 w else armUnit u w) := by
  rw [effPos, if_neg (by decide), if_neg (by decide), if_neg (by decide), if_neg (by decide), if_neg (by decide), if_pos rfl, cmpModeWritten]

theorem cmpItemId_group (item : CmpItem) : cmpItemId item / 65536 = 0x58 := by cases item <;> rfl

theorem cmpItemId_kind (item : CmpItem) : rowKind (cmpItemId item) = some (0, false) := by cases item <;> decide

theorem effPos_cmpItem (item : CmpItem) (u v : Nat) (b : List Byte) (s : State) :
    effPos (cmpItemId item) u v b s = cmpTargetWritten (cmpItemId item) u v s := by
  cases item <;> rfl

theorem cmpItemId_eq_target (item : CmpItem) : cmpItemId item = Oid.posCmpTarget ↔ item = .target := by
  cases item <;> decide

/-- A target written: the samples available are evaluated with the old one first, and a new target is judged behind or not. -/
theorem cmpTargetWritten_item (item : CmpItem) (u v : Nat) (s : State) : cmpTargetWritten (cmpItemId item) u v s =
    (let w := putObj (cmpItemId item) u v (evalAvailable (getObj s Oid.posCmpChannel u) (encOf s (getObj s Oid.posCmpChannel u)).pend.length s)
     if item = .target then checkBehind u (putCmp u { (cmpOf w u) with behind := false } w) else w) := by
  simp only [cmpTargetWritten, cmpItemId_eq_target]

theorem effLamp_reinstate (n v : Nat) (b : List Byte) (s : State) : effLamp Oid.lampReinstate n v b s = lampReinstate n s := by
  rw [effLamp, if_pos rfl]

theorem effLamp_life (n v : Nat) (b : List Byte) (s : State) : effLamp Oid.lampLifeOverride n v b s = putFab Oid.lampLifeOverride n v s := by
  rw [effLamp, if_neg (by decide), if_neg (by decide)]

/-- Pages of 16 bytes leave in order, at the addresses that end the memory. -/
theorem headUserPages_emits (n k : Nat) (b : List Byte) (s : State) (hk : k ≤ 6) (hb : b.length = 16 * k) :
    headUserPages n k b s =
      emitAll ((List.range k).map (fun j => .headWrite n (0xA0 + (96 - b.length) + 16 * j) (slice (16 * j) 16 b))) s := by
  induction k generalizing b s with
  | zero => simp [headUserPages, emitAll]
  | succ k ih =>
    have hd : (b.drop 16).length = 16 * k := by simp; omega
    have hfirst : b.take 16 = slice 0 16 b := rfl
    have hbase : 0xA0 + (96 - b.length) + 16 = 0xA0 + (96 - (b.drop 16).length) := by omega
    have hrest : ∀ j, Emission.headWrite n (0xA0 + (96 - (b.drop 16).length) + 16 * j) (slice (16 * j) 16 (b.drop 16)) =
        .headWrite n (0xA0 + (96 - b.length) + 16 * (j + 1)) (slice (16 * (j + 1)) 16 b) := by
      intro j
      rw [← hbase, slice, List.drop_drop, slice, show 0xA0 + (96 - b.length) + 16 + 16 * j = 0xA0 + (96 - b.length) + 16 * (j + 1) by omega,
        show 16 + 16 * j = 16 * (j + 1) by omega]
    rw [headUserPages, ih _ _ (by omega) hd, List.range_succ_eq_map, List.map_cons, List.map_map]
    simp only [hrest, emitAll, emit, hfirst, List.append_assoc, List.singleton_append]
    rfl

theorem effLamp_user {n : Nat} {b : List Byte} (v : Nat) (s : State) (hb : b.length = 96) : effLamp Oid.lampHeadUser n v b s =
    emitAll ((List.range 6).map (fun k => .headWrite n (0xA0 + 16 * k) (slice (16 * k) 16 b))) (putBlob Oid.lampHeadUser n b s) := by
  rw [effLamp, if_neg (by decide), if_pos rfl, headUserPages_emits n 6 b _ (Nat.le_refl 6) hb, hb]

/-- A resource reinstated: only a PC trains, with the outcome that the row carries. -/
theorem effFaults_reinstate (res : Nat) (pass : Bool) (s : State) :
    effFaults Oid.faultsReinstate res (some (if pass then [] else [res % 4096])) s =
      reinstateRes res (pass || decide (res / 4096 ≠ 5)) s := by
  have hpass : (decide (res % 4096 ∉ (if pass then [] else [res % 4096] : List Nat)) || res / 4096 != 5) =
      (pass || decide (res / 4096 ≠ 5)) := by
    cases pass <;> simp [bne, Bool.beq_eq_decide_eq]
  rw [effFaults, if_pos rfl]
  dsimp only
  rw [retrainFails, hpass]

theorem effFaults_clear (n : Nat) (failed : List Nat) (s : State) : effFaults Oid.faultsListClear n (some failed) s = clearList failed s := by
  rw [effFaults, if_neg (by decide), if_pos rfl]
  dsimp only
  rw [retrainFails]

theorem effHost_window (w v : Nat) (s : State) : effHost Oid.hostlinkWinAttr w v s =
    (let x : Window := if v % 2 = 1 ∧ (winOf s w).on = false then
        { on := true, target := getObj s Oid.hostlinkWinTarget w, size := getObj s Oid.hostlinkWinSize w }
      else { (winOf s w) with on := decide (v % 2 = 1) }
     putObj Oid.hostlinkWinAttr w v { s with link := { s.link with windows := tabPut {} w x s.link.windows } }) := by
  rw [effHost, if_pos rfl, winAttrWritten]
  simp only [Bool.and_eq_true, decide_eq_true_eq, Bool.not_eq_true']

/-- Settles O21: each object's effect, by its group. -/
theorem motionLampAndFaultWrites : Obligations.MotionLampAndFaultWrites := by
  intro via
  have pos : ∀ {c id idx v f}, rowKind id = some (0, false) → id / 65536 = 0x58 → (∀ s, exec c s = .next (viaWrite via id idx v none s)) →
      (∀ u, effPos id idx (valNum v) (valBytes v) u = f u) → Writes c via id idx v f :=
    fun hk hg hx hf => writeRow_free hk (by rw [hg]; decide) hx (fun _ u _ => (effect_pos _ _ _ _ _ hg).trans (hf u))
  have lamp : ∀ {c id idx v f}, rowKind id = some (0, false) → id / 65536 = 0x60 → (∀ s, exec c s = .next (viaWrite via id idx v none s)) →
      (∀ u, effLamp id idx (valNum v) (valBytes v) u = f u) → Writes c via id idx v f :=
    fun hk hg hx hf => writeRow_free hk (by rw [hg]; decide) hx (fun _ u _ => (effect_lamp _ _ _ _ _ hg).trans (hf u))
  refine ⟨fun n value => ?position, fun n t => ?query, fun k value => ?arm, fun k item value => ?target, fun n value => ?encoder,
    fun n value => ?life, fun n value => ?lampBack, fun n data hl => ?user, fun res pass => ?resource, fun value failed => ?list,
    fun w value => ?window⟩
  case position => exact pos (by decide) (by decide) (fun s => rfl) (fun u => effPos_position _ _ _ u)
  case query => exact pos (by decide) (by decide) (fun s => rfl) (fun u => effPos_query _ _ _ u)
  case arm => exact pos (by decide) (by decide) (fun s => rfl) (fun u => effPos_cmpMode _ _ _ u)
  case target =>
    exact pos (cmpItemId_kind item) (cmpItemId_group item) (fun s => rfl)
      (fun u => (effPos_cmpItem _ _ _ _ u).trans (cmpTargetWritten_item _ _ _ u))
  case encoder => exact pos (by decide) (by decide) (fun s => rfl) (fun u => effPos_reinstate _ _ _ u)
  case life => exact lamp (by decide) (by decide) (fun s => rfl) (fun u => effLamp_life _ _ _ u)
  case lampBack => exact lamp (by decide) (by decide) (fun s => rfl) (fun u => effLamp_reinstate _ _ _ u)
  case user => exact lamp (by decide) (by decide) (fun s => rfl) (fun u => effLamp_user _ u hl)
  case resource =>
    exact writeRow_free (by decide) (by decide) (fun s => rfl)
      (fun _ u _ => (effect_faults _ _ _ _ _ (by decide)).trans (effFaults_reinstate _ _ u))
  case list =>
    exact writeRow_free (by decide) (by decide) (fun s => rfl)
      (fun _ u _ => (effect_faults _ _ _ _ _ (by decide)).trans (effFaults_clear _ _ u))
  case window =>
    exact writeRow_free (by decide) (by decide) (fun s => rfl)
      (fun _ u _ => (effect_host _ _ _ _ _ (by decide)).trans (effHost_window _ _ u))

end Sys2Proof.Machine
end

section
/-! SUPPORT. A request past the checks of its object; the reads (O22). -/

namespace Sys2Proof.Machine

open Sys2Proof

/-! ### A request past the checks of its object -/

theorem serve_checked {h : Handed} {r : ObjRow} (hc : Checked h r) (h7 : h.req.op ≠ 7) (h8 : h.req.op ≠ 8) :
    serve h.req h.before = carryIndex h.req r (serveObject h.req r h.before) := by
  obtain ⟨hr, hid, ho, hh, -⟩ := hc
  rw [serve, if_neg (not_not_intro ho), if_neg (not_not_intro hh), if_neg h7, if_neg h8, if_neg (by omega), hr]

/-- A request past the checks, answered at once, is answered as its operation on the object says. -/
theorem arrives_checked {q : Transport} {s t : State} {h : Handed} {r : ObjRow} {a : Answer} (hh : carried q s = some h)
    (hc : Checked h r) (h7 : h.req.op ≠ 7) (h8 : h.req.op ≠ 8) (hs : carryIndex h.req r (serveObject h.req r h.before) = (a, t))
    (he : a.ended = .none) (hd : a.held = false) : arrives q s = replied h a t :=
  arrives_replied hh ((serve_checked hc h7 h8).trans hs) he hd

/-- The same with an answer of OK, which needs no index carried into it. -/
theorem arrives_ok {q : Transport} {s t : State} {h : Handed} {r : ObjRow} {p : List Byte} (hh : carried q s = some h)
    (hc : Checked h r) (h7 : h.req.op ≠ 7) (h8 : h.req.op ≠ 8)
    (hs : serveObject h.req r h.before = ({ status := St.ok, payload := p }, t)) :
    arrives q s = replied h { status := St.ok, payload := p } t :=
  arrives_checked hh hc h7 h8 (by rw [hs, carryIndex_ok rfl]) rfl rfl

theorem firstBad_ok {l : List Nat} (h : firstBad l = St.ok) : ∀ c ∈ l, c = St.ok := by
  induction l with
  | nil => exact fun c hc => absurd hc List.not_mem_nil
  | cons d l ih =>
    rw [firstBad] at h
    by_cases hd : d = St.ok
    · rw [if_pos hd] at h
      exact List.forall_mem_cons.mpr ⟨hd, ih h⟩
    · rw [if_neg hd] at h
      exact absurd h hd

/-- The index stands in the payload of a request past the checks. -/
theorem indexGiven_of_checked {h : Handed} {r : ObjRow} (hc : Checked h r) : indexGiven h.req r = true := by
  obtain ⟨-, -, -, -, ho⟩ := hc
  cases hg : indexGiven h.req r
  · rw [objectStatus, hg, if_neg (by decide)] at ho
    exact absurd (firstBad_ok ho St.length (by simp)) (by decide)
  · rfl

/-- A status without a payload takes the index of a request past the checks. -/
theorem carryIndex_status {h : Handed} {r : ObjRow} (hc : Checked h r) (st : Nat) (t : State) (hne : st ≠ St.ok) :
    carryIndex h.req r ({ status := st }, t) = ({ status := st, payload := indexOut h.req r (indexOf h.req r).1 }, t) := by
  simp [carryIndex, hne, indexGiven_of_checked hc]

section Operations

variable {h : Handed} {r : ObjRow} (hc : Checked h r)
include hc

theorem serveObject_read (ho : h.req.op = 1) : serveObject h.req r h.before = serveRead h.req r (indexOf h.req r).1 (indexOf h.req r).2 h.before := by
  obtain ⟨-, -, -, -, hst⟩ := hc
  simp only [serveObject, hst, ho, ne_eq, not_true, if_false]

theorem serveObject_write (ho : h.req.op = 2) : serveObject h.req r h.before = serveWrite h.req r (indexOf h.req r).1 (indexOf h.req r).2 h.before := by
  obtain ⟨-, -, -, -, hst⟩ := hc
  simp only [serveObject, hst, ho, ne_eq, not_true, if_false]

theorem serveObject_readBlock (ho : h.req.op = 3) :
    serveObject h.req r h.before = serveReadBlock h.req r (indexOf h.req r).1 (indexOf h.req r).2 h.before := by
  obtain ⟨-, -, -, -, hst⟩ := hc
  simp only [serveObject, hst, ho, ne_eq, not_true, if_false]

theorem serveObject_writeBlock (ho : h.req.op = 4) :
    serveObject h.req r h.before = serveWriteBlock h.req r (indexOf h.req r).1 (indexOf h.req r).2 h.before := by
  obtain ⟨-, -, -, -, hst⟩ := hc
  simp only [serveObject, hst, ho, ne_eq, not_true, if_false]

theorem serveObject_subscribe (ho : h.req.op = 5) :
    serveObject h.req r h.before = serveSubscribe h.req r (indexOf h.req r).1 (indexOf h.req r).2 h.before := by
  obtain ⟨-, -, -, -, hst⟩ := hc
  simp only [serveObject, hst, ho, ne_eq, not_true, if_false]

theorem serveObject_pitch (ho : h.req.op = 9) : serveObject h.req r h.before = servePitch h.req h.before := by
  obtain ⟨-, -, -, -, hst⟩ := hc
  simp only [serveObject, hst, ho, ne_eq, not_true, if_false]

theorem serveObject_abort (ho : h.req.op = 10) : serveObject h.req r h.before =
    if h.req.id = Oid.plansActive then serveAbortPlan h.req h.before
    else serveAbortBlob h.req r (indexOf h.req r).1 (indexOf h.req r).2 h.before := by
  obtain ⟨-, -, -, -, hst⟩ := hc
  simp only [serveObject, hst, ho, ne_eq, not_true, if_false]

end Operations

/-! ### Reads -/

/-- The header of a block: an offset of four bytes before the rest. -/
theorem numIn_offset (le : Bool) {off : Nat} (rest : List Byte) (h : off < 2 ^ 32) : numIn le ((numOut le 4 off ++ rest).take 4) = off := by
  rw [List.take_left' (numOut_length le 4 off), numIn_numOut, Nat.mod_eq_of_lt (by omega)]

theorem drop_offset (le : Bool) (off : Nat) (rest : List Byte) : (numOut le 4 off ++ rest).drop 4 = rest :=
  List.drop_left' (numOut_length le 4 off)

theorem serveReadBlock_bytes {q : Req} {r : ObjRow} {idx off count : Nat} {body b : List Byte} {s : State} (hb : isBytes r.type = true)
    (hbody : body = numOut q.le 4 off ++ numOut q.le 2 count) (hoff : off ≤ b.length) (h32 : off < 2 ^ 32) (h16 : count < 2 ^ 16)
    (hv : targetValue s q idx = some (.bytes b)) :
    let head := indexOut q r idx ++ numOut q.le 4 off ++ numOut q.le 4 b.length
    serveReadBlock q r idx body s =
      ({ status := St.ok, payload := head ++ slice off (min count (responseMax q.who - head.length)) b }, s) := by
  have hlen : body.length = 6 := by simp [hbody, numOut_length]
  have h4 : numIn q.le (body.take 4) = off := by rw [hbody, numIn_offset q.le _ h32]
  have h2 : numIn q.le (body.drop 4) = count := by rw [hbody, drop_offset, numIn_numOut, Nat.mod_eq_of_lt (by omega)]
  intro head
  rw [serveReadBlock, hlen, hb, if_neg (by decide), hv]
  dsimp only [valBytes]
  rw [h4, h2, if_neg (by omega)]

/-- Settles O22: each read's answer is its value, and a value not staged is refused with the index. -/
theorem dictionaryReads : Obligations.DictionaryReads := by
  refine ⟨fun q s h r v hh ho hc hbody hv hfit => ?read, fun q s h r hh ho hc hbody hv => ?unstaged,
    fun q s h r b off count hh ho hc hb hbody hoff h32 h16 hv => ?block⟩
  case read =>
    show execRead q s = _
    rw [execRead, takes_of_carried hh ho, if_pos rfl, arrives_ok hh hc (by omega) (by omega)]
    rw [serveObject_read hc ho, serveRead, hbody, hv]
    dsimp only
    rw [if_neg (by decide), if_neg (by omega)]
  case unstaged =>
    show execRead q s = _
    rw [execRead, takes_of_carried hh ho, if_pos rfl,
      arrives_checked (a := { status := St.notInPlan, payload := indexOut h.req r (indexOf h.req r).1 }) hh hc (by omega) (by omega) ?_ rfl rfl]
    rw [serveObject_read hc ho, serveRead, hbody, hv]
    exact carryIndex_status hc _ _ (by decide)
  case block =>
    intro head
    show execReadBlock q s = _
    rw [execReadBlock, takes_of_carried hh ho, if_pos rfl, arrives_ok hh hc (by omega) (by omega)]
    rw [serveObject_readBlock hc ho]
    exact serveReadBlock_bytes hb hbody hoff h32 h16 hv

end Sys2Proof.Machine
end

section
/-! SUPPORT. Writes, and writes in blocks, past their checks (O23). -/

namespace Sys2Proof.Machine

open Sys2Proof

/-! ### Writes -/

theorem commitLive_plain {q : Req} {idx : Nat} {v : PVal} {s : State} (hp : planWrite q.id s = none)
    (hcon : consistencyStatus s q.id idx (valNum v) = St.ok) :
    commitLive q idx v s = (flashStatus q.id s (applyWrite q.id idx v (firerOf q.who) q.fails s), applyWrite q.id idx v (firerOf q.who) q.fails s) := by
  rw [commitLive, hp]
  dsimp only
  rw [if_pos hcon]

theorem commitStaged_ok {q : Req} {r : ObjRow} {idx : Nat} {v : PVal} {s : State}
    (hst : stageStatus r (planOf s (targetPlan q.target)) (entryOf q r idx v) = St.ok) :
    commitStaged q r idx v s =
      (St.ok, putPlan (targetPlan q.target) (stagedPlan (planOf s (targetPlan q.target)) (entryOf q r idx v)) s) := by
  rw [commitStaged, if_pos hst]

/-- A status of its own, with the index, is what the answer of a committed value ends as. -/
theorem carryIndex_ackOr {h : Handed} {r : ObjRow} (hc : Checked h r) (st : Nat) (t : State) :
    carryIndex h.req r (ackOr st (indexOut h.req r (indexOf h.req r).1), t) =
      ({ status := st, payload := indexOut h.req r (indexOf h.req r).1 }, t) := by
  by_cases hst : st = St.ok
  · rw [ackOr, if_pos hst, carryIndex_ok rfl, hst]
  · rw [ackOr, if_neg hst, deny, carryIndex_status hc st t hst]

theorem serveWrite_live {q : Req} {r : ObjRow} {idx : Nat} {body : List Byte} {s : State} {v : PVal} (h0 : q.target = 0)
    (hv : writeValue s q r idx body = some v) (hst : liveStatus s q r idx (writtenPart q r body v) v = St.ok)
    (htr : transferOn s q.id idx = none) :
    serveWrite q r idx body s = (ackOr (commitLive q idx v s).1 (indexOut q r idx), (commitLive q idx v s).2) := by
  rw [serveWrite, hv]
  dsimp only
  rw [if_pos h0, if_neg (not_not_intro hst), htr, if_neg (by decide), if_pos h0]

theorem serveWrite_staged {q : Req} {r : ObjRow} {idx : Nat} {body : List Byte} {s : State} {v : PVal} (h0 : q.target ≠ 0)
    (hv : writeValue s q r idx body = some v) (hst : stagedStatus s q r idx (writtenPart q r body v) v = St.ok)
    (htr : transferOn s q.id idx = none) :
    serveWrite q r idx body s = (ackOr (commitStaged q r idx v s).1 (indexOut q r idx), (commitStaged q r idx v s).2) := by
  rw [serveWrite, hv]
  dsimp only
  rw [if_neg h0, if_neg (not_not_intro hst), htr, if_neg (by decide), if_neg h0]

/-! ### Writes in blocks -/

/-- The bytes of a transfer with those of a block. -/
def gathered (s : State) (id idx : Nat) (data : List Byte) : List Byte :=
  ((transferOn s id idx).map (fun t => t.data)).getD [] ++ data

section Blocks

variable {q : Req} {r : ObjRow} {idx off : Nat} {body data : List Byte} {s : State}
  (hb : isBytes r.type = true) (hbody : body = numOut q.le 4 off ++ data) (h32 : off < 2 ^ 32) (hmax : off + data.length ≤ maxBytes r.type)
  (hstage : q.target = 0 ∨ notStageable r = false) (hst : blockStatus q (transferOn s q.id idx) off = St.ok)
include hb hbody h32 hmax hstage hst

/-- A block past its checks: one that is not the last lengthens the transfer, the last one commits what is gathered. -/
theorem serveWriteBlock_next : serveWriteBlock q r idx body s =
    let ok := indexOut q r idx ++ numOut q.le 4 off
    if !q.final then
      ({ status := St.ok, payload := ok }, { dropTransfer q.id idx s with dict := { (dropTransfer q.id idx s).dict with
        transfers := (dropTransfer q.id idx s).dict.transfers ++
          [{ id := q.id, index := idx, who := q.who, data := gathered s q.id idx data
             plan := if q.target = 0 then none else some (targetPlan q.target) }] } })
    else match decodeValue q.le r.type (gathered s q.id idx data) with
    | none => (deny St.length, s)
    | some v =>
      let st := if q.target = 0 then liveStatus s q r idx v v else stagedStatus s q r idx v v
      if st ≠ St.ok then (deny st, s)
      else
        let c := if q.target = 0 then commitLive q idx v s else commitStaged q r idx v s
        if c.1 = St.ok then ({ status := St.ok, payload := ok }, dropTransfer q.id idx c.2) else (deny c.1, c.2) := by
  have hlen : ¬ body.length < 4 := by simp [hbody, numOut_length]
  have h4 : numIn q.le (body.take 4) = off := by rw [hbody, numIn_offset q.le _ h32]
  have hdata : body.drop 4 = data := by rw [hbody, drop_offset]
  have hns : ¬((decide (q.target ≠ 0) && notStageable r) = true) := by
    rcases hstage with h | h <;> simp [h]
  rw [serveWriteBlock, hb, decide_eq_false hlen, if_neg (by decide), h4, hdata]
  dsimp only
  rw [if_neg (by omega), if_neg (by simpa using hns), if_neg (not_not_intro hst), gathered]
  cases transferOn s q.id idx <;> rfl

theorem serveWriteBlock_more (hf : q.final = false) : serveWriteBlock q r idx body s =
    ({ status := St.ok, payload := indexOut q r idx ++ numOut q.le 4 off },
      { dropTransfer q.id idx s with dict := { (dropTransfer q.id idx s).dict with
        transfers := (dropTransfer q.id idx s).dict.transfers ++
          [{ id := q.id, index := idx, who := q.who, data := gathered s q.id idx data
             plan := if q.target = 0 then none else some (targetPlan q.target) }] } }) := by
  rw [serveWriteBlock_next hb hbody h32 hmax hstage hst]
  dsimp only
  rw [hf, if_pos (by decide)]

variable {v : PVal} (hf : q.final = true) (hv : decodeValue q.le r.type (gathered s q.id idx data) = some v)
include hf hv

theorem serveWriteBlock_live (h0 : q.target = 0) (hl : liveStatus s q r idx v v = St.ok) (hc : (commitLive q idx v s).1 = St.ok) :
    serveWriteBlock q r idx body s =
      ({ status := St.ok, payload := indexOut q r idx ++ numOut q.le 4 off }, dropTransfer q.id idx (commitLive q idx v s).2) := by
  rw [serveWriteBlock_next hb hbody h32 hmax hstage hst, hf, hv]
  dsimp only
  rw [if_neg (by decide), if_pos h0, if_neg (not_not_intro hl), if_pos h0, if_pos hc]

theorem serveWriteBlock_staged (h0 : q.target ≠ 0) (hl : stagedStatus s q r idx v v = St.ok) (hc : (commitStaged q r idx v s).1 = St.ok) :
    serveWriteBlock q r idx body s =
      ({ status := St.ok, payload := indexOut q r idx ++ numOut q.le 4 off }, dropTransfer q.id idx (commitStaged q r idx v s).2) := by
  rw [serveWriteBlock_next hb hbody h32 hmax hstage hst, hf, hv]
  dsimp only
  rw [if_neg (by decide), if_neg h0, if_neg (not_not_intro hl), if_neg h0, if_pos hc]

end Blocks

/-- A value that may be staged is of an object that may. -/
theorem notStageable_of_stageStatus {r : ObjRow} {p : Plan} {e : PlanEntry} (h : stageStatus r p e = St.ok) : notStageable r = false := by
  cases hn : notStageable r
  · rfl
  · rw [stageStatus, hn, if_pos rfl] at h
    exact absurd h (by decide)

/-- No key of a flash operation is a byte string, so a value of blocks is committed OK. -/
theorem flashStatus_bytes {id : Nat} {r : ObjRow} (hr : objRow? id = some r) (hb : isBytes r.type = true) (u t : State) :
    flashStatus id u t = St.ok := by
  have hkey : ∀ k, (objRow? k).map (fun r => isBytes r.type) = some false → id ≠ k := by
    rintro k hk rfl
    rw [hr] at hk
    simp [hb] at hk
  exact flashStatus_other (hkey _ (by decide)) (hkey _ (by decide)) u t

/-- Settles O23: a write commits its value, live or staged, and the last of its blocks commits what they gathered. -/
theorem dictionaryWrites : Obligations.DictionaryWrites := by
  refine ⟨fun q s h r v hh ho h0 hc => ?live, fun id u t h1 h2 => flashStatus_other h1 h2 u t, fun q s h r v hh ho h0 hc => ?staged,
    fun q s h r off data hh ho hstage hf hc hb => ?more, fun q s h r off data v hh ho h0 hf hc hb => ?lastLive,
    fun q s h r off data v hh ho h0 hf hc hb => ?lastStaged⟩
  case live =>
    intro i hv hst htr hp hcon t
    show execWrite q s = _
    rw [execWrite, takes_of_carried hh ho, if_pos rfl,
      arrives_checked (a := { status := flashStatus h.req.id h.before t, payload := indexOut h.req r i.1 }) (t := t)
        hh hc (by omega) (by omega) ?_ rfl rfl]
    rw [serveObject_write hc ho, serveWrite_live h0 hv hst htr, carryIndex_ackOr hc, commitLive_plain hp hcon]
  case staged =>
    intro i p hv hst htr hstage
    show execWrite q s = _
    rw [execWrite, takes_of_carried hh ho, if_pos rfl, arrives_ok hh hc (by omega) (by omega)]
    rw [serveObject_write hc ho, serveWrite_staged h0 hv hst htr, commitStaged_ok hstage]
    rfl
  case more =>
    intro i hbody h32 hmax hst w all x
    show execWriteBlock q s = _
    rw [execWriteBlock, takes_of_carried hh ho, if_pos rfl, arrives_ok hh hc (by omega) (by omega)]
    rw [serveObject_writeBlock hc ho]
    exact serveWriteBlock_more hb hbody h32 hmax hstage hst hf
  case lastLive =>
    intro i hbody h32 hmax hst hv hl hp hcon
    have hcommit := commitLive_plain hp hcon
    rw [flashStatus_bytes hc.1 hb] at hcommit
    show execWriteBlock q s = _
    rw [execWriteBlock, takes_of_carried hh ho, if_pos rfl, arrives_ok hh hc (by omega) (by omega)]
    rw [serveObject_writeBlock hc ho, serveWriteBlock_live hb hbody h32 hmax (.inl h0) hst hf hv h0 hl (by rw [hcommit]), hcommit]
  case lastStaged =>
    intro i p hbody h32 hmax hst hv hl hstage
    have hcommit := commitStaged_ok hstage
    show execWriteBlock q s = _
    rw [execWriteBlock, takes_of_carried hh ho, if_pos rfl, arrives_ok hh hc (by omega) (by omega)]
    rw [serveObject_writeBlock hc ho, serveWriteBlock_staged hb hbody h32 hmax (.inr (notStageable_of_stageStatus hstage)) hst hf hv h0 hl
      (by rw [hcommit]), hcommit]

end Sys2Proof.Machine
end

section
/-! SUPPORT. Subscriptions and pitches (O24, O26). -/

namespace Sys2Proof.Machine

open Sys2Proof

/-! ### Subscriptions -/

/-- A subscription sampled by its period. -/
theorem sampleSub_periodic {x : Sub} (hm : x.mode = 2) (h : x.periodMs ≤ x.sinceMs + 1) (v : PVal) :
    sampleSub x v = ({ x with last := some v, changes := 0, sinceMs := 0 }, some 0) := by
  rw [sampleSub]
  dsimp only
  rw [if_neg (by omega), if_pos h]

/-- A subscription on change, whose value has changed and whose least interval is over. -/
theorem sampleSub_changed {x : Sub} {w v : PVal} (hm : x.mode = 1) (hw : x.last = some w) (hne : w ≠ v) (h : max 1 x.minMs ≤ x.sinceMs + 1) :
    sampleSub x v = ({ x with last := some v, changes := 0, sinceMs := 0 }, some (min (x.changes + 1) 65535)) := by
  simp only [sampleSub, hw, ne_eq, hne, not_false_eq_true, decide_true, if_true]
  rw [if_pos hm, if_pos]
  simp only [Bool.and_eq_true, decide_eq_true_eq]
  exact ⟨by omega, h⟩

theorem execNotify_due {k : Fin 256} {s : State} {x : Sub} {n : Nat} (hx : s.dict.subs[k.val]? = some x) (hd : dictServed s = true) {y : Sub}
    (h : sampleSub x (liveValue s x.id x.index) = (y, some n)) :
    execNotify k s = .next (sendNotify x n (liveValue s x.id x.index) { s with dict := { s.dict with subs := s.dict.subs.set k.val y } }) := by
  rw [execNotify, hx]
  dsimp only
  rw [hd, if_neg (by decide), h]

/-- Settles O24: a subscription cancels, replaces or adds, and one that is due sends its sample. -/
theorem subscriptions : Obligations.Subscriptions := by
  refine ⟨fun q s h r hh ho hc => ?subscribe, fun k s x hx hd hm hp => execNotify_due hx hd (sampleSub_periodic hm hp _),
    fun k s x w hx hd hm hw hne hp => execNotify_due hx hd (sampleSub_changed hm hw hne hp)⟩
  intro i n rest hst hblob hright hid
  have hsub : (isBlob r.type || r.access.right = .wo || h.req.id / 65536 = 0x02) = false := by
    simp [hblob, hright, hid]
  have hexec : ∀ {t}, serveObject h.req r h.before = ({ status := St.ok, payload := indexOut h.req r i.1 }, t) →
      exec (.subscribe q) s = .next (replied h { status := St.ok, payload := indexOut h.req r i.1 } t) := by
    intro t ht
    show execSubscribe q s = _
    rw [execSubscribe, takes_of_carried hh ho, if_pos rfl, arrives_ok hh hc (by omega) (by omega) ht]
  refine ⟨fun hm => hexec ?_, fun hm hall hmine => hexec ?_⟩
  · rw [serveObject_subscribe hc ho, serveSubscribe]
    dsimp only
    rw [if_neg (not_not_intro hst), hsub, if_neg (by decide), if_pos hm]
  · rw [serveObject_subscribe hc ho, serveSubscribe]
    dsimp only
    rw [if_neg (not_not_intro hst), hsub, if_neg (by decide), if_neg hm, if_neg]
    simp only [Bool.or_eq_true, decide_eq_true_eq, not_or, Nat.not_le]
    exact ⟨hall, hmine⟩

/-! ### Pitches -/

/-- A request carried to the server, whatever its answer: the PITCH it ends is answered first, and the answer of a PITCH is held. -/
theorem arrives_served {q : Transport} {s t : State} {h : Handed} {a : Answer} (hh : carried q s = some h)
    (hs : serve h.req h.before = (a, t)) :
    arrives q s = settleWarm (settleCauses
      (let u := respond h.before.dict.sessions a.ended 9 { status := St.ok } t
       if a.held then holdReply h.reply u else respond h.before.dict.sessions h.reply h.req.op a u)) := by
  obtain ⟨⟨b, hb, harr⟩, -, hf⟩ := arrives_carried q s h hh
  rw [harr]
  simp only [request, ← hb, hf, Bool.false_eq_true, if_false, hs]

/-- What an answer ends changes nothing of the answer itself. -/
theorem respond_ended (ss : List Session) (r : Reply) (op st : Nat) (e : Reply) (s : State) :
    respond ss r op { status := st, ended := e } s = respond ss r op { status := st } s := by
  cases r <;> rfl

/-- A pitch whose answer is held is kept with its reply. -/
theorem holdReply_schedulePitch (r : Reply) (p : Pitch) (s : State) :
    holdReply r (schedulePitch p s) = setPlanState p.plan .scheduled { s with dict := { s.dict with pitch := some { p with reply := r } } } := by
  obtain ⟨plan, _, _, _, _, _, _, _⟩ := p
  cases plan <;> rfl

theorem serve_pitch {h : Handed} {r : ObjRow} (hc : Checked h r) (ho : h.req.op = 9) (hst : pitchStatus h.before h.req = St.ok) :
    serve h.req h.before = ({ status := St.ok, held := true },
      schedulePitch { plan := planNamed (pitchFields h.req).1, when_ := (pitchFields h.req).2.1, flow := (pitchFields h.req).2.2.1
                      time := valNum (pitchFields h.req).2.2.2, armed := false, secure := h.req.secure, late := false, reply := .none } h.before) := by
  rw [serve_checked hc (by omega) (by omega), serveObject_pitch hc ho, servePitch]
  rw [if_neg (not_not_intro hst), carryIndex_ok rfl]

theorem serve_abortPlan {h : Handed} {r : ObjRow} {p : Pitch} (hc : Checked h r) (ho : h.req.op = 10) (hid : h.req.id = Oid.plansActive)
    (hst : abortStatus h.before h.req = St.ok) (hp : h.before.dict.pitch = some p) :
    serve h.req h.before = ({ status := St.ok, ended := if p.armed then .none else p.reply }, unschedule p h.before) := by
  rw [serve_checked hc (by omega) (by omega), serveObject_abort hc ho, if_pos hid, serveAbortPlan]
  rw [if_neg (not_not_intro hst), hp, carryIndex_ok rfl]

/-- A pitch whose time has come and that may run takes place. -/
theorem execPitchTakesPlace_due {s : State} {p : Pitch} (hp : s.dict.pitch = some p) (hr : pitchRuns s = true) (ha : p.armed = true)
    (hd : pitchDue p s = true) : execPitchTakesPlace s = .next (settleCauses (takePitch p s)) := by
  rw [execPitchTakesPlace, hp]
  dsimp only
  rw [hr, ha, hd, if_pos (by decide)]

/-- Settles O26: what a pitch's request, its arming, its taking place, its timeout and its abort leave. -/
theorem pitchOfAPlan : Obligations.PitchOfAPlan := by
  refine ⟨fun q s h r hh ho hc hst => ?pitch, fun s p hp ha => ?arming, fun s p hp hr ha hd hw => ?takes, fun s p hp hr ha hd hw h1 h2 => ?refused,
    fun s p hp ha hw hb => ?timeout, fun q s h r p hh ho hid hc hst hp ha => ?abortArmed, fun q s h r p hh ho hid hc hst hp ha => ?abortArming,
    fun q s h r hh ho hid hc hbody => ?abortBlob⟩
  case pitch =>
    intro f p
    show execPitch q s = _
    rw [execPitch, takes_of_carried hh ho, if_pos rfl, arrives_served hh (serve_pitch hc ho hst)]
    dsimp only [respond]
    rw [if_pos rfl, holdReply_schedulePitch]
  case arming =>
    show execArmingEnd s = _
    rw [execArmingEnd, hp]
    dsimp only
    rw [ha, if_neg (by decide), armPitch]
    simp only [Bool.decide_and]
  case takes =>
    show execPitchTakesPlace s = _
    rw [execPitchTakesPlace_due hp hr ha hd, takePitch]
    dsimp only
    rw [hw, Bool.false_and, Bool.false_and, if_neg (by decide)]
  case refused =>
    show execPitchTakesPlace s = _
    rw [execPitchTakesPlace_due hp hr ha hd, takePitch]
    dsimp only
    rw [if_pos (by simp [hw, h1, h2]), unschedule]
  case timeout =>
    show execBoundaryTimeout s = _
    rw [execBoundaryTimeout, hp]
    dsimp only
    rw [ha, hw, if_pos (by decide), pitchTimedOut, if_neg hb, unschedule]
  case abortArmed =>
    show execAbort q s = _
    rw [execAbort, takes_of_carried hh ho, if_pos rfl, arrives_served hh (serve_abortPlan hc ho hid hst hp), ha]
    rfl
  case abortArming =>
    show execAbort q s = _
    rw [execAbort, takes_of_carried hh ho, if_pos rfl, arrives_served hh (serve_abortPlan hc ho hid hst hp), ha]
    dsimp only
    rw [if_neg (by decide), if_neg (by decide), respond_ended, replied]
  case abortBlob =>
    show execAbort q s = _
    rw [execAbort, takes_of_carried hh ho, if_pos rfl, arrives_ok hh hc (by omega) (by omega)]
    rw [serveObject_abort hc ho, if_neg hid, serveAbortBlob, hbody]
    rfl

end Sys2Proof.Machine
end

section
/-! SUPPORT. Server events (O27). -/

namespace Sys2Proof.Machine

open Sys2Proof

/-! ### Server events -/

/-- Settles O27: a message goes by its address and route, a store by its outcome, a management frame by the firmware's answer. -/
theorem serviceEvents : Obligations.ServiceEvents := by
  refine ⟨fun m s hw hb => ?overrun, fun ip udp dest msg s q hown hd hdup hr => ?sent, fun q src seq hops dest msg s hl => ?passed,
    fun id index s => rfl, fun s i rest hw => ?store, fun frame s dst etype body hd hf ha => ?answer, fun frame s hd hf ha => ?dropped⟩
  case overrun =>
    show execMailboxOverrun m 1 s = _
    rw [execMailboxOverrun, bar0Write_on hw]
    have hbusy : (mboxOf (barAccess s) m.val).phase = .busy := hb
    rw [hbusy]
    rfl
  case sent =>
    show execLinobForward (.mgmt ip udp) dest msg s = _
    rw [execLinobForward]
    dsimp only
    rw [decide_eq_false hown, hd, if_neg (by decide), hdup, if_neg (by decide), forwardOut, hr]
  case passed =>
    intro u hdup
    refine ⟨fun k hown hr hk => ?_, fun c hown hc => ?_⟩
    · show execLinobForward (.quad q src seq hops) dest msg s = _
      rw [execLinobForward]
      dsimp only
      rw [hl, if_neg (by decide), if_neg (by rw [hdup]; decide), if_neg hown, hr]
      dsimp only
      rw [if_neg hk]
    · show execLinobForward (.quad q src seq hops) dest msg s = _
      rw [execLinobForward]
      dsimp only
      rw [hl, if_neg (by decide), if_neg (by rw [hdup]; decide), if_pos hown, hc]
  case store =>
    intro u c
    refine ⟨fun hsize hlamp => ?_, ?_⟩
    · show execPersistStore true s = _
      rw [execPersistStore, hw]
      dsimp only
      rw [if_pos (by simpa using hsize), storeItem]
      · rfl
      · exact hlamp
    · show execPersistStore false s = _
      rw [execPersistStore, hw]
      dsimp only
      rw [Bool.false_and, if_neg (by decide), storeFails]
  case answer =>
    show execManagementPortFrame frame s = _
    rw [execManagementPortFrame, hd, hf, if_neg (by decide), ha]
    rfl
  case dropped =>
    show execManagementPortFrame frame s = _
    rw [execManagementPortFrame, hd, hf, if_neg (by decide), ha]

end Sys2Proof.Machine
end

section
/-! SUPPORT. Boot in the order of Table 2.4 (O29). -/

namespace Sys2Proof.Machine

open Sys2Proof

/-! ### Boot -/

/-- What the check of a slot that fails leaves in `modes.boot_status`: one of the slot's bits, and none for a wrong length. -/
def slotFailed (s : State) (k : Nat) (w : State) : State :=
  if imageCheck (slotImage s k) = .lengthInvalid then w
  else setSticky Oid.modesBootStatus 0 (if imageCheck (slotImage s k) = .signatureFailed then 4 ^ k else 2 * 4 ^ k) w

theorem slotImage_congr {s w : State} (h : w.dict = s.dict) (k : Nat) : slotImage w k = slotImage s k := by
  rw [slotImage, slotImage, h]

/-- A slot tried: a good image is as the state has it, any other is marked failed. -/
theorem trySlot_eq {s w : State} (h : w.dict = s.dict) (k : Nat) :
    trySlot k w = if imageCheck (slotImage s k) = .good then (true, w) else (false, slotFailed s k w) := by
  rw [trySlot, slotImage_congr h, slotFailed]
  cases imageCheck (slotImage s k) <;> rfl

theorem slotFailed_dict (s : State) (k : Nat) (w : State) : (slotFailed s k w).dict = w.dict := by
  rw [slotFailed]
  split
  · rfl
  · rw [setSticky_dict]

/-- Boot loads the image of the preferred slot, else of the other, else recovery. -/
theorem loadImage_eq (s : State) : loadImage s =
    (let p := preferredSlot s
     let u := putObj Oid.modesBootStatus 0 0 s
     if imageCheck (slotImage s p) = .good then putObj Oid.modesBootSlot 0 p { u with modes := { u.modes with step := .imageLoaded } }
     else if imageCheck (slotImage s (1 - p)) = .good then runSlot (1 - p) (slotFailed s p u)
     else
       let w := slotFailed s (1 - p) (slotFailed s p u)
       putObj Oid.modesBootSlot 0 2 { w with modes := { w.modes with step := .recovery } }) := by
  have hp : preferredSlot (putObj Oid.modesBootStatus 0 0 s) = preferredSlot s := by
    rw [preferredSlot, preferredSlot, putObj_dict]
  rw [loadImage]
  dsimp only
  rw [hp, trySlot_eq (putObj_dict _ _ _ s)]
  by_cases h1 : imageCheck (slotImage s (preferredSlot s)) = .good
  · rw [if_pos h1, if_pos h1]
    rfl
  · rw [if_neg h1, if_neg h1]
    dsimp only
    rw [trySlot_eq ((slotFailed_dict _ _ _).trans (putObj_dict _ _ _ s))]
    by_cases h2 : imageCheck (slotImage s (1 - preferredSlot s)) = .good
    · rw [if_pos h2, if_pos h2]
    · rw [if_neg h2, if_neg h2]

/-- Settles O29: each step of Boot in the mode and at the step it belongs to. -/
theorem bootInOrder : Obligations.BootInOrder := by
  refine ⟨fun s hb hst => ?image, fun s hb hst => ?bist, fun s train test hb hst hc => ?trainCold, fun s train test hb hst hc => ?trainWarm,
    fun s train test hd ht hp => ?trainWake, fun s micros hb hst => ?complete⟩
  case image =>
    show execBootImageLoad s = _
    rw [execBootImageLoad, hb, hst, if_pos (by decide), loadImage_eq]
    rfl
  case bist =>
    have hexec : ∀ a b c, execBootBist a b c s = .next (
        let s := if c then s else setSticky Oid.modesBootStatus 0 0x40 s
        let s := if b then s else setSticky Oid.modesBootStatus 0 0x20 s
        let s := if a then s else setSticky Oid.modesBootStatus 0 0x10 s
        if a && b then { s with modes := { s.modes with step := .firmwareStarted } } else haltBy (b2n (!a) + 2 * b2n (!b)) s) := by
      intro a b c
      rw [execBootBist, hb, hst, if_pos (by decide)]
      dsimp only
      cases a <;> cases b <;> rfl
    exact ⟨hexec _ _ _, hexec _ _ _, hexec _ _ _, hexec _ _ _⟩
  case trainCold =>
    show execHbmTraining train test s = _
    rw [execHbmTraining]
    dsimp only
    rw [hb, hst, if_pos (by decide), hc, if_pos rfl]
  case trainWarm =>
    show execHbmTraining train test s = _
    rw [execHbmTraining]
    dsimp only
    rw [hb, hst, if_pos (by decide), hc, if_neg (by decide)]
  case trainWake =>
    show execHbmTraining train test s = _
    rw [execHbmTraining]
    dsimp only
    rw [hd, ht, hp, if_neg (by simp), if_pos (by decide)]
  case complete =>
    intro u v
    show execBootComplete micros s = _
    have hv : v.time = u.time := by rw [show v = putObj _ 0 _ (putObj _ 0 _ u) from rfl, putObj_time, putObj_time]
    rw [execBootComplete, hb, hst, if_pos (by decide)]
    show Host.Outcome.next (bootEnds { v with modes := { v.modes with step := .done, bootEnd := v.time.ticks } }) = _
    rw [hv]

end Sys2Proof.Machine
end

section
/-! SUPPORT. Reception at a port (O32). -/

namespace Sys2Proof.Machine

open Sys2Proof

/-! ### Frames received -/

section Frames

variable {b fcs : List Byte} (hfcs : fcs.length = 4)
include hfcs

theorem take_body : (b ++ fcs).take ((b ++ fcs).length - 4) = b :=
  List.take_left' (by simp [hfcs])

theorem drop_body : (b ++ fcs).drop ((b ++ fcs).length - 4) = fcs :=
  List.drop_left' (by simp [hfcs])

/-- The error of a frame whose length is allowed is that of its FCS. -/
theorem macError_length {s : State} {p : Nat} (hmin : 60 ≤ b.length) (hmax : b.length + 4 ≤ getObj s Oid.portMaxFrame p) :
    macError s p (b ++ fcs) = if leNat fcs = ethFcs b then none else some Oid.portRxFcsErrors := by
  have hlen : (b ++ fcs).length = b.length + 4 := by simp [hfcs]
  have hcount : countedLength (b ++ fcs) ≤ (b ++ fcs).length := Nat.sub_le _ _
  rw [macError, if_neg (by omega), if_neg (by omega), take_body hfcs, drop_body hfcs]
  simp only [bne_iff_ne, ne_eq, ite_not]

/-- A frame of an allowed length: counted where its FCS is wrong, entered where the MAC accepts its destination, else counted when good. -/
theorem receiveFrame_length {s : State} {p ts : Nat} (hmin : 60 ≤ b.length) (hmax : b.length + 4 ≤ getObj s Oid.portMaxFrame p) :
    receiveFrame p (b ++ fcs) false ts s =
      if leNat fcs = ethFcs b then
        (if macAccepts s p (beNat (b.take 6)) then enterFrame p b ts false false s else bump Oid.portRxDmacDrops p s)
      else if macAccepts (bump Oid.portRxFcsErrors p s) p (beNat (b.take 6)) then
        enterFrame p b ts true false (bump Oid.portRxFcsErrors p s)
      else bump Oid.portRxFcsErrors p s := by
  have hdst : padTo 6 (b.take 6) = b.take 6 := by
    have h6 : (b.take 6).length = 6 := by simp; omega
    calc padTo 6 (b.take 6) = padTo (b.take 6).length (b.take 6) := by rw [h6]
      _ = b.take 6 := padTo_self _
  rw [receiveFrame, take_body hfcs, macError_length hfcs hmin hmax, hdst]
  by_cases hok : leNat fcs = ethFcs b
  · rw [if_pos hok, if_pos hok]
    rfl
  · rw [if_neg hok, if_neg hok]
    rfl

end Frames

theorem execFrameReceive_plain {p : Port} {frame : List Byte} {fix bad : Half} {stamp : Time96} {s : State} (hr : portReceives s p.val = true)
    (hf : fecActive s p.val = 0) (hm : isMacControl frame = false) :
    execFrameReceive p frame fix bad stamp s = .next (receiveFrame p.val frame false (Time96pack stamp) s) := by
  rw [execFrameReceive]
  dsimp only
  rw [hr, if_neg (by decide), if_pos hf, hf, hm, if_neg (by decide)]
  rfl

/-- Settles O32: a fault by its cause's condition, a frame by its check and its destination, a membership by what is wanted and held. -/
theorem portReception : Obligations.PortReception := by
  refine ⟨fun p s h => ?signal, fun p s h hf => ?fec, fun p s hl hr hb hloc => ?remote, fun p loc rem s h => ?faults,
    fun p b fcs fix bad stamp s hr hf hm hfcs hmin hmax => ?frame, fun p frame fix bad stamp s hr => ?deaf, fun q s hr hq => ?cascade,
    fun f s m hwas hwant => ?joins, fun f s m hwas hwant => ?leaves, fun s m h => ?alone, fun s m h => ?shared⟩
  case signal =>
    show execPortFault p 0 s = _
    exact if_pos h
  case fec =>
    show execPortFault p 1 s = _
    exact if_pos (by simpa using ⟨h, hf⟩)
  case remote =>
    show execPortFault p 2 s = _
    exact if_pos (by simp [hl, hr, hb, hloc])
  case faults =>
    show execLocalOrRemoteFault p loc rem s = _
    rw [execLocalOrRemoteFault, if_pos h]
  case frame =>
    have hexec : exec (.frameReceive p (b ++ fcs) fix bad stamp) s =
        .next (receiveFrame p.val (b ++ fcs) false (Time96pack stamp) s) := execFrameReceive_plain hr hf hm
    rw [hexec, receiveFrame_length hfcs hmin hmax]
    refine ⟨fun hok ha => ?_, fun hok ha => ?_, fun hbad ha => ?_⟩
    · rw [if_pos hok, if_pos ha]
    · rw [if_pos hok, if_neg (by simp [ha])]
    · rw [if_neg hbad, if_pos ha]
  case deaf =>
    show execFrameReceive p frame fix bad stamp s = _
    rw [execFrameReceive]
    dsimp only
    rw [hr, if_pos (by decide)]
  case cascade =>
    show execCascadeFrameDiscard q s = _
    rw [execCascadeFrameDiscard, hr, decide_eq_true hq, if_pos (by decide)]
  case joins =>
    show execMulticastJoin f s = _
    rw [execMulticastJoin, updateJoin]
    dsimp only
    rw [hwas, hwant, if_neg (by simp)]
  case leaves =>
    show execMulticastJoin f s = _
    rw [execMulticastJoin, updateJoin]
    dsimp only
    rw [hwas, hwant, if_neg (by simp)]
  case alone =>
    have hany : s.lp.joined.any (fun j => j.2 = some m) = false := by
      rw [List.any_eq_false]
      intro j hj
      simpa using h j hj
    rw [leaveGroup, hany, if_neg (by decide)]
  case shared =>
    have hany : s.lp.joined.any (fun j => j.2 = some m) = true := by
      obtain ⟨j, hj, hjm⟩ := h
      exact List.any_eq_true.mpr ⟨j, hj, by simpa using hjm⟩
    rw [leaveGroup, hany, if_pos rfl]

end Sys2Proof.Machine
end

section
/-! SUPPORT. PAUSE received and sent (O33). -/

namespace Sys2Proof.Machine

open Sys2Proof

/-! ### PAUSE received and sent -/

/-- A table's value at a key is the default or one it holds. -/
theorem tabGet_mem {α : Type} (d : α) (k : Nat) (l : List (Nat × α)) : tabGet d k l = d ∨ (k, tabGet d k l) ∈ l := by
  induction l with
  | nil => exact .inl rfl
  | cons e l ih =>
    obtain ⟨j, v⟩ := e
    by_cases h : j = k
    · subst h
      right
      rw [tabGet, if_pos rfl]
      exact List.mem_cons_self
    · rw [tabGet, if_neg h]
      exact ih.imp_right (List.mem_cons_of_mem _)

theorem portX_putPortX_self (p : Nat) (x : PortX) (s : State) : portX (putPortX p x s) p = x := tabGet_put_self

theorem portX_congr {s t : State} (h : t.lp = s.lp) (p : Nat) : portX t p = portX s p := by rw [portX, portX, h]

/-- A table into which a value is put under each key of a list. -/
theorem tabGet_foldl_tabPut (q k : Nat) (ks : List Nat) (t : List (Nat × Nat)) :
    tabGet 0 k ((ks.map (fun k => (k, q))).foldl (fun t e => tabPut 0 e.1 e.2 t) t) = if k ∈ ks then q else tabGet 0 k t := by
  induction ks generalizing t with
  | nil => simp
  | cons j ks ih =>
    rw [List.map_cons, List.foldl_cons, ih]
    by_cases hk : k ∈ ks
    · rw [if_pos hk, if_pos (List.mem_cons_of_mem _ hk)]
    · rw [if_neg hk]
      by_cases hj : k = j
      · subst hj
        rw [if_pos List.mem_cons_self]
        exact tabGet_put_self
      · rw [if_neg (by simp [hj, hk])]
        exact tabGet_put_ne (fun h => hj h.symm)

/-- The quanta of a PAUSE frame stand for every priority. -/
theorem pauseContent_pause {b : List Byte} (h : be16 b 0 = 0x0001) :
    pauseContent 1 b = (List.range 8).map (fun k => (k, be16 b 2)) := by
  rw [pauseContent, h]
  rfl

/-- A PAUSE of quanta that are not 0 ends no stop and stops every priority. -/
theorem macControl_pause {p q : Nat} {frame : List Byte} {s : State} (hh : isOn s Oid.portPauseHonour p = true)
    (hk : getObj s Oid.portFlowCtrl p = 1) (h0 : be16 (frame.drop 14) 0 = 0x0001) (hq : be16 (frame.drop 14) 2 = q) (hne : q ≠ 0) :
    macControl p frame s = setStops p ((List.range 8).map (fun k => (k, q))) (bump Oid.portRxPauseFrames p s) := by
  have hh' : isOn (bump Oid.portRxPauseFrames p s) Oid.portPauseHonour p = true := by
    rw [isOn, getObj_bump_ne (by decide)]
    exact hh
  have hk' : getObj (bump Oid.portRxPauseFrames p s) Oid.portFlowCtrl p = 1 := by
    rw [getObj_bump_ne (by decide)]
    exact hk
  have hends : ∀ f : Nat × Nat → Bool, ((List.range 8).map (fun k => (k, q))).filter (fun e => e.2 = 0 && f e) = [] := by
    intro f
    refine List.filter_eq_nil_iff.mpr (fun e he => ?_)
    obtain ⟨k, -, rfl⟩ := List.mem_map.mp he
    simp [hne]
  have hstops : ((List.range 8).map (fun k => (k, q))).filter (fun e => e.2 != 0) = (List.range 8).map (fun k => (k, q)) := by
    refine List.filter_eq_self.mpr (fun e he => ?_)
    obtain ⟨k, -, rfl⟩ := List.mem_map.mp he
    simp [hne]
  rw [macControl]
  dsimp only
  rw [hh', if_neg (by decide), hk', pauseContent_pause h0, hq, hends, hstops]
  rfl

theorem sendWaiting_tap (p : Nat) (s : State) : (sendWaiting p s).tap = s.tap := by
  rw [sendWaiting]
  split
  · rfl
  · refine foldl_still (π := State.tap) (fun u w => ?_) _ _
    rw [txFrame, emit_tap, addObj_tap, bump_tap]

/-- With no frame of the tap waiting, the end of a stop lets only the firmware's frames go. -/
theorem stopEnds_quiet {p prio : Nat} {s : State} (h : ∀ e ∈ s.tap.tx, e.2.frames = []) :
    stopEnds p prio s =
      (let u := putPortX p { (portX s p) with stopped := tabPut 0 prio 0 (portX s p).stopped } s
       if prio = 0 then sendWaiting p u else u) := by
  have hquiet : ∀ w : State, w.tap = s.tap → ∀ t, headFrame (txOf w t) = none := by
    intro w hw t
    have hf : (txOf w t).frames = [] := by
      rw [txOf, hw]
      rcases tabGet_mem ({} : TxX) t s.tap.tx with hd | hm
      · rw [hd]
      · exact h _ hm
    rw [headFrame, hf]
  have hfold : ∀ (l : List Nat) (w : State), w.tap = s.tap → l.foldl (fun s t =>
      match headFrame (txOf s t) with
      | some fr =>
        if cfgGet fr.cfg Oid.flowTxPort t = p && txPriority fr.cfg t = prio then
          dropHeld t (((startedFrames (txOf s t)).map (fun f => f.npk)).sum) s
        else s
      | none => s) w = w := by
    intro l
    induction l with
    | nil => exact fun _ _ => rfl
    | cons t l ih =>
      intro w hw
      rw [List.foldl_cons, hquiet w hw t]
      exact ih w hw
  rw [stopEnds]
  dsimp only
  split
  · exact hfold _ _ (sendWaiting_tap _ _)
  · exact hfold _ _ rfl

/-- A change of what is held, on a port that is up and sends PAUSE or PFC frames. -/
theorem pauseRequest_changed {p : Nat} {s : State} (hk : getObj s Oid.portFlowCtrl p ≠ 0) (hu : portUp s p = true)
    (hh : heldPriorities s p ≠ (portX s p).held) :
    pauseRequest p s =
      (let u := putPortX p { (portX s p) with held := heldPriorities s p } s
       if getObj s Oid.portFlowCtrl p = 1 ∧ (heldPriorities s p ≠ 0 ↔ (portX s p).held ≠ 0) then u
       else sendPause p (heldPriorities s p) (heldPriorities s p ||| (portX s p).held) u) := by
  rw [pauseRequest]
  dsimp only
  rw [if_neg (by simp [hk, hu]), if_neg hh]
  refine ite_congr ?_ (fun _ => rfl) (fun _ => rfl)
  have hget : ∀ x, getObj (putPortX p x s) Oid.portFlowCtrl p = getObj s Oid.portFlowCtrl p := fun x => rfl
  rw [hget]
  rw [Bool.and_eq_true, decide_eq_true_eq, decide_eq_true_eq, Bool.eq_iff_iff, bne_iff_ne, bne_iff_ne]

/-- Settles O33: what quanta stop, what their end lets go, and when a change is sent. -/
theorem flowControl : Obligations.FlowControl := by
  refine ⟨fun p frame s hr hm he hh => ?ignored, fun p frame s q _ hr hm he hh hk h0 hq hne => ?stops, fun p prio s hst hq => ?ends,
    fun p s hst hu => ?waits, fun p s hk hu hh => ?pfc, fun p s hk hu hh => ?pauses, fun p s hh => ?same, fun p s hh hu hk => ?repeats⟩
  case ignored =>
    show execPauseReceive p frame s = _
    rw [execPauseReceive, hr, hm, if_neg (by decide), he]
    dsimp only
    rw [macControl, if_pos]
    rw [isOn, getObj_bump_ne (by decide), ← isOn, hh]
    rfl
  case stops =>
    have hexec : exec (.pauseReceive p frame) s = .next (macControl p.val frame s) := by
      show execPauseReceive p frame s = _
      rw [execPauseReceive, hr, hm, if_neg (by decide), he]
    refine ⟨_, hexec, ?_, fun k hk8 => ?_⟩
    · rw [macControl_pause hh hk h0 hq hne, setStops, portX_putPortX_self, portX_congr (bump_lp _ _ _)]
    · rw [macControl_pause hh hk h0 hq hne, setStops, portX_putPortX_self]
      dsimp only
      rw [tabGet_foldl_tabPut, if_pos (List.mem_range.mpr hk8)]
  case ends =>
    show execPauseStopEnd p prio s = _
    rw [execPauseStopEnd, if_pos hst, stopEnds_quiet hq]
  case waits =>
    rw [sendWaiting, hst, hu, if_neg (by decide)]
    rfl
  case pfc =>
    show execPauseRequest p s = _
    rw [execPauseRequest, pauseRequest_changed (by omega) hu hh]
    dsimp only
    rw [if_neg (by omega)]
  case pauses =>
    show execPauseRequest p s = _
    rw [execPauseRequest, pauseRequest_changed (by omega) hu hh]
    refine congrArg _ (ite_congr (propext ?_) (fun _ => rfl) (fun _ => rfl))
    omega
  case same =>
    show execPauseRequest p s = _
    rw [execPauseRequest, pauseRequest]
    dsimp only
    rw [if_pos hh, ite_self]
  case repeats =>
    show execPauseRefresh p s = _
    rw [execPauseRefresh, if_neg (by simp [hh, hu, hk]), sendPause]

end Sys2Proof.Machine
end

section
/-! SUPPORT. Packets through the underback and the crossing (O34). -/

namespace Sys2Proof.Machine

open Sys2Proof

/-! ### Packets through the underback and the crossing -/

/-- A packet in progress whose only word left is its last. -/
theorem ubInProgress_cur {s : State} {g : Nat} {c : UbCur} (h : (ubOf s g).cur = some c) (hd : c.drop = false) :
    ubInProgress s g c.desc.pkt = true := by
  rw [ubInProgress, h]
  simp [hd]

section LastWord

variable {s : State} {g : Nat} {c : UbCur} {b : List Byte} (hc : (ubOf s g).cur = some c) (hd : c.drop = false) (ht : c.todo = [b])
  (hf : ubFull s g = false)
include hc hd ht hf

/-- A good packet's last word commits it, with its descriptor. -/
theorem ubFinish_good (hb : c.bad = false) : ubFinish g s =
    (let w := stageOf 1 ((c.desc.len + 31) % 32) (padTo 32 b) c.desc.pkt
     let t := bump Oid.underbackPackets g (putUb g { (ubOf s g) with chain := (ubOf s g).chain ++ [w], descs := (ubOf s g).descs ++ [c.desc], cur := none } s)
     ubClock g (match destFlow c.desc.dest with
       | some f => bump Oid.flowRxPackets f t
       | none => t)) := by
  have hfeed : feedCur g c s = s := by rw [feedCur, ht, feedAll]
  have hroom : makeRoom g s = s := by rw [makeRoom, hf, if_neg (by decide)]
  rw [ubFinish, hc]
  dsimp only
  rw [hd, if_neg (by decide), hfeed, ubInProgress_cur hc hd, if_neg (by decide), hb, if_neg (by decide), commitLast, ht, hroom]
  dsimp only [List.getLastD]
  rw [hf, if_neg (by decide), hc]
  cases destFlow c.desc.dest <;> rfl

/-- A bad packet's last word rewinds it. -/
theorem ubFinish_bad (hb : c.bad = true) : ubFinish g s = ubClock g (ubRewind g c.desc s) := by
  have hfeed : feedCur g c s = s := by rw [feedCur, ht, feedAll]
  have hroom : makeRoom g s = s := by rw [makeRoom, hf, if_neg (by decide)]
  rw [ubFinish, hc]
  dsimp only
  rw [hd, if_neg (by decide), hfeed, ubInProgress_cur hc hd, if_neg (by decide), hb, if_pos rfl, hroom, hf, if_neg (by decide)]

end LastWord

theorem fillChain_full {s : State} {g : Nat} (c : UbCur) (hf : ubFull s g = true) (l : List (List Byte)) : fillChain g c l s = (s, l) := by
  match l with
  | [] => rfl
  | [b] => rfl
  | b :: b' :: t => rw [fillChain, hf, if_pos rfl]

/-- With no packet in progress the crossing alone acts. -/
theorem execCrossingRead_idle {n : Lane} {chk : WordCheck} {s : State} (h : (ubOf s (govLane s n.val)).cur = none) :
    execCrossingRead n chk s = .next (ubClock (govLane s n.val) (crossRead (govLane s n.val) chk s)) := by
  rw [execCrossingRead, h]

section Words

variable {s : State} {g : Nat} {w : UbWord} {rest : List UbWord} (hw : (ubOf s g).chain = w :: rest)
include hw

/-- A data word at the front, with room in the region and a descriptor: what its check found decides. -/
theorem crossRead_data {d : UbDesc} (hk : w.kind ≠ 2) (hr : regionFull s g = false)
    (hd : (ubOf s g).descs.find? (fun e => e.pkt = w.pkt) = some d) (chk : WordCheck) :
    crossRead g chk s =
      (let u := { (ubOf s g) with chain := rest, lastRead := w }
       if WordCheck.ok chk then
         let v := if chk = .corrected then correctDesc w.pkt u else u
         stageWord g w { d with corrected := d.corrected + b2n (chk = .corrected) }
           (countCheck g chk (putUb g { v with descs := if w.kind = 1 then v.descs.filter (fun e => e.pkt ≠ w.pkt) else v.descs } s))
       else ubDiscard g d (countCheck g chk (putUb g u s))) := by
  have hdesc : wordDesc (ubOf s g) w.pkt = some d := by rw [wordDesc, hd]
  rw [crossRead, hw]
  dsimp only
  rw [if_neg hk, hr, if_neg (by decide), hdesc]

/-- A marker at the front travels on with the packet it names. -/
theorem crossRead_marker {m : Marker} (hk : w.kind = 2) (hm : (ubOf s g).marker = some m) :
    crossRead g .clean s = putRegion g { (regionOf s g) with markers := (regionOf s g).markers ++ [(m.pkt, w.data)] }
      (putUb g { (ubOf s g) with chain := rest, lastRead := w, marker := none } s) := by
  rw [crossRead, hw]
  dsimp only
  rw [if_pos hk, hm]
  rfl

end Words

/-- Settles O34: the last word ends its packet, and the crossing acts by the front word and its check. -/
theorem packetsThroughTheUnderback : Obligations.PacketsThroughTheUnderback := by
  refine ⟨fun n s c b hc hb hd ht hf => ?commit, fun n s c b hc hb hd ht hf => ?rewind, fun n s c b l hc hd ht hf => ?cut,
    fun n chk s hc hw => ?underrun, fun n s w rest d hc hw hk hr hd => ?data, fun n s w rest m hc hw hk hm => ?marker⟩
  case commit =>
    intro g w t
    show execPacketCommit n s = _
    rw [execPacketCommit, hc]
    dsimp only
    rw [hb, if_neg (by decide)]
    exact congrArg _ (ubFinish_good hc hd ht hf hb)
  case rewind =>
    show execPacketRewind n s = _
    rw [execPacketRewind, hc]
    dsimp only
    rw [hb, if_pos rfl, ubFinish_bad hc hd ht hf hb]
  case cut =>
    show execChainFullCut n s = _
    rw [execChainFullCut]
    dsimp only
    rw [hc]
    dsimp only
    rw [hd, if_neg (by decide), ht, fillChain_full c hf]
    dsimp only
    rw [if_pos hf]
  case underrun =>
    show execCrossingRead n chk s = _
    rw [execCrossingRead_idle hc, crossRead, hw]
  case data =>
    intro g u v left
    have hexec : ∀ {chk t}, crossRead g chk s = t → exec (.crossingRead n chk) s = .next (ubClock g t) :=
      fun h => h ▸ execCrossingRead_idle hc
    exact ⟨hexec (crossRead_data hw hk hr hd .clean), hexec (crossRead_data hw hk hr hd .corrected),
      hexec (crossRead_data hw hk hr hd .uncorrectable), hexec (crossRead_data hw hk hr hd .parity)⟩
  case marker =>
    intro g u
    show execCrossingRead n .clean s = _
    rw [execCrossingRead_idle hc, crossRead_marker hw hk hm]

end Sys2Proof.Machine
end

section
/-! SUPPORT. Packets placed (O36). -/

namespace Sys2Proof.Machine

open Sys2Proof

/-! ### Packets placed -/

theorem updateBoil_regions (s : State) : (updateBoil s).lau.regions = s.lau.regions := by
  simp only [updateBoil]
  split
  · rw [setBoil_lau, fire_lau, setSticky_lau]
  · split
    · rw [setBoil_lau]
    · rfl

/-- A packet dealt with has left its region. -/
theorem passPacket_packets (g : Nat) (p : Staged) (s : State) :
    (regionOf (passPacket g p s) g).packets = (regionOf s g).packets.filter (fun q => q.desc.pkt ≠ p.desc.pkt) := by
  rw [passPacket, regionOf, updateBoil_regions, putRegion]
  dsimp only
  rw [tabGet_put_self]

/-- With no pitch waiting for a frame, a committed packet is placed as the state has it. -/
theorem execPacketPlace_noPitch {n : Lane} {s : State} (h : s.dict.pitch = none) : execPacketPlace n s = .next (placePacket n.val s) := by
  rw [execPacketPlace]
  cases opensFrame n.val s with
  | none => rfl
  | some f =>
    have hstay : pitchAtFrame false f s = s := by simp only [pitchAtFrame, h]
    dsimp only
    rw [hstay]

/-- A packet of a flow that runs and is not retired. -/
theorem placePacket_flow {g f : Nat} {s : State} {p : Staged} (hp : readyPacket s g = some p) (hd : p.desc.dest = .flow f)
    (hr : lauterRuns s g = true) (ht : isRetired s (resRxFlow f) = false) : placePacket g s = passPacket g p (placeFlow g f p s) := by
  rw [placePacket, hp]
  dsimp only
  rw [hd]
  dsimp only
  rw [hr, ht, if_neg (by decide)]

/-- A packet that no open frame carries, or one of GVSP does, on a GVSP flow. -/
theorem placeFlow_gvsp {g f : Nat} {s : State} {p : Staged}
    (h : (openFrames s f).find? (carriedBy p) = none ∧ getObj s Oid.flowRxType f = 2 ∨
      ∃ e, (openFrames s f).find? (carriedBy p) = some e ∧ e.cfg.gvsp = true) : placeFlow g f p s = placeGvsp g f p s := by
  rw [placeFlow]
  rcases h with ⟨hn, hk⟩ | ⟨e, he, hk⟩
  · rw [hn]
    simp only [hk]
  · rw [he]
    dsimp only
    rw [if_pos hk]

theorem placeGvsp_payload {g f : Nat} {s : State} {p : Staged} {m : GvspPacket} (hm : (frameUdp p.data).bind parseGvsp = some m)
    (hb : m.block ≠ 0) (hf : m.format = 3) : placeGvsp g f p s = placePayload g f p m s := by
  rw [placeGvsp, hm]
  dsimp only
  simp only [if_neg hb, hf]

/-- A payload packet of no open frame: stale, refused, or without a leader. -/
theorem placePayload_stray {g f : Nat} {s : State} {p : Staged} {m : GvspPacket} (h : frameOfBlock s f m.block = none) :
    placePayload g f p m s =
      if blockStale s f m.block = true then setSticky Oid.lauterStatus 0 1 (bump Oid.lauterStalePackets f s)
      else if blockRefused s f m.block m.ext = true then bump Oid.lauterRefusedPackets f s
      else bump Oid.lauterNoLeader f s := by
  rw [placePayload, h]
  rfl

/-- A payload packet of an open frame, by its leader, its size and whether it has come before. -/
theorem placePayload_frame {g f j : Nat} {s : State} {p : Staged} {m : GvspPacket} {fr : Frame}
    (h : frameOfBlock s f m.block = some (fr, j)) :
    placePayload g f p m s =
      if m.block ∉ fr.leaders then bump Oid.lauterNoLeader f s
      else if payloadOk fr.cfg m.id m.data.length = false then sendException g 0x09 p.desc.ts p.data (bump Oid.flowRxHeaderErrors f s)
      else if (m.block, m.id) ∈ fr.ids then setSticky Oid.lauterStatus 0 2 (bump Oid.lauterDuplicates f s)
      else tryComplete f fr.seq (placeRuns g p
        [(j * ((if fr.cfg.line then fr.cfg.blockLines else fr.cfg.lines) * fr.cfg.lineBytes) + (m.id - 1) * fr.cfg.pktBytes, m.data)]
        { (acceptPacket p (now s) fr) with ids := (m.block, m.id) :: fr.ids } s) := by
  rw [placePayload, h]
  dsimp only
  cases payloadOk fr.cfg m.id m.data.length <;> rfl

/-- Settles O36: a packet goes by its descriptor, its flow and, for a payload packet, the open frame of its block. -/
theorem packetsArePlaced : Obligations.PacketsArePlaced := by
  refine ⟨fun g s f hf => ?opens, fun g p s => passPacket_packets g p s, fun g s hn hp => ?empty, fun g s p hn hp =>
    ⟨fun hd => ?firmware, fun reason hd => ?exception, fun f hd hr => ?retired, fun f hd hr ht => ⟨fun hk hfind hparse => ?header, ?payload⟩⟩⟩
  case opens =>
    show execPacketPlace g s = _
    rw [execPacketPlace, hf]
  all_goals have hexec : ∀ {t}, placePacket g.val s = t → exec (.packetPlace g) s = .next t := fun h => h ▸ execPacketPlace_noPitch hn
  case empty =>
    refine hexec ?_
    rw [placePacket, hp]
  case firmware =>
    refine hexec ?_
    rw [placePacket, hp]
    dsimp only
    rw [hd]
  case exception =>
    refine hexec ?_
    rw [placePacket, hp]
    dsimp only
    rw [hd]
  case retired =>
    refine hexec ?_
    rw [placePacket, hp]
    dsimp only
    rw [hd]
    dsimp only
    rw [if_pos]
    rcases hr with h | h <;> simp [h]
  case header =>
    refine hexec ?_
    rw [placePacket_flow hp hd hr ht, placeFlow, hfind]
    simp only [hk]
    rw [placeSt, hparse]
    rfl
  case payload =>
    intro m hcarry hm hb hf
    have hplace : ∀ {t}, placePayload g.val f p m s = t → exec (.packetPlace g) s = .next (passPacket g.val p t) := by
      rintro t rfl
      exact hexec (by rw [placePacket_flow hp hd hr ht, placeFlow_gvsp hcarry, placeGvsp_payload hm hb hf])
    refine ⟨fun hstray => ⟨fun hs => ?_, fun hs href => ?_, fun hs href => ?_⟩, fun fr j hfr hl => ?_,
      fun fr j hfr hl => ⟨fun hok => ?_, fun hok hid => ?_, fun hok hid => ?_⟩⟩
    · exact hplace ((placePayload_stray hstray).trans (if_pos hs))
    · refine hplace ((placePayload_stray hstray).trans ?_)
      rw [if_neg (by simp [hs]), if_pos href]
    · refine hplace ((placePayload_stray hstray).trans ?_)
      rw [if_neg (by simp [hs]), if_neg (by simp [href])]
    · exact hplace ((placePayload_frame hfr).trans (if_pos hl))
    · refine hplace ((placePayload_frame hfr).trans ?_)
      rw [if_neg (not_not_intro hl), if_pos hok]
    · refine hplace ((placePayload_frame hfr).trans ?_)
      rw [if_neg (not_not_intro hl), if_neg (by simp [hok]), if_pos hid]
    · refine hplace ((placePayload_frame hfr).trans ?_)
      rw [if_neg (not_not_intro hl), if_neg (by simp [hok]), if_neg hid]

end Sys2Proof.Machine
end

section
/-! SUPPORT. Read errors of the cellar (O39). -/

namespace Sys2Proof.Machine

open Sys2Proof

/-! ### Read errors of the cellar -/

theorem countRead_uncorrectable_cel {r : HbmRead} (h : isUncorrectable r = true) (p : Nat) (s : State) : (countRead p r s).cel = s.cel := by
  have hsev : ∀ n, (if n = 0 then s else bump (Oid.cellarSevCount + n) p s).cel = s.cel := by
    intro n
    split
    · rfl
    · rw [bump_cel]
  cases r with
  | clean n => exact absurd h Bool.false_ne_true
  | corrected n =>
    rw [countRead, h]
    exact (bump_cel _ _ _).trans (hsev _)
  | uncorrectable n => exact (bump_cel _ _ _).trans (hsev _)

/-- A corrected read below severity 3 counts as such. -/
theorem countRead_corrected {n : Fin 4} (h : n.val ≠ 3) (p : Nat) (s : State) :
    countRead p (.corrected n) s = correctedReads p 1 (if n.val = 0 then s else bump (Oid.cellarSevCount + n.val) p s) := by
  have hn : isUncorrectable (.corrected n) = false := decide_eq_false (fun h3 => h (h3 ▸ rfl))
  rw [countRead, hn]
  rfl

/-- One of severity 3 counts as uncorrectable. -/
theorem countRead_corrected_three {n : Fin 4} (h : n.val = 3) (p : Nat) (s : State) :
    countRead p (.corrected n) s = bump Oid.cellarUeCount p (bump (Oid.cellarSevCount + 3) p s) := by
  obtain rfl : n = 3 := Fin.ext h
  rfl

theorem unitAddr_congr {s t : State} (p unit : Nat) (h1 : getObj t Oid.cellarPcPartition p = getObj s Oid.cellarPcPartition p)
    (h2 : getObj t Oid.cellarPcSlot p = getObj s Oid.cellarPcSlot p) : unitAddr t p unit = unitAddr s p unit := by
  rw [unitAddr, unitAddr, h1, h2]

/-- The unit of an uncorrectable re-read: poisoned, its row marked. -/
def poisonUnit (p unit a : Nat) (v : State) : State :=
  { v with cel := { v.cel with
      poisoned := if a ∈ v.cel.poisoned then v.cel.poisoned else a :: v.cel.poisoned
      marked := (p, unit / 32) :: v.cel.marked } }

/-- An uncorrectable read of a row that is not repaired, by what its second read finds. -/
theorem badRead_unrepaired {p unit : Nat} {first second : HbmRead} {s : State} (hf : isUncorrectable first = true)
    (hr : (p, unit / 32) ∉ s.cel.repaired) :
    let w := fire 0x171 (setSticky Oid.cellarStatus 0 1 (countRead p first s))
    let u := countRead (rereadPc w p) second w
    badRead p unit first second s = pcFault p 1 false (
      if isUncorrectable second then
        let v := if getObj s Oid.cellarPcPartition p = 2 then { u with modes := { u.modes with haltWant := u.modes.haltWant ||| 0x40 } } else u
        match unitAddr s p unit with
        | some a => poisonUnit p unit a v
        | none => v
      else u) := by
  intro w u
  have hcel : w.cel = s.cel := by
    rw [show w = fire 0x171 (setSticky Oid.cellarStatus 0 1 (countRead p first s)) from rfl, fire_cel, setSticky_cel,
      countRead_uncorrectable_cel hf]
  have hagain : ¬(p, unit / 32) ∈ w.cel.repaired := hcel.symm ▸ hr
  rw [badRead]
  dsimp only
  rw [decide_eq_false hagain, if_neg (by decide)]
  cases unitAddr s p unit <;> rfl

/-- Corrected reads counted in their window, with the warning once in a window at the threshold. -/
theorem correctedReads_eq (p n : Nat) (s : State) : correctedReads p n s =
    (let w := (s.time.ticks - s.modes.bootEnd) / 125000000
     let old := tabGet (0, 0) p s.cel.window
     let c := if old.1 = w then old.2 + n else n
     let u := addObj Oid.cellarCeCount p n s
     let v := { u with cel := { u.cel with window := tabPut (0, 0) p (w, c) u.cel.window } }
     if getObj s Oid.cellarCeThreshold p ≤ c ∧ tabGet 0 p s.cel.warned ≠ w + 1 then
       fire 0x172 (setSticky Oid.cellarStatus 0 2 { v with cel := { v.cel with warned := tabPut 0 p (w + 1) v.cel.warned } })
     else v) := by
  have hobj : getObj (addObj Oid.cellarCeCount p n s) Oid.cellarCeThreshold p = getObj s Oid.cellarCeThreshold p :=
    getObj_addObj_ne (by decide)
  simp only [correctedReads, addObj_time, addObj_modes, addObj_cel]
  refine ite_congr (propext ?_) (fun _ => rfl) (fun _ => rfl)
  rw [Bool.and_eq_true, decide_eq_true_eq, bne_iff_ne]
  exact and_congr_left' (by rw [← hobj]; rfl)

/-- Settles O39: an uncorrectable read by its second, a scrub by what it finds, the counts by their windows. -/
theorem cellarReads : Obligations.CellarReads := by
  refine ⟨fun p unit first second s hp hf hr => ?bad, fun s p h => ?single, fun s p q h hq => ?mirror, fun p unit first second s h => ?fine,
    fun n p s h => countRead_corrected h p s, fun n p s h => countRead_corrected_three h p s, fun n p s => rfl,
    fun p unit first second progress s hh hp hpart hf => ?scrub, fun p unit first second progress s hh hp hpart hf => ?scrubBad,
    fun p unit first second progress s hh => ?noScrub, fun p n s hp => ?window, fun k celsius s hc => ?stack⟩
  case bad =>
    intro w u v
    have hexec : exec (.uncorrectableRead p unit first second) s =
        .next (settleCauses (badRead p.val unit.val first second (setSticky Oid.faultsAlertStatus 0 0x10 s))) := by
      show execUncorrectableRead p unit first second s = _
      rw [execUncorrectableRead, hp, hf, if_pos (by decide)]
    have hpart : getObj (setSticky Oid.faultsAlertStatus 0 0x10 s) Oid.cellarPcPartition p.val = getObj s Oid.cellarPcPartition p.val :=
      getObj_setSticky_ne (by decide)
    have haddr : unitAddr (setSticky Oid.faultsAlertStatus 0 0x10 s) p.val unit.val = unitAddr s p.val unit.val :=
      unitAddr_congr _ _ hpart (getObj_setSticky_ne (by decide))
    rw [hexec, badRead_unrepaired hf (by rw [setSticky_cel]; exact hr), hpart, haddr]
    refine ⟨fun h2 => ?_, fun a h2 ha => ?_⟩
    · rw [h2, if_neg (by decide)]
    · rw [h2, if_pos rfl, ha]
      rfl
  case single => rw [rereadPc, if_neg h]
  case mirror =>
    rw [rereadPc, if_pos h, hq]
    rfl
  case fine =>
    show execUncorrectableRead p unit first second s = _
    rw [execUncorrectableRead, h, Bool.and_false, if_neg (by decide)]
  case scrub =>
    show execScrub p unit first second progress s = _
    rw [execScrub]
    dsimp only
    rw [if_pos (by simpa [hh, hp] using hpart), hf, if_neg (by decide)]
  case scrubBad =>
    show execScrub p unit first second progress s = _
    rw [execScrub]
    dsimp only
    rw [if_pos (by simpa [hh, hp] using hpart), hf, if_pos rfl]
  case noScrub =>
    show execScrub p unit first second progress s = _
    rw [execScrub]
    dsimp only
    rw [if_neg (by simp [hh])]
  case window =>
    intro w old c u v
    have hexec : exec (.ceThreshold p n) s = .next (correctedReads p.val n.toNat s) := by
      show execCeThreshold p n s = _
      rw [execCeThreshold, if_pos hp]
    rw [hexec, correctedReads_eq]
    refine ⟨fun hlow => ?_, fun hw => ?_, fun hc hw => ?_⟩
    · exact congrArg _ (if_neg (fun h => absurd h.1 (Nat.not_le.mpr hlow)))
    · exact congrArg _ (if_neg (fun h => h.2 hw))
    · exact congrArg _ (if_pos ⟨hc, hw⟩)
  case stack =>
    intro u
    have hexec : exec (.stackTempRead k celsius) s = .next (settleCauses (stackReading k.val celsius.toInt s)) := by
      show execStackTempRead k celsius s = _
      rw [execStackTempRead, if_neg hc]
    rw [hexec, stackReading]
    refine ⟨fun hhot => ?_, fun hcool => ?_, fun h1 h2 => ?_⟩
    · rw [if_pos hhot]
    · rw [if_neg (by omega), if_pos hcool]
    · rw [if_neg (by omega), if_neg (by omega)]

end Sys2Proof.Machine
end

section
/-! SUPPORT. The hydrometer compares, reads and closes (O47). -/

namespace Sys2Proof.Machine

open Sys2Proof

/-! ### The hydrometer's steps -/

theorem verdictOf_le (k : FrameCfg) (h : HydroFrame) (complete : Bool) : verdictOf k h complete ≤ 8 := by
  rw [verdictOf]
  split
  · exact Nat.le_refl 8
  split
  · decide
  split
  · decide
  split
  · decide
  split
  · decide
  dsimp only
  split <;> decide

theorem closeHydro_judged (s : State) (fr : Frame) (h : HydroFrame) :
    (closeHydro s fr h).closed = true ∧ (closeHydro s fr h).verdict ≤ 8 ∧
      ((closeHydro s fr h).valid = true ↔ (closeHydro s fr h).verdict < 5) := by
  refine ⟨rfl, verdictOf_le _ _ _, ?_⟩
  rw [closeHydro]
  exact decide_eq_true_iff

/-- The frame that HYDRO_CLOSE closes, behind frames of other flows and frames still open. -/
theorem execHydroClose_first {f : Flow} {s : State} {fr : Frame} {h : HydroFrame} {id : Nat} {pre post : List Frame}
    (hs : s.lau.frames = pre ++ fr :: post) (hpre : ∀ g ∈ pre, g.flow ≠ f.val ∨ g.cause = none) (hf : fr.flow = f.val)
    (hcause : fr.cause.isSome = true) (hcask : fr.cask = some id) (hh : fr.hydro = some h) (ho : h.closed = false) (hq : h.queue = [])
    (hr : h.reads = []) (hb : caskBusy s id = false) :
    execHydroClose f s = .next (putHydro fr (closeHydro s fr h) s) := by
  rw [execHydroClose, hs, List.findSome?_append, List.findSome?_eq_none_iff.mpr, Option.none_or, List.findSome?_cons, hh, hcask]
  · dsimp only
    rw [if_pos (by simp [hf, hcause, ho, hq, hr, hb])]
  · intro g hg
    split
    · rw [if_neg]
      rcases hpre g hg with h1 | h1 <;> simp [h1]
    · rfl

/-- Settles O47: a copy and a golden read by their conditions, a frame closed by its verdict, a self-test by its result. -/
theorem hydrometerSteps : Obligations.HydrometerSteps := by
  refine ⟨fun f s fr h c t hh hq => ⟨fun h1 h2 h3 => ?issued, fun hnot => ?compared⟩, fun f s fr h c t hh hr => ?golden,
    fun f s fr h id pre post hs hpre hf hcause hcask hhy ho hq hr hb => execHydroClose_first hs hpre hf hcause hcask hhy ho hq hr hb,
    closeHydro_judged, fun pass s h => if_pos h, fun pass s h => if_pos h⟩
  case issued =>
    show execHydroCompare f s = _
    rw [execHydroCompare, hh]
    dsimp only
    rw [hq]
    dsimp only
    rw [if_pos (by simp [h1, h2, h3])]
  case compared =>
    show execHydroCompare f s = _
    rw [execHydroCompare, hh]
    dsimp only
    rw [hq]
    dsimp only
    rw [if_neg]
    rcases hnot with h1 | h1 | h1 <;> simp [h1]
  case golden =>
    intro gb o n a bad
    have hrange : goldenRange { h with reads := t } fr.cfg c = (a, n) := rfl
    have hexec : exec (.goldenReadReturn f) s =
        if c.bad || goldenPoisoned s a n then .next (putHydro fr bad (bump Oid.hydroGoldenErrors 0 s))
        else if (goldenUnfilled s a n).1 then .next (putHydro fr bad (goldenUnfilled s a n).2)
        else .next (putHydro fr (compareCopy (goldenUnfilled s a n).2 fr.cfg c { h with reads := t }) (goldenUnfilled s a n).2) := by
      show execGoldenReadReturn f s = _
      rw [execGoldenReadReturn, hh]
      dsimp only
      rw [hr]
      dsimp only
      rw [hrange]
    rw [hexec]
    refine ⟨?_, fun hbad => ?_, fun hgood hpois hfill => ?_⟩
    · show execGoldenDeadline f s = _
      rw [execGoldenDeadline, hh]
      dsimp only
      rw [hr]
    · rw [if_pos]
      rcases hbad with h1 | h1 <;> simp [h1]
    · have hfilled : goldenUnfilled s a n = (false, s) := by
        rw [goldenUnfilled, List.any_eq_false.mpr (fun i hi => by simpa using hfill i (List.mem_range.mp hi)), if_neg (by decide)]
      rw [hgood, hpois, if_neg (by decide), hfilled]
      rfl

end Sys2Proof.Machine
end

section
/-! SUPPORT. The clock governor and the thermal limits (O52). -/

namespace Sys2Proof.Machine

open Sys2Proof

/-! ### The clock governor -/

theorem now_congr {s t : State} (h : t.time = s.time) : now t = now s := by rw [now, now, h]

/-- A fault's log touches, of the fault engine, nothing but the log. -/
theorem addLog_flt (res cause cls action n : Nat) (s : State) :
    (addLog res cause cls action n s).flt = { s.flt with log := (addLog res cause cls action n s).flt.log } := by
  rw [addLog]
  dsimp only
  rw [fire_flt, setSticky_flt, bump_flt]

theorem logUntracked_stepAt (res cause action : Nat) (s : State) : (logUntracked res cause action s).flt.stepAt = s.flt.stepAt := by
  rw [logUntracked, addLog_flt]

theorem logUntracked_hot (res cause action : Nat) (s : State) : (logUntracked res cause action s).flt.hot = s.flt.hot := by
  rw [logUntracked, addLog_flt]

/-- The objects of a step of the clock, before its hold begins. -/
def steppedTo (k : Nat) (s : State) : State :=
  setSticky Oid.faultsAlertStatus 0 8 (setSticky Oid.powerStatus 0 1
    (putObj Oid.powerClockStep 0 k (if k = 2 then bump Oid.powerStepsHalf 0 s else s)))

theorem stepDown_eq (k : Nat) (s : State) : stepDown k s = logUntracked resDevice 4 0 (fire 0x0BC
    { steppedTo k s with flt := { (steppedTo k s).flt with stepAt := tNanos (now (steppedTo k s)) } }) := rfl

theorem getObj_steppedTo (k : Nat) (s : State) : getObj (steppedTo k s) Oid.powerClockStep = k := by
  rw [steppedTo, getObj_setSticky_ne (by decide), getObj_setSticky_ne (by decide), getObj_putObj_self]

theorem steppedTo_time (k : Nat) (s : State) : (steppedTo k s).time = s.time := by
  rw [steppedTo, setSticky_time, setSticky_time, putObj_time]
  split
  · rw [bump_time]
  · rfl

theorem getObj_withFlt (f : FaultState) (s : State) (id idx : Nat) : getObj { s with flt := f } id idx = getObj s id idx := rfl

theorem getObj_stepDown (k : Nat) (s : State) : getObj (stepDown k s) Oid.powerClockStep = k := by
  have hk := getObj_steppedTo k s
  rw [stepDown_eq]
  generalize steppedTo k s = w at *
  rw [logUntracked, getObj_addLog (by decide) (by decide) (by decide) (by decide), getObj_fire (by decide) (by decide),
    getObj_withFlt]
  exact hk

theorem stepDown_stepAt (k : Nat) (s : State) : (stepDown k s).flt.stepAt = tNanos (now s) := by
  rw [stepDown_eq, logUntracked_stepAt, fire_flt, now_congr (steppedTo_time k s)]

/-- A supply that falls, outside Cold. -/
theorem execSupplySag_runs {mv : Half} {s : State} (h : s.modes.current ≠ .cold) : execSupplySag mv s = .next (supplyFalls mv.toNat s) := by
  rw [execSupplySag, if_neg h]

/-- At half clock a supply that falls changes nothing more. -/
theorem supplyFalls_half {mv : Nat} {s : State} (h : getObj s Oid.powerClockStep = 2) : supplyFalls mv s = s := by
  simp [supplyFalls, h]

theorem execSupplySag_half {mv : Half} {s : State} (h : getObj s Oid.powerClockStep = 2) : execSupplySag mv s = .next s := by
  rw [execSupplySag, supplyFalls_half h, ite_self]

/-! ### The thermal limits -/

theorem thermLimit_congr (s t : State) (g : Nat) {i : Nat} (h : i ≠ 0) : thermLimit t g i = thermLimit s g i := by
  match i, h with
  | 1, _ => simp only [thermLimit]
  | _ + 2, _ => simp only [thermLimit]

theorem hotCount_congr {s t : State} (h : t.flt.hot = s.flt.hot) (g i : Nat) : hotCount t g i = hotCount s g i := by
  rw [hotCount, hotCount, h]

theorem hotCount_putHot_ne {g i j n : Nat} (h : j ≠ i) (s : State) : hotCount (putHot g j n s) g i = hotCount s g i :=
  tabGet_put_ne (by omega)

/-- The counts of a reading against the warning limit. -/
def warnCounted (g : Nat) (t : Int) (s : State) : State :=
  putHot g 3 (hotNext s g 3 (decide (t ≤ thermLimit s g 0 - 5))) (putHot g 0 (hotNext s g 0 (decide (thermLimit s g 0 ≤ t))) s)

/-- The report of a warning. -/
def warned (g : Nat) (u : State) : State :=
  logUntracked resDevice 1 0 (fire 0x0BD (setSticky Oid.faultsAlertStatus 0 2 (setSticky Oid.powerStatus 0 2
    (bump Oid.powerThermalWarnings 0 (putHot g 4 1 u)))))

theorem thermWarn_eq (g : Nat) (t : Int) (s : State) : thermWarn g t s =
    if 2 ≤ hotNext s g 0 (decide (thermLimit s g 0 ≤ t)) && hotCount (warnCounted g t s) g 4 = 0 then warned g (warnCounted g t s)
    else if 2 ≤ hotNext s g 3 (decide (t ≤ thermLimit s g 0 - 5)) then putHot g 4 0 (warnCounted g t s)
    else warnCounted g t s := rfl

theorem warned_modes (g : Nat) (u : State) : (warned g u).modes = u.modes := by
  rw [warned, logUntracked_modes, fire_modes, setSticky_modes, setSticky_modes, bump_modes]
  rfl

theorem warned_hot (g : Nat) (u : State) : (warned g u).flt.hot = (putHot g 4 1 u).flt.hot := by
  rw [warned, logUntracked_hot, fire_flt, setSticky_flt, setSticky_flt, bump_flt]

theorem thermWarn_modes (g : Nat) (t : Int) (s : State) : (thermWarn g t s).modes = s.modes := by
  rw [thermWarn_eq]
  split
  · rw [warned_modes]
    rfl
  · split <;> rfl

/-- The warning leaves the counts of the other limits. -/
theorem hotCount_thermWarn {g i : Nat} (t : Int) (s : State) (h0 : i ≠ 0) (h3 : i ≠ 3) (h4 : i ≠ 4) :
    hotCount (thermWarn g t s) g i = hotCount s g i := by
  have hw : hotCount (warnCounted g t s) g i = hotCount s g i :=
    (hotCount_putHot_ne h3.symm _).trans (hotCount_putHot_ne h0.symm _)
  rw [thermWarn_eq]
  split
  · rw [hotCount_congr (warned_hot g _), hotCount_putHot_ne h4.symm, hw]
  · split
    · rw [hotCount_putHot_ne h4.symm, hw]
    · exact hw

/-- The report of the second reading at a critical limit: a Limp cause. -/
def critReported (halts : Bool) (s : State) : State :=
  let s := fire 0x0BE (setSticky Oid.faultsAlertStatus 0 4 (setSticky Oid.powerStatus 0 4 s))
  let s := logUntracked resDevice 2 (if halts then 0 else limpAction s) s
  { s with modes := { s.modes with limpWant := s.modes.limpWant ||| 2 } }

/-- The report of a halt limit: a Halt cause. -/
def haltReported (s : State) : State :=
  let s := logUntracked resDevice 3 (haltAction s) (setSticky Oid.powerStatus 0 8 s)
  { s with modes := { s.modes with haltWant := s.modes.haltWant ||| 8 } }

theorem critReported_modes (halts : Bool) (s : State) :
    (critReported halts s).modes = { s.modes with limpWant := s.modes.limpWant ||| 2 } := by
  rw [critReported]
  dsimp only
  rw [logUntracked_modes, fire_modes, setSticky_modes, setSticky_modes]

theorem haltReported_modes (s : State) : (haltReported s).modes = { s.modes with haltWant := s.modes.haltWant ||| 8 } := by
  rw [haltReported]
  dsimp only
  rw [logUntracked_modes, setSticky_modes]

/-- What a reading's runs at the critical and the halt limit cause. -/
def limitsActed (crit halt : Nat) (w : State) : State :=
  let halts := halt = 2 || (w.modes.current = .boot && halt = 1)
  let u := if crit = 2 then critReported halts w else w
  if halts then haltReported u else u

/-- A reading, by the runs of readings at its critical and halt limits that it makes. -/
theorem thermReading_eq (g : Nat) (t : Int) (s : State) : thermReading g t s =
    (let v := thermWarn g t s
     let crit := hotNext v g 1 (decide (thermLimit v g 1 ≤ t))
     let halt := hotNext v g 2 (decide (thermLimit v g 2 ≤ t))
     limitsActed crit halt (putHot g 2 halt (putHot g 1 crit v))) := rfl

theorem limitsActed_critical (w : State) : (limitsActed 2 0 w).modes = { w.modes with limpWant := w.modes.limpWant ||| 2 } := by
  rw [limitsActed]
  dsimp only
  rw [if_pos rfl, if_neg (by simp), critReported_modes]

theorem limitsActed_halt (crit : Nat) (w : State) : (limitsActed crit 2 w).modes.haltWant = w.modes.haltWant ||| 8 := by
  rw [limitsActed, if_pos (by simp), haltReported_modes]
  split
  · rw [critReported_modes]
  · rfl

/-- The run of readings at a limit, after the warning. -/
theorem hotNext_thermWarn (g : Nat) (t : Int) (s : State) {i : Nat} (h0 : i ≠ 0) (h3 : i ≠ 3) (h4 : i ≠ 4) :
    hotNext (thermWarn g t s) g i (decide (thermLimit (thermWarn g t s) g i ≤ t)) =
      if thermLimit s g i ≤ t then min 3 (hotCount s g i + 1) else 0 := by
  rw [thermLimit_congr s _ g h0, hotNext, hotCount_thermWarn t s h0 h3 h4]
  simp only [decide_eq_true_eq]

/-- A reading between the critical and the halt limit, the second of its run, is a Limp cause and no more. -/
theorem thermReading_critical {g : Nat} {t : Int} {s : State} (h1 : thermLimit s g 1 ≤ t) (hc : hotCount s g 1 = 1) (h2 : t < thermLimit s g 2) :
    (thermReading g t s).modes.limpWant = s.modes.limpWant ||| 2 ∧ (thermReading g t s).modes.haltWant = s.modes.haltWant := by
  have hm : (thermReading g t s).modes = { s.modes with limpWant := s.modes.limpWant ||| 2 } := by
    rw [thermReading_eq]
    dsimp only
    rw [hotNext_thermWarn g t s (by decide) (by decide) (by decide), hotNext_thermWarn g t s (by decide) (by decide) (by decide),
      if_pos h1, if_neg (by omega), hc, show min 3 (1 + 1) = 2 from rfl, limitsActed_critical, ← thermWarn_modes g t s]
    rfl
  exact ⟨by rw [hm], by rw [hm]⟩

/-- A reading at the halt limit, the second of its run, is a Halt cause. -/
theorem thermReading_halt {g : Nat} {t : Int} {s : State} (h2 : thermLimit s g 2 ≤ t) (hc : hotCount s g 2 = 1) :
    (thermReading g t s).modes.haltWant = s.modes.haltWant ||| 8 := by
  rw [thermReading_eq]
  dsimp only
  rw [hotNext_thermWarn g t s (i := 2) (by decide) (by decide) (by decide), if_pos h2, hc, show min 3 (1 + 1) = 2 from rfl, limitsActed_halt,
    ← thermWarn_modes g t s]
  rfl

/-- The greatest of the readings is one of them. -/
theorem hottest_spec (l : List Int) (h : l ≠ []) : hottest l ∈ l ∧ ∀ x ∈ l, x ≤ hottest l := by
  induction l with
  | nil => exact absurd rfl h
  | cons a l ih =>
    cases l with
    | nil => simp [hottest]
    | cons b l =>
      obtain ⟨hm, hle⟩ := ih (List.cons_ne_nil _ _)
      rw [hottest]
      · refine ⟨?_, List.forall_mem_cons.mpr ⟨Int.le_max_left _ _, fun x hx => Int.le_trans (hle x hx) (Int.le_max_right _ _)⟩⟩
        rw [Int.max_def]
        split
        · exact List.mem_cons_of_mem _ hm
        · exact List.mem_cons_self
      · exact fun h => absurd h (List.cons_ne_nil _ _)

/-- Settles O52: the governor by its step and the supply, the limits by the runs of readings at them. -/
theorem powerAndThermal : Obligations.PowerAndThermal := by
  refine ⟨fun mv s hc h0 => ⟨fun hd => ?deep, fun hd hs => ?sag, fun hd hs => ?fine⟩, fun mv s hc h1 => ⟨fun hd => ?deeper, fun hd => ?holds⟩,
    fun mv s h2 => execSupplySag_half h2, getObj_stepDown, fun mv s hk hheld hmv => ?stepEnds, fun mv s h => ?stepStays, stepDown_stepAt,
    fun s hc => if_neg hc, fun temps s hc hl => ?reading, fun g i s => ⟨rfl, rfl⟩, fun g t s h1 hh h2 => thermReading_critical h1 hh h2,
    fun g t s h2 hh => thermReading_halt h2 hh⟩
  case deep =>
    show execSupplySag mv s = _
    rw [execSupplySag_runs hc, supplyFalls, if_pos h0, if_pos hd]
  case sag =>
    show execSupplySag mv s = _
    rw [execSupplySag_runs hc, supplyFalls, if_pos h0, if_neg (by omega), if_pos hs]
  case fine =>
    show execSupplySag mv s = _
    rw [execSupplySag_runs hc, supplyFalls, if_pos h0, if_neg (by omega), if_neg (by omega)]
  case deeper =>
    show execSupplySag mv s = _
    rw [execSupplySag_runs hc, supplyFalls, if_neg (by omega), h1, decide_eq_true hd, if_pos (by decide)]
  case holds =>
    show execSupplySag mv s = _
    rw [execSupplySag_runs hc, supplyFalls, if_neg (by omega), decide_eq_false (Nat.not_lt.mpr hd), Bool.and_false, if_neg (by decide)]
  case stepEnds =>
    show execGovernorStepEnd mv s = _
    rw [execGovernorStepEnd, if_pos]
    simp [hk, stepHeld, hheld, hmv]
  case stepStays =>
    show execGovernorStepEnd mv s = _
    rw [execGovernorStepEnd, if_neg]
    simp only [Bool.and_eq_true, stepHeld, decide_eq_true_eq]
    omega
  case reading =>
    have hne : temps.map (fun w => w.toInt) ≠ [] := by
      rintro h
      rw [List.map_eq_nil_iff] at h
      rw [h] at hl
      exact absurd hl (by decide)
    obtain ⟨hm, hle⟩ := hottest_spec _ hne
    refine ⟨_, hm, hle, ?_⟩
    show execThermalReading temps s = _
    rw [execThermalReading, if_neg hc]
    dsimp only
    rw [List.take_of_length_le (by omega), List.zip_map_left, List.foldl_map]
    rfl

end Sys2Proof.Machine
end

section
/-! SUPPORT. Tags, completions and quarantine (O55). -/

namespace Sys2Proof.Machine

open Sys2Proof

/-! ### Tags and completions -/

theorem logAer_objs (e : Aer) (s : State) : (logAer e s).objs = s.objs := by
  rw [logAer]
  split <;> rfl

/-- The count of a completion of a quarantined tag, before the tag may return. -/
def lateCounted (s : State) : State :=
  logAer .advisoryNonFatal (bump Oid.hostlinkLateCompletions 0 (setSticky Oid.hostlinkStatus 0 4 s))

theorem lateCounted_spec (s : State) :
    getObj (lateCounted s) Oid.hostlinkLateCompletions = (getObj s Oid.hostlinkLateCompletions + 1) % 2 ^ objBits Oid.hostlinkLateCompletions ∧
    (lateCounted s).link.quar = s.link.quar ∧ (lateCounted s).link.tags = s.link.tags ∧ (lateCounted s).mem = s.mem ∧
    (lateCounted s).rk = s.rk ∧ (lateCounted s).tap = s.tap := by
  refine ⟨?_, ?_⟩
  · rw [lateCounted, getObj_congr (logAer_objs _ _), getObj_bump_self, getObj_setSticky_ne (by decide)]
  · rw [lateCounted, logAer]
    split <;> simp only [bump_link, bump_mem, bump_rk, bump_tap, setSticky_link, setSticky_mem, setSticky_rk, setSticky_tap, and_self]

theorem quarantined_returnTag (tag : Nat) (s : State) : quarantined (returnTag tag s) tag = false :=
  List.any_eq_false.mpr (fun t ht => by simpa using (List.mem_filter.mp ht).2)

/-- A completion of a quarantined tag is counted, and its last one returns the tag. -/
theorem lateCompletion_spec (tag : Nat) (last : Bool) (s : State) :
    let t := lateCompletion tag last s
    getObj t Oid.hostlinkLateCompletions = (getObj s Oid.hostlinkLateCompletions + 1) % 2 ^ objBits Oid.hostlinkLateCompletions ∧
    (last = true → quarantined t tag = false) ∧ (last = false → t.link.quar = s.link.quar) ∧
    t.link.tags = s.link.tags ∧ t.mem = s.mem ∧ t.rk = s.rk ∧ t.tap = s.tap := by
  obtain ⟨hcount, hquar, hrest⟩ := lateCounted_spec s
  cases last with
  | true => exact ⟨hcount, fun _ => quarantined_returnTag tag (lateCounted s), fun h => absurd h (by decide), hrest⟩
  | false => exact ⟨hcount, fun h => absurd h (by decide), fun _ => hquar, hrest⟩

/-- Settles O55: a tag by what it is kept for, the quarantine by its tags. -/
theorem tagsAndCompletions : Obligations.TagsAndCompletions := by
  refine ⟨fun tag data s e hu he => ?given, fun tag data s hu he hq => ?unexpected, fun tag s e he => ?timeout, fun tag s he => ?none,
    fun tag last s hq => ?late, fun tag last s hq => ?notQuarantined, fun tag s => rfl, fun tag s e hu he => ?poisoned⟩
  case given =>
    show execNpCompletion tag data s = _
    rw [execNpCompletion, if_pos hu, completion, he]
    rfl
  case unexpected =>
    show execNpCompletion tag data s = _
    rw [execNpCompletion, if_pos hu, completion, he]
    dsimp only
    rw [hq, if_neg (by decide)]
  case timeout =>
    show execCompletionTimeout tag s = _
    rw [execCompletionTimeout, he]
    rfl
  case none =>
    show execCompletionTimeout tag s = _
    rw [execCompletionTimeout, he]
  case late =>
    refine ⟨_, if_pos hq, lateCompletion_spec tag.val last s⟩
  case notQuarantined =>
    show execLateCompletion tag last s = _
    rw [execLateCompletion, hq, if_neg (by decide)]
  case poisoned =>
    intro u
    have hexec : ∀ {t}, poisonedCompletion tag.val s = t → exec (.poisonedCompletion tag) s = .next t := by
      rintro t rfl
      exact if_pos hu
    refine ⟨fun h => hexec ?_, fun h => hexec ?_⟩
    · rw [poisonedCompletion, he]
      dsimp only
      rw [if_neg h]
      rfl
    · rw [poisonedCompletion, he]
      dsimp only
      rw [if_pos h]
      rfl

end Sys2Proof.Machine
end

section
/-! SUPPORT. The state after reset (O59). -/

namespace Sys2Proof.Machine

open Sys2Proof

/-! ### The state after reset -/

theorem sound_reset : Sound State.reset := by
  unfold Sound Canonical Bounded
  decide

/-- After reset every object is at its default. -/
theorem getObj_reset (id idx : Nat) : getObj State.reset id idx = objDefault id idx := rfl

/-- An object whose default another table or the unit itself gives is none other than these. -/
theorem objDefault_row {id idx : Nat} {r : ObjRow} (hr : objRow? id = some r)
    (h : ¬(id = Oid.cellarPcPartition ∨ id = Oid.cellarPcSlot ∨ id = Oid.cellarShare ∨ id = Oid.cellarShare + 1 ∨ id = Oid.cellarShare + 2 ∨
      id = Oid.portMacAddr ∨ id = Oid.portFec ∨ id = Oid.dictMgmtMac ∨ id = Oid.dictObjectCount)) : objDefault id idx = r.default := by
  simp only [not_or] at h
  obtain ⟨h1, h2, h3, h4, h5, h6, h7, h8, h9⟩ := h
  rw [objDefault, if_neg h1, if_neg h2, if_neg h3, if_neg h4, if_neg h5, if_neg h6, if_neg h7, if_neg h8, if_neg h9, hr]

/-- The partitions after reset: of a stack's 32 PCs 20 for casks, 8 for golden frames, 2 for control, 2 spares. -/
theorem objDefault_partition {pc : Nat} : objDefault Oid.cellarPcPartition pc =
    (if pc % 32 < 20 then 0 else if pc % 32 < 28 then 1 else if pc % 32 < 30 then 2 else 3) := by
  rw [objDefault, if_pos rfl, bootPartition]

/-- Settles O59: the state after reset holds nothing, so every object reads its default. -/
theorem resetState : Obligations.ResetState :=
  ⟨sound_reset, rfl, rfl, rfl, rfl, rfl, rfl, rfl, rfl, fun id idx _ hr h => (getObj_reset id idx).trans (objDefault_row hr h),
    fun pc _ => (getObj_reset _ pc).trans objDefault_partition⟩

end Sys2Proof.Machine
end
